-- ==== Sys2Proof/Word.lean ====
section
/-! DEFINITION. The word and byte types (R5, R530) and the plainest arithmetic on them. -/

namespace Sys2Proof

/-- A byte of a structure or packet (R5). -/
abbrev Byte := BitVec 8

/-- A register word (R530). -/
abbrev Word := BitVec 64

/-- An FP32 pattern (R107 code 9). -/
abbrev F32 := BitVec 32

/-- A counter that wraps at 2^64 (R533). -/
def wrap64 (n : Nat) : Nat := n % 18446744073709551616

/-- A count that saturates at `top` (R389, R493, R495). -/
def satTo (top n : Nat) : Nat := min n top

end Sys2Proof
end

