-- ==== Sys2Proof/Syntax.lean ====
section
/-! DEFINITION. The commands of the block: one constructor of Instr per row of spec/opcode_table.json, with the
row's operands. An operand is what the command brings in from outside: the fields of a descriptor, packet or
register write, and the bytes the device reads from host memory or another endpoint for it. -/

namespace Sys2Proof

/-- The common header of a descriptor (R378) and the ring pair it was read from. -/
structure Hdr where
  ring : Nat
  tag : Nat
  irq : Bool
  vector : Nat
  deadline : Nat
  flow : Nat
deriving DecidableEq, Repr, Inhabited

/-- A session handle (R37). -/
structure Handle where
  fabricId : Nat
  channel : Nat
  index : Nat
  epoch : Nat
  count : Nat
deriving DecidableEq, Repr, Inhabited

/-- A location word (R74): tier and granule[63:8]. -/
structure Loc where
  tier : Nat
  granule : Nat
deriving DecidableEq, Repr, Inhabited

/-- Who makes a register access (R531, R532). -/
inductive Requester where
  | fn (n : Nat)
  | service
  | bmc
  | endpoint (fabricId : Nat)
deriving DecidableEq, Repr, Inhabited

/-- One stop string with its index entry (R46): kind 0 END, 1 TOOL. -/
structure StopString where
  kind : Nat
  len : Nat
  bytes : List Byte
deriving DecidableEq, Repr, Inhabited

/-- The parameter image of R46 with the sampler fields of R219 and the grammar fields of R232 that software writes. -/
structure ParamImage where
  genLimit : Nat
  eosId : Nat
  utf8Policy : Nat
  stopInclude : Bool
  stopCount : Nat
  evictEn : Bool
  pin : Bool
  stackMode : Nat
  parkTier : Nat
  seed : Word
  temperature : F32
  topP : F32
  minP : F32
  repPenalty : F32
  presence : F32
  frequency : F32
  topK : Nat
  penWindow : Nat
  biasCount : Nat
  penGenOnly : Bool
  outAddr : Nat
  outHeadAddr : Nat
  outTailAddr : Nat
  outExp : Nat
  bias : List (Nat × F32)
  startState : Nat
  restart : Bool
  stops : List StopString
deriving DecidableEq, Repr, Inhabited

/-- A model profile record (R105, R246). `reservedSet` says that a reserved code or bit of the record is set. -/
structure Profile where
  layers : Nat
  kvHeads : Nat
  group : Nat
  headDim : Nat
  pagePos : Nat
  kvFormat : Nat
  kvCodec : Nat
  kvPlace : Nat
  valid : Bool
  reservedSet : Bool
  maxPositions : Nat
  window : Nat
  softcap : F32
  sinkRows : Nat
  evictThreshold : Nat
  evictDecay : Nat
  recentWindow : Nat
  kind : Nat
  mPlace : Nat
  maxBatch : Nat
  ctxCount : Nat
  maxTokens : Nat
  maxRows : Nat
  vocab : Nat
  ctxPositions : Nat
deriving DecidableEq, Repr, Inhabited

/-- The fields of OP_KV_APPEND and OP_ATTN_PREFILL (R150), with the token words and the K and V parts read for
them: one list of bytes per position, all KV heads in order (R142). -/
structure AppendArgs where
  handle : Handle
  layer : Nat
  tokens : Nat
  qFmt : Nat
  oFmt : Nat
  saturate : Bool
  isPartial : Bool
  qAddr : Nat
  kAddr : Nat
  vAddr : Nat
  oAddr : Nat
  lseAddr : Nat
  kbase : Nat
  tokAddr : Nat
  q : List Byte
  k : List Byte
  v : List Byte
  toks : List Nat
deriving DecidableEq, Repr, Inhabited

/-- OP_ATTN_MERGE (R160), with the bytes of each part as read: rows × d FP32 values of O, then rows LSE pairs. -/
structure MergeArgs where
  count : Nat
  oFmt : Nat
  headDim : Nat
  saturate : Bool
  rows : Nat
  inAddr : Nat
  stride : Nat
  outAddr : Nat
  lseAddr : Nat
  parts : List (List Byte)
deriving DecidableEq, Repr, Inhabited

/-- A list entry of OP_STEP (R177). -/
structure StepEntry where
  handle : Handle
  tokens : Nat
  driver : Nat
deriving DecidableEq, Repr, Inhabited

/-- OP_STEP (R177). -/
structure StepArgs where
  count : Nat
  listAddr : Nat
  resultAddr : Nat
  entries : List StepEntry
deriving DecidableEq, Repr, Inhabited

/-- OP_TEXT_IN (R201), with the text read. -/
structure TextArgs where
  handle : Handle
  textAddr : Nat
  textLen : Nat
  last : Bool
  hostCopy : Bool
  tokAddr : Nat
  tokCap : Nat
  text : List Byte
deriving DecidableEq, Repr, Inhabited

/-- The load and unload descriptors of R197, R231 and R250. -/
structure LoadArgs where
  slot : Nat
  channels : BitVec 8
  keySlot : Nat
  addr : Nat
  len : Nat
deriving DecidableEq, Repr, Inhabited

/-- A draft entry (R225): the token and its support pairs. -/
structure DraftEntry where
  token : Nat
  support : List (Nat × F32)
deriving DecidableEq, Repr, Inhabited

/-- OP_SESSION_DRAFT (R225). -/
structure DraftArgs where
  handle : Handle
  addr : Nat
  base : Nat
  count : Nat
  entries : List DraftEntry
deriving DecidableEq, Repr, Inhabited

/-- One input of a model run (R258), with its token ids, or its text when the run's text flag is set. -/
structure RunInput where
  off : Nat
  len : Nat
  pos : Nat
  context : Option Nat
  toks : List Nat
  text : List Byte
deriving DecidableEq, Repr, Inhabited

/-- OP_MODEL_RUN (R258). -/
structure RunArgs where
  profile : Nat
  text : Bool
  greedy : Bool
  steps : Nat
  tokenizer : Nat
  count : Nat
  support : Nat
  inAddr : Nat
  dataAddr : Nat
  dataLen : Nat
  outAddr : Nat
  outLen : Nat
  seed : Word
  inputs : List RunInput
deriving DecidableEq, Repr, Inhabited

/-- A tokenizer image (R193, R194): the 256 bytes of its header and its seven sections as they stand in the image, each listed as far as it
is not zero: section 0 by the number of the index entry and by 256 × leaf + place (16-bit words), 1 as its entries (64-bit words) and its heap
(32-bit words), 2 as 64-bit words, 3 and 6 as bytes, 4 as 64-bit words, 5 by the number of the slot (64-bit words). -/
structure TokImage where
  header : List Byte
  index : List (Nat × Nat)
  leaves : List (Nat × Nat)
  decomp : List Nat
  cpHeap : List Nat
  comp : List Nat
  split : List Byte
  trie : List Nat
  slots : List (Nat × Nat)
  heap : List Byte
deriving DecidableEq, Repr, Inhabited

/-- A grammar image (R229): the 64 bytes of its header, its states (32-bit words), the bytes of its masks by number, and the slots of its
transition table by number (64-bit words); what is not listed is zero. -/
structure GramImage where
  header : List Byte
  states : List Nat
  masks : List (Nat × List Byte)
  slots : List (Nat × Nat)
deriving DecidableEq, Repr, Inhabited

/-- A layer-table entry of a model image (R249). -/
structure ModelLayer where
  opFirst : Nat
  opCount : Nat
  width : Nat
  stream : Bool
  wOff : Nat
  wLen : Nat
deriving DecidableEq, Repr, Inhabited

/-- A tensor reference (R254). -/
structure TensorRef where
  space : Nat
  offset : Nat
deriving DecidableEq, Repr, Inhabited

/-- An operator descriptor (R255). -/
structure ModelOp where
  op : Nat
  variant : Nat
  aFmt : Nat
  bFmt : Nat
  outFmt : Nat
  saturate : Bool
  rowsRun : Bool
  lastRows : Bool
  m : Nat
  n : Nat
  k : Nat
  a : TensorRef
  b : TensorRef
  c : TensorRef
  out : TensorRef
  param : F32
deriving DecidableEq, Repr, Inhabited

/-- A model image (R248): the fields of its header, its layer table, its operators and its weight section, decrypted where it is protected
(R282). -/
structure ModelImage where
  magic : Nat
  version : Nat
  isProtected : Bool
  layerCount : Nat
  opCount : Nat
  progLen : Nat
  weightsLen : Nat
  actT1 : Nat
  actT2 : Nat
  outBytes : Nat
  profile : Nat
  layers : List ModelLayer
  ops : List ModelOp
  weights : List Byte
deriving DecidableEq, Repr, Inhabited

/-- A shard entry of a manifest (R304). -/
structure ShardEntry where
  channel : Nat
  step : Nat
  generation : Nat
  length : Nat
  digest : List Byte
  records : Nat
  sessions : Nat
  buddy : Nat
deriving DecidableEq, Repr, Inhabited

end Sys2Proof

namespace Sys2Proof.Machine

open Sys2Proof

/-- A table with numbered entries: pairs of number and entry, numbers rising. -/
abbrev Tbl (α : Type) := List (Nat × α)

/-- Session states (R43), in the order of their codes. -/
inductive SessState where
  | closed | opened | runnable | running | waitingTool | parking | parked | reviving | stopped
deriving DecidableEq, Repr, Inhabited

/-- A directory entry (R41). -/
structure Dir where
  epoch : Nat := 0
  count : Nat := 1
  state : SessState := .closed
  savedState : SessState := .closed
  parkPend : Bool := false
  closePend : Bool := false
  forkPend : Bool := false
  resumePend : Bool := false
  streaming : Bool := false
  evictEn : Bool := false
  pin : Bool := false
  owner : Nat := 0
  profile : Nat := 0
  tokenizer : Nat := 0
  grammarSlot : Nat := 0
  grammarEn : Bool := false
  utf8Policy : Nat := 0
  stackMode : Nat := 0
  parkTier : Nat := 0
  kvLen : Nat := 0
  lastStep : Nat := 0
  sblk : Loc := ⟨0, 0⟩
  pmap : Loc := ⟨0, 0⟩
  pages : Nat := 0
  toolTag : Nat := 0
  deadline : Nat := 0
  asqIndex : Nat := 0
  asqValid : Bool := false
  sampPend : Bool := false
  histHead : Nat := 0
  histCount : Nat := 0
deriving DecidableEq, Repr, Inhabited

/-- A history entry (R45). -/
structure HistTok where
  token : Nat
  cut : Bool
  gen : Bool
deriving DecidableEq, Repr, Inhabited

/-- The tokenizer carry (R205). -/
structure Carry where
  utf8 : List Byte := []
  pend : List Nat := []
  piece : List Byte := []
  prevClass : Nat := 0
  runLen : Nat := 0
  pieceOpen : Bool := false
  inCount : Nat := 0
deriving DecidableEq, Repr, Inhabited

/-- The detokenizer carry and stop matcher (R235): the node ac_node is named by its path, the held bytes are the path's
last ac_depth bytes. -/
structure Matcher where
  dtUtf8 : List Byte := []
  node : List Byte := []
  depth : Nat := 0
  rel : List Byte := []
deriving DecidableEq, Repr, Inhabited

/-- The session block (R45, R46, R219, R232): the history ring and the state granule. `automaton` lists the nodes of
the stop automaton by their paths, breadth first (R237). -/
structure SBlk where
  history : Tbl HistTok := []
  img : ParamImage
  genLimitRun : Nat := 0
  genCount : Nat := 0
  stopReason : Nat := 0
  stopIndex : Nat := 0
  cutPending : Bool := false
  outTail : Nat := 0
  outHead : Nat := 0
  curState : Nat := 0
  gramSteps : Nat := 0
  carry : Carry := {}
  matcher : Matcher := {}
  automaton : List (List Byte) := []
deriving DecidableEq, Repr, Inhabited

end Sys2Proof.Machine

namespace Sys2Proof

open Sys2Proof.Machine

/-- A record as it is read back from a buddy store (R292, R301, R366), its envelope opened and its stream decoded: sessions and units are the
source's; a TAIL's rows are given for each KV head in order, K and then V; a unit of an index is its bytes. -/
inductive StoredRec where
  | dir (session : Nat) (d : Dir)
  | sblk (session : Nat) (b : SBlk)
  | queue (session : Nat) (words : List Nat)
  | tail (session layer first : Nat) (heads : List (List (List Byte) × List (List Byte)))
  | free (session entry : Nat)
  | clone (parent child : Nat)
  | close (session : Nat)
  | lhdr (bytes : List Byte)
  | lvec (segment unit : Nat) (bytes : List Byte)
  | lnode (segment unit : Nat) (bytes : List Byte)
  | lstate (unit : Nat) (bytes : List Byte)
  | lseg (segment : Nat) (freed : Bool)
  | fin (step : Nat)
deriving DecidableEq, Repr

/-- A session as the buddy store's records give it at a generation (R292): its handle at capture, its DIR, SBLK and queue, the K and
V rows by map entry, and the entries dropped. -/
structure StoredSession where
  oldHandle : Handle
  dir : Dir
  blk : SBlk
  queue : List Nat
  kv : List (Nat × List (List Byte) × List (List Byte))
  dropped : List Nat
deriving DecidableEq, Repr

/-- A Lens index header as software writes it (R349). -/
structure LensHdr where
  metric : Nat
  elem : Nat
  place : Nat
  dim : Nat
  degree : Nat
  entries : Nat
  buildBeam : Nat
  owner : Nat
  capacity : Nat
deriving DecidableEq, Repr, Inhabited

/-- A Lens node record (R352). -/
structure LensNode where
  aux : F32
  nbrs : List (Nat × F32)
deriving DecidableEq, Repr, Inhabited

/-- A SEARCH channel's index as the buddy store's records give it (R366): header, entry points, the tiers of each segment's arrays,
vectors, node records and states. -/
structure StoredLens where
  hdr : LensHdr
  epoch : Nat
  entry : List (Nat × Nat)
  segments : List (Nat × Nat × Nat)
  vectors : List (Nat × List F32)
  nodes : List (Nat × LensNode)
  states : List (Nat × Nat)
deriving DecidableEq, Repr

/-- A shard as read from a buddy (R312): the step of its END record, its length and its digest. -/
structure ShardRead where
  channel : Nat
  generation : Nat
  endStep : Nat
  length : Nat
  digest : List Byte
deriving DecidableEq, Repr, Inhabited

/-- A signed manifest as a buddy holds it (R304, R305), with what was read of the shards of its generation and the one before,
whether every named buddy holds it, whether its records' tags verify, and the records of every generation up to it, by source channel, in
the order the source sent them (R313). -/
structure Manifest where
  source : Nat
  serial : List Byte
  group : Nat
  generation : Nat
  keyGen : Nat
  pubkey : List Byte
  shards : List ShardEntry
  body : List Byte
  sig : List Byte
  heldByAll : Bool
  read : List ShardRead
  tagsOk : Bool
  records : List (Nat × StoredRec)
deriving DecidableEq, Repr

/-- OP_MIRROR_RESTORE (R310), with the manifests read from the named buddies. -/
structure RestoreArgs where
  channels : BitVec 8
  source : Nat
  maxGen : Option Nat
  reportAddr : Nat
  reportCap : Nat
  pubkey : List Byte
  buddies : List (Nat × Nat)
  manifests : List Manifest
deriving DecidableEq, Repr

/-- OP_MIRROR_ROLLBACK (R314), with the records that the buddy stores hold of every generation up to the named one, by channel, in the order
they were sent. -/
structure RollbackArgs where
  channels : BitVec 8
  gen : Nat
  reportAddr : Nat
  reportCap : Nat
  handle : Handle
  records : List (Nat × StoredRec)
deriving DecidableEq, Repr

/-- A partition entry image (R322). -/
structure PartImage where
  ownerFid : Nat
  ownerChannel : Nat
  poolChannel : Nat
  isolation : Nat
  valid : Bool
  leaseEn : Bool
  ownerFn : Nat
deriving DecidableEq, Repr, Inhabited

/-- The buddy slot of an extent (R323). -/
structure BuddySlot where
  fabricId : Nat
  channel : Nat
  partition : Nat
  slot : Nat
deriving DecidableEq, Repr, Inhabited

/-- An extent slot image (R323). -/
structure ExtentImage where
  pOff : Nat
  length : Nat
  tier : Nat
  state : Nat
  mirror : Nat
  mirrorOk : Bool
  buddy : BuddySlot
deriving DecidableEq, Repr, Inhabited

/-- The 64 B operation block of R330; an operation's code is the command's own. -/
structure PoolBlk where
  elem : Nat
  rop : Nat
  scalar : Bool
  wide : Bool
  dstPart : Nat
  dst : Nat
  srcPart : Nat
  src : Nat
  len : Nat
  operand : BitVec 128
  operand2 : BitVec 128
deriving DecidableEq, Repr, Inhabited

/-- The header of a packet (R434): the port it came in on, its source, its destination unit and its tag. -/
structure Pkt where
  port : Nat
  dstFid : Nat
  dstUnit : Nat
  srcFid : Nat
  srcUnit : Nat
  req : Nat
  fn : Nat
  gen : Nat
  status : Nat
  ackReq : Bool
  poison : Bool
  bulkRsp : Bool
deriving DecidableEq, Repr, Inhabited

/-- A result entry of a Lens query (R359). -/
structure TopkEntry where
  d : F32
  id : Nat
  truncated : Bool
  valid : Bool
  shard : Nat
deriving DecidableEq, Repr, Inhabited

/-- A bucket pair record (R409). -/
structure PairRec where
  cir : Nat
  pir : Nat
  cbs : Nat
  pbs : Nat
  police : Bool
  descriptors : Bool
  owner : Nat
deriving DecidableEq, Repr, Inhabited

/-- A flow-map entry (R408). -/
structure FlowRec where
  pair : Nat
  cls : Nat
  mapped : Bool
  owner : Nat
deriving DecidableEq, Repr, Inhabited

/-- The image of OP_IRIS_SET by its kind (R410); `reserved` stands for a reserved kind. -/
inductive IrisImage where
  | flow (r : FlowRec)
  | pair (r : PairRec)
  | shaper (idle : Nat)
  | reserved
deriving DecidableEq, Repr, Inhabited

/-- A gate-list entry (R415). -/
structure GateEntry where
  duration : Nat
  opens : BitVec 8
deriving DecidableEq, Repr, Inhabited

/-- A release blob (R466); `hdr` is its bytes 0x000 to 0x05F. -/
structure Blob where
  kind : Nat
  target : Nat
  gen : Nat
  minSvn : Nat
  kemSlot : Nat
  kemCount : Nat
  evDigest : List Byte
  kemCt : List Byte
  wrapIv : List Byte
  wrapped : List Byte
  tag : List Byte
  hdr : List Byte
deriving DecidableEq, Repr, Inhabited

/-- A debug token (R470). -/
structure Token where
  kind : Nat
  jtag : Bool
  trace : Bool
  authority : Nat
  serial : List Byte
  nonce : List Byte
  signer : List Byte
  body : List Byte
  sig : List Byte
deriving DecidableEq, Repr, Inhabited

/-- A service image (R457): header fields, the header's bytes and the code's. -/
structure FwImage where
  magic : Nat
  version : Nat
  svn : Nat
  codeLen : Nat
  codeDigest : List Byte
  signer : List Byte
  body : List Byte
  sig : List Byte
  header : List Byte
  code : List Byte
deriving DecidableEq, Repr, Inhabited

/-- A descriptor's header as the device reads it from a ring (R378): opcode, size code, flags, and the bytes of the
host ranges it names (R409). -/
structure Fetched where
  opcode : Nat
  size : Nat
  irq : Bool
  fence : Bool
  vector : Nat
  tag : Nat
  deadline : Nat
  flow : Nat
  rangeBytes : Nat
deriving DecidableEq, Repr, Inhabited

/-- A LINK message (R425): CONFIG contents, or a request to retrain. -/
inductive LinkMsg where
  | config (fid unit : Nat) (lanes : BitVec 4) (width : Nat) (credits : List Nat) (expect : Nat)
  | retrain
deriving DecidableEq, Repr, Inhabited

/-- An attention segment (R140). -/
structure Seg where
  stepLo : Nat
  slot : Nat
  layer : Nat
  part : Nat
  last : Bool
  rank : Nat
  offset : Nat
  len : Nat
  status : Nat
  data : List Byte
deriving DecidableEq, Repr, Inhabited

/-- An envelope as read from T3, T4 or a store (R277). -/
structure Envelope where
  magic : Nat
  mode : Nat
  codec : Nat
  keySlot : Nat
  keyGen : Nat
  nonce : List Byte
  bodyLen : Nat
  body : List Byte
  tag : List Byte
  crcs : List (BitVec 32)
deriving DecidableEq, Repr, Inhabited

/-- What a read response or a completed fetch brings (R437): the object read. A model image comes as its bytes. -/
inductive ReadData where
  | none
  | bytes (b : List Byte)
  | envelope (e : Envelope)
  | tokenizer (i : TokImage)
  | grammar (i : GramImage)
deriving DecidableEq, Repr, Inhabited

/-- The reading of one rail's regulator at a poll (R502): warning, fault (OFF) and millivolts, milliwatts. -/
structure RailReading where
  warning : Bool
  fault : Bool
  millivolts : Nat
  milliwatts : Nat
deriving DecidableEq, Repr, Inhabited

/-- What power-on finds (R511, R458): the straps, the images, boot record and endorsement in flash and the outcomes of the self-tests. -/
structure BootInput where
  fid : Nat
  adp : Nat
  enclaveTestCause : Nat
  channelOk : BitVec 8
  portOk : BitVec 9
  slotA : Option FwImage
  slotB : Option FwImage
  active : Bool
  trying : Bool
  confirmed : Bool
  tries : Nat
  endorsement : List Byte
deriving DecidableEq, Repr, Inhabited

/-- The origin of a reset (R401): a descriptor, a register write of PRT_RING_CTL, a pin, or adapter loss. -/
inductive ResetBy where
  | desc (d : Hdr)
  | reg (r : Requester)
  | pin
  | adapterLoss
deriving DecidableEq, Repr, Inhabited

/-- The commands. Each constructor is one row of the opcode table; its docstring names the rule. -/
inductive Instr where
  /-- OP_NOP (R391). -/
  | opNop (d : Hdr)
  /-- OP_BUF_REGISTER (R382). -/
  | opBufRegister (d : Hdr) (index base length : Nat)
  /-- OP_BUF_UNREGISTER (R382). -/
  | opBufUnregister (d : Hdr) (index : Nat)
  /-- OP_SESSION_OPEN (R57). -/
  | opSessionOpen (d : Hdr) (owner profile tokenizer grammarSlot : Nat) (grammarEn : Bool) (addr len : Nat) (img : ParamImage)
  /-- OP_SESSION_CLOSE (R58). -/
  | opSessionClose (d : Hdr) (h : Handle)
  /-- OP_SESSION_PARK (R64). -/
  | opSessionPark (d : Hdr) (h : Handle)
  /-- OP_SESSION_REVIVE (R67). -/
  | opSessionRevive (d : Hdr) (h : Handle)
  /-- OP_SESSION_FORK (R60). -/
  | opSessionFork (d : Hdr) (h : Handle)
  /-- OP_SESSION_RESUME (R56). -/
  | opSessionResume (d : Hdr) (h : Handle) (toolTag genLimit : Nat) (feedCut useDefault : Bool)
  /-- OP_SESSION_SET (R46). -/
  | opSessionSet (d : Hdr) (h : Handle) (addr len : Nat) (img : ParamImage) (rebind : Bool) (grammarSlot : Nat) (grammarEn : Bool)
  /-- OP_SESSION_QUERY (R392). -/
  | opSessionQuery (d : Hdr) (h : Handle) (addr : Nat)
  /-- OP_KV_PREFETCH (R97). -/
  | opKvPrefetch (d : Hdr) (h : Handle) (firstLayer layerCount : Nat)
  /-- OP_PROFILE_SET (R104). -/
  | opProfileSet (d : Hdr) (profile : Nat) (rec : Profile)
  /-- OP_KV_APPEND (R149). -/
  | opKvAppend (d : Hdr) (a : AppendArgs)
  /-- OP_ATTN_PREFILL (R149). -/
  | opAttnPrefill (d : Hdr) (a : AppendArgs)
  /-- OP_ATTN_MERGE (R160). -/
  | opAttnMerge (d : Hdr) (a : MergeArgs)
  /-- OP_STEP (R179). -/
  | opStep (d : Hdr) (a : StepArgs)
  /-- OP_TEXT_IN (R203). -/
  | opTextIn (d : Hdr) (a : TextArgs)
  /-- OP_TOKENIZER_LOAD (R199). -/
  | opTokenizerLoad (d : Hdr) (a : LoadArgs)
  /-- TOKENIZER_UNLOAD (R199). -/
  | tokenizerUnload (d : Hdr) (a : LoadArgs)
  /-- OP_SESSION_DRAFT (R226). -/
  | opSessionDraft (d : Hdr) (a : DraftArgs)
  /-- OP_GRAMMAR_LOAD (R231). -/
  | opGrammarLoad (d : Hdr) (a : LoadArgs)
  /-- GRAMMAR_UNLOAD (R231). -/
  | grammarUnload (d : Hdr) (a : LoadArgs)
  /-- OP_MODEL_LOAD (R251). -/
  | opModelLoad (d : Hdr) (a : LoadArgs)
  /-- MODEL_UNLOAD (R251). -/
  | modelUnload (d : Hdr) (a : LoadArgs)
  /-- OP_MODEL_RUN (R259). -/
  | opModelRun (d : Hdr) (a : RunArgs)
  /-- OP_MIRROR_SNAPSHOT (R391). -/
  | opMirrorSnapshot (d : Hdr)
  /-- OP_MIRROR_RESTORE (R313). -/
  | opMirrorRestore (d : Hdr) (a : RestoreArgs)
  /-- OP_MIRROR_ROLLBACK (R314). -/
  | opMirrorRollback (d : Hdr) (a : RollbackArgs)
  /-- SESSION_ROLLBACK (R315). -/
  | sessionRollback (d : Hdr) (a : RollbackArgs)
  /-- OP_PARTITION_SET (R324). -/
  | opPartitionSet (d : Hdr) (partition : Nat) (img : PartImage)
  /-- OP_EXTENT_SET (R324). -/
  | opExtentSet (d : Hdr) (partition slot : Nat) (img : ExtentImage)
  /-- OP_EXTENT_REVOKE (R341). -/
  | opExtentRevoke (d : Hdr) (partition slot : Nat)
  /-- OP_REBUILD (R344). -/
  | opRebuild (d : Hdr) (partition slot : Nat) (source : BuddySlot) (srcOff srcLen : Nat)
  /-- OP_POOL_OP (R334). -/
  | opPoolOp (d : Hdr) (op targetFid targetChannel resultAddr : Nat) (b : PoolBlk)
  /-- OP_WAIT_COUNT (R337). -/
  | opWaitCount (d : Hdr) (fabricId ring n timeout : Nat)
  /-- OP_LENS_CREATE (R346). -/
  | opLensCreate (d : Hdr) (hdr : LensHdr)
  /-- LENS_DESTROY (R346). -/
  | lensDestroy (d : Hdr)
  /-- OP_LENS_QUERY (R354). -/
  | opLensQuery (d : Hdr) (count k beam vecAddr outAddr : Nat) (vecs : List (List F32))
  /-- OP_LENS_INSERT (R362). -/
  | opLensInsert (d : Hdr) (count idAddr vecAddr : Nat) (ids : List Nat) (vecs : List (List F32))
  /-- OP_LENS_DELETE (R364). -/
  | opLensDelete (d : Hdr) (count idAddr : Nat) (ids : List Nat)
  /-- OP_LENS_CONSOLIDATE (R365). -/
  | opLensConsolidate (d : Hdr)
  /-- OP_MERGE_TOPK (R360). -/
  | opMergeTopk (d : Hdr) (lists kIn kOut inAddr outAddr : Nat) (data : List (List TopkEntry))
  /-- RING_RESET (R406). -/
  | ringReset (by_ : ResetBy) (ring : Nat)
  /-- FUNCTION_RESET (R404). -/
  | functionReset (by_ : ResetBy) (fn : Nat)
  /-- CHANNEL_RESET (R407). -/
  | channelReset (by_ : ResetBy) (channel : Nat)
  /-- WARM_DEVICE_RESET (R401). -/
  | warmDeviceReset (by_ : ResetBy)
  /-- OP_IRIS_SET (R410). -/
  | opIrisSet (d : Hdr) (index : Nat) (img : IrisImage)
  /-- OP_APERTURE_SET (R417). -/
  | opApertureSet (d : Hdr) (port : Nat) (enable : Bool) (count base listAddr : Nat) (entries : List GateEntry)
  /-- OP_COMPOSITION_SET (R418). -/
  | opCompositionSet (d : Hdr) (id : Nat) (channels : BitVec 8) (clear : Bool)
  /-- OP_COMPOSITION_READ (R420). -/
  | opCompositionRead (d : Hdr) (outAddr : Nat)
  /-- OP_EVIDENCE_GET (R460). -/
  | opEvidenceGet (d : Hdr) (nonce : List Byte) (outAddr outCap : Nat) (kem : Bool)
  /-- OP_KEY_RELEASE (R466). -/
  | opKeyRelease (d : Hdr) (blobAddr blobLen : Nat) (blob : Blob)
  /-- KEY_ERASE (R467). -/
  | keyErase (d : Hdr) (slot : Nat)
  /-- OP_GROUP_KEY (R467). -/
  | opGroupKey (d : Hdr) (blobAddr blobLen : Nat) (blob : Blob)
  /-- GROUP_KEY_ERASE (R467). -/
  | groupKeyErase (d : Hdr) (index : Nat)
  /-- DEBUG_CHALLENGE (R470). -/
  | debugChallenge (d : Hdr) (addr : Nat)
  /-- DEBUG_SUBMIT (R471). -/
  | debugSubmit (d : Hdr) (addr len : Nat) (token : Token)
  /-- FW_STAGE (R459). -/
  | fwStage (d : Hdr) (addr len : Nat) (img : FwImage)
  /-- FW_ACTIVATE (R459). -/
  | fwActivate (d : Hdr)
  /-- FW_COMMIT_SVN (R459). -/
  | fwCommitSvn (d : Hdr)
  /-- OP_ROLE_SET (R485). -/
  | opRoleSet (d : Hdr) (channel role drainTmo : Nat)
  /-- OP_SPECTRUM_SNAPSHOT (R496). -/
  | opSpectrumSnapshot (d : Hdr) (mask : BitVec 128) (outAddr : Nat) (clear : Bool)
  /-- CFG_COMMIT (R480). -/
  | cfgCommit (r : Requester) (scope : Nat)
  /-- CFG_UNLOCK (R479). -/
  | cfgUnlock (r : Requester) (scope : Nat)
  /-- CFG_DISCARD (R479). -/
  | cfgDiscard (r : Requester) (scope : Nat)
  /-- RING_ENABLE (R371). -/
  | ringEnable (r : Requester) (ring : Nat)
  /-- PRT_WDOG_KICK (R478). -/
  | prtWdogKick (r : Requester)
  /-- PRT_PEER_CLEAR (R492). -/
  | prtPeerClear (r : Requester)
  /-- PORT_ENABLE (R424). -/
  | portEnable (r : Requester) (port : Nat)
  /-- PORT_DISABLE (R424). -/
  | portDisable (r : Requester) (port : Nat)
  /-- REWIDEN (R426). -/
  | rewiden (r : Requester) (port : Nat)
  /-- WL_HEAD_WRITE (R543). -/
  | wlHeadWrite (r : Requester) (channel sub value : Nat)
  /-- VEC_UNMASK (R400). -/
  | vecUnmask (r : Requester)
  /-- ALERT_STATUS_CLEAR (R514). -/
  | alertStatusClear (r : Requester) (mask : BitVec 6)
  /-- POOL_LATE_WB_CLEAR (R533). -/
  | poolLateWbClear (r : Requester) (channel : Nat)
  /-- REG_WRITE (R530). -/
  | regWrite (r : Requester) (addr size : Nat) (value : Word)
  /-- NOTIFY_DB (R375). -/
  | notifyDb (p : Pkt) (fn line word value : Nat)
  /-- DB_POLL (R376). -/
  | dbPoll (words : List (Nat × Nat × Nat))
  /-- DESC_FETCH (R377). -/
  | descFetch (ring : Nat) (ds : List Fetched)
  /-- DESC_ADMIT (R379). -/
  | descAdmit (ring : Nat)
  /-- IRIS_REFILL (R411). -/
  | irisRefill
  /-- DESC_COMPLETE (R387). -/
  | descComplete (ring tag : Nat)
  /-- INTR_TIMER (R400). -/
  | intrTimer (fn vector : Nat)
  /-- COALESCE_PERIOD (R477). -/
  | coalescePeriod
  /-- PARTNER_DETECT (R424). -/
  | partnerDetect (port : Nat) (lanes : BitVec 4)
  /-- SIGNAL_DONE (R424). -/
  | signalDone (port : Nat) (lanes : BitVec 4)
  /-- EQUALIZE_DONE (R424). -/
  | equalizeDone (port : Nat) (lanes : BitVec 4)
  /-- ALIGN_DONE (R424). -/
  | alignDone (port : Nat) (lanes : BitVec 4)
  /-- LINK_MESSAGE (R425). -/
  | linkMessage (port : Nat) (m : LinkMsg)
  /-- TRAINING_LIMIT_EXPIRY (R424). -/
  | trainingLimitExpiry (port : Nat)
  /-- LANE_LOCK_LOSS (R427). -/
  | laneLockLoss (lane : Nat)
  /-- FEC_UNCORR_LIMIT (R427). -/
  | fecUncorrLimit (lane : Nat)
  /-- LINK_DOWN_TIMEOUT (R427). -/
  | linkDownTimeout (port : Nat)
  /-- DOWN_RETRY (R424). -/
  | downRetry (port : Nat)
  /-- FLIT_RECEIVE (R430). -/
  | flitReceive (port : Nat) (flit : List Byte)
  /-- REPLAY_TIMEOUT (R430). -/
  | replayTimeout (port : Nat)
  /-- ACK_TIMER (R430). -/
  | ackTimer (port : Nat)
  /-- READ_REQ (R436). -/
  | readReq (p : Pkt) (addr : Word) (bytes : Nat)
  /-- READ_RSP (R437). -/
  | readRsp (p : Pkt) (data : ReadData)
  /-- WRITE (R437). -/
  | write (p : Pkt) (addr : Word) (data : List Byte)
  /-- WRITE_BULK (R437). -/
  | writeBulk (p : Pkt) (addr : Word) (data : List Byte)
  /-- WRITE_ACK (R437). -/
  | writeAck (p : Pkt) (addr : Word)
  /-- POOL_RSP (R333). -/
  | poolRsp (p : Pkt) (done : Nat) (result : BitVec 128)
  /-- SEG_ATTN (R143). -/
  | segAttn (p : Pkt) (g : Seg)
  /-- SEG_SAMPLE (R217). -/
  | segSample (p : Pkt) (g : Seg)
  /-- REG_RSP (R436). -/
  | regRsp (p : Pkt) (value : Word)
  /-- CTR_READ (R336). -/
  | ctrRead (p : Pkt) (ring : Nat)
  /-- CTR_RSP (R337). -/
  | ctrRsp (p : Pkt) (ring value : Nat)
  /-- UNREACH (R435). -/
  | unreach (port : Nat) (lost : Pkt)
  /-- REQ_TIMEOUT (R435). -/
  | reqTimeout (unit req : Nat)
  /-- FILL (R331). -/
  | fill (p : Pkt) (b : PoolBlk)
  /-- COPY (R331). -/
  | copy (p : Pkt) (b : PoolBlk)
  /-- COMPARE (R331). -/
  | compare (p : Pkt) (b : PoolBlk)
  /-- REDUCE (R331). -/
  | reduce (p : Pkt) (b : PoolBlk)
  /-- ATOMIC_ADD (R331). -/
  | atomicAdd (p : Pkt) (b : PoolBlk)
  /-- CAS (R331). -/
  | cas (p : Pkt) (b : PoolBlk)
  /-- ACQUIRE_S (R338). -/
  | acquireS (p : Pkt) (b : PoolBlk)
  /-- ACQUIRE_M (R338). -/
  | acquireM (p : Pkt) (b : PoolBlk)
  /-- WRITEBACK (R338). -/
  | writeback (p : Pkt) (b : PoolBlk) (data : List Byte)
  /-- RELEASE (R338). -/
  | release (p : Pkt) (b : PoolBlk) (data : List Byte)
  /-- RENEW (R338). -/
  | renew (p : Pkt) (b : PoolBlk)
  /-- LEASE_EXPIRY (R340). -/
  | leaseExpiry (channel lease : Nat)
  /-- RECALL_TIMEOUT (R339). -/
  | recallTimeout (channel lease : Nat)
  /-- EXTENT_DRAINED (R341). -/
  | extentDrained (channel partition slot : Nat)
  /-- EXTENT_ZERO_FILL_DONE (R341). -/
  | extentZeroFillDone (channel partition slot : Nat)
  /-- SECONDARY_ACK_TIMEOUT (R343). -/
  | secondaryAckTimeout (channel partition slot : Nat)
  /-- REBUILD_COPY (R344). -/
  | rebuildCopy (channel partition slot : Nat)
  /-- GATHER_EXPIRY (R171). -/
  | gatherExpiry (channel : Nat)
  /-- WORK_LIST_FIX (R172). -/
  | workListFix (channel : Nat)
  /-- FIXED_LIST_FIX (R179). -/
  | fixedListFix (channel : Nat)
  /-- WORK_LIST_PUBLISH (R176). -/
  | workListPublish (channel : Nat)
  /-- WL_WAIT_TIMEOUT (R176). -/
  | wlWaitTimeout (channel : Nat)
  /-- LAYER_TIMEOUT (R180). -/
  | layerTimeout (channel stepNo slot : Nat)
  /-- BUCKET_BUILD (R161). -/
  | bucketBuild (channel layer : Nat)
  /-- ATTN_LAYER_COMPLETE (R145). -/
  | attnLayerComplete (channel stepNo slot : Nat)
  /-- MERGE_TIMEOUT (R158). -/
  | mergeTimeout (channel stepNo slot : Nat)
  /-- SAMPLE_ROW (R221). -/
  | sampleRow (channel stepNo slot : Nat)
  /-- OUT_HEAD_REFRESH (R241). -/
  | outHeadRefresh (channel index value : Nat)
  /-- BULK_UNIT_COMPLETE (R186). -/
  | bulkUnitComplete (channel unit : Nat) (poisoned : Bool)
  /-- PREEMPT_SAVE_COMPLETE (R188). -/
  | preemptSaveComplete (channel unit : Nat)
  /-- RESTORE_COMPLETE (R188). -/
  | restoreComplete (channel unit : Nat)
  /-- DEMOTE (R93). -/
  | demote (channel tier : Nat)
  /-- PAGE_MOVE_COMPLETE (R95). -/
  | pageMoveComplete (channel desc : Nat)
  /-- PAGE_ENCODE (R84). -/
  | pageEncode (channel desc : Nat)
  /-- FETCH_COMPLETE (R97). -/
  | fetchComplete (channel desc : Nat) (e : Envelope)
  /-- MODEL_RUN_DISPATCH (R262). -/
  | modelRunDispatch (channel : Nat)
  /-- WINDOW_FILL (R263). -/
  | windowFill (channel : Nat)
  /-- EXPANSION_SERVE (R357). -/
  | expansionServe (channel : Nat)
  /-- CONSOLIDATE_FREE (R365). -/
  | consolidateFree (channel : Nat)
  /-- WAIT_POLL (R337). -/
  | waitPoll (ring : Nat)
  /-- WAIT_TIMEOUT (R337). -/
  | waitTimeout (ring : Nat)
  /-- GATE_BOUNDARY (R416). -/
  | gateBoundary (port : Nat)
  /-- MIRROR_INTERVAL (R295). -/
  | mirrorInterval
  /-- CAPTURE_START (R295). -/
  | captureStart (channel : Nat)
  /-- COPIER_CAPTURE (R296). -/
  | copierCapture (channel : Nat)
  /-- MIRROR_ACK_TIMEOUT (R303). -/
  | mirrorAckTimeout (channel : Nat)
  /-- WARN_MEASURE (R308). -/
  | warnMeasure (condition source value : Nat)
  /-- EXCEPTION_COMPLETE (R475). -/
  | exceptionComplete (id : Nat)
  /-- WATCHDOG_EXPIRY (R478). -/
  | watchdogExpiry
  /-- FW_RESTART_DONE (R478). -/
  | fwRestartDone (duration : Nat)
  /-- FW_CONFIRM (R458). -/
  | fwConfirm
  /-- CHANNEL_FATAL_FAULT (R22). -/
  | channelFatalFault (channel cause : Nat)
  /-- DEVICE_FATAL_FAULT (R24). -/
  | deviceFatalFault (cause : Nat)
  /-- PATROL_SCRUB (R486). -/
  | patrolScrub (channel corrected : Nat) (passDone : Bool)
  /-- CHANNEL_RESET_DONE (R407). -/
  | channelResetDone (channel : Nat) (ok : Bool)
  /-- FUNCTION_FENCE_END (R404). -/
  | functionFenceEnd (fn : Nat)
  /-- SPECTRUM_SAMPLE (R495). -/
  | spectrumSample (monitor : Nat) (v : Int)
  /-- ENCLAVE_ERROR (R447). -/
  | enclaveError (cause : Nat)
  /-- PORST_N_FALL (R513). -/
  | porstNFall
  /-- PORST_N_RISE (R511). -/
  | porstNRise (b : BootInput)
  /-- WARM_N_RISE (R512). -/
  | warmNRise
  /-- PWRCAP_CHANGE (R518). -/
  | pwrcapChange (level : Bool)
  /-- THERMTRIP (R515). -/
  | thermtrip (sensor : Nat)
  /-- PLL_LOCK_LOSS (R509). -/
  | pllLockLoss
  /-- RAIL_FAULT (R505). -/
  | railFault (rail : Nat)
  /-- PMBUS_POLL (R502). -/
  | pmbusPoll (rs : List RailReading)
  /-- SMB1_ALERT_N (R502). -/
  | smb1AlertN (rs : List RailReading)
  /-- AVS_ADJUST (R501). -/
  | avsAdjust (allPass : Bool)
  /-- THERMAL_SAMPLE (R517). -/
  | thermalSample (temps : List Int)
  /-- POWER_CONTROL (R518). -/
  | powerControl (coreMw : Nat)
  /-- BMC_BLOCK_WRITE (R521). -/
  | bmcBlockWrite (addr : Nat) (value : Option (BitVec 32))
  /-- BMC_BLOCK_READ (R521). -/
  | bmcBlockRead
  /-- DRAIN_TMO_EXPIRY (R485). -/
  | drainTmoExpiry (channel : Nat)
  /-- SCRUB_COMPLETE (R468). -/
  | scrubComplete (channel tier granule : Nat)
  /-- PROVISIONING_SEQUENCE (R451). -/
  | provisioningSequence (serial fwAuth dbgAuth ownAuth : List Byte)
deriving DecidableEq, Repr

end Sys2Proof
end

