-- ==== Sys2Proof/Decode.lean ====
section
/-! DEFINITION. The words of the commands: the opcode table gives no row any bits, so no word spells a command. -/

namespace Sys2Proof

/-- The command a word spells by the bits of the opcode table: the table gives none of its rows any bits, so there is none. -/
def decodeTableWord (_nbits _w : Nat) : Option Instr := none

end Sys2Proof
end

