-- ==== Sys2Proof/Config.lean ====
section
/-! DEFINITION. The free values of the model: what the spec leaves open within stated bounds, or names by
a standard the spec does not reproduce. Each is opaque: no proof can see a value of it (log entry 3). -/

namespace Sys2Proof.Config

/-- One byte of a numerical result the spec bounds but does not fix (R138, R156, R257): result `ix`, byte `i`. -/
opaque freeByte (ix i : Nat) : Byte

/-- A page's score after an update, within the bound of R100 that the model imposes on it. -/
opaque freeScore (ix : Nat) : Nat

/-- The length in bytes of the coded stream the device's encoder writes for a page (R268). -/
opaque codedLen (ix : Nat) : Nat

/-- What a tile's scratch SRAM holds once work has run on it (R111): channel, number of the content, offset. The rules give no placement. -/
opaque scratchByte (ch k off : Nat) : Byte

/-- What a tile's accumulator entry holds once work has run on the tile (R120): channel, number of the content, entry. -/
opaque accEntry (ch k ix : Nat) : BitVec 128

/-- The blocks of a kernel that set sticky (R119): they depend on the division of the work (R138). -/
opaque stickyBlocks (ix : Nat) : Nat

/-- The width in tiles, less one and modulo 64, that a BULK unit declares where no field of its descriptor gives one (R184). -/
opaque unitWidth (ix : Nat) : Nat

/-- Where result `ix`, element `i` lies within the bound the spec gives it, in parts of 2^-64 of the bound; read clamped to the bound (R138,
R156, R257). -/
opaque freeShift (ix i : Nat) : Int

/-- Where the value of a function of the vector unit lies within its bound (R131), in parts of 2^-64 of it: 0 exp, 1 exp2, 2 log, 3 log2,
4 tanh, 5 reciprocal, 6 reciprocal square root. -/
opaque ulpShift (f : Nat) (x : F32) : Int

/-- Where the log of the uniform value (2k + 1) × 2^-25 of a draw (R223, R224) lies within its 1 ulp (R131). -/
opaque drawShift (k : Nat) : Int

/-- The bytes a decoder writes for a malformed block (R269): free value `ix`, byte `i`. -/
opaque malformedByte (ix i : Nat) : Byte

/-- AES-256-GCM open (R278, R283, R466): key name, nonce, additional data, ciphertext, tag. -/
opaque gcmOpen (key : Nat) (nonce : List Byte) (aad body tag : List Byte) : Option (List Byte)

/-- SHA3-512 (R444). -/
opaque sha3 (m : List Byte) : List Byte

/-- SHAKE256 with 512-bit output (R444, R456). -/
opaque shake512 (m : List Byte) : List Byte

/-- SHAKE256 with 256-bit output, the digest of a shard (R304). -/
opaque shake256 (m : List Byte) : List Byte

/-- Ed448 verification (R444): public key, context code, message, signature. -/
opaque edVerify (pub : List Byte) (context : Nat) (msg sig : List Byte) : Bool

/-- An Ed448 signature the device makes (R305, R462): the key's derived seed, context code and message. -/
opaque edSign (seed : List Byte) (context : Nat) (msg : List Byte) : List Byte

/-- The Ed448 public key of a derived seed (R452). -/
opaque publicKey (seed : List Byte) : List Byte

/-- The ML-KEM-1024 encapsulation key of the key pair numbered `dk` (R461). -/
opaque kemPublic (dk : Nat) : List Byte

/-- The measurement of the mask ROM, layer 0, or the OTP patch area, layer 1 (R456): their content is not in the spec. -/
opaque romMeasure (layer : Nat) : List Byte

/-- The level that the board drives on a GPIO pin (R523), below 16, or on another pin of the scan chain (R522) at an instant. -/
opaque pinIn (now pin : Nat) : Bool

/-- Feroskyn's JEP106 identity code (R522). -/
opaque jep106 : BitVec 11

/-- The holder or claimant code of EV_RESOURCE_PREEMPTED (R483, R493): 0 crash dump, 1 debug trace, 2 Spectrum raw capture. -/
opaque claimCode (k : Nat) : Nat

/-- ML-KEM-1024 decapsulation of the ciphertext under the key pair numbered `dk` (R466). -/
opaque kemDecaps (dk : Nat) (ct : List Byte) : List Byte

/-- KMAC256 derivation of R452: key, customisation code, context, output length in bits. -/
opaque derive (key : List Byte) (s : Nat) (x : List Byte) (bits : Nat) : List Byte

/-- Bytes drawn from the DRBG (R445): request number and byte. -/
opaque drbgByte (ix i : Nat) : Byte

/-- The serialised evidence record of a device in MANUFACTURING, which derives no identity (R451, R462): request number. -/
opaque evidenceBytes (ix : Nat) : List Byte

/-- A number the spec leaves open, numbered `ix`. -/
opaque openNat (ix : Nat) : Nat

/-- The operation code EV_POOL_VIOLATION carries for a plain access: read or write (R326). -/
opaque plainOp (write : Bool) : Nat

/-- The cause code of EV_POOL_POISON (R340): 0 expiry, 1 recall timeout, 2 link drop of the adapter. -/
opaque poisonCause (cause : Nat) : Nat

/-- The status code that answers a lease message for a line without its lease (R339): by operation code. -/
opaque lateStatus (op : Nat) : Nat

/-- The stored element of an index element its format cannot hold exactly (R347): format code and value. -/
opaque narrowElem (elem : Nat) (x : F32) : F32

/-- The first granule of the extent that a T3 region word of another device names, within its partition (R96). -/
opaque t3Base (region : Nat) : Nat

/-- The granules of that extent (R96). -/
opaque t3Granules (region : Nat) : Nat

/-- The egress class of the response to a request of another device (R414): the flow's class, which no field of a packet carries. -/
opaque responseClass (fid unit req : Nat) : Nat

end Sys2Proof.Config
end

