-- ==== Sys2Proof/Machine/State.lean ====
section
/-! DEFINITION. The state of the block: everything the spec gives it, as plain data, and its value at reset. -/

namespace Sys2Proof.Machine

open Sys2Proof

/-- Memory: address and byte, addresses rising, no byte 0 listed (an unlisted byte reads as 0, R511, R407). -/
abbrev Mem := List Host.Cell

/-- The status codes of R395. -/
inductive Status where
  | ok | opcodeInvalid | descSize | ringTarget | notPermitted | paramInvalid | lenZero | lenExceedsBuffer
  | bufInvalid | bufBusy | abortedReset | rateExceeded | waitTimeout
  | channelOffline | roleMismatch | channelFailed | mgmtBusy | cfgResourceConflict | peerUnreachable | poisoned
  | noSpace | bulkQueueFull | rollback
  | handleInvalid | sessionStale | sessionNotOwner | sessionState | sessionActive | sessionBusy
  | sessionNotResident | sessionTableFull | sessionEmpty | activeTableFull | toolTagMismatch | forkLimit
  | parkIncomplete | reviveFailed | prefillOpen
  | descTableFull | pageLost | contextLimit | profileBusy | attnProtocol | accelTimeout | schedMode
  | textInvalid | tokenizerBusy | grammarBusy | logitsInvalid | draftStale | draftBusy
  | modelNotLoaded | modelBusy | contextBusy
  | restoreNone | restoreTargetBusy | mirrorAbandoned
  | accessViolation | extentRevoked | extentState | leaseFull
  | indexState | indexBusy | idExists
  | keyNotReleased | authFailed | signatureInvalid | versionRevoked | lifecycle | nonceStale
deriving DecidableEq, Repr, Inhabited

/-- The events of R493 with their payloads. -/
inductive Event where
  | eventOverflow (lost : Nat)
  | ringFault (ring err : Nat)
  | functionResetDone (tag aborted detached gen : Nat)
  | functionQuiesced (gen : Nat)
  | channelFailed (channel cause : Nat)
  | mgmtCongested (entered : Bool) (used : Nat)
  | mgmtRestart (cause duration : Nat)
  | failureWarning (condition source value : Nat)
  | resourcePreempted (resource holder claimant : Nat) (start : Bool)
  | protDeny (count : Nat)
  | memPoison (tier addr : Nat)
  | peerDown (fid gen unit cause port : Nat)
  | peerUp (fid gen reports : Nat)
  | linkDown (port : Nat)
  | linkUp (port width : Nat)
  | linkDegraded (port width : Nat)
  | kvSpace (refused : Nat)
  | deadlineMiss (steps seqs units : Nat)
  | wlSubscriberDown (sub : Nat)
  | mirrorUnprotected (st : Status)
  | poolViolation (fid channel partition op count offset : Nat)
  | poolPoison (adapter partition cause lines : Nat)
  | extentRevoked (partition slot drained refused recalled written released poisoned late : Nat)
  | poolDegraded (partition slot : Nat)
  | rebuildDone (partition slot bytes : Nat)
deriving DecidableEq, Repr, Inhabited

/-- Bytes that leave the block: `words` lists 8 B words, each little-endian (R5); `free` is the free
value numbered `ix` (Config.freeByte ix) of the given length, `framed` a header before such a value; `ask` carries nothing and asks for that
many bytes, or for a ring's counter; `poisoned` bytes carry poison (R264, R434). -/
inductive Payload where
  | empty
  | bytes (b : List Byte)
  | words (w : List Nat)
  | free (ix len : Nat)
  | framed (header : List Byte) (ix len : Nat)
  | ask (n : Nat)
  | poisoned (b : List Byte)
deriving DecidableEq, Repr, Inhabited

/-- The packets the block sends (R436), by opcode. -/
inductive PktOp where
  | readReq | readRsp | write | writeBulk | writeAck | poolOp | poolRsp | segAttn | segSample | regRsp
  | notify | intr | recall | ctrRead | ctrRsp
  /-- A WRITE_BULK with poison = 1 (R434). -/
  | poisonBulk
  /-- A READ_RSP to a request with bulk_rsp = 1, sent on VC3 (R437). -/
  | readRspBulk
  /-- A READ_REQ with bulk_rsp = 1 (R437). -/
  | readReqBulk
deriving DecidableEq, Repr, Inhabited

/-- One thing the block emits. -/
inductive Out where
  /-- A completion entry (R385) at its slot, with the operation-specific area. -/
  | completion (ring slot : Nat) (phase : Bool) (tag : Nat) (st : Status) (opcode sqHead ext : Nat) (result : List Nat)
  /-- An event entry (R389). -/
  | event (ring slot : Nat) (phase : Bool) (ev : Event) (source count : Nat)
  /-- An interrupt message (R400) to the bound adapter. -/
  | interrupt (fn vector count adapter : Nat)
  /-- A write of an operation's data to host memory (R387) through the port of a unit (R17), with the flow of its descriptor. -/
  | hostWrite (unit fn flow addr : Nat) (p : Payload)
  /-- A packet (R434): source unit, destination, tag and status. -/
  | packet (op : PktOp) (unit dstFid dstUnit req fn gen : Nat) (st : Status) (addr : Nat) (p : Payload)
  /-- One attention or sampling segment (R140, R215): sampling or not, channel, destination, the segment. -/
  | segment (sample : Bool) (channel dstFid dstUnit : Nat) (g : Seg)
  /-- A work-list record written to a subscriber (R173, R175): offset in its ring, length, kind. -/
  | workList (channel sub offset length : Nat) (pad : Bool) (stepNo count tokens : Nat) (p : Payload)
  /-- The tail word of a subscriber (R175), or the out_tail word of a session (R240). -/
  | tailWord (channel sub value : Nat)
  /-- A record of a session's output ring (R240): offset, length, fields, token words, text. -/
  | outRecord (channel index offset length : Nat) (pad : Bool) (fields : List Nat) (toks : List Nat) (text : List Byte)
  /-- A Mirror record (R301): kind, index, generation, object fields, argument. -/
  | mirrorRecord (channel kind index gen obj arg : Nat) (p : Payload)
  /-- A signed manifest written to a buddy (R305). -/
  | manifest (gen fid channel : Nat) (body sig : List Byte)
  /-- A DATA or IDLE flit sent on a port (R428, R430): virtual channel, sequence number, acknowledgement, nak, and the credits it
  returns for one virtual channel (R431). -/
  | flit (port : Nat) (data : Bool) (vc seq ack : Nat) (nak replayed : Bool) (creditVc credit : Nat) (sop eop : Bool) (body : List Byte)
  /-- A LINK message sent on a port (R425). -/
  | linkMsg (port fid unit width expect : Nat)
  /-- A PMBus command (R502, R501) to the regulator of a rail. -/
  | pmbus (rail setpoint : Nat)
  /-- What a BMC block read returns (R521). -/
  | bmc (value : Nat)
deriving DecidableEq, Repr, Inhabited

/-- Ring states (R369). -/
inductive RingState where
  | disabled | active | error
deriving DecidableEq, Repr, Inhabited

/-- A ring pair's context and counters (R369, R371, R336, R388): descriptors read and not accepted, in entry order,
and descriptors accepted whose completions are not written; `metered` once Iris has counted the first one held (R409). -/
structure Ring where
  owner : Nat := 0
  line : Nat := 0
  target : Nat := 8
  sqExp : Nat := 0
  cqExp : Nat := 6
  sqBase : Nat := 0
  cqBase : Nat := 0
  state : RingState := .disabled
  err : Nat := 0
  lost : Nat := 0
  sqTail : Nat := 0
  sqHead : Nat := 0
  cqPosted : Nat := 0
  cqHead : Nat := 0
  counter : Nat := 0
  held : List Fetched := []
  metered : Bool := false
  accepted : List Fetched := []
deriving DecidableEq, Repr, Inhabited

/-- An interrupt vector (R399). -/
structure Vec where
  mask : Bool := true
  count : Nat := 1
  time : Nat := 0
  pending : Nat := 0
  first : Nat := 0
deriving DecidableEq, Repr, Inhabited

/-- A registered buffer (R382); `leaving` once an unregister has been accepted. -/
structure Buf where
  base : Nat
  length : Nat
  leaving : Bool := false
deriving DecidableEq, Repr, Inhabited

/-- A held or coalesced event (R389, R477). -/
structure HeldEvent where
  ev : Event
  source : Nat
  count : Nat
deriving DecidableEq, Repr, Inhabited

/-- A function reset before item 6 of R404: the tag its event carries, the descriptors aborted and detached. -/
structure FnReset where
  tag : Option Nat
  aborted : Nat
  detached : Nat
deriving DecidableEq, Repr, Inhabited

/-- A function (R397, R399, R382, R389, R404). -/
structure Fn where
  adapter : Nat := 0x40
  enable : Bool := false
  dbBase : Nat := 0
  evRing : Nat := 0
  evVector : Nat := 0
  evValid : Bool := false
  resetGen : Nat := 0
  lateRsp : Nat := 0
  evLost : Nat := 0
  misroute : Nat := 0
  vecs : Tbl Vec := []
  bufs : Tbl Buf := []
  heldEvents : List HeldEvent := []
  lostEvents : Nat := 0
  coalesced : List HeldEvent := []
  coalescedSeen : List (Nat × Nat) := []
  fence : Bool := false
  resetRun : Option FnReset := none
  detached : Nat := 0
deriving DecidableEq, Repr, Inhabited

/-- What an outstanding operation waits for. -/
inductive RunKind where
  /-- The result is known and the operation's time has not passed: DESC_COMPLETE posts it (R387). -/
  | ready (st : Status) (result : List Nat) (writes : List (Nat × Payload))
  /-- OP_BUF_UNREGISTER of an index waits for earlier users (R382). -/
  | unregister (index : Nat)
  /-- A session operation deferred or queued (R51). -/
  | pendingOp (channel index : Nat)
  | park (channel index : Nat)
  | revive (channel index : Nat)
  | bulk (channel unit : Nat)
  | step (channel stepNo resultAddr : Nat) (res : List (Nat × Nat × Nat))
  /-- An OP_STEP whose list is not yet fixed (R179). -/
  | stepWait (channel : Nat) (a : StepArgs)
  | load (id : Nat)
  | snapshot (gen : Nat)
  | revoke (channel partition slot startedAt : Nat)
  | rebuild (channel partition slot : Nat)
  | poolOp (channel req resultAddr : Nat)
  | waitCount (fid ring n timeout : Nat)
  | lensQuery (channel : Nat)
  | lensWrite (channel : Nat)
  | iris
  | aperture (port : Nat)
  | reset (scope target : Nat)
  | roleSet (channel : Nat)
  /-- The outcome is known, and its data writes to host memory await their acknowledgements (R438). -/
  | writing (id : Nat) (st : Status) (result : List Nat)
  /-- Nothing but its end is left. -/
  | stale
  /-- OPEN_DEBUG or DECOMMISSION while its channel resets run (R472). -/
  | debugOpen (decommission jtag trace : Bool)
deriving DecidableEq, Repr, Inhabited

/-- An accepted descriptor that has not completed (R379, R403, R404). -/
structure RunOp where
  hdr : Hdr
  fn : Nat
  opcode : Nat
  target : Nat
  begun : Bool
  detached : Bool
  acceptedAt : Nat
  ranges : List (Nat × Nat)
  kind : RunKind
deriving DecidableEq, Repr, Inhabited

/-- A bucket pair (R409, R411): parameters in effect, staged record, levels scaled by 1000 (a rate of 10^6 per second
over 1 ns is one thousandth), counters. -/
structure Pair where
  params : PairRec := ⟨0, 0, 1, 1, false, false, 0⟩
  staged : Option PairRec := none
  c : Int := 1000
  p : Int := 1000
  rel : Nat := 0
  heldCount : Nat := 0
  rej : Nat := 0
deriving DecidableEq, Repr, Inhabited

/-- A class credit shaper (R412). -/
structure Shaper where
  idle : Nat
  staged : Option Nat := none
  credit : Int := 0
deriving DecidableEq, Repr, Inhabited

/-- A gate list (R415). -/
structure GateList where
  enable : Bool := false
  base : Nat := 0
  entries : List GateEntry := []
deriving DecidableEq, Repr, Inhabited

/-- An egress port's Aperture state (R415 to R417): running list, current entry, list staged by OP_APERTURE_SET. -/
structure Gate where
  running : GateList := {}
  current : Nat := 0
  staged : Option GateList := none
  opens : BitVec 8 := 0xFF
  overrun : Nat := 0
deriving DecidableEq, Repr, Inhabited

/-- A composition ID (R418, R419). -/
structure Composition where
  channels : BitVec 8 := 0
  allocated : Nat := 0
  busy : Nat := 0
deriving DecidableEq, Repr, Inhabited

/-- Page residency (R78), in the order of the codes. -/
inductive Residency where
  | free | reserved | resident | moving | spilling | spilled | fetching | lost
deriving DecidableEq, Repr, Inhabited

/-- A page descriptor (R77) with the page's content (R70): one K and one V row per position held. `dest` is the run a copy
in flight is written to (R95), `destForm` the codec and length of its plaintext, `spare` a run reserved for its decode (R81, R85); `len` the exact length in bytes of the stored plaintext, `purpose` what its
envelope was sealed for (R278). -/
structure Page where
  loc : Loc := ⟨0, 0⟩
  lastStep : Nat := 0
  snapEpoch : Nat := 0
  sizeClass : Nat := 0
  codec : Nat := 0
  mode : Nat := 0
  residency : Residency := .free
  pin : Bool := false
  dirty : Bool := false
  fill : Nat := 0
  score : Nat := 0
  storedLen : Nat := 0
  len : Nat := 0
  purpose : Nat := 0
  k : List (List Byte) := []
  v : List (List Byte) := []
  dest : Option (Loc × Nat) := none
  destForm : Nat × Nat := (0, 0)
  spare : Option (Loc × Nat) := none
deriving DecidableEq, Repr, Inhabited

/-- A resident page-map entry (R48). -/
structure MapEntry where
  desc : Nat
  dropped : Bool
  valid : Bool
deriving DecidableEq, Repr, Inhabited

/-- A parked page-map entry (R48). -/
structure ParkedEntry where
  desc : Nat
  kept : Bool
  valid : Bool
  image : Page
  dropped : Bool := false
deriving DecidableEq, Repr, Inhabited

/-- A session's input queue (R206): words in order, granules head first, slots. -/
structure InQueue where
  words : List Nat := []
  granules : List Loc := []
  headSlot : Nat := 0
  tailSlot : Nat := 0
deriving DecidableEq, Repr, Inhabited

/-- An open host prefill chunk (R149, R152): positions per layer accepted and completed, tokens, first position. -/
structure Chunk where
  lens : Tbl Nat
  doneLens : Tbl Nat
  toks : List Nat
  first : Nat
  usesPending : Bool
deriving DecidableEq, Repr, Inhabited

/-- Where a park or a revive stands: the map entries still to move, the one in flight, how many moved; for a park the destination,
codec and plaintext length of each entry and the runs of the block, the root and the leaves; for a revive its stage: 0 block,
1 map, 3 pages of layer 0, 4 later pages. -/
structure Move where
  todo : List Nat
  inFlight : Option Nat
  moved : Nat
  plan : Tbl (Loc × Nat × Nat)
  runs : List (Loc × Nat × Nat)
  stage : Nat
deriving DecidableEq, Repr, Inhabited

/-- A buddy allocator over one tier's region (R79): bounds in granules, allocated runs (granule, size-class code), the runs
among them that await a scrub (R468), and counted failures. -/
structure Alloc where
  lo : Nat := 0
  hi : Nat := 0
  runs : Tbl Nat := []
  scrub : List Nat := []
  fails : Nat := 0
deriving DecidableEq, Repr, Inhabited

/-- A tokenizer slot (R192) with its image; `header` is bytes 0x00 to 0xDF of the image's header. -/
structure TokSlot where
  base : Nat := 0
  length : Nat := 0
  state : Nat := 0
  sessions : Nat := 0
  loads : Nat := 0
  header : List Byte := []
  image : Option TokImage := none
deriving DecidableEq, Repr, Inhabited

/-- A grammar slot (R231) with its image; `header` is the image's header. -/
structure GramSlot where
  base : Nat := 0
  length : Nat := 0
  state : Nat := 0
  sessions : Nat := 0
  loads : Nat := 0
  header : List Byte := []
  image : Option GramImage := none
deriving DecidableEq, Repr, Inhabited

/-- A mask-cache tag (R233): slot, mask, block. The cache of a set lists its tags most recently used first. -/
structure MaskTag where
  slot : Nat
  mask : Nat
  block : Nat
deriving DecidableEq, Repr, Inhabited

/-- A held draft (R226, R234). -/
structure Draft where
  granule : Nat
  base : Nat
  entries : List DraftEntry
deriving DecidableEq, Repr, Inhabited

/-- An active sequence table entry (R167): state 1 RUNNABLE, 2 RUNNING, 3 TRAILING. The fields pending, streaming and ready are
functions of the session's other state (pendingOf, the directory's streaming, readyLayers). -/
structure Asq where
  handle : Handle
  release : Nat
  absDeadline : Option Nat
  state : Nat
  driver : Nat
  driverValid : Bool
deriving DecidableEq, Repr, Inhabited

/-- One part of a record being reassembled (R143): pieces by offset, and the end given by the last segment. -/
structure Part where
  pieces : Tbl (List Byte) := []
  total : Option Nat := none
deriving DecidableEq, Repr, Inhabited

/-- The CTRL fields of a sequence's layer (R141). -/
structure Ctrl where
  handle : Handle
  tokens : Nat
  qFmt : Nat
  oFmt : Nat
  append : Bool
  isPartial : Bool
  saturate : Bool
  qpos : Nat
  kbase : Nat
  shards : Nat
  rank : Nat
  mergeFid : Nat
  mergeChannel : Nat
  toRequester : Bool
  mergeStep : Nat
  mergeSlot : Nat
deriving DecidableEq, Repr, Inhabited

/-- Where a slot of a step stands: waiting for the layer's inputs, held for pages, ready for the tiles, on the tiles,
waiting for shards, waiting for logits, its logits complete, its step complete. -/
inductive Phase where
  | inputs | held | ready | tiles | merge | logits | sampling | done
deriving DecidableEq, Repr, Inhabited

/-- A slot of a step (R174, R182): the sequence's progress. `kvStart` is kv_len when the list was fixed; `reserved` and `copies` the
pages reserved, by map entry (R81); `build` and `bucket` say where its layer's items were dealt (R161), `errAt` the head and row that
an ERR part names (R142), `ownPart` the merge shard's own O and LSE (R158). -/
structure Slot where
  index : Nat
  handle : Handle
  tokens : List Nat
  driver : Nat
  kvStart : Nat
  deadline : Option Nat
  samples : Bool
  rows : Nat
  drafts : List DraftEntry
  layer : Nat := 0
  ctrl : Option Ctrl := none
  ctrlPart : Part := {}
  q : Part := {}
  k : Part := {}
  v : Part := {}
  append0 : Option Bool := none
  phase : Phase := .inputs
  st : Option Status := none
  logits : Tbl Part := []
  reserved : Tbl Nat := []
  copies : Tbl Nat := []
  mergeO : Tbl Part := []
  mergeLse : Tbl Part := []
  ownPart : List Byte × List Byte := ([], [])
  trailing : Bool := false
  stop : Nat := 0
  requester : Nat × Nat := (0, 0)
  reads : List Nat := []
  build : Nat := 0
  bucket : Nat := 0
  ready : Nat := 0
  errAt : Nat × Nat := (0, 0)
deriving DecidableEq, Repr, Inhabited

/-- A step that has not ended (R182, R183): `fixed` for FIXED mode; `waitSince` when its publication began to wait (R176). -/
structure StepRec where
  num : Nat
  fixed : Bool
  deadline : Option Nat
  slots : List Slot
  published : Bool
  closed : Bool
  final : Bool := false
  waitSince : Option Nat := none
  fixedAt : Nat := 0
deriving DecidableEq, Repr, Inhabited

/-- The work of a BULK unit (R184). -/
inductive BulkWork where
  | append (ring tag : Nat) (a : AppendArgs) (prefill : Bool) (start : Nat) (pages copies : Tbl Nat)
  | modelLayer (run layer : Nat)
  | lensWrite (id : Nat)
deriving DecidableEq, Repr, Inhabited

/-- A unit of the BULK queue (R184, R188): the tiles it holds and the save slots it holds. -/
structure BulkUnit where
  id : Nat
  width : Nat
  deadline : Option Nat
  acceptedAt : Nat
  tiles : List Nat := []
  saving : Bool := false
  saved : List Nat := []
  restoring : Bool := false
  work : BulkWork
deriving DecidableEq, Repr, Inhabited

/-- BULK work on the Condenser's engines (R185): the encoding of a page, its copy to another tier. -/
inductive CondWork where
  | encode (d : Nat)
  | move (d : Nat)
deriving DecidableEq, Repr, Inhabited

/-- Work on the Condenser's queue: its absolute deadline, its blocks, and the entries of the block queue it holds, 0 while it waits (R288). -/
structure CondJob where
  work : CondWork
  deadline : Nat
  blocks : Nat
  held : Nat := 0
deriving DecidableEq, Repr, Inhabited

/-- A Condenser key slot (R280): `key` names the key held. -/
structure KeySlot where
  loaded : Bool := false
  key : Nat := 0
  keyGen : Nat := 0
  counter : Nat := 0
deriving DecidableEq, Repr, Inhabited

/-- An image in the copy-before-write area (R297): DIR, SBLK and queue, with the changes it captures: a first capture, the fork it
was made by, a close before it, the entries dropped. -/
structure CbwImage where
  dir : Dir
  blk : SBlk
  queue : List Nat
  isNew : Bool
  forkedFrom : Option Nat
  closedSince : Bool
  drops : List Nat
deriving DecidableEq, Repr

/-- A capture-table entry (R293). `capLen` is the length the last capture sent up to, `doneLen` that of the last completed
generation. -/
structure Capture where
  sentLen : Nat := 0
  changed : Bool := false
  isNew : Bool := false
  forkedFrom : Option Nat := none
  closedSince : Bool := false
  lastGen : Nat := 0
  cbw : Option CbwImage := none
  drops : List Nat := []
  capLen : Nat := 0
  doneLen : Nat := 0
deriving DecidableEq, Repr, Inhabited

/-- A Mirror record sent and not acknowledged (R303): its generation, index, kind and session. -/
structure SentRec where
  gen : Nat
  index : Nat
  kind : Nat
  session : Nat
deriving DecidableEq, Repr, Inhabited

/-- A channel's Mirror state (R293 to R306). `nextIndex` and `nextLen` are those of the shard after the open generation's, `held` the
sessions the store holds, `endHeld` their count at the END record, `heldRuns` the runs held under R298 with their sessions; `oldBuddy` the
buddy word that an open generation ends on once a commit has changed it (R536). -/
structure Mirror where
  captures : Tbl Capture := []
  epoch : Nat := 0
  gen : Nat := 0
  todo : List Nat := []
  deadline : Nat := 0
  capturing : Bool := false
  recIndex : Nat := 0
  sent : List SentRec := []
  ended : Bool := false
  shardLen : Nat := 0
  nextIndex : Nat := 0
  nextLen : Nat := 0
  manifestAcked : Bool := false
  doneGen : Nat := 0
  doneEpoch : Nat := 0
  prevGen : Nat := 0
  full : Bool := true
  heldRuns : List (Nat × Loc) := []
  stallCount : Nat := 0
  stallNs : Nat := 0
  noBuddy : Bool := false
  held : List Nat := []
  endHeld : Nat := 0
  oldBuddy : Option Nat := none
deriving DecidableEq, Repr, Inhabited

/-- K and V vectors by position: bytes of K and of V. -/
abbrev KvRows := List (List Byte × List Byte)

/-- A model-table entry (R247) with its image, its draft contexts (R260: their lengths, and their rows by layer and head, numbered as
rowsKey says) and its ACT_T2 arena (R244). -/
structure Model where
  state : Nat := 0
  isProtected : Bool := false
  resident : Bool := false
  base : Nat := 0
  length : Nat := 0
  progOff : Nat := 0
  runs : Nat := 0
  loads : Nat := 0
  image : Option ModelImage := none
  ctx : Tbl Nat := []
  kv : Tbl KvRows := []
  actT2 : Mem := []
deriving DecidableEq, Repr, Inhabited

/-- A model run accepted and not completed (R259 to R263). From its dispatch on: `ix` numbers its numerical results, `rows` the tokens that
the pass in progress feeds of each input, `out` the output area, `scratch` the K and V of inputs with no context, `entries` the draft
entries written, by input and step. -/
structure ModelRun where
  id : Nat
  ring : Nat
  tag : Nat
  deadline : Option Nat
  a : RunArgs
  dispatched : Bool := false
  pass : Nat := 0
  layer : Nat := 0
  saved : Tbl Nat := []
  ix : Nat := 0
  rows : List (List Nat) := []
  out : Mem := []
  scratch : Tbl KvRows := []
  entries : Tbl (List Byte) := []
deriving DecidableEq, Repr, Inhabited

/-- The weight window of a MODEL channel (R243, R263): the layer each buffer holds, whether it is still in use, the streamer's
position. -/
structure Window where
  bufA : Option Nat := none
  bufB : Option Nat := none
  next : Nat := 0
  pass : Nat := 0
  buf : Nat := 0
  owner : Option Nat := none
deriving DecidableEq, Repr, Inhabited

/-- An extent slot (R323) with the counts its revocation reports (R341). -/
structure Extent where
  pOff : Nat := 0
  length : Nat := 0
  loc : Loc := ⟨0, 0⟩
  granules : Nat := 0
  state : Nat := 0
  mirror : Nat := 0
  mirrorOk : Bool := false
  inflight : Nat := 0
  buddy : BuddySlot := ⟨0, 0, 0, 0⟩
  mark : Nat := 0
  drained : Nat := 0
  refused : Nat := 0
  recalled : Nat := 0
  written : Nat := 0
  released : Nat := 0
  poisonedN : Nat := 0
  late : Nat := 0
  recallsSent : Bool := false
  filling : Bool := false
deriving DecidableEq, Repr, Inhabited

/-- A lease directory entry (R338): 1 SHARED, 2 MODIFIED, 3 RECALLING; `wb` once a recalled line was written back. -/
structure Lease where
  partition : Nat
  slot : Nat
  line : Nat
  adapter : Nat
  state : Nat
  wasM : Bool
  wb : Bool
  expiry : Nat
deriving DecidableEq, Repr, Inhabited

/-- An access that waits: for a recall (R339), or for the secondary's acknowledgement (R343), with the extents it was accepted for
(64 × partition + slot) and what its response carries. -/
inductive PoolWait where
  | recall (lease : Nat) (cmd : Instr)
  | secondary (key : Nat) (keys : List Nat) (cmd : Instr) (st : Status) (done : Nat) (result : Nat) (data : List Byte)
deriving DecidableEq, Repr

/-- A POOL channel's state (R320 to R343): extents by 64 × partition + slot, leases by directory entry, poisoned lines by address / 256,
the XTS key table by owner, the requests that wait for one of the 256 in flight to end (R335), and by partition the violations since the last event: its time, how many, the first requester. -/
structure Pool where
  extents : Tbl Extent := []
  leases : Tbl Lease := []
  poison : List Nat := []
  waits : List PoolWait := []
  backlog : List Instr := []
  lateWb : Nat := 0
  xts : List (Nat × Nat) := []
  violations : Tbl (Nat × Nat × Nat) := []
deriving DecidableEq, Repr

/-- A Lens query in its slot (R355, R356): `insertOf` names the write descriptor whose insertion it searches for. -/
structure LensQuery where
  id : Nat
  ring : Nat
  tag : Nat
  num : Nat
  vec : List F32
  qaux : F32
  k : Nat
  beam : Nat
  deadline : Option Nat
  cand : List (F32 × Nat) := []
  res : List (F32 × Nat) := []
  visited : List Nat := []
  truncated : Bool := false
  expanding : Option Nat := none
  expansions : Nat := 0
  insertOf : Option Nat := none
  sticky : Nat := 0
deriving DecidableEq, Repr, Inhabited

/-- The queries of an OP_LENS_QUERY that have ended: their result entries, how many were truncated, their expansions. -/
structure LensBatch where
  ring : Nat
  tag : Nat
  k : Nat
  left : Nat
  outAddr : Nat
  results : Tbl (List Nat) := []
  truncated : Nat := 0
  expansions : Nat := 0
deriving DecidableEq, Repr, Inhabited

/-- A Lens write descriptor in progress (R361 to R365): the vectors still to insert, and where the present one stands: 0 not begun,
1 searching, 2 on the tiles; `waitFor` the queries a consolidation waits for once its lists are written. -/
structure LensWrite where
  id : Nat
  ring : Nat
  tag : Nat
  deadline : Option Nat
  todo : List (Nat × List F32)
  inserted : Nat := 0
  stage : Nat := 0
  found : List (F32 × Nat) := []
  consolidate : Bool := false
  tset : List Nat := []
  waitFor : Option (List Nat) := none
deriving DecidableEq, Repr, Inhabited

/-- A Lens descriptor that waits for query slots (R354, R379) or for the declaration of a generation (R366), with its absolute deadline. -/
structure LensHeld where
  cmd : Instr
  deadline : Option Nat
deriving DecidableEq, Repr

/-- A SEARCH channel's index (R349 to R357): the expansion table lists nodes with the queries that wait, in creation order; `dirty` and
`copied` the units changed since the last capture and those in the copy-before-write area (R366). -/
structure Lens where
  hdr : Option LensHdr := none
  live : Nat := 0
  tombs : Nat := 0
  epoch : Nat := 0
  entry : Tbl Nat := []
  segments : Tbl (Loc × Loc) := []
  vectors : Tbl (List F32) := []
  nodes : Tbl LensNode := []
  states : Tbl Nat := []
  queries : List LensQuery := []
  batches : List LensBatch := []
  table : List (Nat × List Nat) := []
  writes : List LensWrite := []
  waiting : List LensHeld := []
  nextId : Nat := 0
  dirty : List Nat := []
  copied : List Nat := []
deriving DecidableEq, Repr, Inhabited

/-- Channel states (R18). -/
inductive ChanState where
  | unassigned | active | draining | failed
deriving DecidableEq, Repr, Inhabited

/-- Channel roles (R20). -/
inductive Role where
  | none | attn | pool | search | model
deriving DecidableEq, Repr, Inhabited

/-- An OP_ROLE_SET in progress (R485). -/
structure RoleSwitch where
  hdr : Hdr
  role : Role
  drainTmo : Nat
  zeroing : Bool
deriving DecidableEq, Repr, Inhabited

/-- A channel (`t0`: what each tile's SRAM holds, by the number of its content, `saves`: the same of each save slot, R2, R28, R188; `bulkShare`: the
BULK units inside the share at the last dispatch point, R186; `builds`: the tiles of each bucket of a build, R161; `leaves`: the leaf granules that a session's root run names, R48; `deferred`: runs freed at the end of a step, `doomed`: descriptors with
the step whose end frees them and their runs, R95; `bad`: granules whose data stands poisoned, R488; `actT1`: the ACT_T1 arena, R243):
its directory, pages, scheduler, Prism, Condenser, Mirror, pool, Lens and model state and its counters. -/
structure Chan where
  state : ChanState := .unassigned
  role : Role := .none
  epoch : Nat := 0
  cause : Nat := 0
  failedOnce : Bool := false
  resetting : Bool := false
  switch : Option RoleSwitch := none
  hbmTrained : Bool := false
  eccCorr : Nat := 0
  eccUncorr : Nat := 0
  scrubPass : Nat := 0
  dirs : Tbl Dir := []
  sblks : Tbl SBlk := []
  maps : Tbl (Tbl MapEntry) := []
  leaves : Tbl (Tbl Loc) := []
  parkedMaps : Tbl (Tbl ParkedEntry) := []
  parkRuns : Tbl (List (Loc × Nat × Nat)) := []
  queues : Tbl InQueue := []
  pend : Tbl (List Instr) := []
  chunks : Tbl Chunk := []
  moves : Tbl Move := []
  pages : Tbl Page := []
  shares : Tbl Nat := []
  t1 : Alloc := {}
  t2 : Alloc := {}
  t3 : Alloc := {}
  t4 : Alloc := {}
  deferred : List (Loc × Nat × Nat) := []
  doomed : List (Nat × Nat) := []
  bad : List Loc := []
  stalled : Nat := 0
  kvRefused : Nat := 0
  kvEventAt : Option Nat := none
  profiles : Tbl Profile := []
  toks : Tbl TokSlot := []
  grams : Tbl GramSlot := []
  prismRanges : List (Nat × Nat) := []
  maskCache : Tbl (List MaskTag) := []
  drafts : Tbl Draft := []
  prismInvalid : Nat := 0
  normFlush : Nat := 0
  outInvalid : Nat := 0
  outFull : Nat := 0
  arithSticky : Nat := 0
  attnDiscard : Nat := 0
  cdnHdrErr : Nat := 0
  cdnCrcErr : Nat := 0
  cdnTagErr : Nat := 0
  asq : Tbl Asq := []
  nextStep : Nat := 1
  fixHold : Option Nat := none
  steps : List StepRec := []
  wlTail : Tbl Nat := []
  bulk : List BulkUnit := []
  nextUnit : Nat := 0
  claim : Nat := 0
  bulkShare : List Nat := []
  t0 : Tbl Nat := []
  saves : Tbl Nat := []
  nextT0 : Nat := 1
  builds : Tbl (Tbl (List Nat)) := []
  nextBuild : Nat := 0
  missSteps : Nat := 0
  missSeqs : Nat := 0
  missUnits : Nat := 0
  missTotal : Nat × Nat × Nat := (0, 0, 0)
  missEventAt : Option Nat := none
  poisonEventAt : Option Nat := none
  poisonCount : Nat := 0
  keys : Tbl KeySlot := []
  cond : List CondJob := []
  demoting : List Nat := []
  mirror : Mirror := {}
  models : Tbl Model := []
  modelAlloc : List (Nat × Nat) := []
  progAlloc : List (Nat × Nat) := []
  runs : List ModelRun := []
  window : Window := {}
  actT1 : Mem := []
  pool : Pool := {}
  mem : Mem := []
  lens : Lens := {}
deriving DecidableEq, Repr

/-- A pool partition (R322). -/
structure Partition where
  ownerFid : Nat := 0
  ownerChannel : Nat := 0
  poolChannel : Nat := 0
  isolation : Nat := 0
  valid : Bool := false
  leaseEn : Bool := false
  ownerFn : Nat := 0
  extents : Nat := 0
  keyGen : Nat := 0
deriving DecidableEq, Repr, Inhabited

/-- A peer health entry (R490). -/
structure Peer where
  down : Bool := false
  firstPort : Nat := 0
  generation : Nat := 0
  units : BitVec 9 := 0
  cause : Nat := 0
  since : Nat := 0
  reports : Nat := 0
deriving DecidableEq, Repr, Inhabited

/-- Port states, in the order of the rows of R424. -/
inductive PortState where
  | disabled | detect | signal | equalize | align | config | active | retrain | down
deriving DecidableEq, Repr, Inhabited

/-- A flit in the replay buffer (R430). -/
structure SentFlit where
  seq : Nat
  vc : Nat
  sop : Bool := true
  eop : Bool := true
  body : List Byte := []
deriving DecidableEq, Repr, Inhabited

/-- A port (R424 to R431, R540): `good` the lanes that train, `excluded` the lanes left out, `unacked` the flits received since an
acknowledgement left, `owed` the credits to return, `partialPkt` the packet each virtual channel is receiving; `txPos` counts, for each
virtual channel and source (16 × channel + source), what of `out` has left in flits and how many packets of the next; `txTurn` the source whose
turn it is on each virtual channel (R17). -/
structure Port where
  state : PortState := .disabled
  wasActive : Bool := false
  good : BitVec 4 := 0
  lanes : BitVec 4 := 0
  excluded : BitVec 4 := 0
  width : Nat := 0
  partnerFid : Nat := 0
  partnerUnit : Nat := 0
  partnerKnown : Bool := false
  txSeq : Nat := 0
  rxSeq : Nat := 0
  replayBuf : List SentFlit := []
  replays : Nat := 0
  nakSent : Bool := false
  unacked : Nat := 0
  credits : List Nat := [0, 0, 0, 0]
  owed : List Nat := [0, 0, 0, 0]
  partialPkt : List (Nat × List Byte) := []
  wasDown : Bool := false
  creditVc : Nat := 0
  txPos : Tbl (Nat × Nat) := []
  txTurn : List Nat := [0, 0, 0, 0]
  retrain : Nat := 0
  replay : Nat := 0
  crcErr : Nat := 0
  partnerChange : Nat := 0
  badPkt : Nat := 0
  misroute : Nat := 0
deriving DecidableEq, Repr, Inhabited

/-- A lane (R422, R509). -/
structure Lane where
  lock : Bool := false
  fecCorr : Nat := 0
  fecUncorr : Nat := 0
deriving DecidableEq, Repr, Inhabited

/-- What an outstanding request of the device was made for (R435). -/
inductive ReqKind where
  /-- The image of a load, one channel's part (R199, R251). -/
  | image (load channel : Nat)
  /-- A SPILLED page's fetch (R97). -/
  | fetch (channel desc : Nat)
  /-- A revive's session block, park map or page (R67). -/
  | revive (channel index stage : Nat)
  /-- A park's read of a SPILLED page that it moves (R64). -/
  | parkRead (channel index entry : Nat)
  /-- A park's or spill's write of an envelope (R64, R95). -/
  | parkWrite (channel index entry : Nat)
  | spillWrite (channel desc : Nat)
  /-- A Mirror record (R303) or manifest (R305). -/
  | record (channel gen index : Nat)
  | manifest (channel : Nat)
  /-- A forwarded write of a mirrored extent (R343). -/
  | forward (channel partition slot : Nat)
  /-- An OP_POOL_OP (R334). -/
  | poolOp (ring tag : Nat)
  /-- Ring memory (R390). -/
  | ringMem (ring : Nat)
  /-- An operation's data write to host memory, awaited before its completion (R438). -/
  | dataWrite (id : Nat)
  /-- A remote counter read (R337). -/
  | counter (ring : Nat)
  /-- Nothing awaits the outcome any more. -/
  | stale
deriving DecidableEq, Repr, Inhabited

/-- An outstanding request (R435). -/
structure Request where
  unit : Nat
  req : Nat
  dstFid : Nat
  dstUnit : Nat
  port : Nat
  fn : Nat
  gen : Nat
  kind : ReqKind
  left : List Nat := []
  poison : Bool := false
deriving DecidableEq, Repr, Inhabited

/-- A tokenizer, grammar or model load in progress (R199, R231, R251): the channels still reading, those done, and the
worst outcome so far. -/
structure Load where
  id : Nat
  hdr : Hdr
  kind : Nat
  slot : Nat
  channels : List Nat
  waiting : List Nat
  st : Status
  word : Nat
  len : Nat
  ranges : Tbl Nat
  progs : Tbl Nat
  images : Tbl (Option TokImage × Option GramImage × Option ModelImage)
  prior : Tbl Nat
  keySlot : Nat
deriving DecidableEq, Repr, Inhabited

/-- A Spectrum monitor (R495, R497): `min`, `max` and `last` of the samples counted. -/
structure Monitor where
  min : Int := 0
  max : Int := 0
  count : Nat := 0
  sum : Int := 0
  bins : Tbl Nat := []
  last : Option Int := none
deriving DecidableEq, Repr, Inhabited

/-- The fuse array (R449). -/
structure Fuses where
  uds : List Byte := []
  serial : List Byte := []
  svn : Nat := 0
  lifecycle : Nat := 0
  debugCount : Nat := 0
  fwAuth : List Byte := []
  dbgAuth : List Byte := []
  ownAuth : List Byte := []
  romDigest : List Byte := []
  otpDigest : List Byte := []
deriving DecidableEq, Repr, Inhabited

/-- Enclave states (R473), in the order of their codes. -/
inductive EnclaveState where
  | boot | ready | error | noFirmware
deriving DecidableEq, Repr, Inhabited

/-- A KEM slot (R461): its use count, when its key pair was made, which pair it is, and the digest of the evidence record that named it. -/
structure KemSlot where
  full : Bool := false
  useCount : Nat := 0
  madeAt : Nat := 0
  dk : Nat := 0
  digest : List Byte := []
deriving DecidableEq, Repr, Inhabited

/-- The enclave (R443 to R473): `bootFailed` while no image runs since power-on (R458), `startedAt` when service firmware was started,
`barred` from a zeroisation until PORST_N (R472). -/
structure Enclave where
  fuses : Fuses := {}
  debugOpened : Bool := false
  state : EnclaveState := .boot
  cause : Nat := 0
  runningSvn : Nat := 0
  bootActive : Bool := false
  bootTrying : Bool := false
  bootConfirmed : Bool := false
  bootTries : Nat := 0
  slotA : Option FwImage := none
  slotB : Option FwImage := none
  endorsement : List Byte := []
  bootFailed : Bool := false
  startedAt : Nat := 0
  measurements : List (List Byte) := []
  protDeny : Nat := 0
  protDenyNew : Nat := 0
  protEventAt : Option Nat := none
  reseeds : Nat := 0
  drbgCount : Nat := 0
  weightKeys : Tbl (List Byte) := []
  groupCur : Option (Nat × List Byte) := none
  groupPrev : Option (Nat × List Byte) := none
  kem : Tbl KemSlot := []
  nonce : Option (List Byte) := none
  barred : Bool := false
  jtagOpen : Bool := false
  traceOpen : Bool := false
deriving DecidableEq, Repr, Inhabited

/-- Power, clocks and pins (R499 to R525): `avsAt` when the last setpoint was commanded, `avsPending` until it is seen reached,
`powerHist` the estimates of the last 1 ms, newest first (R518), `regWarning` the rails that warned at the last poll, `warmHeld` while
WARM_N stays low after the work of its reset has ended (R512). -/
structure Power where
  porstN : Bool := false
  warmN : Bool := true
  pwrcap : Bool := false
  strapFid : Nat := 0
  strapAdp : Nat := 0
  pllLock : Bool := false
  clocks : Bool := false
  faultN : Bool := true
  thermtripN : Bool := true
  offline : Bool := false
  warmHeld : Bool := false
  avsMv : Nat := 750
  avsAt : Option Nat := none
  avsPending : Bool := false
  powerHist : List Nat := []
  railMw : List Nat := []
  temps : List Int := []
  alert : BitVec 6 := 0
  regWarning : List Nat := []
  throttleNs : Nat := 0
  dutyTherm : Nat := 64
  dutyPower : Nat := 64
  bmcAddr : Nat := 0
deriving DecidableEq, Repr, Inhabited

/-- A commit in progress (R480, R535): its scope, its exception entry, the status and resource it ends with. -/
structure CfgRun where
  scope : Nat
  id : Nat
  st : Status
  resource : Nat
deriving DecidableEq, Repr, Inhabited

/-- Management (R474 to R485): exceptions held, congestion, service firmware, commit status, runtime claims. `heldWrites`
and `heldCommits` wait for a busy commit (R535); `notifies` counts the doorbell messages taken at the present instant (R376), `trace` holds
the samples of raw capture, newest first (R495). -/
structure Mgmt where
  exq : List Nat := []
  nextEx : Nat := 0
  exqLost : Nat := 0
  congested : Bool := false
  restarting : Bool := false
  restartCause : Nat := 0
  restarts : List Nat := []
  kickedAt : Nat := 0
  cfgBusy : Option CfgRun := none
  heldWrites : List (Requester × Nat × Nat × Word) := []
  heldCommits : List (Requester × Nat) := []
  cfgStatus : Status := .ok
  cfgResource : Nat := 0
  commits : Nat := 0
  regDeny : Nat := 0
  dbDropped : Nat := 0
  notifies : Nat := 0
  pollSoon : Bool := false
  crashDump : Bool := false
  trace : List (Nat × Int) := []
  resetBusy : Bool := false
deriving DecidableEq, Repr, Inhabited

/-- The device's Mirror state (R295, R305 to R308). -/
structure MirrorDev where
  openGen : Option Nat := none
  nextGen : Nat := 1
  again : Bool := false
  priority : Bool := false
  warned : List (Nat × Nat) := []
  belowSince : List (Nat × Nat × Nat) := []
  manifestOut : Bool := false
deriving DecidableEq, Repr, Inhabited

/-- The state of the block. -/
structure State where
  pending : List Instr := []
  out : List Out := []
  freeIx : Nat := 0
  now : Nat := 0
  power : Power := {}
  encl : Enclave := {}
  mgmt : Mgmt := {}
  mirrorDev : MirrorDev := {}
  regs : Tbl Nat := []
  staged : Tbl Nat := []
  locks : List Nat := []
  sel : List (Requester × Nat × Nat) := []
  rings : Tbl Ring := []
  fns : Tbl Fn := []
  ops : List RunOp := []
  flows : Tbl FlowRec := []
  stagedFlows : Tbl FlowRec := []
  pairs : Tbl Pair := []
  shapers : Tbl Shaper := []
  foreign : Nat := 0
  gates : Tbl Gate := []
  comps : Tbl Composition := []
  profiles : Tbl Profile := []
  chans : Tbl Chan := []
  parts : Tbl Partition := []
  xtsGen : Tbl Nat := []
  peers : Tbl Peer := []
  ports : Tbl Port := []
  lanes : Tbl Lane := []
  reqs : List Request := []
  reqWait : List (Request × PktOp × Nat × Payload) := []
  loads : List Load := []
  nextLoad : Nat := 0
  monitors : Tbl Monitor := []
deriving DecidableEq, Repr

/-- The reasons a step may stop with a fault: none, every command of the table has an effect the spec gives
(safe: the model never stops). -/
inductive Fault where
  /-- Raised by no meaning; it stands so that the type is a closed inductive with a name (safe). -/
  | unused
deriving DecidableEq, Repr

/-- The reasons a step may refuse. -/
inductive Refusal where
  /-- The command has no meaning yet: raised by a refused arm of Dispatch (safe: nothing is claimed of it). -/
  | notModelled (mnemonic : String)
deriving DecidableEq, Repr

/-- The block held in power-on reset (R401, R513): PORST_N low, every register, table, memory and counter at its reset
value. The first command is PORST_N_RISE (log entry 1). -/
def State.reset : State := {}

end Sys2Proof.Machine
end

