-- ==== Sys2Proof/Machine/Flags.lean ====
section
/-! DEFINITION. The status codes (R395), the event codes (R493), the codes of roles and states, and the phase flag of a
completion entry (R386): the flag computations of the block. -/

namespace Sys2Proof.Machine

open Sys2Proof

/-- The code of a status (R395). -/
def statusCode : Status → Nat
  | .ok => 0x0000
  | .opcodeInvalid => 0x0101
  | .descSize => 0x0102
  | .ringTarget => 0x0103
  | .notPermitted => 0x0104
  | .paramInvalid => 0x0105
  | .lenZero => 0x0106
  | .lenExceedsBuffer => 0x0107
  | .bufInvalid => 0x0108
  | .bufBusy => 0x0109
  | .abortedReset => 0x010A
  | .rateExceeded => 0x010B
  | .waitTimeout => 0x010C
  | .channelOffline => 0x0201
  | .roleMismatch => 0x0202
  | .channelFailed => 0x0203
  | .mgmtBusy => 0x0204
  | .cfgResourceConflict => 0x0205
  | .peerUnreachable => 0x0206
  | .poisoned => 0x0207
  | .noSpace => 0x0208
  | .bulkQueueFull => 0x0209
  | .rollback => 0x020A
  | .handleInvalid => 0x0301
  | .sessionStale => 0x0302
  | .sessionNotOwner => 0x0303
  | .sessionState => 0x0304
  | .sessionActive => 0x0305
  | .sessionBusy => 0x0306
  | .sessionNotResident => 0x0307
  | .sessionTableFull => 0x0308
  | .sessionEmpty => 0x0309
  | .activeTableFull => 0x030A
  | .toolTagMismatch => 0x030B
  | .forkLimit => 0x030C
  | .parkIncomplete => 0x030D
  | .reviveFailed => 0x030E
  | .prefillOpen => 0x030F
  | .descTableFull => 0x0401
  | .pageLost => 0x0402
  | .contextLimit => 0x0403
  | .profileBusy => 0x0404
  | .attnProtocol => 0x0405
  | .accelTimeout => 0x0406
  | .schedMode => 0x0407
  | .textInvalid => 0x0501
  | .tokenizerBusy => 0x0502
  | .grammarBusy => 0x0503
  | .logitsInvalid => 0x0504
  | .draftStale => 0x0505
  | .draftBusy => 0x0506
  | .modelNotLoaded => 0x0601
  | .modelBusy => 0x0602
  | .contextBusy => 0x0603
  | .restoreNone => 0x0701
  | .restoreTargetBusy => 0x0702
  | .mirrorAbandoned => 0x0703
  | .accessViolation => 0x0801
  | .extentRevoked => 0x0802
  | .extentState => 0x0803
  | .leaseFull => 0x0804
  | .indexState => 0x0901
  | .indexBusy => 0x0902
  | .idExists => 0x0903
  | .keyNotReleased => 0x0A01
  | .authFailed => 0x0A02
  | .signatureInvalid => 0x0A03
  | .versionRevoked => 0x0A04
  | .lifecycle => 0x0A05
  | .nonceStale => 0x0A06

/-- The code of an event (R493). -/
def eventCode : Event → Nat
  | .eventOverflow _ => 0x0001
  | .ringFault _ _ => 0x0002
  | .functionResetDone _ _ _ _ => 0x0003
  | .functionQuiesced _ => 0x0004
  | .channelFailed _ _ => 0x0101
  | .mgmtCongested _ _ => 0x0102
  | .mgmtRestart _ _ => 0x0103
  | .failureWarning _ _ _ => 0x0104
  | .resourcePreempted _ _ _ _ => 0x0105
  | .protDeny _ => 0x0106
  | .memPoison _ _ => 0x0107
  | .peerDown _ _ _ _ _ => 0x0201
  | .peerUp _ _ _ => 0x0202
  | .linkDown _ => 0x0203
  | .linkUp _ _ => 0x0204
  | .linkDegraded _ _ => 0x0205
  | .kvSpace _ => 0x0301
  | .deadlineMiss _ _ _ => 0x0302
  | .wlSubscriberDown _ => 0x0303
  | .mirrorUnprotected _ => 0x0401
  | .poolViolation _ _ _ _ _ _ => 0x0501
  | .poolPoison _ _ _ _ => 0x0502
  | .extentRevoked _ _ _ _ _ _ _ _ _ => 0x0503
  | .poolDegraded _ _ => 0x0504
  | .rebuildDone _ _ _ => 0x0505

/-- The status field an event entry carries (R389): the status the event reports, 0 for none. -/
def eventStatus : Event → Nat
  | .mirrorUnprotected st => statusCode st
  | .eventOverflow _ => 0
  | .ringFault _ _ => 0
  | .functionResetDone _ _ _ _ => 0
  | .functionQuiesced _ => 0
  | .channelFailed _ _ => 0
  | .mgmtCongested _ _ => 0
  | .mgmtRestart _ _ => 0
  | .failureWarning _ _ _ => 0
  | .resourcePreempted _ _ _ _ => 0
  | .protDeny _ => 0
  | .memPoison _ _ => 0
  | .peerDown _ _ _ _ _ => 0
  | .peerUp _ _ _ => 0
  | .linkDown _ => 0
  | .linkUp _ _ => 0
  | .linkDegraded _ _ => 0
  | .kvSpace _ => 0
  | .deadlineMiss _ _ _ => 0
  | .wlSubscriberDown _ => 0
  | .poolViolation _ _ _ _ _ _ => 0
  | .poolPoison _ _ _ _ => 0
  | .extentRevoked _ _ _ _ _ _ _ _ _ => 0
  | .poolDegraded _ _ => 0
  | .rebuildDone _ _ _ => 0

/-- The events whose first occurrence of a coalescing period is posted without delay (R477). -/
def eventUrgent (ev : Event) : Bool :=
  [0x0201, 0x0101, 0x0003, 0x0102, 0x0103].contains (eventCode ev)

/-- The phase an entry carries on the pass of entry number `count` of a ring of 2^exp entries (R386). -/
def phaseOf (count exp : Nat) : Bool := (count / 2 ^ exp) % 2 == 0

/-- The role of a code of R20. -/
def roleOfCode : Nat → Option Role
  | 0 => some .none
  | 1 => some .attn
  | 2 => some .pool
  | 3 => some .search
  | 4 => some .model
  | _ => none

/-- The code of a role (R20). -/
def roleCode : Role → Nat
  | .none => 0
  | .attn => 1
  | .pool => 2
  | .search => 3
  | .model => 4

/-- The code of a session state (R43). -/
def sessCode : SessState → Nat
  | .closed => 0
  | .opened => 1
  | .runnable => 2
  | .running => 3
  | .waitingTool => 4
  | .parking => 5
  | .parked => 6
  | .reviving => 7
  | .stopped => 8

/-- The session state of a code (R43). -/
def sessOfCode : Nat → SessState
  | 1 => .opened
  | 2 => .runnable
  | 3 => .running
  | 4 => .waitingTool
  | 5 => .parking
  | 6 => .parked
  | 7 => .reviving
  | 8 => .stopped
  | _ => .closed

/-- The code of a page's residency (R78). -/
def resCode : Residency → Nat
  | .free => 0
  | .reserved => 1
  | .resident => 2
  | .moving => 3
  | .spilling => 4
  | .spilled => 5
  | .fetching => 6
  | .lost => 7

/-- The code of a ring's state (R369). -/
def ringCode : RingState → Nat
  | .disabled => 0
  | .active => 1
  | .error => 2

/-- The code of the enclave's state (R473). -/
def enclCode : EnclaveState → Nat
  | .boot => 0
  | .ready => 1
  | .error => 2
  | .noFirmware => 3

/-- The code of a channel's state: the order of R18. -/
def chanCode : ChanState → Nat
  | .unassigned => 0
  | .active => 1
  | .draining => 2
  | .failed => 3

end Sys2Proof.Machine
end

