-- ==== Sys2Proof/Machine/Ops.lean ====
section
/-! DEFINITION. The named operations over the state: tables, byte memory, what the block emits, interrupts (R400),
events (R389), completions (R385 to R388), the end of an operation, the common checks (R380) and the exception queue (R475). -/

namespace Sys2Proof.Machine

open Sys2Proof

/-! ### Tables -/

/-- The entry of a table under a number. -/
def tget {α : Type} (k : Nat) : Tbl α → Option α
  | [] => none
  | (j, w) :: r => if j = k then some w else tget k r

/-- A table with the entry under a number set; numbers stay rising. -/
def tset {α : Type} (k : Nat) (v : α) : Tbl α → Tbl α
  | [] => [(k, v)]
  | (j, w) :: r => if k < j then (k, v) :: (j, w) :: r else if k = j then (k, v) :: r else (j, w) :: tset k v r

/-- A table with the entry under a number removed. -/
def tdel {α : Type} (k : Nat) (t : Tbl α) : Tbl α := t.filter (fun e => e.1 != k)

/-- A table with a present entry changed. -/
def tmod {α : Type} (k : Nat) (f : α → α) (t : Tbl α) : Tbl α :=
  t.map (fun e => if e.1 = k then (e.1, f e.2) else e)

/-- The smallest number of the range [lo, lo + n) that has no entry in the list of used numbers. -/
def firstFree (used : List Nat) (lo : Nat) : Nat → Option Nat
  | 0 => none
  | n + 1 => if used.contains lo then firstFree used (lo + 1) n else some lo

/-- The quotient rounded up. -/
def ceilDiv (n d : Nat) : Nat := n / d + if n % d = 0 then 0 else 1

/-! ### Byte memory (R7, R511: a byte never written reads 0) -/

/-- The byte at an address. -/
def Mem.read (a : Nat) : Mem → Byte
  | [] => 0
  | (j, b) :: r => if j = a then b else Mem.read a r

/-- Memory with one byte written: canonical form is kept. -/
def Mem.write (a : Nat) (b : Byte) : Mem → Mem
  | [] => if b = 0 then [] else [(a, b)]
  | (j, c) :: r =>
    if a < j then (if b = 0 then (j, c) :: r else (a, b) :: (j, c) :: r)
    else if a = j then (if b = 0 then r else (a, b) :: r)
    else (j, c) :: Mem.write a b r

/-- The canonical form: addresses rising, no byte 0 listed. -/
def Mem.wf (m : Mem) : Bool :=
  decide (m.Pairwise (fun x y => x.1 < y.1)) && m.all (fun e => e.2 != 0)

/-- `n` bytes from an address. -/
def Mem.readN (a : Nat) : Nat → Mem → List Byte
  | 0, _ => []
  | n + 1, m => Mem.read a m :: Mem.readN (a + 1) n m

/-- Bytes written from an address on. -/
def Mem.writeN (a : Nat) : List Byte → Mem → Mem
  | [], m => m
  | b :: bs, m => Mem.writeN (a + 1) bs (Mem.write a b m)

/-- Little-endian value of bytes (R5). -/
def leNat : List Byte → Nat
  | [] => 0
  | b :: r => b.toNat + 256 * leNat r

/-- The `n` bytes of a value, least significant first (R5). -/
def natLE : Nat → Nat → List Byte
  | 0, _ => []
  | n + 1, v => BitVec.ofNat 8 (v % 256) :: natLE n (v / 256)

/-! ### The parts of the state -/

/-- What the block leaves unchanged while it is held in reset, has no clock or is offline (R513, R509, R24): commands other
than the reset pins act only when it is up. -/
def State.up (s : State) : Bool :=
  s.power.porstN && s.power.clocks && !s.power.offline && !s.power.warmHeld

/-- The state a command leaves: `f s` when the block is up, and no change otherwise. -/
def whenUp (f : State → State) (s : State) : Host.Outcome State Fault Refusal :=
  .next (if s.up then f s else s)

/-- A ring's context at reset (R369). -/
def ringDefault (n : Nat) : Ring := { line := n % 64 }

/-- A ring pair. -/
def State.ring (s : State) (n : Nat) : Ring := (tget n s.rings).getD (ringDefault n)

def State.setRing (s : State) (n : Nat) (r : Ring) : State := { s with rings := tset n r s.rings }

def State.modRing (s : State) (n : Nat) (f : Ring → Ring) : State := s.setRing n (f (s.ring n))

/-- A function at power-on (R396, R397): F0 is enabled and bound to the strapped adapter. -/
def fnDefault (s : State) (n : Nat) : Fn :=
  if n = 0 then { adapter := 0x40 + s.power.strapAdp, enable := true } else {}

/-- A function. -/
def State.fn (s : State) (n : Nat) : Fn := (tget n s.fns).getD (fnDefault s n)

def State.setFn (s : State) (n : Nat) (f : Fn) : State := { s with fns := tset n f s.fns }

def State.modFn (s : State) (n : Nat) (f : Fn → Fn) : State := s.setFn n (f (s.fn n))

/-- A channel. -/
def State.chan (s : State) (n : Nat) : Chan := (tget n s.chans).getD {}

def State.setChan (s : State) (n : Nat) (c : Chan) : State := { s with chans := tset n c s.chans }

def State.modChan (s : State) (n : Nat) (f : Chan → Chan) : State := s.setChan n (f (s.chan n))

/-- A port: 0 to 7 FPn, 8 HP. -/
def State.port (s : State) (n : Nat) : Port := (tget n s.ports).getD {}

def State.setPort (s : State) (n : Nat) (p : Port) : State := { s with ports := tset n p s.ports }

def State.modPort (s : State) (n : Nat) (f : Port → Port) : State := s.setPort n (f (s.port n))

/-- A lane: 0 to 31 FLl, 32 to 35 HL0 to HL3 (R540). -/
def State.lane (s : State) (n : Nat) : Lane := (tget n s.lanes).getD {}

def State.setLane (s : State) (n : Nat) (l : Lane) : State := { s with lanes := tset n l s.lanes }

/-- A peer health entry (R490). -/
def State.peer (s : State) (n : Nat) : Peer := (tget n s.peers).getD {}

def State.setPeer (s : State) (n : Nat) (p : Peer) : State := { s with peers := tset n p s.peers }

/-- A pool partition (R322). -/
def State.part (s : State) (n : Nat) : Partition := (tget n s.parts).getD {}

def State.setPart (s : State) (n : Nat) (p : Partition) : State := { s with parts := tset n p s.parts }

/-- A bucket pair (R409). -/
def State.pair (s : State) (n : Nat) : Pair := (tget n s.pairs).getD {}

def State.setPair (s : State) (n : Nat) (p : Pair) : State := { s with pairs := tset n p s.pairs }

/-- A class shaper (R412): idle 200,000 for class 0 and 0 for the others. -/
def State.shaper (s : State) (n : Nat) : Shaper :=
  (tget n s.shapers).getD { idle := if n % 8 = 0 then 200000 else 0 }

def State.setShaper (s : State) (n : Nat) (p : Shaper) : State := { s with shapers := tset n p s.shapers }

/-- A flow-map entry (R408). -/
def State.flow (s : State) (n : Nat) : FlowRec := (tget n s.flows).getD ⟨0, 0, false, 0⟩

/-- A port's gates (R415). -/
def State.gate (s : State) (n : Nat) : Gate := (tget n s.gates).getD {}

def State.setGate (s : State) (n : Nat) (g : Gate) : State := { s with gates := tset n g s.gates }

/-- A composition ID (R418). -/
def State.comp (s : State) (n : Nat) : Composition := (tget n s.comps).getD {}

def State.setComp (s : State) (n : Nat) (c : Composition) : State := { s with comps := tset n c s.comps }

/-- A Spectrum monitor (R495). -/
def State.monitor (s : State) (n : Nat) : Monitor := (tget n s.monitors).getD {}

def State.setMonitor (s : State) (n : Nat) (m : Monitor) : State := { s with monitors := tset n m s.monitors }

/-- Something leaves the block. -/
def State.emit (s : State) (o : Out) : State := { s with out := o :: s.out }

/-- A fresh number for a free value (log entry 3), which the state after `advanceFree` no longer gives. -/
def State.advanceFree (s : State) : State := { s with freeIx := s.freeIx + 1 }

/-- A register's value in effect, by address, or its reset value (R529, R534). -/
def State.reg (s : State) (addr dflt : Nat) : Nat := (tget addr s.regs).getD dflt

/-- The `w` bits of a register value from bit `lo` on. -/
def fieldOf (v lo w : Nat) : Nat := v / 2 ^ lo % 2 ^ w

/-- The device's fabric ID: PRT_FABRIC_ID, the straps until a commit changes it (R34, R538). -/
def State.fid (s : State) : Nat := fieldOf (s.reg 0x008 s.power.strapFid) 0 6

/-! ### Interrupts (R399, R400) -/

def Fn.vec (f : Fn) (v : Nat) : Vec := (tget v f.vecs).getD {}

/-- try_send of R400: one message on VC2 to the bound adapter, and nothing pending after it. -/
def trySend (fn vec : Nat) (s : State) : State :=
  let f := s.fn fn
  let v := f.vec vec
  if v.mask || v.pending == 0 then s
  else if v.count ≤ v.pending || v.time ≤ s.now - v.first then
    (s.setFn fn { f with vecs := tset vec { v with pending := 0 } f.vecs }).emit (.interrupt fn vec v.pending f.adapter)
  else s

/-- on_cause of R400. -/
def onCause (fn vec : Nat) (s : State) : State :=
  let f := s.fn fn
  let v := f.vec vec
  let v' : Vec := { v with first := if v.pending = 0 then s.now else v.first
                           pending := satTo 4294967295 (v.pending + 1) }
  trySend fn vec (s.setFn fn { f with vecs := tset vec v' f.vecs })

/-! ### Entries of completion rings -/

/-- The entries an opcode reserves in its completion ring (R388). -/
def needOf (opcode : Nat) : Nat := if opcode = 0x41 then 33 else 1

/-- The sum of need over descriptors read whose completions are not written (R388). -/
def Ring.reserved (r : Ring) : Nat :=
  ((r.held ++ r.accepted).map (fun d => needOf d.opcode)).sum

/-- The completion ring stays usable in ACTIVE, and in ERROR unless the host access failed (R390, log entry 7). -/
def Ring.usable (r : Ring) : Bool :=
  match r.state with
  | .active => true
  | .error => r.err != 6
  | .disabled => false

/-- Room for one event entry beside what is reserved (R388, R389). -/
def Ring.eventRoom (r : Ring) : Bool :=
  r.state == .active && decide (r.cqPosted - r.cqHead + r.reserved + 1 ≤ 2 ^ r.cqExp)

/-! ### Events (R389, R372, R477) -/

/-- An event entry written at the event ring, and its cause counted (R389, R399). -/
def writeEvent (fn : Nat) (h : HeldEvent) (s : State) : State :=
  let f := s.fn fn
  let r := s.ring f.evRing
  let s := s.emit (.event f.evRing (r.cqPosted % 2 ^ r.cqExp) (phaseOf r.cqPosted r.cqExp) h.ev h.source h.count)
  onCause fn f.evVector
    (s.setRing f.evRing { r with cqPosted := wrap64 (r.cqPosted + 1) })

/-- Add an event to a list of pending ones: the code and source of a pending one adds to its count. -/
def mergeEvent (h : HeldEvent) : List HeldEvent → List HeldEvent
  | [] => [h]
  | g :: r =>
    if eventCode g.ev = eventCode h.ev ∧ g.source = h.source then
      { g with count := satTo 4294967295 (g.count + h.count) } :: r
    else g :: mergeEvent h r

/-- Post, hold or lose an event of a function (R372, R389). -/
def postEvent (fn : Nat) (h : HeldEvent) (s : State) : State :=
  let f := s.fn fn
  if !f.evValid then s.setFn fn { f with evLost := wrap64 (f.evLost + 1) }
  else if (s.ring f.evRing).eventRoom && f.heldEvents.isEmpty && f.lostEvents == 0 then writeEvent fn h s
  else
    let l := mergeEvent h f.heldEvents
    if l.length ≤ 64 then s.setFn fn { f with heldEvents := l }
    else s.setFn fn { f with lostEvents := f.lostEvents + 1 }

/-- Raise an event of a function from a source, channel 0 to 7 or 8 for the port complex, for a count of occurrences. While the
device is MGMT_CONGESTED events are coalesced, but for the first occurrence in a period of an urgent one (R477). -/
def raiseEventN (fn : Nat) (ev : Event) (source count : Nat) (s : State) : State :=
  let h : HeldEvent := ⟨ev, source, count⟩
  let f := s.fn fn
  if s.mgmt.congested then
    if eventUrgent ev && !f.coalescedSeen.contains (eventCode ev, source) then
      postEvent fn h (s.setFn fn { f with coalescedSeen := (eventCode ev, source) :: f.coalescedSeen })
    else s.setFn fn { f with coalesced := mergeEvent h f.coalesced }
  else postEvent fn h s

/-- Raise an event once. -/
def raiseEvent (fn : Nat) (ev : Event) (source : Nat) (s : State) : State := raiseEventN fn ev source 1 s

/-- Post the held events of a function as room appears: EV_EVENT_OVERFLOW first when some were lost (R389). -/
def drainEvents (fn : Nat) : Nat → State → State
  | 0, s => s
  | n + 1, s =>
    let f := s.fn fn
    if f.evValid && (s.ring f.evRing).eventRoom then
      if 0 < f.lostEvents then
        drainEvents fn n (writeEvent fn ⟨.eventOverflow f.lostEvents, 8, 1⟩ (s.setFn fn { f with lostEvents := 0 }))
      else
        match f.heldEvents with
        | [] => s
        | h :: r => drainEvents fn n (writeEvent fn h (s.setFn fn { f with heldEvents := r }))
    else s

/-- The functions that post their events on a ring. -/
def eventFnsOf (ring : Nat) (s : State) : List Nat :=
  (s.fns.filter (fun e => e.2.evValid && e.2.evRing == ring)).map (·.1)

/-- Room appeared on a ring: the held events of the functions that name it follow. -/
def ringRoom (ring : Nat) (s : State) : State :=
  (eventFnsOf ring s).foldl (fun s f => drainEvents f 65 s) s

/-- Data of a channel is poisoned (R488): EV_MEM_POISON at most once per 1 ms per channel, with the count, the tier and the first
address. -/
def memPoison (ch tier addr n : Nat) (s : State) : State :=
  let c := s.chan ch
  let count := c.poisonCount + n
  let due := match c.poisonEventAt with | none => true | some t => decide (t + 1000000 ≤ s.now)
  if due then
    raiseEventN 0 (.memPoison tier addr) ch count (s.setChan ch { c with poisonCount := 0, poisonEventAt := some s.now })
  else s.setChan ch { c with poisonCount := count }

/-! ### The end of an operation -/

/-- Remove the first descriptor with this tag and opcode. -/
def removeFetched (tag opcode : Nat) : List Fetched → List Fetched
  | [] => []
  | d :: r => if d.tag = tag ∧ d.opcode = opcode then r else d :: removeFetched tag opcode r

/-- Write a completion entry (R385 to R387): host writes, entry with its `ext` continuation entries, counters, the
interrupt cause. An entry that cannot be written is counted (R390). -/
def postCompletion (d : Hdr) (opcode : Nat) (st : Status) (result : List Nat) (writes : List (Nat × Payload)) (s : State) : State :=
  let r := s.ring d.ring
  let r := { r with accepted := removeFetched d.tag opcode r.accepted }
  let ext := if opcode = 0x41 ∧ st = .ok then 32 else 0
  if r.usable then
    let s := writes.foldl (fun s w => s.emit (.hostWrite (if r.target < 8 then r.target else 8) r.owner d.flow w.1 w.2)) s
    let s := s.emit (.completion d.ring (r.cqPosted % 2 ^ r.cqExp) (phaseOf r.cqPosted r.cqExp) d.tag st opcode
      (r.sqHead % 4294967296) ext result)
    let s := s.setRing d.ring
      { r with cqPosted := wrap64 (r.cqPosted + 1 + ext), counter := wrap64 (r.counter + 1) }
    if d.irq then onCause r.owner d.vector s else s
  else s.setRing d.ring { r with lost := satTo 4294967295 (r.lost + 1) }

/-- The registered buffer of a function that holds an address (R383). -/
def bufOf (fn a : Nat) (s : State) : Option (Nat × Buf) :=
  (s.fn fn).bufs.find? (fun e => !e.2.leaving && decide (e.2.base ≤ a) && decide (a < e.2.base + e.2.length))

/-- An operation of a function refers to buffer `index` (R382). -/
def refersTo (fn index : Nat) (op : RunOp) (s : State) : Bool :=
  match tget index (s.fn fn).bufs with
  | some b => op.fn == fn && op.ranges.any (fun r => decide (b.base ≤ r.1) && decide (r.1 < b.base + b.length))
  | none => false

/-- The outcome an outstanding operation has reached by what is posted: a local counter wait at its value (R337), an unregister
whose users have ended (R382). -/
def reached (op : RunOp) (s : State) : Option (Status × List Nat × State) :=
  match op.kind with
  | .waitCount fid ring n _ =>
    if fid = s.fid ∧ n ≤ (s.ring ring).counter then some (.ok, [(s.ring ring).counter], s) else none
  | .unregister index =>
    if (s.ops.takeWhile (fun o => o != op)).any (fun o => refersTo op.fn index o s) then none
    else some (.ok, [], s.modFn op.fn (fun f => { f with bufs := tdel index f.bufs }))
  | _ => none

/-- Remove an operation from those outstanding. -/
def dropOp (op : RunOp) (s : State) : State := { s with ops := s.ops.erase op }

/-- An outstanding operation ends: its completion, or, detached, the function's count and EV_FUNCTION_QUIESCED with the last
(R404). -/
def finishOp (op : RunOp) (st : Status) (result : List Nat) (writes : List (Nat × Payload)) (s : State) : State :=
  let s := dropOp op s
  if op.detached then
    let s := writes.foldl (fun s w => s.emit (.hostWrite (if op.target < 8 then op.target else 8) op.fn op.hdr.flow w.1 w.2)) s
    let f := s.fn op.fn
    let s := s.setFn op.fn { f with detached := f.detached - 1 }
    if f.detached = 1 then raiseEvent op.fn (.functionQuiesced f.resetGen) 8 s else s
  else postCompletion op.hdr op.opcode st result writes s

/-- The first outstanding operation that has reached its end, with its outcome. -/
def firstReached : List RunOp → State → Option (RunOp × Status × List Nat × State)
  | [], _ => none
  | op :: r, s =>
    match reached op s with
    | some (st, res, s') => some (op, st, res, s')
    | none => firstReached r s

/-- Let every operation that has reached its end by what was posted end, one after another. -/
def settle : Nat → State → State
  | 0, s => s
  | n + 1, s =>
    match firstReached s.ops s with
    | none => s
    | some (op, st, res, s') => settle n (finishOp op st res [] s')

/-- An operation accepted now that stays outstanding. -/
def addOp (opcode : Nat) (d : Hdr) (fn target : Nat) (ranges : List (Nat × Nat)) (begun : Bool) (k : RunKind) (s : State) : State :=
  { s with ops := s.ops ++ [⟨d, fn, opcode, target, begun, false, s.now, ranges, k⟩] }

/-- The peer's unit is marked unreachable (R491); endpoints from 0x50 on have no entry (R490). -/
def unitMarked (fid unit : Nat) (s : State) : Bool :=
  decide (fid < 80) && (s.peer fid).down && (s.peer fid).units.getLsbD unit

/-! ### Requests over the fabric (R435) -/

/-- The lowest of a list of numbers. -/
def lowest : List Nat → Option Nat
  | [] => none
  | x :: r => some (r.foldl min x)

/-- The tags a unit has outstanding: each packet of a request has one until its response (R435). -/
def unitTags (unit : Nat) (s : State) : List Nat := (s.reqs.filter (fun r => r.unit == unit)).flatMap (fun r => r.left)

/-- The bytes of a payload. -/
def Payload.size : Payload → Nat
  | .empty => 0
  | .bytes b => b.length
  | .words w => 8 * w.length
  | .free _ n => n
  | .framed h _ n => h.length + n
  | .ask _ => 0
  | .poisoned b => b.length

/-- The tags a request takes: one for each of its packets (R432, R435, R436). A transfer of more than 256 packets keeps 256 at a time
outstanding (DESIGN CHOICE, log entry 123). -/
def tagCount (op : PktOp) (p : Payload) : Nat :=
  let n := match p with | .ask n => if op = .ctrRead then 1 else n | _ => p.size
  min 256 (max 1 ((n + 4095) / 4096))

/-- A request must wait: with it more than 16,384 packets would be outstanding from its unit (R435), or its function is fenced (R404). -/
def mustWait (unit fn n : Nat) (s : State) : Bool :=
  decide (16384 < (unitTags unit s).length + n) || (fn != 0 && (s.fn fn).fence)

/-- The lowest tag from which n on are free: 0, or one past a tag in use. -/
def freeTags (used : List Nat) (n : Nat) : Nat :=
  (lowest ((0 :: used.map (· + 1)).filter (fun t => decide (t + n ≤ 65536) && !used.any (fun u => decide (t ≤ u) && decide (u < t + n))))).getD 0

/-- A request goes out with tags its unit does not use (R435). -/
def launch (r : Request) (op : PktOp) (addr : Nat) (p : Payload) (s : State) : State :=
  let n := tagCount op p
  let tag := freeTags (unitTags r.unit s) n
  let r := { r with req := tag, gen := (s.fn r.fn).resetGen % 256, left := (List.range n).map (fun k => tag + k) }
  ({ s with reqs := s.reqs ++ [r] }).emit (.packet op r.unit r.dstFid r.dstUnit tag r.fn r.gen .ok addr p)

/-- Send a request from a unit: refused at once when the destination is marked (R491) or is a FAILED channel of this device (R489). -/
def sendReq (unit dstFid dstUnit fn : Nat) (k : ReqKind) (op : PktOp) (addr : Nat) (p : Payload) (s : State) : Except Status State :=
  let r : Request := { unit := unit, req := 0, dstFid := dstFid, dstUnit := dstUnit, port := unit, fn := fn, gen := 0, kind := k }
  if unitMarked dstFid dstUnit s then .error .peerUnreachable
  else if dstFid = s.fid ∧ dstUnit < 8 ∧ (s.chan dstUnit).state = .failed then .error .channelFailed
  else if mustWait unit fn (tagCount op p) s then .ok { s with reqWait := s.reqWait ++ [(r, op, addr, p)] }
  else .ok (launch r op addr p s)

/-- The first request waiting that may go out. -/
def releaseOne (s : State) : State :=
  match s.reqWait.find? (fun w => !mustWait w.1.unit w.1.fn (tagCount w.2.1 w.2.2.2) s) with
  | some w => launch w.1 w.2.1 w.2.2.1 w.2.2.2 { s with reqWait := s.reqWait.erase w }
  | none => s

/-- Every request waiting that may go out. -/
def releaseReqs : Nat → State → State
  | 0, s => s
  | n + 1, s => if s.reqWait.any (fun w => !mustWait w.1.unit w.1.fn (tagCount w.2.1 w.2.2.2) s) then releaseReqs n (releaseOne s) else s

/-- A request is no longer outstanding. -/
def dropReq (r : Request) (s : State) : State := releaseOne { s with reqs := s.reqs.erase r }

/-- The outcome of some requests is awaited no more: those sent stay outstanding until they are answered, those that wait are not
sent. -/
def dropReqs (f : ReqKind → Bool) (s : State) : State :=
  { s with reqs := s.reqs.map (fun (r : Request) => if f r.kind then { r with kind := .stale } else r)
           reqWait := s.reqWait.filter (fun w => !f w.1.kind) }

/-- An operation ends with nothing more to write to host memory by its channel's port. -/
def closeOp (op : RunOp) (st : Status) (result : List Nat) (writes : List (Nat × Payload)) (s : State) : State :=
  let s := finishOp op st result writes s
  settle s.ops.length s

/-- The data writes of an operation are all acknowledged, or can be no more: it ends (R438). -/
def dataDone (id : Nat) (s : State) : State :=
  if s.reqs.any (fun r => r.kind == .dataWrite id) || s.reqWait.any (fun w => w.1.kind == .dataWrite id) then s
  else
    match s.ops.find? (fun o => match o.kind with | .writing i _ _ => i == id | _ => false) with
    | some op => (match op.kind with | .writing _ st res => closeOp op st res [] s | _ => s)
    | none => s

/-- An outstanding operation completes. Where a channel's own port writes its data to host memory, the port complex writes the completion
after every acknowledgement of those writes (R438). -/
def endOp (op : RunOp) (st : Status) (result : List Nat) (writes : List (Nat × Payload)) (s : State) : State :=
  if op.target < 8 ∧ !writes.isEmpty then
    let id := s.freeIx
    let s := { s with freeIx := s.freeIx + 1, ops := s.ops.map (fun o => if o = op then { o with kind := .writing id st result, begun := true } else o) }
    dataDone id (writes.foldl (fun s w =>
      match sendReq op.target (s.fn op.fn).adapter 0 op.fn (.dataWrite id) .write w.1 w.2 s with
      | .ok s => s
      | .error _ => s) s)
  else closeOp op st result writes s

/-- A descriptor that is not outstanding completes. -/
def complete (d : Hdr) (opcode : Nat) (st : Status) (result : List Nat) (writes : List (Nat × Payload)) (s : State) : State :=
  let r := s.ring d.ring
  if r.target < 8 ∧ !writes.isEmpty then
    let s := addOp opcode d r.owner r.target [] true .stale s
    match s.ops.getLast? with
    | some op => endOp op st result writes s
    | none => s
  else
    let s := postCompletion d opcode st result writes s
    settle s.ops.length s

/-- End every outstanding operation that a test selects, with one status. -/
def endOps (p : RunOp → Bool) (st : Status) (s : State) : State :=
  (s.ops.filter p).foldl (fun s op => endOp op st [] [] s) s

/-- The outstanding operation of a ring with a tag, if it is there. A detached one goes by a ring number past the last (R404). -/
def opOf (ring tag : Nat) (s : State) : Option RunOp :=
  s.ops.find? (fun o => o.hdr.ring == ring && o.hdr.tag == tag)

/-! ### Acceptance (R379, R380) -/

/-- Who may issue an opcode (R391). -/
inductive Issuers where
  | any | f0 | f1 | f0f1 | ownerF0
deriving DecidableEq, Repr

/-- Where an opcode is accepted (R391). -/
inductive RingCol where
  | ch | pc | any
deriving DecidableEq, Repr

/-- A row of R391: size in bytes, ring column, roles (empty: no role is asked of the target), issuers. -/
structure OpRow where
  size : Nat
  ring : RingCol
  roles : List Role
  issuers : Issuers
deriving DecidableEq, Repr

/-- The opcode table (R391). -/
def opRow (opcode : Nat) : Option OpRow :=
  let allRoles : List Role := [.attn, .pool, .search, .model]
  if opcode = 0x00 then some ⟨64, .any, allRoles, .any⟩
  else if opcode = 0x01 ∨ opcode = 0x02 then some ⟨64, .pc, [], .any⟩
  else if 0x10 ≤ opcode ∧ opcode ≤ 0x18 then some ⟨64, .ch, [.attn], .any⟩
  else if opcode = 0x19 then some ⟨256, .pc, [], .f0⟩
  else if 0x20 ≤ opcode ∧ opcode ≤ 0x22 then some ⟨128, .ch, [.attn], .any⟩
  else if opcode = 0x28 then some ⟨128, .ch, [.attn], .any⟩
  else if opcode = 0x30 ∨ opcode = 0x38 then some ⟨64, .ch, [.attn], .any⟩
  else if opcode = 0x31 ∨ opcode = 0x39 ∨ opcode = 0x40 then some ⟨64, .pc, [], .f0⟩
  else if opcode = 0x41 then some ⟨128, .ch, [.model], .any⟩
  else if opcode = 0x48 then some ⟨64, .pc, [], .f0f1⟩
  else if opcode = 0x49 then some ⟨128, .pc, [], .f1⟩
  else if opcode = 0x4A ∨ opcode = 0x52 ∨ opcode = 0x53 then some ⟨64, .pc, [], .f1⟩
  else if opcode = 0x50 ∨ opcode = 0x51 then some ⟨128, .pc, [], .f1⟩
  else if opcode = 0x54 then some ⟨128, .ch, allRoles, .any⟩
  else if opcode = 0x55 then some ⟨64, .any, allRoles, .any⟩
  else if opcode = 0x58 then some ⟨64, .ch, [.search], .f0⟩
  else if opcode = 0x59 then some ⟨128, .ch, [.search], .ownerF0⟩
  else if 0x5A ≤ opcode ∧ opcode ≤ 0x5D then some ⟨64, .ch, [.search], .ownerF0⟩
  else if opcode = 0x60 ∨ opcode = 0x68 then some ⟨64, .pc, [], .any⟩
  else if opcode = 0x61 ∨ opcode = 0x62 then some ⟨64, .pc, [], .f0⟩
  else if opcode = 0x63 ∨ opcode = 0x6A then some ⟨64, .pc, [], .f1⟩
  else if opcode = 0x64 then some ⟨64, .pc, [], .f0f1⟩
  else if opcode = 0x69 ∨ opcode = 0x6B ∨ opcode = 0x6C ∨ opcode = 0x70 ∨ opcode = 0x71 then some ⟨64, .pc, [], .f0⟩
  else none

/-- The issuers column: `owner` is the owner of the target's index, where the column names it. -/
def issuerOk (i : Issuers) (fn : Nat) (owner : Option Nat) : Bool :=
  match i with
  | .any => true
  | .f0 => fn == 0
  | .f1 => fn == 1
  | .f0f1 => fn == 0 || fn == 1
  | .ownerF0 => fn == 0 || owner == some fn

/-- The owner of the index of a SEARCH channel, while it has one (R346). -/
def indexOwner (ch : Nat) (s : State) : Option Nat := ((s.chan ch).lens.hdr).map (·.owner)

/-- Items 3 to 5 of R380. -/
def commonCheck (opcode : Nat) (d : Hdr) (s : State) : Option Status :=
  let r := s.ring d.ring
  match opRow opcode with
  | none => some .opcodeInvalid
  | some row =>
    if row.ring = .pc ∧ r.target ≠ 8 ∨ row.ring = .ch ∧ r.target = 8 then some .ringTarget
    else if !issuerOk row.issuers r.owner (if row.issuers = .ownerF0 ∧ indexOwner r.target s = none then some r.owner
        else indexOwner r.target s) then some .notPermitted
    else if r.target < 8 ∧ (s.chan r.target).state ≠ .active then some .channelOffline
    else if r.target < 8 ∧ !row.roles.contains (s.chan r.target).role then some .roleMismatch
    else none

/-- A cause of PWR_ALERT_STATUS is set (R514): 0 thermal alert, 1 failure warning, 2 channel FAILED, 3 regulator warning, 4 power cap, 5
thermal throttle. ALERT_N is low while any bit is 1. -/
def setAlert (k : Nat) (s : State) : State :=
  { s with power := { s.power with alert := s.power.alert ||| BitVec.ofNat 6 (2 ^ k) } }

/-- A descriptor that the ring has read is taken: in ACTIVE, and in ERROR for one already read (R390). -/
def ringLive (ring : Nat) (s : State) : Bool := (s.ring ring).state != .disabled

/-- A descriptor comes to acceptance: the common checks, then the operation `f` with the issuing function and the target. Where no
service image verified at power-on the device serves OP_FW_UPDATE alone (R458). -/
def accept (opcode : Nat) (d : Hdr) (f : Nat → Nat → State → State) : State → Host.Outcome State Fault Refusal :=
  whenUp (fun s =>
    if ringLive d.ring s && (!s.encl.bootFailed || opcode == 0x6C) then
      match commonCheck opcode d s with
      | some st => complete d opcode st [] [] s
      | none => f (s.ring d.ring).owner (s.ring d.ring).target s
    else s)

/-- The absolute deadline of a descriptor accepted now (R378); 0 is none. -/
def deadlineOf (d : Hdr) (s : State) : Option Nat := if d.deadline = 0 then none else some (s.now + d.deadline)

/-- The host range check of R383. -/
def rangeCheck (fn a n : Nat) (s : State) : Option Status :=
  if n = 0 then none
  else match bufOf fn a s with
    | none => some .bufInvalid
    | some (_, b) => if b.base + b.length < a + n ∨ 18446744073709551616 < a + n then some .lenExceedsBuffer else none

/-- The host range checks of a descriptor's ranges, in order. -/
def rangesCheck (fn : Nat) : List (Nat × Nat) → State → Option Status
  | [], _ => none
  | (a, n) :: r, s =>
    match rangeCheck fn a n s with
    | some st => some st
    | none => rangesCheck fn r s

/-! ### The exception queue (R475, R476) -/

/-- The entries in use. -/
def exqUsed (s : State) : Nat := s.mgmt.exq.length

/-- Enter MGMT_CONGESTED when it is not entered, and raise its event (R476). -/
def enterCongested (s : State) : State :=
  if s.mgmt.congested then s
  else raiseEvent 0 (.mgmtCongested true (exqUsed s)) 8 { s with mgmt := { s.mgmt with congested := true } }

/-- Leave MGMT_CONGESTED and raise its event (R476). -/
def leaveCongested (s : State) : State :=
  if s.mgmt.congested then
    raiseEvent 0 (.mgmtCongested false (exqUsed s)) 8 { s with mgmt := { s.mgmt with congested := false } }
  else s

/-- The thresholds of PRT_EXQ_THRESH (R498). -/
def exqHigh (s : State) : Nat := fieldOf (s.reg 0x0F0 (3072 + 1024 * 65536)) 0 12

def exqLow (s : State) : Nat := fieldOf (s.reg 0x0F0 (3072 + 1024 * 65536)) 16 12

/-- An entry is taken: the high threshold may be reached. -/
def takeEntry (s : State) : State :=
  let s := { s with mgmt := { s.mgmt with exq := s.mgmt.exq ++ [s.mgmt.nextEx], nextEx := s.mgmt.nextEx + 1 } }
  if exqHigh s ≤ exqUsed s then enterCongested s else s

/-- A hardware-raised error log: an entry when one is free, a lost count otherwise (R475). -/
def errorLog (s : State) : State :=
  if exqUsed s < 4096 then takeEntry s
  else { s with mgmt := { s.mgmt with exqLost := wrap64 (s.mgmt.exqLost + 1) } }

/-- An operation that needs service firmware: with firmware halted it completes with ST_MGMT_BUSY (R478); with no entry free it
waits at the head of its ring and nothing happens yet (R475); else it takes an entry and runs. -/
def withEntry (opcode : Nat) (d : Hdr) (f : State → State) (s : State) : State :=
  if s.encl.state = .noFirmware then complete d opcode .mgmtBusy [] [] s
  else if 4096 ≤ exqUsed s then s
  else f (takeEntry s)

/-! ### Time -/

/-- Allocated and busy time of a composition ID after one nanosecond (R419): one for each member ACTIVE or DRAINING, and one
more in busy for each of them that holds work. -/
def chanBusy (n : Nat) (s : State) : Bool :=
  let c := s.chan n
  s.ops.any (fun o => o.target == n) || !c.steps.isEmpty || c.bulk.any (fun u => !u.tiles.isEmpty) || !c.lens.queries.isEmpty
    || !c.pool.waits.isEmpty || !c.pool.backlog.isEmpty

def chanServing (n : Nat) (s : State) : Bool := (s.chan n).state == .active || (s.chan n).state == .draining

def tickComp (s : State) (c : Composition) : Composition :=
  let ms := (List.range 8).filter (fun n => c.channels.getLsbD n && chanServing n s)
  { c with allocated := wrap64 (c.allocated + ms.length)
           busy := wrap64 (c.busy + (ms.filter (fun n => chanBusy n s)).length) }

end Sys2Proof.Machine
end

