-- ==== Sys2Proof/Machine/Arith.lean ====
section
/-! DEFINITION. Tile arithmetic: the formats (R107 to R110), exact products, block sums (R114 to R118), the wide accumulator
(R120 to R122), conversions (R126 to R128), the rounding functions (R129) and the vector unit (R130 to R133). -/

namespace Sys2Proof.Machine

open Sys2Proof

/-- A value of a format: NaN, an infinity of a sign, or the exact (−1)^neg × num / den × 2^exp. -/
inductive FVal where
  | nan
  | inf (neg : Bool)
  | fin (neg : Bool) (num den : Nat) (exp : Int)
deriving DecidableEq, Repr, Inhabited

/-- A binary floating format (R107): exponent and fraction bits, bias, whether it has infinities, and the largest finite
significand and its exponent field. -/
structure Fmt where
  ebits : Nat
  fbits : Nat
  bias : Nat
  hasInf : Bool
  canonNan : Nat
deriving DecidableEq, Repr, Inhabited

def fmtBf16 : Fmt := ⟨8, 7, 127, true, 0x7FC0⟩
def fmtFp16 : Fmt := ⟨5, 10, 15, true, 0x7E00⟩
def fmtE4m3 : Fmt := ⟨4, 3, 7, false, 0x7F⟩
def fmtE5m2 : Fmt := ⟨5, 2, 15, true, 0x7E⟩
def fmtFp32 : Fmt := ⟨8, 23, 127, true, 0x7FC00000⟩

/-- E2M1, the element of MXFP4 (R109): no infinity and no NaN of its own. -/
def fmtE2m1 : Fmt := ⟨2, 1, 1, false, 0⟩

/-- S12 without its bits [11:0], which hold nothing (R110): an exponent of 8 bits and a fraction of 11. -/
def fmtS12 : Fmt := ⟨8, 11, 127, true, 0x7FC00⟩

/-- The floating format of a code of R107, for the codes that are one; S12 is read and written through fmtS12. -/
def fmtOf : Nat → Option Fmt
  | 0 => some fmtBf16
  | 1 => some fmtFp16
  | 2 => some fmtE4m3
  | 3 => some fmtE5m2
  | 9 => some fmtFp32
  | _ => none

/-- Bits per element of a format code (R107). -/
def fmtBits : Nat → Nat
  | 0 => 16
  | 1 => 16
  | 2 => 8
  | 3 => 8
  | 4 => 8
  | 5 => 8
  | 6 => 8
  | 7 => 4
  | 8 => 8
  | 9 => 32
  | 10 => 32
  | 11 => 32
  | 12 => 128
  | _ => 0

/-- 2^k for an integer k, as a pair of factors (numerator, denominator). -/
def pow2Pair (k : Int) : Nat × Nat := if 0 ≤ k then (2 ^ k.toNat, 1) else (1, 2 ^ (-k).toNat)

/-- The bits of a format read as a value (R107, R108). E4M3 has NaN at S.1111.111 only; E2M1 has none. -/
def fdecode (f : Fmt) (b : Nat) : FVal :=
  let frac := b % 2 ^ f.fbits
  let ef := b / 2 ^ f.fbits % 2 ^ f.ebits
  let neg := b / 2 ^ (f.fbits + f.ebits) % 2 == 1
  if f.hasInf && ef == 2 ^ f.ebits - 1 then (if frac = 0 then .inf neg else .nan)
  else if !f.hasInf && f.ebits == 4 && ef == 15 && frac == 7 then .nan
  else if ef = 0 then .fin neg frac 1 ((1 : Int) - f.bias - f.fbits)
  else .fin neg (2 ^ f.fbits + frac) 1 ((ef : Int) - f.bias - f.fbits)

/-- The quotient rounded to the nearest integer, ties to even (round_half_even of R129). -/
def rneDiv (n d : Nat) : Nat :=
  let q := n / d
  let r := n % d
  if 2 * r < d then q else if d < 2 * r then q + 1 else if q % 2 = 0 then q else q + 1

/-- floor(log2(n / d)) for positive n and d. -/
def flog2 (n d : Nat) : Int :=
  let e : Int := (Nat.log2 n : Int) - (Nat.log2 d : Int)
  let p := pow2Pair e
  if n * p.2 < d * p.1 then e - 1 else e

/-- n / d × 2^exp rounded to a multiple of 2^q: the multiple. -/
def roundAt (n d : Nat) (exp q : Int) : Nat :=
  let p := pow2Pair (exp - q)
  rneDiv (n * p.1) (d * p.2)

/-- round_sig of R129 on a magnitude: significand and exponent, the exponent unbounded. -/
def roundSig (n d : Nat) (exp : Int) (bits : Nat) : Nat × Int :=
  if n = 0 then (0, 0)
  else
    let q := flog2 n d + exp - ((bits : Int) - 1)
    (roundAt n d exp q, q)

/-- The largest finite value's bits, without sign (R107). -/
def fmtMax (f : Fmt) : Nat :=
  if f.hasInf then (2 ^ f.ebits - 1) * 2 ^ f.fbits - 1
  else if f.ebits = 4 then 0x7E
  else 2 ^ (f.ebits + f.fbits) - 1

/-- The sign bit of a format. -/
def signBit (f : Fmt) (neg : Bool) : Nat := if neg then 2 ^ (f.ebits + f.fbits) else 0

/-- A value rounded into a format: one rounding to nearest even, subnormals produced, overflow by the saturate control
(R126, R127, R129). -/
def fencode (f : Fmt) (saturate : Bool) : FVal → Nat
  | .nan => f.canonNan
  | .inf neg => if f.hasInf then signBit f neg + (2 ^ f.ebits - 1) * 2 ^ f.fbits else f.canonNan
  | .fin neg n d e =>
    if n = 0 then signBit f neg
    else
      let q := max (flog2 n d + e - f.fbits) ((1 : Int) - f.bias - f.fbits)
      let sig := roundAt n d e q
      let mag :=
        if sig < 2 ^ f.fbits then sig
        else
          let l := Nat.log2 sig
          ((l : Int) + q + f.bias).toNat * 2 ^ f.fbits + (sig / 2 ^ (l - f.fbits) - 2 ^ f.fbits)
      if fmtMax f < mag then
        (if saturate then signBit f neg + fmtMax f
         else if f.hasInf then signBit f neg + (2 ^ f.ebits - 1) * 2 ^ f.fbits
         else f.canonNan)
      else signBit f neg + mag

/-! ### Exact arithmetic on values -/

/-- The negation of a value. -/
def FVal.neg : FVal → FVal
  | .nan => .nan
  | .inf s => .inf (!s)
  | .fin s n d e => .fin (!s) n d e

/-- The exact product (R114), with the special values of R117. -/
def FVal.mul : FVal → FVal → FVal
  | .nan, _ => .nan
  | _, .nan => .nan
  | .inf s, .inf t => .inf (s != t)
  | .inf s, .fin t n _ _ => if n = 0 then .nan else .inf (s != t)
  | .fin s n _ _, .inf t => if n = 0 then .nan else .inf (s != t)
  | .fin s n d e, .fin t m c g => .fin (s != t) (n * m) (d * c) (e + g)

/-- The quotient. -/
def FVal.div : FVal → FVal → FVal
  | .nan, _ => .nan
  | _, .nan => .nan
  | .inf _, .inf _ => .nan
  | .inf s, .fin t _ _ _ => .inf (s != t)
  | .fin s _ _ _, .inf t => .fin (s != t) 0 1 0
  | .fin s n d e, .fin t m c g =>
    if m = 0 then (if n = 0 then .nan else .inf (s != t)) else .fin (s != t) (n * c) (d * m) (e - g)

/-- The exact sum; a zero sum of opposite signs is +0, and −0 only of two −0 (R121, R130). -/
def FVal.add : FVal → FVal → FVal
  | .nan, _ => .nan
  | _, .nan => .nan
  | .inf s, .inf t => if s = t then .inf s else .nan
  | .inf s, .fin _ _ _ _ => .inf s
  | .fin _ _ _ _, .inf t => .inf t
  | .fin s n d e, .fin t m c g =>
    let q := min e g
    let x : Int := (n * c * 2 ^ (e - q).toNat : Nat)
    let y : Int := (m * d * 2 ^ (g - q).toNat : Nat)
    let z := (if s then -x else x) + (if t then -y else y)
    if z = 0 then .fin (s && t) 0 1 0 else .fin (decide (z < 0)) z.natAbs (d * c) q

/-- Whether a value is less than another; false with a NaN, and −0 equals +0. -/
def FVal.lt (a b : FVal) : Bool :=
  match a, b with
  | .nan, _ => false
  | _, .nan => false
  | .inf s, .inf t => s && !t
  | .inf s, .fin _ _ _ _ => s
  | .fin _ _ _ _, .inf t => !t
  | .fin s n d e, .fin t m c g =>
    match FVal.add (.fin s n d e) (.fin (!t) m c g) with
    | .fin neg k _ _ => neg && k != 0
    | _ => false

/-! ### FP32 (R130, R131) -/

/-- An FP32 word as a value. -/
def f32 (x : F32) : FVal := fdecode fmtFp32 x.toNat

/-- round_rne_fp32 (R129). -/
def toF32 (v : FVal) : F32 := BitVec.ofNat 32 (fencode fmtFp32 false v)

def f32add (a b : F32) : F32 := toF32 ((f32 a).add (f32 b))
def f32sub (a b : F32) : F32 := toF32 ((f32 a).add (f32 b).neg)
def f32mul (a b : F32) : F32 := toF32 ((f32 a).mul (f32 b))
def f32div (a b : F32) : F32 := toF32 ((f32 a).div (f32 b))
def f32fma (a b c : F32) : F32 := toF32 (((f32 a).mul (f32 b)).add (f32 c))
def f32lt (a b : F32) : Bool := (f32 a).lt (f32 b)
def f32nat (n : Nat) : F32 := toF32 (.fin false n 1 0)
def f32isNan (a : F32) : Bool := match f32 a with | .nan => true | _ => false
def f32isInf (a : F32) : Bool := match f32 a with | .inf _ => true | _ => false
def f32isZero (a : F32) : Bool := match f32 a with | .fin _ n _ _ => n == 0 | _ => false
/-- Negate; a NaN comes out canonical (R108, R130). -/
def f32neg (a : F32) : F32 := if f32isNan a then 0x7FC00000 else a ^^^ 0x80000000
def f32abs (a : F32) : F32 := if f32isNan a then 0x7FC00000 else a &&& 0x7FFFFFFF
def f32select (c : Bool) (a b : F32) : F32 := if c then a else b
def f32sign (a : F32) : Bool := a.toNat / 2147483648 == 1
def f32expField (a : F32) : Nat := a.toNat / 8388608 % 256
/-- Positive and normal. -/
def f32posNormal (a : F32) : Bool := !f32sign a && decide (1 ≤ f32expField a) && decide (f32expField a ≤ 254)
/-- Finite. -/
def f32finite (a : F32) : Bool := f32expField a != 255
/-- −infinity. -/
def f32ninf : F32 := 0xFF800000
/-- The canonical NaN (R108). -/
def f32nan : F32 := 0x7FC00000

/-- minimum of IEEE 754-2019, as R130 has the vector unit follow it: a NaN comes out, and −0 lies below +0. -/
def f32min (a b : F32) : F32 :=
  if f32isNan a || f32isNan b then f32nan else if f32lt a b || (!f32lt b a && f32sign a) then a else b

/-- maximum of IEEE 754-2019 (R130, R131). -/
def f32max (a b : F32) : F32 :=
  if f32isNan a || f32isNan b then f32nan else if f32lt b a || (!f32lt a b && !f32sign a) then a else b

/-- A value in S12: one rounding to 12 significant bits, bits [11:0] zero (R110, R126, R127). -/
def toS12 (saturate : Bool) (v : FVal) : F32 := BitVec.ofNat 32 (fencode fmtS12 saturate v * 4096)

/-- An S12 word as the array reads it: bits [11:0] ignored (R110). -/
def s12 (x : F32) : FVal := fdecode fmtS12 (x.toNat / 4096)

/-- split_12 (R129): hi and lo, both in S12 with bits [11:0] zero (R110). Where hi rounds to an infinity, x − hi is the infinity of the
other sign and passes through; a NaN gives the canonical NaN. -/
def split12 (x : F32) : F32 × F32 :=
  let hi := toS12 false (f32 x)
  (hi, toS12 false ((f32 x).add (s12 hi).neg))

/-! ### The array: block sums and the wide accumulator -/

/-- A WIDE entry (R120): its value, sticky and poison. -/
structure Wide where
  v : FVal
  sticky : Bool
  poison : Bool
deriving DecidableEq, Repr, Inhabited

/-- floor(log2 |p|) of a finite nonzero product. -/
def prodExp : FVal → Option Int
  | .fin _ n d e => if n = 0 then none else some (flog2 n d + e)
  | _ => none

/-- The special values of a block (R117), when it has one. -/
def blockSpecial (ps : List FVal) : Option FVal :=
  if ps.contains .nan then some .nan
  else if ps.contains (.inf false) && ps.contains (.inf true) then some .nan
  else if ps.contains (.inf false) then some (.inf false)
  else if ps.contains (.inf true) then some (.inf true)
  else none

/-- One aligned product of block_sum: its signed integer in window units, and whether it lost bits (R115). -/
def aligned (emax : Int) : FVal → Int × Bool
  | .fin s n d e =>
    let p := pow2Pair (e - (emax - 63))
    let r := rneDiv (n * p.1) (d * p.2)
    ((if s then -(r : Int) else (r : Int)), r * (d * p.2) != n * p.1)
  | _ => (0, false)

/-- block_sum of R115, after R117. -/
def blockSum (ps : List FVal) : FVal × Bool :=
  match blockSpecial ps with
  | some v => (v, false)
  | none =>
    match ps.filterMap prodExp with
    | [] => (.fin (!(ps.any (fun p => match p with | .fin false _ _ _ => true | _ => false))) 0 1 0, false)
    | e :: es =>
      let emax := es.foldl max e
      let rs := ps.map (aligned emax)
      let total := (rs.map (·.1)).sum
      let sticky := rs.any (·.2)
      if total = 0 then (.fin false 0 1 0, sticky)
      else (.fin (decide (total < 0)) total.natAbs 1 (emax - 63), sticky)

/-- A value rounded to b significant bits (round_sig of R129). -/
def roundSigV (b : Nat) : FVal → FVal
  | .fin s n d e => if n = 0 then .fin s 0 1 0 else
      let r := roundSig n d e b
      .fin s r.1 1 r.2
  | v => v

/-- merge of R121: one rounding to 96 significant bits; sticky and poison accumulate (R121, R125). -/
def wideMerge (acc b : Wide) : Wide :=
  ⟨roundSigV 96 (acc.v.add b.v), acc.sticky || b.sticky, acc.poison || b.poison⟩

/-- An entry started at +0 (R121, R125). -/
def wideZero : Wide := ⟨.fin false 0 1 0, false, false⟩

/-- Merge the block sums of a row of products, 16 at a time, into an entry (R111, R121). -/
def mergeBlocks (poison : Bool) : Nat → List FVal → Wide → Wide
  | 0, _, acc => acc
  | n + 1, ps, acc =>
    match ps with
    | [] => acc
    | _ :: _ =>
      let r := blockSum (ps.take 16)
      mergeBlocks poison n (ps.drop 16) (wideMerge acc ⟨r.1, r.2, poison⟩)

/-- The blocks of a row of products, 16 at a time, that set sticky (R115, R119). -/
def stickyIn : Nat → List FVal → Nat
  | 0, _ => 0
  | n + 1, ps =>
    match ps with
    | [] => 0
    | _ :: _ => (if (blockSum (ps.take 16)).2 then 1 else 0) + stickyIn n (ps.drop 16)

/-- A dot product formed by the array into an entry that starts at +0, in one order of blocks (R138 fixes none); `poison` when an
operand read met an uncorrectable error (R125). -/
def dotWide (poison : Bool) (xs ys : List FVal) : Wide :=
  let ps := List.zipWith FVal.mul xs ys
  mergeBlocks poison ps.length ps wideZero

/-- A WIDE entry read as FP32 (R126). -/
def wideF32 (w : Wide) : F32 := toF32 w.v

/-- The 16 B of an entry, little-endian (R120): frac, exp, flags. -/
def wideEncode (w : Wide) : Nat :=
  let fl (sign : Bool) (cls : Nat) : Nat :=
    (if sign then 1 else 0) + 2 * cls + (if w.sticky then 8 else 0) + (if w.poison then 16 else 0)
  match w.v with
  | .nan => fl false 2 * 2 ^ 112
  | .inf s => fl s 1 * 2 ^ 112
  | .fin s n d e =>
    if n = 0 then fl s 0 * 2 ^ 112
    else
      let r := roundSig n d e 96
      let l := Nat.log2 r.1
      let frac := r.1 * 2 ^ 95 / 2 ^ l
      frac + (((l : Int) + r.2) % 65536).toNat * 2 ^ 96 + fl s 0 * 2 ^ 112

/-- An entry read back from its 16 B (R120). -/
def wideDecode (b : Nat) : Wide :=
  let frac := b % 2 ^ 96
  let e : Int := (b / 2 ^ 96 % 65536 : Nat)
  let e := if 32768 ≤ e then e - 65536 else e
  let fl := b / 2 ^ 112
  let sign := fl % 2 == 1
  let cls := fl / 2 % 4
  ⟨if cls = 0 then .fin sign frac 1 (e - 95) else if cls = 1 then .inf sign else .nan, fl / 8 % 2 == 1, fl / 16 % 2 == 1⟩

/-- Conversion to INT32: nearest even, saturating (R128). -/
def convertInt32 (w : Wide) : Int :=
  match w.v with
  | .fin s n d e =>
    let p := pow2Pair e
    let r : Int := (rneDiv (n * p.1) (d * p.2) : Nat)
    let r := if s then -r else r
    max (-2147483648) (min 2147483647 r)
  | .inf s => if s then -2147483648 else 2147483647
  | .nan => 0

/-- The array mode of a pair of operand formats (R112): products per cell per cycle, or none where the pair is not listed. -/
def arrayMode (a b : Nat) : Option Nat :=
  let narrow := [2, 3, 5, 6]
  if narrow.contains a && narrow.contains b then some 2
  else if a = 4 ∧ b = 4 ∨ a = 8 ∧ b = 8 then some 2
  else if a = 7 ∧ b = 7 then some 4
  else if [0, 1, 10, 2, 3, 5, 6].contains a && [0, 1, 10, 2, 3, 5, 6].contains b then some 1
  else none

/-- The scale an E8M0 code stands for (R109); 0xFF is NaN. -/
def e8m0 (x : Nat) : FVal := if x = 255 then .nan else .fin false 1 1 ((x : Int) - 127)

/-- A two's complement byte. -/
def int8 (b : Nat) : Int := if 128 ≤ b % 256 then (b % 256 : Nat) - 256 else (b % 256 : Nat)

/-- An integer as a value, times 2^e. -/
def FVal.ofInt (x e : Int) : FVal := .fin (decide (x < 0)) x.natAbs 1 e

/-- The bits of one element of a format code as a value, without its MX scale (R107 to R110). INT32 is code 11, WIDE code 12. -/
def elemValue (code b : Nat) : FVal :=
  match code with
  | 4 => .ofInt (int8 b) 0
  | 5 => fdecode fmtE4m3 b
  | 6 => fdecode fmtE5m2 b
  | 7 => fdecode fmtE2m1 b
  | 8 => .ofInt (int8 b) (-6)
  | 10 => s12 (BitVec.ofNat 32 b)
  | 11 => .ofInt (if 2147483648 ≤ b then (b : Int) - 4294967296 else b) 0
  | 12 => (wideDecode b).v
  | c => match fmtOf c with | some f => fdecode f b | none => .nan

/-- A format code is an MX one (R109). -/
def isMx (code : Nat) : Bool := decide (5 ≤ code) && decide (code ≤ 8)

/-- The element format and its largest exponent emax_elem, for the MX formats quantised by R133; MXINT8 is code 8. -/
def mxElem : Nat → Option (Fmt × Int)
  | 5 => some (fmtE4m3, 8)
  | 6 => some (fmtE5m2, 15)
  | 7 => some (fmtE2m1, 2)
  | _ => none

/-- An MXINT8 element: round to nearest even of x / 2^X in steps of 2^-6, saturating at the largest finite value (R133). A negative element
stays down to −128/64, the −2 that R109 lists as a value (DEDUCED, log entry 97). -/
def mxInt8 : FVal → Int
  | .fin s n d e =>
    let p := pow2Pair (e + 6)
    let r : Int := (rneDiv (n * p.1) (d * p.2) : Nat)
    max (-128) (min 127 (if s then -r else r))
  | _ => 0

/-- Quantise up to 32 FP32 values into one MX block: scale code and elements (R133). With the scale 0xFF every element is NaN whatever its
code; the codes are then 0 (DESIGN CHOICE, log entry 97). -/
def mxQuantise (code : Nat) (xs : List F32) : Nat × List Nat :=
  let vs := xs.map f32
  if xs.any (fun x => !f32finite x) then (255, xs.map (fun _ => 0))
  else
    match vs.filterMap prodExp with
    | [] => (0x7F, xs.map (fun _ => 0))
    | e :: es =>
      let el : Int := match mxElem code with | some (_, m) => m | none => 0
      let x := max (-127) (min 127 (es.foldl max e - el))
      let scaled := vs.map (fun v => match v with | .fin s n d g => FVal.fin s n d (g - x) | w => w)
      ((x + 127).toNat,
        match mxElem code with
        | some (f, _) => scaled.map (fencode f true)
        | none => scaled.map (fun v => (mxInt8 v % 256).toNat))

/-- Output conversion of an entry to a format code that has one (R126 to R128): the element's bits. The MX formats are quantised by
blocks (mxQuantise), and no rule converts to INT8. -/
def convertOut (code : Nat) (saturate : Bool) (w : Wide) : Option Nat :=
  match code with
  | 10 => some (toS12 saturate w.v).toNat
  | 11 => some (convertInt32 w % 4294967296).toNat
  | 12 => some (wideEncode w)
  | c => (fmtOf c).map (fun f => fencode f saturate w.v)

end Sys2Proof.Machine
end

