-- ==== Sys2Proof/Machine/Approx.lean ====
section
/-! DEFINITION. The exact values that the spec measures a bounded result against, computed to 160 fraction bits (log entry 98), the result
placed within its bound by a free value (R131, R135 to R138, R156, R257), and the vector unit's functions (R131, R132). -/

namespace Sys2Proof.Machine

open Sys2Proof

/-! ### Fixed point in units of 2^-160 -/

/-- log2(e) and ln 2 in units of 2^-160. -/
def log2eFx : Nat := 0x171547652b82fe1777d0ffda0d23a7d11d6aef551
def ln2Fx : Nat := 0xb17217f7d1cf79abc9e3b39803f2f6af40f34326

/-- A finite value in units of 2^-160, to nearest. -/
def toFx : FVal → Int
  | .fin s n d e => let r : Int := (roundAt n d e (-160) : Nat); if s then -r else r
  | _ => 0

/-- A fixed-point number as a value. -/
def ofFx (x : Int) : FVal := .ofInt x (-160)

def mulFx (a b : Int) : Int := a * b / 2 ^ 160

/-- The terms of e^x for x in [0, 1): term, its number, and the sum. -/
def expTerms (x : Nat) : Nat → Nat → Nat → Nat
  | 0, _, _ => 0
  | n + 1, k, t => t + expTerms x n (k + 1) (t * x / 2 ^ 160 / (k + 1))

/-- 2^f for f in [0, 1), all in units of 2^-160. -/
def exp2Frac (f : Nat) : Nat := expTerms (f * ln2Fx / 2 ^ 160) 48 0 (2 ^ 160)

/-- 2^y for a fixed-point y. -/
def exp2Val (y : Int) : FVal := .fin false (exp2Frac (y % 2 ^ 160).toNat) 1 (y / 2 ^ 160 - 160)

/-- The bits of log2 of m in [1, 2), m in units of 2^-192: the bit of weight 2^-k is found by squaring k times. -/
def log2Bits : Nat → Nat → Nat
  | 0, _ => 0
  | n + 1, m =>
    let q := m * m / 2 ^ 192
    if 2 ^ 193 ≤ q then 2 ^ n + log2Bits n (q / 2) else log2Bits n q

/-- log2 of a positive value n / d × 2^e, in units of 2^-160. -/
def log2Fx (n d : Nat) (e : Int) : Int :=
  let k := flog2 n d
  (k + e) * 2 ^ 160 + (log2Bits 160 (roundAt n d 0 (k - 192)) : Nat)

/-- floor of the square root: the bits from 2^k down. -/
def isqrtBits (n : Nat) : Nat → Nat → Nat
  | 0, r => if (r + 1) * (r + 1) ≤ n then r + 1 else r
  | k + 1, r => if (r + 2 ^ (k + 1)) * (r + 2 ^ (k + 1)) ≤ n then isqrtBits n k (r + 2 ^ (k + 1)) else isqrtBits n k r

def isqrt (n : Nat) : Nat := isqrtBits n (Nat.log2 n / 2) 0

/-- The square root of a positive value n / d × 2^e: 200 or more bits, the last one set where bits were lost, so that a rounding of it
rounds the exact root. -/
def sqrtVal (n d : Nat) (e : Int) : FVal :=
  let e' := if e % 2 = 0 then e else e - 1
  let n' := if e % 2 = 0 then n else 2 * n
  let m := n' * 2 ^ 480 / d
  let r := isqrt m
  .fin false (2 * r + if r * r = m ∧ n' * 2 ^ 480 % d = 0 then 0 else 1) 1 (e' / 2 - 241)

/-- e^x, ln x of positive x, for values; an argument of e^x beyond ±1024 is taken as ±1024, where e^x leaves FP32 on that side. -/
def expVal (v : FVal) : FVal :=
  let v := match v with
    | .fin s _ _ _ => if (FVal.lt v (.ofInt 1024 0)) && (FVal.lt (.ofInt (-1024) 0) v) then v else .ofInt (if s then -1024 else 1024) 0
    | w => w
  exp2Val (toFx (v.mul (.fin false log2eFx 1 (-160))))

def lnVal : FVal → FVal
  | .fin false n d e => .ofInt (log2Fx n d e * ln2Fx) (-320)
  | v => v

/-- tanh: its series for a magnitude below 2^-16, else (e^2x − 1) / (e^2x + 1). -/
def tanhVal (v : FVal) : FVal :=
  match v with
  | .fin _ n d e =>
    if n = 0 then v
    else if flog2 n d + e < -16 then
      let x2 := v.mul v
      let a := (FVal.fin false 1 1 0).add (x2.mul ((FVal.fin true 1 3 0).add (x2.mul ((FVal.fin false 2 15 0).add (x2.mul (.fin true 17 315 0))))))
      v.mul a
    else
      let t := expVal (v.mul (.ofInt 2 0))
      (t.add (.ofInt (-1) 0)).div (t.add (.ofInt 1 0))
  | w => w

/-- The terms of Σ 2^k x^(2k+1) / (1 × 3 × … × (2k+1)) in units of 2^-640, x² likewise. -/
def erfTerms (x2 : Nat) : Nat → Nat → Nat → Nat
  | 0, _, _ => 0
  | n + 1, k, t => t + erfTerms x2 n (k + 1) (2 * t * x2 / 2 ^ 640 / (2 * k + 3))

/-- 2 / √π in units of 2^-640, from the square root of π. -/
def pi640 : Nat := 0x3243f6a8885a308d313198a2e03707344a4093822299f31d0082efa98ec4e6c89452821e638d01377be5466cf34e90c6cc0ac29b7c97c50dd3f84d5b5b54709179216d5d98979fb1bd1310ba698dfb5ac
def twoOverSqrtPi : Nat := 2 ^ 961 * 2 ^ 320 / isqrt (pi640 * 2 ^ 640)

/-- e^-u for u in units of 2^-640, from the terms of e^(u / 2^12) in 640 bits. -/
def exp640Terms (x : Nat) : Nat → Nat → Nat → Nat
  | 0, _, _ => 0
  | n + 1, k, t => t + exp640Terms x n (k + 1) (t * x / 2 ^ 640 / (k + 1))

def square640 : Nat → Nat → Nat
  | 0, y => y
  | n + 1, y => square640 n (y * y / 2 ^ 640)

/-- erf of a magnitude below 16 as a number in units of 2^-640 (for larger ones 1 − erf is below 2^-372): 2 / √π × e^-x² × Σ, all terms positive. -/
def erf640 (x : Nat) : Nat :=
  let x2 := x * x / 2 ^ 640
  let series := erfTerms x2 900 0 x
  let e := square640 12 (exp640Terms (x2 / 2 ^ 12) 90 0 (2 ^ 640))
  twoOverSqrtPi * series / e

/-- The standard normal distribution function: (1 + erf (x / √2)) / 2. -/
def phiVal : FVal → FVal
  | .fin s n d e =>
    if !FVal.lt (.fin false n d e) (.ofInt 16 0) then (if s then .fin false 0 1 0 else .ofInt 1 0)
    else
      let x := roundAt n d e (-640)
      let y := erf640 (isqrt (x * x / 2))
      .fin false (if s then 2 ^ 640 - y else 2 ^ 640 + y) 1 (-641)
  | v => v

/-! ### A result within its bound -/

/-- A shift of freeShift or ulpShift as a factor from −1 to 1. -/
def shiftVal (t : Int) : FVal := .ofInt (max (-(2 ^ 64)) (min (2 ^ 64) t)) (-64)

/-- |a − b| is below c. -/
def closer (a b c : FVal) : Bool :=
  match a.add b.neg with
  | .fin _ n d e => FVal.lt (.fin false n d e) c
  | _ => false

/-- A value moved within a bound: v + t × bound. -/
def shifted (v bound : FVal) (t : Int) : FVal := v.add (bound.mul (shiftVal t))

/-- The ulp of a nonzero value (R131). -/
def ulpOf (n d : Nat) (e : Int) : FVal := .fin false 1 1 (max (flog2 n d + e) (-126) - 23)

/-- An FP32 result within `ulps` ulp of an exact value (R131): the shifted value rounded, or the exact value rounded where that rounding left
the bound. An exact zero stays a zero. -/
def nearF32 (ulps : Nat) (t : Int) (v : FVal) : F32 :=
  match v with
  | .fin _ n d e =>
    if n = 0 then toF32 v
    else
      let b := (FVal.ofInt ulps 0).mul (ulpOf n d e)
      let r := toF32 (shifted v b t)
      if f32isInf r || closer (f32 r) v b then r else toF32 v
  | _ => toF32 v

/-! ### The functions of the vector unit (R131, R132) -/

/-- exp (R131, R132). -/
def f32exp (x : F32) : F32 :=
  if f32isNan x then f32nan else if x = 0x7F800000 then x else if x = f32ninf then 0
  else nearF32 1 (Config.ulpShift 0 x) (expVal (f32 x))

/-- exp2 (R131, R132). -/
def f32exp2 (x : F32) : F32 :=
  if f32isNan x then f32nan else if x = 0x7F800000 then x else if x = f32ninf then 0
  else nearF32 1 (Config.ulpShift 1 x) (exp2Val (max (-(1024 * 2 ^ 160)) (min (1024 * 2 ^ 160) (toFx (f32 x)))))

/-- log (R131, R132). -/
def f32log (x : F32) : F32 :=
  if f32isNan x then f32nan else if f32isZero x then f32ninf else if f32sign x then f32nan
  else if x = 0x7F800000 then x else nearF32 1 (Config.ulpShift 2 x) (lnVal (f32 x))

/-- log2 (R131, R132). -/
def f32log2 (x : F32) : F32 :=
  if f32isNan x then f32nan else if f32isZero x then f32ninf else if f32sign x then f32nan
  else if x = 0x7F800000 then x
  else nearF32 1 (Config.ulpShift 3 x) (match f32 x with | .fin _ n d e => ofFx (log2Fx n d e) | v => v)

/-- tanh (R131, R132). -/
def f32tanh (x : F32) : F32 :=
  if f32isNan x then f32nan else if x = 0x7F800000 then 0x3F800000 else if x = f32ninf then 0xBF800000
  else if f32isZero x then x else nearF32 2 (Config.ulpShift 4 x) (tanhVal (f32 x))

/-- Reciprocal (R131, R132). -/
def f32recip (x : F32) : F32 :=
  if f32isNan x then f32nan else if f32isZero x then (if f32sign x then f32ninf else 0x7F800000)
  else if f32isInf x then (if f32sign x then 0x80000000 else 0)
  else nearF32 1 (Config.ulpShift 5 x) ((FVal.ofInt 1 0).div (f32 x))

/-- Reciprocal square root (R131, R132). -/
def f32rsqrt (x : F32) : F32 :=
  if f32isNan x then f32nan else if f32isZero x then (if f32sign x then f32ninf else 0x7F800000)
  else if f32sign x then f32nan else if x = 0x7F800000 then 0
  else nearF32 1 (Config.ulpShift 6 x) (match f32 x with | .fin _ n d e => (FVal.ofInt 1 0).div (sqrtVal n d e) | v => v)

/-- Square root, correctly rounded (R131): of −0 it is −0, of a negative value NaN. -/
def f32sqrt (x : F32) : F32 :=
  if f32isNan x then f32nan else if f32isZero x then x else if f32sign x then f32nan else if x = 0x7F800000 then x
  else match f32 x with | .fin _ n d e => toF32 (sqrtVal n d e) | v => toF32 v

/-- The log of a draw's uniform value (2k + 1) × 2^-25, within 1 ulp (R131, R223, R224). -/
def logDraw (k : Nat) : F32 := nearF32 1 (Config.drawShift k) (lnVal (.fin false (2 * k + 1) 1 (-25)))

end Sys2Proof.Machine
end

