-- ==== Sys2Proof/Machine/Encode.lean ====
section
/-! DEFINITION. The bytes of what the block writes (R5): fields at their offsets, each little-endian. Completion and event entries (R385, R387,
R389, R394, R493), packet headers (R434, R436), record headers (R173, R240, R301) and flits (R428, R429). -/

namespace Sys2Proof.Machine

open Sys2Proof

/-! ### Fields at offsets -/

/-- Fields, each an offset, a width in bytes and a value, in order of offset from a position on; bytes between them are 0. -/
def placeFields : Nat → List (Nat × Nat × Nat) → List Byte
  | _, [] => []
  | pos, (o, w, v) :: r => List.replicate (o - pos) 0 ++ natLE w v ++ placeFields (o + w) r

/-- Bytes filled up with zeros. -/
def fillTo (n : Nat) (bs : List Byte) : List Byte := bs ++ List.replicate (n - bs.length) 0

/-- A structure of n bytes by its fields. -/
def layOut (n : Nat) (fs : List (Nat × Nat × Nat)) : List Byte := fillTo n (placeFields 0 fs)

/-- A count in a field of w bytes saturates (R493). -/
def satField (w v : Nat) : Nat := min v (256 ^ w - 1)

def bit (b : Bool) : Nat := if b then 1 else 0

/-- The bytes of a payload. -/
def Payload.data : Payload → List Byte
  | .empty => []
  | .bytes b => b
  | .words w => w.flatMap (natLE 8)
  | .free ix n => (List.range n).map (Config.freeByte ix)
  | .framed h ix n => h ++ (List.range n).map (Config.freeByte ix)
  | .ask _ => []
  | .poisoned b => b

/-! ### Completions (R385 to R387, R394) -/

/-- Where the results of an opcode lie in the operation-specific area, with a status (R204, R394, R460). -/
def areaFields (opcode : Nat) (st : Status) (count : Nat) : List (Nat × Nat) :=
  if opcode = 0x10 ∨ opcode = 0x14 ∨ opcode = 0x13 ∨ opcode = 0x28 ∨ opcode = 0x48 ∨ opcode = 0x55 then [(0, 8)]
  else if opcode = 0x30 then [(0, 4), (4, 4), (8, 4), (12, 4)]
  else if opcode = 0x49 ∨ opcode = 0x4A then (if st = .ok then [(0, 8), (8, 4)] else [(0, 4)])
  else if opcode = 0x52 then [(0, 8), (8, 4), (12, 4)]
  else if opcode = 0x54 then [(0, 8), (8, 8)]
  else if opcode = 0x59 then [(0, 4), (8, 8)]
  else (List.range count).map (fun k => (4 * k, 4))

/-- The operation-specific area, with its continuation (R387). -/
def areaBytes (opcode : Nat) (st : Status) (ext : Nat) (result : List Nat) : List Byte :=
  layOut (16 + 32 * ext) (List.zipWith (fun f v => (f.1, f.2, v)) (areaFields opcode st result.length) result)

/-- The entries of a completion: the first, then those that continue it (R385, R387). -/
def completionBytes (ring : Nat) (phase : Bool) (tag : Nat) (st : Status) (opcode sqHead ext : Nat) (result : List Nat) : List Byte :=
  layOut 16 [(0, 4, tag), (4, 2, statusCode st), (6, 1, opcode), (7, 1, bit phase), (8, 4, sqHead), (0x0C, 2, ring), (0x0E, 1, ext)] ++
    areaBytes opcode st ext result

/-! ### Events (R389, R493) -/

/-- The payload of an event. -/
def eventPayload : Event → List (Nat × Nat × Nat)
  | .eventOverflow n => [(0, 8, satField 8 n)]
  | .ringFault ring err => [(0, 2, ring), (2, 1, err)]
  | .functionResetDone tag a d g => [(0, 4, tag), (4, 4, satField 4 a), (8, 4, satField 4 d), (12, 1, g)]
  | .functionQuiesced g => [(0, 1, g)]
  | .channelFailed c k => [(0, 1, c), (1, 1, k)]
  | .mgmtCongested e used => [(0, 1, bit e), (4, 4, used)]
  | .mgmtRestart c d => [(0, 1, c), (4, 4, satField 4 d)]
  | .failureWarning c s v => [(0, 1, c), (1, 1, s), (4, 8, v)]
  | .resourcePreempted r h c st => [(0, 2, r), (2, 1, h), (3, 1, c), (4, 1, bit st)]
  | .protDeny n => [(0, 8, satField 8 n)]
  | .memPoison t a => [(0, 1, t), (8, 8, a)]
  | .peerDown f g u c p => [(0, 1, f), (2, 2, g), (4, 1, u), (5, 1, c), (6, 1, p)]
  | .peerUp f g r => [(0, 1, f), (2, 2, g), (4, 4, satField 4 r)]
  | .linkDown p => [(0, 1, p)]
  | .linkUp p w => [(0, 1, p), (1, 1, w)]
  | .linkDegraded p w => [(0, 1, p), (1, 1, w)]
  | .kvSpace n => [(0, 4, satField 4 n)]
  | .deadlineMiss a b c => [(0, 4, satField 4 a), (4, 4, satField 4 b), (8, 4, satField 4 c)]
  | .wlSubscriberDown k => [(0, 1, k)]
  | .mirrorUnprotected st => [(0, 2, statusCode st)]
  | .poolViolation f c p op n o => [(0, 1, f), (1, 1, c), (2, 1, p), (3, 1, op), (4, 4, satField 4 n), (8, 8, o)]
  | .poolPoison a p c n => [(0, 1, a), (1, 1, p), (2, 1, c), (4, 4, satField 4 n)]
  | .extentRevoked p s d r c w l x t =>
    [(0, 1, p), (1, 1, s), (2, 2, satField 2 d), (4, 2, satField 2 r), (6, 2, satField 2 c), (8, 2, satField 2 w), (10, 2, satField 2 l),
     (12, 2, satField 2 x), (14, 2, satField 2 t)]
  | .poolDegraded p s => [(0, 1, p), (1, 1, s)]
  | .rebuildDone p s n => [(0, 1, p), (1, 1, s), (8, 8, n)]

/-- An event entry. -/
def eventBytes (ring : Nat) (phase : Bool) (ev : Event) (source count : Nat) : List Byte :=
  layOut 16 [(0, 2, eventCode ev), (2, 2, source), (4, 2, eventStatus ev), (7, 1, bit phase + 2), (8, 4, count), (0x0C, 2, ring)] ++
    layOut 16 (eventPayload ev)

/-! ### Records -/

/-- A PAD record of a work list (R173): a header alone, and zeros up to its length. -/
def padList (stepNo length : Nat) (fixed : Bool) (src : Nat) : List Byte :=
  layOut length [(0, 8, stepNo), (8, 4, length), (0x0E, 1, 1), (0x0F, 1, bit fixed), (0x10, 2, src)]

/-- The header of a LIST record (R173). -/
def listHeader (stepNo length count : Nat) (fixed : Bool) (src tokens : Nat) : List Byte :=
  layOut 64 [(0, 8, stepNo), (8, 4, length), (0x0C, 2, count), (0x0F, 1, bit fixed), (0x10, 2, src), (0x14, 4, tokens), (0x18, 4, 64 + 32 * count)]

/-- Bytes filled up to a multiple of 16. -/
def fill16 (bs : List Byte) : List Byte := fillTo ((bs.length + 15) / 16 * 16) bs

/-- A record of an output ring (R240): `fields` are function, step, first_pos, stop, accepted, cut, held, status and ac_depth. -/
def outRecordBytes (length : Nat) (pad : Bool) (fields toks : List Nat) (text : List Byte) : List Byte :=
  let f (k : Nat) : Nat := fields.getD k 0
  if pad then layOut length [(8, 4, length), (0x0E, 1, 1)]
  else
    layOut 32 [(0, 8, f 1), (8, 4, length), (0x0C, 2, text.length), (0x0F, 1, toks.length), (0x10, 4, f 2), (0x14, 1, f 3), (0x15, 1, f 4),
      (0x16, 1, f 5), (0x17, 1, f 6), (0x18, 2, f 7), (0x1A, 2, f 8)] ++ fill16 (toks.flatMap (natLE 4)) ++ fill16 text

/-- The header of a Mirror record (R301). -/
def recordHeader (kind index gen obj arg length : Nat) : List Byte :=
  layOut 32 [(0, 1, kind), (4, 4, index), (8, 8, gen), (0x10, 8, obj), (0x18, 4, arg), (0x1C, 4, length)]

/-- The operation block of R330. -/
def poolBlock (op type_ dst src len operand operand2 : Nat) : List Byte :=
  layOut 64 [(0, 1, op), (1, 1, type_), (8, 8, dst), (0x10, 8, src), (0x18, 8, len), (0x20, 16, operand), (0x30, 16, operand2)]

/-! ### Packets (R434, R436) -/

/-- A packet's header. -/
structure PktHdr where
  code : Nat
  ackReq : Bool := false
  fence : Bool := false
  poison : Bool := false
  dstFid : Nat
  dstUnit : Nat
  srcFid : Nat
  srcUnit : Nat
  req : Nat := 0
  fn : Nat := 0
  gen : Nat := 0
  status : Nat := 0
  addr : Nat := 0
  aux : Nat := 0
deriving DecidableEq, Repr

/-- Its 32 bytes, for a payload of a length. A request with bulk_rsp is marked at its source. -/
def PktHdr.bytes (h : PktHdr) (bulkRsp : Bool) (length : Nat) : List Byte :=
  layOut 32 [(0, 1, h.code), (1, 1, bit h.ackReq + 2 * bit h.fence + 4 * bit h.poison + 8 * bit bulkRsp), (2, 2, length),
    (4, 2, h.dstFid + 128 * h.dstUnit), (6, 2, h.srcFid + 128 * h.srcUnit), (8, 4, h.req + 65536 * h.fn + 16777216 * h.gen),
    (0x0C, 2, h.status), (0x10, 8, h.addr), (0x18, 8, h.aux)]

/-- The code of an opcode the block sends (R436). -/
def pktCode : PktOp → Nat
  | .readReq | .readReqBulk => 0x01
  | .readRsp | .readRspBulk => 0x02
  | .write => 0x03
  | .writeBulk | .poisonBulk => 0x04
  | .writeAck => 0x05
  | .poolOp => 0x06
  | .poolRsp => 0x07
  | .segAttn => 0x08
  | .segSample => 0x09
  | .regRsp => 0x0C
  | .notify => 0x10
  | .intr => 0x11
  | .recall => 0x12
  | .ctrRead => 0x13
  | .ctrRsp => 0x14

/-! ### Flits (R428, R429) -/

/-- One bit of the reflected CRC-64 of R429. -/
def crc64Bit (c : BitVec 64) : BitVec 64 := if c.getLsbD 0 then (c >>> 1) ^^^ 0xC96C5795D7870F42 else c >>> 1

/-- One byte. -/
def crc64Byte (c : BitVec 64) (b : Byte) : BitVec 64 :=
  (List.range 8).foldl (fun c _ => crc64Bit c) (c ^^^ (b.zeroExtend 64))

/-- The CRC-64 of R429 over bytes. -/
def crc64 (bs : List Byte) : BitVec 64 := (bs.foldl crc64Byte 0xFFFFFFFFFFFFFFFF) ^^^ 0xFFFFFFFFFFFFFFFF

/-- The 256 bytes of a flit. -/
def flitBytes (kind vc : Nat) (sop eop : Bool) (seq ack creditVc credit : Nat) (ackValid nak : Bool) (body : List Byte) : List Byte :=
  let h := layOut 8 [(0, 1, kind + 4 * vc + 16 * bit sop + 32 * bit eop), (2, 2, seq), (4, 2, ack),
    (6, 2, credit + 4096 * creditVc + 16384 * bit ackValid + 32768 * bit nak)]
  let d := fillTo 240 body
  h ++ natLE 8 (crc64 (h ++ d)).toNat ++ d

/-- A packet cut into the data of its flits (R432). -/
def cutFlits : Nat → List Byte → List (List Byte)
  | 0, _ => []
  | n + 1, bs => bs.take 240 :: if bs.length ≤ 240 then [] else cutFlits n (bs.drop 240)

end Sys2Proof.Machine
end

