-- ==== Sys2Proof/Machine/Images.lean ====
section
/-! DEFINITION. The fields of tokenizer images (R193 to R195), grammar images (R229, R230) and model images (R248, R249, R254, R255, R282) read
from their bytes and words, and the lookups the device makes in them. -/

namespace Sys2Proof

open Machine

/-- `n` bytes of a byte string from an offset, as a little-endian number (R5). -/
def leAt (bs : List Byte) (off n : Nat) : Nat := leNat ((bs.drop off).take n)

/-! ### Tokenizer images -/

def TokImage.magic (t : TokImage) : Nat := leAt t.header 0x00 4
def TokImage.version (t : TokImage) : Nat := leAt t.header 0x04 2
def TokImage.form (t : TokImage) : Nat := fieldOf (leAt t.header 0x06 2) 0 2
def TokImage.byteFallback (t : TokImage) : Bool := fieldOf (leAt t.header 0x06 2) 2 1 == 1
def TokImage.vocabSize (t : TokImage) : Nat := leAt t.header 0x08 4
def TokImage.trieNodes (t : TokImage) : Nat := leAt t.header 0x0C 4
def TokImage.byteBase (t : TokImage) : Nat := leAt t.header 0x10 4
def TokImage.maxTokenLen (t : TokImage) : Nat := leAt t.header 0x14 4
def TokImage.ucdVersion (t : TokImage) : Nat := leAt t.header 0x18 4
def TokImage.unkId (t : TokImage) : Nat := leAt t.header 0x1C 4

/-- Offset and length of a section (R193). -/
def TokImage.secOff (t : TokImage) (n : Nat) : Nat := leAt t.header (0x20 + 16 * n) 8
def TokImage.secLen (t : TokImage) (n : Nat) : Nat := leAt t.header (0x28 + 16 * n) 8

/-- The leaf that holds a code point's entry, by its index entry. -/
def TokImage.leafOf (t : TokImage) (i : Nat) : Nat := (tget i t.index).getD 0

/-- The class-table entry of a code point and its fields (R194). -/
def TokImage.classEntry (t : TokImage) (c : Nat) : Nat := (tget (256 * t.leafOf (c / 256) + c % 256) t.leaves).getD 0
def TokImage.cls (t : TokImage) (c : Nat) : Nat := fieldOf (t.classEntry c) 0 4
def TokImage.ccc (t : TokImage) (c : Nat) : Nat := fieldOf (t.classEntry c) 4 8
def TokImage.qc (t : TokImage) (c : Nat) : Nat := fieldOf (t.classEntry c) 12 2

/-- The code points whose class-table entry has decomp set, rising (R194). -/
def TokImage.decompPoints (t : TokImage) : List Nat :=
  let es := t.leaves.filter (fun e => fieldOf e.2 14 1 == 1)
  if es.isEmpty then []
  else (List.range 4352).flatMap (fun i => (es.filter (fun e => e.1 / 256 == t.leafOf i)).map (fun e => 256 * i + e.1 % 256))

/-- The code point, length and heap index of an entry of section 1. -/
def decompCp (w : Nat) : Nat := fieldOf w 0 21
def decompLen (w : Nat) : Nat := fieldOf w 21 5
def decompIx (w : Nat) : Nat := w / 4294967296

/-- The code points a code point decomposes into by section 1. -/
def TokImage.decompose (t : TokImage) (c : Nat) : Option (List Nat) :=
  (t.decomp.find? (fun w => decompCp w == c)).map (fun w => (List.range (decompLen w)).map (fun k => t.cpHeap.getD (decompIx w + k) 0))

/-- First, second and composite of an entry of section 2. -/
def compFirst (w : Nat) : Nat := fieldOf w 0 21
def compSecond (w : Nat) : Nat := fieldOf w 21 21
def compComposite (w : Nat) : Nat := fieldOf w 42 21

/-- The composite of a pair by section 2. -/
def TokImage.compose (t : TokImage) (a b : Nat) : Option Nat :=
  (t.comp.find? (fun w => compFirst w == a && compSecond w == b)).map compComposite

/-- The pre-split action of a pair of classes, and a class's max_run (section 3). -/
def TokImage.action (t : TokImage) (a b : Nat) : Nat :=
  fieldOf ((t.split.getD ((16 * a + b) / 4) 0).toNat) (2 * ((16 * a + b) % 4)) 2
def TokImage.maxRun (t : TokImage) (a : Nat) : Nat := (t.split.getD (64 + a) 0).toNat

/-- A trie node's word and its fields (section 4). -/
def TokImage.node (t : TokImage) (n : Nat) : Nat := t.trie.getD n 0
def nodeBase (w : Nat) : Nat := fieldOf w 0 23
def nodeCount (w : Nat) : Nat := fieldOf w 23 9
def nodeByte (w : Nat) : Nat := fieldOf w 32 8
def nodeToken (w : Nat) : Option Nat := if fieldOf w 59 1 = 1 then some (fieldOf w 40 19) else none

/-- The children of a node, by number. -/
def TokImage.children (t : TokImage) (n : Nat) : List Nat :=
  (List.range (nodeCount (t.node n))).map (fun k => nodeBase (t.node n) + k)

/-- The walk of emit_one (R212) from a node whose depth is given: the last token met, with its length. -/
def TokImage.walk (t : TokImage) : List Byte → Nat → Nat → Option (Nat × Nat) → Option (Nat × Nat)
  | [], _, _, best => best
  | b :: r, n, depth, best =>
    match (t.children n).find? (fun c => nodeByte (t.node c) == b.toNat) with
    | none => best
    | some c => t.walk r c (depth + 1) (match nodeToken (t.node c) with | some x => some (depth + 1, x) | none => best)

/-- The tokens below a node with their paths; no path of a tree has as many edges as the tree has nodes. -/
def TokImage.tokensFrom (t : TokImage) : Nat → Nat → List Byte → List (List Byte × Nat)
  | 0, _, _ => []
  | fuel + 1, n, path =>
    (match nodeToken (t.node n) with | some x => [(path, x)] | none => []) ++
    (t.children n).flatMap (fun c => t.tokensFrom fuel c (path ++ [BitVec.ofNat 8 (nodeByte (t.node c))]))

/-- The fields of a hash slot (section 5). -/
def slotId (w : Nat) : Nat := fieldOf w 0 19
def slotValid (w : Nat) : Bool := fieldOf w 19 1 == 1
def slotLen (w : Nat) : Nat := fieldOf w 20 7
def slotHeap (w : Nat) : Nat := w / 4294967296

/-- The hash of a token id (R195). -/
def vocabHash (x : Nat) : Nat := x * 0x9E3779B1 % 4294967296 / 4096

/-- The probes of vocab_lookup (R195) from a slot on: the word of the id's slot. -/
def TokImage.probe (t : TokImage) (x : Nat) : Nat → Nat → Option Nat
  | 0, _ => none
  | n + 1, k =>
    let w := (tget (k % 1048576) t.slots).getD 0
    if !slotValid w then none else if slotId w = x then some w else t.probe x n (k + 1)

/-- The bytes a hash slot names in the string heap (section 6). -/
def TokImage.slotBytes (t : TokImage) (w : Nat) : List Byte := (t.heap.drop (slotHeap w)).take (slotLen w)

/-- vocab_lookup of R195. -/
def TokImage.lookup (t : TokImage) (x : Nat) : Option (List Byte) := (t.probe x 32 (vocabHash x)).map t.slotBytes

/-! ### Grammar images -/

def GramImage.magic (g : GramImage) : Nat := leAt g.header 0x00 4
def GramImage.version (g : GramImage) : Nat := leAt g.header 0x04 2
def GramImage.hashExp (g : GramImage) : Nat := leAt g.header 0x06 1
def GramImage.stateCount (g : GramImage) : Nat := leAt g.header 0x08 4
def GramImage.maskCount (g : GramImage) : Nat := leAt g.header 0x0C 4
def GramImage.vocabSize (g : GramImage) : Nat := leAt g.header 0x10 4
def GramImage.transitions (g : GramImage) : Nat := leAt g.header 0x14 4
def GramImage.stateOff (g : GramImage) : Nat := leAt g.header 0x18 8
def GramImage.maskOff (g : GramImage) : Nat := leAt g.header 0x20 8
def GramImage.transOff (g : GramImage) : Nat := leAt g.header 0x28 8

/-- Bytes of one mask (R229). -/
def GramImage.maskBytes (g : GramImage) : Nat := (g.vocabSize + 511) / 512 * 64

/-- A state's word, and its mask, accept and final (R229). -/
def GramImage.word (g : GramImage) (state : Nat) : Nat := g.states.getD state 0
def GramImage.maskIx (g : GramImage) (state : Nat) : Nat := fieldOf (g.word state) 0 16
def GramImage.accept (g : GramImage) (state : Nat) : Bool := fieldOf (g.word state) 16 1 == 1
def GramImage.final (g : GramImage) (state : Nat) : Bool := fieldOf (g.word state) 17 1 == 1

/-- Bit `id` of mask k. -/
def GramImage.maskBit (g : GramImage) (k id : Nat) : Bool :=
  fieldOf ((((tget k g.masks).getD []).getD (id / 8) 0).toNat) (id % 8) 1 == 1

/-- The bits set in mask k. -/
def GramImage.maskSum (g : GramImage) (k : Nat) : Nat :=
  ((((tget k g.masks).getD []).take g.maskBytes).map (fun b => ((List.range 8).filter (fun j => fieldOf b.toNat j 1 == 1)).length)).sum

/-- The tokens a state's mask allows. -/
def GramImage.allowed (g : GramImage) (state : Nat) : List Nat := (List.range g.vocabSize).filter (g.maskBit (g.maskIx state))

/-- The fields of a transition slot (R229). -/
def transState (w : Nat) : Nat := fieldOf w 0 16
def transToken (w : Nat) : Nat := fieldOf w 16 19
def transNext (w : Nat) : Nat := fieldOf w 35 16
def transValid (w : Nat) : Bool := fieldOf w 51 1 == 1

/-- The hash of a state and token (R230). -/
def GramImage.hash (g : GramImage) (state token : Nat) : Nat :=
  (token * 65536 + state) * 0x9E3779B97F4A7C15 % 18446744073709551616 / 2 ^ (64 - g.hashExp)

/-- The probes of grammar_next (R230) from a slot on. -/
def GramImage.probe (g : GramImage) (state token : Nat) : Nat → Nat → Option Nat
  | 0, _ => none
  | n + 1, k =>
    let w := (tget (k % 2 ^ g.hashExp) g.slots).getD 0
    if transValid w && transState w == state && transToken w == token then some (transNext w) else g.probe state token n (k + 1)

/-- grammar_next (R230). -/
def GramImage.next (g : GramImage) (state token : Nat) : Option Nat := g.probe state token 32 (g.hash state token)

/-! ### Model images -/

/-- A tensor reference from its 8 bytes (R254). -/
def parseRef (bs : List Byte) (off : Nat) : TensorRef := ⟨leAt bs off 8 % 16, leAt bs off 8 / 256⟩

/-- A layer-table entry from its 32 bytes (R249). -/
def parseLayer (bs : List Byte) : ModelLayer :=
  { opFirst := leAt bs 0 4, opCount := leAt bs 4 2, width := leAt bs 6 1, stream := leAt bs 7 1 % 2 == 1, wOff := leAt bs 8 8, wLen := leAt bs 0x10 8 }

/-- An operator from its 64 bytes (R255). -/
def parseOp (bs : List Byte) : ModelOp :=
  { op := leAt bs 0 1, variant := leAt bs 1 1, aFmt := fieldOf (leAt bs 2 1) 0 4, bFmt := fieldOf (leAt bs 2 1) 4 4
    outFmt := fieldOf (leAt bs 3 1) 0 4, saturate := fieldOf (leAt bs 3 1) 4 1 == 1, rowsRun := fieldOf (leAt bs 3 1) 5 1 == 1
    lastRows := fieldOf (leAt bs 3 1) 6 1 == 1, m := leAt bs 4 4, n := leAt bs 8 4, k := leAt bs 0x0C 4
    a := parseRef bs 0x10, b := parseRef bs 0x18, c := parseRef bs 0x20, out := parseRef bs 0x28, param := BitVec.ofNat 32 (leAt bs 0x30 4) }

/-- The fields of a model image's header (R248). -/
def parseModelHdr (bs : List Byte) : ModelImage :=
  { magic := leAt bs 0x00 4, version := leAt bs 0x04 2, isProtected := leAt bs 0x06 2 % 2 == 1, layerCount := leAt bs 0x08 4
    opCount := leAt bs 0x0C 4, progLen := leAt bs 0x10 8, weightsLen := leAt bs 0x18 8, actT1 := leAt bs 0x20 8, actT2 := leAt bs 0x28 8
    outBytes := leAt bs 0x30 4, profile := leAt bs 0x34 1 % 64, layers := [], ops := [], weights := [] }

/-- The offset of the weight section: the next multiple of 4,096 after the program section (R248). -/
def ModelImage.weightsOff (i : ModelImage) : Nat := ceilDiv (128 + i.progLen) 4096 * 4096

/-- A header completed from the bytes at image offset 0x80 on: its tables and its weights (R248, R249, R255). -/
def ModelImage.fill (i : ModelImage) (rest : List Byte) : ModelImage :=
  { i with layers := (List.range i.layerCount).map (fun k => parseLayer ((rest.drop (32 * k)).take 32))
           ops := (List.range i.opCount).map (fun k => parseOp ((rest.drop (32 * i.layerCount + 64 * k)).take 64))
           weights := (rest.drop (i.weightsOff - 128)).take i.weightsLen }

/-- The stream header of a protected image (R282). -/
structure StreamHdr where
  magic : Nat
  version : Nat
  chunkExp : Nat
  noncePrefix : List Byte
  plainLen : Nat
deriving DecidableEq, Repr

def parseStream (bs : List Byte) : StreamHdr :=
  { magic := leAt bs 0 4, version := leAt bs 4 2, chunkExp := leAt bs 6 2, noncePrefix := (bs.drop 8).take 8, plainLen := leAt bs 0x10 8 }

/-- The chunks of a stream of `plain` bytes of plaintext, 2^16 each (R9, R282). -/
def StreamHdr.chunks (h : StreamHdr) : Nat := ceilDiv h.plainLen (2 ^ h.chunkExp)

/-- The image length of a stream (R283). -/
def StreamHdr.imageLen (h : StreamHdr) : Nat := 0x80 + 32 + h.plainLen + 16 * ceilDiv h.plainLen 65536

end Sys2Proof
end

