-- ==== Sys2Proof/Machine/Regs.lean ====
section
/-! DEFINITION. The register map (R529, R538 to R544): the fields of each register with their ranges and reset values, the values in
effect, staged values and locks (R534), selectors (R531), and what a read returns. -/

namespace Sys2Proof.Machine

open Sys2Proof

/-- A field of a register: its bits, range and reset value. -/
structure RField where
  lo : Nat
  w : Nat
  min : Nat
  max : Nat
  dflt : Nat
deriving DecidableEq, Repr

/-- How a register is written: RW at once, RWL by a commit (RECOMMIT or ROLE class, R479), or by an operation of its own. -/
inductive RegClass where
  | rw | recommit | role | sel | own | ro
deriving DecidableEq, Repr

/-- Who writes a register (R532). -/
inductive Writers where
  | f0 | f0f1 | f1 | every | fnSelf | ringOwner | wlHead | service | f0Bmc | none
deriving DecidableEq, Repr

/-- A register. -/
structure RegRow where
  cls : RegClass
  writers : Writers
  fields : List RField
deriving DecidableEq, Repr

/-- The registers of the port-complex blocks that hold settings (R538 to R541), by address. A register that only reads, and is
listed here with no fields, shows state of the machine. -/
def portRegs : Tbl RegRow :=
  [(0x000, ⟨.ro, .none, []⟩),
   (0x008, ⟨.recommit, .f0f1, [⟨0, 6, 0, 63, 0⟩]⟩),
   (0x010, ⟨.rw, .f0f1, [⟨0, 7, 1, 64, 1⟩]⟩),
   (0x018, ⟨.ro, .none, []⟩),
   (0x020, ⟨.own, .f0f1, []⟩),
   (0x028, ⟨.ro, .none, []⟩),
   (0x030, ⟨.sel, .every, [⟨0, 12, 0, 4095, 0⟩]⟩),
   (0x038, ⟨.own, .ringOwner, []⟩),
   (0x040, ⟨.own, .ringOwner, []⟩),
   (0x048, ⟨.own, .ringOwner, []⟩),
   (0x050, ⟨.own, .ringOwner, []⟩),
   (0x058, ⟨.ro, .none, []⟩),
   (0x060, ⟨.sel, .every, [⟨0, 8, 0, 255, 0⟩]⟩),
   (0x068, ⟨.own, .f0, []⟩),
   (0x070, ⟨.own, .f0, []⟩),
   (0x078, ⟨.own, .fnSelf, []⟩),
   (0x080, ⟨.own, .fnSelf, []⟩),
   (0x088, ⟨.ro, .none, []⟩),
   (0x090, ⟨.ro, .none, []⟩),
   (0x098, ⟨.ro, .none, []⟩),
   (0x0A0, ⟨.sel, .every, [⟨0, 6, 0, 63, 0⟩]⟩),
   (0x0A8, ⟨.own, .fnSelf, []⟩),
   (0x0B0, ⟨.ro, .none, []⟩),
   (0x0B8, ⟨.rw, .f0, [⟨0, 20, 1000, 1000000, 50000⟩]⟩),
   (0x0C0, ⟨.ro, .none, []⟩),
   (0x0C8, ⟨.recommit, .f0, [⟨0, 4, 0, 8, 8⟩]⟩),
   (0x0D0, ⟨.rw, .f0, [⟨0, 20, 100, 1000000, 1000⟩]⟩),
   (0x0D8, ⟨.recommit, .f0f1, [⟨0, 16, 0, 65535, 0⟩]⟩)] ++
  [(0x0E0, ⟨.recommit, .f0, [⟨0, 24, 0, 16777215, 0⟩, ⟨32, 1, 0, 1, 1⟩]⟩),
   (0x0E8, ⟨.recommit, .f0, [⟨0, 16, 0, 65535, 1000⟩, ⟨16, 8, 0, 255, 3⟩, ⟨24, 5, 0, 31, 5⟩, ⟨29, 1, 0, 1, 1⟩,
      ⟨32, 32, 0, 4294967295, 1000000⟩]⟩),
   (0x0F0, ⟨.recommit, .f0, [⟨0, 12, 64, 4032, 3072⟩, ⟨16, 12, 0, 4031, 1024⟩]⟩),
   (0x0F8, ⟨.ro, .none, []⟩),
   (0x100, ⟨.rw, .f0, [⟨0, 7, 1, 100, 10⟩]⟩),
   (0x108, ⟨.rw, .f0, [⟨0, 14, 10, 10000, 1000⟩]⟩),
   (0x110, ⟨.own, .service, []⟩),
   (0x118, ⟨.sel, .every, [⟨0, 7, 0, 79, 0⟩]⟩),
   (0x120, ⟨.ro, .none, []⟩),
   (0x128, ⟨.ro, .none, []⟩),
   (0x130, ⟨.ro, .none, []⟩),
   (0x138, ⟨.own, .f1, []⟩),
   (0x140, ⟨.rw, .f0, [⟨0, 16, 0, 65535, 0⟩]⟩),
   (0x148, ⟨.rw, .f0, [⟨0, 16, 0, 65535, 0⟩]⟩),
   (0x150, ⟨.ro, .none, []⟩),
   (0x158, ⟨.ro, .none, []⟩),
   (0x10000, ⟨.ro, .none, []⟩), (0x10008, ⟨.ro, .none, []⟩), (0x10010, ⟨.ro, .none, []⟩),
   (0x10018, ⟨.ro, .none, []⟩), (0x10020, ⟨.ro, .none, []⟩), (0x20000, ⟨.ro, .none, []⟩),
   (0x30000, ⟨.ro, .none, []⟩),
   (0x30008, ⟨.rw, .f0, [⟨0, 10, 200, 760, 760⟩]⟩),
   (0x30010, ⟨.rw, .f0, [⟨0, 10, 200, 760, 520⟩]⟩),
   (0x30018, ⟨.ro, .none, []⟩),
   (0x30020, ⟨.rw, .f0, [⟨0, 7, 60, 104, 95⟩]⟩),
   (0x30028, ⟨.rw, .f0, [⟨0, 7, 80, 104, 100⟩]⟩),
   (0x30030, ⟨.sel, .every, [⟨0, 5, 0, 23, 0⟩]⟩),
   (0x30038, ⟨.ro, .none, []⟩),
   (0x30040, ⟨.own, .f0Bmc, []⟩),
   (0x30048, ⟨.ro, .none, []⟩)] ++
  [(0x30050, ⟨.rw, .f0, (List.range 8).map (fun k => ⟨8 * k, 7, 0, 127, 0⟩)⟩),
   (0x30058, ⟨.rw, .f0, [⟨0, 7, 0, 127, 0⟩]⟩),
   (0x30060, ⟨.rw, .f0, [⟨0, 7, 8, 0x77, 0x4C⟩]⟩),
   (0x40000, ⟨.own, .f0, (List.range 9).flatMap (fun p => [⟨4 * p, 1, 0, 1, 1⟩, ⟨4 * p + 1, 2, 0, 2, 0⟩])⟩),
   (0x40008, ⟨.recommit, .f0, [⟨0, 17, 200, 100000, 2000⟩]⟩),
   (0x40010, ⟨.recommit, .f0, [⟨0, 7, 1, 64, 8⟩]⟩),
   (0x40018, ⟨.recommit, .f0, [⟨0, 16, 1, 65535, 16⟩]⟩),
   (0x40020, ⟨.recommit, .f0, [⟨0, 10, 10, 1000, 100⟩]⟩),
   (0x40028, ⟨.recommit, .f0, [⟨0, 27, 10000, 100000000, 2000000⟩]⟩),
   (0x40030, ⟨.sel, .every, [⟨0, 4, 0, 8, 0⟩]⟩),
   (0x40038, ⟨.sel, .every, [⟨0, 6, 0, 35, 0⟩]⟩),
   (0x40040, ⟨.ro, .none, []⟩), (0x40048, ⟨.ro, .none, []⟩), (0x40050, ⟨.ro, .none, []⟩), (0x40058, ⟨.ro, .none, []⟩),
   (0x40060, ⟨.ro, .none, []⟩), (0x40068, ⟨.ro, .none, []⟩), (0x40070, ⟨.ro, .none, []⟩), (0x40078, ⟨.ro, .none, []⟩),
   (0x40080, ⟨.ro, .none, []⟩),
   (0x50000, ⟨.recommit, .f0, [⟨0, 17, 100, 100000, 1000⟩]⟩),
   (0x50008, ⟨.ro, .none, []⟩),
   (0x50010, ⟨.sel, .every, [⟨0, 12, 0, 4095, 0⟩]⟩),
   (0x50018, ⟨.ro, .none, []⟩), (0x50020, ⟨.ro, .none, []⟩), (0x50028, ⟨.ro, .none, []⟩),
   (0x60000, ⟨.recommit, .f0, [⟨0, 3, 0, 7, 6⟩, ⟨4, 3, 0, 7, 5⟩, ⟨8, 3, 0, 7, 4⟩, ⟨12, 3, 0, 7, 3⟩, ⟨16, 3, 0, 7, 2⟩,
      ⟨20, 3, 0, 7, 1⟩]⟩),
   (0x60008, ⟨.sel, .every, [⟨0, 4, 0, 8, 0⟩]⟩),
   (0x60010, ⟨.ro, .none, []⟩),
   (0x70000, ⟨.sel, .every, [⟨0, 7, 0, 127, 0⟩]⟩),
   (0x70008, ⟨.recommit, .f0, [⟨0, 4, 0, 10, 0⟩, ⟨4, 1, 0, 1, 0⟩, ⟨5, 1, 0, 1, 0⟩, ⟨6, 2, 0, 3, 0⟩, ⟨8, 5, 0, 31, 0⟩,
      ⟨16, 16, 0, 65535, 0⟩, ⟨32, 16, 0, 65535, 0⟩, ⟨48, 16, 1, 65535, 1⟩]⟩),
   (0x70010, ⟨.recommit, .f0, [⟨0, 20, 1, 1000000, 1000⟩]⟩),
   (0x70018, ⟨.recommit, .f0, [⟨0, 32, 0, 4294967295, 0⟩, ⟨32, 4, 0, 15, 0⟩, ⟨36, 1, 0, 1, 0⟩, ⟨37, 1, 0, 1, 0⟩]⟩)]

/-- The eight subscribers' registers (R542, R175): the word that holds enable, ring_base, tail_addr; and the heads. -/
def wlRegs : Tbl RegRow :=
  (List.range 8).flatMap (fun n =>
    [(0x100 + 0x20 * n, ⟨.own, .f0, [⟨0, 7, 0, 127, 0⟩, ⟨8, 5, 20, 26, 20⟩, ⟨16, 1, 0, 1, 0⟩]⟩),
     (0x100 + 0x20 * n + 8, ⟨.own, .f0, [⟨0, 64, 0, 18446744073709551615, 0⟩]⟩),
     (0x100 + 0x20 * n + 16, ⟨.own, .f0, [⟨0, 64, 0, 18446744073709551615, 0⟩]⟩)])

/-- The registers of a channel (R542, R544), by offset from the channel base. -/
def chanRegs : Tbl RegRow :=
  [(0x000, ⟨.ro, .none, []⟩),
   (0x008, ⟨.role, .f0, [⟨0, 1, 0, 1, 0⟩, ⟨8, 20, 0, 1048575, 0⟩]⟩),
   (0x010, ⟨.recommit, .f0, [⟨0, 14, 1, 8192, 8192⟩, ⟨32, 17, 1, 65536, 8192⟩]⟩),
   (0x018, ⟨.recommit, .f0, [⟨0, 6, 0, 56, 8⟩]⟩),
   (0x020, ⟨.recommit, .f0, [⟨0, 30, 1000, 1000000000, 10000000⟩]⟩),
   (0x028, ⟨.recommit, .f0, [⟨0, 30, 1000, 1000000000, 1000000⟩]⟩),
   (0x030, ⟨.recommit, .f0, [⟨0, 30, 1000, 1000000000, 10000000⟩]⟩),
   (0x038, ⟨.recommit, .f0, [⟨0, 30, 1000, 1000000000, 1000000⟩]⟩),
   (0x040, ⟨.recommit, .f0, [⟨0, 17, 0, 131071, 0⟩, ⟨32, 17, 0, 131071, 0⟩]⟩),
   (0x048, ⟨.recommit, .f0, [⟨0, 22, 0, 4194303, 0⟩, ⟨32, 22, 0, 4194303, 0⟩]⟩),
   (0x050, ⟨.recommit, .f0f1, [⟨0, 6, 0, 63, 0⟩, ⟨6, 3, 0, 7, 0⟩, ⟨9, 6, 0, 63, 0⟩, ⟨15, 6, 0, 63, 0⟩, ⟨24, 1, 0, 1, 0⟩]⟩),
   (0x058, ⟨.recommit, .f0, [⟨14, 50, 0, 1125899906842623, 0⟩]⟩),
   (0x060, ⟨.recommit, .f0, [⟨0, 4, 0, 15, 0⟩, ⟨7, 1, 0, 1, 0⟩, ⟨8, 48, 0, 281474976710655, 0⟩]⟩),
   (0x068, ⟨.recommit, .f0, [⟨0, 3, 0, 4, 0⟩]⟩),
   (0x070, ⟨.role, .f0, [⟨0, 12, 0, 4095, 0⟩]⟩),
   (0x078, ⟨.recommit, .f0, [⟨0, 4, 0, 9, 0⟩]⟩),
   (0x080, ⟨.recommit, .f0f1, [⟨0, 6, 0, 63, 0⟩, ⟨6, 3, 0, 7, 0⟩, ⟨9, 6, 0, 63, 0⟩, ⟨16, 1, 0, 1, 0⟩]⟩),
   (0x088, ⟨.recommit, .f0, [⟨0, 30, 10000, 1000000000, 1000000⟩]⟩),
   (0x090, ⟨.ro, .none, []⟩), (0x098, ⟨.ro, .none, []⟩), (0x0A0, ⟨.ro, .none, []⟩), (0x0A8, ⟨.ro, .none, []⟩)] ++
  wlRegs ++
  (List.range 8).map (fun n => (0x200 + 8 * n, ⟨.own, .wlHead, [⟨0, 64, 0, 18446744073709551615, 0⟩]⟩)) ++
  (List.range 9).map (fun n => (0x300 + 8 * n, ⟨.ro, .none, []⟩)) ++
  [(0x10000, ⟨.ro, .none, []⟩), (0x10008, ⟨.ro, .none, []⟩), (0x10010, ⟨.ro, .none, []⟩), (0x10018, ⟨.ro, .none, []⟩),
   (0x20000, ⟨.recommit, .f0, [⟨0, 10, 1, 1000, 100⟩]⟩),
   (0x20008, ⟨.recommit, .f0, [⟨0, 17, 10, 100000, 1000⟩]⟩),
   (0x20010, ⟨.own, .f0, []⟩)]

/-- The base of channel n's blocks (R529). -/
def chanBase (n : Nat) : Nat := 0x01000000 + n * 0x00100000

/-- The channel of an address, when it lies in a channel's blocks. -/
def addrChan (a : Nat) : Option Nat :=
  if 0x01000000 ≤ a ∧ a < 0x01800000 then some ((a - 0x01000000) / 0x00100000) else none

/-- Whether an address is mapped (R529). -/
def addrMapped (a : Nat) : Bool := a < 0x01800000

/-- The register at an address; none at a reserved offset. -/
def regRow (a : Nat) : Option RegRow :=
  match addrChan a with
  | some n => tget (a - chanBase n) chanRegs
  | none => tget a portRegs

/-- The scope of a register (R534). -/
def regScope (a : Nat) : Nat :=
  match addrChan a with
  | some n => n + 1
  | none => 0

/-- A register's reset value from its fields. -/
def rowReset (r : RegRow) : Nat := (r.fields.map (fun f => f.dflt * 2 ^ f.lo)).sum

/-- The bits of a register that its fields list. -/
def rowMask (r : RegRow) (v : Nat) : Nat := (r.fields.map (fun f => fieldOf v f.lo f.w * 2 ^ f.lo)).sum

/-- Every field of a value lies in its range. -/
def rowOk (r : RegRow) (v : Nat) : Bool :=
  r.fields.all (fun f => decide (f.min ≤ fieldOf v f.lo f.w) && decide (fieldOf v f.lo f.w ≤ f.max))

/-- The reset value at an address, by key: PRT_FABRIC_ID takes the straps (R524, R538). -/
def resetOf (key : Nat) (s : State) : Nat :=
  let a := key % 4294967296
  if a = 0x008 then s.power.strapFid else match regRow a with | some r => rowReset r | none => 0

/-- A register's value in effect. A key is an address, plus 2^32 times the index of a selected register. -/
def eff (key : Nat) (s : State) : Nat := s.reg key (resetOf key s)

/-- The staged value: the value in effect where nothing is staged (R534). -/
def stagedOf (key : Nat) (s : State) : Nat := (tget key s.staged).getD (eff key s)

/-- A field of a channel's register in effect. -/
def chanField (n off lo w : Nat) (s : State) : Nat := fieldOf (eff (chanBase n + off) s) lo w

/-- The copy of a selector that a requester uses (R531). -/
def selOf (r : Requester) (a : Nat) (s : State) : Nat :=
  match s.sel.find? (fun e => e.1 == r && e.2.1 == a) with
  | some e => e.2.2
  | none => 0

/-- A requester's copy of a selector set. -/
def setSel (r : Requester) (a v : Nat) (s : State) : State :=
  { s with sel := (r, a, v) :: s.sel.filter (fun e => !(e.1 == r && e.2.1 == a)) }

/-- The index a selected register is reached by, by its address (R531); 0 for a register that is not selected. -/
def selectorFor (a : Nat) : Option Nat :=
  if a = 0x70008 ∨ a = 0x70010 ∨ a = 0x70018 then some 0x70000 else none

/-- The key of the setting that an access by a requester reaches. -/
def keyOf (r : Requester) (a : Nat) (s : State) : Nat :=
  match selectorFor a with
  | some sa => a + 4294967296 * selOf r sa s
  | none => a

/-- The 64-bit two's complement of an integer. -/
def int64 (v : Int) : Nat := (v % 18446744073709551616).toNat

/-- The bytes 0x00 to 0x07 of a peer health entry (R490). -/
def peerWord (p : Peer) : Nat :=
  (if p.down then 1 else 0) + p.firstPort * 256 + p.generation * 65536 + p.units.toNat * 4294967296 + p.cause * 281474976710656

/-- The code of a port's state: the rows of R424 in order (R540). -/
def portCode : PortState → Nat
  | .disabled => 0
  | .detect => 1
  | .signal => 2
  | .equalize => 3
  | .align => 4
  | .config => 5
  | .active => 6
  | .retrain => 7
  | .down => 8

/-- SPC_MON_CTL of a monitor, in effect (R541). -/
def monCtl (n : Nat) (s : State) : Nat := eff (0x70008 + 4294967296 * n) s

def monProbe (n : Nat) (s : State) : Nat := fieldOf (monCtl n s) 0 4

/-- The level a threshold output drives (R497). -/
def pinHigh (n : Nat) (s : State) : Bool :=
  let w := eff (0x70018 + 4294967296 * n) s
  let level : Int := if fieldOf w 0 32 < 2147483648 then fieldOf w 0 32 else (fieldOf w 0 32 : Int) - 4294967296
  fieldOf w 37 1 == 1 && monProbe n s != 0 &&
    (match (s.monitor n).last with
     | some v => if fieldOf w 36 1 = 0 then decide (level < v) else decide (v < level)
     | none => false)

/-- What PRT_GPIO_IN reads: the level of a pin that a board output or a threshold output drives, and the board's level of any other (R497,
R523). -/
def pinLevels (s : State) : Nat :=
  ((List.range 16).map (fun p =>
    let out : Bool := fieldOf (eff 0x140 s) p 1 == 1
    let mine := (List.range 128).find? (fun n => fieldOf (eff (0x70018 + 4294967296 * n) s) 37 1 == 1 && fieldOf (eff (0x70018 + 4294967296 * n) s) 32 4 == p)
    let level : Bool := if out then fieldOf (eff 0x148 s) p 1 == 1 else match mine with | some n => pinHigh n s | none => Config.pinIn s.now p
    if level then 2 ^ p else 0)).sum

/-- What the registers that show state of the port complex read (R538 to R541), by the requester's selectors. -/
def readPort (r : Requester) (a : Nat) (s : State) : Nat :=
  let ring := s.ring (selOf r 0x030 s)
  let fn := s.fn (selOf r 0x060 s)
  let vec := fn.vec (selOf r 0x0A0 s)
  let peer := s.peer (selOf r 0x118 s)
  let port := s.port (selOf r 0x40030 s)
  let lane := s.lane (selOf r 0x40038 s)
  let pair := s.pair (selOf r 0x50010 s)
  let b (x : Bool) : Nat := if x then 1 else 0
  if a = 0x000 then 0x20658
  else if a = 0x018 then b s.mgmt.resetBusy
  else if a = 0x028 then
    b s.mgmt.cfgBusy.isSome + statusCode s.mgmt.cfgStatus * 65536 + s.mgmt.cfgResource * 4294967296 + s.mgmt.commits * 281474976710656
  else if a = 0x038 then ring.owner + ring.line * 256
  else if a = 0x040 then ring.target + ring.sqExp * 256 + ring.cqExp * 65536 + b (ring.state != .disabled) * 16777216
  else if a = 0x048 then ring.sqBase
  else if a = 0x050 then ring.cqBase
  else if a = 0x058 then ringCode ring.state + ring.err * 256 + ring.lost * 4294967296
  else if a = 0x068 then fn.adapter
  else if a = 0x070 then b fn.enable
  else if a = 0x078 then fn.dbBase
  else if a = 0x080 then fn.evRing + fn.evVector * 65536 + b fn.evValid * 16777216
  else if a = 0x088 then fn.resetGen
  else if a = 0x090 then fn.lateRsp
  else if a = 0x098 then fn.evLost
  else if a = 0x0A8 then b vec.mask + vec.count * 256 + vec.time * 65536 + satTo 16777215 vec.pending * 1099511627776
  else if a = 0x0B0 then fn.misroute
  else if a = 0x0C0 then s.mgmt.dbDropped
  else if a = 0x0F8 then s.mgmt.exqLost
  else if a = 0x120 then peerWord peer
  else if a = 0x128 then peer.since
  else if a = 0x130 then peer.reports
  else if a = 0x150 then pinLevels s
  else if a = 0x158 then s.mgmt.regDeny
  else if a = 0x10000 then
    s.encl.fuses.lifecycle + b s.encl.debugOpened * 4 + enclCode s.encl.state * 16 + s.encl.cause * 256
  else if a = 0x10008 then s.encl.fuses.svn + s.encl.runningSvn * 256
  else if a = 0x10010 then
    b s.encl.bootActive + b s.encl.bootTrying * 2 + b s.encl.bootConfirmed * 4 + s.encl.bootTries * 16
  else if a = 0x10018 then s.encl.protDeny
  else if a = 0x10020 then s.encl.reseeds
  else if a = 0x20000 then
    b s.power.pllLock + ((List.range 36).map (fun l => b (s.lane l).lock * 2 ^ (l + 1))).sum
  else if a = 0x30000 then s.power.avsMv
  else if a = 0x30018 then s.power.powerHist.sum / max 1 s.power.powerHist.length
  else if a = 0x30038 then ((s.power.temps.getD (selOf r 0x30030 s) 0) % 4294967296).toNat
  else if a = 0x30040 then s.power.alert.toNat
  else if a = 0x30048 then s.power.throttleNs
  else if a = 0x40040 then portCode port.state + port.width * 16 + port.partnerFid * 256 + port.partnerUnit * 65536
  else if a = 0x40048 then port.retrain
  else if a = 0x40050 then port.replay
  else if a = 0x40058 then port.crcErr
  else if a = 0x40060 then port.partnerChange
  else if a = 0x40068 then port.badPkt
  else if a = 0x40070 then port.misroute
  else if a = 0x40078 then lane.fecCorr
  else if a = 0x40080 then lane.fecUncorr
  else if a = 0x50008 then s.foreign
  else if a = 0x50018 then pair.rel
  else if a = 0x50020 then pair.heldCount
  else if a = 0x50028 then pair.rej
  else if a = 0x60010 then (s.gate (selOf r 0x60008 s)).overrun
  else 0

/-- What the registers that show state of a channel read (R542, R544). -/
def readChan (n off : Nat) (s : State) : Nat :=
  let c := s.chan n
  if off = 0x000 then chanCode c.state + roleCode c.role * 16 + c.epoch * 256 + c.cause * 65536
  else if off = 0x090 then c.mirror.doneGen
  else if off = 0x098 then c.mirror.doneEpoch
  else if off = 0x0A0 then c.mirror.stallCount
  else if off = 0x0A8 then c.mirror.stallNs
  else if off = 0x300 then c.arithSticky
  else if off = 0x308 then c.attnDiscard
  else if off = 0x310 then c.prismInvalid
  else if off = 0x318 then c.normFlush
  else if off = 0x320 then c.outInvalid
  else if off = 0x328 then c.outFull
  else if off = 0x330 then c.cdnHdrErr
  else if off = 0x338 then c.cdnCrcErr
  else if off = 0x340 then c.cdnTagErr
  else if off = 0x10000 then (if c.hbmTrained then 1 else 0)
  else if off = 0x10008 then c.eccCorr
  else if off = 0x10010 then c.eccUncorr
  else if off = 0x10018 then c.scrubPass
  else if off = 0x20010 then c.pool.lateWb
  else 0

/-- An endpoint that is no function reads only the CHN_WL_ registers of a channel whose subscriber register names it (R532). -/
def namesSubscriber (fid n : Nat) (s : State) : Bool :=
  (List.range 8).any (fun k => fieldOf (eff (chanBase n + 0x100 + 0x20 * k) s) 0 7 == fid)

def readPermitted (r : Requester) (a : Nat) (s : State) : Bool :=
  match r with
  | .fn _ => true
  | .service => true
  | .bmc => 0x10000 ≤ a && a < 0x40000
  | .endpoint fid =>
    match addrChan a with
    | some n => 0x100 ≤ a - chanBase n && a - chanBase n < 0x240 && namesSubscriber fid n s
    | none => false

/-- The 64 bits a mapped register reads: an RWL register reads its staged value (R534). -/
def readWord (r : Requester) (a : Nat) (s : State) : Nat :=
  match regRow a with
  | none => 0
  | some row =>
    match row.cls with
    | .rw => eff (keyOf r a s) s
    | .recommit => stagedOf (keyOf r a s) s
    | .role => stagedOf (keyOf r a s) s
    | .sel => selOf r a s
    | .ro => match addrChan a with
      | some n => readChan n (a - chanBase n) s
      | none => readPort r a s
    | .own => if row.fields.isEmpty then
        (match addrChan a with
         | some n => readChan n (a - chanBase n) s
         | none => readPort r a s)
      else eff a s

/-- A register read (R530): status and value. -/
def readReg (r : Requester) (a size : Nat) (s : State) : Status × Nat :=
  if !addrMapped a || !(size == 4 || size == 8) || a % size != 0 then (.paramInvalid, 0)
  else if !readPermitted r a s then (.notPermitted, 0)
  else
    let v := readWord r (a / 8 * 8) s
    (.ok, if size = 8 then v else if a % 8 = 0 then v % 4294967296 else v / 4294967296)

/-! ### Parameters by name -/

def stepSeqs (n : Nat) (s : State) : Nat := chanField n 0x010 0 14 s
def stepTokens (n : Nat) (s : State) : Nat := chanField n 0x010 32 17 s
def bulkMinTiles (n : Nat) (s : State) : Nat := chanField n 0x018 0 6 s
def internalDl (n : Nat) (s : State) : Nat := chanField n 0x030 0 30 s
def fixedMode (n : Nat) (s : State) : Bool := chanField n 0x008 0 1 s == 1
def gatherNs (n : Nat) (s : State) : Nat := chanField n 0x008 8 20 s
def t1High (n : Nat) (s : State) : Nat := chanField n 0x040 0 17 s
def t1Low (n : Nat) (s : State) : Nat := chanField n 0x040 32 17 s
def t2High (n : Nat) (s : State) : Nat := chanField n 0x048 0 22 s
def t2Low (n : Nat) (s : State) : Nat := chanField n 0x048 32 22 s
def spillTier (n : Nat) (s : State) : Nat := chanField n 0x068 0 3 s
def logitFmt (n : Nat) (s : State) : Nat := chanField n 0x078 0 4 s
def wlSub (n k : Nat) (s : State) : Nat := eff (chanBase n + 0x100 + 0x20 * k) s
def wlFid (n k : Nat) (s : State) : Nat := fieldOf (wlSub n k s) 0 7
def wlExp (n k : Nat) (s : State) : Nat := fieldOf (wlSub n k s) 8 5
def wlEnabled (n k : Nat) (s : State) : Bool := fieldOf (wlSub n k s) 16 1 == 1
def wlHead (n k : Nat) (s : State) : Nat := eff (chanBase n + 0x200 + 8 * k) s

/-- A register set in effect. -/
def setEff (key v : Nat) (s : State) : State := { s with regs := tset key v s.regs }

end Sys2Proof.Machine
end

