-- ==== Sys2Proof/Machine/Kv.lean ====
section
/-! DEFINITION. KV pages: the buddy allocator (R79), placement (R88 to R90), page descriptors and share counts (R49, R77, R80), page
maps (R48), the reservation of a step (R81) and the writing of positions (R62, R85, R148). -/

namespace Sys2Proof.Machine

open Sys2Proof

/-! ### The allocator -/

/-- The smallest size-class code whose run holds n granules (R73). -/
def classOf (n : Nat) : Nat :=
  if n ≤ 1 then 0 else if n ≤ 2 then 1 else if n ≤ 4 then 2 else if n ≤ 8 then 3 else if n ≤ 16 then 4 else 5

/-- Two runs meet. -/
def runsMeet (g k h j : Nat) : Bool := decide (g < h + 2 ^ j) && decide (h < g + 2 ^ k)

/-- An aligned block that lies in the pool and meets no allocated run. -/
def Alloc.blockFree (a : Alloc) (g k : Nat) : Bool :=
  decide (a.lo ≤ g) && decide (g + 2 ^ k ≤ a.hi) && a.runs.all (fun r => !runsMeet g k r.1 r.2)

/-- A free run as the buddy system holds it: free, and its parent not wholly free (R79). -/
def Alloc.maximal (a : Alloc) (g k : Nat) : Bool :=
  a.blockFree g k && (k == 5 || !a.blockFree (g / 2 ^ (k + 1) * 2 ^ (k + 1)) (k + 1))

/-- The 32-granule blocks that an allocated run or an end of the pool touches. -/
def Alloc.touched (a : Alloc) : List Nat := (a.lo / 32) :: (a.hi / 32) :: a.runs.map (fun r => r.1 / 32)

/-- The lowest-numbered free run of exactly one class. -/
def Alloc.findExact (a : Alloc) (k : Nat) : Option Nat :=
  if k = 5 then
    match firstFree (a.runs.map (fun r => r.1 / 32)) ((a.lo + 31) / 32) (a.runs.length + 1) with
    | some b => if a.blockFree (b * 32) 5 then some (b * 32) else none
    | none => none
  else
    lowest (a.touched.flatMap (fun b => ((List.range (2 ^ (5 - k))).map (fun i => b * 32 + i * 2 ^ k)).filter
      (fun g => a.maximal g k)))

/-- The run a request for a class takes: the lowest-numbered free run of the class, or of the nearest larger class (R79). -/
def Alloc.find (a : Alloc) (k : Nat) : Option Nat :=
  ((List.range (6 - k)).filterMap (fun i => a.findExact (k + i))).head?

/-- Allocate a run of a class, or count the failure (R79). -/
def Alloc.take (a : Alloc) (k : Nat) : Option Nat × Alloc :=
  match a.find k with
  | some g => (some g, { a with runs := tset g k a.runs })
  | none => (none, { a with fails := a.fails + 1 })

/-- Whole runs of 32 granules that hold g granules (R321). -/
def spanBlocks (g : Nat) : Nat := (g + 31) / 32

/-- m blocks of 32 granules from block b on are free. -/
def Alloc.spanFree (a : Alloc) (b m : Nat) : Bool :=
  decide (a.lo ≤ 32 * b) && decide (32 * (b + m) ≤ a.hi) &&
    a.runs.all (fun r => !(decide (r.1 < 32 * (b + m)) && decide (32 * b < r.1 + 2 ^ r.2)))

/-- Contiguous runs of 32 granules, at the lowest place (R321). -/
def Alloc.takeSpan (a : Alloc) (m : Nat) : Option Nat × Alloc :=
  match lowest ((((a.lo + 31) / 32) :: a.touched.map (· + 1)).filter (fun b => a.spanFree b m)) with
  | some b => (some (32 * b), { a with runs := (List.range m).foldl (fun t i => tset (32 * (b + i)) 5 t) a.runs })
  | none => (none, { a with fails := a.fails + 1 })

/-- Granules in allocated runs (R91). -/
def Alloc.use (a : Alloc) : Nat := (a.runs.map (fun r => 2 ^ r.2)).sum

/-- A run returns to the pool. -/
def Alloc.release (a : Alloc) (g : Nat) : Alloc := { a with runs := tdel g a.runs, scrub := a.scrub.erase g }

/-- The allocator of a tier. -/
def Chan.tier (c : Chan) (t : Nat) : Alloc :=
  if t = 1 then c.t1 else if t = 2 then c.t2 else if t = 3 then c.t3 else c.t4

def Chan.setTier (c : Chan) (t : Nat) (a : Alloc) : Chan :=
  if t = 1 then { c with t1 := a } else if t = 2 then { c with t2 := a } else if t = 3 then { c with t3 := a }
  else { c with t4 := a }

/-- The part of a location word above its granule offset, for the regions of T3 and T4 (R74). -/
def regionBase (n t : Nat) (s : State) : Nat :=
  if t = 3 then
    let v := eff (chanBase n + 0x050) s
    fieldOf v 0 6 * 2 ^ 50 + fieldOf v 6 3 * 2 ^ 47 + fieldOf v 9 6 * 2 ^ 41
  else if t = 4 then fieldOf (eff (chanBase n + 0x060) s) 0 4 * 2 ^ 52
  else 0

/-- The offset of a location's granule within the region of its tier (R74). -/
def locGranule (l : Loc) : Nat :=
  if l.tier = 3 then l.granule % 2 ^ 41 else if l.tier = 4 then l.granule % 2 ^ 48 else l.granule

/-- A granule lies in the run of a class at a location. -/
def inRun (l : Loc) (k : Nat) (b : Loc) : Bool := b.tier == l.tier && decide (l.granule ≤ b.granule) && decide (b.granule < l.granule + 2 ^ k)

/-- A run is freed: T2 runs await their scrub first (R468), the others return at once. -/
def Chan.freeLoc (c : Chan) (l : Loc) : Chan :=
  let c := { c with bad := c.bad.filter (fun b => !inRun l ((tget (locGranule l) (c.tier l.tier).runs).getD 0) b) }
  if l.tier = 2 then
    if (tget l.granule c.t2.runs).isSome then { c with t2 := { c.t2 with scrub := l.granule :: c.t2.scrub } } else c
  else if l.tier = 0 then c
  else c.setTier l.tier ((c.tier l.tier).release (locGranule l))

/-- The watermarks of a channel (R92). -/
structure Wm where
  h1 : Nat
  l1 : Nat
  h2 : Nat
  l2 : Nat
deriving DecidableEq, Repr

def wmOf (n : Nat) (s : State) : Wm := ⟨t1High n s, t1Low n s, t2High n s, t2Low n s⟩

/-- Granules of a run named by its location, in a tier. -/
def Chan.runSize (c : Chan) (t : Nat) (l : Loc) : Nat :=
  if l.tier == t then (match tget l.granule (c.tier t).runs with | some k => 2 ^ k | none => 0) else 0

/-- The runs that hold a page: its own, the one a copy in flight is written to, the one reserved for its decode. -/
def Page.held (p : Page) : List Loc := p.loc :: ((p.dest.map (·.1)).toList ++ (p.spare.map (·.1)).toList)

/-- Granules of pinned runs in a tier (R88, R90): those of pinned pages, and the block, page map, leaves and queue of pinned sessions, which
are placed with their session's code (R44). -/
def Chan.pinnedUse (c : Chan) (t : Nat) : Nat :=
  (c.pages.map (fun p => if p.2.pin then (p.2.held.map (c.runSize t)).sum else 0)).sum +
  (c.dirs.map (fun e => if e.2.pin && e.2.state != .parked && e.2.state != .closed then
    ((e.2.sblk :: e.2.pmap :: (((tget e.1 c.leaves).getD []).map (·.2) ++
      (match tget e.1 c.queues with | some q => q.granules | none => []))).map (c.runSize t)).sum else 0)).sum

/-- A T2 run, within the pinned limit when pinned (R90). -/
def Chan.takeT2 (c : Chan) (w : Wm) (pinned : Bool) (k : Nat) : Option Loc × Chan :=
  if pinned && decide (w.l2 < c.pinnedUse 2 + 2 ^ k) then (none, c)
  else
    let r := c.t2.take k
    (r.1.map (fun g => ⟨2, g⟩), { c with t2 := r.2 })

/-- A new run under a placement code (R88): T1 where the code and the watermarks allow and a run is found, else T2. -/
def Chan.takePlaced (c : Chan) (w : Wm) (code k : Nat) : Option Loc × Chan :=
  let wantT1 := if code = 0 then decide (c.t1.use < w.h1) else if code = 2 then decide (c.pinnedUse 1 < w.l1) else false
  if wantT1 then
    let r := c.t1.take k
    match r.1 with
    | some g => (some ⟨1, g⟩, { c with t1 := r.2 })
    | none => Chan.takeT2 { c with t1 := r.2 } w (decide (2 ≤ code)) k
  else c.takeT2 w (decide (2 ≤ code)) k

/-- A channel unchanged but for the allocation failures that another one counted (R79). -/
def Chan.withFails (c f : Chan) : Chan :=
  { c with t1 := { c.t1 with fails := f.t1.fails }, t2 := { c.t2 with fails := f.t2.fails }
           t3 := { c.t3 with fails := f.t3.fails }, t4 := { c.t4 with fails := f.t4.fails } }

/-- Several runs of one class; where one fails, the channel that comes back counts the failure and is not kept. -/
def Chan.takeMany (c : Chan) (w : Wm) (code k : Nat) : Nat → Option (List Loc) × Chan
  | 0 => (some [], c)
  | n + 1 =>
    match c.takePlaced w code k with
    | (none, c') => (none, c')
    | (some l, c') =>
      match Chan.takeMany c' w code k n with
      | (some ls, c'') => (some (l :: ls), c'')
      | (none, c'') => (none, c'')

/-! ### Profiles (R70, R72, R105) -/

end Sys2Proof.Machine

namespace Sys2Proof

open Sys2Proof.Machine

/-- Positions per page. -/
def Profile.p (x : Profile) : Nat := if x.pagePos = 0 then 128 else if x.pagePos = 1 then 256 else 512

/-- Head dimension d. -/
def Profile.d (x : Profile) : Nat := if x.headDim = 0 then 64 else if x.headDim = 1 then 128 else if x.headDim = 2 then 192 else 256

/-- Element size in bytes. -/
def Profile.e (x : Profile) : Nat := if x.kvFormat < 2 then 2 else 1

/-- Query heads Hq. -/
def Profile.hq (x : Profile) : Nat := x.kvHeads * x.group

/-- Raw page bytes (R72). -/
def Profile.rawBytes (x : Profile) : Nat := x.p * x.d * 2 * x.e

/-- Raw class (R72). -/
def Profile.rawClass (x : Profile) : Nat := classOf (ceilDiv x.rawBytes 16384)

/-- The map entry of row r, layer l, KV head h (R48). -/
def Profile.entry (x : Profile) (r l h : Nat) : Nat := (r * x.layers + l) * x.kvHeads + h

/-- The row, layer and head of a map entry. -/
def Profile.rowOf (x : Profile) (e : Nat) : Nat := e / x.kvHeads / x.layers
def Profile.layerOf (x : Profile) (e : Nat) : Nat := e / x.kvHeads % x.layers
def Profile.headOf (x : Profile) (e : Nat) : Nat := e % x.kvHeads

/-- A step of a sequence with kvLen positions reads the page of a map entry: a position of it lies in the window of the step's first
query, or the page is a sink page (R146, R167). -/
def Profile.stepReads (x : Profile) (kvLen e : Nat) : Bool :=
  x.window == 0 || decide (x.rowOf e < x.sinkRows) || decide (kvLen < x.rowOf e * x.p + x.p - 1 + x.window)

end Sys2Proof

namespace Sys2Proof.Machine

open Sys2Proof

/-- A profile that no image has set. -/
def noProfile : Profile :=
  ⟨0, 0, 0, 0, 0, 0, 0, 0, false, false, 0, 0, 0, 0, 0, 0, 0, 0, 0, 0, 0, 0, 0, 0, 0⟩

/-- A channel's copy of a profile (R104). -/
def Chan.prof (c : Chan) (n : Nat) : Profile := (tget n c.profiles).getD noProfile

/-! ### Pages -/

/-- A page descriptor; an entry not listed is FREE (R80). -/
def Chan.page (c : Chan) (d : Nat) : Page := (tget d c.pages).getD {}

def Chan.setPage (c : Chan) (d : Nat) (p : Page) : Chan := { c with pages := tset d p c.pages }

def Chan.modPage (c : Chan) (d : Nat) (f : Page → Page) : Chan := c.setPage d (f (c.page d))

/-- The share count of a page (R49). -/
def Chan.share (c : Chan) (d : Nat) : Nat := (tget d c.shares).getD 0

/-- A FREE descriptor (R80). The rule does not say which of them is taken: the model takes the lowest (DESIGN CHOICE, log entry 99). -/
def Chan.freeDesc (c : Chan) : Option Nat :=
  match firstFree (c.pages.map (·.1)) 0 (c.pages.length + 1) with
  | some d => if d < 524288 then some d else none
  | none => none

/-- The last unfinished step that reads a page, if any (R95). -/
def Chan.readBy (c : Chan) (d : Nat) : Option Nat :=
  lowest ((c.steps.filter (fun st => st.slots.any (fun x => x.reads.contains d))).map (fun st => st.num)) |>.map (fun _ =>
    ((c.steps.filter (fun st => st.slots.any (fun x => x.reads.contains d))).map (fun st => st.num)).foldl max 0)

/-- A run of a page is freed: at once, or at the end of the last step that began reading it (R95). -/
def Chan.freeRunOf (c : Chan) (d : Nat) (l : Loc) (k : Nat) : Chan :=
  match c.readBy d with
  | some n => { c with deferred := (l, k, n) :: c.deferred }
  | none => c.freeLoc l

/-- The runs of a page are freed, each at once or with the last step that began reading the page (R95, R103). -/
def Chan.freeRuns (c : Chan) (d : Nat) : Chan :=
  let p := c.page d
  let c := c.freeRunOf d p.loc p.sizeClass
  let c := match p.dest with
    | some (l, k) => c.freeRunOf d l k
    | none => c
  match p.spare with
  | some (l, k) => c.freeRunOf d l k
  | none => c

/-- The page's descriptor and runs are freed (R49, R80, R95): while a copy of it is in flight and a step has not ended, with that step. -/
def Chan.freePage (c : Chan) (d : Nat) : Chan :=
  let p := c.page d
  match (c.steps.map (fun st => st.num)).getLast? with
  | some n =>
    if p.residency = .moving ∨ p.residency = .spilling then { c with doomed := (d, n) :: c.doomed, shares := tdel d c.shares }
    else
      let c := c.freeRuns d
      { c with pages := tdel d c.pages, shares := tdel d c.shares }
  | none =>
    let c := c.freeRuns d
    { c with pages := tdel d c.pages, shares := tdel d c.shares }

/-- One reference to a page ends (R49). -/
def Chan.unshare (c : Chan) (d : Nat) : Chan :=
  if c.share d ≤ 1 then c.freePage d else { c with shares := tset d (c.share d - 1) c.shares }

/-- The runs whose last reading step has ended, and the pages whose copies were abandoned in it, are freed (R95). -/
def Chan.freeDeferred (c : Chan) (ended : Nat → Bool) : Chan :=
  let c := { ((c.deferred.filter (fun e => ended e.2.2)).foldl (fun c e => c.freeLoc e.1) c) with
             deferred := c.deferred.filter (fun e => !ended e.2.2) }
  let c' := (c.doomed.filter (fun e => ended e.2)).foldl (fun (c : Chan) e =>
    let c := (c.page e.1).held.foldl Chan.freeLoc c
    { c with pages := tdel e.1 c.pages }) c
  { c' with doomed := c.doomed.filter (fun e => !ended e.2) }

/-! ### Page maps -/

/-- A session's resident page map (R48). -/
def Chan.map (c : Chan) (i : Nat) : Tbl MapEntry := (tget i c.maps).getD []

def Chan.setMap (c : Chan) (i : Nat) (m : Tbl MapEntry) : Chan := { c with maps := tset i m c.maps }

/-- The descriptors of a session's valid entries. -/
def Chan.descsOf (c : Chan) (i : Nat) : List Nat := ((c.map i).filter (fun e => e.2.valid)).map (fun e => e.2.desc)

/-- The valid page of a map entry. -/
def Chan.pageAt (c : Chan) (i e : Nat) : Option Nat :=
  match tget e (c.map i) with
  | some m => if m.valid then some m.desc else none
  | none => none

/-- The leaf granules of a session, by leaf number. -/
def Chan.leavesOf (c : Chan) (i : Nat) : Tbl Loc := (tget i c.leaves).getD []

/-- The leaf of a map entry is there: allocate its granule when it is not (R44, R48). -/
def Chan.needLeaf (c : Chan) (w : Wm) (code i e : Nat) : Bool × Chan :=
  if (tget (e / 4096) (c.leavesOf i)).isSome then (true, c)
  else
    match c.takePlaced w code 0 with
    | (some l, c') => (true, { c' with leaves := tset i (tset (e / 4096) l (c'.leavesOf i)) c'.leaves })
    | (none, c') => (false, c')

/-- A directory entry (R41); an entry not listed is CLOSED with count 1. -/
def Chan.dir (c : Chan) (i : Nat) : Dir := (tget i c.dirs).getD {}

def Chan.setDir (c : Chan) (i : Nat) (d : Dir) : Chan := { c with dirs := tset i d c.dirs }

def Chan.modDir (c : Chan) (i : Nat) (f : Dir → Dir) : Chan := c.setDir i (f (c.dir i))

/-- A session's placement code (R89). -/
def Chan.placement (c : Chan) (i : Nat) : Nat :=
  let d := c.dir i
  (if d.pin then 2 else 0) + (c.prof d.profile).kvPlace

/-! ### Reservation (R81) -/

/-- A new page in RESERVED. -/
def newPage (l : Loc) (x : Profile) (d : Dir) (step : Nat) : Page :=
  { loc := l, lastStep := step, sizeClass := x.rawClass, codec := 0, mode := d.stackMode, residency := .reserved, pin := d.pin
    storedLen := (x.rawBytes + 255) / 256, len := x.rawBytes }

/-- Reserve one new page for a map entry: leaf, run and descriptor. A failure carries the channel with its failure counts (R79). -/
def Chan.reservePage (c : Chan) (w : Wm) (i e step : Nat) : Except (Status × Chan) (Nat × Chan) :=
  let dr := c.dir i
  let x := c.prof dr.profile
  match c.needLeaf w (c.placement i) i e with
  | (false, c) => .error (.noSpace, c)
  | (true, c) =>
    match c.freeDesc with
    | none => .error (.descTableFull, c)
    | some d =>
      match c.takePlaced w (c.placement i) x.rawClass with
      | (none, c) => .error (.noSpace, c)
      | (some l, c) => .ok (d, { c.setPage d (newPage l x dr step) with shares := tset d 1 c.shares })

/-- Reserve pages for a list of map entries. -/
def Chan.reserveNew (w : Wm) (i step : Nat) : List Nat → Chan → Tbl Nat → Except (Status × Chan) (Tbl Nat × Chan)
  | [], c, acc => .ok (acc, c)
  | e :: r, c, acc =>
    match c.reservePage w i e step with
    | .error st => .error st
    | .ok (d, c) => Chan.reserveNew w i step r c (tset e d acc)

/-- Reserve what the last page of a map entry needs before it takes an append: a new page when it is shared (R62), a spare run of its own
when it is coded (R85), which the table then names by the page itself, nothing otherwise. -/
def Chan.reserveCopy (w : Wm) (i step : Nat) : List Nat → Chan → Tbl Nat → Except (Status × Chan) (Tbl Nat × Chan)
  | [], c, acc => .ok (acc, c)
  | e :: r, c, acc =>
    match c.pageAt i e with
    | none => Chan.reserveCopy w i step r c acc
    | some d =>
      if 1 < c.share d then
        match c.reservePage w i e step with
        | .error st => .error st
        | .ok (n, c) => Chan.reserveCopy w i step r c (tset e n acc)
      else if (c.page d).codec = 0 then Chan.reserveCopy w i step r c acc
      else
        let x := c.prof (c.dir i).profile
        match c.takePlaced w (c.placement i) x.rawClass with
        | (none, c) => .error (.noSpace, c)
        | (some l, c) => Chan.reserveCopy w i step r (c.modPage d (fun p => { p with spare := some (l, x.rawClass) })) (tset e d acc)

/-- The rows that positions from `len` to `len + t` open, as map entries of the given layers, and the entries of the unsealed last
row. -/
def newEntries (x : Profile) (ls : List Nat) (len t : Nat) : List Nat :=
  let lo := (len + x.p - 1) / x.p
  let hi := (len + t + x.p - 1) / x.p
  (List.range (hi - lo)).flatMap (fun r => ls.flatMap (fun l => (List.range x.kvHeads).map (fun h => x.entry (lo + r) l h)))

def lastEntries (x : Profile) (ls : List Nat) (len : Nat) : List Nat :=
  if len % x.p = 0 then [] else ls.flatMap (fun l => (List.range x.kvHeads).map (fun h => x.entry (len / x.p) l h))

/-- All of the reservations for a sequence's new positions in some layers, or none of them (R81). -/
def Chan.reserve (c : Chan) (w : Wm) (i : Nat) (ls : List Nat) (len t step : Nat) :
    Except (Status × Chan) (Tbl Nat × Tbl Nat × Chan) :=
  let x := c.prof (c.dir i).profile
  match Chan.reserveNew w i step (newEntries x ls len t) c [] with
  | .error f => .error (f.1, c.withFails f.2)
  | .ok (new, c') =>
    match Chan.reserveCopy w i step (lastEntries x ls len) c' [] with
    | .error f => .error (f.1, c.withFails f.2)
    | .ok (copies, c'') => .ok (new, copies, c'')

/-- Unused reservations return to the pool: pages never filled, and spare runs. -/
def Chan.unreserve (c : Chan) (ds : Tbl Nat) : Chan :=
  ds.foldl (fun c e =>
    if (c.page e.2).residency = .reserved ∧ (c.page e.2).fill = 0 then c.freePage e.2
    else match (c.page e.2).spare with
      | some (l, _) => (c.freeLoc l).modPage e.2 (fun p => { p with spare := none })
      | none => c) c

/-- A coded page decoded into a run of its raw class, where it then stands (R85); a copy of it in flight is abandoned. -/
def Chan.decodeInto (c : Chan) (x : Profile) (d : Nat) (l : Loc) (k : Nat) : Chan :=
  let p := c.page d
  let c := c.freeRunOf d p.loc p.sizeClass
  let c := match p.dest with
    | some (m, j) => c.freeRunOf d m j
    | none => c
  c.modPage d (fun p => { p with loc := l, sizeClass := k, codec := 0, dest := none, spare := none, residency := .resident
                                 storedLen := (x.rawBytes + 255) / 256, len := x.rawBytes })

/-! ### Writing positions -/

/-- The copy of a last page that is shared at its write, or the decode of a coded one (R62, R85): the reserved page takes the content and the
map entry, and the old page loses one reference. A page no longer shared is written where it is, decoded first into the reserved run
where it is coded. -/
def Chan.copyLast (c : Chan) (i e : Nat) (copies : Tbl Nat) : Chan :=
  match c.pageAt i e, tget e copies with
  | some d, some n =>
    let p := c.page d
    let x := c.prof (c.dir i).profile
    if n = d then
      match p.spare with
      | some (l, k) => c.decodeInto x d l k
      | none => c
    else if 1 < c.share d then
      let q := c.page n
      let c := c.setPage n { q with k := p.k, v := p.v, fill := p.fill, residency := .resident, score := p.score, dirty := true
                                    lastStep := p.lastStep }
      let c := c.setMap i (tset e ⟨n, false, true⟩ (c.map i))
      c.unshare d
    else if p.codec = 0 then c.freePage n
    else
      let q := c.page n
      Chan.decodeInto { c with pages := tdel n c.pages, shares := tdel n c.shares } x d q.loc q.sizeClass
  | _, _ => c

/-- Rows of one head cut out of a part's rows: element bytes h × d × e on (R142). -/
def headRow (x : Profile) (h : Nat) (row : List Byte) : List Byte := (row.drop (h * x.d * x.e)).take (x.d * x.e)

/-- Write the rows of positions from `pos` on into the page at a map entry, above its fill. -/
def Chan.writeRows (c : Chan) (i e pos : Nat) (ks vs : List (List Byte)) (new : Tbl Nat) : Chan :=
  let x := c.prof (c.dir i).profile
  let off := pos % x.p
  let d? := match c.pageAt i e with
    | some d => some d
    | none => tget e new
  match d? with
  | none => c
  | some d => c.modPage d (fun p => { p with k := p.k.take off ++ ks, v := p.v.take off ++ vs })

/-- The positions of one row among t positions from `pos`: the row's number, its first position, how many. -/
def rowPieces (p : Nat) : Nat → Nat → Nat → List (Nat × Nat × Nat)
  | 0, _, _ => []
  | n + 1, pos, t =>
    if t = 0 then []
    else
      let k := min t (p - pos % p)
      (pos / p, pos, k) :: rowPieces p n (pos + k) (t - k)

/-- Write one layer's positions, from `pos` on, into the reserved pages (R148): `ks` and `vs` hold one row of bytes per position. -/
def Chan.writeLayer (c : Chan) (i l pos : Nat) (ks vs : List (List Byte)) (new : Tbl Nat) : Chan :=
  let x := c.prof (c.dir i).profile
  (rowPieces x.p (ks.length + 1) pos ks.length).foldl (fun c pc =>
    (List.range x.kvHeads).foldl (fun c h =>
      let part (rows : List (List Byte)) := ((rows.drop (pc.2.1 - pos)).take pc.2.2).map (headRow x h)
      c.writeRows i (x.entry pc.1 l h) pc.2.1 (part ks) (part vs) new) c) c

/-- The pages of a layer take their new fill (R148): positions up to `len` are held; reserved pages join the map. -/
def Chan.setFill (c : Chan) (i e len step : Nat) (new : Tbl Nat) : Chan :=
  let x := c.prof (c.dir i).profile
  let fill := min x.p (len - x.rowOf e * x.p)
  let c := match c.pageAt i e, tget e new with
    | none, some d => c.setMap i (tset e ⟨d, false, true⟩ (c.map i))
    | _, _ => c
  match c.pageAt i e with
  | some d => c.modPage d (fun p => { p with fill := fill, k := p.k.take fill, v := p.v.take fill, dirty := true, lastStep := step
                                             residency := if p.residency = .reserved then .resident else p.residency })
  | none => c

/-- The map entries that positions from `len` to `len + t` of some layers touch. -/
def touchedEntries (x : Profile) (ls : List Nat) (len t : Nat) : List Nat :=
  if t = 0 then [] else
    (List.range ((len + t - 1) / x.p + 1 - len / x.p)).flatMap (fun r =>
      ls.flatMap (fun l => (List.range x.kvHeads).map (fun h => x.entry (len / x.p + r) l h)))

/-- The held positions of a session's layers become `len + t` (R148). -/
def Chan.commitLayers (c : Chan) (i : Nat) (ls : List Nat) (len t step : Nat) (new : Tbl Nat) : Chan :=
  let x := c.prof (c.dir i).profile
  (touchedEntries x ls len t).foldl (fun c e => c.setFill i e (len + t) step new) c

/-- Positions at or above `fill` of a page are discarded (R71, R148, R228). -/
def Chan.trimPages (c : Chan) (i : Nat) (es : List Nat) : Chan :=
  es.foldl (fun c e => match c.pageAt i e with
    | some d => c.modPage d (fun p => { p with k := p.k.take p.fill, v := p.v.take p.fill })
    | none => c) c

/-- The pages a session's directory counts (R41). -/
def Chan.countPages (c : Chan) (i : Nat) : Chan := c.modDir i (fun d => { d with pages := (c.descsOf i).length })

/-! ### Mirror's view of a session (R293, R297, R298) -/

/-- A session's capture-table entry (R293). -/
def Chan.capture (c : Chan) (i : Nat) : Capture := (tget i c.mirror.captures).getD {}

def Chan.setCapture (c : Chan) (i : Nat) (x : Capture) : Chan :=
  { c with mirror := { c.mirror with captures := tset i x c.mirror.captures } }

/-- A session's input queue (R206). -/
def Chan.queue (c : Chan) (i : Nat) : InQueue := (tget i c.queues).getD {}

def Chan.setQueue (c : Chan) (i : Nat) (q : InQueue) : Chan := { c with queues := tset i q c.queues }

/-- A session block (R45, R46), when the session has one. -/
def Chan.sblk (c : Chan) (i : Nat) : Option SBlk := tget i c.sblks

def Chan.setSblk (c : Chan) (i : Nat) (b : SBlk) : Chan := { c with sblks := tset i b c.sblks }

/-- The open generation has yet to capture a session (R295 item 3, R297). -/
def Chan.toCapture (c : Chan) (i : Nat) : Bool :=
  let x := c.capture i
  c.mirror.gen != 0 && !c.mirror.ended && x.lastGen != c.mirror.gen &&
    (x.changed || x.isNew || x.closedSince || decide (x.sentLen < (c.dir i).kvLen))

/-- Images in the copy-before-write area (R297). -/
def Chan.cbwUsed (c : Chan) : Nat := (c.mirror.captures.filter (fun e => e.2.cbw.isSome)).length

/-- A write to a session's DIR, SBLK or queue by a step above `step`, or by an operation, is about to take place: copy-before-write
when R297 asks for it, a stall counted when the area is full (R299), and the entry marked changed (R293). The image takes with it what
the capture is to say of the session up to this moment; what follows is for the next capture. -/
def Chan.touch (c : Chan) (i : Nat) (step : Option Nat) : Chan :=
  let x := c.capture i
  let due := c.toCapture i && x.cbw.isNone && (match step with | some n => decide (c.mirror.epoch < n) | none => true)
  match due, c.sblk i with
  | true, some b =>
    let c := if 5911 ≤ c.cbwUsed then { c with mirror := { c.mirror with stallCount := wrap64 (c.mirror.stallCount + 1) } } else c
    c.setCapture i { x with cbw := some ⟨c.dir i, b, (c.queue i).words, x.isNew, x.forkedFrom, x.closedSince, x.drops⟩
                            changed := true, isNew := false, forkedFrom := none, closedSince := false, drops := [] }
  | _, _ => c.setCapture i { x with changed := true }

/-- A run of a session is freed, or held by Mirror until the open generation has captured the session (R298). -/
def Chan.freeOf (c : Chan) (i : Nat) (l : Loc) : Chan :=
  if c.toCapture i then { c with mirror := { c.mirror with heldRuns := (i, l) :: c.mirror.heldRuns } } else c.freeLoc l

/-- A session's reference to a page ends (R49, R58, R103): where it is the last one and the open generation has yet to capture the session,
Mirror holds the page's run (R298) and the destination of a copy in flight is freed with the descriptor. -/
def Chan.endRef (c : Chan) (i d : Nat) : Chan :=
  if c.toCapture i && decide (c.share d ≤ 1) then
    let p := c.page d
    let c := c.freeOf i p.loc
    let c := match p.dest with
      | some (l, k) => c.freeRunOf d l k
      | none => c
    let c := match p.spare with
      | some (l, k) => c.freeRunOf d l k
      | none => c
    { c with pages := tdel d c.pages, shares := tdel d c.shares }
  else c.unshare d

/-- A run of a class stands poisoned somewhere (R488). -/
def Chan.badRun (c : Chan) (l : Loc) (k : Nat) : Bool := c.bad.any (inRun l k)

end Sys2Proof.Machine
end

