-- ==== Sys2Proof/Machine/Utf8.lean ====
section
/-! DEFINITION. UTF-8: the decoder that takes one byte at a time and divides ill-formed input into maximal subparts (R207), and the
encoder. -/

namespace Sys2Proof.Machine

open Sys2Proof

/-- What the decoder passes on: a code point, or the bytes of an ill-formed subpart (R207). -/
inductive U8 where
  | char (cp : Nat)
  | bad (bytes : List Byte)
deriving DecidableEq, Repr, Inhabited

/-- Bytes a character with this first byte has; 0 for a byte that begins none. -/
def u8Len (b : Byte) : Nat :=
  let n := b.toNat
  if n < 0x80 then 1 else if 0xC2 ≤ n ∧ n ≤ 0xDF then 2 else if 0xE0 ≤ n ∧ n ≤ 0xEF then 3
  else if 0xF0 ≤ n ∧ n ≤ 0xF4 then 4 else 0

/-- The second byte allowed after a first byte: overlong forms, surrogates and values above U+10FFFF are shut out (R207). -/
def u8Second (a b : Byte) : Bool :=
  let n := a.toNat
  let m := b.toNat
  let lo := if n = 0xE0 then 0xA0 else if n = 0xF0 then 0x90 else 0x80
  let hi := if n = 0xED then 0x9F else if n = 0xF4 then 0x8F else 0xBF
  decide (lo ≤ m) && decide (m ≤ hi)

/-- A continuation byte. -/
def u8Cont (b : Byte) : Bool := decide (0x80 ≤ b.toNat) && decide (b.toNat ≤ 0xBF)

/-- Whether a byte continues the character whose first bytes are held. -/
def u8Continues (held : List Byte) (b : Byte) : Bool :=
  match held with
  | [] => false
  | [a] => u8Second a b
  | _ :: _ => u8Cont b

/-- The code point of a well-formed character's bytes. -/
def u8Value (bs : List Byte) : Nat :=
  match bs.map BitVec.toNat with
  | [a] => a
  | [a, b] => a % 32 * 64 + b % 64
  | [a, b, c] => a % 16 * 4096 + b % 64 * 64 + c % 64
  | [a, b, c, d] => a % 8 * 262144 + b % 64 * 4096 + c % 64 * 64 + d % 64
  | _ => 0

/-- A byte met with nothing held: what is passed on, and what is held. -/
def u8Start (b : Byte) : List U8 × List Byte :=
  if u8Len b = 0 then ([.bad [b]], []) else if u8Len b = 1 then ([.char b.toNat], []) else ([], [b])

/-- One byte: what is passed on at it, and the bytes held after it. A byte that cannot continue the held bytes passes them on as
one maximal subpart and is met again (R207). -/
def u8Feed (held : List Byte) (b : Byte) : List U8 × List Byte :=
  match held with
  | [] => u8Start b
  | a :: _ =>
    if u8Continues held b then
      let h := held ++ [b]
      if h.length = u8Len a then ([.char (u8Value h)], []) else ([], h)
    else
      let r := u8Start b
      (.bad held :: r.1, r.2)

/-- The bytes of a buffer, each unit passed on with the index of the last byte read. -/
def u8Run : List Byte → List Byte → Nat → List (U8 × Nat) × List Byte
  | held, [], _ => ([], held)
  | held, b :: r, ix =>
    let f := u8Feed held b
    let rest := u8Run f.2 r (ix + 1)
    (f.1.map (fun u => (u, ix)) ++ rest.1, rest.2)

/-- Bytes are well-formed UTF-8. -/
def u8Valid (bs : List Byte) : Bool :=
  let r := u8Run [] bs 0
  r.2.isEmpty && r.1.all (fun u => match u.1 with | .char _ => true | .bad _ => false)

/-- The UTF-8 bytes of a code point. -/
def u8Encode (c : Nat) : List Byte :=
  let b (n : Nat) : Byte := BitVec.ofNat 8 n
  if c < 0x80 then [b c]
  else if c < 0x800 then [b (0xC0 + c / 64), b (0x80 + c % 64)]
  else if c < 0x10000 then [b (0xE0 + c / 4096), b (0x80 + c / 64 % 64), b (0x80 + c % 64)]
  else [b (0xF0 + c / 262144), b (0x80 + c / 4096 % 64), b (0x80 + c / 64 % 64), b (0x80 + c % 64)]

/-- Code points and subparts of a text with their offsets: the offset of a unit's first byte in the buffer, negative when it began
in carried bytes (R204). -/
def u8Offsets : List U8 → Int → List (U8 × Int)
  | [], _ => []
  | u :: r, off =>
    let n : Nat := match u with | .char c => (u8Encode c).length | .bad bs => bs.length
    (u, off) :: u8Offsets r (off + n)

end Sys2Proof.Machine
end

