-- ==== Sys2Proof/Machine/Operands.lean ====
section
/-! DEFINITION. The operand forms: session handles and their check (R37, R38), location words (R74), the parameter image and its
checks (R46, R47, R200, R220), the profile record's checks (R106). -/

namespace Sys2Proof.Machine

open Sys2Proof

/-- check_handle of R38. -/
def checkHandle (h : Handle) (ch fn : Nat) (s : State) : Option Status :=
  if h.fabricId ≠ s.fid then some .handleInvalid
  else if h.channel ≠ ch then some .handleInvalid
  else
    let e := (s.chan ch).dir h.index
    if e.state = .closed then some .sessionStale
    else if e.epoch ≠ h.epoch ∨ e.count ≠ h.count then some .sessionStale
    else if fn ≠ e.owner ∧ fn ≠ 0 then some .sessionNotOwner
    else none

/-- The handle of a session. -/
def handleOf (ch i : Nat) (s : State) : Handle :=
  let e := (s.chan ch).dir i
  ⟨s.fid, ch, i, e.epoch, e.count⟩

/-- A handle's 64-bit word (R37). -/
def handleWord (h : Handle) : Nat :=
  h.fabricId * 2 ^ 58 + h.channel * 2 ^ 55 + h.index * 2 ^ 38 + h.epoch * 2 ^ 32 + h.count

/-- A location word (R74). -/
def locWord (l : Loc) : Nat := l.tier + l.granule * 256

/-- The image of a tokenizer slot that is READY (R192). -/
def Chan.tokImage (c : Chan) (n : Nat) : Option TokImage :=
  match tget n c.toks with
  | some t => if t.state = 2 then t.image else none
  | none => none

/-- The image of a grammar slot that is READY (R231). -/
def Chan.gramImage (c : Chan) (n : Nat) : Option GramImage :=
  match tget n c.grams with
  | some t => if t.state = 2 then t.image else none
  | none => none

/-- A host range lies in one registered buffer of a function. -/
def inBuffers (fn a n : Nat) (s : State) : Bool := (rangeCheck fn a n s).isNone

/-- The checks of R47. -/
def imageR47 (g : ParamImage) : Bool :=
  decide (g.utf8Policy ≤ 2) && decide (g.stopCount ≤ 16) && decide (g.stackMode ≤ 2) &&
  (List.range g.stopCount).all (fun k => match g.stops[k]? with
    | some x => decide (1 ≤ x.len) && decide (x.len ≤ 64) && decide (x.kind ≤ 1)
    | none => false) &&
  !(g.stackMode == 1 && g.parkTier != 2) && (g.parkTier == 2 || g.parkTier == 3 || g.parkTier == 4)

/-- The sampler fields lie in the ranges of R219. -/
def imageR219 (g : ParamImage) : Bool :=
  (g.temperature == 0 || f32posNormal g.temperature) &&
  f32lt 0 g.topP && !f32lt 0x3F800000 g.topP && !f32isNan g.topP &&
  !f32lt g.minP 0 && f32lt g.minP 0x3F800000 &&
  f32posNormal g.repPenalty && f32finite g.presence && f32finite g.frequency &&
  decide (g.topK ≤ 1024) && decide (g.penWindow ≤ 4096) && decide (g.biasCount ≤ 256) &&
  (g.outAddr == 0 || (g.outAddr % 4096 == 0 && decide (13 ≤ g.outExp) && decide (g.outExp ≤ 24)))

/-- The bytes of a stop string. -/
def stopBytes (x : StopString) : List Byte := x.bytes.take x.len

/-- The stop strings in use. -/
def stopsOf (g : ParamImage) : List StopString := g.stops.take g.stopCount

/-- The checks of R220 that name the tokenizer, the grammar and the owner's buffers. -/
def imageR220 (g : ParamImage) (c : Chan) (owner tokenizer grammarSlot : Nat) (grammarEn : Bool) (s : State) : Bool :=
  match c.tokImage tokenizer with
  | none => false
  | some t =>
    (g.bias.take g.biasCount).all (fun b => decide (b.1 < t.vocabSize) && !f32isNan b.2 && b.2 != 0x7F800000) &&
    (g.outAddr == 0 || (inBuffers owner g.outAddr (2 ^ g.outExp) s && inBuffers owner g.outHeadAddr 8 s
      && inBuffers owner g.outTailAddr 8 s)) &&
    (g.utf8Policy == 1 || (stopsOf g).all (fun x => u8Valid (stopBytes x))) &&
    (!grammarEn || match c.gramImage grammarSlot with
      | some m => m.vocabSize == t.vocabSize && decide (g.startState < m.stateCount)
      | none => false) &&
    !(g.utf8Policy == 1 && !t.byteFallback)

/-- The parameter image passes R47, R200 and R220. -/
def imageOk (g : ParamImage) (c : Chan) (owner tokenizer grammarSlot : Nat) (grammarEn : Bool) (s : State) : Bool :=
  imageR47 g && imageR219 g && imageR220 g c owner tokenizer grammarSlot grammarEn s

/-- The checks of a parameter image's buffer: items 3 to 5 of R57. -/
def imageBuffer (fn addr len : Nat) (s : State) : Option Status :=
  if len = 0 then some .lenZero
  else
    match rangeCheck fn addr len s with
    | some st => some st
    | none => if len ≠ 4096 then some .paramInvalid else none

/-- Every field of a profile record but valid is zero (R106). -/
def profileZero (r : Profile) : Bool := { r with valid := false } == noProfile

/-- The checks of R106 on a profile record, with the ranges of R105 for its first 64 bytes. -/
def profileOk (r : Profile) : Bool :=
  (!r.valid && profileZero r) ||
  (!r.reservedSet && decide (1 ≤ r.layers) && decide (r.layers ≤ 256) && decide (1 ≤ r.kvHeads) && decide (r.kvHeads ≤ 64) &&
   decide (1 ≤ r.group) && decide (r.group ≤ 16) && decide (r.headDim ≤ 3) && decide (r.pagePos ≤ 2) && decide (r.kvFormat ≤ 3) &&
   decide (r.kvCodec ≤ 2) && decide (r.kvPlace ≤ 1) &&
   decide (1 ≤ r.maxPositions) && decide (r.maxPositions ≤ 1048576) && decide (r.window ≤ 1048576) &&
   (r.softcap == 0 || f32posNormal r.softcap) && decide (r.sinkRows ≤ 64) && decide (r.evictThreshold ≤ 65535) &&
   decide (r.evictDecay ≤ 65535) && decide (r.recentWindow ≤ 1048576) &&
   decide ((r.maxPositions + r.p - 1) / r.p * r.layers * r.kvHeads ≤ 16777216))

end Sys2Proof.Machine
end

