-- ==== Sys2Proof/Machine/Matcher.lean ====
section
/-! DEFINITION. Text out: the stop automaton and its matcher (R235 to R239), the vocabulary lookup (R195) and the detokeniser (R236). -/

namespace Sys2Proof.Machine

open Sys2Proof

/-- The non-empty prefixes of a byte string. -/
def prefixesOf (bs : List Byte) : List (List Byte) := (List.range bs.length).map (fun n => bs.take (n + 1))

/-- Byte strings in the order of a breadth-first walk: shorter first, then by bytes. -/
def pathLe (a b : List Byte) : Bool :=
  decide (a.length < b.length) || (a.length == b.length && decide (a.map BitVec.toNat ≤ b.map BitVec.toNat))

/-- Insert a path in order, once. -/
def insertPath (p : List Byte) : List (List Byte) → List (List Byte)
  | [] => [p]
  | q :: r => if p = q then q :: r else if pathLe p q then p :: q :: r else q :: insertPath p r

/-- The nodes of the stop automaton, by path, breadth first from the root (R237). -/
def compileStops (g : ParamImage) : List (List Byte) :=
  [] :: ((stopsOf g).flatMap (fun x => prefixesOf (stopBytes x))).foldl (fun l p => insertPath p l) []

/-- fail(n): the longest proper suffix of the path that is a node. -/
def failOf (nodes : List (List Byte)) : List Byte → List Byte
  | [] => []
  | _ :: r => if nodes.contains r then r else failOf nodes r

/-- out(n): the lowest string that ends at the node or at a node on its fail chain (R237). -/
def outOf (g : ParamImage) (path : List Byte) : Option Nat :=
  if path.isEmpty then none
  else (List.range g.stopCount).find? (fun k => match g.stops[k]? with
    | some x => (stopBytes x).isSuffixOf path && !(stopBytes x).isEmpty
    | none => false)

/-- The walk of stop_feed back along the fail links until a child has the byte; what is released (R237). -/
def stopBack (nodes : List (List Byte)) (b : Byte) : Nat → List Byte → List Byte × List Byte
  | 0, n => (n, [])
  | fuel + 1, n =>
    if n.isEmpty || nodes.contains (n ++ [b]) then (n, [])
    else
      let f := failOf nodes n
      let r := stopBack nodes b fuel f
      (r.1, n.take (n.length - f.length) ++ r.2)

/-- One byte through the matcher: the node after it, the bytes released, and the string it completes. -/
def stopFeed (g : ParamImage) (nodes : List (List Byte)) (node : List Byte) (b : Byte) : List Byte × List Byte × Option Nat :=
  let w := stopBack nodes b (node.length + 1) node
  if nodes.contains (w.1 ++ [b]) then
    let n := w.1 ++ [b]
    match outOf g n with
    | some k =>
      let len := match g.stops[k]? with | some x => (stopBytes x).length | none => 0
      ([], w.2 ++ (if g.stopInclude then n else n.take (n.length - len)), some k)
    | none => (n, w.2, none)
  else (w.1, w.2 ++ [b], none)

/-- Bytes with the offset of R237, through the matcher until a string completes. -/
def stopRun (g : ParamImage) (nodes : List (List Byte)) : List Byte → List (Byte × Nat) → List Byte × List Byte × Option (Nat × Nat)
  | node, [] => (node, [], none)
  | node, (b, off) :: r =>
    match stopFeed g nodes node b with
    | (_, out, some k) => ([], out, some (k, off + 1))
    | (n, out, none) =>
      let t := stopRun g nodes n r
      (t.1, out ++ t.2.1, t.2.2)

/-- The bytes of a token id by vocab_lookup (R195); none for an id with no slot. -/
def vocabLookup (t : TokImage) (x : Nat) : List Byte := (t.lookup x).getD []

/-- The bytes a unit passes on (R236): U+FFFD for an ill-formed subpart, but under BYTES. -/
def unitBytes (policy : Nat) : U8 → List Byte
  | .char c => u8Encode c
  | .bad bs => if policy = 1 then bs else [0xEF, 0xBF, 0xBD]

/-- What one emitted token does to the text out: the carry and matcher after it, the text released, the invalid subparts, and the stop
it completes with its cut offset. -/
structure TokenText where
  m : Matcher
  text : List Byte
  invalid : Nat
  stop : Option (Nat × Nat)
deriving DecidableEq, Repr

/-- One emitted token through the detokeniser and the matcher (R236, R237). -/
def feedToken (g : ParamImage) (nodes : List (List Byte)) (m : Matcher) (bytes : List Byte) : TokenText :=
  let d := u8Run m.dtUtf8 bytes 0
  let fed := d.1.flatMap (fun u => (unitBytes g.utf8Policy u.1).map (fun b => (b, u.2)))
  let r := stopRun g nodes m.node fed
  let bad (u : U8 × Nat) : Bool := match u.1 with | .bad _ => true | .char _ => false
  match r.2.2 with
  | some st =>
    ⟨{ m with dtUtf8 := (u8Run m.dtUtf8 (bytes.take st.2) 0).2, node := [], depth := 0 }, r.2.1,
      (d.1.filter (fun u => bad u && decide (u.2 < st.2))).length, some st⟩
  | none => ⟨{ m with dtUtf8 := d.2, node := r.1, depth := r.1.length }, r.2.1, (d.1.filter bad).length, none⟩

/-- The bytes the matcher holds are released (R239) and it returns to the root. -/
def releaseHeld (m : Matcher) : List Byte × Matcher := (m.node, { m with node := [], depth := 0 })

/-- A recompilation moves the held bytes into rel (R237). -/
def holdRel (m : Matcher) : Matcher := { m with rel := m.rel ++ m.node, node := [], depth := 0 }

end Sys2Proof.Machine
end

