-- ==== Sys2Proof/Machine/Session.lean ====
section
/-! DEFINITION. Sessions (R37 to R63): the table of R50, open, close, fork, resume, set, query, the active sequence table's entries
(R167), and the operations held pending (R51). -/

namespace Sys2Proof.Machine

open Sys2Proof

/-- An operation completes: the outstanding one it was held as, or itself. -/
def done (d : Hdr) (opcode : Nat) (st : Status) (result : List Nat) (writes : List (Nat × Payload)) (s : State) : State :=
  match opOf d.ring d.tag s with
  | some op => if op.opcode = opcode then endOp op st result writes s else complete d opcode st result writes s
  | none => complete d opcode st result writes s

/-! ### The table of R50 -/

/-- The outcome of R50. -/
inductive Verdict where
  | act
  | defer
  | queue
  | fail (st : Status)
deriving DecidableEq, Repr

def judgeInput (e : Dir) : Verdict :=
  match e.state with
  | .closed => .fail .sessionStale
  | .opened => .act
  | .runnable => .fail .sessionActive
  | .running => .fail .sessionActive
  | .waitingTool => .act
  | .parking => .fail .sessionNotResident
  | .parked => .fail .sessionNotResident
  | .reviving => .queue
  | .stopped => .act

def judgeResume (e : Dir) : Verdict := judgeInput e

def judgePark (e : Dir) : Verdict :=
  if e.state != .closed && e.streaming then .fail .sessionBusy
  else match e.state with
    | .closed => .fail .sessionStale
    | .opened => .act
    | .runnable => .act
    | .running => .defer
    | .waitingTool => .act
    | .parking => .fail .sessionState
    | .parked => .fail .sessionState
    | .reviving => .fail .sessionBusy
    | .stopped => .act

def judgeRevive (e : Dir) : Verdict :=
  match e.state with
  | .closed => .fail .sessionStale
  | .parking => .queue
  | .parked => .act
  | .opened => .fail .sessionState
  | .runnable => .fail .sessionState
  | .running => .fail .sessionState
  | .waitingTool => .fail .sessionState
  | .reviving => .fail .sessionState
  | .stopped => .fail .sessionState

def judgeFork (e : Dir) : Verdict :=
  if e.state != .closed && e.streaming then .fail .sessionBusy
  else match e.state with
    | .closed => .fail .sessionStale
    | .opened => .act
    | .runnable => .act
    | .running => .defer
    | .waitingTool => .act
    | .parking => .fail .sessionBusy
    | .parked => .fail .sessionNotResident
    | .reviving => .fail .sessionBusy
    | .stopped => .act

def judgeClose (e : Dir) : Verdict :=
  match e.state with
  | .closed => .fail .sessionStale
  | .running => .defer
  | .parking => .queue
  | .opened => .act
  | .runnable => .act
  | .waitingTool => .act
  | .parked => .act
  | .reviving => .act
  | .stopped => .act

/-! ### Operations held pending (R51) -/

/-- The header of a descriptor command. -/
def sessHdr : Instr → Option (Hdr × Nat)
  | .opSessionClose d _ => some (d, 0x11)
  | .opSessionPark d _ => some (d, 0x12)
  | .opSessionRevive d _ => some (d, 0x13)
  | .opSessionFork d _ => some (d, 0x14)
  | .opSessionResume d _ _ _ _ _ => some (d, 0x15)
  | .opSessionSet d _ _ _ _ _ _ _ => some (d, 0x16)
  | .opAttnPrefill d _ => some (d, 0x21)
  | .opKvAppend d _ => some (d, 0x20)
  | .opTextIn d _ => some (d, 0x30)
  | _ => none

/-- The operations a session holds pending. -/
def Chan.pendOf (c : Chan) (i : Nat) : List Instr := (tget i c.pend).getD []

/-- The directory's pending bits (R41) say which kinds are pending. -/
def pendBits (l : List Instr) (e : Dir) : Dir :=
  let has (k : Nat) : Bool := l.any (fun c => match sessHdr c with | some h => h.2 == k | none => false)
  { e with parkPend := has 0x12, closePend := has 0x11, forkPend := has 0x14, resumePend := has 0x15 }

def Chan.setPend (c : Chan) (i : Nat) (l : List Instr) : Chan :=
  let c := { c with pend := if l.isEmpty then tdel i c.pend else tset i l c.pend }
  c.modDir i (pendBits l)

/-- Hold an operation pending: one of each kind, a second one completes with ST_SESSION_BUSY and an area (R51). DESIGN CHOICE: two
operations are of one kind when they have one opcode (log entry 118). -/
def holdPending (cmd : Instr) (d : Hdr) (opcode ch i fn : Nat) (area : List Nat) (s : State) : State :=
  let l := (s.chan ch).pendOf i
  if l.any (fun c => match sessHdr c with | some h => h.2 == opcode | none => false) then done d opcode .sessionBusy area [] s
  else
    let s := s.modChan ch (fun c => c.setPend i (l ++ [cmd]))
    match opOf d.ring d.tag s with
    | some _ => s
    | none => addOp opcode d fn ch [] false (.pendingOp ch i) s

/-- Act on a verdict of R50, with the area of a completion that it ends in. -/
def onVerdictWith (area : List Nat) (v : Verdict) (cmd : Instr) (d : Hdr) (opcode ch i fn : Nat) (f : State → State) (s : State) : State :=
  match v with
  | .act => f s
  | .defer => holdPending cmd d opcode ch i fn area s
  | .queue => holdPending cmd d opcode ch i fn area s
  | .fail st => done d opcode st area [] s

/-- Act on a verdict of R50. -/
def onVerdict (v : Verdict) (cmd : Instr) (d : Hdr) (opcode ch i fn : Nat) (f : State → State) (s : State) : State :=
  onVerdictWith [] v cmd d opcode ch i fn f s

/-! ### The active sequence table and drafts -/

/-- The draft a session holds (R226). -/
def Chan.draftOf (c : Chan) (i : Nat) : Option Draft :=
  let e := c.dir i
  if e.asqValid then tget e.asqIndex c.drafts else none

/-- The pending count of R54 and R170. -/
def Chan.pendingOf (c : Chan) (i : Nat) : Nat :=
  (if (c.dir i).sampPend then 1 else 0) + (match c.draftOf i with | some d => d.entries.length | none => 0) + (c.queue i).words.length

/-- A held draft is dropped and its granule freed (R226). -/
def Chan.dropDraft (c : Chan) (i : Nat) : Chan :=
  match c.draftOf i with
  | some d => { (c.freeLoc ⟨1, d.granule⟩) with drafts := tdel (c.dir i).asqIndex c.drafts }
  | none => c

/-- A session enters the active sequence table at its lowest free entry; none when the table is full. -/
def Chan.enterAsq (c : Chan) (h : Handle) (now : Nat) : Option Chan :=
  match firstFree (c.asq.map (·.1)) 0 (c.asq.length + 1) with
  | none => none
  | some k =>
    if 8192 ≤ k then none
    else
      let e := c.dir h.index
      let a : Asq := ⟨h, now, if e.deadline = 0 then none else some (now + e.deadline), 1, 0, false⟩
      some { (c.setDir h.index { e with asqIndex := k, asqValid := true }) with asq := tset k a c.asq }

/-- A session leaves the table and frees its entry; its draft is dropped. -/
def Chan.leaveAsq (c : Chan) (i : Nat) : Chan :=
  let e := c.dir i
  if e.asqValid then
    let c := c.dropDraft i
    { (c.setDir i { e with asqIndex := 0, asqValid := false }) with asq := tdel e.asqIndex c.asq }
  else c

/-- The session's table entry. -/
def Chan.asqOf (c : Chan) (i : Nat) : Option Asq :=
  let e := c.dir i
  if e.asqValid then tget e.asqIndex c.asq else none

/-- The session becomes RUNNABLE again: a new release and absolute deadline (R167). -/
def Chan.rerelease (c : Chan) (i now : Nat) : Chan :=
  let e := c.dir i
  if e.asqValid then
    { c with asq := tmod e.asqIndex (fun a => { a with release := now, state := 1,
                                                       absDeadline := if e.deadline = 0 then none else some (now + e.deadline) }) c.asq }
  else c

/-! ### Slots bound by sessions (R200, R231) -/

def Chan.bindSlots (c : Chan) (e : Dir) : Chan :=
  let c := { c with toks := tmod e.tokenizer (fun t => { t with sessions := t.sessions + 1 }) c.toks }
  if e.grammarEn then { c with grams := tmod e.grammarSlot (fun t => { t with sessions := t.sessions + 1 }) c.grams } else c

def Chan.unbindSlots (c : Chan) (e : Dir) : Chan :=
  let c := { c with toks := tmod e.tokenizer (fun t => { t with sessions := t.sessions - 1 }) c.toks }
  if e.grammarEn then { c with grams := tmod e.grammarSlot (fun t => { t with sessions := t.sessions - 1 }) c.grams } else c

/-! ### Open (R57, R42) -/

/-- The lowest-numbered entry that is CLOSED and not retired (R42). -/
def Chan.freeEntry (c : Chan) : Option Nat :=
  let used := (c.dirs.map (·.1)).filter (fun i => (c.dir i).state != .closed || decide (4294967295 ≤ (c.dir i).count))
  match firstFree used 0 (used.length + 1) with
  | some i => if i < 131072 then some i else none
  | none => none

/-- The fields of a directory entry that the parameter image sets (R41, R46). -/
def Dir.withImage (e : Dir) (g : ParamImage) : Dir :=
  { e with evictEn := g.evictEn, pin := g.pin, utf8Policy := g.utf8Policy, stackMode := g.stackMode, parkTier := g.parkTier }

/-- A new session block: the image, the start state, the compiled automaton, and everything else zero (R57). -/
def newSblk (g : ParamImage) : SBlk := { img := g, curState := g.startState, automaton := compileStops g }

/-- Allocate a session block and a root run under a placement code, or neither. -/
def Chan.takeBlock (c : Chan) (w : Wm) (code : Nat) : Option (Loc × Loc) × Chan :=
  match c.takePlaced w code 1 with
  | (none, f) => (none, c.withFails f)
  | (some b, c') =>
    match c'.takePlaced w code 1 with
    | (none, f) => (none, c.withFails f)
    | (some r, c'') => (some (b, r), c'')

/-- The checks of R57 in their order, up to the table and the space; none when the OPEN passes them. -/
def openCheck (ch fn owner profile tokenizer grammarSlot : Nat) (grammarEn : Bool) (addr len : Nat) (g : ParamImage) (s : State) :
    Option Status :=
  let c := s.chan ch
  if owner ≠ fn ∧ fn ≠ 0 then some .notPermitted
  else if s.mgmt.congested then some .mgmtBusy
  else
    match imageBuffer fn addr len s with
    | some st => some st
    | none =>
      if !(c.prof profile).valid then some .paramInvalid
      else if (c.tokImage tokenizer).isNone then some .paramInvalid
      else if !imageOk g c owner tokenizer grammarSlot grammarEn s then some .paramInvalid
      else if c.freeEntry.isNone then some .sessionTableFull
      else none

/-- The directory entry of a new session (R57). -/
def openDir (c : Chan) (i owner profile tokenizer grammarSlot : Nat) (grammarEn : Bool) (g : ParamImage) : Dir :=
  Dir.withImage { epoch := c.epoch, count := (c.dir i).count, state := .opened, owner := owner, profile := profile
                  tokenizer := tokenizer, grammarSlot := grammarSlot, grammarEn := grammarEn } g

/-- The session an OPEN creates at an entry, with its block and root run (R57). -/
def openSession (i owner profile tokenizer grammarSlot : Nat) (grammarEn : Bool) (g : ParamImage) (b r : Loc) (c : Chan) : Chan :=
  let e := openDir c i owner profile tokenizer grammarSlot grammarEn g
  let c := (c.setDir i { e with sblk := b, pmap := r }).setSblk i (newSblk g)
  let c := c.setCapture i { c.capture i with isNew := true, changed := true, forkedFrom := none }
  c.bindSlots e

/-- OP_SESSION_OPEN (R57). -/
def execOpSessionOpen (d : Hdr) (owner profile tokenizer grammarSlot : Nat) (grammarEn : Bool) (addr len : Nat) (img : ParamImage) :
    State → Host.Outcome State Fault Refusal :=
  accept 0x10 d (fun fn ch s =>
    match openCheck ch fn owner profile tokenizer grammarSlot grammarEn addr len img s with
    | some st => complete d 0x10 st [] [] s
    | none => withEntry 0x10 d (fun s =>
        let c := s.chan ch
        match c.freeEntry with
        | none => complete d 0x10 .sessionTableFull [] [] s
        | some i =>
          let code := (if img.pin then 2 else 0) + (c.prof profile).kvPlace
          match c.takeBlock (wmOf ch s) code with
          | (none, c) => complete d 0x10 .noSpace [] [] (s.setChan ch c)
          | (some (b, r), c) =>
            let s := s.setChan ch (openSession i owner profile tokenizer grammarSlot grammarEn img b r c)
            complete d 0x10 .ok [handleWord (handleOf ch i s)] [] s) s)

/-! ### Close (R58) -/

/-- Free what a resident session holds: pages, map, block, queue (R58, R206). -/
def Chan.freeSession (c : Chan) (i : Nat) : Chan :=
  let e := c.dir i
  let c := (c.descsOf i).foldl (fun c d => c.endRef i d) c
  let c := (c.leavesOf i).foldl (fun c l => c.freeLoc l.2) c
  let c := if (tget i c.parkRuns).isSome then c else (c.queue i).granules.foldl (fun c l => c.freeOf i l) c
  let c := ((tget i c.parkRuns).getD []).foldl (fun c r => c.freeLoc r.1) c
  let c : Chan := match (tget i c.parkedMaps) with
    | some m => m.foldl (fun (c : Chan) (x : Nat × ParkedEntry) =>
        if !x.2.valid then c else if x.2.kept then c.unshare x.2.desc else c.freeLoc x.2.image.loc) c
    | none => c
  let c : Chan := match tget i c.moves with
    | some m => m.runs.foldl (fun (c : Chan) r => c.freeLoc r.1) (m.plan.foldl (fun (c : Chan) r => c.freeLoc r.2.1) c)
    | none => c
  let c := if (tget i c.parkRuns).isSome then c else (c.freeLoc e.sblk).freeLoc e.pmap
  { c with maps := tdel i c.maps, leaves := tdel i c.leaves, queues := tdel i c.queues, parkRuns := tdel i c.parkRuns
           parkedMaps := tdel i c.parkedMaps, sblks := tdel i c.sblks, chunks := tdel i c.chunks, moves := tdel i c.moves }

/-- The session is CLOSED and its count raised (R58, R39). -/
def Chan.closeSession (c : Chan) (i : Nat) : Chan :=
  let c := c.touch i none
  let c := c.leaveAsq i
  let e := c.dir i
  let c := (c.unbindSlots e).freeSession i
  let x := c.capture i
  let c := c.setCapture i { x with closedSince := true, sentLen := if x.cbw.isSome then x.sentLen else 0 }
  let c := { c with mirror := { c.mirror with captures := c.mirror.captures.map (fun (y : Nat × Capture) =>
    if y.2.forkedFrom = some i then (y.1, { y.2 with forkedFrom := none, sentLen := 0 }) else y) } }
  c.setDir i { count := e.count + 1, epoch := e.epoch }

/-- The outstanding revive of a session. -/
def reviveOp (ch i : Nat) (s : State) : Option RunOp := s.ops.find? (fun o => o.kind == .revive ch i)

/-- End every pending operation of a session with one status (R50). -/
def endPending (ch i : Nat) (st : Status) (s : State) : State :=
  let l := (s.chan ch).pendOf i
  let s := s.modChan ch (fun c => c.setPend i [])
  l.foldl (fun s c => match sessHdr c with | some h => done h.1 h.2 st [] [] s | none => s) s

/-- A CLOSE takes effect: a revive and what is queued end with ST_SESSION_STALE first (R50, R58). -/
def closeNow (d : Hdr) (ch i : Nat) (s : State) : State :=
  let e := (s.chan ch).dir i
  let s := if e.state = .reviving ∨ e.streaming then
      let s := match reviveOp ch i s with
        | some op => endOp op .sessionStale [] [] s
        | none => s
      endPending ch i .sessionStale s
    else s
  let mine (k : ReqKind) : Bool := match k with | .revive c j _ => c == ch && j == i | _ => false
  let s := { s with reqs := s.reqs.map (fun (r : Request) => if mine r.kind then { r with kind := .stale } else r)
                    reqWait := s.reqWait.filter (fun w => !mine w.1.kind) }
  done d 0x11 .ok [] [] (s.modChan ch (fun c => c.closeSession i))

/-- A CLOSE as R50 judges it. -/
def sessClose (cmd : Instr) (d : Hdr) (h : Handle) (ch fn : Nat) (s : State) : State :=
  onVerdict (judgeClose ((s.chan ch).dir h.index)) cmd d 0x11 ch h.index fn (closeNow d ch h.index) s

/-- A session operation after the handle check of R38. -/
def onSession (opcode : Nat) (d : Hdr) (h : Handle) (f : Nat → Nat → State → State) : State → Host.Outcome State Fault Refusal :=
  accept opcode d (fun fn ch s =>
    match checkHandle h ch fn s with
    | some st => complete d opcode st [] [] s
    | none => f fn ch s)

/-- OP_SESSION_CLOSE (R58). -/
def execOpSessionClose (d : Hdr) (h : Handle) : State → Host.Outcome State Fault Refusal :=
  onSession 0x11 d h (fun fn ch s => sessClose (.opSessionClose d h) d h ch fn s)

/-! ### Fork (R60, R61) -/

/-- Granules a queue of n words takes from slot 0 on (R206). -/
def queueGranules (n : Nat) : Nat := ceilDiv n 4094

/-- A queue of words in new granules (R206). -/
def newQueue (ws : List Nat) (ls : List Loc) : InQueue :=
  { words := ws, granules := ls, headSlot := 0, tailSlot := if ws.isEmpty then 0 else ws.length - (ls.length - 1) * 4094 }

/-- The child of a fork at entry j, its space taken (R60): `b`, `r` its block and root run, `ls` its leaves, `qs` its queue's
granules. -/
def forkChild (c : Chan) (i j fn : Nat) (b r : Loc) (ls : Tbl Loc) (qs : List Loc) : Chan :=
  let p := c.dir i
  let e : Dir := { p with epoch := c.epoch, count := (c.dir j).count, state := .opened, savedState := .closed, parkPend := false
                          closePend := false, forkPend := false, resumePend := false, streaming := false, owner := fn
                          lastStep := 0, sblk := b, pmap := r, toolTag := 0, deadline := 0, asqIndex := 0, asqValid := false }
  let c := (c.descsOf i).foldl (fun c d => { c with shares := tset d (c.share d + 1) c.shares }) c
  let c := c.setDir j e
  let c := c.setMap j (c.map i)
  let c := { c with leaves := tset j ls c.leaves }
  let c := match c.sblk i with | some x => c.setSblk j x | none => c
  let c := if (c.queue i).words.isEmpty then c else c.setQueue j (newQueue (c.queue i).words qs)
  let c := c.setCapture j { c.capture j with isNew := true, changed := true, forkedFrom := some i, sentLen := (c.capture i).sentLen }
  c.bindSlots e

/-- Space for a child: block and root, leaves, queue granules; all or none (R61). -/
def forkSpace (c : Chan) (w : Wm) (i : Nat) : Option (Loc × Loc × Tbl Loc × List Loc) × Chan :=
  let code := c.placement i
  match c.takeBlock w code with
  | (none, f) => (none, c.withFails f)
  | (some (b, r), c1) =>
    match c1.takeMany w code 0 (c.leavesOf i).length with
    | (none, f) => (none, c.withFails f)
    | (some ls, c2) =>
      match c2.takeMany w code 0 (queueGranules (c.queue i).words.length) with
      | (none, f) => (none, c.withFails f)
      | (some qs, c3) => (some (b, r, List.zipWith (fun x l => (x.1, l)) (c.leavesOf i) ls, qs), c3)

/-- A FORK takes effect (R60, R61). DESIGN CHOICE: of two failures of R61 that both hold, a full table comes first, then ST_FORK_LIMIT, then
ST_NO_SPACE (log entry 119). -/
def forkNow (d : Hdr) (ch i fn : Nat) (s : State) : State :=
  let c := s.chan ch
  if (tget i c.chunks).isSome then done d 0x14 .prefillOpen [] [] s
  else if !(c.prof (c.dir i).profile).valid then done d 0x14 .paramInvalid [] [] s
  else
    match c.freeEntry with
    | none => done d 0x14 .sessionTableFull [] [] s
    | some j =>
      if (c.descsOf i).any (fun x => decide (65535 ≤ c.share x)) then done d 0x14 .forkLimit [] [] s
      else
        match forkSpace c (wmOf ch s) i with
        | (none, c) => done d 0x14 .noSpace [] [] (s.setChan ch c)
        | (some (b, r, ls, qs), c) =>
          let s := s.setChan ch (forkChild (c.dropDraft i) i j fn b r ls qs)
          done d 0x14 .ok [handleWord (handleOf ch j s)] [] s

/-- A FORK as R50 judges it. -/
def sessFork (cmd : Instr) (d : Hdr) (h : Handle) (ch fn : Nat) (s : State) : State :=
  onVerdict (judgeFork ((s.chan ch).dir h.index)) cmd d 0x14 ch h.index fn (forkNow d ch h.index fn) s

/-- OP_SESSION_FORK (R60). -/
def execOpSessionFork (d : Hdr) (h : Handle) : State → Host.Outcome State Fault Refusal :=
  onSession 0x14 d h (fun fn ch s => sessFork (.opSessionFork d h) d h ch fn s)

/-! ### Resume (R55, R56) -/

/-- The history entry of a position (R45). -/
def SBlk.hist (b : SBlk) (pos : Nat) : Option HistTok := tget (pos % 4096) b.history

def SBlk.setHist (b : SBlk) (pos : Nat) (t : HistTok) : SBlk := { b with history := tset (pos % 4096) t b.history }

/-- The CUT token at RESUME (R56): fed, it becomes the pending sampled token and its cut bit is cleared; else it keeps its bit. In
both cases cut_pending is cleared. -/
def resumeCut (feed : Bool) (e : Dir) (b : SBlk) : Dir × SBlk :=
  if b.cutPending && feed then
    let b' := match b.hist e.kvLen with
      | some t => b.setHist e.kvLen { t with cut := false }
      | none => b
    ({ e with sampPend := true }, { b' with cutPending := false })
  else (e, { b with cutPending := false })

/-- The bytes held at a LIMIT stop are kept when the input queue is empty and released otherwise (R239). -/
def resumeHeld (queueEmpty : Bool) (b : SBlk) : SBlk :=
  if queueEmpty then b else { b with matcher := holdRel b.matcher }

/-- A RESUME with gen_limit 0: STOPPED with reason 4, without a step (R56). -/
def resumeZero (i : Nat) (c : Chan) : Chan :=
  let c := c.touch i none
  let c := match c.sblk i with | some b => c.setSblk i { b with stopReason := 4, stopIndex := 0 } | none => c
  c.modDir i (fun e => { e with state := .stopped, toolTag := 0 })

/-- The session of an accepted RESUME (R56, R168): RUNNABLE with a new limit, in the table. -/
def resumeRun (ch i limit deadline : Nat) (feed : Bool) (s : State) : Option State :=
  let c := (s.chan ch).touch i none
  match c.sblk i with
  | none => none
  | some b =>
    let r := resumeCut feed (c.dir i) (resumeHeld (c.queue i).words.isEmpty b)
    let b := { r.2 with genLimitRun := limit, genCount := 0 }
    let c := (c.setSblk i b).setDir i { r.1 with state := .runnable, toolTag := 0, deadline := deadline }
    (c.enterAsq (handleOf ch i s) s.now).map (fun c => s.setChan ch c)

/-- A RESUME that R50 accepts (R55, R56). -/
def resumeNow (d : Hdr) (ch i toolTag genLimit : Nat) (feed useDefault : Bool) (s : State) : State :=
  let c := s.chan ch
  let e := c.dir i
  let limit := if useDefault then (match c.sblk i with | some b => b.img.genLimit | none => 0) else genLimit
  if (tget i c.chunks).isSome then done d 0x15 .prefillOpen [] [] s
  else if e.state = .waitingTool ∧ toolTag ≠ e.toolTag then done d 0x15 .toolTagMismatch [] [] s
  else if limit = 0 then done d 0x15 .ok [] [] (s.modChan ch (resumeZero i))
  else if e.kvLen = 0 ∧ c.pendingOf i = 0 then done d 0x15 .sessionEmpty [] [] s
  else if 8192 ≤ c.asq.length then done d 0x15 .activeTableFull [] [] s
  else
    match resumeRun ch i limit d.deadline feed s with
    | some s => done d 0x15 .ok [] [] s
    | none => done d 0x15 .activeTableFull [] [] s

/-- A RESUME as R50 judges it. -/
def sessResume (cmd : Instr) (d : Hdr) (h : Handle) (toolTag genLimit : Nat) (feed useDefault : Bool) (ch fn : Nat) (s : State) : State :=
  onVerdict (judgeResume ((s.chan ch).dir h.index)) cmd d 0x15 ch h.index fn (resumeNow d ch h.index toolTag genLimit feed useDefault) s

/-- OP_SESSION_RESUME (R56). -/
def execOpSessionResume (d : Hdr) (h : Handle) (toolTag genLimit : Nat) (feedCut useDefault : Bool) :
    State → Host.Outcome State Fault Refusal :=
  onSession 0x15 d h (fun fn ch s => sessResume (.opSessionResume d h toolTag genLimit feedCut useDefault) d h toolTag genLimit
    feedCut useDefault ch fn s)

/-! ### Set (R46, R57, R89, R232, R237) -/

/-- The block after a SET: the image replaced, the held bytes moved to rel, the automaton recompiled, cur_state restarted where R232
asks. The device-written fields stay. -/
def setSblkImage (b : SBlk) (g : ParamImage) (slotChanged : Bool) : SBlk :=
  { b with img := { g with restart := g.restart }
           matcher := holdRel b.matcher
           automaton := compileStops g
           curState := if g.restart || slotChanged || g.startState != b.img.startState then g.startState else b.curState }

/-- The pin of a session's unshared pages follows the session's (R89). -/
def Chan.repin (c : Chan) (i : Nat) (pin : Bool) : Chan :=
  (c.descsOf i).foldl (fun c d => if c.share d ≤ 1 then c.modPage d (fun p => { p with pin := pin }) else c) c

/-- A SET takes effect on a session (R46). -/
def setSession (i : Nat) (g : ParamImage) (rebind : Bool) (grammarSlot : Nat) (grammarEn : Bool) (c : Chan) : Chan :=
  let c := c.touch i none
  let e := c.dir i
  let gs := if rebind then grammarSlot else e.grammarSlot
  let ge := if rebind then grammarEn else e.grammarEn
  let c := match c.sblk i with
    | some b => c.setSblk i (setSblkImage b g (gs != e.grammarSlot))
    | none => c
  let c := if rebind then
      let c := if e.grammarEn then { c with grams := tmod e.grammarSlot (fun t => { t with sessions := t.sessions - 1 }) c.grams } else c
      if ge then { c with grams := tmod gs (fun t => { t with sessions := t.sessions + 1 }) c.grams } else c
    else c
  let c := if e.pin != g.pin then c.repin i g.pin else c
  c.setDir i ({ e with grammarSlot := gs, grammarEn := ge }.withImage g)

/-- A SET that R50 accepts: its image is checked again against the owner's buffers and the slots. -/
def setNow (d : Hdr) (ch i : Nat) (g : ParamImage) (rebind : Bool) (grammarSlot : Nat) (grammarEn : Bool) (s : State) : State :=
  let c := s.chan ch
  let e := c.dir i
  let gs := if rebind then grammarSlot else e.grammarSlot
  let ge := if rebind then grammarEn else e.grammarEn
  if !imageOk g c e.owner e.tokenizer gs ge s then done d 0x16 .paramInvalid [] [] s
  else done d 0x16 .ok [] [] (s.modChan ch (setSession i g rebind grammarSlot grammarEn))

/-- A SET as R50 judges it (the Input column). -/
def sessSet (cmd : Instr) (d : Hdr) (h : Handle) (g : ParamImage) (rebind : Bool) (grammarSlot : Nat) (grammarEn : Bool) (ch fn : Nat)
    (s : State) : State :=
  onVerdict (judgeInput ((s.chan ch).dir h.index)) cmd d 0x16 ch h.index fn (setNow d ch h.index g rebind grammarSlot grammarEn) s

/-- OP_SESSION_SET (R46, R57): items 3 to 5 and 8 of R57 after the handle checks. -/
def execOpSessionSet (d : Hdr) (h : Handle) (addr len : Nat) (img : ParamImage) (rebind : Bool) (grammarSlot : Nat) (grammarEn : Bool) :
    State → Host.Outcome State Fault Refusal :=
  onSession 0x16 d h (fun fn ch s =>
    match imageBuffer fn addr len s with
    | some st => complete d 0x16 st [] [] s
    | none => withEntry 0x16 d (fun s =>
        let e := (s.chan ch).dir h.index
        let gs := if rebind then grammarSlot else e.grammarSlot
        let ge := if rebind then grammarEn else e.grammarEn
        if !imageOk img (s.chan ch) e.owner e.tokenizer gs ge s then complete d 0x16 .paramInvalid [] [] s
        else sessSet (.opSessionSet d h addr len img rebind grammarSlot grammarEn) d h img rebind grammarSlot grammarEn ch fn s) s)

/-! ### Query (R392) -/

/-- The eight words of a directory entry (R41). -/
def dirWords (e : Dir) : List Nat :=
  let b (x : Bool) (k : Nat) : Nat := if x then 2 ^ k else 0
  [e.count + e.epoch * 2 ^ 32 + sessCode e.state * 2 ^ 38 + sessCode e.savedState * 2 ^ 42 + b e.parkPend 46 + b e.closePend 47
     + b e.forkPend 48 + b e.resumePend 49 + b e.streaming 50 + b e.evictEn 51 + b e.pin 52 + e.owner * 2 ^ 56,
   e.profile + e.tokenizer * 2 ^ 6 + e.grammarSlot * 2 ^ 10 + b e.grammarEn 16 + e.utf8Policy * 2 ^ 17 + e.stackMode * 2 ^ 19
     + e.parkTier * 2 ^ 21 + e.kvLen * 2 ^ 32,
   e.lastStep, locWord e.sblk, locWord e.pmap, e.pages + e.toolTag % 2 ^ 32 * 2 ^ 32, e.deadline,
   e.asqIndex + b e.asqValid 13 + b e.sampPend 14 + e.histHead * 2 ^ 16 + e.histCount * 2 ^ 28 + e.toolTag / 2 ^ 32 * 2 ^ 41]

/-- Layers of a session whose pages the next step reads that are all resident (R167): counted from layer 0. -/
def Chan.readyLayers (c : Chan) (i : Nat) : Nat :=
  let x := c.prof (c.dir i).profile
  let bad := (c.map i).filter (fun m => m.2.valid && x.stepReads (c.dir i).kvLen m.1 && !((c.page m.2.desc).residency == .resident
    || (c.page m.2.desc).residency == .moving || (c.page m.2.desc).residency == .spilling))
  let missing := match tget i c.moves with | some m => ((m.todo ++ m.inFlight.toList).filter (x.stepReads (c.dir i).kvLen)).map (fun e => x.layerOf e) | none => []
  (List.range x.layers).countP (fun l => !(bad.any (fun m => x.layerOf m.1 == l)) && !missing.contains l)

/-- The four words of an active sequence table entry (R167), or zeros. -/
def asqWords (c : Chan) (i : Nat) : List Nat :=
  match c.asqOf i with
  | none => [0, 0, 0, 0]
  | some a =>
    let b (x : Bool) (k : Nat) : Nat := if x then 2 ^ k else 0
    [handleWord a.handle, a.release, a.absDeadline.getD 0xFFFFFFFFFFFFFFFF,
     satTo 4294967295 (c.pendingOf i) + (a.state + b (c.dir i).streaming 2 + a.driver * 8 + b a.driverValid 6) * 2 ^ 32
       + c.readyLayers i * 2 ^ 48]

/-- The sixteen words OP_SESSION_QUERY writes (R392). -/
def queryWords (c : Chan) (i : Nat) : List Nat :=
  dirWords (c.dir i) ++ asqWords c i ++ [(c.queue i).words.length, 0, 0, 0]

/-- OP_SESSION_QUERY (R392). -/
def execOpSessionQuery (d : Hdr) (h : Handle) (addr : Nat) : State → Host.Outcome State Fault Refusal :=
  onSession 0x17 d h (fun fn ch s =>
    match rangeCheck fn addr 128 s with
    | some st => complete d 0x17 st [] [] s
    | none => complete d 0x17 .ok [] [(addr, .words (queryWords (s.chan ch) h.index))] s)

end Sys2Proof.Machine
end

