-- ==== Sys2Proof/Machine/Text.lean ====
section
/-! DEFINITION. Prism, text in (R201 to R213): decoding under a policy, normalisation, pre-split, the trie walk, the input queue, and
OP_TEXT_IN. -/

namespace Sys2Proof.Machine

open Sys2Proof

/-! ### The tables of an image -/

/-- Full decomposition of a code point: arithmetic for Hangul syllables, else the table (R209). -/
def decomposeCp (t : TokImage) (c : Nat) : List Nat :=
  if 0xAC00 ≤ c ∧ c < 0xAC00 + 11172 then
    let i := c - 0xAC00
    let tail := i % 28
    [0x1100 + i / 588, 0x1161 + i % 588 / 28] ++ (if tail = 0 then [] else [0x11A7 + tail])
  else
    if fieldOf (t.classEntry c) 14 1 = 1 then (t.decompose c).getD [c] else [c]

/-- Insert into a run kept in canonical order: after every mark of no greater class (R209). -/
def insertMark (t : TokImage) (c : Nat) : List Nat → List Nat
  | [] => [c]
  | x :: r =>
    let k := t.ccc c
    if k < t.ccc x then c :: x :: r else x :: insertMark t c r

/-- Canonical ordering: each run of code points with ccc above 0 sorted by ccc, stable. -/
def reorderMarks (t : TokImage) : List Nat → List Nat → List Nat
  | run, [] => run
  | run, c :: r =>
    if t.ccc c = 0 then run ++ c :: reorderMarks t [] r else reorderMarks t (insertMark t c run) r

/-- The composite of a pair: arithmetic for Hangul, else the table (R194, R209). -/
def composePair (t : TokImage) (a b : Nat) : Option Nat :=
  if 0x1100 ≤ a ∧ a < 0x1113 ∧ 0x1161 ≤ b ∧ b < 0x1176 then some (0xAC00 + ((a - 0x1100) * 21 + (b - 0x1161)) * 28)
  else if 0xAC00 ≤ a ∧ a < 0xAC00 + 11172 ∧ (a - 0xAC00) % 28 = 0 ∧ 0x11A7 < b ∧ b < 0x11C3 then some (a + (b - 0x11A7))
  else t.compose a b

/-- Canonical composition with the blocking rule: `st` the last starter, `mid` the marks kept after it (R209). -/
def composeRun (t : TokImage) : Option Nat → List Nat → List Nat → List Nat
  | st, mid, [] => (match st with | some s => [s] | none => []) ++ mid
  | st, mid, c :: r =>
    let k := t.ccc c
    let open_ := match mid.getLast? with | none => true | some m => decide (t.ccc m < k)
    let pair := match st with | some s => if open_ then composePair t s c else none | none => none
    match pair with
    | some x => composeRun t (some x) mid r
    | none =>
      if k = 0 then (match st with | some s => [s] | none => []) ++ mid ++ composeRun t (some c) [] r
      else composeRun t st (mid ++ [c]) r

/-- The normal form of a pending sequence (R209, R210). -/
def normalise (t : TokImage) (cs : List Nat) : List Nat :=
  composeRun t none [] (reorderMarks t [] (cs.flatMap (decomposeCp t)))

/-- A boundary: ccc 0 and qc Yes (R210). -/
def isBoundary (t : TokImage) (c : Nat) : Bool := t.ccc c == 0 && t.qc c == 0

/-! ### Pieces (R211, R212) -/

/-- The text-in stages while they run: the carry, the tokens produced in order, the flushes of R210 counted. -/
structure TextRun where
  carry : Carry
  toks : List Nat
  flushes : Nat
deriving DecidableEq, Repr

/-- emit_one of R212: the tokens and the piece left. -/
def emitOne (t : TokImage) (piece : List Byte) : List Nat × List Byte :=
  match t.walk piece 0 0 none with
  | some (n, tok) => ([tok], piece.drop n)
  | none =>
    match piece with
    | [] => ([], [])
    | b :: _ =>
      let n := if u8Len b = 0 then 1 else u8Len b
      (if t.byteFallback then (piece.take n).map (fun x => t.byteBase + x.toNat) else [t.unkId], piece.drop n)

/-- Emit until fewer than `lim` bytes are left. -/
def emitWhile (t : TokImage) (lim : Nat) : Nat → List Byte → List Nat × List Byte
  | 0, p => ([], p)
  | n + 1, p =>
    if p.length < lim then ([], p)
    else
      let e := emitOne t p
      let r := emitWhile t lim n e.2
      (e.1 ++ r.1, r.2)

/-- piece_close of R212. -/
def pieceClose (t : TokImage) (x : TextRun) : TextRun :=
  let e := emitWhile t 1 x.carry.piece.length x.carry.piece
  { x with carry := { x.carry with piece := e.2, pieceOpen := false }, toks := x.toks ++ e.1 }

/-- The action of R211 for the classes of the last code point and the next. -/
def splitAction (t : TokImage) (a b runLen : Nat) : Nat :=
  let m := t.maxRun a
  if a = b ∧ m ≠ 0 ∧ m ≤ runLen then 1 else t.action a b

/-- Where the last code point of the piece begins. -/
def lastCpStart (p : List Byte) : Nat := p.length - 1 - (p.reverse.takeWhile u8Cont).length

/-- split_push of R212: SPLIT_LAST takes the last code point out whatever is left before it in the carry; for a piece of one code point
that is JOIN (R211), whose run is 1 already. -/
def splitPush (t : TokImage) (x : TextRun) (c : Nat) : TextRun :=
  let k := t.cls c
  let act := if x.carry.pieceOpen then splitAction t x.carry.prevClass k x.carry.runLen else 0
  let x :=
    if act = 1 then pieceClose t x
    else if act = 2 then
      let n := lastCpStart x.carry.piece
      let last := x.carry.piece.drop n
      let y := pieceClose t { x with carry := { x.carry with piece := x.carry.piece.take n } }
      { y with carry := { y.carry with piece := last, pieceOpen := true, runLen := 1 } }
    else x
  let run := if !x.carry.pieceOpen || k != x.carry.prevClass then 0 else x.carry.runLen
  let p := x.carry.piece ++ u8Encode c
  let e := emitWhile t 64 p.length p
  { x with carry := { x.carry with piece := e.2, pieceOpen := true, prevClass := k, runLen := satTo 255 (run + 1) }
           toks := x.toks ++ e.1 }

/-- norm_flush of R210. -/
def normFlush (t : TokImage) (x : TextRun) : TextRun :=
  let y := (normalise t x.carry.pend).foldl (splitPush t) x
  { y with carry := { y.carry with pend := [] } }

/-- norm_push of R210. -/
def normPush (t : TokImage) (x : TextRun) (c : Nat) : TextRun :=
  if t.form = 0 then splitPush t x c
  else
    let x := if isBoundary t c && !x.carry.pend.isEmpty then normFlush t x else x
    let x := if x.carry.pend.length = 32 then
        let y := x.carry.pend.foldl (splitPush t) x
        { y with carry := { y.carry with pend := [] }, flushes := y.flushes + 1 }
      else x
    { x with carry := { x.carry with pend := x.carry.pend ++ [c] } }

/-- The end of the input: norm_flush, then piece_close (R210, R212). -/
def textEnd (t : TokImage) (x : TextRun) : TextRun :=
  let x := if x.carry.pend.isEmpty then x else normFlush t x
  pieceClose t x

/-- One ill-formed subpart under REPLACE or BYTES (R208). -/
def badSubpart (t : TokImage) (policy : Nat) (bs : List Byte) (x : TextRun) : TextRun :=
  if policy = 1 then
    let x := if x.carry.pend.isEmpty then x else normFlush t x
    let x := pieceClose t x
    { x with toks := x.toks ++ bs.map (fun b => t.byteBase + b.toNat) }
  else normPush t x 0xFFFD

/-- What an OP_TEXT_IN computes before anything is stored. -/
structure TextOutcome where
  run : TextRun
  invalid : Nat
  rejected : Option Int
deriving DecidableEq, Repr

/-- The units of the input through the stages; REJECT ends at the first ill-formed subpart (R208). -/
def textUnits (t : TokImage) (policy : Nat) : List (U8 × Int) → TextOutcome → TextOutcome
  | [], o => o
  | (.char c, _) :: r, o => textUnits t policy r { o with run := normPush t o.run c }
  | (.bad bs, off) :: r, o =>
    if policy = 2 then { o with invalid := o.invalid + 1, rejected := some off }
    else textUnits t policy r { o with run := badSubpart t policy bs o.run, invalid := o.invalid + 1 }

/-- The whole of an input buffer (R207 to R212). -/
def textRun (t : TokImage) (policy : Nat) (carry : Carry) (text : List Byte) (last : Bool) : TextOutcome :=
  let d := u8Run carry.utf8 text 0
  let units := d.1.map (·.1) ++ (if last && !d.2.isEmpty then [.bad d.2] else [])
  let offs := u8Offsets units (-(carry.utf8.length : Int))
  let o := textUnits t policy offs ⟨⟨{ carry with utf8 := if last then [] else d.2, inCount := wrap64 (carry.inCount + text.length) }, [], 0⟩,
    0, none⟩
  match o.rejected with
  | some _ => o
  | none => if last then { o with run := textEnd t o.run } else o

/-- The held word of R204. -/
def heldWord (c : Carry) : Nat := c.utf8.length + c.pend.length * 4 + c.piece.length * 256

/-! ### The input queue (R206) -/

/-- Granules a queue has to have for its slots from head_slot on. -/
def queueNeed (q : InQueue) (n : Nat) : Nat := ceilDiv (q.headSlot + q.words.length + n) 4094

/-- A queue with words joined at its tail, in granules that now suffice. -/
def InQueue.join (q : InQueue) (ws : List Nat) (ls : List Loc) : InQueue :=
  let words := q.words ++ ws
  let gs := q.granules ++ ls
  { q with words := words, granules := gs
           tailSlot := if words.isEmpty then 0 else q.headSlot + words.length - (gs.length - 1) * 4094 }

/-- A queue after its first t words are taken; a granule is freed when its last word is taken. -/
def InQueue.takeWords (q : InQueue) (t : Nat) : InQueue × List Loc :=
  let rest := q.words.drop t
  if rest.isEmpty then ({}, q.granules)
  else
    let h := q.headSlot + t
    ({ q with words := rest, granules := q.granules.drop (h / 4094), headSlot := h % 4094 }, q.granules.take (h / 4094))

/-- The words of a session's queue grow, or the queue's space fails and only the failure is counted (R203). -/
def Chan.joinQueue (c : Chan) (w : Wm) (i : Nat) (ws : List Nat) : Bool × Chan :=
  let q := c.queue i
  if 4294967295 < q.words.length + ws.length then (false, c)
  else
    match c.takeMany w (c.placement i) 0 (queueNeed q ws.length - q.granules.length) with
    | (none, f) => (false, c.withFails f)
    | (some ls, c) => (true, if ws.isEmpty then c else c.setQueue i (q.join ws ls))

/-! ### OP_TEXT_IN -/

/-- The checks of R202, items 1 to 3. -/
def textCheck (fn : Nat) (a : TextArgs) (s : State) : Option Status :=
  if a.hostCopy ∧ a.tokCap = 0 then some .lenZero
  else if 16777216 < a.textLen then some .paramInvalid
  else rangesCheck fn ([(a.textAddr, a.textLen)] ++ if a.hostCopy then [(a.tokAddr, 4 * a.tokCap)] else []) s

/-- A signed 32-bit field. -/
def int32 (v : Int) : Nat := (v % 4294967296).toNat

/-- OP_TEXT_IN runs on a session (R203, R204): its tokens join the queue and its carry is rewritten, or nothing but the counters
changes. -/
def textNow (d : Hdr) (a : TextArgs) (ch i : Nat) (s : State) : State :=
  let c := s.chan ch
  let e := c.dir i
  match c.tokImage e.tokenizer, c.sblk i with
  | some t, some b =>
    if a.textLen = 0 ∧ !a.last then done d 0x30 .ok [0, 0, 0, heldWord b.carry] [] s
    else
      let o := textRun t e.utf8Policy b.carry a.text a.last
      let c := { c with prismInvalid := wrap64 (c.prismInvalid + o.invalid), normFlush := wrap64 (c.normFlush + o.run.flushes) }
      let n := o.run.toks.length
      match o.rejected with
      | some off => done d 0x30 .textInvalid [0, 0, int32 off, heldWord b.carry] [] (s.setChan ch c)
      | none =>
        if a.hostCopy ∧ a.tokCap < n then
          done d 0x30 .lenExceedsBuffer [n, o.invalid, 0, heldWord b.carry] [] (s.setChan ch c)
        else
          match (c.touch i none).joinQueue (wmOf ch s) i o.run.toks with
          | (false, f) => done d 0x30 .noSpace [0, o.invalid, 0, heldWord b.carry] [] (s.setChan ch (c.withFails f))
          | (true, c) =>
            let c := c.setSblk i { b with carry := o.run.carry }
            done d 0x30 .ok [n, o.invalid, 0, heldWord o.run.carry]
              (if a.hostCopy then [(a.tokAddr, .bytes (o.run.toks.flatMap (natLE 4)))] else []) (s.setChan ch c)
  | _, _ => done d 0x30 .paramInvalid [] [] s

/-- The area of an OP_TEXT_IN that has no effect: the carry stays (R204). -/
def unheardArea (c : Chan) (i : Nat) : List Nat :=
  [0, 0, 0, match c.sblk i with | some b => heldWord b.carry | none => 0]

/-- OP_TEXT_IN as R50 judges it. DESIGN CHOICE: one of length 0 with end 0 on a REVIVING session is queued as R50 has it and completes when
the state ends, not at once (log entry 117). -/
def sessText (cmd : Instr) (d : Hdr) (a : TextArgs) (ch fn : Nat) (s : State) : State :=
  onVerdictWith (unheardArea (s.chan ch) a.handle.index) (judgeInput ((s.chan ch).dir a.handle.index)) cmd d 0x30 ch a.handle.index fn (textNow d a ch a.handle.index) s

/-- OP_TEXT_IN (R201 to R204). -/
def execOpTextIn (d : Hdr) (a : TextArgs) : State → Host.Outcome State Fault Refusal :=
  onSession 0x30 d a.handle (fun fn ch s =>
    match textCheck fn a s with
    | some st => complete d 0x30 st (unheardArea (s.chan ch) a.handle.index) [] s
    | none => sessText (.opTextIn d a) d a ch fn s)

end Sys2Proof.Machine
end

