-- ==== Sys2Proof/Machine/AttnCore.lean ====
section
/-! DEFINITION. Attention over stored pages: the attended set (R146), a row's logits and weights (R147, R153), its special cases (R154), its
output and LSE placed within the bounds of R156 and R157, the merge of partial results (R159), and page masses and scores (R99, R100). -/

namespace Sys2Proof.Machine

open Sys2Proof

/-- Bytes per element of an exchange format: BF16, FP16 or FP32 (R141). -/
def xBytes (code : Nat) : Nat := if code = 9 then 4 else 2

/-- A format code of R141. -/
def xFmtOk (code : Nat) : Bool := code == 0 || code == 1 || code == 9

/-- The values of a byte string in a format code of whole bytes without scales (R107, R142). -/
def valuesOf (code : Nat) : Nat → List Byte → List FVal
  | 0, _ => []
  | n + 1, bs =>
    match bs with
    | [] => []
    | _ :: _ => elemValue code (leNat (bs.take (fmtBits code / 8))) :: valuesOf code n (bs.drop (fmtBits code / 8))

def FVal.isFinite : FVal → Bool
  | .fin _ _ _ _ => true
  | _ => false

/-- The magnitude of a value. -/
def FVal.abs : FVal → FVal
  | .fin _ n d e => .fin false n d e
  | .inf _ => .inf false
  | .nan => .nan

/-- The page a position of a session lies in, in one layer and head: in the map, or reserved by the step. -/
def Chan.pageFor (c : Chan) (i e : Nat) (new : Tbl Nat) : Option Nat :=
  match c.pageAt i e with
  | some d => some d
  | none => match tget e (c.map i) with
    | some _ => none
    | none => tget e new

/-- Position p is attended by the query at global position qp (R146). -/
def attends (x : Profile) (localLen qp kbase p : Nat) : Bool :=
  decide (p < localLen) && decide (kbase + p ≤ qp) &&
    (x.window == 0 || decide (qp < kbase + p + x.window) || decide (p / x.p < x.sinkRows))

/-- The attended positions of a query row with their K and V rows. -/
def attRows (c : Chan) (i l h localLen qp kbase : Nat) (new : Tbl Nat) : List (Nat × List Byte × List Byte) :=
  let x := c.prof (c.dir i).profile
  (List.range ((localLen + x.p - 1) / x.p)).flatMap (fun r =>
    match c.pageFor i (x.entry r l h) new with
    | none => []
    | some d =>
      let pg := c.page d
      ((List.range x.p).filter (fun j => attends x localLen qp kbase (r * x.p + j))).map (fun j =>
        (r * x.p + j, pg.k.getD j [], pg.v.getD j [])))

/-- The map entries of a layer that hold a position some query of a chunk attends: the pages the layer reads (R162, R181). -/
def readEntries (c : Chan) (i l localLen qpos t kbase : Nat) (new : Tbl Nat) : List (Nat × Nat) :=
  let x := c.prof (c.dir i).profile
  (List.range ((localLen + x.p - 1) / x.p)).flatMap (fun r =>
    if (List.range x.p).any (fun j => (List.range t).any (fun k => attends x localLen (qpos + k) kbase (r * x.p + j))) then
      (List.range x.kvHeads).filterMap (fun h => (c.pageFor i (x.entry r l h) new).map (fun d => (x.entry r l h, d)))
    else [])

/-- The attention scale σ (R147). -/
def sigmaF32 (x : Profile) : F32 :=
  if x.headDim = 0 then 0x3E000000 else if x.headDim = 1 then 0x3DB504F3 else if x.headDim = 2 then 0x3D93CD3A else 0x3D800000

/-- The exact dot product of two rows of values. -/
def dotExact (a b : List FVal) : FVal := (List.zipWith FVal.mul a b).foldl FVal.add (.fin false 0 1 0)

/-- log2(e), the constant of scaled_logit (R153). -/
def log2e : FVal := .fin false log2eFx 1 (-160)

/-- The logit of a dot product (R147): σ s, or c tanh (σ s / c) with a soft-cap. -/
def logit (x : Profile) (s : FVal) : FVal :=
  let y := (f32 (sigmaF32 x)).mul s
  if f32isZero x.softcap then y else (f32 x.softcap).mul (tanhVal (y.div (f32 x.softcap)))

/-- σ Σ |q × k| (R156). -/
def absLogit (x : Profile) (q k : List FVal) : FVal :=
  (f32 (sigmaF32 x)).mul ((List.zipWith FVal.mul q k).foldl (fun t p => t.add p.abs) (.fin false 0 1 0))

/-- A scaled logit's magnitude rounds beyond the largest finite FP32 value (R154). -/
def logitOverflows (x : Profile) (q k : List FVal) : Bool := f32isInf (toF32 ((logit x (dotExact q k)).mul log2e))

/-- What is fixed of an output row: nothing attended, the non-finite case of R154, a row under the condition of R156, or one outside
it, for which no bound is stated (R157). -/
inductive RowKind where
  | empty | nan | bounded | unbounded
deriving DecidableEq, Repr

/-- A row's softmax in real arithmetic: its kind, the greatest scaled logit in units of 2^-160, each attended position's weight 2^(z − top)
and their sum, in units of 2^-320 (R147, R153). -/
structure RowCalc where
  kind : RowKind
  top : Int
  w : List (Nat × Nat)
  total : Nat
deriving DecidableEq, Repr

/-- 2^-y for y ≥ 0 in units of 2^-160, the result in units of 2^-320. -/
def weightFx (y : Int) : Nat := exp2Frac ((-y) % 2 ^ 160).toNat * 2 ^ 160 / 2 ^ (-((-y) / 2 ^ 160)).toNat

/-- The kind of a row from its attended K rows (R154, R156). -/
def rowKind (x : Profile) (q : List FVal) (ks : List (List FVal)) : RowKind :=
  if ks.isEmpty then .empty
  else if !(q.all FVal.isFinite) || ks.any (fun k => !(k.all FVal.isFinite)) then .nan
  else if f32isZero x.softcap && ks.any (logitOverflows x q) then .nan
  else if ks.all (fun k => !(FVal.lt (.ofInt 65536 0) (absLogit x q k))) then .bounded
  else .unbounded

/-- The softmax of a query row over its attended rows. -/
def rowCalc (x : Profile) (q : List FVal) (rows : List (Nat × List Byte × List Byte)) : RowCalc :=
  let ks := rows.map (fun r => valuesOf x.kvFormat x.d r.2.1)
  match rowKind x q ks with
  | .bounded =>
    let zs := ks.map (fun k => toFx ((logit x (dotExact q k)).mul log2e))
    let top := match zs with | [] => 0 | z :: r => r.foldl max z
    let w := List.zipWith (fun r z => (r.1, weightFx (top - z))) rows zs
    ⟨.bounded, top, w, (w.map (·.2)).sum⟩
  | k => ⟨k, 0, [], 0⟩

/-- The canonical NaN of an exchange format as bytes (R108). -/
def nanBytes (code : Nat) : List Byte :=
  match fmtOf code with
  | some f => natLE (xBytes code) f.canonNan
  | none => []

/-- Bytes of a free value from an offset on. -/
def freeBytes (ix off n : Nat) : List Byte := (List.range n).map (fun j => Config.freeByte ix (off + j))

/-- A value of a floating format for which the spec states no bound: free, and canonical where it is NaN (R108). -/
def freeElem (code ix off : Nat) : List Byte :=
  let bs := freeBytes ix off (xBytes code)
  match elemValue code (leNat bs) with
  | .nan => nanBytes code
  | _ => bs

/-- A value placed within a bound, for a result of a format code: the bound holds for an FP32 result itself, and before the one conversion for
the others (R126, R156). -/
def boundedVal (code : Nat) (v bound : FVal) (t : Int) : FVal :=
  let r := shifted v bound t
  if code = 9 && !(closer (f32 (toF32 r)) v bound) then v else r

/-- The greatest magnitude among finite values (ν of R156). -/
def maxAbs (vs : List FVal) : FVal :=
  vs.foldl (fun m v => match v with | .fin _ n d e => (if m.lt (.fin false n d e) then .fin false n d e else m) | _ => m) (.fin false 0 1 0)

/-- The factor of ν in the bound: 2^-22, and c × 2^-21 more with a soft-cap (R156, R157). -/
def boundFactor (x : Profile) : FVal := (FVal.fin false 1 1 (-22)).add ((f32 x.softcap).mul (.fin false 1 1 (-21)))

/-- The infinities of a column of V (R154): one sign gives the infinity, or NaN where a part of a weight is zero or negative (R117), which of
the two no rule fixes; both signs give NaN. -/
def infVal (vs : List FVal) (t : Int) : FVal :=
  if vs.contains (.inf false) && vs.contains (.inf true) then .nan else if t ≤ 0 then .nan else .inf (vs.contains (.inf true))

/-- One element of a row from its column of V, before its conversion to a format code: +0 of an empty row, NaN, the infinities' outcome, else
the weighted mean within its bound; free, as FP32, outside the condition of R156 (R154, R156). -/
def outVal (code : Nat) (r : RowCalc) (vs : List FVal) (bound : FVal) (ix k : Nat) : FVal :=
  match r.kind with
  | .empty => .fin false 0 1 0
  | .nan => .nan
  | kind =>
    if vs.contains .nan then .nan
    else if vs.any (fun v => !v.isFinite) then infVal vs (Config.freeShift ix k)
    else if kind = .unbounded then elemValue 9 (leNat (freeBytes ix (4 * k) 4))
    else
      let acc := (List.zipWith (fun w v => (FVal.fin false w.2 1 0).mul v) r.w vs).foldl FVal.add (.fin false 0 1 0)
      boundedVal code (acc.div (.fin false r.total 1 0)) bound (Config.freeShift ix k)

/-- A value converted to an exchange format, as bytes (R126, R127, R141). -/
def xEncode (code : Nat) (saturate : Bool) (v : FVal) : List Byte :=
  match fmtOf code with
  | some f => natLE (xBytes code) (fencode f saturate v)
  | none => []

/-- The d elements of an output row before their conversion to a format code; `k0` numbers its first element among the part's. -/
def outVals (x : Profile) (code ix k0 : Nat) (q : List FVal) (rows : List (Nat × List Byte × List Byte)) : List FVal :=
  let r := rowCalc x q rows
  let vs := rows.map (fun e => valuesOf x.kvFormat x.d e.2.2)
  let bound := (boundFactor x).mul (maxAbs vs.flatten)
  (List.range x.d).map (fun k => outVal code r (vs.map (fun v => v.getD k .nan)) bound ix (k0 + k))

/-- The bytes of an output row in an exchange format. -/
def outRow (x : Profile) (code : Nat) (saturate : Bool) (ix k0 : Nat) (q : List FVal) (rows : List (Nat × List Byte × List Byte)) : List Byte :=
  (outVals x code ix k0 q rows).flatMap (xEncode code saturate)

/-- A pair (hi, lo) of FP32 for a value in log2 units, within 2^-30 of it relative to the greater of 1 and the value (R153 states no bound
of lse; log entry 98). -/
def pairBytes (v : FVal) (t : Int) : List Byte :=
  let p := shifted v ((FVal.fin false 1 1 (-30)).mul (maxAbs [v, .ofInt 1 0])) t
  let hi := toF32 p
  natLE 4 hi.toNat ++ natLE 4 (toF32 (p.add (f32 hi).neg)).toNat

/-- The LSE pair of a row (R142, R153, R154): log2 of the sum of 2^z; for a row outside the condition of R156 finite and no more. -/
def lseRow (x : Profile) (ix k : Nat) (q : List FVal) (rows : List (Nat × List Byte × List Byte)) : List Byte :=
  let r := rowCalc x q rows
  match r.kind with
  | .empty => natLE 4 0xFF800000 ++ natLE 4 0
  | .nan => natLE 4 0x7FC00000 ++ natLE 4 0x7FC00000
  | .unbounded =>
    let fin (off : Nat) : List Byte :=
      let bs := freeBytes ix off 4
      if f32finite (BitVec.ofNat 32 (leNat bs)) then bs else natLE 4 0
    fin (8 * k) ++ fin (8 * k + 4)
  | .bounded => pairBytes (ofFx (r.top + log2Fx r.total 1 (-320))) (Config.freeShift ix k)

/-- One layer's attention of a chunk of t tokens of a session. -/
structure AttnJob where
  i : Nat
  l : Nat
  t : Nat
  localLen : Nat
  qpos : Nat
  kbase : Nat
  qFmt : Nat
  oFmt : Nat
  isPartial : Bool
  saturate : Bool
  q : List Byte
  new : Tbl Nat
deriving DecidableEq, Repr

/-- The query row of a token and query head (R142). -/
def queryRow (x : Profile) (j : AttnJob) (k hq : Nat) : List FVal :=
  valuesOf j.qFmt x.d (j.q.drop ((k * x.hq + hq) * x.d * xBytes j.qFmt))

/-- The attended rows of a token and query head: query head hq reads KV head hq // group (R147). -/
def jobRows (c : Chan) (j : AttnJob) (x : Profile) (k hq : Nat) : List (Nat × List Byte × List Byte) :=
  attRows c j.i j.l (hq / x.group) j.localLen (j.qpos + k) j.kbase j.new

/-- The output format of a job: FP32 when partial (R142). -/
def AttnJob.outFmt (j : AttnJob) : Nat := if j.isPartial then 9 else j.oFmt

/-- The bytes of the O part (R142, R154, R156). -/
def oBytes (c : Chan) (j : AttnJob) (ix : Nat) : List Byte :=
  let x := c.prof (c.dir j.i).profile
  (List.range j.t).flatMap (fun k => (List.range x.hq).flatMap (fun hq =>
    outRow x j.outFmt j.saturate ix ((k * x.hq + hq) * x.d) (queryRow x j k hq) (jobRows c j x k hq)))

/-- The bytes of the LSE part, with its padding (R142). -/
def lseBytes (c : Chan) (j : AttnJob) (ix : Nat) : List Byte :=
  let x := c.prof (c.dir j.i).profile
  ((List.range j.t).flatMap (fun k => (List.range x.hq).flatMap (fun hq =>
    lseRow x ix (k * x.hq + hq) (queryRow x j k hq) (jobRows c j x k hq)))) ++
  (if j.t * x.hq % 2 = 1 then List.replicate 8 0 else [])

/-! ### Scores (R99, R100) -/

/-- What the rows of a head add to a page (R99): the sum of the softmax weights of its positions over the rows that R154 lets add; none where
a row outside the condition of R156 adds a weight no bound covers. -/
def pageMass (c : Chan) (j : AttnJob) (h row : Nat) : Option FVal :=
  let x := c.prof (c.dir j.i).profile
  (List.range j.t).foldl (fun m k => (List.range x.group).foldl (fun m g =>
    let r := rowCalc x (queryRow x j k (h * x.group + g)) (jobRows c j x k (h * x.group + g))
    match m, r.kind with
    | none, _ => none
    | some v, .bounded =>
      some (v.add ((FVal.fin false ((r.w.filter (fun e => e.1 / x.p == row)).map (·.2)).sum 1 0).div (.fin false (max 1 r.total) 1 0)))
    | _, .unbounded => none
    | some v, _ => some v) m) (some (.fin false 0 1 0))

/-- The nearest integer to a fixed-point number. -/
def roundFx (x : Int) : Int := (x + 2 ^ 159) / 2 ^ 160

/-- The score that a mass gives (R100), within 1 unit of the exact result by a free value. -/
def massScore (s : Nat) (mass : FVal) (t : Int) : Nat :=
  let old : FVal := if s = 0 then .fin false 0 1 0 else exp2Val ((s : Int) * 2 ^ 152 - 128 * 2 ^ 160)
  match old.add mass with
  | .fin _ n d e =>
    let exact := 256 * (log2Fx n d e + 128 * 2 ^ 160)
    let r := roundFx (exact + max (-(2 ^ 64)) (min (2 ^ 64) t) * 2 ^ 96)
    let r := if (r * 2 ^ 160 - exact).natAbs ≤ 2 ^ 160 then r else roundFx exact
    (max 0 (min 65535 r)).toNat
  | _ => s

/-- The score after an update (R100): without mass it only decays. A mass no bound covers (R157) leaves it free between the decayed score less
the unit the spec allows and a bound on what `rows` query rows can add. -/
def newScore (old decay ix page rows : Nat) (mass : Option FVal) : Nat :=
  let s := old - decay
  match mass with
  | some m => if f32isZero (toF32 m) then s else massScore s (f32 (toF32 m)) (Config.freeShift ix page)
  | none =>
    let lo := s - 1
    let hi := min 65535 (max s (256 * (Nat.log2 rows + 1 + 128)) + 257)
    lo + Config.freeScore (ix + page) % (hi - lo + 1)

/-- The pages a layer's attention reads take their scores and the step's number (R77, R100). -/
def scorePages (c : Chan) (j : AttnJob) (step ix : Nat) : Chan :=
  let x := c.prof (c.dir j.i).profile
  (readEntries c j.i j.l j.localLen j.qpos j.t j.kbase j.new).foldl (fun c' e =>
    c'.modPage e.2 (fun p => { p with lastStep := step
                                      score := newScore p.score x.evictDecay ix e.1 (j.t * x.group) (pageMass c j (x.headOf e.1) (x.rowOf e.1)) })) c

/-- The cost of a sequence's layer in array cycles per KV head (R155, R161). -/
def layerCost (x : Profile) (t n : Nat) : Nat :=
  let r := t * x.group
  ((r + 15) / 16 + (r + 7) / 8) * n * x.d / 16

/-- The attended count of the widest row of a chunk (R161): the widest over its tokens and KV heads, whose dropped pages may differ. -/
def attendedCount (c : Chan) (j : AttnJob) : Nat :=
  let x := c.prof (c.dir j.i).profile
  ((List.range j.t).flatMap (fun k => (List.range x.kvHeads).map (fun h =>
    (attRows c j.i j.l h j.localLen (j.qpos + k) j.kbase j.new).length))).foldl max 0

/-! ### The merge of partial results (R159) -/

/-- A partial result's row: its lse pair and its output elements. -/
structure PartRow where
  hi : F32
  lo : F32
  o : List FVal
deriving DecidableEq, Repr

/-- The row is NaN: a NaN in any part (R159). -/
def PartRow.isNan (p : PartRow) : Bool := f32isNan p.hi || f32isNan p.lo || p.o.contains .nan

/-- A row's lse in units of 2^-160. -/
def PartRow.lse (p : PartRow) : Int := toFx ((f32 p.hi).add (f32 p.lo))

/-- The parts of a row that count, and the kind of the merged row. -/
def mergeKind (parts : List PartRow) : RowKind :=
  if parts.any PartRow.isNan then .nan
  else if parts.all (fun p => p.hi == f32ninf) then .empty
  else if parts.any (fun p => p.hi == 0x7F800000 || f32isInf p.lo) then .unbounded
  else .bounded

/-- The live parts, the greatest lse, their factors 2^(lse − top) in units of 2^-320. -/
def mergeCalc (parts : List PartRow) : Int × List (PartRow × Nat) :=
  let live := parts.filter (fun p => p.hi != f32ninf)
  let zs := live.map PartRow.lse
  let top := match zs with | [] => 0 | z :: r => r.foldl max z
  (top, List.zipWith (fun p z => (p, weightFx (top - z))) live zs)

/-- The merged output row (R159): each element within 2^-22 of the greatest magnitude of the live parts' elements (the terms of R156's table
that ATTN_MERGE adds: log entry 98), converted once; an element an infinity reaches is that infinity or NaN as in R154. -/
def mergeOut (code d : Nat) (saturate : Bool) (ix k0 : Nat) (parts : List PartRow) : List Byte :=
  let (_, ws) := mergeCalc parts
  let bound := (FVal.fin false 1 1 (-22)).mul (maxAbs (ws.flatMap (fun e => e.1.o)))
  let r : RowCalc := ⟨mergeKind parts, 0, ws.map (fun e => (0, e.2)), (ws.map (·.2)).sum⟩
  (List.range d).flatMap (fun k => xEncode code saturate (outVal code r (ws.map (fun e => e.1.o.getD k .nan)) bound ix (k0 + k)))

/-- The merged LSE pair of a row (R159). -/
def mergeLse (ix k : Nat) (parts : List PartRow) : List Byte :=
  match mergeKind parts with
  | .empty => natLE 4 0xFF800000 ++ natLE 4 0
  | .nan => natLE 4 0x7FC00000 ++ natLE 4 0x7FC00000
  | .unbounded => freeElem 9 ix (8 * k) ++ freeElem 9 ix (8 * k + 4)
  | .bounded =>
    let (top, ws) := mergeCalc parts
    pairBytes (ofFx (top + log2Fx (ws.map (·.2)).sum 1 (-320))) (Config.freeShift ix k)

/-- The length bucket of an attended count (R161). -/
def bucketOf (n : Nat) : Nat := ((List.range 13).find? (fun b => decide (n ≤ 256 * 2 ^ b))).getD 12

/-- Bytes padded with zeros to a multiple of 16. -/
def pad16 (bs : List Byte) : List Byte := bs ++ List.replicate ((16 - bs.length % 16) % 16) 0

end Sys2Proof.Machine
end

