-- ==== Sys2Proof/Machine/Engines.lean ====
section
/-! DEFINITION. The Condenser's block queue and the BULK work that waits for it (R84, R93, R185, R288): encodings, moves between tiers and
checkpoint copies go by deadline, and inline decoding for attention goes first. What each entry's block is and when it passes a codec unit is
timing and not modelled: a piece of work holds its entries from the moment it starts to its completion event (log entry 120). -/

namespace Sys2Proof.Machine

open Sys2Proof

/-- Blocks of 4 KiB in a number of bytes (R265, R288). -/
def rawBlocks (n : Nat) : Nat := ceilDiv n 4096

/-- The positions a slot's layer sees (R146). -/
def Slot.localLen (x : Slot) : Nat := x.kvStart + if x.append0 = some true then x.tokens.length else 0

/-- The blocks of the coded pages that a layer reads. -/
def Chan.codedBlocks (c : Chan) (i l localLen qpos t kbase : Nat) (new : Tbl Nat) : Nat :=
  ((readEntries c i l localLen qpos t kbase new).filter (fun e => (c.page e.2).codec != 0)).length * rawBlocks (c.prof (c.dir i).profile).rawBytes

/-- The entries that inline decoding for the layers now on tiles would take. -/
def Chan.inlineDemand (c : Chan) : Nat :=
  (c.steps.map (fun st => (st.slots.map (fun x =>
    match x.phase, x.ctrl with
    | .tiles, some k => c.codedBlocks x.index x.layer x.localLen k.qpos x.tokens.length k.kbase x.reserved
    | _, _ => 0)).sum)).sum +
  (c.bulk.map (fun u =>
    match u.work, u.tiles with
    | .append _ _ a true start _ _, _ :: _ => c.codedBlocks a.handle.index a.layer (start + a.tokens) (a.kbase + start) a.tokens a.kbase []
    | _, _ => 0)).sum

/-- Entries held by other work, and by inline decoding, which takes any that is free (R288). -/
def Chan.jobEntries (c : Chan) : Nat := (c.cond.map (fun j => j.held)).sum

def Chan.inlineEntries (c : Chan) : Nat := min c.inlineDemand (256 - c.jobEntries)

/-- Entries of the block queue in use (R288). -/
def Chan.blockDepth (c : Chan) : Nat := c.jobEntries + c.inlineEntries

/-- Other work may take an entry: more than 64 are free (R288). -/
def Chan.blockOpen (c : Chan) : Bool := decide (64 < 256 - c.blockDepth)

/-- What a piece of work works on is still there. -/
def Chan.jobLive (c : Chan) (j : CondJob) : Bool :=
  match j.work with
  | .encode d => (tget d c.pages).isSome
  | .move d => (c.page d).residency == .moving || (c.page d).residency == .spilling

/-- Work in order of deadline, an earlier arrival first among equals (R185). -/
def insertJob (j : CondJob) : List CondJob → List CondJob
  | [] => [j]
  | k :: r => if j.deadline < k.deadline then j :: k :: r else k :: insertJob j r

def orderJobs (l : List CondJob) : List CondJob := l.foldl (fun l j => insertJob j l) []

/-- Waiting work. -/
def Chan.waitingJobs (c : Chan) : List CondJob := orderJobs (c.cond.filter (fun j => j.held == 0))

/-- A piece of work takes its entries: as many as it has blocks, and no more than leave 64 free. -/
def Chan.startJob (c : Chan) (w : CondWork) : Chan :=
  let room := 256 - c.blockDepth - 64
  { c with cond := c.cond.map (fun j => if j.work = w then { j with held := max 1 (min j.blocks room) } else j) }

/-- Waiting work starts in order of deadline while entries may be taken (R185, R288). -/
def Chan.admitJobs (c : Chan) : Chan :=
  let c := { c with cond := c.cond.filter c.jobLive }
  c.waitingJobs.foldl (fun c j => if c.blockOpen then c.startJob j.work else c) c

/-- Work joins the queue, once. -/
def Chan.pushJob (c : Chan) (w : CondWork) (blocks deadline : Nat) : Chan :=
  if c.cond.any (fun j => j.work == w) then c
  else Chan.admitJobs { c with cond := c.cond ++ [{ work := w, blocks := blocks, deadline := deadline }] }

/-- Work ends and its entries are free. -/
def Chan.endJob (c : Chan) (w : CondWork) : Chan := Chan.admitJobs { c with cond := c.cond.filter (fun j => j.work != w) }

/-- A piece of work has started. -/
def Chan.started (c : Chan) (w : CondWork) : Bool := c.cond.any (fun j => j.work == w && j.held != 0)

/-- Nothing of an earlier deadline waits, and an entry may be taken. -/
def Chan.mayStart (c : Chan) (deadline : Nat) : Bool := c.blockOpen && !c.waitingJobs.any (fun j => decide (j.deadline ≤ deadline))

/-- Device work's deadline from its start (R184). -/
def deviceDl (ch : Nat) (s : State) : Nat := s.now + internalDl ch s

/-- A page is a sealed RAW one whose profile asks for another codec (R84). -/
def Chan.toEncode (c : Chan) (x : Profile) (d : Nat) : Bool :=
  (c.page d).residency == .resident && (c.page d).codec == 0 && (c.page d).fill == x.p && x.kvCodec != 0

/-- The pages of some map entries that are now sealed are queued for encoding (R84). -/
def Chan.queueEncodes (c : Chan) (i : Nat) (es : List Nat) (deadline : Nat) : Chan :=
  let x := c.prof (c.dir i).profile
  es.foldl (fun c e => match c.pageAt i e with
    | some d => if c.toEncode x d then c.pushJob (.encode d) (rawBlocks x.rawBytes) deadline else c
    | none => c) c

end Sys2Proof.Machine
end

