-- ==== Sys2Proof/Machine/Bulk.lean ====
section
/-! DEFINITION. BULK work: the queue (R184), the division of tiles at a dispatch point (R186), pre-emption, save and restore (R188), and
missed deadlines (R187). -/

namespace Sys2Proof.Machine

open Sys2Proof

/-- A deadline compares with another: none is later than any (R168, R184). -/
def dlLt (a b : Option Nat) : Bool :=
  match a, b with
  | some x, some y => decide (x < y)
  | some _, none => true
  | none, _ => false

/-- The order of BULK units: by deadline, then by acceptance (R186). -/
def unitBefore (u v : BulkUnit) : Bool :=
  dlLt u.deadline v.deadline || (u.deadline == v.deadline && (decide (u.acceptedAt < v.acceptedAt)
    || (u.acceptedAt == v.acceptedAt && decide (u.id ≤ v.id))))

/-- The units in order. -/
def insertUnit (u : BulkUnit) : List BulkUnit → List BulkUnit
  | [] => [u]
  | v :: r => if unitBefore u v then u :: v :: r else v :: insertUnit u r

def orderUnits (us : List BulkUnit) : List BulkUnit := us.foldl (fun l u => insertUnit u l) []

/-- Take units in order while their widths fit within a limit; none is passed over. -/
def takeUnits (limit : Nat) : Nat → List BulkUnit → List Nat × Nat
  | share, [] => ([], share)
  | share, u :: r =>
    if limit < share + u.width then ([], share)
    else
      let t := takeUnits limit (share + u.width) r
      (u.id :: t.1, t.2)

/-- The open step of a channel: published or not, not closed (R182). -/
def Chan.openStep (c : Chan) : Option StepRec := c.steps.find? (fun st => !st.closed)

/-- What INTERACTIVE work holds of the tiles (R184): the deadline of the open step, or the least of the Lens queries in progress on a SEARCH
channel; none when there is no such work. -/
def Chan.interactive (c : Chan) : Option (Option Nat) :=
  match c.openStep with
  | some st => some st.deadline
  | none =>
    if c.role = .search then
      match c.lens.queries.filter (fun q => q.insertOf.isNone) with
      | [] => none
      | q :: qs => some (qs.foldl (fun d r => if dlLt r.deadline d then r.deadline else d) q.deadline)
    else none

/-- Tiles that BULK units hold, and those of the buckets of a layer build that still run (R161). -/
def Chan.bulkTiles (c : Chan) : List Nat := c.bulk.flatMap (fun u => u.tiles)

def Chan.bucketTiles (c : Chan) : List Nat :=
  c.builds.flatMap (fun b => (b.2.filter (fun k => c.steps.any (fun st => st.slots.any (fun x =>
    x.build == b.1 && x.bucket == k.1 && x.phase == .tiles)))).flatMap (fun k => k.2))

/-- The tiles that neither BULK work, saves nor running buckets hold, in number order. -/
def Chan.freeTiles (c : Chan) : List Nat := (List.range 64).filter (fun t => !c.bulkTiles.contains t && !c.bucketTiles.contains t)

/-- The units inside bulk_share, and the share (divide_tiles of R186). -/
def Chan.divide (c : Chan) (minTiles : Nat) : List Nat × Nat :=
  let us := orderUnits c.bulk
  match c.interactive with
  | none => takeUnits 64 0 us
  | some dl =>
    let ahead := us.filter (fun u => dlLt u.deadline dl)
    let behind := us.filter (fun u => !dlLt u.deadline dl)
    let a := takeUnits 56 0 ahead
    match behind with
    | [] => a
    | u :: _ => if a.2 + u.width ≤ max a.2 minTiles then (a.1 ++ [u.id], a.2 + u.width) else a

/-! ### The tiles' SRAM (R2, R28, R111, R120, R124) -/

/-- A byte of a tile's scratch SRAM (2 MiB): 0 where nothing has been written since it was zeroed, else the free content of that number. -/
def Chan.scratchByte (ch : Nat) (c : Chan) (tile off : Nat) : Byte :=
  match tget tile c.t0 with | some k => Config.scratchByte ch k off | none => 0

/-- An entry of a tile's accumulator SRAM, one of 16,384 of 16 B, 2,048 in each of 8 banks (R120). -/
def Chan.accEntry (ch : Nat) (c : Chan) (tile ix : Nat) : Wide :=
  match tget tile c.t0 with | some k => wideDecode (Config.accEntry ch k ix).toNat | none => wideZero

/-- Work begins on tiles: from then on their SRAM holds what that work leaves there, which no rule gives. -/
def Chan.useTiles (c : Chan) (ts : List Nat) : Chan :=
  { c with t0 := ts.foldl (fun m t => tset t c.nextT0 m) c.t0, nextT0 := c.nextT0 + 1 }

/-- The T2 offset of a save slot, and of the accumulators within it (R188). -/
def saveOffset (slot : Nat) : Nat := slot * 0x00240000
def saveAccOffset (slot : Nat) : Nat := saveOffset slot + 0x00200000

/-- A byte of the save area (R28, R188): slot by slot the scratch image, then the accumulator image, bit for bit (R124). -/
def Chan.saveByte (ch : Nat) (c : Chan) (off : Nat) : Byte :=
  match tget (off / 0x00240000) c.saves with
  | none => 0
  | some k =>
    let o := off % 0x00240000
    if o < 0x00200000 then Config.scratchByte ch k o
    else (BitVec.ofNat 8 ((Config.accEntry ch k ((o - 0x00200000) / 16)).toNat / 2 ^ (8 * (o % 16))))

/-- The images of tiles go to save slots, one each (R188). -/
def Chan.saveTiles (c : Chan) (ts slots : List Nat) : Chan :=
  { c with saves := (List.zip ts slots).foldl (fun m e => match tget e.1 c.t0 with | some k => tset e.2 k m | none => tdel e.2 m) c.saves }

/-- The images of save slots go to the tiles that take them. -/
def Chan.restoreTiles (c : Chan) (ts slots : List Nat) : Chan :=
  { c with t0 := (List.zip ts slots).foldl (fun m e => match tget e.2 c.saves with | some k => tset e.1 k m | none => tdel e.1 m) c.t0 }

/-! ### Dispatch (R186, R188) -/

/-- Save slots in use (R188). -/
def Chan.savedSlots (c : Chan) : List Nat := c.bulk.flatMap (fun u => u.saved)

/-- The n lowest free save slots, when there are n. -/
def Chan.freeSlots (c : Chan) (n : Nat) : Option (List Nat) :=
  let free := (List.range 64).filter (fun k => !c.savedSlots.contains k)
  if free.length < n then none else some (free.take n)

/-- Change one unit. -/
def Chan.modUnit (c : Chan) (id : Nat) (f : BulkUnit → BulkUnit) : Chan :=
  { c with bulk := c.bulk.map (fun u => if u.id = id then f u else u) }

/-- Pre-empt a running unit: its save starts into free slots; with fewer slots than its width it runs to its end (R188). -/
def Chan.preempt (c : Chan) (u : BulkUnit) : Chan :=
  match c.freeSlots u.width with
  | some sl => c.modUnit u.id (fun v => { v with saving := true, saved := sl })
  | none => c

/-- A unit is on the tiles, and not leaving them. -/
def BulkUnit.onTiles (u : BulkUnit) : Bool := !u.tiles.isEmpty && !u.saving

/-- Start or restore units in order on free tiles, the lowest numbers first (DESIGN CHOICE, log entry 32); a unit that finds too few waits,
and so do those after it: none is passed over (R186). -/
def Chan.startUnits : List Nat → Chan → Chan
  | [], c => c
  | id :: r, c =>
    match c.bulk.find? (fun u => u.id == id) with
    | none => startUnits r c
    | some u =>
      if u.onTiles then startUnits r c
      else if u.saving ∨ c.freeTiles.length < u.width then c
      else
        let ts := c.freeTiles.take u.width
        let c := c.modUnit id (fun v => { v with tiles := ts, restoring := !v.saved.isEmpty })
        startUnits r (if u.saved.isEmpty then c.useTiles ts else c)

/-- A dispatch point (R186): the claim, the pre-emptions latest deadline first, the starts in deadline order. -/
def Chan.dispatch (c : Chan) (minTiles : Nat) : Chan :=
  let d := c.divide minTiles
  let c := { c with claim := match c.interactive with | some _ => 64 - d.2 | none => 0, bulkShare := d.1 }
  let out := ((orderUnits c.bulk).filter (fun u => u.onTiles && !d.1.contains u.id)).reverse
  let c := match c.interactive with
    | some _ => out.foldl Chan.preempt c
    | none => c
  c.startUnits d.1

def dispatchChan (ch : Nat) (s : State) : State := s.modChan ch (fun c => c.dispatch (bulkMinTiles ch s))

/-- A unit joins the queue; its arrival while no step is open is a dispatch point (R184, R186). -/
def Chan.pushUnit (c : Chan) (width : Nat) (dl : Option Nat) (now minTiles : Nat) (work : BulkWork) : Chan :=
  let u : BulkUnit := { id := c.nextUnit, width := width, deadline := dl, acceptedAt := now, work := work }
  let c := { c with bulk := c.bulk ++ [u], nextUnit := c.nextUnit + 1 }
  match c.interactive with
  | none => c.dispatch minTiles
  | some _ => c

/-- The records of the BULK queue in use (R166, R184): one for each unit, and one for a model run or a Lens write that is accepted and has no
unit on the queue at the moment. -/
def Chan.bulkLen (c : Chan) : Nat :=
  c.bulk.length +
  (c.runs.filter (fun r => !c.bulk.any (fun u => match u.work with | .modelLayer id _ => id == r.id | _ => false))).length +
  (c.lens.writes.filter (fun w => !c.bulk.any (fun u => match u.work with | .lensWrite id => id == w.id | _ => false))).length

/-- The queue is full for a host-issued descriptor (R184). -/
def Chan.bulkFull (c : Chan) : Bool := decide (9984 ≤ c.bulkLen)

/-- A width the spec leaves open, within 1 to 64 (R184, log entry 8). -/
def openWidth (ix : Nat) : Nat := 1 + Config.unitWidth ix % 64

/-- The most blocks of 16 products that one layer of attention forms: QK and PV with split weights, for `t` tokens over `n` positions (R111,
R153). -/
def attnBlocks (x : Profile) (t n : Nat) : Nat :=
  t * x.hq * (n * ((x.d + 15) / 16) + 2 * x.d * ((n + 15) / 16))

/-- Of `n` blocks of a kernel those that set sticky are counted (R119): which do depends on the division of the work (R138). -/
def addSticky (ch n : Nat) (s : State) : State :=
  (s.modChan ch (fun c => { c with arithSticky := wrap64 (c.arithSticky + Config.stickyBlocks s.freeIx % (n + 1)) })).advanceFree

/-! ### Missed deadlines (R187) -/

/-- Count missed deadlines and raise EV_DEADLINE_MISS at most once per 1 ms, with the counts since the last one. -/
def countMiss (ch steps seqs units : Nat) (s : State) : State :=
  if steps + seqs + units = 0 then s
  else
    let c := s.chan ch
    let c := { c with missSteps := c.missSteps + steps, missSeqs := c.missSeqs + seqs, missUnits := c.missUnits + units
                      missTotal := (c.missTotal.1 + steps, c.missTotal.2.1 + seqs, c.missTotal.2.2 + units) }
    let due := match c.missEventAt with | none => true | some t => decide (t + 1000000 ≤ s.now)
    if due then
      raiseEvent 0 (.deadlineMiss c.missSteps c.missSeqs c.missUnits) ch
        (s.setChan ch { c with missSteps := 0, missSeqs := 0, missUnits := 0, missEventAt := some s.now })
    else s.setChan ch c

/-- One missed when an absolute deadline lies before now. -/
def missed (dl : Option Nat) (now : Nat) : Nat := match dl with | some t => if t < now then 1 else 0 | none => 0

/-! ### Save and restore (R188) -/

/-- PREEMPT_SAVE_COMPLETE: the images stand in the slots, the unit's tiles join the claim, and units inside the share that waited for tiles
start (R186, R188). -/
def saveDone (unit : Nat) (c : Chan) : Chan :=
  match c.bulk.find? (fun u => u.id == unit && u.saving) with
  | some u => ((c.saveTiles u.tiles u.saved).modUnit unit (fun u => { u with saving := false, tiles := [] })).startUnits c.bulkShare
  | none => c

def execPreemptSaveComplete (channel unit : Nat) : State → Host.Outcome State Fault Refusal :=
  whenUp (fun s => s.modChan channel (saveDone unit))

/-- RESTORE_COMPLETE: each image is on the tile that takes it, the unit runs again and its save slots are free (R124, R188). -/
def restoreDone (unit : Nat) (c : Chan) : Chan :=
  match c.bulk.find? (fun u => u.id == unit && u.restoring) with
  | some u => { ((c.restoreTiles u.tiles u.saved).modUnit unit (fun u => { u with restoring := false, saved := [] })) with
                saves := u.saved.foldl (fun m k => tdel k m) c.saves }
  | none => c

def execRestoreComplete (channel unit : Nat) : State → Host.Outcome State Fault Refusal :=
  whenUp (fun s => s.modChan channel (restoreDone unit))

end Sys2Proof.Machine
end

