-- ==== Sys2Proof/Machine/AttnHost.lean ====
section
/-! DEFINITION. Host-issued attention: OP_KV_APPEND and OP_ATTN_PREFILL (R149 to R152), their completion, and OP_ATTN_MERGE (R159, R160). -/

namespace Sys2Proof.Machine

open Sys2Proof

/-- The positions held or accepted in a layer by an open chunk, else kv_len (R149). -/
def layerLen (c : Chan) (i l : Nat) : Nat :=
  match tget i c.chunks with
  | some k => (tget l k.lens).getD k.first
  | none => (c.dir i).kvLen

/-- The positions completed in a layer. -/
def layerDone (c : Chan) (i l : Nat) : Nat :=
  match tget i c.chunks with
  | some k => (tget l k.doneLens).getD k.first
  | none => (c.dir i).kvLen

/-- The host ranges of a descriptor (R142, R150, R151). -/
def appendRanges (x : Profile) (a : AppendArgs) (prefill : Bool) : List (Nat × Nat) :=
  let kv := a.tokens * x.kvHeads * x.d * x.e
  let q := a.tokens * x.hq * x.d
  (if prefill then [(a.qAddr, q * xBytes a.qFmt)] else []) ++ [(a.kAddr, kv), (a.vAddr, kv)] ++
  (if prefill then [(a.oAddr, q * (if a.isPartial then 4 else xBytes a.oFmt))] else []) ++
  (if prefill && a.isPartial then [(a.lseAddr, (a.tokens * x.hq + 1) / 2 * 16)] else []) ++
  (if a.layer = 0 then [(a.tokAddr, 4 * a.tokens)] else [])

/-- The checks of R151 and R152 before those of state. -/
def appendCheck (c : Chan) (fn : Nat) (a : AppendArgs) (prefill : Bool) (s : State) : Option Status :=
  let e := c.dir a.handle.index
  let x := c.prof e.profile
  let vocab := match c.tokImage e.tokenizer with | some t => t.vocabSize | none => 0
  if a.tokens = 0 then some .lenZero
  else if 2048 < a.tokens ∨ x.layers ≤ a.layer ∨ (prefill ∧ !(xFmtOk a.qFmt && xFmtOk a.oFmt)) then some .paramInvalid
  else if a.layer = 0 ∧ (a.tokAddr = 0 ∨ a.toks.any (fun t => decide (vocab ≤ t % 524288))) then some .paramInvalid
  else rangesCheck fn (appendRanges x a prefill) s

/-- The order of appends (R149), the context limit (R83, R151) and the pending token (R152). -/
def appendOrder (c : Chan) (a : AppendArgs) : Option Status :=
  let i := a.handle.index
  let e := c.dir i
  let x := c.prof e.profile
  let isOpen := (tget i c.chunks).isSome
  if a.layer = 0 ∧ x.maxPositions < layerLen c i 0 + a.tokens then some .contextLimit
  else if a.layer = 0 ∧ isOpen then some .attnProtocol
  else if a.layer ≠ 0 ∧ layerDone c i (a.layer - 1) < layerLen c i a.layer + a.tokens then some .attnProtocol
  else if a.layer == 0 && e.sampPend && (c.sblk i).bind (fun b => (b.hist e.kvLen).map (·.token)) != a.toks.head?.map (· % 524288) then
    some .attnProtocol
  else none

/-- The chunk after a descriptor is accepted (R149, R152). -/
def openChunk (c : Chan) (a : AppendArgs) : Chan :=
  let i := a.handle.index
  let e := c.dir i
  let k : Chunk := (tget i c.chunks).getD ⟨[], [], a.toks.map (· % 524288), e.kvLen, e.sampPend⟩
  { c with chunks := tset i { k with lens := tset a.layer (layerLen c i a.layer + a.tokens) k.lens } c.chunks }

/-- The job of a host-issued prefill (R150: qpos is kbase + len(layer)). -/
def hostJob (a : AppendArgs) (start : Nat) (new : Tbl Nat) : AttnJob :=
  ⟨a.handle.index, a.layer, a.tokens, start + a.tokens, a.kbase + start, a.kbase, a.qFmt, a.oFmt, a.isPartial, a.saturate, a.q, new⟩

/-- A host-issued append or prefill that R50 accepts: reserved, and a BULK unit (R151, R184). -/
def appendNow (d : Hdr) (a : AppendArgs) (prefill : Bool) (opcode ch fn : Nat) (s : State) : State :=
  let c := s.chan ch
  let i := a.handle.index
  let x := c.prof (c.dir i).profile
  match appendOrder c a with
  | some st => done d opcode st [] [] s
  | none =>
    if c.bulkFull then done d opcode .bulkQueueFull [] [] s
    else
      let start := layerLen c i a.layer
      match c.reserve (wmOf ch s) i [a.layer] start a.tokens c.nextStep with
      | .error (st, f) => done d opcode st [] [] (s.setChan ch f)
      | .ok (new, copies, c) =>
        let unit := c.nextUnit
        let c := (openChunk (c.touch i none) a).pushUnit (openWidth s.freeIx) (deadlineOf d s) s.now (bulkMinTiles ch s)
          (.append d.ring d.tag a prefill start new copies)
        let s := (s.setChan ch c).advanceFree
        match opOf d.ring d.tag s with
        | some op => { s with ops := s.ops.map (fun o => if o = op then { o with kind := .bulk ch unit } else o) }
        | none => addOp opcode d fn ch (appendRanges x a prefill) false (.bulk ch unit) s

/-- An append or prefill as R50 judges it. -/
def sessAppend (cmd : Instr) (d : Hdr) (a : AppendArgs) (prefill : Bool) (opcode ch fn : Nat) (s : State) : State :=
  onVerdict (judgeInput ((s.chan ch).dir a.handle.index)) cmd d opcode ch a.handle.index fn
    (appendNow d a prefill opcode ch fn) s

/-- OP_KV_APPEND (R149 to R152). -/
def execOpKvAppend (d : Hdr) (a : AppendArgs) : State → Host.Outcome State Fault Refusal :=
  onSession 0x20 d a.handle (fun fn ch s =>
    match appendCheck (s.chan ch) fn a false s with
    | some st => complete d 0x20 st [] [] s
    | none => sessAppend (.opKvAppend d a) d a false 0x20 ch fn s)

/-- OP_ATTN_PREFILL (R149 to R152). -/
def execOpAttnPrefill (d : Hdr) (a : AppendArgs) : State → Host.Outcome State Fault Refusal :=
  onSession 0x21 d a.handle (fun fn ch s =>
    match appendCheck (s.chan ch) fn a true s with
    | some st => complete d 0x21 st [] [] s
    | none => sessAppend (.opAttnPrefill d a) d a true 0x21 ch fn s)

/-! ### Completion of a host-issued layer -/

/-- Position rows of a K or V part: H × d × e bytes each (R142). -/
def partRows (x : Profile) (t : Nat) (bs : List Byte) : List (List Byte) :=
  (List.range t).map (fun k => (bs.drop (k * x.kvHeads * x.d * x.e)).take (x.kvHeads * x.d * x.e))

/-- Tokens of positions from `pos` on enter the history ring (R45, R152). -/
def SBlk.addHist (b : SBlk) (pos : Nat) : List HistTok → SBlk
  | [] => b
  | t :: r => SBlk.addHist (b.setHist pos t) (pos + 1) r

/-- The history counters of a sequence with n tokens in history (R41). -/
def Dir.histLen (e : Dir) (n : Nat) : Dir := { e with histHead := n % 4096, histCount := min n 4096 }

/-- The chunk closes when layer L − 1 catches up (R149, R152): kv_len, history, the pending token. -/
def closeChunk (i : Nat) (c : Chan) : Chan :=
  match tget i c.chunks, c.sblk i with
  | some k, some b =>
    let e := c.dir i
    let x := c.prof e.profile
    let len := (tget (x.layers - 1) k.doneLens).getD k.first
    let c := c.setDir i { e with kvLen := len }
    if len = (tget 0 k.doneLens).getD k.first ∧ len ≠ k.first then
      let b := b.addHist k.first (k.toks.map (fun t => ⟨t, false, false⟩))
      let c := (c.setSblk i b).setDir i
        ({ e with kvLen := len, sampPend := if k.usesPending then false else e.sampPend }.histLen len)
      { c with chunks := tdel i c.chunks }
    else c
  | _, _ => c

/-- The rows of a completed layer are in the pages and held (R148, R149). -/
def storeLayer (i l start t step : Nat) (k v : List Byte) (new copies : Tbl Nat) (c : Chan) : Chan :=
  let x := c.prof (c.dir i).profile
  let c := (lastEntries x [l] start).foldl (fun c e => c.copyLast i e copies) c
  let c := c.writeLayer i l start (partRows x t k) (partRows x t v) new
  (c.commitLayers i [l] start t step new).countPages i

/-- A layer's descriptor completes (R149): pages, the chunk's lengths, and kv_len with the last layer. -/
def appendStored (a : AppendArgs) (start step : Nat) (new copies : Tbl Nat) (c : Chan) : Chan :=
  let i := a.handle.index
  let c := storeLayer i a.layer start a.tokens step a.k a.v new copies (c.touch i none)
  let c := match tget i c.chunks with
    | some k => { c with chunks := tset i { k with doneLens := tset a.layer (start + a.tokens) k.doneLens } c.chunks }
    | none => c
  if a.layer + 1 = (c.prof (c.dir i).profile).layers then closeChunk i c else c

/-- The host writes of a completed prefill (R142). -/
def hostWrites (c : Chan) (a : AppendArgs) (start ix : Nat) : List (Nat × Payload) :=
  let j := hostJob a start []
  [(a.oAddr, .bytes (oBytes c j ix))] ++ if a.isPartial then [(a.lseAddr, .bytes (lseBytes c j (ix + 1)))] else []

/-- An append or prefill that stores nothing: its reservations return, and its layer's positions are not accepted. -/
def appendCancel (a : AppendArgs) (start : Nat) (new copies : Tbl Nat) (c : Chan) : Chan :=
  let c := (c.unreserve new).unreserve copies
  let i := a.handle.index
  match tget i c.chunks with
  | some k =>
    if a.layer = 0 then { c with chunks := tdel i c.chunks }
    else { c with chunks := tset i { k with lens := tset a.layer start k.lens } c.chunks }
  | none => c

/-- What a layer's pages allow: all there, some missing, or one LOST. -/
inductive Ready where
  | ready | held | lost
deriving DecidableEq, Repr

/-- Some query of a chunk attends a position of row r. -/
def rowRead (x : Profile) (localLen qpos t kbase r : Nat) : Bool :=
  (List.range x.p).any (fun j => (List.range t).any (fun k => attends x localLen (qpos + k) kbase (r * x.p + j)))

/-- Pages that a job's layer reads and a revive has yet to bring (R68). -/
def streamMissing (c : Chan) (j : AttnJob) : Bool :=
  let p := c.prof (c.dir j.i).profile
  match (c.dir j.i).streaming, tget j.i c.moves with
  | true, some m => (m.todo ++ m.inFlight.toList).any (fun e =>
      p.layerOf e == j.l && rowRead p j.localLen j.qpos j.t j.kbase (p.rowOf e))
  | _, _ => false

/-- The pages a job's layer reads. -/
def jobReads (c : Chan) (j : AttnJob) : List Nat := (readEntries c j.i j.l j.localLen j.qpos j.t j.kbase j.new).map (·.2)

/-- A layer of a step or of a host-issued prefill waits for pages not resident, and ends at a LOST one (R68, R78, R97, R98). -/
def jobReady (c : Chan) (j : AttnJob) : Ready :=
  let rs := (jobReads c j).map (fun d => (c.page d).residency)
  if rs.contains .lost then .lost
  else if streamMissing c j || rs.contains .spilled || rs.contains .fetching then .held
  else .ready

/-- A unit of a host-issued layer ends: poisoned inputs end it with ST_POISONED and no effect (R488); where the session has been
closed meanwhile (R149) only its reservations are returned. A prefill whose layer needs a LOST page ends with ST_PAGE_LOST and no effect (R78,
R98; log entry 100). The pages it reads or writes take the number of the next step not yet fixed as last_step: R77 names a step, and
this work belongs to none (DESIGN CHOICE, log entry 101). -/
def appendUnitDone (ch ring tag : Nat) (a : AppendArgs) (prefill : Bool) (start : Nat) (new copies : Tbl Nat) (poisoned : Bool)
    (s : State) : State :=
  let c := s.chan ch
  match opOf ring tag s with
  | none => s
  | some op =>
    if (checkHandle a.handle ch op.fn s).isSome then
      endOp op .sessionStale [] [] (s.setChan ch ((c.unreserve new).unreserve copies))
    else if prefill && jobReady c (hostJob a start new) == .lost then
      endOp op .pageLost [] [] (s.setChan ch (appendCancel a start new copies c))
    else if poisoned then endOp op .poisoned [] [] (s.setChan ch (appendCancel a start new copies c))
    else
      let c := appendStored a start c.nextStep new copies c
      let i := a.handle.index
      let c := c.queueEncodes i (touchedEntries (c.prof (c.dir i).profile) [a.layer] start a.tokens) (deviceDl ch s)
      let writes := if prefill then hostWrites c a start s.freeIx else []
      let c := if prefill then scorePages c (hostJob a start []) c.nextStep (s.freeIx + 2) else c
      let s := ({ s with freeIx := s.freeIx + 2 + c.pages.length + 16777216 }).setChan ch c
      endOp op .ok [] writes (if prefill then addSticky ch (attnBlocks (c.prof (c.dir a.handle.index).profile) a.tokens (start + a.tokens)) s else s)

/-! ### OP_ATTN_MERGE (R159, R160) -/

/-- Head dimension of a code of R105. -/
def dimOf (code : Nat) : Nat := if code = 0 then 64 else if code = 1 then 128 else if code = 2 then 192 else 256

/-- The checks of R160. -/
def mergeRanges (a : MergeArgs) : List (Nat × Nat) :=
  let d := dimOf a.headDim
  [(a.inAddr, (a.count - 1) * a.stride + a.rows * (4 * d + 8)), (a.outAddr, a.rows * d * xBytes a.oFmt)] ++
    if a.lseAddr = 0 then [] else [(a.lseAddr, a.rows * 8)]

def mergeCheck (fn : Nat) (a : MergeArgs) (s : State) : Option Status :=
  let d := dimOf a.headDim
  if a.rows = 0 then some .lenZero
  else if a.count < 2 ∨ 16 < a.count ∨ a.stride < a.rows * (4 * d + 8) ∨ !xFmtOk a.oFmt ∨ 2097152 < a.rows ∨ 3 < a.headDim then
    some .paramInvalid
  else rangesCheck fn (mergeRanges a) s

/-- A row of a part (R160): its O values, and its LSE pair behind the part's rows. -/
def hostPartRow (a : MergeArgs) (row : Nat) (bs : List Byte) : PartRow :=
  let d := dimOf a.headDim
  let w (off : Nat) : F32 := BitVec.ofNat 32 (leNat ((bs.drop off).take 4))
  ⟨w (a.rows * d * 4 + row * 8), w (a.rows * d * 4 + row * 8 + 4), valuesOf 9 d ((bs.drop (row * d * 4)).take (d * 4))⟩

/-- The parts' rows of one number. -/
def hostPartRows (a : MergeArgs) (row : Nat) : List PartRow := (List.range a.count).map (fun i => hostPartRow a row (a.parts.getD i []))

/-- The host writes of a merge (R159, R160). -/
def mergeWrites (a : MergeArgs) (ix : Nat) : List (Nat × Payload) :=
  let d := dimOf a.headDim
  [(a.outAddr, .bytes ((List.range a.rows).flatMap (fun r => mergeOut a.oFmt d a.saturate ix (r * d) (hostPartRows a r))))] ++
  if a.lseAddr = 0 then [] else [(a.lseAddr, .bytes ((List.range a.rows).flatMap (fun r => mergeLse (ix + 1) r (hostPartRows a r))))]

/-- OP_ATTN_MERGE (R160): its results are written when it ends (R387). -/
def execOpAttnMerge (d : Hdr) (a : MergeArgs) : State → Host.Outcome State Fault Refusal :=
  accept 0x22 d (fun fn ch s =>
    match mergeCheck fn a s with
    | some st => complete d 0x22 st [] [] s
    | none => addOp 0x22 d fn ch (mergeRanges a) true (.ready .ok [] (mergeWrites a s.freeIx)) { s with freeIx := s.freeIx + 2 })

end Sys2Proof.Machine
end

