-- ==== Sys2Proof/Machine/Codec.lean ====
section
/-! DEFINITION. The Condenser's formats: coded streams and their decoders GXP and GLZ (R265 to R275), CRC-32C (R279), and the raw image
of a page (R70, R71). -/

namespace Sys2Proof.Machine

open Sys2Proof

/-! ### Bits (R271: least significant first in each byte) -/

/-- The bits of a byte string. -/
def bitsOf (bs : List Byte) : List Bool := bs.flatMap (fun b => (List.range 8).map (fun i => b.getLsbD i))

/-- A field of `w` bits, its first bit bit 0. -/
def bitsNat : List Bool → Nat
  | [] => 0
  | b :: r => (if b then 1 else 0) + 2 * bitsNat r

/-- Read a field; none past the end. -/
def readBits (w : Nat) (bs : List Bool) : Option (Nat × List Bool) :=
  if bs.length < w then none else some (bitsNat (bs.take w), bs.drop w)

/-! ### GXP (R270 to R272) -/

/-- Width of the exponent and mantissa fields and element size of an element code (R270). -/
def gxpShape (elem : Nat) : Nat × Nat × Nat :=
  if elem = 0 then (8, 7, 2) else if elem = 1 then (5, 10, 2) else if elem = 2 then (4, 3, 1) else (5, 2, 1)

/-- The codewords of a length table: symbol, length, code, in canonical order (R272). -/
def gxpCodes (len : List Nat) : List (Nat × Nat × Nat) :=
  ((List.range 15).foldl (fun (acc : List (Nat × Nat × Nat) × Nat) l0 =>
    let l := l0 + 1
    let step := (List.range 16).foldl (fun (a : List (Nat × Nat × Nat) × Nat) x =>
      if len.getD x 0 = l then (a.1 ++ [(x, l, a.2)], a.2 + 1) else a) acc
    (step.1, step.2 * 2)) ([], 0)).1

/-- The table is a prefix code: no codeword outgrows its length. -/
def gxpCodesOk (cs : List (Nat × Nat × Nat)) : Bool := cs.all (fun c => decide (c.2.2 < 2 ^ c.2.1))

/-- Read one codeword, most significant bit first. -/
def gxpSymbol (cs : List (Nat × Nat × Nat)) : Nat → Nat → Nat → List Bool → Option (Nat × List Bool)
  | 0, _, _, _ => none
  | n + 1, l, code, bs =>
    match bs with
    | [] => none
    | b :: r =>
      let code := 2 * code + (if b then 1 else 0)
      match cs.find? (fun c => c.2.1 == l + 1 && c.2.2 == code) with
      | some c => some (c.1, r)
      | none => gxpSymbol cs n (l + 1) code r

/-- The exponent fields of n elements (R272). -/
def gxpFields (cs : List (Nat × Nat × Nat)) (base w : Nat) : Nat → List Bool → Option (List Nat)
  | 0, _ => some []
  | n + 1, bs =>
    match gxpSymbol cs 15 0 0 bs with
    | none => none
    | some (x, r) =>
      if x = 15 then
        match readBits w r with
        | none => none
        | some (f, r) => (gxpFields cs base w n r).map (f :: ·)
      else
        let f := if x % 2 = 0 then (base + x / 2) % 2 ^ w else (base + 2 ^ w - (x + 1) / 2 % 2 ^ w) % 2 ^ w
        (gxpFields cs base w n r).map (f :: ·)

/-- A GXP body (R271); none when malformed. -/
def gxpBody (elem base rawLen : Nat) (body : List Byte) : Option (List Byte) :=
  let (w, mb, e) := gxpShape elem
  let n := rawLen / e
  let lens := (List.range 16).map (fun x => leNat (body.take 8) / 16 ^ x % 16)
  let cs := gxpCodes lens
  let nSign := (n + 7) / 8
  let nMan := (n * mb + 7) / 8
  if rawLen % e ≠ 0 ∨ body.length < 8 + nSign + nMan ∨ !gxpCodesOk cs then none
  else
    let sign := bitsOf ((body.drop 8).take nSign)
    let man := bitsOf ((body.drop (8 + nSign)).take nMan)
    match gxpFields cs base w n (bitsOf (body.drop (8 + nSign + nMan))) with
    | none => none
    | some fs => some ((List.range n).flatMap (fun i =>
        natLE e ((if sign.getD i false then 2 ^ (w + mb) else 0) + fs.getD i 0 * 2 ^ mb + bitsNat ((man.drop (i * mb)).take mb))))

/-! ### GLZ (R273 to R275) -/

/-- The counts of the present symbols, with the bits left (R273). -/
def glzCounts (tl : Nat) : List Nat → List Bool → Option (List (Nat × Nat) × List Bool)
  | [], bs => some ([], bs)
  | x :: r, bs =>
    match readBits (tl + 1) bs with
    | none => none
    | some (k, bs) => (glzCounts tl r bs).map (fun t => ((x, k) :: t.1, t.2))

/-- The decoding table: symbol by position, then bits and base by state (R274). -/
def glzTable (counts : List (Nat × Nat)) (tl : Nat) : List (Nat × Nat × Nat) :=
  let size := 2 ^ tl
  let step := size / 2 + size / 8 + 3
  let order := counts.flatMap (fun c => List.replicate c.2 c.1)
  let sym : Tbl Nat := ((List.range order.length).foldl (fun (a : Tbl Nat × Nat) j =>
    (tset a.2 (order.getD j 0) a.1, (a.2 + step) % size)) (([] : Tbl Nat), 0)).1
  ((List.range size).foldl (fun (a : List (Nat × Nat × Nat) × Tbl Nat) x =>
    let s := (tget x sym).getD 0
    let k := (tget s a.2).getD 1
    let nb := tl - Nat.log2 k
    (a.1 ++ [(s, nb, k * 2 ^ nb - size)], tset s (k + 1) a.2)) (([] : List (Nat × Nat × Nat)), counts)).1

/-- The literals after the first state is read (R274). -/
def glzLiterals (tbl : List (Nat × Nat × Nat)) : Nat → Nat → List Bool → Option (List Byte)
  | 0, _, _ => some []
  | n + 1, x, bs =>
    match tbl[x]? with
    | none => none
    | some (s, nb, base) =>
      if n = 0 then some [BitVec.ofNat 8 s]
      else
        match readBits nb bs with
        | none => none
        | some (v, bs) => (glzLiterals tbl n (base + v) bs).map (BitVec.ofNat 8 s :: ·)

/-- A match copied byte by byte from behind the output (R275). -/
def glzCopy (off : Nat) : Nat → List Byte → List Byte
  | 0, out => out
  | n + 1, out => glzCopy off n (out ++ [out.getD (out.length - off) 0])

/-- The sequences in order (R273, R275): literal length, match length, offset. -/
def glzRun (rawLen : Nat) : List (Nat × Nat × Nat) → List Byte → List Byte → Option (List Byte)
  | [], _, out => if out.length = rawLen then some out else none
  | (ll, ml, off) :: r, lits, out =>
    let out := out ++ lits.take ll
    if lits.length < ll ∨ rawLen < out.length + ml ∨ (ml ≠ 0 ∧ (off = 0 ∨ out.length < off ∨ ml < 3)) then none
    else glzRun rawLen r (lits.drop ll) (glzCopy off ml out)

/-- A GLZ body (R273); none when malformed. -/
def glzBody (tl seqs rawLen : Nat) (body : List Byte) : Option (List Byte) :=
  let syms := (List.range 256).filter (fun x => (body.getD (x / 8) 0).getLsbD (x % 8))
  let cbytes := (syms.length * (tl + 1) + 7) / 8
  if body.length < 32 + cbytes + 5 * seqs ∨ tl < 5 ∨ 11 < tl then none
  else
    match glzCounts tl syms (bitsOf ((body.drop 32).take cbytes)) with
    | none => none
    | some (counts, _) =>
      let rest := body.drop (32 + cbytes)
      let sq := (List.range seqs).map (fun i =>
        let v := leNat ((rest.drop (5 * i)).take 5)
        (v % 8192, v / 8192 % 8192, v / 67108864 % 4096))
      let total := (sq.map (fun q => q.1)).sum
      if total = 0 then glzRun rawLen sq [] []
      else if (counts.map (fun c => c.2)).sum ≠ 2 ^ tl then none
      else
        match readBits tl (bitsOf (rest.drop (5 * seqs))) with
        | none => none
        | some (x, bs) =>
          match glzLiterals (glzTable counts tl) total x bs with
          | none => none
          | some lits => glzRun rawLen sq lits []

/-! ### Streams (R265 to R269) -/

/-- The bytes a decoder writes for a malformed block: unspecified (R269). -/
def malformed (ix off n : Nat) : List Byte := (List.range n).map (fun i => Config.malformedByte ix (off + i))

/-- One block's raw bytes (R266, R267). -/
def decodeBlock (ix off : Nat) (hdr body : List Byte) (rawLen : Nat) : List Byte :=
  let h := leNat (hdr.take 2)
  let r := leNat ((hdr.drop 2).take 2)
  let aux := leNat ((hdr.drop 4).take 4)
  let kind := h / 8192 % 4
  let out : Option (List Byte) :=
    if kind = 0 then (if body.isEmpty then some (List.replicate rawLen 0) else none)
    else if kind = 2 then (if body.length = rawLen then some body else none)
    else if kind = 1 ∧ r / 8192 % 4 = 1 then gxpBody (aux % 4) (aux / 256 % 256) rawLen body
    else if kind = 1 ∧ r / 8192 % 4 = 2 then glzBody (aux % 16) (aux / 65536 % 2048) rawLen body
    else none
  out.getD (malformed ix off rawLen)

/-- A coded stream decoded to at most `left` raw bytes (R265): every block but the last is full, and what follows a short one is malformed. -/
def decodeStream (ix : Nat) : Nat → Nat → Nat → List Byte → List Byte
  | 0, off, left, _ => malformed ix off left
  | n + 1, off, left, bs =>
    if left = 0 ∨ (bs.take 8).all (· == 0) then []
    else
      let bodyLen := leNat (bs.take 2) % 8192
      let rawLen := leNat ((bs.drop 2).take 2) % 8192
      if rawLen = 0 ∨ 4096 < rawLen ∨ left < rawLen ∨ bs.length < 8 + bodyLen then malformed ix off left
      else
        let next := bs.drop (8 + (bodyLen + 7) / 8 * 8)
        decodeBlock ix off (bs.take 8) ((bs.drop 8).take bodyLen) rawLen ++
          if rawLen < 4096 ∧ rawLen < left ∧ !(next.take 8).all (· == 0) then malformed ix (off + rawLen) (left - rawLen)
          else decodeStream ix n (off + rawLen) (left - rawLen) next

/-- A plaintext's raw bytes under a codec (R276). -/
def plainRaw (ix codec rawLen : Nat) (plain : List Byte) : List Byte :=
  if codec = 0 then plain.take rawLen else decodeStream ix (plain.length / 8 + 1) 0 rawLen plain

/-- The K and V rows of a raw page image with `fill` positions (R70, R71). -/
def pageRows (x : Profile) (fill : Nat) (raw : List Byte) : List (List Byte) × List (List Byte) :=
  let n := x.d * x.e
  ((List.range fill).map (fun p => (raw.drop (p * n)).take n),
   (List.range fill).map (fun p => (raw.drop (x.p * n + p * n)).take n))

/-! ### Check words (R279) -/

/-- One bit step of the reflected CRC-32C. -/
def crc32cBit (c : BitVec 32) : BitVec 32 := if c.getLsbD 0 then (c >>> 1) ^^^ 0x82F63B78#32 else c >>> 1

def crc32cByte (c : BitVec 32) (b : Byte) : BitVec 32 :=
  (List.range 8).foldl (fun c _ => crc32cBit c) (c ^^^ b.setWidth 32)

/-- CRC-32C of a byte string. -/
def crc32c (bs : List Byte) : BitVec 32 := (bs.foldl crc32cByte 0xFFFFFFFF#32) ^^^ 0xFFFFFFFF#32

/-- The check table of a ciphertext. -/
def checkTable : Nat → List Byte → List (BitVec 32)
  | 0, _ => []
  | n + 1, bs => if bs.isEmpty then [] else crc32c (bs.take 512) :: checkTable n (bs.drop 512)

end Sys2Proof.Machine
end

