-- ==== Sys2Proof/Machine/Net.lean ====
section
/-! DEFINITION. Requests over the fabric (R435, R437): tags, what may be sent, the match of a response, and failure reports to the peer
health table (R490, R491). -/

namespace Sys2Proof.Machine

open Sys2Proof

/-! ### Segments (R140, R145, R215) -/

/-- The segments of a part in offset order: 4,080 B of data at most in each, the last one with last = 1. -/
def cutSegs (g : Seg) : Nat → Nat → List Byte → List Seg
  | 0, _, _ => []
  | n + 1, off, bs =>
    match bs with
    | [] => []
    | _ :: _ =>
      let d := bs.take 4080
      let r := bs.drop 4080
      { g with offset := off, len := d.length, last := r.isEmpty, data := d } :: cutSegs g n (off + d.length) r

/-- The 16 B header of a segment and its data (R140, R215). -/
def Seg.bytes (g : Seg) : List Byte :=
  natLE 4 g.stepLo ++ natLE 2 g.slot ++ natLE 1 g.layer ++ natLE 1 (g.part + (if g.last then 8 else 0) + 16 * g.rank) ++ natLE 4 g.offset ++
    natLE 2 g.len ++ natLE 2 g.status ++ g.data

/-- A part leaves in segments, padded to a multiple of 16 B: `at_` is its layer, or its row for sampling. -/
def emitPart (sample : Bool) (ch fid unit step slot at_ part rank : Nat) (st : Status) (bs : List Byte) (s : State) : State :=
  let bs := pad16 bs
  (cutSegs ⟨step % 4294967296, slot, at_, part, false, rank, 0, 0, statusCode st, []⟩ (bs.length / 4080 + 1) 0 bs).foldl
    (fun s g => s.emit (.segment sample ch fid unit g)) s

/-- Requests whose response is at hand are no longer outstanding. -/
def answerReqs (f : ReqKind → Bool) (s : State) : State :=
  { s with reqs := s.reqs.filter (fun r => !f r.kind), reqWait := s.reqWait.filter (fun w => !f w.1.kind) }

/-- A packet is discarded and counted in JLK_BAD_PKT (R435, R436). -/
def badPacket (port : Nat) (s : State) : State := s.modPort port (fun p => { p with badPkt := wrap64 (p.badPkt + 1) })

/-- A packet from the fabric reaches its unit (R16, R434, R436): one for another device, or for a unit of another port, is a misroute;
one for a reserved unit is a bad packet. -/
def arrive (p : Pkt) (f : State → State) (s : State) : State :=
  if 8 < p.dstUnit then badPacket p.port s
  else if p.dstFid ≠ s.fid ∨ p.dstUnit ≠ p.port then s.modPort p.port (fun q => { q with misroute := wrap64 (q.misroute + 1) })
  else f s

/-- The response to a packet: from its unit to its source, the tag copied (R435, R437). -/
def respond (p : Pkt) (op : PktOp) (st : Status) (addr : Nat) (d : Payload) (s : State) : State :=
  s.emit (.packet op p.dstUnit p.srcFid p.srcUnit p.req p.fn p.gen st addr d)

/-- The outstanding request that a response answers: same unit and tag, from the unit it was sent to (R435). -/
def matchReq (p : Pkt) (s : State) : Option Request :=
  s.reqs.find? (fun r => r.unit == p.dstUnit && r.left.contains p.req && r.dstFid == p.srcFid && r.dstUnit == p.srcUnit)

/-- One packet of a request is answered (R435): with the last one, or with the first that fails, the request has its outcome; the others stay
outstanding until they are answered. Poison of any of them stays with the request. -/
def answerTag (r : Request) (p : Pkt) (s : State) : Option Request × State :=
  let rest := r.left.erase p.req
  let r' := { r with left := rest, poison := r.poison || p.poison }
  if rest.isEmpty then (some r', dropReq r s)
  else if p.status ≠ 0 then (some r', { s with reqs := s.reqs.map (fun q => if q = r then { r' with kind := .stale } else q) })
  else (none, { s with reqs := s.reqs.map (fun q => if q = r then r' else q) })

/-- A response taken: its request, once it has its outcome. One that matches none is counted as a bad packet; one of an older
generation is discarded and counted in late_rsp (R404, R405, R435). -/
def takeRsp (p : Pkt) (s : State) : Option Request × State :=
  match matchReq p s with
  | none =>
    if p.fn ≠ 0 ∧ p.gen ≠ (s.fn p.fn).resetGen % 256 then (none, s.modFn p.fn (fun f => { f with lateRsp := wrap64 (f.lateRsp + 1) }))
    else (none, badPacket p.port s)
  | some r =>
    if r.gen ≠ (s.fn r.fn).resetGen % 256 then
      (none, (dropReq r s).modFn r.fn (fun f => { f with lateRsp := wrap64 (f.lateRsp + 1) }))
    else answerTag r p s

/-- The status a response carries (R395); a code the device does not know stands for an unreachable peer (log entry 20). -/
def statusOfCode (n : Nat) : Status :=
  ([.ok, .opcodeInvalid, .descSize, .ringTarget, .notPermitted, .paramInvalid, .lenZero, .lenExceedsBuffer, .bufInvalid, .bufBusy,
    .abortedReset, .rateExceeded, .waitTimeout, .channelOffline, .roleMismatch, .channelFailed, .mgmtBusy, .cfgResourceConflict,
    .peerUnreachable, .poisoned, .noSpace, .rollback, .accessViolation, .extentRevoked, .extentState, .leaseFull] : List Status).find?
    (fun st => statusCode st == n) |>.getD .peerUnreachable

/-- A failure report (R491): the table's entry, EV_PEER_DOWN once per generation, and the outstanding requests to the unit, which
fail with ST_PEER_UNREACHABLE. -/
def report (fid unit port cause : Nat) (s : State) : State × List Request :=
  if 80 ≤ fid then (s, [])
  else
    let e := s.peer fid
    let fresh := !e.down
    let e := { e with reports := if fresh then 1 else satTo 4294967295 (e.reports + 1) }
    let e : Peer := if fresh then
        { e with down := true, generation := (e.generation + 1) % 65536, firstPort := port, cause := cause, since := s.now, units := 0 }
      else e
    let s := s.setPeer fid e
    let s := if fresh then
        raiseEvent 1 (.peerDown fid e.generation unit cause port) 8 (raiseEvent 0 (.peerDown fid e.generation unit cause port) 8 s)
      else s
    if e.units.getLsbD unit then (s, [])
    else
      let s := s.setPeer fid { e with units := e.units ||| BitVec.ofNat 9 (2 ^ unit) }
      let hit (r : Request) : Bool := r.dstFid == fid && r.dstUnit == unit
      let lost := s.reqs.filter hit ++ (s.reqWait.filter (fun w => hit w.1)).map (·.1)
      ({ s with reqs := s.reqs.filter (fun r => !hit r), reqWait := s.reqWait.filter (fun w => !hit w.1) }, lost)

end Sys2Proof.Machine
end

