-- ==== Sys2Proof/Machine/Park.lean ====
section
/-! DEFINITION. Envelopes (R276 to R281), park and revive (R64 to R69), demotion, spill and fetch (R93 to R98), encoding (R84), and the
scrub of freed runs (R468). -/

namespace Sys2Proof.Machine

open Sys2Proof

/-! ### Regions of T3 and T4 (R96) -/

/-- The word of CHN_KV_T3_REGION in effect. -/
def t3Word (n : Nat) (s : State) : Nat := eff (chanBase n + 0x050) s

/-- The bounds of a tier's region in granules; empty where no region is set. An extent of this device gives its own bounds; another
device's are not told to the channel (log entry 21). -/
def regionBounds (n t : Nat) (s : State) : Nat × Nat :=
  if t = 3 then
    let v := t3Word n s
    if fieldOf v 24 1 = 0 then (0, 0)
    else if fieldOf v 0 6 = s.fid then
      match tget (64 * fieldOf v 9 6 + fieldOf v 15 6) (s.chan (fieldOf v 6 3)).pool.extents with
      | some x => (x.pOff / 16384, (x.pOff + x.length) / 16384)
      | none => (0, 0)
    else (Config.t3Base v % 2 ^ 41, Config.t3Base v % 2 ^ 41 + Config.t3Granules v % 2 ^ 22)
  else
    let v := eff (chanBase n + 0x058) s
    let w := eff (chanBase n + 0x060) s
    if fieldOf w 7 1 = 0 then (0, 0) else (fieldOf v 14 50 % 2 ^ 48, fieldOf v 14 50 % 2 ^ 48 + fieldOf w 8 48)

/-- A channel whose T3 and T4 allocators run over the regions in effect. -/
def Chan.withRegions (c : Chan) (n : Nat) (s : State) : Chan :=
  let b3 := regionBounds n 3 s
  let b4 := regionBounds n 4 s
  { c with t3 := { c.t3 with lo := b3.1, hi := b3.2 }, t4 := { c.t4 with lo := b4.1, hi := b4.2 } }

/-- A run of a class in T2, T3 or T4, its location based at the region's. -/
def Chan.takeIn (c : Chan) (t base k : Nat) : Option Loc × Chan :=
  let r := (c.tier t).take k
  (r.1.map (fun g => ⟨t, base + g⟩), c.setTier t r.2)

/-- Where an access to a location goes: the fabric ID, the unit and the address (R329, R343, R440). -/
def locTarget (n : Nat) (l : Loc) (s : State) : Nat × Nat × Nat :=
  if l.tier = 3 then
    let v := t3Word n s
    (fieldOf v 0 6, fieldOf v 6 3, fieldOf v 9 6 + locGranule l * 16384 * 256)
  else (0x40 + l.granule / 2 ^ 52, 0, locGranule l * 16384)

/-! ### Envelopes -/

/-- The bytes of an envelope of a mode and a body length (R277). -/
def framed (mode len : Nat) : Nat := (48 + len + (if mode = 0 then (len + 511) / 512 * 4 else 0) + 255) / 256 * 256

/-- The class of a run that holds n bytes. -/
def classFor (n : Nat) : Nat := classOf (ceilDiv n 16384)

/-- An object of n bytes fits the largest run (R86). -/
def fitsRun (n : Nat) : Bool := decide (n ≤ 524288)

/-- The length of a stream the encoder writes: blocks are multiples of 8 bytes (R265, R268). -/
def codedBytes (ix : Nat) : Nat := 8 * (Config.codedLen ix + 1)

/-- The codec and length of an envelope's plaintext for an image (R276): `codec` and `len` those of a stored coded form, `want` the
codec an encoding on the way would take. -/
def plainOf (mode codec len want raw ix : Nat) : Nat × Nat :=
  if mode ≠ 0 then (0, raw)
  else if codec ≠ 0 then (codec, len)
  else if want = 0 then (0, raw)
  else if codedBytes ix < raw then (want, codedBytes ix)
  else (0, raw)

/-- The plaintext of a page's envelope. -/
def pagePlain (x : Profile) (p : Page) (ix : Nat) : Nat × Nat := plainOf p.mode p.codec p.len x.kvCodec x.rawBytes ix

/-- An envelope is sealed under a key slot: its counter rises (R280). A slot at its last count seals nothing. -/
def Chan.seal (c : Chan) (slot : Nat) : Option Chan :=
  let k := (tget slot c.keys).getD {}
  if 0xFFFFFFFFFFFFFFFF ≤ k.counter then none else some { c with keys := tset slot { k with counter := k.counter + 1 } c.keys }

/-- The 32 bytes of an envelope's header (R277). -/
def envHeader (e : Envelope) : List Byte :=
  natLE 4 e.magic ++ natLE 1 (e.mode + 4 * e.codec) ++ natLE 1 e.keySlot ++ natLE 2 0 ++ natLE 4 e.keyGen ++ e.nonce.take 12 ++
    natLE 4 e.bodyLen ++ natLE 4 0

/-- The 12 bytes of a nonce (R277): the slot's counter, the channel, the slot. -/
def nonceBytes (counter fid ch slot : Nat) : List Byte := natLE 12 (counter + fid * 2 ^ 64 + ch * 2 ^ 70 + slot * 2 ^ 73)

/-- The header of an envelope a channel seals under a slot as it stands (R277, R280). -/
def sealedHeader (c : Chan) (fid ch slot mode codec body : Nat) : List Byte :=
  let k := (tget slot c.keys).getD {}
  natLE 4 0x31564E45 ++ natLE 1 (mode + 4 * codec) ++ natLE 1 slot ++ natLE 2 0 ++ natLE 4 k.keyGen ++
    nonceBytes k.counter fid ch slot ++ natLE 4 body ++ natLE 4 0

/-- An envelope a channel writes: its header, and ciphertext, tag, check table and padding, which are free. -/
def envelopeOut (c : Chan) (fid ch slot mode codec body ix : Nat) : Payload :=
  .framed (sealedHeader c fid ch slot mode codec body) ix (framed mode body - 32)

/-- The 16-byte binding of a spill or park envelope (R278). -/
def envBinding (fid ch purpose : Nat) (l : Loc) : List Byte :=
  natLE 8 (locWord l) ++ natLE 8 (fid + 64 * ch + 512 * purpose)

/-- What the reader of an envelope expects of it. -/
structure Expect where
  mode : Nat
  codec : Nat
  stored : Nat
  slot : Nat
  binding : List Byte
deriving DecidableEq, Repr

/-- The steps of R281: the plaintext, or the step that rejected it (1 header, 2 check word, 3 tag). -/
def openEnvelope (c : Chan) (x : Expect) (e : Envelope) : Except Nat (List Byte) :=
  let k := (tget x.slot c.keys).getD {}
  if e.magic ≠ 0x31564E45 ∨ e.mode ≠ x.mode ∨ e.codec ≠ x.codec ∨ e.keySlot ≠ x.slot ∨ e.keyGen ≠ k.keyGen ∨ !k.loaded ∨
      framed e.mode e.bodyLen ≠ x.stored ∨ e.body.length ≠ e.bodyLen then .error 1
  else if e.mode = 0 ∧ e.crcs ≠ checkTable (e.body.length + 1) e.body then .error 2
  else
    match Config.gcmOpen k.key e.nonce (envHeader e ++ x.binding) e.body e.tag with
    | some p => .ok p
    | none => .error 3

/-- A rejection is counted (R281). -/
def Chan.countReject (c : Chan) (step : Nat) : Chan :=
  if step = 1 then { c with cdnHdrErr := wrap64 (c.cdnHdrErr + 1) }
  else if step = 2 then { c with cdnCrcErr := wrap64 (c.cdnCrcErr + 1) }
  else { c with cdnTagErr := wrap64 (c.cdnTagErr + 1) }

/-- The envelope a page's stored image is read from. -/
def pageExpect (fid ch : Nat) (p : Page) : Expect :=
  ⟨p.mode, p.codec, p.storedLen * 256, 0, envBinding fid ch p.purpose p.loc⟩

/-- A page whose plaintext stands at a run of T1 or T2 (R276). -/
def pageFrom (x : Profile) (p : Page) (l : Loc) (plain : List Byte) (ix : Nat) : Page :=
  let rows := pageRows x p.fill (plainRaw ix p.codec x.rawBytes plain)
  { p with loc := l, sizeClass := classFor plain.length, residency := .resident, storedLen := (plain.length + 255) / 256
           len := plain.length, purpose := 0, dest := none, k := rows.1, v := rows.2 }

/-- The bytes of a page's envelope (R80, R86). -/
def Page.bytesOut (p : Page) : Nat := p.storedLen * 256

/-- The descriptor of a page written to T3 or T4 (R86, R95). -/
def pageOut (p : Page) (l : Loc) (codec len purpose : Nat) : Page :=
  { p with loc := l, sizeClass := classFor (framed p.mode len), codec := codec, len := len, storedLen := framed p.mode len / 256
           residency := .spilled, purpose := purpose, dest := none }

/-! ### Park (R64 to R66) -/

/-- A copy in flight of a page is abandoned: its destination is freed and the page is as before (R95, R103). -/
def Chan.abandonCopy (c : Chan) (d : Nat) : Chan :=
  let p := c.page d
  match p.dest with
  | none => c
  | some (l, k) =>
    let c := c.freeRunOf d l k
    c.modPage d (fun p => { p with dest := none, residency := if p.residency = .fetching then .spilled else .resident })

/-- The map entries of a session's pages that a park moves: valid, not shared, not LOST (R64, R49). -/
def parkEntries (c : Chan) (i : Nat) : List (Nat × Nat) :=
  ((c.map i).filter (fun m => m.2.valid && decide (c.share m.2.desc ≤ 1) && (c.page m.2.desc).residency != .lost)).map
    (fun m => (m.1, m.2.desc))

/-- A destination for one page: none where the park leaves it where it is. To T2 pages move from T1 only (R66); to T3 or T4 every page moves, a
SPILLED one too (R64), but one in MODE_N, which is never written there (R87), and one whose framed image fits no run (R86). The first part
says whether space failed. -/
def parkOne (w : Wm) (tier base ix : Nat) (x : Profile) (p : Page) (e : Nat) (c : Chan) : Bool × Option (Loc × Nat × Nat) × Chan :=
  if tier = 2 then
    if p.residency = .spilled ∨ p.loc.tier = 2 then (true, none, c)
    else
      match c.takeT2 w p.pin p.sizeClass with
      | (some l, c) => (true, some (l, p.codec, p.len), c)
      | (none, c) => (false, none, c)
  else if p.mode = 1 then (true, none, c)
  else
    let pl := if p.residency = .spilled then (p.codec, p.len) else pagePlain x p (ix + e)
    if !fitsRun (framed p.mode pl.2) then (true, none, c)
    else
      match c.takeIn tier base (classFor (framed p.mode pl.2)) with
      | (some l, c) => (true, some (l, pl.1, pl.2), c)
      | (none, c) => (false, none, c)

/-- Destinations for all pages, or none. -/
def parkPages (w : Wm) (tier base ix : Nat) (x : Profile) : List (Nat × Nat) → Chan → Tbl (Loc × Nat × Nat) →
    Option (Tbl (Loc × Nat × Nat)) × Chan
  | [], c, acc => (some acc, c)
  | (e, d) :: r, c, acc =>
    match parkOne w tier base ix x (c.page d) e c with
    | (false, _, c) => (none, c)
    | (true, none, c) => parkPages w tier base ix x r c acc
    | (true, some q, c) => parkPages w tier base ix x r c (tset e q acc)

/-- The bytes an object of a codec and a plaintext length takes at a park tier: an envelope at T3 or T4, as it is at T2. -/
def parkedBytes (tier mode : Nat) (f : Nat × Nat) : Nat := if tier = 2 then f.2 else framed mode f.2

/-- Runs for objects of given forms in a tier. -/
def Chan.takeRuns (c : Chan) (tier base mode : Nat) : List (Nat × Nat) → Option (List (Loc × Nat × Nat)) × Chan
  | [] => (some [], c)
  | f :: r =>
    match c.takeIn tier base (classFor (parkedBytes tier mode f)) with
    | (none, c) => (none, c)
    | (some l, c) =>
      match Chan.takeRuns c tier base mode r with
      | (some ls, c) => (some ((l, f) :: ls), c)
      | (none, c) => (none, c)

/-- Leaves of 256 entries that a session's parked map needs (R48). -/
def parkLeaves (x : Profile) (len : Nat) : Nat := ((len + x.p - 1) / x.p * x.layers * x.kvHeads + 255) / 256

/-- The codec and plaintext length of the block, the root, the leaves and the input-queue granules as a park stores them (R44, R48, R206,
R276). -/
def parkStateForms (tier mode leaves queue ix : Nat) : List (Nat × Nat) :=
  let raw := [32768, max 8 (8 * leaves)] ++ List.replicate (leaves + queue) 16384
  (List.range raw.length).map (fun j => if tier = 2 then (0, raw.getD j 0) else plainOf mode 0 0 2 (raw.getD j 0) (ix + j))

/-- The reservation of a park (R64): page destinations and the runs of the session's state, or nothing. -/
def parkPlan (n i ix : Nat) (s : State) : Option (Tbl (Loc × Nat × Nat) × List (Loc × Nat × Nat)) × Chan :=
  let c0 := (s.chan n).withRegions n s
  let e := c0.dir i
  let x := c0.prof e.profile
  let base := regionBase n e.parkTier s
  let es := parkEntries c0 i
  let c := es.foldl (fun c q => c.abandonCopy q.2) c0
  match parkPages (wmOf n s) e.parkTier base ix x es c [] with
  | (none, f) => (none, c0.withFails f)
  | (some plan, c) =>
    match c.takeRuns e.parkTier base e.stackMode (parkStateForms e.parkTier e.stackMode (parkLeaves x e.kvLen)
        (c.queue i).granules.length (ix + 16777216)) with
    | (none, f) => (none, c0.withFails f)
    | (some runs, c) => (some (plan, runs), c)

/-- A page stands at its park tier: its descriptor switches and its old run is freed (R64, R66). -/
def parkSwitch (i d : Nat) (q : Loc × Nat × Nat) (c : Chan) : Chan :=
  let p := c.page d
  let c := c.freeOf i p.loc
  c.modPage d (fun p => if q.1.tier = 2 then { p with loc := q.1 } else pageOut p q.1 q.2.1 q.2.2 2)

/-- The parked entry of a map entry (R48): a page that stays has `kept`, a moved one its descriptor's image. The entry's layout has no bit for
the mark of a dropped page: the model keeps the mark beside it (DESIGN CHOICE, log entry 114), as a drop is final (R101). -/
def parkedEntry (c : Chan) (tier : Nat) (m : MapEntry) : ParkedEntry :=
  if !m.valid then ⟨0, false, false, {}, m.dropped⟩
  else
    let p := c.page m.desc
    if decide (c.share m.desc ≤ 1) && (p.residency == .spilled || (tier == 2 && p.loc.tier == 2 && p.residency == .resident)) then
      ⟨0, false, true, if p.loc.tier = 2 then p else { p with k := [], v := [] }, false⟩
    else ⟨m.desc, true, true, {}, false⟩

/-- The park ends (R64): the parked map, the descriptors of moved pages freed, block, map and queue at their runs (R206), PARKED. -/
def parkEnd (i tier : Nat) (runs : List (Loc × Nat × Nat)) (c : Chan) : Chan :=
  let pm := (c.map i).map (fun m => (m.1, parkedEntry c tier m.2))
  let c := (c.map i).foldl (fun c m =>
    let q := parkedEntry c tier m.2
    if q.valid && !q.kept then { c with pages := tdel m.2.desc c.pages, shares := tdel m.2.desc c.shares } else c) c
  let c := (c.leavesOf i).foldl (fun c l => c.freeOf i l.2) c
  let q := c.queue i
  let c := q.granules.foldl (fun c l => c.freeOf i l) c
  let c := if q.granules.isEmpty then c
    else c.setQueue i { q with granules := (runs.drop (runs.length - q.granules.length)).map (·.1) }
  let e := c.dir i
  let c := (c.freeOf i e.sblk).freeOf i e.pmap
  let loc (k : Nat) : Loc := match runs[k]? with | some r => r.1 | none => ⟨0, 0⟩
  let c := c.setDir i { e with state := .parked, sblk := loc 0, pmap := loc 1 }
  { c with maps := tdel i c.maps, leaves := tdel i c.leaves, parkedMaps := tset i pm c.parkedMaps, parkRuns := tset i runs c.parkRuns
           moves := tdel i c.moves }

/-- The session is PARKING (R31, R64). -/
def parkEnter (i : Nat) (c : Chan) : Chan :=
  let c := (c.touch i none).leaveAsq i
  c.modDir i (fun e => { e with savedState := e.state, state := .parking })

/-- The outstanding park of a session. -/
def parkOp (ch i : Nat) (s : State) : Option RunOp := s.ops.find? (fun o => o.kind == .park ch i)

/-- What the end of a park or of a revive calls on: the queued operations of a session run (R51), and a session's unfinished sequences complete
their step with a status (R69). -/
structure Hooks where
  pend : Nat → Nat → State → State
  failWaiting : Nat → Nat → Status → State → State

/-- A park that ends in the command that accepted it has nothing queued. -/
def noPend (_ _ : Nat) (s : State) : State := s

/-- A write to the park tier failed (R65): unused runs are freed, the session returns to its saved state, the PARK completes with the pages
moved, and the queued operations run (R51). Where that state is RUNNABLE and the active sequence table is full, the session takes STOPPED
with reason 10, as R67 has it for a revive (DESIGN CHOICE, log entry 115: R65 does not say). -/
def parkFail (pend : Nat → Nat → State → State) (ch i : Nat) (s : State) : State :=
  match tget i (s.chan ch).moves with
  | none => s
  | some m =>
    let c := s.chan ch
    let c : Chan := m.todo.foldl (fun (c : Chan) e => match tget e m.plan with | some q => c.freeLoc q.1 | none => c) c
    let c : Chan := m.runs.foldl (fun (c : Chan) r => c.freeLoc r.1) c
    let c : Chan := { c with moves := tdel i c.moves }
    let e : Dir := c.dir i
    let c := c.setDir i { e with state := e.savedState }
    let c := if e.savedState = .runnable then
        (match c.enterAsq (handleOf ch i s) s.now with
         | some c => c
         | none => (match c.sblk i with | some b => c.setSblk i { b with stopReason := 10 } | none => c).modDir i
            (fun e => { e with state := .stopped }))
      else c
    let s := dropReqs (fun k => match k with | .parkWrite c j _ => c == ch && j == i | .parkRead c j _ => c == ch && j == i | _ => false)
      (s.setChan ch c)
    pend ch i (match parkOp ch i s with
      | some op => endOp op .parkIncomplete [m.moved] [] s
      | none => s)

/-- The write of one object of a park, of a mode, a codec and a plaintext length, is sent, or the park fails. -/
def parkSend (pend : Nat → Nat → State → State) (ch i entry : Nat) (l : Loc) (mode : Nat) (f : Nat × Nat) (s : State) : State :=
  let c' := s.chan ch
  match c'.seal 0 with
  | none => parkFail pend ch i s
  | some c =>
    let (fid, unit, addr) := locTarget ch l s
    let s := s.setChan ch c
    match sendReq ch fid unit 0 (.parkWrite ch i entry) .writeBulk addr (envelopeOut c' s.fid ch 0 mode f.1 f.2 s.freeIx) s with
    | .ok s => s.advanceFree
    | .error _ => parkFail pend ch i s

/-- A SPILLED page that a park moves is read first. -/
def parkFetch (pend : Nat → Nat → State → State) (ch i entry len : Nat) (l : Loc) (s : State) : State :=
  let (fid, unit, addr) := locTarget ch l s
  match sendReq ch fid unit 0 (.parkRead ch i entry) .readReqBulk addr (.ask len) s with
  | .ok s => s
  | .error _ => parkFail pend ch i s

/-- The page of a park's entry goes to its destination, framed in its own mode (R86). -/
def parkPage (pend : Nat → Nat → State → State) (ch i e : Nat) (q : Loc × Nat × Nat) (s : State) : State :=
  let c := s.chan ch
  parkSend pend ch i e q.1 (match c.pageAt i e with | some d => (c.page d).mode | none => (c.dir i).stackMode) q.2 s

/-- The next object of a park: pages in map order, then the block, the root, the leaves and the queue; then the park ends and the queued
operations run (R51). -/
def parkGo (pend : Nat → Nat → State → State) (ch i : Nat) (s : State) : State :=
  match tget i (s.chan ch).moves with
  | none => s
  | some m =>
    match m.todo with
    | e :: _ =>
      match tget e m.plan with
      | some q =>
        let c := s.chan ch
        let s := s.modChan ch (fun c => { c with moves := tset i { m with inFlight := some e } c.moves })
        (match c.pageAt i e with
         | some d => if (c.page d).residency = .spilled then parkFetch pend ch i e (c.page d).bytesOut (c.page d).loc s else parkPage pend ch i e q s
         | none => parkPage pend ch i e q s)
      | none => s
    | [] =>
      match m.runs[m.stage]? with
      | some r => parkSend pend ch i 0 r.1 ((s.chan ch).dir i).stackMode r.2 (s.modChan ch (fun c => { c with moves := tset i { m with inFlight := none } c.moves }))
      | none =>
        let s := s.modChan ch (parkEnd i ((s.chan ch).dir i).parkTier m.runs)
        pend ch i (match parkOp ch i s with
          | some op => endOp op .ok [] [] s
          | none => s)

/-- An entry of a park is done with: its page stands at the park tier, or stays where it is, and its destination is freed. -/
def parkNext (i e : Nat) (moved : Bool) (m : Move) (c : Chan) : Chan :=
  let c := match c.pageAt i e, tget e m.plan with
    | some d, some q => if moved then parkSwitch i d q c else c.freeLoc q.1
    | _, _ => c
  { c with moves := tset i { m with todo := m.todo.drop 1, inFlight := none, moved := m.moved + if moved then 1 else 0, plan := tdel e m.plan } c.moves }

/-- The acknowledgement of a park's write (R64, R65). -/
def parkAck (pend : Nat → Nat → State → State) (ch i : Nat) (st : Status) (s : State) : State :=
  match tget i (s.chan ch).moves with
  | none => s
  | some m =>
    if ((s.chan ch).dir i).state ≠ .parking then s
    else if st ≠ .ok then parkFail pend ch i s
    else
      match m.inFlight with
      | some e => parkGo pend ch i (s.modChan ch (parkNext i e true m))
      | none => parkGo pend ch i (s.modChan ch (fun c => { c with moves := tset i { m with stage := m.stage + 1 } c.moves }))

/-- The response to a park's read of a SPILLED page: its plaintext is written on. A page that fails its checks is LOST (R98) and stays in the
descriptor table, as a LOST page does; one whose tier cannot be read stops the park as a failed write does (R65; log entry 116). -/
def parkReadRsp (pend : Nat → Nat → State → State) (ch i e : Nat) (st : Status) (poison : Bool) (x? : Option Envelope) (s : State) : State :=
  let c := s.chan ch
  match tget i c.moves, c.pageAt i e with
  | some m, some d =>
    let lost (c : Chan) : Chan := parkNext i e false m (c.modPage d (fun p => { p with residency := .lost, k := [], v := [] }))
    if m.inFlight ≠ some e then s
    else if st ≠ .ok then parkFail pend ch i s
    else if poison then parkGo pend ch i (memPoison ch (c.page d).loc.tier (locGranule (c.page d).loc * 16384) 1 (s.setChan ch (lost c)))
    else
      match openEnvelope c (pageExpect s.fid ch (c.page d)) (x?.getD default), tget e m.plan with
      | .error r, _ => parkGo pend ch i (s.setChan ch (lost (c.countReject r)))
      | .ok _, some q => parkPage pend ch i e q s
      | .ok _, none => s
  | _, _ => s

/-- The outstanding operation of a header takes a kind, or a new one does. -/
def hold (opcode : Nat) (d : Hdr) (fn ch : Nat) (k : RunKind) (s : State) : State :=
  match opOf d.ring d.tag s with
  | some op =>
    if op.opcode = opcode then { s with ops := s.ops.map (fun o => if o = op then { o with kind := k, begun := true } else o) }
    else addOp opcode d fn ch [] true k s
  | none => addOp opcode d fn ch [] true k s

/-- A PARK that R50 accepts (R64, R66); while a chunk is open it has no effect (R149): to T2 it moves and ends at once; to T3 or T4 its objects are written one after another. -/
def parkNow (d : Hdr) (ch i fn : Nat) (s : State) : State :=
  if (tget i (s.chan ch).chunks).isSome then done d 0x12 .prefillOpen [] [] s
  else
  match parkPlan ch i s.freeIx s with
  | (none, c) => done d 0x12 .noSpace [] [] (s.setChan ch c)
  | (some (plan, runs), c) =>
    let tier := (c.dir i).parkTier
    let s := { s with freeIx := s.freeIx + 16777216 + 65537 }
    let c := parkEnter i c
    if tier = 2 then
      let c := plan.foldl (fun c q => match c.pageAt i q.1 with | some d => parkSwitch i d q.2 c | none => c) c
      done d 0x12 .ok [] [] (s.setChan ch (parkEnd i 2 runs c))
    else
      let m : Move := ⟨plan.map (·.1), none, 0, plan, runs, 0⟩
      parkGo noPend ch i (hold 0x12 d fn ch (.park ch i) (s.setChan ch { c with moves := tset i m c.moves }))

/-- A PARK as R50 judges it. -/
def sessPark (cmd : Instr) (d : Hdr) (h : Handle) (ch fn : Nat) (s : State) : State :=
  onVerdict (judgePark ((s.chan ch).dir h.index)) cmd d 0x12 ch h.index fn (parkNow d ch h.index fn) s

/-! ### Revive (R67 to R69) -/

/-- The parked map of a session. -/
def Chan.parkedMap (c : Chan) (i : Nat) : Tbl ParkedEntry := (tget i c.parkedMaps).getD []

/-- The entries a revive fetches, in layer, row and head order (R67). -/
def reviveOrder (x : Profile) (m : Tbl ParkedEntry) : List Nat :=
  let es := (m.filter (fun q => q.2.valid && !q.2.kept)).map (·.1)
  (List.range x.layers).flatMap (fun l => es.filter (fun e => x.layerOf e == l))

/-- The unfinished sequences of a session name a page's head and row in their ERR (R142). -/
def Chan.markErr (i : Nat) (at_ : Nat × Nat) (c : Chan) : Chan :=
  { c with steps := c.steps.map (fun t => { t with slots := t.slots.map (fun x =>
      if x.index = i ∧ x.phase ≠ .done then { x with errAt := at_ } else x) }) }

/-- A revive stops (R67, R69): the session is PARKED again with the pages already resident kept, and the REVIVE completes with the
layer, head and row of the page. -/
def reviveStop (k : Hooks) (ch i e : Nat) (st : Status) (s : State) : State :=
  let c := s.chan ch
  let dr := c.dir i
  let x := c.prof dr.profile
  let pm := (c.map i).foldl (fun t m => tset m.1 ⟨m.2.desc, m.2.valid, m.2.valid, {}, m.2.dropped⟩ t) (c.parkedMap i)
  let s := if dr.streaming then k.failWaiting ch i st (s.modChan ch (Chan.markErr i (x.headOf e, x.rowOf e))) else s
  let c := s.chan ch
  let dr := c.dir i
  let saved := if dr.state = .reviving then dr.savedState else if dr.state = .running then .runnable else dr.state
  let c := c.leaveAsq i
  let c := { c with maps := tdel i c.maps, parkedMaps := tset i pm c.parkedMaps, moves := tdel i c.moves }
  let c := c.modDir i (fun d => { d with state := .parked, savedState := saved, streaming := false })
  let s := dropReqs (fun k => match k with | .revive c j _ => c == ch && j == i | _ => false) (s.setChan ch c)
  k.pend ch i (match reviveOp ch i s with
    | some op => endOp op st [x.layerOf e + x.headOf e * 65536 + x.rowOf e * 4294967296] [] s
    | none => s)

/-- Space for a revived session's block, root, leaves and input queue (R44, R48, R67). -/
def reviveSpace (c : Chan) (w : Wm) (i : Nat) : Option (Loc × Loc × Tbl Loc × List Loc) × Chan :=
  let code := c.placement i
  let ls := ((c.parkedMap i).filter (fun q => q.2.valid)).foldl (fun (t : Tbl Unit) q => tset (q.1 / 4096) () t) []
  match c.takeBlock w code with
  | (none, f) => (none, c.withFails f)
  | (some (b, r), c1) =>
    match c1.takeMany w code 0 (ls.length + (c.queue i).granules.length) with
    | (none, f) => (none, c.withFails f)
    | (some locs, c2) => (some (b, r, List.zipWith (fun x l => (x.1, l)) ls locs, locs.drop ls.length), c2)

/-- The block, the map and the input queue are resident (R67, R206); their runs at the park tier are freed. -/
def reviveLoad (i : Nat) (b r : Loc) (ls : Tbl Loc) (qs : List Loc) (c : Chan) : Chan :=
  let c := ((tget i c.parkRuns).getD []).foldl (fun c r => c.freeLoc r.1) c
  let c := if qs.isEmpty then c else c.setQueue i { c.queue i with granules := qs }
  let c := c.modDir i (fun e => { e with sblk := b, pmap := r })
  { c with leaves := tset i ls c.leaves, parkRuns := tdel i c.parkRuns }

/-- Kept pages and dropped marks of the parked map join the resident map. -/
def reviveKept (i : Nat) (c : Chan) : Chan :=
  let pm := c.parkedMap i
  let stay := pm.filter (fun q => !q.2.valid || q.2.kept)
  let c := c.setMap i (stay.map (fun q => (q.1, ⟨q.2.desc, q.2.dropped, q.2.valid⟩)))
  { c with parkedMaps := tset i (pm.filter (fun q => q.2.valid && !q.2.kept)) c.parkedMaps }

/-- A parked entry's page becomes resident under a descriptor (R67). -/
def reinstate (i e d : Nat) (p : Page) (c : Chan) : Chan :=
  let c := { c.setPage d p with shares := tset d 1 c.shares }
  let c := c.setMap i (tset e ⟨d, false, true⟩ (c.map i))
  { c with parkedMaps := tset i (tdel e (c.parkedMap i)) c.parkedMaps }

/-- Layer 0 is resident (R67): the session takes its saved state; RUNNABLE re-enters the table, or STOPPED when it is full. -/
def layer0Resident (ch i : Nat) (s : State) : State :=
  let c := s.chan ch
  let e := c.dir i
  let c := c.setDir i { e with state := e.savedState, streaming := true }
  let c := if e.savedState = .runnable then
      (match c.enterAsq (handleOf ch i s) s.now with
       | some c => c
       | none => (match c.sblk i with | some b => c.setSblk i { b with stopReason := 10 } | none => c).modDir i
          (fun e => { e with state := .stopped }))
    else c
  s.setChan ch c

/-- A revive ends (R67). -/
def reviveEnd (ch i : Nat) (s : State) : State :=
  let c := s.chan ch
  let c := { c with moves := tdel i c.moves, parkedMaps := tdel i c.parkedMaps }
  let s := s.setChan ch (c.modDir i (fun e => { e with streaming := false }))
  match reviveOp ch i s with
  | some op => endOp op .ok [] [] s
  | none => s

/-- The read of an object of a revive is sent. -/
def reviveRead (k : Hooks) (ch i e stage len : Nat) (l : Loc) (s : State) : State :=
  let (fid, unit, addr) := locTarget ch l s
  match sendReq ch fid unit 0 (.revive ch i stage) .readReqBulk addr (.ask len) s with
  | .ok s => s
  | .error _ => reviveStop k ch i e .reviveFailed s

/-- The pages of a revive in order: one at T2 is reinstated at once, another is read; at the end of layer 0 the queued operations
run; at the end the REVIVE completes. -/
def revivePages (k : Hooks) (ch i : Nat) : Nat → State → State
  | 0, s => s
  | n + 1, s =>
    match tget i (s.chan ch).moves with
    | none => s
    | some m =>
      let c := s.chan ch
      let x := c.prof (c.dir i).profile
      let first := m.todo.head?
      let set (m : Move) (s : State) : State := s.modChan ch (fun c => { c with moves := tset i m c.moves })
      if m.stage == 3 && (match first with | some e => x.layerOf e != 0 | none => true) then
        revivePages k ch i n (k.pend ch i (layer0Resident ch i (set { m with stage := 4 } s)))
      else
        match first with
        | none => reviveEnd ch i s
        | some e =>
          match tget e (c.parkedMap i), c.freeDesc with
          | none, _ => revivePages k ch i n (set { m with todo := m.todo.drop 1 } s)
          | some _, none => reviveStop k ch i e .descTableFull s
          | some q, some d =>
            if q.image.loc.tier = 2 then
              if c.badRun q.image.loc q.image.sizeClass then reviveStop k ch i e .reviveFailed (memPoison ch 2 (q.image.loc.granule * 16384) 1 s)
              else revivePages k ch i n (set { m with todo := m.todo.drop 1 } (s.modChan ch (reinstate i e d { q.image with residency := .resident })))
            else reviveRead k ch i e m.stage q.image.bytesOut q.image.loc (set { m with inFlight := some e } s)

/-- The block and map have been read, or are resident already: the pages follow. -/
def reviveMapped (k : Hooks) (ch i : Nat) (s : State) : State :=
  let c := s.chan ch
  let load : Option Chan × Chan :=
    if (tget i c.parkRuns).isSome then
      match reviveSpace c (wmOf ch s) i with
      | (some (b, r, ls, qs), c) => (some (reviveLoad i b r ls qs c), c)
      | (none, f) => (none, f)
    else (some c, c)
  match load with
  | (none, f) => reviveStop k ch i 0 .noSpace (s.setChan ch f)
  | (some c, _) =>
    let c := reviveKept i c
    let x := c.prof (c.dir i).profile
    let es := reviveOrder x (c.parkedMap i)
    let m : Move := ⟨es, none, 0, [], [], 3⟩
    revivePages k ch i (es.length + 2) (s.setChan ch { c with moves := tset i m c.moves })

/-- A stored object of a parked session at T2 stands poisoned (R66, R488). -/
def badParkRun (c : Chan) (i : Nat) : Option Loc :=
  (((tget i c.parkRuns).getD []).find? (fun r => r.1.tier == 2 && c.badRun r.1 (classFor r.2.2))).map (·.1)

/-- A REVIVE that R50 accepts (R67): the block is read first, then the map's root, its leaves and the input queue, then the pages. At T2 nothing
is sent, and memory ECC alone checks what is read (R66). -/
def reviveNow (k : Hooks) (d : Hdr) (ch i fn : Nat) (s : State) : State :=
  let s := hold 0x13 d fn ch (.revive ch i) s
  let s := s.modChan ch (fun c =>
    let c := (c.touch i none).modDir i (fun e => { e with state := .reviving })
    { c with moves := tset i ⟨[], none, 0, [], [], 0⟩ c.moves })
  let e := (s.chan ch).dir i
  if (tget i (s.chan ch).parkRuns).isSome ∧ 3 ≤ e.sblk.tier then reviveRead k ch i 0 0 ((((tget i (s.chan ch).parkRuns).getD []).head?.map (fun r => parkedBytes 3 e.stackMode r.2)).getD 0) e.sblk s
  else
    match badParkRun (s.chan ch) i with
    | some l => reviveStop k ch i 0 .reviveFailed (memPoison ch 2 (l.granule * 16384) 1 s)
    | none => reviveMapped k ch i s

/-- A REVIVE as R50 judges it. -/
def sessRevive (k : Hooks) (cmd : Instr) (d : Hdr) (h : Handle) (ch fn : Nat) (s : State) : State :=
  onVerdict (judgeRevive ((s.chan ch).dir h.index)) cmd d 0x13 ch h.index fn (reviveNow k d ch h.index fn) s

/-- A parked page's plaintext finds its place: descriptor and run by the session's placement (R67). -/
def revivePage (k : Hooks) (ch i e : Nat) (p : Page) (plain : List Byte) (s : State) : State :=
  let c := s.chan ch
  let x := c.prof (c.dir i).profile
  match c.freeDesc with
  | none => reviveStop k ch i e .descTableFull s
  | some d =>
    match c.takePlaced (wmOf ch s) (c.placement i) (classFor plain.length) with
    | (none, c') => reviveStop k ch i e .noSpace (s.setChan ch (c.withFails c'))
    | (some l, c) =>
      let c := (reinstate i e d (pageFrom x p l plain s.freeIx) (c.freeLoc p.loc)).queueEncodes i [e] (deviceDl ch s)
      let c := match tget i c.moves with
        | some m => { c with moves := tset i { m with todo := m.todo.drop 1, inFlight := none } c.moves }
        | none => c
      let s := (s.setChan ch c).advanceFree
      revivePages k ch i (((tget i c.moves).map (fun m => m.todo.length)).getD 0 + 2) s

/-- The response to a revive's read (R67, R69, R281): `moved` of the move counts the stored objects read before the pages. -/
def reviveRsp (k : Hooks) (ch i stage : Nat) (st : Status) (poison : Bool) (e? : Option Envelope) (s : State) : State :=
  match tget i (s.chan ch).moves with
  | none => s
  | some m =>
    let c := s.chan ch
    let dr := c.dir i
    if stage < 3 then
      let runs := (tget i c.parkRuns).getD []
      match st, poison, e?, runs[m.moved]? with
      | .ok, false, some e, some r =>
        match openEnvelope c ⟨dr.stackMode, r.2.1, parkedBytes 3 dr.stackMode r.2, 0, envBinding s.fid ch 2 r.1⟩ e with
        | .error x => reviveStop k ch i 0 .reviveFailed (s.setChan ch (c.countReject x))
        | .ok _ =>
          let s := s.modChan ch (fun c => { c with moves := tset i { m with moved := m.moved + 1 } c.moves })
          match runs[m.moved + 1]? with
          | some q => reviveRead k ch i 0 0 (parkedBytes 3 dr.stackMode q.2) q.1 s
          | none => reviveMapped k ch i s
      | _, _, _, _ => reviveStop k ch i 0 .reviveFailed s
    else
      match m.inFlight with
      | none => s
      | some en =>
        match tget en (c.parkedMap i), st, poison, e? with
        | some q, .ok, false, some e =>
          match openEnvelope c (pageExpect s.fid ch q.image) e with
          | .error x => reviveStop k ch i en .reviveFailed (s.setChan ch (c.countReject x))
          | .ok plain => revivePage k ch i en q.image plain s
        | _, _, _, _ => reviveStop k ch i en .reviveFailed s

/-! ### Fetch (R97, R98) -/

/-- The sessions whose resident map holds a page. -/
def Chan.mappers (c : Chan) (d : Nat) : List Nat := (c.maps.filter (fun m => m.2.any (fun e => e.2.valid && e.2.desc == d))).map (·.1)

/-- The profile a page was made under: that of a session that maps it. -/
def Chan.pageProf (c : Chan) (d : Nat) : Profile :=
  match c.mappers d with
  | i :: _ => c.prof (c.dir i).profile
  | [] => noProfile

/-- A SPILLED page of a session is queued for fetch: its run reserved by the session's placement, its envelope read. Where no run is
found or the tier cannot be reached it stays SPILLED (R97, R98). -/
def startFetch (ch i d : Nat) (s : State) : State :=
  let c := s.chan ch
  let p := c.page d
  if p.residency ≠ .spilled then s
  else
    match c.takePlaced (wmOf ch s) (c.placement i) (classFor p.len) with
    | (none, f) => s.setChan ch (c.withFails f)
    | (some l, c') =>
      let (fid, unit, addr) := locTarget ch p.loc s
      match sendReq ch fid unit 0 (.fetch ch d) .readReqBulk addr (.ask p.bytesOut) s with
      | .error _ => s
      | .ok s => s.setChan ch (c'.modPage d (fun p => { p with residency := .fetching, dest := some (l, classFor p.len) }))

/-- The SPILLED pages of a session in some layers, in layer, row and head order (R97). -/
def spilledOf (c : Chan) (i lo n : Nat) : List Nat :=
  let x := c.prof (c.dir i).profile
  (List.range n).flatMap (fun l => ((c.map i).filter (fun m =>
    m.2.valid && x.layerOf m.1 == lo + l && (c.page m.2.desc).residency == .spilled)).map (fun m => m.2.desc))

def startFetches (ch i : Nat) (ds : List Nat) (s : State) : State := ds.foldl (fun s d => startFetch ch i d s) s

/-- A fetch did not reach its tier: the page is SPILLED again (R98). -/
def fetchLost (ch d : Nat) (s : State) : State :=
  s.modChan ch (fun c => if (c.page d).residency = .fetching then c.abandonCopy d else c)

/-- A FETCHING page's envelope is at hand (R97, R98, R281): RESIDENT with the plaintext, or LOST. A sealed page that returns RAW is queued for
encoding (R84, R276). -/
def fetchDone (ch d : Nat) (poison : Bool) (e : Envelope) (s : State) : State :=
  let c := s.chan ch
  let p := c.page d
  let s := answerReqs (fun k => k == .fetch ch d) s
  match p.residency, p.dest with
  | .fetching, some (l, _) =>
    let lost (c : Chan) : Chan := (c.freeLoc l).modPage d (fun p => { p with residency := .lost, dest := none, k := [], v := [] })
    if poison then memPoison ch p.loc.tier (locGranule p.loc * 16384) 1 (s.setChan ch (lost c))
    else
      match openEnvelope c (pageExpect s.fid ch p) e with
      | .error x => s.setChan ch (lost (c.countReject x))
      | .ok plain =>
        let x := c.pageProf d
        let q := pageFrom x p l plain s.freeIx
        let c := (c.freeLoc p.loc).setPage d { q with lastStep := max p.lastStep (c.nextStep - 1) }
        (s.setChan ch (if c.toEncode x d then c.pushJob (.encode d) (rawBlocks x.rawBytes) (deviceDl ch s) else c)).advanceFree
  | _, _ => s

/-- OP_KV_PREFETCH (R97). -/
def execOpKvPrefetch (d : Hdr) (h : Handle) (firstLayer layerCount : Nat) : State → Host.Outcome State Fault Refusal :=
  onSession 0x18 d h (fun _ ch s =>
    let x := (s.chan ch).prof ((s.chan ch).dir h.index).profile
    if x.layers ≤ firstLayer ∨ x.layers < firstLayer + layerCount then complete d 0x18 .paramInvalid [] [] s
    else complete d 0x18 .ok [] [] (startFetches ch h.index (spilledOf (s.chan ch) h.index firstLayer layerCount) s))

/-! ### Demotion and spill (R93 to R95) -/

/-- A page an unfinished step or host-issued work writes (R94). -/
def Chan.beingWritten (c : Chan) (d : Nat) : Bool :=
  c.steps.any (fun st => st.slots.any (fun x =>
    let pr := c.prof (c.dir x.index).profile
    x.reserved.any (fun r => r.2 == d) || x.copies.any (fun r => r.2 == d) ||
      (lastEntries pr (List.range pr.layers) x.kvStart).any (fun e => c.pageAt x.index e == some d))) ||
  c.bulk.any (fun u => match u.work with
    | .append _ _ a _ start pages copies =>
      let pr := c.prof (c.dir a.handle.index).profile
      pages.any (fun r => r.2 == d) || copies.any (fun r => r.2 == d) ||
        (lastEntries pr [a.layer] start).any (fun e => c.pageAt a.handle.index e == some d)
    | _ => false)

/-- A page may be demoted or spilled from a tier (R94). -/
def Chan.eligible (c : Chan) (tier ix : Nat) (spill : Bool) (d : Nat) (p : Page) : Bool :=
  p.residency == .resident && p.loc.tier == tier && !p.pin && !c.beingWritten d &&
  (c.mappers d).all (fun i => (c.dir i).state != .parking && (c.dir i).state != .reviving) &&
  (!spill || (p.mode != 1 && fitsRun (framed p.mode (pagePlain (c.pageProf d) p (ix + d)).2)))

/-- The eligible page with the least last_step; the lowest descriptor among equals (R93). -/
def Chan.demoteNext (c : Chan) (tier ix : Nat) (spill : Bool) : Option Nat :=
  ((c.pages.filter (fun p => c.eligible tier ix spill p.1 p.2)).foldl (fun (b : Option (Nat × Nat)) p =>
    match b with
    | none => some (p.1, p.2.lastStep)
    | some q => if p.2.lastStep < q.2 then some (p.1, p.2.lastStep) else some q) none).map (·.1)

/-- Granules that copies in flight will free in a tier. -/
def Chan.leaving (c : Chan) (tier : Nat) : Nat :=
  (c.pages.map (fun p => if p.2.loc.tier == tier && (p.2.residency == .moving || p.2.residency == .spilling)
    then 2 ^ p.2.sizeClass else 0)).sum

/-- Start the copies of a demotion until use, less what is leaving, is at or below the low watermark (R93). Each waits for work of an earlier
deadline and for the block queue (R185, R288); one whose destination has no run, and one that waits, goes on later. -/
def demoteRun (ch tier low : Nat) : Nat → State → State
  | 0, s => s
  | n + 1, s =>
    let c := (s.chan ch).withRegions ch s
    let dl := deviceDl ch s
    let stop (c : Chan) : Chan := { c with demoting := c.demoting.erase tier }
    if (c.tier tier).use - c.leaving tier ≤ low then s.modChan ch stop
    else if !(c.admitJobs.mayStart dl) then s
    else
      let spill := tier == 2
      match c.demoteNext tier s.freeIx spill with
      | none => s.modChan ch (fun c => { stop c with stalled := wrap64 (c.stalled + 1) })
      | some d =>
        let p := c.page d
        let start (c : Chan) : Chan := c.pushJob (.move d) (rawBlocks p.len) dl
        if spill then
          let t := spillTier ch s
          let pl := pagePlain (c.pageProf d) p (s.freeIx + d)
          match c.takeIn t (regionBase ch t s) (classFor (framed p.mode pl.2)) with
          | (none, c) => s.setChan ch c
          | (some l, c') =>
            match c'.seal 0 with
            | none => s
            | some c =>
              let (fid, unit, addr) := locTarget ch l s
              let c := c.modPage d (fun p => { p with residency := .spilling, destForm := pl
                                                      dest := some (l, classFor (framed p.mode pl.2)) })
              match sendReq ch fid unit 0 (.spillWrite ch d) .writeBulk addr (envelopeOut c' s.fid ch 0 p.mode pl.1 pl.2 (s.freeIx + d)) s with
              | .error _ => s
              | .ok s => demoteRun ch tier low n (s.setChan ch (start c))
        else
          match c.t2.take p.sizeClass with
          | (none, a) => s.setChan ch { c with t2 := a }
          | (some g, a) =>
            demoteRun ch tier low n (s.setChan ch (start (({ c with t2 := a }).modPage d (fun p =>
              { p with residency := .moving, dest := some (⟨2, g⟩, p.sizeClass) }))))

/-- Use of a tier above its high watermark starts demotion or spill, and one that has started and not stopped goes on (R93). -/
def demoteStart (ch tier : Nat) (s : State) : State :=
  let w := wmOf ch s
  let high := if tier = 1 then w.h1 else w.h2
  let low := if tier = 1 then w.l1 else w.l2
  if (tier = 1 ∨ (tier = 2 ∧ spillTier ch s ≠ 0)) ∧ (high < ((s.chan ch).tier tier).use ∨ (s.chan ch).demoting.contains tier) then
    let s := s.modChan ch (fun c => { c with demoting := tier :: c.demoting.erase tier })
    { (demoteRun ch tier low ((s.chan ch).pages.length + 1) s) with freeIx := s.freeIx + 524288 }
  else s

/-- DEMOTE (R93). -/
def execDemote (channel tier : Nat) : State → Host.Outcome State Fault Refusal := whenUp (demoteStart channel tier)

/-- A move or spill is written: one descriptor write switches it, and the old run is freed with its last reading step (R95). A copy abandoned
since then switches nothing. -/
def moveDone (d : Nat) (c : Chan) : Chan :=
  let p := c.page d
  if c.doomed.any (fun e => e.1 == d) then c
  else match p.residency, p.dest with
  | .moving, some (l, k) =>
    Chan.admitJobs <| (c.freeRunOf d p.loc p.sizeClass).modPage d (fun p => { p with loc := l, sizeClass := k, residency := .resident, dest := none })
  | .spilling, some (l, _) =>
    Chan.admitJobs <| (c.freeRunOf d p.loc p.sizeClass).modPage d (fun p => pageOut p l p.destForm.1 p.destForm.2 1)
  | _, _ => c

/-- A spill whose write failed is abandoned: the page stays where it is. -/
def spillFail (ch d : Nat) (s : State) : State := s.modChan ch (fun c => if (c.page d).residency = .spilling then c.abandonCopy d else c)

/-! ### Encoding (R84) and scrub (R468) -/

/-- A page queued for encoding whose turn has come is encoded: a sealed RAW one, where the result is shorter (R84). It waits while a step
writes it or a copy of it is in flight. -/
def encodePage (d ix : Nat) (w : Wm) (c : Chan) : Chan :=
  let c := c.admitJobs
  let p := c.page d
  let x := c.pageProf d
  if !c.started (.encode d) ∨ c.beingWritten d ∨ p.residency = .moving ∨ p.residency = .spilling then c
  else
  let c := c.endJob (.encode d)
  if c.toEncode x d ∧ codedBytes ix < x.rawBytes then
    let k := classFor (codedBytes ix)
    let r : Option Loc × Chan := if p.loc.tier = 1 then
        let q := c.t1.take k
        (q.1.map (fun g => ⟨1, g⟩), { c with t1 := q.2 })
      else c.takeT2 w p.pin k
    match r with
    | (some l, c) =>
      (c.freeRunOf d p.loc p.sizeClass).modPage d (fun p =>
        { p with loc := l, sizeClass := k, codec := x.kvCodec, storedLen := (codedBytes ix + 255) / 256, len := codedBytes ix })
    | (none, c) => c
  else c

/-- PAGE_ENCODE (R84). -/
def execPageEncode (channel desc : Nat) : State → Host.Outcome State Fault Refusal :=
  whenUp (fun s => (s.modChan channel (encodePage desc s.freeIx (wmOf channel s))).advanceFree)

/-- SCRUB_COMPLETE (R468): a freed T2 run returns to its allocator. -/
def execScrubComplete (channel tier granule : Nat) : State → Host.Outcome State Fault Refusal :=
  whenUp (fun s => s.modChan channel (fun c =>
    if tier = 2 ∧ c.t2.scrub.contains granule then { c with t2 := c.t2.release granule } else c))

end Sys2Proof.Machine
end

