-- ==== Sys2Proof/Machine/MirrorCore.lean ====
section
/-! DEFINITION. Mirror's records (R292 to R303): participants, TAIL records after a step end, the sending of a record, and the abandonment
of a generation. -/

namespace Sys2Proof.Machine

open Sys2Proof

/-- The word of CHN_MIRROR_BUDDY in effect; an open generation ends on the buddy it began with (R536). -/
def buddyWord (n : Nat) (s : State) : Nat := ((s.chan n).mirror.oldBuddy).getD (eff (chanBase n + 0x080) s)

/-- The channel's buddy is enabled: it is a participant (R290, R291, R366). -/
def participant (n : Nat) (s : State) : Bool :=
  ((s.chan n).role == .attn || (s.chan n).role == .search) && chanServing n s && fieldOf (buddyWord n s) 16 1 == 1

/-- The participants, in channel order. -/
def participants (s : State) : List Nat := (List.range 8).filter (fun n => participant n s)

/-- The fabric ID and channel of the buddy. -/
def buddyOf (n : Nat) (s : State) : Nat × Nat := (fieldOf (buddyWord n s) 0 6, fieldOf (buddyWord n s) 6 3)

/-- The kinds of R292 and R366. -/
inductive RecKind where
  | dir | sblk | queue | tail | free | clone | close | lhdr | lvec | lnode | lstate | lseg | fin
deriving DecidableEq, Repr

def recCode : RecKind → Nat
  | .dir => 1
  | .sblk => 2
  | .queue => 3
  | .tail => 5
  | .free => 6
  | .clone => 7
  | .close => 8
  | .lhdr => 9
  | .lvec => 10
  | .lnode => 11
  | .lstate => 12
  | .lseg => 13
  | .fin => 15

/-- A record to send: its kind, session, object and argument fields (R301), and the raw length and codec of its envelope's
plaintext; raw length 0 for a record with no envelope. -/
structure Record where
  kind : RecKind
  session : Nat
  obj : Nat
  arg : Nat
  raw : Nat
  codec : Nat
  mode : Nat
deriving DecidableEq, Repr

/-- The envelope length of a record (R276, R277, R301). -/
def recordLen (r : Record) (ix : Nat) : Nat := if r.raw = 0 then 0 else framed r.mode (plainOf r.mode 0 0 r.codec r.raw ix).2

/-- The mode of a session's records (R302). -/
def recMode (e : Dir) : Nat := if e.stackMode = 2 then 2 else 0

/-- The participants that a generation takes in: those whose buddy is not known to be down (R303, log entry 22). -/
def parties (s : State) : List Nat := (participants s).filter (fun n => !(s.chan n).mirror.noBuddy)

/-- The open generation of a channel is abandoned (R303): captured sessions are marked changed and their sent lengths go back, images
and held runs are released. -/
def Chan.abandonGen (c : Chan) : Chan :=
  let m := c.mirror
  let back (x : Capture) : Capture :=
    let im (f : CbwImage → Bool) : Bool := match x.cbw with | some y => f y | none => false
    { x with changed := x.changed || x.lastGen == m.gen, sentLen := if x.lastGen = m.gen then x.doneLen else x.sentLen
             cbw := none, isNew := x.isNew || im (·.isNew), closedSince := x.closedSince || im (·.closedSince)
             drops := x.drops ++ (match x.cbw with | some y => y.drops | none => []) }
  let c := m.heldRuns.foldl (fun (c : Chan) r => c.freeLoc r.2) c
  { c with mirror := { m with captures := m.captures.map (fun e => (e.1, back e.2)), gen := 0, todo := [], capturing := false
                              sent := m.sent.filter (fun r => r.gen != m.gen), ended := false, full := true, heldRuns := [], oldBuddy := none
                              manifestAcked := false } }

/-- The device abandons the open generation on every participant (R303); a snapshot that waits for it completes. -/
def abandonGen (s : State) : State :=
  match s.mirrorDev.openGen with
  | none => s
  | some g =>
    let s := (List.range 8).foldl (fun s n => if (s.chan n).mirror.gen = g then s.modChan n Chan.abandonGen else s) s
    let s := { s with mirrorDev := { s.mirrorDev with openGen := none, manifestOut := false, priority := false } }
    let s := dropReqs (fun k => match k with | .record _ h _ => h == g | .manifest _ => true | _ => false) s
    (s.ops.filter (fun o => o.kind == .snapshot g)).foldl (fun s o => endOp o .mirrorAbandoned [g] [] s) s

/-- A refusal, a lost acknowledgement or a lost buddy (R303): the generation ends, the next one is full (R306), and
EV_MIRROR_UNPROTECTED names the channel. With a buddy that is down the channel sends nothing more. -/
def unprotected (n : Nat) (st : Status) (s : State) : State :=
  let s := abandonGen s
  let down := unitMarked (buddyOf n s).1 (buddyOf n s).2 s
  let s := s.modChan n (fun c => { c with mirror := { c.mirror with full := true, noBuddy := c.mirror.noBuddy || down } })
  raiseEvent 1 (.mirrorUnprotected st) n (raiseEvent 0 (.mirrorUnprotected st) n s)

/-- A record goes to the buddy (R301 to R303): `cur` for the open generation's shard, else for the next one's. -/
def sendRecord (n : Nat) (cur : Bool) (r : Record) (s : State) : State :=
  let c := s.chan n
  if c.mirror.noBuddy || (cur && c.mirror.gen == 0) then s
  else
    let len := recordLen r s.freeIx
    let index := if cur then c.mirror.recIndex else c.mirror.nextIndex
    let gen := if cur then c.mirror.gen else s.mirrorDev.nextGen
    let sealed? : Option Chan := if r.raw = 0 then some c else c.seal 1
    match sealed? with
    | none => unprotected n .noSpace s
    | some c =>
      let m := c.mirror
      let m := if cur then { m with recIndex := m.recIndex + 1, shardLen := m.shardLen + 32 + len, sent := m.sent ++ [⟨gen, index, recCode r.kind, r.session⟩] }
        else { m with nextIndex := m.nextIndex + 1, nextLen := m.nextLen + 32 + len, sent := m.sent ++ [⟨gen, index, recCode r.kind, r.session⟩] }
      let (fid, unit) := buddyOf n s
      let s' := ((s.setChan n { c with mirror := m }).advanceFree).emit
        (.mirrorRecord n (recCode r.kind) index gen r.obj r.arg (.free s.freeIx len))
      let f := plainOf r.mode 0 0 r.codec r.raw s.freeIx
      let bytes : Payload := .framed (recordHeader (recCode r.kind) index gen r.obj r.arg len ++
        if r.raw = 0 then [] else sealedHeader (s.chan n) s.fid n 1 r.mode f.1 f.2) s.freeIx (len - 32)
      match sendReq n fid unit 0 (.record n gen index) .writeBulk (fieldOf (buddyWord n s) 9 6) bytes s' with
      | .ok s => s
      | .error st => unprotected n st s

/-- The most positions of one layer a TAIL carries (R294). -/
def tailMax (x : Profile) : Nat := max 1 (524288 / (x.kvHeads * 2 * x.d * x.e))

/-- The TAIL records of one layer for positions from `lo` to `hi` (R294, R301). -/
def tailRecords (x : Profile) (e : Dir) (i l : Nat) : Nat → Nat → Nat → List Record
  | 0, _, _ => []
  | n + 1, lo, hi =>
    if hi ≤ lo then []
    else
      let k := min (hi - lo) (tailMax x)
      ⟨.tail, i, i + l * 2 ^ 17 + k * 2 ^ 25, lo, k * x.kvHeads * 2 * x.d * x.e, if x.kvCodec = 0 then 2 else x.kvCodec, recMode e⟩ ::
        tailRecords x e i l n (lo + k) hi

/-- The TAIL records of a session from one length up to another, in layer order (R294). -/
def tailsOf (x : Profile) (e : Dir) (i lo hi : Nat) : List Record :=
  (List.range x.layers).flatMap (fun l => tailRecords x e i l (hi - lo) lo hi)

/-- The positions a session gained go out, and sent_len rises (R294). -/
def sendTails (n i hi : Nat) (cur : Bool) (s : State) : State :=
  let c := s.chan n
  let e := c.dir i
  let lo := (c.capture i).sentLen
  if hi ≤ lo then s
  else
    let s := (tailsOf (c.prof e.profile) e i lo hi).foldl (fun s r => sendRecord n cur r s) s
    s.modChan n (fun c => c.setCapture i { c.capture i with sentLen := hi })

/-- After a step end the positions a session gained go out (R33, R294): to the open generation when the step lies at or below its
epoch, else to the next. -/
def stepTails (n stepNo i : Nat) (s : State) : State :=
  if !participant n s || (s.chan n).mirror.noBuddy then s
  else
    let m := (s.chan n).mirror
    let cur := m.gen != 0 && !m.ended && decide (stepNo ≤ m.epoch)
    sendTails n i ((s.chan n).dir i).kvLen cur s

end Sys2Proof.Machine
end

