-- ==== Sys2Proof/Machine/SessRun.lean ====
section
/-! DEFINITION. The end of a sequence's step and of a step (R53, R54, R148, R182, R228, R240), score eviction (R101), and the pending
operations of a session (R51). -/

namespace Sys2Proof.Machine

open Sys2Proof

/-! ### Steps and slots -/

def Chan.stepOf (c : Chan) (num : Nat) : Option StepRec := c.steps.find? (fun st => st.num == num)

def Chan.slotOf (c : Chan) (num sl : Nat) : Option Slot := (c.stepOf num).bind (fun st => st.slots[sl]?)

def Chan.modStep (c : Chan) (num : Nat) (f : StepRec → StepRec) : Chan :=
  { c with steps := c.steps.map (fun st => if st.num = num then f st else st) }

/-- One element of a list changed. -/
def modAt {α : Type} (f : α → α) : Nat → List α → List α
  | _, [] => []
  | 0, x :: r => f x :: r
  | n + 1, x :: r => x :: modAt f n r

def Chan.modSlot (c : Chan) (num sl : Nat) (f : Slot → Slot) : Chan := c.modStep num (fun st => { st with slots := modAt f sl st.slots })

/-- Steps that are open, or closed and not final (R183). -/
def Chan.unfinished (c : Chan) : Nat := (c.steps.filter (fun st => !st.final)).length

/-- The fourth unfinished step has closed and the lowest-numbered of them is not final (R183). -/
def Chan.fixHeld (c : Chan) : Bool :=
  match c.fixHold with
  | some n => c.steps.any (fun st => st.num == n && !st.final)
  | none => false

/-! ### Score eviction (R101, R63) -/

/-- A page that a step read is dropped (R101): a map entry, its page and profile, and kv_len. -/
def evictable (x : Profile) (kvLen e : Nat) (p : Page) : Bool :=
  decide (p.score < x.evictThreshold) && p.fill == x.p && decide (x.sinkRows ≤ x.rowOf e)
    && decide (x.rowOf e * x.p + x.p - 1 + x.recentWindow < kvLen)

/-- A map entry is dropped (R63, R103): cleared, marked, its page's count lowered; Mirror notes the drop. -/
def dropEntry (i e : Nat) (c : Chan) : Chan :=
  match c.pageAt i e with
  | none => c
  | some d =>
    let c := c.setMap i (tset e ⟨d, true, false⟩ (c.map i))
    let c := c.setCapture i { c.capture i with drops := e :: (c.capture i).drops, changed := true }
    c.endRef i d

def evictPages (i : Nat) (reads : List Nat) (c : Chan) : Chan :=
  let e := c.dir i
  let x := c.prof e.profile
  if !e.evictEn then c
  else
    let es := ((c.map i).filter (fun m => m.2.valid && reads.contains m.2.desc && evictable x e.kvLen m.1 (c.page m.2.desc))).map (·.1)
    (es.foldl (fun c k => dropEntry i k c) c).countPages i

/-! ### The output ring (R240, R241) -/

def padTo16 (n : Nat) : Nat := (n + 15) / 16 * 16

/-- One record on a session's output ring: a PAD before one that would run past the end, the record, the new tail, and the tail word.
With no ring nothing is written. -/
def outRecord (ch i fn : Nat) (fields toks : List Nat) (text : List Byte) (s : State) : State :=
  match (s.chan ch).sblk i with
  | none => s
  | some b =>
    if b.img.outAddr = 0 then s
    else
      let size := 2 ^ b.img.outExp
      let len := 32 + padTo16 (4 * toks.length) + padTo16 text.length
      let off := b.outTail % size
      let pad := if size < off + len then size - off else 0
      let s := if pad = 0 then s else s.emit (.outRecord ch i off pad true [] [] [])
      let off := if pad = 0 then off else 0
      let tail := wrap64 (b.outTail + pad + len)
      let s := s.emit (.outRecord ch i off len false (fn :: fields) toks text)
      (s.modChan ch (fun c => c.setSblk i { b with outTail := tail })).emit (.tailWord ch (8 + i) tail)

/-- The fields of a record: step, first_pos, stop, accepted, cut, held, status, ac_depth. -/
def recordFields (step firstPos stop stopIndex accepted cut held : Nat) (st : Status) (acDepth : Nat) : List Nat :=
  [step, firstPos, stop + stopIndex * 16, accepted, cut, held, statusCode st, acDepth]

/-! ### What sampling left -/

/-- The outcome of a slot's sampling (R221 to R228, R236 to R239): the block after it, the tokens emitted with their cut marks, the
drafts accepted, the stop, the cut offset and the text. -/
structure SampleOut where
  blk : SBlk
  toks : List (Nat × Bool)
  accepted : Nat
  stop : Nat
  stopIndex : Nat
  cutOff : Nat
  text : List Byte
  invalid : Nat
deriving DecidableEq, Repr

/-- A history word (R45). -/
def histWord (t : HistTok) : Nat := t.token + (if t.cut then 2 ^ 19 else 0) + (if t.gen then 2 ^ 20 else 0)

/-- Positions a completed slot keeps (R228): all, or with drafts those before the last emitted token. -/
def keptOf (x : Slot) (o : Option SampleOut) : Nat :=
  match o with
  | some r => x.tokens.length - x.drafts.length + (r.toks.length - 1)
  | none => x.tokens.length

/-- The map entries a slot's positions touch. -/
def slotEntries (c : Chan) (x : Slot) : List Nat :=
  let p := c.prof (c.dir x.index).profile
  touchedEntries p (List.range p.layers) x.kvStart x.tokens.length

/-- What a slot reserved and did not use returns (R148, R228), the run of a decode that did not take place with it. -/
def giveBack (x : Slot) (c : Chan) : Chan := ((c.trimPages x.index (slotEntries c x)).unreserve x.reserved).unreserve x.copies

/-- The appended positions become held (R148, R228). -/
def keepSlot (num : Nat) (x : Slot) (kept : Nat) (c : Chan) : Chan :=
  let p := c.prof (c.dir x.index).profile
  (giveBack x (c.commitLayers x.index (List.range p.layers) x.kvStart kept num x.reserved)).countPages x.index

/-- The slot's tokens leave the pending tokens (R54, R148): pending token, drafts, queue words. -/
def consume (x : Slot) (c : Chan) : Chan :=
  let i := x.index
  let n := x.tokens.length - (if (c.dir i).sampPend then 1 else 0) - x.drafts.length
  let q := (c.queue i).takeWords n
  let c := q.2.foldl (fun c l => c.freeOf i l) c
  let c := if q.1.words.isEmpty then { c with queues := tdel i c.queues } else c.setQueue i q.1
  c.dropDraft i

/-- The history after a completed slot (R45, R54, R228). -/
def slotHistory (x : Slot) (appended hadPend : Bool) (kvLen : Nat) (toks : List (Nat × Bool)) (b : SBlk) : SBlk :=
  let base := x.kvStart + (x.tokens.length - x.drafts.length)
  let b := if appended then
      ((x.tokens.take (x.tokens.length - x.drafts.length)).foldl (fun (a : SBlk × Nat) t =>
        (if a.2 = x.kvStart ∧ hadPend then a.1 else a.1.setHist a.2 ⟨t, false, false⟩, a.2 + 1)) (b, x.kvStart)).1
    else b
  if appended then (toks.foldl (fun (a : SBlk × Nat) t => (a.1.setHist a.2 ⟨t.1, t.2, true⟩, a.2 + 1)) (b, base)).1
  else match toks.getLast? with
    | some t => b.setHist kvLen ⟨t.1, t.2, true⟩
    | none => b

/-- The stop reason a step's end gives (R53, R83, R98, R488). -/
def endReason (st : Status) (o : Option SampleOut) : Nat :=
  match st with
  | .ok => (match o with | some r => r.stop | none => 0)
  | .contextLimit => 7
  | .pageLost => 6
  | .poisoned => 6
  | _ => 0

/-- The session after its step (R53, R54, R55, R167). -/
def endSession (num i now reason stopIndex : Nat) (st : Status) (c : Chan) : Chan :=
  let e := c.dir i
  if e.state ≠ .running then c
  else
    let c := match c.sblk i with
      | some b =>
        let b := if st = Status.ok ∨ reason ≠ 0 then { b with stopReason := reason, stopIndex := stopIndex } else b
        c.setSblk i (if reason = 6 ∨ reason = 7 then { b with matcher := holdRel b.matcher } else b)
      | none => c
    if reason = 0 then (c.setDir i { e with state := .runnable, lastStep := num }).rerelease i now
    else if reason = 2 then (c.setDir i { e with state := .waitingTool, lastStep := num, toolTag := num % 2 ^ 55 }).leaveAsq i
    else (c.setDir i { e with state := .stopped, lastStep := num }).leaveAsq i

/-- A slot's data at its end with ST_OK. -/
def slotOk (num : Nat) (x : Slot) (o : Option SampleOut) (c : Chan) : Chan :=
  let i := x.index
  let appended := x.append0 == some true
  let hadPend := (c.dir i).sampPend
  let kept := keptOf x o
  let toks := match o with | some r => r.toks | none => []
  let c := consume x c
  let c := if appended then keepSlot num x kept c else giveBack x c
  let kvLen := if appended then x.kvStart + kept else (c.dir i).kvLen
  let c := match o with | some r => c.setSblk i r.blk | none => c
  let c := match c.sblk i with
    | some b => c.setSblk i (slotHistory x appended hadPend kvLen toks b)
    | none => c
  let pend := match toks.getLast? with | some t => !t.2 | none => false
  c.modDir i (fun e => ({ e with kvLen := kvLen, sampPend := pend }).histLen (kvLen + if toks.isEmpty then 0 else 1))

/-- The part that ends a slot: TOKENS after sampling, ERR with a failure (R144, R180, R217, R218). Once the REQ is sent the model sends the
sampling ERR, also for a fault of an attention segment, for which R144 does not say which ERR it is (DESIGN CHOICE, log entry 103). An
attention ERR names head and row where a page is at fault, else 0 (log entry 103). -/
def endSegment (ch num sl : Nat) (x : Slot) (st : Status) (o : Option SampleOut) (err : Bool) (s : State) : State :=
  if st ≠ .ok then
    let late := x.phase == .logits || x.phase == .sampling
    if err then
      if late then emitPart true ch x.requester.1 x.requester.2 num sl 0 3 0 st (natLE 8 (handleWord x.handle) ++ natLE 8 0) s
      else emitPart false ch x.requester.1 x.requester.2 num sl x.layer 6 0 st
        (natLE 8 (handleWord x.handle) ++ natLE 8 (x.layer + 256 * x.errAt.1 + 65536 * x.errAt.2)) s
    else s
  else match o with
    | some r => emitPart true ch x.requester.1 x.requester.2 num sl 0 2 0 .ok
        (natLE 2 r.toks.length ++ natLE 1 r.accepted ++ natLE 1 (r.stop + r.stopIndex * 16) ++ natLE 8 0 ++ natLE 4 0 ++
          r.toks.flatMap (fun t => natLE 4 (histWord ⟨t.1, t.2, true⟩))) s
    | none => s

/-- The record of a slot that was listed to sample (R240). -/
def endRecord (ch num : Nat) (x : Slot) (st : Status) (o : Option SampleOut) (s : State) : State :=
  if !x.samples then s
  else
    let c := s.chan ch
    let owner := (c.dir x.index).owner
    let first := x.kvStart + x.tokens.length - x.rows + 1
    match st, o, c.sblk x.index with
    | .ok, some r, some b =>
      let first := if x.append0 == some false then x.kvStart else first
      let cut := if r.toks.any (·.2) then r.cutOff + 128 else 0
      let text := b.matcher.rel ++ r.text
      let s := outRecord ch x.index owner (recordFields num first r.stop r.stopIndex r.accepted cut b.matcher.dtUtf8.length .ok b.matcher.depth)
        (r.toks.map (fun t => histWord ⟨t.1, t.2, true⟩)) text s
      s.modChan ch (fun c => match c.sblk x.index with
        | some b => ({ c with outInvalid := wrap64 (c.outInvalid + r.invalid) }).setSblk x.index { b with matcher := { b.matcher with rel := [] } }
        | none => c)
    | _, _, some b =>
      outRecord ch x.index owner (recordFields num first b.stopReason b.stopIndex 0 0 b.matcher.dtUtf8.length st b.matcher.depth) [] [] s
    | _, _, none => s

/-! ### The end of a step (R182) -/

/-- The results of an OP_STEP's entries, with those of the slots filled in (R177, R179). -/
def stepResults (st : StepRec) (res : List (Nat × Nat × Nat)) : List Nat :=
  res.map (fun r =>
    match st.slots[r.2.1]? with
    | some x => (match x.st with | some y => statusCode y | none => 0) + r.2.1 * 65536 + x.stop * 4294967296
    | none => r.1 + r.2.1 * 65536 + r.2.2 * 4294967296)

/-- Steps that are final end in number order: their sessions' TAIL records go out, and runs they read are freed (R95, R182, R294). -/
def endSteps (ch : Nat) : Nat → State → State
  | 0, s => s
  | n + 1, s =>
    let c := s.chan ch
    match lowest (c.steps.map (fun st => st.num)) with
    | none => s
    | some k =>
      match c.stepOf k with
      | some st =>
        if st.final then
          let c := { c with steps := c.steps.filter (fun t => t.num != k) }
          let c := st.slots.foldl (fun c x => evictPages x.index x.reads c) c
          let c := c.freeDeferred (fun m => !(c.steps.any (fun t => decide (t.num ≤ m))))
          endSteps ch n (st.slots.foldl (fun s x => stepTails ch k x.index s) (s.setChan ch c))
        else s
      | none => s

/-- A step closes when no sequence is left but held ones, and is final when all have completed (R182). At its close it gives up its claim;
no unit starts before the next dispatch point (R186). -/
def checkStep (ch num : Nat) (s : State) : State :=
  let c := s.chan ch
  match c.stepOf num with
  | none => s
  | some st =>
    if st.final then s
    else
      let all := st.slots.all (fun x => x.phase == .done)
      let closes := !st.closed && st.slots.all (fun x => x.phase == .done || x.phase == .held)
      let s := if closes then
          let c : Chan := c.modStep num (fun st => { st with closed := true, slots := st.slots.map (fun x =>
            if x.phase = .done then x else { x with trailing := true }) })
          let c : Chan := { c with asq := c.asq.map (fun a =>
            if st.slots.any (fun x => x.phase != .done && (c.dir x.index).asqIndex == a.1) then (a.1, { a.2 with state := 3 }) else a) }
          s.setChan ch { c with claim := 0, fixHold := if c.unfinished = 4 then lowest ((c.steps.filter (fun t => !t.final)).map (fun t => t.num)) else c.fixHold }
        else s
      if (closes || st.closed) && all then
        let s := s.modChan ch (fun c => c.modStep num (fun st => { st with final := true }))
        let s := countMiss ch (missed st.deadline s.now) 0 0 s
        let s := match s.ops.find? (fun o => match o.kind with | .step c n _ _ => c == ch && n == num | _ => false) with
          | some op =>
            (match op.kind with
             | .step _ _ addr res => endOp op .ok [num] [(addr, .words (stepResults st res))] s
             | _ => s)
          | none => s
        endSteps ch ((s.chan ch).steps.length + 1) s
      else s

/-- A sequence completes its step with a status (R53, R144, R148, R182, R240). `pend` runs the session's deferred operations. -/
def finishSeq (pend : Nat → Nat → State → State) (ch num sl : Nat) (st : Status) (o : Option SampleOut) (err : Bool) (s : State) : State :=
  match (s.chan ch).slotOf num sl with
  | none => s
  | some x =>
    if x.phase = .done then s
    else
      let i := x.index
      let s := endSegment ch num sl x st o err s
      let reason := endReason st o
      let c := (s.chan ch).touch i (some num)
      let c := if st = .ok then slotOk num x o c else giveBack x c
      let c := if st = .ok then c.queueEncodes i (slotEntries c x) (deviceDl ch s) else c
      let c := endSession num i s.now reason (match o with | some r => r.stopIndex | none => 0) st c
      let c := c.modSlot num sl (fun x => { x with phase := .done, st := some st, stop := reason })
      let s := s.setChan ch c
      let s := endRecord ch num x st o s
      let s := countMiss ch 0 (missed x.deadline s.now) 0 s
      checkStep ch num (pend i ch s)

/-- The unfinished sequences of a session complete their step with a status (R69): those that wait for a missing layer, and one that has not
reached it yet, since the session that leaves for PARKED has no pages left to run on. -/
def failHeld (pend : Nat → Nat → State → State) (ch i : Nat) (st : Status) (s : State) : State :=
  let hit := (s.chan ch).steps.flatMap (fun t => ((List.range t.slots.length).filter (fun k =>
    match t.slots[k]? with | some x => x.index == i && x.phase != .done | none => false)).map (fun k => (t.num, k)))
  hit.foldl (fun s h => finishSeq pend ch h.1 h.2 st none true s) s

/-! ### Pending operations (R51) -/

/-- One pending operation runs, judged by R50 against the state it finds; one whose descriptor has ended does not. -/
def runOne (pend : Nat → Nat → State → State) (ch : Nat) (cmd : Instr) (s : State) : State :=
  match sessHdr cmd with
  | none => s
  | some (d, _) =>
    match opOf d.ring d.tag s with
    | none => s
    | some op =>
      let fn := op.fn
      let k : Hooks := ⟨fun c i s => pend i c s, fun c i st s => failHeld (fun _ _ s => s) c i st s⟩
      match cmd with
      | .opSessionClose d h => sessClose cmd d h ch fn s
      | .opSessionPark d h => sessPark cmd d h ch fn s
      | .opSessionRevive d h => sessRevive k cmd d h ch fn s
      | .opSessionFork d h => sessFork cmd d h ch fn s
      | .opSessionResume d h tag limit feed dflt => sessResume cmd d h tag limit feed dflt ch fn s
      | .opSessionSet d h _ _ img rebind gs ge => sessSet cmd d h img rebind gs ge ch fn s
      | .opKvAppend d a => sessAppend cmd d a false 0x20 ch fn s
      | .opAttnPrefill d a => sessAppend cmd d a true 0x21 ch fn s
      | .opTextIn d a => sessText cmd d a ch fn s
      | _ => s

/-- The pending operations of a session run in the order they were accepted. -/
def runPending : Nat → Nat → Nat → State → State
  | 0, _, _, s => s
  | n + 1, i, ch, s =>
    let l := (s.chan ch).pendOf i
    if l.isEmpty then s
    else l.foldl (fun s c => runOne (runPending n) ch c s) (s.modChan ch (fun c => c.setPend i []))

/-- The pending operations of a session, where none of them nests deeper than three. -/
def pendNow (i ch : Nat) (s : State) : State := runPending 4 i ch s

/-- A revive's hooks. -/
def hooks : Hooks := ⟨fun ch i s => pendNow i ch s, fun ch i st s => failHeld (fun _ _ s => s) ch i st s⟩

/-- A sequence completes its step. -/
def endSeq (ch num sl : Nat) (st : Status) (o : Option SampleOut) (err : Bool) (s : State) : State := finishSeq pendNow ch num sl st o err s

/-- OP_SESSION_PARK (R64). -/
def execOpSessionPark (d : Hdr) (h : Handle) : State → Host.Outcome State Fault Refusal :=
  onSession 0x12 d h (fun fn ch s => sessPark (.opSessionPark d h) d h ch fn s)

/-- OP_SESSION_REVIVE (R67). -/
def execOpSessionRevive (d : Hdr) (h : Handle) : State → Host.Outcome State Fault Refusal :=
  onSession 0x13 d h (fun fn ch s => sessRevive hooks (.opSessionRevive d h) d h ch fn s)

end Sys2Proof.Machine
end

