-- ==== Sys2Proof/Machine/Sched.lean ====
section
/-! DEFINITION. The step scheduler: OP_STEP (R177, R179), the fixing of a work list (R171, R172, R81 to R83, R241), the work-list record and
its publication (R173 to R176), and the timeouts of a step (R180). -/

namespace Sys2Proof.Machine

open Sys2Proof

/-! ### Drivers (R172, R175) -/

/-- The enabled subscribers of a channel. -/
def enabledSubs (n : Nat) (s : State) : List Nat := (List.range 8).filter (fun k => wlEnabled n k s)

/-- Tokens of a list that a subscriber drives. -/
def drivenTokens (xs : List Slot) (k : Nat) : Nat := ((xs.filter (fun x => x.driver == k)).map (fun x => x.tokens.length)).sum

/-- The subscriber with the fewest tokens, the lowest among equals. -/
def leastLoaded (xs : List Slot) : List Nat → Option Nat
  | [] => none
  | k :: r => some (r.foldl (fun b j => if drivenTokens xs j < drivenTokens xs b then j else b) k)

/-- choose_driver of R172; 0 with no enabled subscriber. -/
def chooseDriver (subs : List Nat) (a : Option Asq) (xs : List Slot) : Nat :=
  match a with
  | some a => if a.driverValid && subs.contains a.driver then a.driver else (leastLoaded xs subs).getD 0
  | none => (leastLoaded xs subs).getD 0

/-! ### Candidates (R170, R172) -/

/-- A session that may join a step: RUNNABLE with a token pending. -/
def Chan.isCandidate (c : Chan) (i : Nat) : Bool := (c.dir i).state == .runnable && decide (1 ≤ c.pendingOf i)

/-- The order of candidates: absolute deadline, release, directory index. -/
def candBefore (a b : Asq) : Bool :=
  dlLt a.absDeadline b.absDeadline || (a.absDeadline == b.absDeadline && (decide (a.release < b.release)
    || (a.release == b.release && decide (a.handle.index ≤ b.handle.index))))

def insertCand (a : Asq) : List Asq → List Asq
  | [] => [a]
  | b :: r => if candBefore a b then a :: b :: r else b :: insertCand a r

/-- The candidates in order. -/
def Chan.candidates (c : Chan) : List Asq :=
  ((c.asq.map (·.2)).filter (fun a => c.isCandidate a.handle.index)).foldl (fun l a => insertCand a l) []

/-- Conditions 1 and 2 of R171, on a channel that fixes lists, and not while it waits for the lowest-numbered of four unfinished steps
(R183). -/
def mayFix (n : Nat) (s : State) : Bool :=
  let c := s.chan n
  c.state == .active && c.role == .attn && c.openStep.isNone && decide (c.unfinished < 4) && !c.fixHeld

/-- Conditions 3 and 4 of R171. -/
def gatherOver (n : Nat) (s : State) : Bool :=
  let c := s.chan n
  match lowest (c.candidates.map (fun a => a.release)) with
  | none => false
  | some r => decide (r + gatherNs n s ≤ s.now)

/-! ### Listing one session (R81, R83, R174, R216, R226, R241) -/

/-- The oldest t pending tokens of a session: the first pending one, its drafts, its input (R54, R227). -/
def Chan.oldest (c : Chan) (i t : Nat) : List Nat :=
  let ds := match c.draftOf i with | some d => d.entries.map (fun e => e.token) | none => []
  let q := (c.queue i).words.map (fun w => w % 524288)
  let e := c.dir i
  let head := match e.sampPend, (c.sblk i).bind (fun b => b.hist e.kvLen) with
    | true, some h => [h.token]
    | true, none => [0]
    | false, _ => q.take 1
  (head ++ ds ++ (if e.sampPend then q else q.drop 1)).take t

/-- Drafts beyond t − 1 are dropped (R226). -/
def Chan.trimDraft (c : Chan) (i t : Nat) : Chan :=
  match c.draftOf i with
  | some d =>
    if t - 1 = 0 then c.dropDraft i
    else { c with drafts := tset (c.dir i).asqIndex { d with entries := d.entries.take (t - 1) } c.drafts }
  | none => c

/-- The output ring of a session has its 8,192 bytes free by out_head, or there is no ring (R241). -/
def Chan.outRoom (c : Chan) (i : Nat) : Bool :=
  match c.sblk i with
  | some b => b.img.outAddr == 0 || decide (8192 + (b.outTail - b.outHead) ≤ 2 ^ b.img.outExp)
  | none => true

/-- Why a session was not listed: the status, and whether it is counted for EV_KV_SPACE (R82, R241). -/
structure NotListed where
  st : Status
  kv : Bool
  c : Chan

/-- A session joins the list with t tokens: reserved, RUNNING, with its slot; or it is not listed. -/
def listSession (num t driver : Nat) (handle : Handle) (w : Wm) (c : Chan) : Except NotListed (Slot × Chan) :=
  let i := handle.index
  let c' := c.trimDraft i t
  let samples := t == c'.pendingOf i
  if samples && !c.outRoom i then .error ⟨.noSpace, false, { c with outFull := wrap64 (c.outFull + 1) }⟩
  else
    let e := c.dir i
    let x := c.prof e.profile
    match c'.reserve w i (List.range x.layers) e.kvLen t num with
    | .error (st, f) => .error ⟨st, true, c.withFails f⟩
    | .ok (new, copies, c2) =>
      let drafts := match c'.draftOf i with | some d => d.entries | none => []
      let slot : Slot :=
        { index := i, handle := handle, tokens := c'.oldest i t, driver := driver, kvStart := e.kvLen
          deadline := (c.asqOf i).bind (fun a => a.absDeadline), samples := samples, rows := 1 + drafts.length, drafts := drafts
          reserved := new, copies := copies, ready := c.readyLayers i }
      let c3 := (c2.touch i (some num)).modDir i (fun e => { e with state := .running, lastStep := num })
      .ok (slot, { c3 with asq := tmod e.asqIndex (fun a => { a with state := 2, driver := driver, driverValid := true }) c3.asq })

/-- A session left out under R83: STOPPED with reason 7 and its header-only record (R240). -/
def contextStop (ch i : Nat) (s : State) : State :=
  let c := s.chan ch
  let e := c.dir i
  let dl := (c.asqOf i).bind (fun a => a.absDeadline)
  let c := c.touch i none
  let c := match c.sblk i with
    | some b => c.setSblk i { b with stopReason := 7, stopIndex := 0, matcher := holdRel b.matcher }
    | none => c
  let s := s.setChan ch ((c.modDir i (fun e => { e with state := .stopped })).leaveAsq i)
  let s := match (s.chan ch).sblk i with
    | some b => outRecord ch i e.owner (recordFields 0 e.kvLen 7 0 0 0 b.matcher.dtUtf8.length .contextLimit b.matcher.depth) [] [] s
    | none => s
  countMiss ch 0 (missed dl s.now) 0 s

/-- EV_KV_SPACE: sequences refused are counted, and the event goes out at most once per 1 ms (R82). -/
def kvSpaceEvent (ch n : Nat) (s : State) : State :=
  if n = 0 then s
  else
    let c := s.chan ch
    let c := { c with kvRefused := c.kvRefused + n }
    let due := match c.kvEventAt with | none => true | some t => decide (t + 1000000 ≤ s.now)
    if due then raiseEvent 0 (.kvSpace (satTo 4294967295 c.kvRefused)) ch (s.setChan ch { c with kvRefused := 0, kvEventAt := some s.now })
    else s.setChan ch c

/-! ### The mask cache (R233) -/

/-- One block of a mask is at hand: it is the most recent of its set, and the least recent of eight gives way. -/
def touchMask (t : MaskTag) (m : Tbl (List MaskTag)) : Tbl (List MaskTag) :=
  let set := ((t.slot * 65536 + t.mask) * 128 + t.block) % 224
  tset set ((t :: ((tget set m).getD []).filter (fun u => u != t)).take 8) m

/-- The mask blocks of a sampling session with a grammar are fetched at the fixing (R233). -/
def fetchMask (i : Nat) (c : Chan) : Chan :=
  let e := c.dir i
  match e.grammarEn, c.gramImage e.grammarSlot, c.sblk i with
  | true, some g, some b =>
    { c with maskCache :=
        (List.range (ceilDiv g.vocabSize 4096)).foldl (fun m k => touchMask ⟨e.grammarSlot, g.maskIx b.curState, k⟩ m) c.maskCache }
  | _, _, _ => c

/-! ### Fixing a step (R165, R182, R184, R186) -/

/-- The least of deadlines; none is later than any (R184). -/
def leastDeadline (ds : List (Option Nat)) : Option Nat := lowest (ds.filterMap id)

/-- SPILLED pages that a step of a session reads, in layer, row and head order (R97). -/
def stepSpilled (c : Chan) (i : Nat) : List Nat :=
  let x := c.prof (c.dir i).profile
  (List.range x.layers).flatMap (fun l => ((c.map i).filter (fun m => m.2.valid && x.layerOf m.1 == l
    && x.stepReads (c.dir i).kvLen m.1 && (c.page m.2.desc).residency == .spilled)).map (fun m => m.2.desc))

/-- A fixed step: numbered, its masks and spilled pages fetched, the tiles divided. -/
def startStep (ch : Nat) (fixed : Bool) (dl : Option Nat) (slots : List Slot) (s : State) : State :=
  let c := s.chan ch
  let num := c.nextStep
  let c := { c with steps := c.steps ++ [⟨num, fixed, dl, slots, false, false, false, none, s.now⟩], nextStep := num + 1 }
  let c := slots.foldl (fun (c : Chan) x => if x.samples then fetchMask x.index c else c) c
  let s := slots.foldl (fun s x => startFetches ch x.index (stepSpilled (s.chan ch) x.index) s) (s.setChan ch c)
  dispatchChan ch s

/-- What build_work_list has so far: the list, the tokens left, the sequences refused for KV. -/
structure Build where
  s : State
  slots : List Slot
  left : Nat
  refused : Nat

/-- One candidate of build_work_list (R172). -/
def buildOne (ch : Nat) (subs : List Nat) (a : Asq) (b : Build) : Build :=
  let i := a.handle.index
  let c := b.s.chan ch
  if b.slots.length = stepSeqs ch b.s ∨ b.left = 0 ∨ !c.isCandidate i then b
  else
    let e := c.dir i
    let t := min (min (c.pendingOf i) 2048) b.left
    if (c.prof e.profile).maxPositions < e.kvLen + t then { b with s := contextStop ch i b.s }
    else
      match listSession c.nextStep t (chooseDriver subs (some a) b.slots) a.handle (wmOf ch b.s) c with
      | .error f => { b with s := b.s.setChan ch f.c, refused := b.refused + if f.kv then 1 else 0 }
      | .ok (x, c) => { b with s := b.s.setChan ch c, slots := b.slots ++ [x], left := b.left - t }

/-- build_work_list (R172): an empty list uses no step number. -/
def buildList (ch : Nat) (s : State) : State :=
  let b := (s.chan ch).candidates.foldl (fun b a => buildOne ch (enabledSubs ch s) a b) ⟨s, [], stepTokens ch s, 0⟩
  let s := kvSpaceEvent ch b.refused b.s
  if b.slots.isEmpty then s else startStep ch false (leastDeadline (b.slots.map (fun x => x.deadline))) b.slots s

/-- The next work list is fixed where every condition of R171 holds. -/
def fixList (ch : Nat) (s : State) : State :=
  if mayFix ch s && !fixedMode ch s && gatherOver ch s then buildList ch s else s

/-- GATHER_EXPIRY (R171): the gather time has passed, and the list is fixed if that was the last of its conditions. -/
def execGatherExpiry (channel : Nat) : State → Host.Outcome State Fault Refusal := whenUp (fixList channel)

/-- WORK_LIST_FIX (R171, R172): another condition was the last. -/
def execWorkListFix (channel : Nat) : State → Host.Outcome State Fault Refusal := whenUp (fun s => fixList channel s)

/-! ### FIXED mode (R177, R179) -/

/-- The checks of OP_STEP as a whole (R164, R179). -/
def stepCheck (ch fn : Nat) (a : StepArgs) (s : State) : Option Status :=
  if !fixedMode ch s then some .schedMode
  else if a.count = 0 then some .lenZero
  else if stepSeqs ch s < a.count then some .paramInvalid
  else
    match rangesCheck fn [(a.listAddr, 16 * a.count), (a.resultAddr, 8 * a.count)] s with
    | some st => some st
    | none =>
      if stepTokens ch s < (a.entries.map (fun e => e.tokens)).sum ∨ a.entries.any (fun e => !wlEnabled ch e.driver s) then
        some .paramInvalid
      else none

/-- OP_STEP (R164, R179): held until its list is fixed. -/
def execOpStep (d : Hdr) (a : StepArgs) : State → Host.Outcome State Fault Refusal :=
  accept 0x28 d (fun fn ch s =>
    match stepCheck ch fn a s with
    | some st => complete d 0x28 st [] [] s
    | none => addOp 0x28 d fn ch [(a.listAddr, 16 * a.count), (a.resultAddr, 8 * a.count)] false (.stepWait ch a) s)

/-- What the fixing of an OP_STEP has so far: the list, the results (status, slot, stop reason), the handles and the refused. -/
structure FixedBuild where
  s : State
  slots : List Slot
  res : List (Nat × Nat × Nat)
  seen : List Handle
  refused : Nat

/-- One list entry of OP_STEP (R179). -/
def fixOne (ch fn : Nat) (e : StepEntry) (b : FixedBuild) : FixedBuild :=
  let out (st : Status) (stop : Nat) (b : FixedBuild) : FixedBuild := { b with res := b.res ++ [(statusCode st, 0xFFFF, stop)] }
  match checkHandle e.handle ch fn b.s with
  | some st => out st 0 b
  | none =>
    let i := e.handle.index
    let c := b.s.chan ch
    if b.seen.contains e.handle then out .paramInvalid 0 b
    else if (c.dir i).state ≠ .runnable then out .sessionState 0 b
    else if e.tokens ≠ min (c.pendingOf i) 2048 ∨ e.tokens = 0 then out .paramInvalid 0 b
    else if (c.prof (c.dir i).profile).maxPositions < (c.dir i).kvLen + e.tokens then
      out .contextLimit 7 { b with s := contextStop ch i b.s }
    else
      match listSession c.nextStep e.tokens e.driver e.handle (wmOf ch b.s) c with
      | .error f => out f.st 0 { b with s := b.s.setChan ch f.c, refused := b.refused + if f.kv then 1 else 0 }
      | .ok (x, c) => { b with s := b.s.setChan ch c, slots := b.slots ++ [x], res := b.res ++ [(0, b.slots.length, 0)]
                               seen := e.handle :: b.seen }

/-- The OP_STEP whose list is fixed next (R179). -/
def waitingStep (ch : Nat) (s : State) : Option (RunOp × StepArgs) :=
  s.ops.findSome? (fun o => match o.kind with | .stepWait c a => if c = ch then some (o, a) else none | _ => none)

/-- The list of an OP_STEP is fixed; with no entry accepted the descriptor completes at once with step number 0. -/
def fixStep (ch : Nat) (op : RunOp) (a : StepArgs) (s : State) : State :=
  let num := (s.chan ch).nextStep
  let b := a.entries.foldl (fun b e => fixOne ch op.fn e b) ⟨s, [], [], [], 0⟩
  let s := kvSpaceEvent ch b.refused b.s
  if b.slots.isEmpty then
    endOp op .ok [0] [(a.resultAddr, .words (b.res.map (fun r => r.1 + r.2.1 * 65536 + r.2.2 * 4294967296)))] s
  else
    let s := { s with ops := s.ops.map (fun o => if o = op then { o with begun := true, kind := .step ch num a.resultAddr b.res } else o) }
    startStep ch true (if op.hdr.deadline = 0 then none else some (op.acceptedAt + op.hdr.deadline)) b.slots s

/-- FIXED_LIST_FIX (R179). -/
def execFixedListFix (channel : Nat) : State → Host.Outcome State Fault Refusal :=
  whenUp (fun s =>
    match mayFix channel s && fixedMode channel s, waitingStep channel s with
    | true, some (op, a) => fixStep channel op a s
    | _, _ => s)

/-! ### Publication (R173 to R176) -/

/-- The length of a LIST record (R173). -/
def listLength (xs : List Slot) : Nat := (64 + 32 * xs.length + 4 * (xs.map (fun x => x.tokens.length)).sum + 63) / 64 * 64

/-- A slot's entry (R174). -/
def entryBytes (c : Chan) (fixedAt : Nat) (x : Slot) (tokIndex : Nat) : List Byte :=
  let l := (c.prof (c.dir x.index).profile).layers
  let t := x.tokens.length
  layOut 32 [(0, 8, handleWord x.handle), (8, 4, x.kvStart), (0x0C, 2, t), (0x0E, 1, (c.dir x.index).profile),
    (0x0F, 1, x.driver + (if 1 < t then 8 else 0) + (if x.ready < l then 16 else 0)), (0x10, 2, x.ready), (0x14, 4, tokIndex),
    (0x18, 8, match x.deadline with | some d => min (d - fixedAt) 0xFFFFFFFFFFFE | none => 0xFFFFFFFFFFFF)]

/-- A LIST record (R173, R174): header, entries, token block, zeros. -/
def listBytes (ch : Nat) (st : StepRec) (s : State) : List Byte :=
  let toks := st.slots.flatMap (fun x => x.tokens)
  fillTo (listLength st.slots) (listHeader st.num (listLength st.slots) st.slots.length st.fixed (s.fid + ch * 64) toks.length ++
    (st.slots.foldl (fun (a : List Byte × Nat) x => (a.1 ++ entryBytes (s.chan ch) st.fixedAt x a.2, a.2 + x.tokens.length)) ([], 0)).1 ++
    toks.flatMap (natLE 4))

/-- The bytes a PAD before a record of a length takes in a subscriber's ring (R176). -/
def wlPad (ch k len : Nat) (s : State) : Nat :=
  let size := 2 ^ wlExp ch k s
  let off := (tget k (s.chan ch).wlTail).getD 0 % size
  if size < off + len then size - off else 0

/-- A subscriber's ring has space for a record (R176). -/
def wlSpace (ch k len : Nat) (s : State) : Bool :=
  decide ((tget k (s.chan ch).wlTail).getD 0 - wlHead ch k s + len + wlPad ch k len s ≤ 2 ^ wlExp ch k s)

/-- The record, after any PAD, goes to one subscriber, and then the tail (R173, R175, R176). -/
def writeList (ch k : Nat) (st : StepRec) (s : State) : State :=
  let len := listLength st.slots
  let size := 2 ^ wlExp ch k s
  let tail := (tget k (s.chan ch).wlTail).getD 0
  let pad := wlPad ch k len s
  let s := if pad = 0 then s else s.emit (.workList ch k (tail % size) pad true st.num 0 0
    (.bytes (padList st.num pad st.fixed (s.fid + ch * 64))))
  let s := s.emit (.workList ch k ((tail + pad) % size) len false st.num st.slots.length (st.slots.map (fun x => x.tokens.length)).sum
    (.bytes (listBytes ch st s)))
  (s.modChan ch (fun c => { c with wlTail := tset k (wrap64 (tail + pad + len)) c.wlTail })).emit (.tailWord ch k (wrap64 (tail + pad + len)))

/-- The fixed step that is not published. -/
def Chan.unpublished (c : Chan) : Option StepRec := c.steps.find? (fun st => !st.published && !st.closed)

/-- Every sequence of a step completes with a status (R176). -/
def endAllSeqs (ch num : Nat) (st : Status) (n : Nat) (s : State) : State :=
  (List.range n).foldl (fun s k => endSeq ch num k st none false s) s

/-- The list of a step is published to the enabled subscribers once each has space, or waits (R176). -/
def publish (ch : Nat) (st : StepRec) (s : State) : State :=
  let subs := enabledSubs ch s
  if subs.isEmpty then
    endAllSeqs ch st.num .accelTimeout st.slots.length
      (s.modChan ch (fun c => c.modStep st.num (fun st => { st with published := true, waitSince := none })))
  else if subs.all (fun k => wlSpace ch k (listLength st.slots) s) then
    (subs.foldl (fun s k => writeList ch k st s) s).modChan ch (fun c =>
      c.modStep st.num (fun st => { st with published := true, waitSince := none
                                            slots := st.slots.map (fun x => { x with requester := (wlFid ch x.driver s, 0) }) }))
  else s.modChan ch (fun c => c.modStep st.num (fun st => { st with waitSince := some (st.waitSince.getD s.now) }))

/-- WORK_LIST_PUBLISH (R176). -/
def execWorkListPublish (channel : Nat) : State → Host.Outcome State Fault Refusal :=
  whenUp (fun s => match (s.chan channel).unpublished with | some st => publish channel st s | none => s)

/-- A subscriber is disabled and its loss raised (R176). -/
def dropSub (ch k : Nat) (s : State) : State :=
  let a := chanBase ch + 0x100 + 0x20 * k
  raiseEvent 0 (.wlSubscriberDown k) ch (setEff a (wlSub ch k s - if wlEnabled ch k s then 65536 else 0) s)

/-- The slots whose driver is not enabled take another by choose_driver (R176). -/
def reassign (subs : List Nat) (xs : List Slot) : List Slot :=
  (xs.foldl (fun (a : List Slot × List Slot) x =>
    if subs.contains x.driver then (a.1 ++ [x], a.2)
    else
      let x := { x with driver := chooseDriver subs none a.2 }
      (a.1 ++ [x], a.2 ++ [x])) ([], xs.filter (fun x => subs.contains x.driver))).1

/-- The subscribers that lack space are disabled, their slots reassigned, and the list published to the rest (R176). -/
def waitOver (ch : Nat) (st : StepRec) (s : State) : State :=
  let short := (enabledSubs ch s).filter (fun k => !wlSpace ch k (listLength st.slots) s)
  let s := short.foldl (fun s k => dropSub ch k s) s
  let st := { st with slots := reassign (enabledSubs ch s) st.slots }
  let c := (s.chan ch).modStep st.num (fun _ => st)
  let c := st.slots.foldl (fun (c : Chan) x => { c with asq := tmod (c.dir x.index).asqIndex (fun a => { a with driver := x.driver }) c.asq }) c
  publish ch st (s.setChan ch c)

/-- WL_WAIT_TIMEOUT (R176). -/
def execWlWaitTimeout (channel : Nat) : State → Host.Outcome State Fault Refusal :=
  whenUp (fun s =>
    match (s.chan channel).unpublished with
    | some st => if st.waitSince.isSome then waitOver channel st s else s
    | none => s)

/-! ### Timeouts of a layer (R180) -/

/-- The accelerator owes the sequence inputs or logits. -/
def Slot.owed (x : Slot) : Bool := x.phase == .inputs || x.phase == .logits

/-- LAYER_TIMEOUT (R180, R217). -/
def execLayerTimeout (channel stepNo slot : Nat) : State → Host.Outcome State Fault Refusal :=
  whenUp (fun s =>
    match (s.chan channel).stepOf stepNo, (s.chan channel).slotOf stepNo slot with
    | some st, some x => if st.published && x.owed then endSeq channel stepNo slot .accelTimeout none true s else s
    | _, _ => s)

end Sys2Proof.Machine
end

