-- ==== Sys2Proof/Machine/Exchange.lean ====
section
/-! DEFINITION. The per-layer exchange of a step (R139 to R148): segments and their parts, protocol faults, holds (R181), the build of buckets
(R161), the completion of a sequence's layer, and the merge of shards (R158, R159). -/

namespace Sys2Proof.Machine

open Sys2Proof

/-! ### Parts (R140, R143) -/

/-- A segment joins its part: none when it overlaps another or runs past the part (R144), or when its offset or length lies outside the ranges
of R140. R144 does not list the last case, and the model takes it as a protocol fault too (DESIGN CHOICE, log entry 102). -/
def Part.add (p : Part) (size : Option Nat) (off len : Nat) (last : Bool) (data : List Byte) : Option Part :=
  if off % 16 ≠ 0 ∨ len % 16 ≠ 0 ∨ len < 16 ∨ 4080 < len ∨ data.length ≠ len then none
  else if p.pieces.any (fun e => decide (e.1 < off + len) && decide (off < e.1 + e.2.length)) then none
  else if (match size with | some n => decide (n < off + len) | none => false) then none
  else some { pieces := tset off data p.pieces, total := if last then some (off + len) else p.total }

/-- The segments cover a part of a size exactly and the last one has arrived (R143). -/
def Part.complete (p : Part) (size : Nat) : Bool := p.total.isSome && (p.pieces.map (fun e => e.2.length)).sum == size

/-- Some segment runs past a size. -/
def Part.beyond (p : Part) (size : Nat) : Bool := p.pieces.any (fun e => decide (size < e.1 + e.2.length))

/-- A complete part's bytes. -/
def Part.data (p : Part) : List Byte := p.pieces.flatMap (fun e => e.2)

/-- The CTRL part's fields (R141). -/
def parseCtrl (bs : List Byte) : Ctrl :=
  let f (off n : Nat) : Nat := leNat ((bs.drop off).take n)
  let h := f 0 8
  let fl := f 0x0B 1
  let dst := f 0x16 2
  { handle := ⟨h / 2 ^ 58, h / 2 ^ 55 % 8, h / 2 ^ 38 % 2 ^ 17, h / 2 ^ 32 % 64, h % 2 ^ 32⟩
    tokens := f 0x08 2, qFmt := f 0x0A 1 % 16, oFmt := f 0x0A 1 / 16, append := fl % 2 == 1, isPartial := fl / 2 % 2 == 1
    saturate := fl / 4 % 2 == 1, qpos := f 0x0C 4, kbase := f 0x10 4, shards := f 0x14 1, rank := f 0x15 1
    mergeFid := dst % 64, mergeChannel := dst / 64 % 8, toRequester := dst / 512 % 2 == 1, mergeStep := f 0x18 4, mergeSlot := f 0x1C 2 }

/-- Rank 0 of a sharded sequence holds its partial result and merges the others' (R158). -/
def Ctrl.merges (k : Ctrl) : Bool := decide (2 ≤ k.shards) && k.rank == 0 && !(k.isPartial && k.toRequester)

/-- The faults of a CTRL part (R144). -/
def ctrlOk (x : Slot) (k : Ctrl) : Bool :=
  handleWord k.handle == handleWord x.handle && k.tokens == x.tokens.length && xFmtOk k.qFmt && xFmtOk k.oFmt &&
  decide (1 ≤ k.shards) && decide (k.shards ≤ 16) && decide (k.rank < k.shards) && !(k.isPartial && k.oFmt != 9) &&
  !(k.append && k.qpos != k.kbase + x.kvStart) &&
  (match x.append0 with | some a => x.layer == 0 || a == k.append | none => true)

/-- The lengths of the parts (R142). -/
def qSize (x : Profile) (t fmt : Nat) : Nat := t * x.hq * x.d * xBytes fmt

def kvSize (x : Profile) (t : Nat) : Nat := t * x.kvHeads * x.d * x.e

def lseSize (x : Profile) (t : Nat) : Nat := (t * x.hq + 1) / 2 * 16

/-! ### Holds (R68, R181, R98) -/

/-- The job of a slot's layer, with an output kind. -/
def slotJob (x : Slot) (k : Ctrl) (part : Bool) : AttnJob :=
  ⟨x.index, x.layer, x.tokens.length, x.localLen, k.qpos, k.kbase, k.qFmt, k.oFmt, part, k.saturate, x.q.data, x.reserved⟩

/-- The pages a slot's layer reads. -/
def slotReads (c : Chan) (x : Slot) (k : Ctrl) : List Nat := jobReads c (slotJob x k false)

def slotReady (c : Chan) (x : Slot) (k : Ctrl) : Ready := jobReady c (slotJob x k false)

/-- The head and row of the first page a slot's layer reads that satisfies a test: what its ERR part names (R142). -/
def slotWhere (c : Chan) (x : Slot) (k : Ctrl) (f : Page → Bool) : Nat × Nat :=
  let p := c.prof (c.dir x.index).profile
  match (readEntries c x.index x.layer x.localLen k.qpos x.tokens.length k.kbase x.reserved).find? (fun e => f (c.page e.2)) with
  | some e => (p.headOf e.1, p.rowOf e.1)
  | none => (0, 0)

/-- A SPILLED page of a sequence's layer is fetched; its tier cannot be reached (R98). -/
def fetchFails (ch : Nat) (ds : List Nat) (s : State) : Bool :=
  ds.any (fun d =>
    let p := (s.chan ch).page d
    let (fid, unit, _) := locTarget ch p.loc s
    p.residency == .spilled && (unitMarked fid unit s || (fid == s.fid && decide (unit < 8) && (s.chan unit).state == .failed)))

/-- A sequence whose inputs are complete, or that was held, takes its place: ready, held, or ended by a lost page or an unreachable
tier (R98, R181). -/
def placeSlot (ch num sl : Nat) (s : State) : State :=
  match (s.chan ch).slotOf num sl with
  | none => s
  | some x =>
    match x.ctrl with
    | none => s
    | some k =>
      let ds := slotReads (s.chan ch) x k
      let ends (st : Status) (f : Page → Bool) (s : State) : State :=
        endSeq ch num sl st none true (s.modChan ch (fun c => c.modSlot num sl (fun y => { y with errAt := slotWhere c x k f })))
      if fetchFails ch ds s then ends .peerUnreachable (fun p => p.residency == .spilled) s
      else
        let s := startFetches ch x.index ds s
        match slotReady (s.chan ch) x k with
        | .lost => ends .pageLost (fun p => p.residency == .lost) s
        | .held => checkStep ch num (s.modChan ch (fun c => c.modSlot num sl (fun x => { x with phase := .held })))
        | .ready => s.modChan ch (fun c => c.modSlot num sl (fun x => { x with phase := .ready }))

/-- The slots of a channel in a phase: step and slot numbers. -/
def slotsIn (c : Chan) (ph : Phase) : List (Nat × Nat) :=
  c.steps.flatMap (fun t => ((List.range t.slots.length).filter (fun k =>
    match t.slots[k]? with | some x => x.phase == ph | none => false)).map (fun k => (t.num, k)))

/-- Held sequences whose pages have come, or are lost, go on (R181). -/
def wakeHeld (ch : Nat) (s : State) : State := (slotsIn (s.chan ch) .held).foldl (fun s h => placeSlot ch h.1 h.2 s) s

/-! ### Inputs (R143, R144) -/

/-- A protocol fault of a sequence (R144). -/
def protoFault (ch num sl : Nat) (s : State) : State := endSeq ch num sl .attnProtocol none true s

/-- The CTRL part has come: its faults, and those of parts that came before it (R144). -/
def takeCtrl (p : Profile) (x : Slot) : Option Slot :=
  match x.ctrl with
  | some _ => some x
  | none =>
    if !x.ctrlPart.complete 64 then some x
    else
      let k := parseCtrl x.ctrlPart.data
      let t := x.tokens.length
      if !ctrlOk x k || x.q.beyond (qSize p t k.qFmt) || (!k.append && !(x.k.pieces.isEmpty && x.v.pieces.isEmpty))
        || (!k.merges && !(x.mergeO.isEmpty && x.mergeLse.isEmpty))
        || (x.mergeO ++ x.mergeLse).any (fun e => decide (k.shards ≤ e.1)) then none
      else some { x with ctrl := some k, append0 := some (x.append0.getD k.append) }

/-- The inputs of a slot's layer are complete (R143). -/
def inputsDone (p : Profile) (x : Slot) : Bool :=
  match x.ctrl with
  | none => false
  | some k =>
    let t := x.tokens.length
    x.q.complete (qSize p t k.qFmt) && (!k.append || (x.k.complete (kvSize p t) && x.v.complete (kvSize p t)))

/-- An input part's segment joins (R143, R144). -/
def addInput (p : Profile) (x : Slot) (g : Seg) : Option Slot :=
  let t := x.tokens.length
  let noKv := match x.ctrl with | some k => !k.append | none => false
  if x.phase ≠ .inputs ∨ g.layer ≠ x.layer then none
  else if g.part = 0 then (x.ctrlPart.add (some 64) g.offset g.len g.last g.data).map (fun r => { x with ctrlPart := r })
  else if g.part = 1 then
    (x.q.add (x.ctrl.map (fun k => qSize p t k.qFmt)) g.offset g.len g.last g.data).map (fun r => { x with q := r })
  else if noKv then none
  else if g.part = 2 then (x.k.add (some (kvSize p t)) g.offset g.len g.last g.data).map (fun r => { x with k := r })
  else (x.v.add (some (kvSize p t)) g.offset g.len g.last g.data).map (fun r => { x with v := r })

/-- A part of another shard's partial result joins (R158): with rank 1 or above, at the layer in hand, on a merge channel. -/
def addShard (p : Profile) (x : Slot) (g : Seg) : Option Slot :=
  let t := x.tokens.length
  let awaited := match x.ctrl with | some k => k.merges && decide (g.rank < k.shards) | none => true
  if g.rank = 0 ∨ g.layer ≠ x.layer ∨ !awaited ∨ x.phase = .logits then none
  else if g.part = 4 then
    (((tget g.rank x.mergeO).getD {}).add (some (qSize p t 9)) g.offset g.len g.last g.data).map (fun r => { x with mergeO := tset g.rank r x.mergeO })
  else
    (((tget g.rank x.mergeLse).getD {}).add (some (lseSize p t)) g.offset g.len g.last g.data).map (fun r =>
      { x with mergeLse := tset g.rank r x.mergeLse })

/-- Every other rank's O and LSE parts have come (R158). -/
def shardsDone (p : Profile) (x : Slot) (k : Ctrl) : Bool :=
  let t := x.tokens.length
  (List.range (k.shards - 1)).all (fun r =>
    ((tget (r + 1) x.mergeO).getD {}).complete (qSize p t 9) && ((tget (r + 1) x.mergeLse).getD {}).complete (lseSize p t))

/-! ### The outputs of a layer (R145, R158, R216) -/

/-- The slot's next layer may be sent (R143). -/
def Slot.nextLayer (x : Slot) : Slot :=
  { x with layer := x.layer + 1, ctrl := none, ctrlPart := {}, q := {}, k := {}, v := {}, mergeO := [], mergeLse := [], ownPart := ([], []), phase := .inputs
           build := 0, bucket := 0 }

/-- A part goes to where a slot's sequence is driven from. -/
def sendPart (ch num sl : Nat) (x : Slot) (part : Nat) (bs : List Byte) (s : State) : State :=
  emitPart false ch x.requester.1 x.requester.2 num sl x.layer part 0 .ok bs s

/-- The REQ of a sequence that samples (R216): vocab, rows, format, first. -/
def sendReqPart (ch num sl : Nat) (x : Slot) (s : State) : State :=
  let vocab := match (s.chan ch).tokImage ((s.chan ch).dir x.index).tokenizer with | some t => t.vocabSize | none => 0
  emitPart true ch x.requester.1 x.requester.2 num sl 0 0 0 .ok
    (natLE 4 vocab ++ natLE 1 x.rows ++ natLE 1 (logitFmt ch s) ++ natLE 2 (x.tokens.length - x.rows) ++ natLE 8 0) s

/-- After the last outbound segment of a layer: the next layer, the REQ, or the end of the sequence (R143, R216). -/
def layerSent (ch num sl : Nat) (s : State) : State :=
  match (s.chan ch).slotOf num sl with
  | none => s
  | some x =>
    if x.layer + 1 < ((s.chan ch).prof ((s.chan ch).dir x.index).profile).layers then
      s.modChan ch (fun c => c.modSlot num sl Slot.nextLayer)
    else if x.samples then
      (sendReqPart ch num sl x s).modChan ch (fun c => c.modSlot num sl (fun x => { x with phase := .logits, build := 0, bucket := 0 }))
    else endSeq ch num sl .ok none true s

/-! ### The merge of shards (R158, R159) -/

/-- The LSE and O of a row out of the bytes of a partial result's parts. -/
def partRow (p : Profile) (o l : List Byte) (row : Nat) : PartRow :=
  let w (off : Nat) : F32 := BitVec.ofNat 32 (leNat ((l.drop off).take 4))
  ⟨w (row * 8), w (row * 8 + 4), valuesOf 9 p.d ((o.drop (row * p.d * 4)).take (p.d * 4))⟩

/-- The merged O part in the merge shard's own format (R158, R159): its own partial result, as its free value placed it, with the others'. -/
def mergedBytes (c : Chan) (x : Slot) (k : Ctrl) (ix : Nat) : List Byte :=
  let p := c.prof (c.dir x.index).profile
  let parts := (x.ownPart.1, x.ownPart.2) :: (List.range (k.shards - 1)).map (fun r =>
    (((tget (r + 1) x.mergeO).getD {}).data, ((tget (r + 1) x.mergeLse).getD {}).data))
  (List.range (x.tokens.length * p.hq)).flatMap (fun row =>
    mergeOut k.oFmt p.d k.saturate ix (row * p.d) (parts.map (fun b => partRow p b.1 b.2 row)))

/-- The merge channel sends the merged O part once its own result and every other rank's are there (R158). -/
def mergeSend (ch num sl : Nat) (s : State) : State :=
  match (s.chan ch).slotOf num sl with
  | none => s
  | some x =>
    match x.ctrl with
    | none => s
    | some k =>
      if x.phase == .merge && shardsDone ((s.chan ch).prof ((s.chan ch).dir x.index).profile) x k then
        layerSent ch num sl ((sendPart ch num sl x 4 (mergedBytes (s.chan ch) x k s.freeIx) s).advanceFree)
      else s

/-! ### SEG_ATTN (R143, R144, R158) -/

/-- The slot that a segment's step and slot name, not completed, in a published step. -/
def segSlot (c : Chan) (stepLo sl : Nat) : Option (Nat × Slot) :=
  match c.steps.find? (fun st => st.num % 4294967296 == stepLo && st.published) with
  | some st =>
    (match st.slots[sl]? with
     | some x => if x.phase = .done then none else some (st.num, x)
     | none => none)
  | none => none

/-- A segment that names no current sequence is discarded and counted (R143). -/
def discardSeg (ch : Nat) (s : State) : State := s.modChan ch (fun c => { c with attnDiscard := wrap64 (c.attnDiscard + 1) })

/-- A segment joins its sequence, which starts its layer when its inputs are complete, or ends it with a protocol fault. -/
def takeSeg (ch : Nat) (p : Pkt) (g : Seg) (s : State) : State :=
  let c := s.chan ch
  match segSlot c g.stepLo g.slot with
  | none => discardSeg ch s
  | some (num, x) =>
    let pr := c.prof (c.dir x.index).profile
    if g.part = 4 ∨ g.part = 5 then
      match addShard pr x g with
      | none => protoFault ch num g.slot s
      | some y => mergeSend ch num g.slot (s.modChan ch (fun c => c.modSlot num g.slot (fun _ => y)))
    else if 3 < g.part then protoFault ch num g.slot s
    else
      match (addInput pr x g).bind (takeCtrl pr) with
      | none => protoFault ch num g.slot s
      | some y =>
        let s := s.modChan ch (fun c => c.modSlot num g.slot (fun _ => { y with requester := (p.srcFid, p.srcUnit) }))
        if inputsDone pr y then placeSlot ch num g.slot s else s

/-- SEG_ATTN (R143). -/
def execSegAttn (p : Pkt) (g : Seg) : State → Host.Outcome State Fault Refusal :=
  whenUp (arrive p (fun s => if p.dstUnit = 8 then badPacket p.port s else takeSeg p.dstUnit p g s))

/-! ### BUCKET_BUILD (R161) -/

/-- The slots of a layer that are ready, those that wait for a tile first when any do. -/
def buildSlots (c : Chan) (layer : Nat) : List (Nat × Nat × Slot) :=
  let all := (slotsIn c .ready).filterMap (fun h => (c.slotOf h.1 h.2).map (fun x => (h.1, h.2, x)))
  let here := all.filter (fun h => h.2.2.layer == layer)
  let waiting := here.filter (fun h => h.2.2.build != 0)
  if waiting.isEmpty then here else waiting

/-- The bucket and cost of a slot's layer (R161). -/
def slotCost (c : Chan) (x : Slot) : Nat × Nat :=
  let p := c.prof (c.dir x.index).profile
  match x.ctrl with
  | none => (0, 0)
  | some k =>
    let n := attendedCount c (slotJob x k false)
    (bucketOf n, p.kvHeads * layerCost p x.tokens.length n)

/-- A bucket comes before another by a measure, the higher number first among equals. -/
def bucketBefore (f : Nat → Nat) (a b : Nat) : Bool := decide (f b < f a) || (f a == f b && decide (b < a))

def insertBucket (f : Nat → Nat) (a : Nat) : List Nat → List Nat
  | [] => [a]
  | b :: r => if bucketBefore f a b then a :: b :: r else b :: insertBucket f a r

def orderBuckets (f : Nat → Nat) (bs : List Nat) : List Nat := bs.foldl (fun l b => insertBucket f b l) []

/-- apportion of R161: the tiles of each live bucket; a live bucket with none waits. -/
def apportion (cost : Nat → Nat) (tiles : Nat) : Tbl Nat :=
  let live := (List.range 13).filter (fun b => decide (0 < cost b))
  if tiles < live.length then ((orderBuckets cost live).take tiles).foldl (fun t b => tset b 1 t) []
  else
    let spare := tiles - live.length
    let total := (live.map cost).sum
    let left := spare - (live.map (fun b => spare * cost b / total)).sum
    let more := (orderBuckets (fun b => spare * cost b % total) live).take left
    live.foldl (fun t b => tset b (1 + spare * cost b / total + if more.contains b then 1 else 0) t) []

/-- The numbers of tiles dealt to buckets out of a list of free tiles, bucket by bucket. -/
def nameTiles : Tbl Nat → List Nat → Tbl (List Nat)
  | [], _ => []
  | (b, n) :: r, ts => (b, ts.take n) :: nameTiles r (ts.drop n)

/-- The pages of a bucket's items in dealing order, sequence, KV head and row, each with its cost (R162): a page that no position of is
attended is not dealt. -/
def bucketPages (c : Chan) (xs : List Slot) : List (Nat × Nat) :=
  xs.flatMap (fun x =>
    let p := c.prof (c.dir x.index).profile
    match x.ctrl with
    | none => []
    | some k =>
      let j := slotJob x k false
      (List.range p.kvHeads).flatMap (fun h => (List.range ((j.localLen + p.p - 1) / p.p)).filterMap (fun r =>
        match c.pageFor j.i (p.entry r j.l h) j.new with
        | none => none
        | some d =>
          let a := ((List.range j.t).map (fun i => ((List.range p.p).filter (fun o =>
            attends p j.localLen (j.qpos + i) j.kbase (r * p.p + o))).length)).foldl max 0
          if a = 0 then none else some (d, layerCost p j.t a))))

/-- The tile that each page goes to: floor (s × T / C), s the cost of the pages before it (R162). -/
def dealPages (tiles cost : Nat) : Nat → List (Nat × Nat) → List (Nat × Nat)
  | _, [] => []
  | before, (d, k) :: r => (d, before * tiles / cost) :: dealPages tiles cost (before + k) r

/-- The tiles of a bucket that a page is dealt to; the others stay idle for it (R162). -/
def tilesUsed (c : Chan) (xs : List Slot) (ts : List Nat) : List Nat :=
  let ps := bucketPages c xs
  let used := (dealPages ts.length (max 1 (ps.map (·.2)).sum) 0 ps).map (·.2)
  ((List.range ts.length).filter (fun i => used.contains i)).filterMap (fun i => ts[i]?)

/-- The slots of a layer are dealt to the tiles free at the build (R161): a sequence with no attended position takes no tile and runs at
once. -/
def buildLayer (layer : Nat) (c : Chan) : Chan :=
  let bs := buildSlots c layer
  let xs := bs.map (fun h => (h.1, h.2.1, slotCost c h.2.2))
  let cost (b : Nat) : Nat := ((xs.filter (fun h => h.2.2.1 == b)).map (fun h => h.2.2.2)).sum
  let tiles := c.freeTiles
  if xs.isEmpty || tiles.isEmpty then c
  else
    let deal := nameTiles (apportion cost tiles.length) tiles
    let num := c.nextBuild + 1
    let used := deal.flatMap (fun b => tilesUsed c ((bs.filter (fun h => (slotCost c h.2.2).1 == b.1)).map (·.2.2)) b.2)
    let c := xs.foldl (fun (c : Chan) (h : Nat × Nat × Nat × Nat) => c.modSlot h.1 h.2.1 (fun x =>
      if h.2.2.2 = 0 ∨ (tget h.2.2.1 deal).isSome then { x with phase := .tiles, build := num, bucket := h.2.2.1 }
      else { x with build := num, bucket := h.2.2.1 })) c
    { (c.useTiles used) with builds := tset num deal c.builds, nextBuild := num }

/-- BUCKET_BUILD (R161). -/
def execBucketBuild (channel layer : Nat) : State → Host.Outcome State Fault Refusal :=
  whenUp (fun s => (wakeHeld channel s).modChan channel (buildLayer layer))

/-- Builds whose sequences have all left are forgotten. -/
def dropBuilds (c : Chan) : Chan :=
  { c with builds := c.builds.filter (fun b => c.steps.any (fun st => st.slots.any (fun x => x.build == b.1 && x.phase != .done))) }

/-! ### ATTN_LAYER_COMPLETE (R145, R148, R158) -/

/-- The layer's new positions are in the reserved pages, after R62 or R85 where they apply (R148). -/
def appendLayer (x : Slot) (k : Ctrl) (c : Chan) : Chan :=
  if !k.append then c
  else
    let p := c.prof (c.dir x.index).profile
    let c := (lastEntries p [x.layer] x.kvStart).foldl (fun c e => c.copyLast x.index e x.copies) c
    c.writeLayer x.index x.layer x.kvStart (partRows p x.tokens.length x.k.data) (partRows p x.tokens.length x.v.data) x.reserved

/-- The layer ran: pages read, scores, and its outputs (R99, R100, R145, R158). -/
def layerRan (ch num sl : Nat) (x : Slot) (k : Ctrl) (s : State) : State :=
  let c := appendLayer x k (s.chan ch)
  let j := slotJob x k (k.isPartial || k.merges)
  let o := oBytes c j s.freeIx
  let lse := lseBytes c j (s.freeIx + 1)
  let reads := slotReads c x k
  let c := scorePages c j num (s.freeIx + 2)
  let c := c.modSlot num sl (fun x => { x with reads := x.reads ++ reads.filter (fun d => !x.reads.contains d)
                                               ownPart := if k.merges then (o, lse) else x.ownPart
                                               phase := if k.merges then .merge else x.phase })
  let s := addSticky ch (attnBlocks (c.prof (c.dir x.index).profile) j.t j.localLen) ({ s with freeIx := s.freeIx + 2 + 16777216 }.setChan ch c)
  if k.merges then mergeSend ch num sl s
  else if k.isPartial && !k.toRequester then
    if unitMarked k.mergeFid k.mergeChannel s then endSeq ch num sl .peerUnreachable none true s else
    let send (part : Nat) (b : List Byte) (s : State) : State :=
      emitPart false ch k.mergeFid k.mergeChannel k.mergeStep k.mergeSlot x.layer part k.rank .ok b s
    layerSent ch num sl (send 5 lse (send 4 o s))
  else
    let s := sendPart ch num sl x 4 o s
    layerSent ch num sl (if k.isPartial then sendPart ch num sl x 5 lse s else s)

/-- ATTN_LAYER_COMPLETE (R145). -/
def execAttnLayerComplete (channel stepNo slot : Nat) : State → Host.Outcome State Fault Refusal :=
  whenUp (fun s =>
    match (s.chan channel).slotOf stepNo slot with
    | some x =>
      (match x.phase, x.ctrl with
       | .tiles, some k => (layerRan channel stepNo slot x k s).modChan channel dropBuilds
       | _, _ => s)
    | none => s)

/-- MERGE_TIMEOUT (R158). -/
def execMergeTimeout (channel stepNo slot : Nat) : State → Host.Outcome State Fault Refusal :=
  whenUp (fun s =>
    match (s.chan channel).slotOf stepNo slot with
    | some x => if x.phase = .merge then endSeq channel stepNo slot .peerUnreachable none true s else s
    | none => s)

end Sys2Proof.Machine
end

