-- ==== Sys2Proof/Machine/Sample.lean ====
section
/-! DEFINITION. Sampling: the generator (R223), the pipeline (R221, R222), draws (R224), draft verification (R225 to R228), the end checks
of R53 with text out (R236 to R239), LOGITS segments (R217) and the refresh of out_head (R241). -/

namespace Sys2Proof.Machine

open Sys2Proof

/-! ### The generator (R223) -/

/-- One round of Philox4x32. -/
def philoxRound (c : Nat × Nat × Nat × Nat) (k : Nat × Nat) : Nat × Nat × Nat × Nat :=
  let p0 := 0xD2511F53 * c.1
  let p1 := 0xCD9E8D57 * c.2.2.1
  ((p1 / 4294967296) ^^^ c.2.1 ^^^ k.1, p1 % 4294967296, (p0 / 4294967296) ^^^ c.2.2.2 ^^^ k.2, p0 % 4294967296)

/-- Rounds of Philox with the key raised after each. -/
def philoxRun : Nat → Nat × Nat × Nat × Nat → Nat × Nat → Nat × Nat × Nat × Nat
  | 0, c, _ => c
  | n + 1, c, k => philoxRun n (philoxRound c k) ((k.1 + 0x9E3779B9) % 4294967296, (k.2 + 0xBB67AE85) % 4294967296)

/-- philox of R223. -/
def philox (c : Nat × Nat × Nat × Nat) (k : Nat × Nat) : Nat × Nat × Nat × Nat := philoxRun 10 c k

/-- One of four words. -/
def word4 (w : Nat × Nat × Nat × Nat) (k : Nat) : Nat :=
  if k = 0 then w.1 else if k = 1 then w.2.1 else if k = 2 then w.2.2.1 else w.2.2.2

/-- The 24 bits of a draw: the uniform value is (2k + 1) × 2^-25. -/
def drawBits (seed : Word) (step pos purpose idx word : Nat) : Nat :=
  word4 (philox (step % 4294967296, step / 4294967296 % 4294967296, pos % 4294967296, purpose * 268435456 ||| idx)
    (seed.toNat % 4294967296, seed.toNat / 4294967296)) word / 256

/-- The uniform value of a draw, exact, in (0, 1) (R223). -/
def uniform (seed : Word) (step pos purpose idx word : Nat) : FVal :=
  .fin false (2 * drawBits seed step pos purpose idx word + 1) 1 (-25)

/-! ### The pipeline (R221, R222) -/

/-- A sum of FP32 values formed in a WIDE entry, rounded once when read (R120, R221). -/
def wideSum (xs : List F32) : F32 := wideF32 (xs.foldl (fun w x => wideMerge w ⟨f32 x, false, false⟩) wideZero)

/-- Stage 1: the bias. -/
def biasRow (g : ParamImage) (x : List F32) : List F32 :=
  (g.bias.take g.biasCount).foldl (fun x b => modAt (fun v => f32add v b.2) b.1 x) x

/-- Stage 2 on one logit: a token seen c times in the window. -/
def penalise (g : ParamImage) (c : Nat) (v : F32) : F32 :=
  let v := if f32lt 0 v then f32div v g.repPenalty else f32mul v g.repPenalty
  f32sub (f32sub v g.presence) (f32mul g.frequency (f32nat c))

/-- The numbers of a list, each once. -/
def distinct : List Nat → List Nat
  | [] => []
  | a :: r => if r.contains a then distinct r else a :: distinct r

/-- Stage 2: the penalties, over the tokens of the window. -/
def penaltyRow (g : ParamImage) (win : List Nat) (x : List F32) : List F32 :=
  (distinct win).foldl (fun x id => modAt (penalise g (win.count id)) id x) x

/-- Entries with their ids. -/
def withIds (x : List F32) : List (Nat × F32) := (List.range x.length).zip x

/-- Stage 3: the grammar mask. -/
def maskRow (mask : Option (List Nat)) (x : List F32) : List F32 :=
  match mask with
  | none => x
  | some m => (withIds x).map (fun e => if m.contains e.1 then e.2 else f32ninf)

/-- The greatest entry, the lowest id among equals. -/
def argmaxRow (x : List F32) : Nat :=
  match withIds x with
  | [] => 0
  | e :: r => (r.foldl (fun b e => if f32lt b.2 e.2 then e else b) e).1

/-- An entry comes before another: greater, or equal with the lower id. -/
def candLt (a b : Nat × F32) : Bool := f32lt b.2 a.2 || (!f32lt a.2 b.2 && decide (a.1 < b.1))

/-- Insert into an ordered list kept to k entries. -/
def insertTop (k : Nat) (e : Nat × F32) (l : List (Nat × F32)) : List (Nat × F32) :=
  let before := l.takeWhile (fun b => candLt b e)
  (before ++ e :: l.drop before.length).take k

/-- Stage 5: the k finite entries of greatest value. -/
def topRow (k : Nat) (x : List F32) : List (Nat × F32) :=
  ((withIds x).filter (fun e => f32finite e.2)).foldl (fun l e => insertTop k e l) []

/-- The shortest run of entries from the front whose sum of p reaches a bound (stage 6). -/
def reachTop (bound : F32) : Wide → List (Nat × F32) → List (Nat × F32)
  | _, [] => []
  | w, e :: r =>
    let w := wideMerge w ⟨f32 e.2, false, false⟩
    if f32lt (wideF32 w) bound then e :: reachTop bound w r else [e]

/-- Probabilities over their sum. -/
def renormalise (c : List (Nat × F32)) : List (Nat × F32) :=
  let t := wideSum (c.map (·.2))
  c.map (fun e => (e.1, f32div e.2 t))

/-- Stages 5 to 7 of a row at temperature (R221, R222): the kept candidates and their probabilities. -/
def keptRow (g : ParamImage) (x : List F32) : List (Nat × F32) :=
  let c := topRow (if g.topK = 0 then 1024 else g.topK) x
  match c with
  | [] => []
  | c0 :: _ =>
    let p := renormalise (c.map (fun e => (e.1, f32exp (f32sub e.2 c0.2))))
    let p := reachTop g.topP wideZero p
    let thr := f32mul g.minP ((p.head?.map (·.2)).getD 0)
    renormalise (p.filter (fun e => !f32lt e.2 thr))

/-- cdf_draw (R224). -/
def cdfDraw (u : FVal) : Wide → List (Nat × F32) → Nat
  | _, [] => 0
  | _, [e] => e.1
  | w, e :: r =>
    let w := wideMerge w ⟨f32 e.2, false, false⟩
    if u.lt (f32 (wideF32 w)) then e.1 else cdfDraw u w r

/-- race_draw (R224). -/
def raceDraw (g : ParamImage) (step pos : Nat) (x : List F32) : Nat :=
  argmaxRow ((withIds x).map (fun e => if e.2 == f32ninf then f32ninf
    else f32sub e.2 (f32log (f32neg (logDraw (drawBits g.seed step pos 3 (e.1 / 4) (e.1 % 4)))))))

/-- Stages 1 to 3 of a row; none with no candidate left. -/
def shapeRow (g : ParamImage) (win : List Nat) (mask : Option (List Nat)) (x : List F32) : Option (List F32) :=
  let x := maskRow mask (penaltyRow g win (biasRow g x))
  if x.all (fun v => v == f32ninf) then none else some x

/-- Stage 4. -/
def coolRow (g : ParamImage) (x : List F32) : List F32 := x.map (fun v => f32div v g.temperature)

/-- sample_row (R221) of a row that verifies no draft: none for NO_CANDIDATE. -/
def sampleRow (g : ParamImage) (step pos : Nat) (win : List Nat) (mask : Option (List Nat)) (x : List F32) : Option Nat :=
  (shapeRow g win mask x).map (fun x =>
    if g.temperature = 0 then argmaxRow x
    else
      let x := coolRow g x
      if g.topK = 0 ∧ g.topP = 0x3F800000 ∧ f32isZero g.minP then raceDraw g step pos x
      else cdfDraw (uniform g.seed step pos 0 0 0) wideZero (keptRow g x))

/-! ### Windows and grammar states -/

/-- The tokens of the last penalty window before a position that count (R45, R221): CUT tokens never, input tokens unless
pen_gen_only. -/
def penWindow (b : SBlk) (pos : Nat) : List Nat :=
  (List.range (min b.img.penWindow pos)).filterMap (fun k =>
    (b.hist (pos - 1 - k)).bind (fun t => if t.cut || (b.img.penGenOnly && !t.gen) then none else some t.token))

/-- The mask of a session's grammar state (R230). -/
def maskOf (gr : Option GramImage) (state : Nat) : Option (List Nat) := gr.map (fun i => i.allowed state)

/-- grammar_next (R230). -/
def gramNext (gr : Option GramImage) (state tok : Nat) : Nat :=
  match gr with
  | none => state
  | some i => (i.next state tok).getD state

/-! ### Verification (R227) -/

/-- The support probability of a token in a draft entry: 0 outside. -/
def supportOf (d : DraftEntry) (id : Nat) : F32 := match d.support.find? (fun s => s.1 == id) with | some s => s.2 | none => 0

/-- The residual distribution: max(0, p − q) renormalised, or p when it is zero everywhere. -/
def residual (p : List (Nat × F32)) (d : DraftEntry) : List (Nat × F32) :=
  let r := p.map (fun e => (e.1, let v := f32sub e.2 (supportOf d e.1); if f32lt 0 v then v else 0))
  if r.all (fun e => f32isZero e.2) then p else renormalise r

/-- What verification and sampling emit: tokens, drafts accepted, and whether a row had no candidate. -/
structure Verified where
  toks : List Nat
  accepted : Nat
  none_ : Bool
deriving DecidableEq, Repr

/-- Tokens put in front of what a later row emits. -/
def Verified.cons (t : Nat) (v : Verified) : Verified := ⟨t :: v.toks, v.accepted + 1, v.none_⟩

/-- verify of R227: drafts against the rows, then the bonus token. `win` lists the window's tokens newest first, `state` the grammar's. -/
def verifyRows (g : ParamImage) (gr : Option GramImage) (step : Nat) : List DraftEntry → List (List F32) → Nat → List Nat → Nat → Verified
  | [], rows, pos, win, state =>
    match sampleRow g step pos (win.take g.penWindow) (maskOf gr state) (rows.headD []) with
    | some t => ⟨[t], 0, false⟩
    | none => ⟨[], 0, true⟩
  | d :: ds, rows, pos, win, state =>
    match shapeRow g (win.take g.penWindow) (maskOf gr state) (rows.headD []) with
    | none => ⟨[], 0, true⟩
    | some x =>
      let onward := (verifyRows g gr step ds rows.tail (pos + 1) (d.token :: win) (gramNext gr state d.token)).cons d.token
      if g.temperature = 0 then
        let t := argmaxRow x
        if t = d.token then onward else ⟨[t], 0, false⟩
      else
        let p := keptRow g (coolRow g x)
        let pd := match p.find? (fun e => e.1 == d.token) with | some e => e.2 | none => 0
        if (f32 (f32div pd (supportOf d d.token))).lt (uniform g.seed step pos 1 0 0) then
          ⟨[cdfDraw (uniform g.seed step pos 2 0 0) wideZero (residual p d)], 0, false⟩
        else onward

/-! ### Text out and the end checks (R53, R227, R236 to R239) -/

/-- A token's stop, in the order of R53: TOOL string, END string, EOS, LIMIT, GRAMMAR. -/
def tokenStop (g : ParamImage) (limit genCount : Nat) (gr : Option GramImage) (state tok : Nat) (str : Option (Nat × Nat)) : Nat :=
  match str with
  | some k => if (g.stops[k.1]?.map (·.kind)) = some 1 then 2 else 1
  | none =>
    if tok = g.eosId then 3
    else if limit ≤ genCount then 4
    else match gr with
      | some i => if i.accept state && i.final state then 5 else 0
      | none => 0

/-- The matcher's held bytes are released at these reasons (R239). -/
def releasesAt (stop : Nat) : Bool := stop == 3 || stop == 5 || stop == 6 || stop == 7 || stop == 8

/-- One emitted token through text out and the end checks; nothing once the session has ended. -/
def emitToken (t : TokImage) (gr : Option GramImage) (o : SampleOut) (tok : Nat) : SampleOut :=
  if o.stop ≠ 0 then o
  else
    let b := o.blk
    let tt := feedToken b.img b.automaton b.matcher (vocabLookup t tok)
    let state := gramNext gr b.curState tok
    let b := { b with genCount := b.genCount + 1, curState := state, gramSteps := if gr.isSome then b.gramSteps + 1 else b.gramSteps
                      matcher := tt.m, cutPending := b.cutPending || tt.stop.isSome }
    let stop := tokenStop b.img b.genLimitRun b.genCount gr state tok tt.stop
    let rel := if releasesAt stop then releaseHeld b.matcher else ([], b.matcher)
    { o with blk := { b with matcher := rel.2 }, toks := o.toks ++ [(tok, tt.stop.isSome)], text := o.text ++ tt.text ++ rel.1
             invalid := o.invalid + tt.invalid, stop := stop
             stopIndex := match tt.stop with | some k => k.1 | none => 0
             cutOff := match tt.stop with | some k => k.2 | none => 0 }

/-- A row with no candidate ends the session with reason 8, unless a token before it did (R221). -/
def noCandidate (o : SampleOut) : SampleOut :=
  if o.stop ≠ 0 then o
  else
    let rel := releaseHeld o.blk.matcher
    { o with stop := 8, text := o.text ++ rel.1, blk := { o.blk with matcher := rel.2 } }

/-- The logits of a row as FP32 (R217). -/
def logitRow (fmt vocab : Nat) (bs : List Byte) : List F32 :=
  if fmt = 9 then (List.range vocab).map (fun i => BitVec.ofNat 32 (leNat ((bs.drop (4 * i)).take 4)))
  else (List.range vocab).map (fun i => BitVec.ofNat 32 (leNat ((bs.drop (2 * i)).take 2) * 65536))

/-- A logit that ends the step (R217). -/
def badLogit (x : F32) : Bool := f32isNan x || x == 0x7F800000

/-- Bytes of a LOGITS row (R217). -/
def rowSize (fmt vocab : Nat) : Nat := (vocab * (if fmt = 9 then 4 else 2) + 15) / 16 * 16

/-- The sampling of a slot whose rows are complete (R221 to R228, R236 to R239). -/
def sampleSlot (num : Nat) (fmt : Nat) (x : Slot) (t : TokImage) (gr : Option GramImage) (e : Dir) (b : SBlk) : SampleOut :=
  let appended := x.append0 == some true
  let b1 := slotHistory x appended e.sampPend e.kvLen [] b
  let pos := x.kvStart + if appended then x.tokens.length - x.drafts.length else 0
  let rows := (List.range x.rows).map (fun r => logitRow fmt t.vocabSize ((tget r x.logits).getD {}).data)
  let v := verifyRows b.img gr num x.drafts rows pos (penWindow b1 pos) b.curState
  let o : SampleOut := ⟨b, [], v.accepted, 0, 0, 0, [], 0⟩
  let o := v.toks.foldl (emitToken t gr) o
  let o := if v.none_ then noCandidate o else o
  { o with accepted := min o.accepted o.toks.length }

/-- SAMPLE_ROW (R221). -/
def execSampleRow (channel stepNo slot : Nat) : State → Host.Outcome State Fault Refusal :=
  whenUp (fun s =>
    let c := s.chan channel
    match c.slotOf stepNo slot with
    | some x =>
      let e := c.dir x.index
      let gr := if e.grammarEn then c.gramImage e.grammarSlot else none
      (match x.phase, c.tokImage e.tokenizer, c.sblk x.index with
       | .sampling, some t, some b => endSeq channel stepNo slot .ok (some (sampleSlot stepNo (logitFmt channel s) x t gr e b)) true s
       | _, _, _ => s)
    | none => s)

/-! ### SEG_SAMPLE (R217) -/

/-- A LOGITS segment joins its row (R217). -/
def addLogits (size : Nat) (x : Slot) (g : Seg) : Option Slot :=
  if x.phase ≠ .logits ∨ g.part ≠ 1 ∨ x.rows ≤ g.layer then none
  else (((tget g.layer x.logits).getD {}).add (some size) g.offset g.len g.last g.data).map (fun r =>
    { x with logits := tset g.layer r x.logits })

/-- A sampling segment joins its sequence, or ends it: a fault, or logits that are invalid (R217). -/
def takeSample (ch : Nat) (p : Pkt) (g : Seg) (s : State) : State :=
  let c := s.chan ch
  match segSlot c g.stepLo g.slot with
  | none => discardSeg ch s
  | some (num, x) =>
    let vocab := match c.tokImage (c.dir x.index).tokenizer with | some t => t.vocabSize | none => 0
    let fmt := logitFmt ch s
    match addLogits (rowSize fmt vocab) x g with
    | none => protoFault ch num g.slot s
    | some y =>
      let part := (tget g.layer y.logits).getD {}
      let whole := part.complete (rowSize fmt vocab)
      let all := (List.range y.rows).all (fun r => ((tget r y.logits).getD {}).complete (rowSize fmt vocab))
      let s := s.modChan ch (fun c => c.modSlot num g.slot (fun _ =>
        { y with requester := (p.srcFid, p.srcUnit), phase := if all then .sampling else .logits }))
      if whole && (logitRow fmt vocab part.data).any badLogit then endSeq ch num g.slot .logitsInvalid none true s else s

/-- SEG_SAMPLE (R217). -/
def execSegSample (p : Pkt) (g : Seg) : State → Host.Outcome State Fault Refusal :=
  whenUp (arrive p (fun s => if p.dstUnit = 8 then badPacket p.port s else takeSample p.dstUnit p g s))

/-! ### OP_SESSION_DRAFT (R225, R226) -/

/-- Item 6 of R226 on one draft entry. -/
def draftOk (vocab : Nat) (d : DraftEntry) : Bool :=
  decide (1 ≤ d.support.length) && decide (d.support.length ≤ 32) && decide (d.token < vocab) &&
  d.support.all (fun q => decide (q.1 < vocab) && f32finite q.2 && !f32lt q.2 0) &&
  !f32isZero (supportOf d d.token) &&
  !(FVal.fin false 1025 1 (-10)).lt ((d.support.map (fun q => f32 q.2)).foldl FVal.add (.fin false 0 1 0))

/-- The checks of R226 after the handle's, up to the granule. -/
def draftCheck (c : Chan) (a : DraftArgs) : Option Status :=
  let i := a.handle.index
  let e := c.dir i
  let vocab := match c.tokImage e.tokenizer with | some t => t.vocabSize | none => 0
  if e.state = .running then some .sessionBusy
  else if e.state ≠ .runnable then some .sessionState
  else if (c.draftOf i).isSome then some .draftBusy
  else if a.base ≠ e.kvLen ∨ c.pendingOf i ≠ 1 then some .draftStale
  else if 16 < a.count ∨ a.entries.length ≠ a.count ∨ !a.entries.all (draftOk vocab) then some .paramInvalid
  else none

/-- OP_SESSION_DRAFT (R226): the draft takes a T1 granule and raises pending by its count. -/
def execOpSessionDraft (d : Hdr) (a : DraftArgs) : State → Host.Outcome State Fault Refusal :=
  accept 0x38 d (fun fn ch s =>
    if a.count = 0 then complete d 0x38 .lenZero [] [] s
    else
      match rangeCheck fn a.addr (264 * a.count) s with
      | some st => complete d 0x38 st [] [] s
      | none =>
        match checkHandle a.handle ch fn s with
        | some st => complete d 0x38 st [] [] s
        | none =>
          let c := s.chan ch
          match draftCheck c a with
          | some st => complete d 0x38 st [] [] s
          | none =>
            match c.t1.take 0 with
            | (none, t) => complete d 0x38 .noSpace [] [] (s.setChan ch { c with t1 := t })
            | (some g, t) =>
              complete d 0x38 .ok [] [] (s.setChan ch { c with t1 := t, drafts := tset (c.dir a.handle.index).asqIndex ⟨g, a.base, a.entries⟩ c.drafts }))

/-! ### OUT_HEAD_REFRESH (R241) -/

/-- A value read from out_head_addr is taken when it lies between the held head and the tail. -/
def takeHead (i v : Nat) (c : Chan) : Chan :=
  match c.sblk i with
  | some b => if b.img.outAddr ≠ 0 ∧ b.outHead < v ∧ v ≤ b.outTail then (c.touch i none).setSblk i { b with outHead := v } else c
  | none => c

/-- OUT_HEAD_REFRESH (R241). -/
def execOutHeadRefresh (channel index value : Nat) : State → Host.Outcome State Fault Refusal :=
  whenUp (fun s => s.modChan channel (takeHead index value))

end Sys2Proof.Machine
end

