-- ==== Sys2Proof/Machine/Load.lean ====
section
/-! DEFINITION. The loading of tokenizers (R192 to R199), grammars (R229 to R231) and models (R245, R248 to R256, R283), their unloading, and
OP_PROFILE_SET (R104 to R106, R246). -/

namespace Sys2Proof.Machine

open Sys2Proof

/-! ### Image checks -/

/-- Numbers rise strictly. -/
def rising : List Nat → Bool
  | [] => true
  | [_] => true
  | a :: b :: r => decide (a < b) && rising (b :: r)

/-- Sections 0 to n − 1 do not meet section n (R193). -/
def secFree (i : TokImage) (n : Nat) : Bool :=
  (List.range n).all (fun k => i.secLen k == 0 || i.secLen n == 0 || decide (i.secOff k + i.secLen k ≤ i.secOff n)
    || decide (i.secOff n + i.secLen n ≤ i.secOff k))

/-- Section n lies in the image after its header, on a multiple of 64 B, clear of the sections before it (R193). Its place is judged with the
section itself, as a check that relates two sections is with the later (R199; log entry 104). -/
def secOk (i : TokImage) (len n : Nat) : Bool :=
  i.secOff n % 64 == 0 && decide (256 ≤ i.secOff n) && decide (i.secOff n + i.secLen n ≤ len) && secFree i n

/-- A code point of Unicode. -/
def isCp (c : Nat) : Bool := decide (c ≤ 0x10FFFF)

/-- The header of a tokenizer image (R193, R196). -/
def tokHdrOk (i : TokImage) : Bool :=
  i.magic == 0x314B5447 && i.version == 1 && decide (i.form ≤ 2) && decide (1 ≤ i.vocabSize) && decide (i.vocabSize ≤ 524288)
  && decide (1 ≤ i.trieNodes) && decide (i.trieNodes ≤ 8388608) && decide (1 ≤ i.maxTokenLen) && decide (i.maxTokenLen ≤ 60)
  && (if i.byteFallback then decide (i.byteBase + 255 < i.vocabSize) else decide (i.unkId < i.vocabSize))

/-- Section 0: each index entry names a leaf that is there, each entry's codes are defined (R194, R196). -/
def classesOk (i : TokImage) : Bool :=
  let leaves := (i.secLen 0 - 8704) / 512
  decide (8704 ≤ i.secLen 0) && (i.secLen 0 - 8704) % 512 == 0 && decide (1 ≤ leaves) && decide (leaves ≤ 4352)
  && i.index.all (fun e => decide (e.1 < 4352) && decide (e.2 < leaves))
  && i.leaves.all (fun e => decide (e.1 < 256 * leaves) && decide (fieldOf e.2 12 2 ≤ 2))

/-- Section 1 against section 0 (R194, R196). -/
def decompOk (i : TokImage) : Bool :=
  let d := i.decompPoints.length
  let words := (i.secLen 1 - 8 * d) / 4
  decide (d ≤ 16384) && i.decomp.map decompCp == i.decompPoints && decide (8 * d ≤ i.secLen 1) && (i.secLen 1 - 8 * d) % 4 == 0
  && decide (i.secLen 1 - 8 * d ≤ 262144) && decide (i.cpHeap.length ≤ words) && i.cpHeap.all isCp
  && i.decomp.all (fun w => decide (1 ≤ decompLen w) && decide (decompLen w ≤ 18) && decide (decompIx w + decompLen w ≤ words))

/-- Section 2 (R194, R196). -/
def compOk (i : TokImage) : Bool :=
  i.secLen 2 == 8 * i.comp.length && decide (i.comp.length ≤ 4096) && rising (i.comp.map (fun w => compFirst w * 2097152 + compSecond w))
  && i.comp.all (fun w => isCp (compFirst w) && isCp (compSecond w) && isCp (compComposite w))

/-- Section 3: no action is reserved (R194, R211). -/
def splitOk (i : TokImage) : Bool :=
  i.secLen 3 == 128 && (List.range 16).all (fun a => (List.range 16).all (fun b => decide (i.action a b ≤ 2)))

/-- Section 4: children within the trie, sorted by byte without repeats, tokens within the header's limits (R194, R196). -/
def trieOk (i : TokImage) : Bool :=
  i.secLen 4 == 8 * i.trieNodes && decide (i.trie.length ≤ i.trieNodes)
  && (List.range i.trie.length).all (fun n => let w := i.node n
      decide (nodeCount w ≤ 256) && decide (nodeBase w + nodeCount w ≤ i.trieNodes) && rising ((i.children n).map (fun c => nodeByte (i.node c)))
      && (match nodeToken w with | some x => decide (x < i.vocabSize) | none => true))
  && (i.tokensFrom i.trieNodes 0 []).all (fun e => decide (e.1.length ≤ i.maxTokenLen))

/-- Section 5 against the header and the trie (R195, R196). -/
def slotsOk (i : TokImage) : Bool :=
  let vs := i.slots.filter (fun e => slotValid e.2)
  i.secLen 5 == 8388608 && i.slots.all (fun e => decide (e.1 < 1048576))
  && vs.all (fun e => decide (slotId e.2 < i.vocabSize) && decide (1 ≤ slotLen e.2) && decide (slotLen e.2 ≤ i.maxTokenLen)
      && decide ((e.1 + 1048576 - vocabHash (slotId e.2)) % 1048576 < 32) && vs.all (fun f => f.1 == e.1 || slotId f.2 != slotId e.2))
  && (i.tokensFrom i.trieNodes 0 []).all (fun e => (i.probe e.2 32 (vocabHash e.2)).isSome)

/-- Section 6 against the trie and the hash table (R194, R196). -/
def heapOk (i : TokImage) : Bool :=
  decide (i.secLen 6 ≤ 33554432) && decide (i.heap.length ≤ i.secLen 6)
  && (i.slots.filter (fun e => slotValid e.2)).all (fun e => decide (slotHeap e.2 + slotLen e.2 ≤ i.secLen 6))
  && (i.tokensFrom i.trieNodes 0 []).all (fun e => i.lookup e.2 == some e.1)

/-- The first failing part of a tokenizer image of `len` bytes: 7 for the header, then the sections in order (R193, R194, R196, R199). -/
def tokCheck (len : Nat) (i : TokImage) : Option Nat :=
  if len < 256 ∨ !tokHdrOk i then some 7
  else
    ((List.range 7).zip [classesOk, decompOk, compOk, splitOk, trieOk, slotsOk, heapOk]).findSome? (fun e =>
      if secOk i len e.1 && e.2 i then none else some e.1)

/-- A section of a grammar image of `n` bytes lies on a multiple of 64 B after the header and within the image (R229). -/
def gramSecOk (len off n : Nat) : Bool := off % 64 == 0 && decide (64 ≤ off) && decide (off + n ≤ len)

/-- The valid slots of a grammar image. -/
def validSlots (i : GramImage) : List (Nat × Nat) := i.slots.filter (fun e => transValid e.2)

/-- The first failing part of a grammar image of `len` bytes: 7 the header, 0 states, 1 masks, 2 transitions (R229 to R231). -/
def gramCheck (len : Nat) (i : GramImage) : Option Nat :=
  if len < 64 ∨ i.magic ≠ 0x314D5247 ∨ i.version ≠ 1 ∨ i.hashExp < 10 ∨ 26 < i.hashExp ∨ i.stateCount = 0 ∨ 65536 < i.stateCount
    ∨ i.maskCount = 0 ∨ 65536 < i.maskCount ∨ i.vocabSize = 0 ∨ 524288 < i.vocabSize ∨ 2 ^ i.hashExp * 3 / 4 < i.transitions then some 7
  else if !(gramSecOk len i.stateOff (4 * i.stateCount) && (List.range i.stateCount).all (fun k => decide (i.maskIx k < i.maskCount))) then some 0
  else if !(gramSecOk len i.maskOff (i.maskCount * i.maskBytes) && (List.range i.stateCount).all (fun k =>
      i.final k == (i.maskSum (i.maskIx k) == 0) && (i.maskSum (i.maskIx k) != 0 || i.accept k))) then some 1
  else if !(gramSecOk len i.transOff (8 * 2 ^ i.hashExp) && i.slots.all (fun e => decide (e.1 < 2 ^ i.hashExp))
    && (validSlots i).all (fun e => decide (transState e.2 < i.stateCount) && decide (transToken e.2 < i.vocabSize) && decide (transNext e.2 < i.stateCount)
      && decide ((e.1 + 2 ^ i.hashExp - i.hash (transState e.2) (transToken e.2)) % 2 ^ i.hashExp < 32)
      && i.maskBit (i.maskIx (transState e.2)) (transToken e.2))
    && (List.range i.stateCount).all (fun k => ((validSlots i).filter (fun e => transState e.2 == k)).length == i.maskSum (i.maskIx k))) then some 2
  else none

/-! ### Profiles (R246) -/

/-- The MODEL fields of a profile are all zero: it has no MODEL use. -/
def noModelUse (r : Profile) : Bool :=
  r.kind == 0 && r.mPlace == 0 && r.maxBatch == 0 && r.ctxCount == 0 && r.maxTokens == 0 && r.maxRows == 0 && r.vocab == 0 && r.ctxPositions == 0

/-- The ranges of the MODEL fields (R246). -/
def modelFieldsOk (r : Profile) : Bool :=
  noModelUse r ||
  (decide (r.kind ≤ 3) && decide (r.mPlace ≤ 3) && decide (1 ≤ r.maxBatch) && decide (r.maxBatch ≤ 256) && decide (r.ctxCount ≤ 4096) &&
   (r.ctxCount == 0 || r.kind == 0) && decide (1 ≤ r.maxTokens) && decide (r.maxTokens ≤ 32768) && decide (1 ≤ r.maxRows)
   && decide (r.maxRows ≤ 65536) && decide (1 ≤ r.vocab) && decide (r.vocab ≤ 524288) &&
   (if r.ctxCount = 0 then r.ctxPositions == 0 else r.ctxPositions % 128 == 0 && decide (128 ≤ r.ctxPositions) && decide (r.ctxPositions ≤ 1048576)))

/-- A session, a model or an accepted descriptor refers to a profile (R104). -/
def profileBusy (n : Nat) (s : State) : Bool :=
  s.chans.any (fun c => c.2.dirs.any (fun e => e.2.state != .closed && e.2.profile == n)
    || c.2.models.any (fun m => m.1 == n && m.2.state != 0) || c.2.runs.any (fun r => r.a.profile == n))
  || s.loads.any (fun l => l.kind == 2 && l.slot == n)

/-- A profile reaches the master copy and every ACTIVE ATTN and MODEL channel (R104). -/
def setProfile (n : Nat) (r : Profile) (s : State) : State :=
  { s with profiles := tset n r s.profiles
           chans := s.chans.map (fun c => if c.2.state = .active ∧ (c.2.role = .attn ∨ c.2.role = .model) then
             (c.1, { c.2 with profiles := tset n r c.2.profiles }) else c) }

/-- OP_PROFILE_SET (R104, R106, R246). -/
def execOpProfileSet (d : Hdr) (profile : Nat) (rec : Profile) : State → Host.Outcome State Fault Refusal :=
  accept 0x19 d (fun _ _ s =>
    if 63 < profile ∨ !profileOk rec ∨ !modelFieldsOk rec then complete d 0x19 .paramInvalid [] [] s
    else if profileBusy profile s then complete d 0x19 .profileBusy [] [] s
    else complete d 0x19 .ok [] [] (setProfile profile rec s))

/-! ### The checks of a load (R198, R231, R251) -/

/-- The channels a load names. -/
def loadChans (a : LoadArgs) : List Nat := (List.range 8).filter (fun n => a.channels.getLsbD n)

/-- Items 1 to 4 of R198: `model` when MODEL is the only permitted role. -/
def loadCommon (a : LoadArgs) (unload model : Bool) (s : State) : Option Status :=
  let cs := loadChans a
  if cs.isEmpty ∨ (a.len = 0 ∧ !unload) then some .lenZero
  else if cs.any (fun n => (s.chan n).state ≠ .active) then some .channelOffline
  else if cs.any (fun n => !((s.chan n).role == .model || (!model && (s.chan n).role == .attn))) then some .roleMismatch
  else if s.mgmt.congested then some .mgmtBusy
  else none

/-- A tokenizer or grammar slot may not change: sessions are bound to it on a named channel, or another load runs on it. -/
def slotBusy (kind slot : Nat) (a : LoadArgs) (s : State) : Bool :=
  (loadChans a).any (fun n =>
    let c := s.chan n
    if kind = 0 then (match tget slot c.toks with | some t => decide (0 < t.sessions) || t.state == 1 | none => false)
    else (match tget slot c.grams with | some t => decide (0 < t.sessions) || t.state == 1 | none => false))

/-- The checks of R198 and R231 for a tokenizer or grammar. -/
def loadCheck (kind fn : Nat) (a : LoadArgs) (unload : Bool) (s : State) : Option Status :=
  match loadCommon a unload false s with
  | some st => some st
  | none =>
    match (if unload then none else if 1073741824 < a.len then some Status.paramInvalid else rangeCheck fn a.addr a.len s) with
    | some st => some st
    | none =>
      if (if kind = 0 then 15 else 63) < a.slot then some .paramInvalid
      else if slotBusy kind a.slot a s then some (if kind = 0 then .tokenizerBusy else .grammarBusy)
      else none

/-- The checks of R251. -/
def modelLoadCheck (fn : Nat) (a : LoadArgs) (unload : Bool) (s : State) : Option Status :=
  match loadCommon a unload true s with
  | some st => some st
  | none =>
    match (if unload then none else rangeCheck fn a.addr a.len s) with
    | some st => some st
    | none =>
      if (!unload ∧ 51539607552 < a.len) ∨ 63 < a.slot then some .paramInvalid
      else if noModelUse ((tget a.slot s.profiles).getD noProfile) then some .paramInvalid
      else if (loadChans a).any (fun n => match tget a.slot (s.chan n).models with | some m => decide (0 < m.runs) || m.state == 1 | none => false) then
        some .modelBusy
      else none

/-! ### Ranges -/

/-- The lowest offset at which a length fits among ranges below a limit (R191, R244). -/
def lowestFit (used : List (Nat × Nat)) (lo hi len : Nat) : Option Nat :=
  lowest ((lo :: used.map (fun r => r.1 + r.2)).filter (fun b => decide (lo ≤ b) && decide (b + len ≤ hi)
    && used.all (fun r => decide (b + len ≤ r.1) || decide (r.1 + r.2 ≤ b))))

/-- Units of 512 KiB in the Prism table area (R191). -/
def prismUnits (n : Nat) (s : State) : Nat := chanField n 0x070 0 12 s

/-- Units an image takes. -/
def unitsOf (len : Nat) : Nat := ceilDiv len 524288

/-- A range of the Prism area for one channel. -/
def takePrism (n len : Nat) (s : State) : Option (Nat × State) :=
  let c := s.chan n
  (lowestFit c.prismRanges 0 (prismUnits n s) (unitsOf len)).map (fun b => (b, s.setChan n { c with prismRanges := (b, unitsOf len) :: c.prismRanges }))

/-- Ranges on every named channel, or none. -/
def takePrisms (len : Nat) : List Nat → State → Tbl Nat → Option (Tbl Nat × State)
  | [], s, t => some (t, s)
  | n :: r, s, t =>
    match takePrism n len s with
    | some (b, s) => takePrisms len r s (tset n b t)
    | none => none

/-! ### Model images (R245, R248, R249, R254 to R256) -/

/-- The bytes of a space a layer's operator may refer to (R254); none where no bound is stated. -/
def spaceLimit (i : ModelImage) (l : ModelLayer) (sp : Nat) : Option Nat :=
  if sp = 0 then some i.actT1 else if sp = 1 then some i.actT2 else if sp = 2 then some l.wLen else if sp = 3 then some i.weightsLen else none

/-- Where an MX operand's scale array begins: the next multiple of 64 B after its elements (R254). -/
def scaleOff (code elems : Nat) : Nat := ceilDiv ((elems * fmtBits code + 7) / 8) 64 * 64

/-- Bytes of a tensor of `rows` rows of `len` elements of a format code: its elements and, of an MX format, a scale for every 32 of each row
(R109, R254). -/
def tensorBytes (code rows len : Nat) : Nat :=
  if isMx code then scaleOff code (rows * len) + rows * ceilDiv len 32 else (rows * len * fmtBits code + 7) / 8

/-- The variants an operator has (R256); none for an undefined code. -/
def opVariants (op : Nat) : Option Nat :=
  if op = 1 ∨ op = 2 ∨ op = 7 ∨ op = 8 ∨ op = 9 then some 1 else if op = 3 ∨ op = 4 ∨ op = 6 then some 2 else if op = 5 then some 4 else none

/-- The format of the c operand, which no field names: FP32 for the bias row of GEMM, the accumulator's starting value; for the others b_fmt
(DESIGN CHOICE, log entry 105). -/
def cFmt (o : ModelOp) : Nat := if o.op = 1 ∨ o.op = 2 then 9 else o.bFmt

/-- The rows and row length of a, b, c and out of an operator over m rows of a, mo of the result (R256). Rows of an MX operand run along its reduction axis, so b of
GEMM counts by columns (R109). K and V of ATTENTION's scratch are not laid out by the spec (log entry 106). -/
def opShape (x : Profile) (o : ModelOp) (m mo : Nat) : List (Nat × Nat) :=
  match o.op with
  | 1 => [(m, o.k), (o.n, o.k), (1, o.n), (mo, o.n)]
  | 2 => [(m, o.k), (o.n, o.k), (0, 0), (o.n, mo)]
  | 3 => [(m, (x.hq + 2 * x.kvHeads) * x.d), (0, 0), (0, 0), (mo, x.hq * x.d)]
  | 4 => [(m, o.k), (1, o.k), (1, if o.variant = 1 then o.k else 0), (mo, o.k)]
  | 5 => [(m, o.k), (0, 0), (if o.variant = 3 then mo else 0, o.k), (mo, o.k)]
  | 6 => [(m, o.n * o.k), (0, 0), (0, 0), (mo, o.n * o.k)]
  | 7 => [(m, 1), (o.k, o.n), (0, 0), (mo, o.n)]
  | 8 => [(m, o.k), (0, 0), (0, 0), (mo, o.k)]
  | _ => [(m, o.k), (0, 0), (0, 0), (mo, o.n)]

/-- Bytes of a and out, where an operator's own meaning gives their form: the token ids of EMBED and the pairs of TOPK (R254, R256). -/
def aBytes (o : ModelOp) (r : Nat × Nat) : Nat := if o.op = 7 then 4 * r.1 else tensorBytes o.aFmt r.1 r.2
def outBytesOf (o : ModelOp) (r : Nat × Nat) : Nat := if o.op = 9 then 8 * r.1 * r.2 else tensorBytes o.outFmt r.1 r.2

/-- A format code that holds operands or results (R107): 13 to 15 are reserved. -/
def fmtKnown (code : Nat) : Bool := decide (code ≤ 12)

/-- The formats of an operator: no reserved code, a pair of R112 for the array, INT32 out of INT8 or MXINT8 operands only (R107, R112, R128; the
scales are judged when the operator runs), and a reduction length of an MX operand that 32 divides (R109). No rule converts a result to INT8 (log entry 107). -/
def opFormatsOk (o : ModelOp) : Bool :=
  fmtKnown o.aFmt && fmtKnown o.bFmt && fmtKnown o.outFmt && (!(o.op == 1 || o.op == 2) || (arrayMode o.aFmt o.bFmt).isSome) &&
  (o.outFmt != 11 || ((o.op == 1 || o.op == 2) && (o.aFmt == 4 || o.aFmt == 8))) &&
  (!(o.op == 1 || o.op == 2) || !(isMx o.aFmt || isMx o.bFmt) || o.k % 32 == 0)

/-- Bytes of the spaces IN and OUT: the pass's token words, the output area (R254, R259). The output area of a DRAFT run, where the last operator
leaves its pairs, has no length of its own (log entry 108). -/
def ioLimit (x : Profile) (i : ModelImage) (sp : Nat) : Option Nat :=
  if sp = 4 then some (4 * x.maxRows) else if sp = 5 ∧ x.kind ≠ 0 then some (x.maxBatch * i.outBytes) else none

/-- A tensor reference lies in its space (R254). -/
def refOk (x : Profile) (i : ModelImage) (l : ModelLayer) (r : TensorRef) (bytes : Nat) : Bool :=
  decide (r.space ≤ 5 ∨ r.space = 15) && r.offset % 64 == 0 &&
  (match (spaceLimit i l r.space).orElse (fun _ => ioLimit x i r.space) with | some n => decide (r.offset + bytes ≤ n) | none => true)

/-- The positions a ROPE table may be indexed by (R256, R259, R260). -/
def ropePositions (x : Profile) : Nat := max x.ctxPositions x.maxTokens

/-- An operator passes R256 in a layer. -/
def operatorOk (x : Profile) (i : ModelImage) (l : ModelLayer) (o : ModelOp) : Bool :=
  let m := if o.rowsRun then x.maxRows else o.m
  let sh := opShape x o m (if o.lastRows then x.maxBatch else m)
  let at_ (k : Nat) : Nat × Nat := sh.getD k (0, 0)
  let reads : List TensorRef := [o.a, o.b, o.c]
  (match opVariants o.op with | some v => decide (o.variant < v) | none => false) && opFormatsOk o && (!o.rowsRun || o.m == 0) &&
  (o.op != 2 || (decide (1 ≤ o.n) && decide (o.n ≤ 16))) && (o.op != 9 || (decide (1 ≤ o.n) && decide (o.n ≤ 1024))) &&
  (o.op != 3 || decide (o.n < x.layers)) &&
  refOk x i l o.a (aBytes o (at_ 0)) &&
  refOk x i l o.b (if o.op = 6 then ropePositions x * o.k * 4 else tensorBytes o.bFmt (at_ 1).1 (at_ 1).2) &&
  refOk x i l o.c (tensorBytes (cFmt o) (at_ 2).1 (at_ 2).2) && refOk x i l o.out (outBytesOf o (at_ 3)) &&
  !(o.out.space == 2 || o.out.space == 3 || o.out.space == 4) && (o.op == 6 || o.op == 7 || reads.all (fun r => r.space != 3))

/-- The header of a model image against R245 and R248. -/
def modelHdrOk (slot : Nat) (i : ModelImage) : Bool :=
  i.magic == 0x314C444D && i.version == 1 && decide (1 ≤ i.layerCount) && decide (i.layerCount ≤ 1024) && decide (1 ≤ i.opCount)
  && decide (i.opCount ≤ 65536) && i.progLen == 32 * i.layerCount + 64 * i.opCount && i.weightsLen % 4096 == 0
  && decide (i.actT1 ≤ 234881024) && decide (i.outBytes ≤ 1048576) && i.profile == slot

/-- The tables of a model image (R245, R249, R251, R256). -/
def modelCheck (x : Profile) (i : ModelImage) : Bool :=
  i.layers.all (fun l => decide (1 ≤ l.opCount) && decide (l.opCount ≤ 4096) && decide (l.opFirst + l.opCount ≤ i.ops.length) && decide (1 ≤ l.width)
    && decide (l.width ≤ 64) && l.wOff % 4096 == 0 && decide (l.wLen ≤ 1342177280) && (l.stream || l.wLen == 0) && decide (l.wOff + l.wLen ≤ i.weightsLen)
    && ((i.ops.drop l.opFirst).take l.opCount).all (operatorOk x i l))

/-! ### Protected images (R252, R282, R283) -/

/-- The chunks of a protected image from number k on, opened under the key; none where a tag fails (R283). -/
def openChunks (key : Nat) (hdr sh : List Byte) (h : StreamHdr) : Nat → Nat → List Byte → Option (List Byte)
  | 0, _, _ => some []
  | n + 1, k, bs =>
    let len := min 65536 (h.plainLen - 65536 * k)
    let aad := hdr ++ sh ++ natLE 4 k ++ natLE 1 (if n = 0 then 1 else 0)
    match Config.gcmOpen key (h.noncePrefix ++ natLE 4 k) aad (bs.take len) ((bs.drop len).take 16) with
    | none => none
    | some plain => (openChunks key hdr sh h n (k + 1) (bs.drop (len + 16))).map (plain ++ ·)

/-- The stream header stands (R282): magic, version and chunk_exp. -/
def streamOk (h : StreamHdr) : Bool := h.magic == 0x31504D53 && h.version == 1 && h.chunkExp == 16

/-- What the reading of a model image gives: a status, or the image. The header stands in the clear and is judged first; of a protected image
then the key, the length that its stream header names, and the chunks (R251, R252, R282, R283). -/
def openModel (slot : Nat) (key : Option (List Byte)) (barred : Bool) (bs : List Byte) : Status ⊕ ModelImage :=
  let i := parseModelHdr bs
  if !modelHdrOk slot i then .inl .paramInvalid
  else if !i.isProtected then
    if bs.length < i.weightsOff + i.weightsLen then .inl .paramInvalid else .inr (i.fill (bs.drop 128))
  else
    let sh := (bs.drop 128).take 32
    let h := parseStream sh
    match key with
    | none => .inl (if barred then .lifecycle else .keyNotReleased)
    | some k =>
      if barred then .inl .lifecycle
      else if !streamOk h ∨ bs.length ≠ h.imageLen ∨ 128 + h.plainLen < i.weightsOff + i.weightsLen then .inl .paramInvalid
      else
        match openChunks (leNat k) (bs.take 128) sh h h.chunks 0 (bs.drop 160) with
        | none => .inl .authFailed
        | some plain => .inr (i.fill plain)

/-- Bytes of one draft context (R260). -/
def ctxBytes (x : Profile) : Nat := x.layers * x.kvHeads * (x.ctxPositions * x.d * 2 * x.e)

/-- Bytes of a model's range, in 16 KiB granules (R244). -/
def modelBytes (x : Profile) (i : ModelImage) : Nat := ceilDiv (i.weightsLen + x.ctxCount * ctxBytes x + i.actT2) 16384 * 16384

/-- The first byte of the model area (R244). -/
def modelAreaBase (n : Nat) (s : State) : Nat := 64 * 0x240000 + prismUnits n s * 524288

/-- The protected ranges of a channel's memory controllers (R253, R464): the range and the program copy of each protected model, the
weight window while it holds one's weights, the arena while a run of one holds it; kind and slot. -/
def protRanges (c : Chan) : List (Nat × Nat) :=
  let ps := (c.models.filter (fun e => match e.2.image with | some i => i.isProtected | none => false)).map (·.1)
  ps.flatMap (fun k => [(0, k), (1, k)]) ++
  (match c.window.owner with | some k => if ps.contains k then [(2, k)] else [] | none => []) ++
  (c.runs.filter (fun r => r.dispatched && ps.contains r.a.profile)).map (fun r => (3, r.a.profile))

/-- A protected model's two ranges fit in the 16 of the table (R464). -/
def protRoom (slot : Nat) (c : Chan) : Bool := decide ((protRanges { c with models := tdel slot c.models }).length + 2 ≤ 16)

/-- Room for a model and its program on a channel (R244, R245). -/
def takeModel (n : Nat) (x : Profile) (i : ModelImage) (s : State) : Option (Nat × Nat × State) :=
  let c := s.chan n
  match lowestFit c.modelAlloc (modelAreaBase n s) 0xC00000000 (modelBytes x i), lowestFit c.progAlloc 0 16773120 i.progLen with
  | some b, some p => some (b, p, s.setChan n { c with modelAlloc := (b, modelBytes x i) :: c.modelAlloc, progAlloc := (p, i.progLen) :: c.progAlloc })
  | _, _ => none

/-! ### Loading (R199, R231, R251, R252) -/

/-- The state of a slot on a channel. -/
def slotState (kind slot : Nat) (c : Chan) : Nat :=
  if kind = 0 then (match tget slot c.toks with | some t => t.state | none => 0)
  else if kind = 1 then (match tget slot c.grams with | some t => t.state | none => 0)
  else match tget slot c.models with | some m => m.state | none => 0

def setSlotState (kind slot st : Nat) (c : Chan) : Chan :=
  if kind = 0 then { c with toks := tset slot { (tget slot c.toks).getD {} with state := st } c.toks }
  else if kind = 1 then { c with grams := tset slot { (tget slot c.grams).getD {} with state := st } c.grams }
  else { c with models := tset slot { (tget slot c.models).getD {} with state := st } c.models }

/-- A channel's new range of a load is given back, and its slot is as before (R199). -/
def undoLoad (l : Load) (n : Nat) (s : State) : State :=
  let c := s.chan n
  let base := tget n l.ranges
  let c := if l.kind = 2 then
      { c with modelAlloc := c.modelAlloc.filter (fun r => some r.1 != base)
               progAlloc := c.progAlloc.filter (fun r => some r.1 != tget n l.progs) }
    else { c with prismRanges := c.prismRanges.filter (fun r => some r.1 != base) }
  s.setChan n (setSlotState l.kind l.slot ((tget n l.prior).getD 0) c)

/-- Tags of a grammar slot leave the mask cache (R233). -/
def dropMasks (slot : Nat) (c : Chan) : Chan := { c with maskCache := c.maskCache.map (fun e => (e.1, e.2.filter (fun t => t.slot != slot))) }

/-- A slot's range and image are gone, its state EMPTY (R199, R251). -/
def emptySlot (kind slot : Nat) (c : Chan) : Chan :=
  if kind = 0 then
    match tget slot c.toks with
    | some t => { c with toks := tset slot { sessions := t.sessions, loads := t.loads } c.toks
                         prismRanges := if t.image.isSome then c.prismRanges.filter (fun r => r.1 * 524288 != t.base) else c.prismRanges }
    | none => c
  else if kind = 1 then
    match tget slot c.grams with
    | some t => dropMasks slot { c with grams := tset slot { sessions := t.sessions, loads := t.loads } c.grams
                                        prismRanges := if t.image.isSome then c.prismRanges.filter (fun r => r.1 * 524288 != t.base) else c.prismRanges }
    | none => c
  else
    match tget slot c.models with
    | some m => { c with models := tset slot { loads := m.loads } c.models
                         modelAlloc := if m.image.isSome then c.modelAlloc.filter (fun r => r.1 != m.base) else c.modelAlloc
                         progAlloc := if m.image.isSome then c.progAlloc.filter (fun r => r.1 != m.progOff) else c.progAlloc
                         window := if c.window.owner = some slot then {} else c.window }
    | none => c

/-- A channel's slot is READY with the new image, and the old range is freed (R199, R251). -/
def installLoad (l : Load) (n : Nat) (s : State) : State :=
  let c := emptySlot l.kind l.slot (s.chan n)
  let base := (tget n l.ranges).getD 0
  match tget n l.images with
  | some (some i, _, _) =>
    let t := (tget l.slot c.toks).getD {}
    s.setChan n { c with toks := tset l.slot { t with base := base * 524288, length := l.len, state := 2, loads := t.loads + 1,
                                                      header := i.header.take 224, image := some i } c.toks }
  | some (_, some i, _) =>
    let t := (tget l.slot c.grams).getD {}
    s.setChan n { c with grams := tset l.slot { t with base := base * 524288, length := l.len, state := 2, loads := t.loads + 1,
                                                        header := i.header.take 64, image := some i } c.grams }
  | some (_, _, some i) =>
    let m := (tget l.slot c.models).getD {}
    let x := c.prof l.slot
    s.setChan n { c with models := tset l.slot { m with state := 2, isProtected := i.isProtected, resident := false, base := base, length := modelBytes x i
                                                        progOff := (tget n l.progs).getD 0, loads := m.loads + 1, image := some i, ctx := [], kv := [], actT2 := [] } c.models }
  | _ => s.setChan n c

/-- The opcode of a load. -/
def loadOpcode (kind : Nat) : Nat := if kind = 0 then 0x31 else if kind = 1 then 0x39 else 0x40

/-- A load ends on the channels that still take part (R199, R251). -/
def loadEnd (l : Load) (chs : List Nat) (st : Status) (s : State) : State :=
  let s := { s with loads := s.loads.filter (fun m => m.id != l.id) }
  let s := dropReqs (fun k => match k with | .image i _ => i == l.id | _ => false) s
  let s := if st = .ok then chs.foldl (fun s n => installLoad l n s) s else chs.foldl (fun s n => undoLoad l n s) s
  match s.ops.find? (fun o => o.kind == .load l.id) with
  | some op => endOp op st (if st = .paramInvalid then [l.word] else []) [] s
  | none => s

/-- One channel's part of a load has an outcome: a status, a failing section, its image and where it lies. -/
def loadPart (id n : Nat) (st : Status) (word : Nat) (img : Option TokImage × Option GramImage × Option ModelImage) (at_ : Option (Nat × Nat)) (s : State) :
    State :=
  match s.loads.find? (fun l => l.id == id) with
  | none => s
  | some l =>
    if !l.waiting.contains n then s
    else
      let l := { l with waiting := l.waiting.filter (fun m => m != n), images := tset n img l.images
                        st := if l.st = .ok then st else l.st, word := if l.st = .ok then word else l.word
                        ranges := match at_ with | some p => tset n p.1 l.ranges | none => l.ranges
                        progs := match at_ with | some p => tset n p.2 l.progs | none => l.progs }
      let s := { s with loads := s.loads.map (fun m => if m.id = id then l else m) }
      if l.waiting.isEmpty then loadEnd l l.channels l.st s else s

/-- The image of a channel's part has been read: it is checked, and a model's range taken (R199, R231, R251, R252). -/
def loadImage (id n : Nat) (d : ReadData) (s : State) : State :=
  match s.loads.find? (fun l => l.id == id) with
  | none => s
  | some l =>
    let bad (w : Nat) (s : State) : State := loadPart id n .paramInvalid w (none, none, none) none s
    match l.kind, d with
    | 0, .tokenizer i => (match tokCheck l.len i with | some w => bad w s | none => loadPart id n .ok 0 (some i, none, none) none s)
    | 1, .grammar i => (match gramCheck l.len i with | some w => bad w s | none => loadPart id n .ok 0 (none, some i, none) none s)
    | 2, .bytes bs =>
      let x := (s.chan n).prof l.slot
      (match openModel l.slot (tget l.keySlot s.encl.weightKeys) s.encl.barred bs with
       | .inl .paramInvalid => bad (Config.freeByte s.freeIx 0).toNat s.advanceFree
       | .inl st => loadPart id n st 0 (none, none, none) none
           (if st = .authFailed then s.modChan n (fun c => { c with cdnTagErr := wrap64 (c.cdnTagErr + 1) }) else s)
       | .inr i =>
         if !modelCheck x i then bad (Config.freeByte s.freeIx 0).toNat s.advanceFree
         else if i.isProtected ∧ !protRoom l.slot (s.chan n) then loadPart id n .noSpace 0 (none, none, none) none s
         else
           (match takeModel n x i s with
            | some (b, p, s) => loadPart id n .ok 0 (none, none, some i) (some (b, p)) s
            | none => loadPart id n .noSpace 0 (none, none, none) none s))
    | _, _ => bad 7 s

/-- Each named channel reads the image through its own port (R199). -/
def loadRead (l : Load) (addr : Nat) (s : State) : State :=
  l.channels.foldl (fun s n =>
    match sendReq n (s.fn 0).adapter 0 0 (.image l.id n) .readReqBulk addr (.ask l.len) s with
    | .ok s => s
    | .error st => loadPart l.id n st 0 (none, none, none) none s) s

/-- An accepted load: LOADING on every named channel, the range taken, the reads sent. -/
def loadStart (kind : Nat) (d : Hdr) (fn : Nat) (a : LoadArgs) (s : State) : State :=
  let cs := loadChans a
  let prior := cs.foldl (fun t n => tset n (slotState kind a.slot (s.chan n)) t) []
  match (if kind = 2 then some ([], s) else takePrisms a.len cs s []) with
  | none => complete d (loadOpcode kind) .noSpace [] [] s
  | some (ranges, s) =>
    let s := cs.foldl (fun s n => s.modChan n (setSlotState kind a.slot 1)) s
    let l : Load := { id := s.nextLoad, hdr := d, kind := kind, slot := a.slot, channels := cs, waiting := cs, st := .ok, word := 0, len := a.len
                      ranges := ranges, progs := [], images := [], prior := prior
                      keySlot := if (tget a.keySlot s.encl.weightKeys).isSome then a.keySlot else 64 }
    let s := addOp (loadOpcode kind) d fn 8 [(a.addr, a.len)] true (.load l.id) { s with loads := s.loads ++ [l], nextLoad := s.nextLoad + 1 }
    loadRead l a.addr s

/-- A load whose named channel failed, was reset or left its role ends on the others (R199, R251). -/
def abortLoads (n : Nat) (st : Status) (s : State) : State :=
  (s.loads.filter (fun l => l.channels.contains n)).foldl (fun s l => loadEnd l (l.channels.filter (fun m => m != n)) st s) s

/-- An unload: EMPTY on each named channel (R199, R251). -/
def unloadNow (kind : Nat) (d : Hdr) (a : LoadArgs) (s : State) : State :=
  complete d (loadOpcode kind) .ok [] [] ((loadChans a).foldl (fun s n => s.modChan n (emptySlot kind a.slot)) s)

/-- OP_TOKENIZER_LOAD (R198, R199). -/
def execOpTokenizerLoad (d : Hdr) (a : LoadArgs) : State → Host.Outcome State Fault Refusal :=
  accept 0x31 d (fun fn _ s =>
    match loadCheck 0 fn a false s with
    | some st => complete d 0x31 st [] [] s
    | none => withEntry 0x31 d (loadStart 0 d fn a) s)

/-- TOKENIZER_UNLOAD (R198, R199). -/
def execTokenizerUnload (d : Hdr) (a : LoadArgs) : State → Host.Outcome State Fault Refusal :=
  accept 0x31 d (fun fn _ s =>
    match loadCheck 0 fn a true s with
    | some st => complete d 0x31 st [] [] s
    | none => unloadNow 0 d a s)

/-- OP_GRAMMAR_LOAD (R231). -/
def execOpGrammarLoad (d : Hdr) (a : LoadArgs) : State → Host.Outcome State Fault Refusal :=
  accept 0x39 d (fun fn _ s =>
    match loadCheck 1 fn a false s with
    | some st => complete d 0x39 st [] [] s
    | none => withEntry 0x39 d (fun s => (loadStart 1 d fn a) ((loadChans a).foldl (fun s n => s.modChan n (dropMasks a.slot)) s)) s)

/-- GRAMMAR_UNLOAD (R231). -/
def execGrammarUnload (d : Hdr) (a : LoadArgs) : State → Host.Outcome State Fault Refusal :=
  accept 0x39 d (fun fn _ s =>
    match loadCheck 1 fn a true s with
    | some st => complete d 0x39 st [] [] s
    | none => unloadNow 1 d a s)

/-- OP_MODEL_LOAD (R251, R252). -/
def execOpModelLoad (d : Hdr) (a : LoadArgs) : State → Host.Outcome State Fault Refusal :=
  accept 0x40 d (fun fn _ s =>
    match modelLoadCheck fn a false s with
    | some st => complete d 0x40 st [] [] s
    | none => withEntry 0x40 d (loadStart 2 d fn a) s)

/-- MODEL_UNLOAD (R251). -/
def execModelUnload (d : Hdr) (a : LoadArgs) : State → Host.Outcome State Fault Refusal :=
  accept 0x40 d (fun fn _ s =>
    match modelLoadCheck fn a true s with
    | some st => complete d 0x40 st [] [] s
    | none => unloadNow 2 d a s)

end Sys2Proof.Machine
end

