-- ==== Sys2Proof/Machine/Operators.lean ====
section
/-! DEFINITION. The operators of a model (R254 to R257, R260): tensors in their spaces, GEMM and GEMV within R135 and R136, ATTENTION over contexts,
NORM, ACT, SOFTMAX within 3 ulp, ROPE, EMBED and TOPK. -/

namespace Sys2Proof.Machine

open Sys2Proof

/-- One row of a pass: its input, the input's context, the token, the token's position, and whether it is its input's last. -/
structure PassRow where
  input : Nat
  context : Option Nat
  token : Nat
  pos : Nat
  last : Bool
deriving DecidableEq, Repr, Inhabited

/-- What an operator works in: profile, image, layer, the number of its results, the number of the first of them, the pass's rows; then the
arenas, the output area, the KV of contexts and of inputs with none, the blocks that may have set sticky, and whether a conversion of R128 was
refused. -/
structure OpEnv where
  x : Profile
  image : ModelImage
  layer : ModelLayer
  ix : Nat
  first : Nat
  rows : List PassRow
  t1 : Mem
  t2 : Mem
  out : Mem
  kv : Tbl KvRows
  scratch : Tbl KvRows
  blocks : Nat
  invalid : Bool
deriving DecidableEq, Repr

/-! ### Tensors (R107, R109, R254) -/

/-- Bytes of a list from an offset; free where it has ended: EMBED and ROPE by an index beyond their table (log entry 109). -/
def takeOr (ix off n : Nat) (bs : List Byte) : List Byte := (List.range n).map (fun k => bs.getD (off + k) (Config.freeByte ix (off + k)))

/-- Bytes of a space (R254): IN holds the pass's token words. -/
def OpEnv.read (e : OpEnv) (space off n : Nat) : List Byte :=
  match space with
  | 0 => Mem.readN off n e.t1
  | 1 => Mem.readN off n e.t2
  | 2 => takeOr e.ix (e.layer.wOff + off) n e.image.weights
  | 3 => takeOr e.ix off n e.image.weights
  | 4 => takeOr e.ix off n (e.rows.flatMap (fun r => natLE 4 r.token))
  | 5 => Mem.readN off n e.out
  | _ => List.replicate n 0

/-- Bytes written to a space; the others are not written (R256). -/
def OpEnv.write (e : OpEnv) (space off : Nat) (bs : List Byte) : OpEnv :=
  match space with
  | 0 => { e with t1 := Mem.writeN off bs e.t1 }
  | 1 => { e with t2 := Mem.writeN off bs e.t2 }
  | 5 => { e with out := Mem.writeN off bs e.out }
  | _ => e

/-- One element of a tensor of `elems` elements: its bits as a value, times the scale numbered `sc` for an MX format. -/
def OpEnv.elem (e : OpEnv) (r : TensorRef) (code elems k sc : Nat) : FVal :=
  let bits :=
    if code = 7 then fieldOf (leNat (e.read r.space (r.offset + k / 2) 1)) (4 * (k % 2)) 4
    else leNat (e.read r.space (r.offset + k * (fmtBits code / 8)) (fmtBits code / 8))
  if isMx code then (elemValue code bits).mul (e8m0 (leNat (e.read r.space (r.offset + scaleOff code elems + sc) 1))) else elemValue code bits

/-- Row i of a tensor of `rows` rows of `len` elements; a scale stands for each 32 of a row. -/
def OpEnv.row (e : OpEnv) (r : TensorRef) (code rows len i : Nat) : List FVal :=
  (List.range len).map (fun k => e.elem r code (rows * len) (i * len + k) (i * ceilDiv len 32 + k / 32))

/-- Column j of a tensor of `rows` rows of `len` elements, whose MX blocks run along the columns; the scales stand in the order of their blocks'
first elements (DESIGN CHOICE, log entry 105). -/
def OpEnv.col (e : OpEnv) (r : TensorRef) (code rows len j : Nat) : List FVal :=
  (List.range rows).map (fun k => e.elem r code (rows * len) (k * len + j) (k / 32 * len + j))

/-- Elements of 4 bits packed two to a byte, the first in bits 3 to 0 (R109). -/
def packNibbles : List Nat → List Byte
  | [] => []
  | [a] => [BitVec.ofNat 8 (a % 16)]
  | a :: b :: r => BitVec.ofNat 8 (a % 16 + 16 * (b % 16)) :: packNibbles r

/-- A row cut into blocks of 32. -/
def blocks32 : Nat → List FVal → List (List FVal)
  | 0, _ => []
  | n + 1, vs => if vs.isEmpty then [] else vs.take 32 :: blocks32 n (vs.drop 32)

/-- The bytes of one result: converted by R126 to R128; INT8, to which no rule converts, is free (log entry 107). An entry that leaves in WIDE
form keeps its sticky flag, which the division of the work decides (R119, R138). -/
def OpEnv.convert (e : OpEnv) (o : ModelOp) (exact : Bool) (k : Nat) (v : FVal) : List Byte :=
  match convertOut o.outFmt o.saturate ⟨v, !exact && Config.stickyBlocks (e.ix + e.first + k) % 2 == 1, false⟩ with
  | some b => natLE (fmtBits o.outFmt / 8) b
  | none => [Config.freeByte e.ix (e.first + k)]

/-- The result rows of an operator in its output format, written to its output (R126 to R128, R133, R254). -/
def OpEnv.put (e : OpEnv) (o : ModelOp) (exact : Bool) (rows : List (List FVal)) : OpEnv :=
  if isMx o.outFmt then
    let qs := rows.flatMap (fun vs => (blocks32 vs.length vs).map (fun b => mxQuantise o.outFmt (b.map toF32)))
    let codes := qs.flatMap (·.2)
    let elems := if o.outFmt = 7 then packNibbles codes else codes.map (BitVec.ofNat 8)
    (e.write o.out.space o.out.offset elems).write o.out.space (o.out.offset + scaleOff o.outFmt codes.length) (qs.map (fun q => BitVec.ofNat 8 q.1))
  else
    let vs := rows.flatten
    e.write o.out.space o.out.offset (((List.range vs.length).zip vs).flatMap (fun p => e.convert o exact p.1 p.2))

/-! ### GEMM and GEMV (R117, R118, R135, R136, R257) -/

/-- INT8, MXINT8 and MXFP4 products sum exactly (R118, R136). -/
def exactFmt (code : Nat) : Bool := code == 4 || code == 8 || code == 7

/-- The factor of the bound of a dot product of n products (R135, R136). Beyond 1,048,576 the merges are taken as at most 2 for each product, the
count R136 gives that length (log entry 110). -/
def dotFactor (n : Nat) : FVal :=
  if n ≤ 1048576 then .fin false 1 1 (-60) else (FVal.fin false 15 1 (-64)).add (.fin false (2 * n) 1 (-95))

/-- A dot product from the starting value c: exact, or placed within the bound of R135 and R136; special values as R117 has them. -/
def dotVal (code : Nat) (exact : Bool) (c : FVal) (a b : List FVal) (t : Int) : FVal :=
  let ps := List.zipWith FVal.mul a b
  let s := ps.foldl FVal.add c
  match s with
  | .fin _ _ _ _ => if exact then s else boundedVal code s ((dotFactor ps.length).mul (ps.foldl (fun m p => m.add p.abs) c.abs)) t
  | v => v

/-- The rows of a that an operator reads (R255). -/
def OpEnv.rowsOf (e : OpEnv) (o : ModelOp) : List Nat :=
  if o.lastRows then (List.range e.rows.length).filter (fun i => (e.rows.map (·.last)).getD i false)
  else List.range (if o.rowsRun then e.rows.length else o.m)

/-- The rows of operand a as the operator's descriptor counts them. -/
def OpEnv.aRows (e : OpEnv) (o : ModelOp) : Nat := if o.rowsRun then e.rows.length else o.m

/-- The blocks of 16 products that a result of k products takes. -/
def blocksOf (k : Nat) : Nat := ceilDiv k 16

/-- Some scale of an MX tensor is not 2^0 (R128). -/
def OpEnv.scaled (e : OpEnv) (r : TensorRef) (code elems scales : Nat) : Bool :=
  isMx code && (e.read r.space (r.offset + scaleOff code elems) scales).any (fun b => b != 0x7F)

/-- A conversion to INT32 is refused: an MX scale of an operand is not 2^0 (R128). -/
def OpEnv.refuses (e : OpEnv) (o : ModelOp) : Bool :=
  o.outFmt == 11 && (e.scaled o.a o.aFmt (e.aRows o * o.k) (e.aRows o * ceilDiv o.k 32) || e.scaled o.b o.bFmt (o.n * o.k) (o.n * ceilDiv o.k 32))

/-- GEMM: out[m × n] = a · b, plus the bias row c. -/
def OpEnv.gemm (e : OpEnv) (o : ModelOp) : OpEnv :=
  let exact := exactFmt o.aFmt
  let is := e.rowsOf o
  let bias : List FVal := if o.c.space = 15 then List.replicate o.n (.fin false 0 1 0) else e.row o.c 9 1 o.n 0
  let out := (List.range is.length).zip is |>.map (fun p =>
    let a := e.row o.a o.aFmt (e.aRows o) o.k p.2
    (List.range o.n).map (fun j => dotVal o.outFmt exact (bias.getD j (.fin false 0 1 0)) a (e.col o.b o.bFmt o.k o.n j)
      (Config.freeShift e.ix (e.first + p.1 * o.n + j))))
  { e.put o exact out with blocks := e.blocks + if exact then 0 else is.length * o.n * blocksOf o.k }

/-- GEMV: out[n × m] = b · aᵀ. -/
def OpEnv.gemv (e : OpEnv) (o : ModelOp) : OpEnv :=
  let exact := exactFmt o.aFmt
  let is := e.rowsOf o
  let out := (List.range o.n).map (fun i =>
    let b := e.row o.b o.bFmt o.n o.k i
    (List.range is.length).zip is |>.map (fun p =>
      dotVal o.outFmt exact (.fin false 0 1 0) b (e.row o.a o.aFmt (e.aRows o) o.k p.2) (Config.freeShift e.ix (e.first + i * is.length + p.1))))
  { e.put o exact out with blocks := e.blocks + if exact then 0 else is.length * o.n * blocksOf o.k }

/-! ### ATTENTION (R146, R256, R260) -/

/-- The number of the rows of a context, layer and KV head; of an input with no context, by the input. -/
def rowsKey (k layer h : Nat) : Nat := (k * 256 + layer) * 64 + h

/-- The rows stored for a pass row's input in a layer and head. -/
def OpEnv.kvRows (e : OpEnv) (r : PassRow) (layer h : Nat) : KvRows :=
  match r.context with
  | some k => (tget (rowsKey k layer h) e.kv).getD []
  | none => (tget (rowsKey r.input layer h) e.scratch).getD []

/-- A K or V vector in kv_format, by round-to-nearest-even (R256). -/
def kvBytes (x : Profile) (vs : List FVal) : List Byte :=
  match fmtOf x.kvFormat with
  | some f => vs.flatMap (fun v => natLE x.e (fencode f false v))
  | none => []

/-- The K and V of a pass row take their position in the input's context (R256, R260). -/
def OpEnv.append (e : OpEnv) (o : ModelOp) (r : PassRow) (a : List FVal) : OpEnv :=
  let x := e.x
  (List.range x.kvHeads).foldl (fun e h =>
    let k := kvBytes x ((a.drop ((x.hq + h) * x.d)).take x.d)
    let v := kvBytes x ((a.drop ((x.hq + x.kvHeads + h) * x.d)).take x.d)
    let rows := (e.kvRows r o.n h).take r.pos ++ [(k, v)]
    match r.context with
    | some c => { e with kv := tset (rowsKey c o.n h) rows e.kv }
    | none => { e with scratch := tset (rowsKey r.input o.n h) rows e.scratch }) e

/-- Position p is attended by the query of a pass row (R146, R256): causal or bidirectional within the input, by the window, or in a sink
page, whose rows are of ctx_positions (R260). `lo` is the input's first position in the pass. -/
def OpEnv.attended (e : OpEnv) (o : ModelOp) (lo : Nat) (r : PassRow) (p : Nat) : Bool :=
  (decide (p ≤ r.pos) || (o.variant == 1 && decide (lo ≤ p))) &&
    (e.x.window == 0 || decide (r.pos < p + e.x.window) || decide (p / max 1 e.x.ctxPositions < e.x.sinkRows))

/-- The first position of a pass row's input in the pass. -/
def OpEnv.inputStart (e : OpEnv) (r : PassRow) : Nat := ((e.rows.find? (fun q => q.input == r.input)).map (·.pos)).getD r.pos

/-- ATTENTION: K and V stored, then each row's query over the attended positions of its input (R256, R257). -/
def OpEnv.attention (e : OpEnv) (o : ModelOp) : OpEnv :=
  let x := e.x
  let is := e.rowsOf o
  let all := List.range (e.aRows o)
  let a (i : Nat) : List FVal := e.row o.a o.aFmt (e.aRows o) ((x.hq + 2 * x.kvHeads) * x.d) i
  let e' := all.foldl (fun t i => match e.rows[i]? with | some r => t.append o r (a i) | none => t) e
  let out := (List.range is.length).zip is |>.map (fun p =>
    match e.rows[p.2]? with
    | none => List.replicate (x.hq * x.d) (.fin false 0 1 0)
    | some r =>
      (List.range x.hq).flatMap (fun hq =>
        let kv := e'.kvRows r o.n (hq / x.group)
        let rows := ((List.range kv.length).zip kv).filter (fun q => e.attended o (e.inputStart r) r q.1)
        outVals x o.outFmt e.ix (e.first + (p.1 * x.hq + hq) * x.d) (((a p.2).drop (hq * x.d)).take x.d) rows))
  { e'.put o false out with blocks := e.blocks + is.length * x.hq * x.ctxPositions }

/-! ### NORM, ACT, SOFTMAX (R256, R257) -/

/-- The square root of a value; NaN of a negative one. -/
def FVal.sqrt : FVal → FVal
  | .fin s n d e => if n = 0 then .fin s 0 1 0 else if s then .nan else sqrtVal n d e
  | .inf s => if s then .nan else .inf false
  | .nan => .nan

/-- The FP32 input that an element is to the vector unit. -/
def vecIn (v : FVal) : FVal := f32 (toF32 v)

/-- A vector-unit result within 3 ulp of an exact value, before output conversion (R257). -/
def near3 (v : FVal) (t : Int) : FVal := f32 (nearF32 3 t v)

def sumVals (vs : List FVal) : FVal := vs.foldl FVal.add (.fin false 0 1 0)

/-- NORM over a row: RMSNorm, or LayerNorm with its bias. -/
def normVals (variant : Nat) (a b c : List FVal) (eps : FVal) : List FVal :=
  let k : FVal := .ofInt a.length 0
  let mean := if variant = 0 then .fin false 0 1 0 else (sumVals a).div k
  let ds := a.map (fun v => v.add mean.neg)
  let r := (((sumVals (ds.map (fun v => v.mul v))).div k).add eps).sqrt
  (List.range a.length).map (fun j =>
    let y := ((ds.getD j .nan).div r).mul (b.getD j .nan)
    if variant = 0 then y else y.add (c.getD j .nan))

/-- 1 / (1 + e^-v). -/
def sigmoid (v : FVal) : FVal := (FVal.ofInt 1 0).div ((FVal.ofInt 1 0).add (expVal v.neg))

/-- 2 √(2 / π) (v + 0.044715 v³), the argument of GELU's tanh form as a sigmoid's: (1 + tanh u) / 2 is the sigmoid of 2 u. -/
def geluArg (v : FVal) : FVal :=
  ((FVal.ofInt 2 0).mul (sqrtVal (2 ^ 641) pi640 0)).mul (v.add ((FVal.fin false 44715 1000000 0).mul (v.mul (v.mul v))))

/-- ACT of one element: GELU (erf form), GELU (tanh form), SiLU, SwiGLU. At −infinity the formula has no value: `w` stands for it. -/
def actVal (variant : Nat) (a c w : FVal) : FVal :=
  match a with
  | .fin _ _ _ _ =>
    if variant = 0 then a.mul (phiVal a)
    else if variant = 1 then a.mul (sigmoid (geluArg a))
    else if variant = 2 then a.mul (sigmoid a)
    else (a.mul (sigmoid a)).mul c
  | .inf false => if variant = 3 then a.mul c else a
  | .inf true => w
  | .nan => .nan

/-- SOFTMAX over a row; NaN where the row holds a NaN or +infinity, or nothing but −infinity (R117). -/
def softmaxVals (a : List FVal) : List FVal :=
  if a.contains .nan || a.contains (.inf false) || a.all (fun v => !v.isFinite) then a.map (fun _ => .nan)
  else
    let z (v : FVal) : Option Int := if v.isFinite then some (toFx (v.mul log2e)) else none
    let zs := a.map z
    let top := match zs.filterMap id with | [] => 0 | y :: r => r.foldl max y
    let ws := zs.map (fun y => match y with | some y => weightFx (top - y) | none => 0)
    ws.map (fun w => .fin false w ws.sum 0)

/-- A row-by-row operator of the vector unit on FP32 inputs, its exact values given; each result within 3 ulp (R257). -/
def OpEnv.vector (e : OpEnv) (o : ModelOp) (f : Nat → List FVal → List FVal) : OpEnv :=
  let is := e.rowsOf o
  let out := (List.range is.length).zip is |>.map (fun p =>
    let vs := f p.2 ((e.row o.a o.aFmt (e.aRows o) o.k p.2).map vecIn)
    ((List.range vs.length).zip vs).map (fun q => near3 q.2 (Config.freeShift e.ix (e.first + p.1 * o.k + q.1))))
  e.put o false out

def OpEnv.norm (e : OpEnv) (o : ModelOp) : OpEnv :=
  let b := (e.row o.b o.bFmt 1 o.k 0).map vecIn
  let c := if o.variant = 1 then (e.row o.c (cFmt o) 1 o.k 0).map vecIn else []
  e.vector o (fun _ a => normVals o.variant a b c (f32 o.param))

def OpEnv.act (e : OpEnv) (o : ModelOp) : OpEnv :=
  e.vector o (fun i a =>
    let c := if o.variant = 3 then (e.row o.c (cFmt o) (e.aRows o) o.k i).map vecIn else []
    ((List.range a.length).zip a).map (fun p =>
      actVal o.variant p.2 (c.getD p.1 .nan) (elemValue 9 (leNat (freeBytes e.ix (4 * (e.first + i * o.k + p.1)) 4)))))

def OpEnv.softmax (e : OpEnv) (o : ModelOp) : OpEnv := e.vector o (fun _ a => softmaxVals a)

/-! ### ROPE, EMBED, TOPK (R256) -/

/-- A sum of two products x p + y q as the vector unit may form it: within the roundings of its FP32 products and their sum, of which no rule
fixes the order (log entry 111). -/
def rotSum (code : Nat) (x p y q : FVal) (t : Int) : FVal :=
  let u := x.mul p
  let v := y.mul q
  let s := u.add v
  match s with
  | .fin _ _ _ _ => boundedVal code s ((FVal.fin false 1 1 (-22)).mul ((u.abs.add v.abs).add (.fin false 1 1 (-126)))) t
  | w => w

/-- ROPE of one head of k elements at a position. -/
def OpEnv.ropeHead (e : OpEnv) (o : ModelOp) (pos : Nat) (a : List FVal) (k0 : Nat) : List FVal :=
  let half := o.k / 2
  let at_ (j : Nat) : FVal := a.getD j .nan
  let cs (i : Nat) : FVal × FVal :=
    let off := o.b.offset + (pos * half + i) * 8
    (elemValue 9 (leNat (e.read o.b.space off 4)), elemValue 9 (leNat (e.read o.b.space (off + 4) 4)))
  (List.range o.k).map (fun j =>
    let i := if o.variant = 0 then j % max 1 half else j / 2
    let lo := if o.variant = 0 then i else 2 * i
    let hi := if o.variant = 0 then i + half else 2 * i + 1
    let (c, s) := cs i
    let t := Config.freeShift e.ix (e.first + k0 + j)
    if 2 * half ≤ j then at_ j
    else if j = lo then rotSum o.outFmt (at_ lo) c (at_ hi) s.neg t else rotSum o.outFmt (at_ hi) c (at_ lo) s t)

def OpEnv.rope (e : OpEnv) (o : ModelOp) : OpEnv :=
  let is := e.rowsOf o
  e.put o false ((List.range is.length).zip is |>.map (fun p =>
    let a := e.row o.a o.aFmt (e.aRows o) (o.n * o.k) p.2
    let pos := (e.rows[p.2]?.map (·.pos)).getD 0
    (List.range o.n).flatMap (fun h => e.ropeHead o pos ((a.drop (h * o.k)).take o.k) ((p.1 * o.n + h) * o.k))))

/-- EMBED: rows of the table by token id. -/
def OpEnv.embed (e : OpEnv) (o : ModelOp) : OpEnv :=
  e.put o true ((e.rowsOf o).map (fun i =>
    e.row o.b o.bFmt o.k o.n (leNat (e.read o.a.space (o.a.offset + 4 * i) 4) % 524288)))

/-- One pair stands before another in TOPK: the greater value, then the lower id. Where a NaN stands no rule says (log entry 112): `t` decides
whether NaNs are the greatest or the least. -/
def pairBefore (t : Int) (a b : Nat × F32) : Bool :=
  let na := f32isNan a.2
  let nb := f32isNan b.2
  if na && nb then decide (a.1 < b.1)
  else if na then decide (0 < t)
  else if nb then !decide (0 < t)
  else f32lt b.2 a.2 || (!f32lt a.2 b.2 && decide (a.1 < b.1))

/-- Insert into a list kept in TOPK's order. -/
def insertPair (t : Int) (p : Nat × F32) : List (Nat × F32) → List (Nat × F32)
  | [] => [p]
  | q :: r => if pairBefore t p q then p :: q :: r else q :: insertPair t p r

/-- The pairs of a row in TOPK's order. -/
def topPairs (t : Int) (vs : List FVal) : List (Nat × F32) :=
  (((List.range vs.length).zip vs).map (fun p => (p.1, toF32 p.2))).foldl (fun l p => insertPair t p l) []

/-- TOPK: the n first pairs of each row; pairs past the row's end are free (log entry 112). -/
def OpEnv.topk (e : OpEnv) (o : ModelOp) : OpEnv :=
  let is := e.rowsOf o
  e.write o.out.space o.out.offset ((List.range is.length).zip is |>.flatMap (fun p =>
    let ps := (topPairs (Config.freeShift e.ix e.first) (e.row o.a o.aFmt (e.aRows o) o.k p.2)).take o.n
    ps.flatMap (fun q => natLE 4 q.1 ++ natLE 4 q.2.toNat) ++ freeBytes e.ix (e.first + 8 * p.1 * o.n) (8 * (o.n - ps.length))))

/-- One operator's effect (R256). -/
def OpEnv.run (e : OpEnv) (o : ModelOp) : OpEnv :=
  match o.op with
  | 1 => if e.refuses o then { e with invalid := true } else e.gemm o
  | 2 => if e.refuses o then { e with invalid := true } else e.gemv o
  | 3 => e.attention o
  | 4 => e.norm o
  | 5 => e.act o
  | 6 => e.rope o
  | 7 => e.embed o
  | 8 => e.softmax o
  | 9 => e.topk o
  | _ => e

/-- The operators of a layer in order; each numbers its results from its own first number. A refused one is the last. -/
def OpEnv.runAll (base : Nat) : List (Nat × ModelOp) → OpEnv → OpEnv
  | [], e => e
  | (k, o) :: r, e => if e.invalid then e else OpEnv.runAll base r (({ e with first := (base + k) * 2 ^ 40 }).run o)

end Sys2Proof.Machine
end

