-- ==== Sys2Proof/Machine/ModelRun.lean ====
section
/-! DEFINITION. Model runs (R258 to R264): OP_MODEL_RUN, their dispatch, the weight streamer and the layers. -/

namespace Sys2Proof.Machine

open Sys2Proof

/-! ### Checks (R259, R260) -/

/-- A model-table entry. -/
def Chan.model (c : Chan) (p : Nat) : Model := (tget p c.models).getD {}

/-- The model is READY. -/
def modelReady (c : Chan) (p : Nat) : Bool := (c.model p).state == 2

/-- The length of a draft context (R260). -/
def ctxLen (m : Model) (k : Nat) : Nat := (tget k m.ctx).getD 0

/-- Bytes a run writes (R259). -/
def runOutBytes (x : Profile) (m : Model) (a : RunArgs) : Nat :=
  if x.kind = 0 then a.count * a.steps * 264 else a.count * (match m.image with | some i => i.outBytes | none => 0)

/-- An input's position is permitted (R260). -/
def posOk (x : Profile) (m : Model) (i : RunInput) : Bool :=
  match i.context with
  | none => i.pos == 0
  | some k => decide (k < x.ctxCount) && decide (i.pos ≤ ctxLen m k)

/-- The limits of item 3 on an input of n tokens. -/
def inputOk (x : Profile) (n : Nat) (toks : List Nat) : Bool :=
  decide (1 ≤ n) && decide (n ≤ x.maxTokens) && toks.all (fun t => decide (t < x.vocab))

/-- A context would pass ctx_positions (R259 item 6). -/
def ctxOver (x : Profile) (steps : Nat) (i : RunInput) (n : Nat) : Bool :=
  i.context.isSome && decide (x.ctxPositions < i.pos + n + steps - 1)

/-- No number stands twice in a list. -/
def noRepeat : List Nat → Bool
  | [] => true
  | a :: r => !r.contains a && noRepeat r

/-- The checks of R259 in their order. With text, the limits on tokens wait for dispatch. -/
def runCheck (ch fn : Nat) (a : RunArgs) (s : State) : Option Status :=
  let c := s.chan ch
  let x := c.prof a.profile
  let m := c.model a.profile
  let used := c.runs.flatMap (fun r => if r.a.profile = a.profile then r.a.inputs.filterMap (fun i => i.context) else [])
  let named := a.inputs.filterMap (fun i => i.context)
  if a.count = 0 then some .lenZero
  else if !modelReady c a.profile then some .modelNotLoaded
  else if x.maxBatch < a.count ∨ a.steps = 0 ∨ 16 < a.steps ∨ (x.kind ≠ 0 ∧ a.steps ≠ 1) ∨ (x.kind = 0 ∧ (a.support = 0 ∨ 32 < a.support))
    ∨ 4194304 < a.dataLen ∨ a.inputs.any (fun i => i.len == 0)
    ∨ (!a.text ∧ (a.inputs.any (fun i => !inputOk x i.len (i.toks.map (· % 524288))) ∨ x.maxRows < (a.inputs.map (fun i => i.len)).sum))
    ∨ (a.text ∧ (c.tokImage a.tokenizer).isNone) ∨ a.inputs.any (fun i => !posOk x m i) then some .paramInvalid
  else
    match rangesCheck fn [(a.inAddr, 16 * a.count), (a.dataAddr, a.dataLen), (a.outAddr, a.outLen)] s with
    | some st => some st
    | none =>
      if a.outLen < runOutBytes x m a ∨ a.inputs.any (fun i => decide (a.dataLen < i.off + if a.text then i.len else 4 * i.len)) then
        some .lenExceedsBuffer
      else if !noRepeat named ∨ named.any (fun k => used.contains k) then some .contextBusy
      else if !a.text ∧ a.inputs.any (fun i => ctxOver x a.steps i i.len) then some .contextLimit
      else if c.bulkFull then some .bulkQueueFull
      else none

/-- A run joins those accepted. -/
def runAccept (d : Hdr) (a : RunArgs) (ch : Nat) (s : State) : Chan :=
  let c := s.chan ch
  let m := c.model a.profile
  let id := c.nextUnit
  { c with runs := c.runs ++ [{ id := id, ring := d.ring, tag := d.tag, deadline := deadlineOf d s, a := a }]
           models := tset a.profile { m with runs := m.runs + 1 } c.models, nextUnit := id + 1 }

/-- OP_MODEL_RUN (R258, R259). -/
def execOpModelRun (d : Hdr) (a : RunArgs) : State → Host.Outcome State Fault Refusal :=
  accept 0x41 d (fun fn ch s =>
    match runCheck ch fn a s with
    | some st => complete d 0x41 st [] [] s
    | none => addOp 0x41 d fn ch [(a.inAddr, 16 * a.count), (a.dataAddr, a.dataLen), (a.outAddr, a.outLen)] false (.bulk ch (s.chan ch).nextUnit)
        (s.setChan ch (runAccept d a ch s)))

/-! ### The layers of a run (R261 to R263) -/

/-- The run that holds the window. -/
def Chan.running (c : Chan) : Option ModelRun := c.runs.find? (fun r => r.dispatched)

/-- A model's layer table. -/
def layersOf (c : Chan) (p : Nat) : List ModelLayer := match (c.model p).image with | some i => i.layers | none => []

/-- What a window buffer holds is named by pass and layer. -/
def winKey (pass layer : Nat) : Nat := pass * 1024 + layer

/-- A layer's weights are at hand: it streams none, the model is resident, or a buffer holds them. -/
def layerReady (c : Chan) (r : ModelRun) (l : ModelLayer) : Bool :=
  !l.stream || (c.model r.a.profile).resident || c.window.bufA == some (winKey r.pass r.layer) || c.window.bufB == some (winKey r.pass r.layer)

/-- The next layer of the run in hand goes to the tiles once its weights are at hand (R184, R262). The run has held its record of the BULK
queue since it was accepted (bulkLen), so none is waited for. -/
def pushLayer (ch : Nat) (s : State) : State :=
  let c := s.chan ch
  match c.running with
  | none => s
  | some r =>
    match (layersOf c r.a.profile)[r.layer]? with
    | none => s
    | some l =>
      if layerReady c r l && !c.bulk.any (fun u => match u.work with | .modelLayer id _ => id == r.id | _ => false) then
        s.setChan ch (c.pushUnit l.width r.deadline s.now (bulkMinTiles ch s) (.modelLayer r.id r.layer))
      else s

/-- The model's weights may stay in the window (R263). -/
def mayReside (c : Chan) (p : Nat) : Bool :=
  let x := c.prof p
  (x.mPlace == 0 || x.mPlace == 2) && decide ((((layersOf c p).filter (fun l => l.stream)).map (fun l => l.wLen)).sum ≤ 1342177280)

/-- The streamer copies the next layer's weights when its buffer is free (R263). -/
def fillWindow (c : Chan) : Chan :=
  match c.running with
  | none => c
  | some r =>
    let p := r.a.profile
    let m := c.model p
    let ls := layersOf c p
    let w := c.window
    if m.resident then c
    else if mayReside c p then { c with models := tset p { m with resident := true } c.models }
    else
      let at_ (k : Nat) : Option ModelLayer := ls[k]?
      let skip := (ls.drop w.next).takeWhile (fun l => !l.stream)
      let next := w.next + skip.length
      let (pass, next) := if next < ls.length then (w.pass, next) else (w.pass + 1, (ls.takeWhile (fun l => !l.stream)).length)
      match at_ next with
      | none => c
      | some l =>
        if r.a.steps ≤ pass then c
        else
          let key := some (winKey pass next)
          if 671088640 < l.wLen then
            if w.bufA.isNone ∧ w.bufB.isNone then { c with window := { w with bufA := key, bufB := key, next := next + 1, pass := pass, buf := 0 } } else c
          else if w.buf = 0 then
            if w.bufA.isNone then { c with window := { w with bufA := key, next := next + 1, pass := pass, buf := 1 } } else c
          else if w.bufB.isNone then { c with window := { w with bufB := key, next := next + 1, pass := pass, buf := 0 } } else c

/-- WINDOW_FILL (R263). -/
def execWindowFill (channel : Nat) : State → Host.Outcome State Fault Refusal :=
  whenUp (fun s => pushLayer channel (s.modChan channel fillWindow))

/-! ### The end of a run (R260, R261, R264) -/

/-- The tokens of an input. -/
def inputLen (i : RunInput) : Nat := i.toks.length

/-- The rows of the pass in progress: in pass 0 each input's tokens, then each input's draft token (R256, R261). -/
def passRows (r : ModelRun) : List PassRow :=
  ((List.range r.rows.length).zip r.rows).flatMap (fun e =>
    let i := r.a.inputs.getD e.1 default
    let base := i.pos + if r.pass = 0 then 0 else inputLen i + r.pass - 1
    ((List.range e.2.length).zip e.2).map (fun t => ⟨e.1, i.context, t.2, base + t.1, t.1 + 1 == e.2.length⟩))

/-- The operators of a layer run over what the channel holds (R254 to R257). -/
def layerEnv (r : ModelRun) (c : Chan) : OpEnv :=
  let m := c.model r.a.profile
  let i := m.image.getD default
  let l := i.layers.getD r.layer default
  OpEnv.runAll ((r.pass * 1024 + r.layer) * 4096) ((List.range l.opCount).zip ((i.ops.drop l.opFirst).take l.opCount))
    { x := c.prof r.a.profile, image := i, layer := l, ix := r.ix, first := 0, rows := passRows r, t1 := c.actT1, t2 := m.actT2, out := r.out
      kv := m.kv, scratch := r.scratch, blocks := 0, invalid := false }

/-- What a layer leaves: the arenas and the contexts in the channel, the output and the scratch in the run (R243, R244, R260). -/
def layerRun (r : ModelRun) (e : OpEnv) (c : Chan) : ModelRun × Chan :=
  let m := c.model r.a.profile
  ({ r with out := e.out, scratch := e.scratch },
   { c with actT1 := e.t1, models := tset r.a.profile { m with actT2 := e.t2, kv := e.kv } c.models })

/-- The operator that writes a DRAFT run's pairs: the last of the last layer (R261). -/
def lastOp (i : ModelImage) : ModelOp :=
  match i.layers.getLast? with
  | some l => i.ops.getD (l.opFirst + l.opCount - 1) default
  | none => default

/-- The pairs that stand in the output area for an input after a pass: id and probability (R256, R261). -/
def outPairs (i : ModelImage) (r : ModelRun) (input : Nat) : List (Nat × F32) :=
  let o := lastOp i
  let row := if o.lastRows then input else ((r.rows.take (input + 1)).map List.length).sum - 1
  (List.range r.a.support).map (fun k =>
    let bs := Mem.readN (o.out.offset + 8 * (row * o.n + k)) 8 r.out
    (leNat (bs.take 4), BitVec.ofNat 32 (leNat (bs.drop 4))))

/-- Bytes of one draft entry (R225). -/
def draftEntryBytes : Nat := 264

/-- The draft token of an input after a pass and its entry (R225, R261); what stands past the entry's pairs is ignored and free. -/
def draftOf (i : ModelImage) (r : ModelRun) (input : Nat) : Nat × List Byte :=
  let ps := outPairs i r input
  let inp := r.a.inputs.getD input default
  let rest (k : Nat) : List Byte := freeBytes r.ix ((input * 16 + r.pass) * draftEntryBytes + k) (256 - k)
  if r.a.greedy then
    let t := (ps.head?.map (·.1)).getD 0
    (t, natLE 4 t ++ natLE 2 1 ++ natLE 2 0 ++ natLE 4 t ++ natLE 4 0x3F800000 ++ rest 8)
  else
    let t := cdfDraw (uniform r.a.seed 0 (inp.pos + inputLen inp + r.pass) 0 input 0) wideZero ps
    (t, natLE 4 t ++ natLE 2 r.a.support ++ natLE 2 0 ++ ps.flatMap (fun p => natLE 4 p.1 ++ natLE 4 p.2.toNat) ++ rest (8 * r.a.support))

/-- The end of a pass of a DRAFT run: an entry for each input, whose token is the input's one row of the next pass (R261). -/
def draftPass (x : Profile) (i : ModelImage) (r : ModelRun) : ModelRun :=
  if x.kind ≠ 0 then r
  else
    let ds := (List.range r.a.inputs.length).map (draftOf i r)
    { r with rows := ds.map (fun d => [d.1])
             entries := ((List.range ds.length).zip ds).foldl (fun t e => tset (e.1 * r.a.steps + r.pass) e.2.2 t) r.entries }

/-- What a run writes to its output (R259, R261): its draft entries, or its output area. -/
def runWrites (x : Profile) (m : Model) (r : ModelRun) : List (Nat × List Byte) :=
  if x.kind = 0 then r.entries.map (fun e => (r.a.outAddr + e.1 * draftEntryBytes, e.2))
  else [(r.a.outAddr, Mem.readN 0 (runOutBytes x m r.a) r.out)]

/-- The layers a run has begun hold an operator that writes its output area. -/
def outWritten (i : ModelImage) (r : ModelRun) : Bool :=
  ((if r.pass = 0 then i.layers.take (r.layer + 1) else i.layers).flatMap (fun l => (i.ops.drop l.opFirst).take l.opCount)).any
    (fun o => o.out.space == 5)

/-- The run leaves the channel; its contexts stay as given. -/
def dropRun (r : ModelRun) (ctx : Tbl Nat → Tbl Nat) (c : Chan) : Chan :=
  let m := c.model r.a.profile
  { c with runs := c.runs.filter (fun q => q.id != r.id), models := tset r.a.profile { m with runs := m.runs - 1, ctx := ctx m.ctx } c.models
           bulk := c.bulk.filter (fun u => match u.work with | .modelLayer id _ => id != r.id | _ => true)
           window := { c.window with bufA := none, bufB := none, next := 0, pass := 0, buf := 0 } }

/-- The result words of a completed run (R394). -/
def runResult (m : Model) (a : RunArgs) : List Nat :=
  (a.count + a.steps * 65536) :: a.inputs.map (fun i => match i.context with | some k => ctxLen m k | none => 4294967295)

/-- A run ends with a status. An error cuts the contexts it touched to their lengths before it (R259, R264: log entry 113); with ST_POISONED the
outputs it has written carry the poison. -/
def endRun (ch : Nat) (r : ModelRun) (st : Status) (s : State) : State :=
  let c := s.chan ch
  let x := c.prof r.a.profile
  let m := c.model r.a.profile
  match opOf r.ring r.tag s with
  | none => s.setChan ch (dropRun r id c)
  | some op =>
    if st = .ok then
      endOp op .ok (runResult m r.a) ((runWrites x m r).map (fun w => (w.1, .bytes w.2))) (s.setChan ch (dropRun r id c))
    else
      endOp op st []
        (if st = .poisoned ∧ outWritten (m.image.getD default) r then (runWrites x m r).map (fun w => (w.1, .poisoned w.2)) else [])
        (s.setChan ch (dropRun r (fun t => r.saved.foldl (fun t e => tset e.1 (min e.2 ((tget e.1 t).getD 0)) t) t) c))

/-- A run's layer is done: its buffer is free, and the next layer, the next pass or the end follows (R260, R261). -/
def layerDone2 (r : ModelRun) (c : Chan) : ModelRun × Chan :=
  let key := some (winKey r.pass r.layer)
  let w := c.window
  let c := { c with window := { w with bufA := if w.bufA = key then none else w.bufA, bufB := if w.bufB = key then none else w.bufB } }
  let ls := layersOf c r.a.profile
  if r.layer + 1 < ls.length then ({ r with layer := r.layer + 1 }, c)
  else
    let m := c.model r.a.profile
    let ctx := r.a.inputs.foldl (fun t i => match i.context with | some k => tset k (i.pos + inputLen i + r.pass) t | none => t) m.ctx
    ({ draftPass (c.prof r.a.profile) (m.image.getD default) r with layer := 0, pass := r.pass + 1 },
     { c with models := tset r.a.profile { m with ctx := ctx } c.models })

/-- A model layer's unit ends (R261, R264): its operators' results stand, the blocks that set sticky are counted (R119), and a conversion that
R128 refuses ends the run. -/
def modelUnitDone (ch run : Nat) (poisoned : Bool) (s : State) : State :=
  let c := s.chan ch
  match c.runs.find? (fun r => r.id == run) with
  | none => s
  | some r =>
    let e := layerEnv r c
    let (r, c) := layerRun r e c
    let s := if e.blocks = 0 then s.setChan ch c else addSticky ch e.blocks (s.setChan ch c)
    if poisoned then endRun ch r .poisoned s
    else if e.invalid then endRun ch r .paramInvalid s
    else
      let (r, c) := layerDone2 r (s.chan ch)
      let s := s.setChan ch { c with runs := c.runs.map (fun q => if q.id = run then r else q) }
      if r.pass < r.a.steps then pushLayer ch s else endRun ch r .ok s

/-! ### Dispatch (R259, R262) -/

/-- A run comes before another: deadline, then acceptance (R262). -/
def runBefore (a b : ModelRun) : Bool := dlLt a.deadline b.deadline || (a.deadline == b.deadline && decide (a.id ≤ b.id))

/-- The run dispatched next. -/
def nextRun : List ModelRun → Option ModelRun
  | [] => none
  | r :: rs => some (rs.foldl (fun b q => if runBefore b q then b else q) r)

/-- A run's inputs as tokens: the words given, or the text tokenized as one buffer under REPLACE (R213, R259); with the ill-formed subparts and
the flushes that Prism counts on the way (R208, R210). -/
def runTokens (c : Chan) (a : RunArgs) : List RunInput × Nat × Nat :=
  if a.text then
    match c.tokImage a.tokenizer with
    | some t =>
      let os := a.inputs.map (fun i => (i, textRun t 0 {} i.text true))
      (os.map (fun o => { o.1 with toks := o.2.run.toks }), (os.map (fun o => o.2.invalid)).sum, (os.map (fun o => o.2.run.flushes)).sum)
    | none => (a.inputs, 0, 0)
  else (a.inputs.map (fun i => { i with toks := i.toks.map (· % 524288) }), 0, 0)

/-- What tokenizing a run's text counts (R208, R210). -/
def countText (invalid flushes : Nat) (c : Chan) : Chan :=
  { c with prismInvalid := wrap64 (c.prismInvalid + invalid), normFlush := wrap64 (c.normFlush + flushes) }

/-- The limits that a tokenized run may break (R259). -/
def lateCheck (x : Profile) (a : RunArgs) (is : List RunInput) : Option Status :=
  if !a.text then none
  else if is.any (fun i => !inputOk x (inputLen i) i.toks) ∨ x.maxRows < (is.map inputLen).sum then some .paramInvalid
  else if is.any (fun i => ctxOver x a.steps i (inputLen i)) then some .contextLimit
  else none

/-- The window or the arena holds what a protected model of another profile wrote: it is zeroed before it passes on (R253). -/
def arenaFor (p : Nat) (c : Chan) : Mem :=
  match c.window.owner with
  | some k => if k ≠ p ∧ (c.model k).isProtected then [] else c.actT1
  | none => c.actT1

/-- The run takes the window and the arena: its contexts are cut at their positions, and another model is resident no longer
(R260, R262, R263). `ix` numbers its results. -/
def takeWindow (ix : Nat) (r : ModelRun) (is : List RunInput) (c : Chan) : Chan :=
  let p := r.a.profile
  let m := c.model p
  let named := is.filterMap (fun i => i.context.map (fun k => (k, i.pos)))
  let r' := { r with dispatched := true, a := { r.a with inputs := is }, saved := named.map (fun e => (e.1, ctxLen m e.1)),
                       ix := ix, rows := is.map (fun i => i.toks) }
  let ms := tset p { m with ctx := named.foldl (fun t e => tset e.1 (min e.2 (ctxLen m e.1)) t) m.ctx } c.models
  { c with runs := c.runs.map (fun q => if q.id = r.id then r' else q)
           models := ms.map (fun e => if e.1 = p then e else (e.1, { e.2 with resident := false }))
           window := { bufA := none, bufB := none, next := 0, pass := 0, buf := 0, owner := some p }
           actT1 := arenaFor p c }

/-- MODEL_RUN_DISPATCH (R262). -/
def execModelRunDispatch (channel : Nat) : State → Host.Outcome State Fault Refusal :=
  whenUp (fun s =>
    let c := s.chan channel
    match c.running, nextRun c.runs with
    | none, some r =>
      let (is, invalid, flushes) := runTokens c r.a
      let c := countText invalid flushes c
      (match lateCheck (c.prof r.a.profile) r.a is with
       | some st => endRun channel r st (s.setChan channel c)
       | none => pushLayer channel (s.setChan channel (takeWindow s.freeIx r is c)).advanceFree)
    | _, _ => s)

end Sys2Proof.Machine
end

