-- ==== Sys2Proof/Machine/Store.lean ====
section
/-! DEFINITION. What the records of a buddy store amount to (R292 to R296, R313, R366): sessions and indexes rebuilt from the records applied
in the order they were sent. -/

namespace Sys2Proof.Machine

open Sys2Proof

/-! ### Sessions (R292, R313) -/

/-- The objects of one session that the records read so far give: its TAIL and FREE records in order, and its latest DIR, SBLK and queue. -/
structure Gathered where
  dir : Option Dir := none
  blk : Option SBlk := none
  queue : List Nat := []
  kv : List StoredRec := []
deriving DecidableEq, Repr, Inhabited

/-- One record is applied (R292). A capture writes DIR before QUEUE, and QUEUE only when the queue is not empty (R296): a DIR empties it
(DEDUCED, log entry 124). -/
def applyRec (t : Tbl Gathered) (r : StoredRec) : Tbl Gathered :=
  let get (i : Nat) : Gathered := (tget i t).getD {}
  match r with
  | .dir i d => tset i { get i with dir := some d, queue := [] } t
  | .sblk i b => tset i { get i with blk := some b } t
  | .queue i ws => tset i { get i with queue := ws } t
  | .tail i _ _ _ => tset i { get i with kv := (get i).kv ++ [r] } t
  | .free i _ => tset i { get i with kv := (get i).kv ++ [r] } t
  | .clone p x => tset x { get x with kv := (get p).kv } t
  | .close i => tdel i t
  | _ => t

/-- The positions of one map entry that a TAIL or FREE record leaves (R48, R294): a TAIL gives positions of its layer their rows, a FREE
removes the page. -/
def applyRows (x : Profile) (e : Nat) (t : Tbl (List Byte × List Byte)) : StoredRec → Tbl (List Byte × List Byte)
  | .tail _ l first heads =>
    if l = x.layerOf e then
      match heads[x.headOf e]? with
      | none => t
      | some h => (List.zip (List.range h.1.length) (List.zip h.1 h.2)).foldl (fun t q =>
          if (first + q.1) / x.p = x.rowOf e then tset (first + q.1) q.2 t else t) t
    else t
  | .free _ k => if k = e then [] else t
  | _ => t

/-- The rows of one map entry at a length, in position order. -/
def Gathered.rows (g : Gathered) (x : Profile) (len e : Nat) : List (List Byte × List Byte) :=
  ((g.kv.foldl (applyRows x e) []).filter (fun q => decide (q.1 < len))).map (·.2)

/-- The session that the records give at directory index i of a channel, when its DIR and block are there (R292). -/
def Gathered.session (g : Gathered) (prof : Nat → Profile) (fid ch i : Nat) : Option StoredSession :=
  match g.dir, g.blk with
  | some d, some b =>
    let x := prof d.profile
    let es := (List.range ((d.kvLen + x.p - 1) / x.p * x.layers * x.kvHeads)).map (fun e => (e, g.rows x d.kvLen e))
    some ⟨⟨fid, ch, i, d.epoch, d.count⟩, d, b, g.queue,
      (es.filter (fun e => !e.2.isEmpty)).map (fun e => (e.1, e.2.map (·.1), e.2.map (·.2))),
      (es.filter (fun e => e.2.isEmpty)).map (·.1)⟩
  | _, _ => none

/-- The sessions of a channel that its source's records give, in directory order. -/
def storedSessions (prof : Nat → Profile) (fid ch : Nat) (rs : List StoredRec) : List StoredSession :=
  (rs.foldl applyRec []).filterMap (fun e => e.2.session prof fid ch e.1)

/-! ### Indexes (R349 to R353, R366) -/

/-- The units of an index that the records read so far give, by segment and unit. -/
structure GatheredIndex where
  header : List Byte := []
  vec : Tbl (List Byte) := []
  node : Tbl (List Byte) := []
  map : Tbl (List Byte) := []
deriving DecidableEq, Repr, Inhabited

/-- Bytes of a stored element. -/
def lensElemBytes (e : Nat) : Nat := if e = 9 then 4 else if e = 0 then 2 else 1

/-- Record sizes (R351). -/
def vbytes (h : LensHdr) : Nat := (h.dim * lensElemBytes h.elem + 63) / 64 * 64
def nbytes (h : LensHdr) : Nat := (16 + 8 * h.degree + 63) / 64 * 64

/-- A unit's key. -/
def unitAt (segment unit : Nat) : Nat := segment * 4294967296 + unit

/-- One record of an index is applied (R366): a freed segment's units go. -/
def applyUnit (g : GatheredIndex) : StoredRec → GatheredIndex
  | .lhdr b => { g with header := b }
  | .lvec sg u b => { g with vec := tset (unitAt sg u) b g.vec }
  | .lnode sg u b => { g with node := tset (unitAt sg u) b g.node }
  | .lstate u b => { g with map := tset u b g.map }
  | .lseg sg true => { g with vec := g.vec.filter (fun e => e.1 / 4294967296 != sg), node := g.node.filter (fun e => e.1 / 4294967296 != sg) }
  | _ => g

/-- Bytes of an array kept in 4 KiB units; a unit that no record gave reads 0. -/
def arrayBytes (t : Tbl (List Byte)) (segment off n : Nat) : List Byte :=
  (List.range n).map (fun k => ((tget (unitAt segment ((off + k) / 4096)) t).getD []).getD ((off + k) % 4096) 0)

/-- The header as its bytes give it (R349). -/
def lensHeader (b : List Byte) : LensHdr :=
  let ctl := leAt b 0x00 4
  ⟨fieldOf ctl 1 2, fieldOf ctl 3 4, fieldOf ctl 7 2, leAt b 0x04 2, leAt b 0x06 1, leAt b 0x07 1, leAt b 0x08 2, leAt b 0x0A 1, leAt b 0x0C 4⟩

/-- The entry points of a header (R349). -/
def lensEntries (b : List Byte) : Tbl Nat :=
  (List.range 16).filterMap (fun k => let w := leAt b (0x20 + 4 * k) 4; if fieldOf w 31 1 = 1 then some (k, fieldOf w 0 28) else none)

/-- The allocated segments of a segment table, with the tiers of their arrays (R351). -/
def lensSegments (b : List Byte) : List (Nat × Nat × Nat) :=
  (List.range ((b.length - 0x1000) / 16)).filterMap (fun j =>
    let v := leAt b (0x1000 + 16 * j) 1
    let n := leAt b (0x1008 + 16 * j) 1
    if v = 0 then none else some (j, v, n))

/-- The states of the ids of a state map's unit (R353): 16,384 ids, four to a byte. -/
def unitStates (u : Nat) (b : List Byte) : List (Nat × Nat) :=
  ((List.range b.length).flatMap (fun k => (List.range 4).map (fun j =>
    (u * 16384 + 4 * k + j, fieldOf (b.getD k 0).toNat (2 * j) 2)))).filter (fun e => e.2 != 0)

/-- A stored element as the model holds it, widened exactly (R347). -/
def lensElement (e : Nat) (b : List Byte) : F32 := toF32 (elemValue e (leNat b))

/-- The vector record of an id (R351). -/
def unitVector (h : LensHdr) (t : Tbl (List Byte)) (i : Nat) : List F32 :=
  let n := lensElemBytes h.elem
  (List.range h.dim).map (fun k => lensElement h.elem (arrayBytes t (i / 65536) (i % 65536 * vbytes h + k * n) n))

/-- The node record of an id (R352). -/
def unitNode (h : LensHdr) (t : Tbl (List Byte)) (i : Nat) : LensNode :=
  let b := arrayBytes t (i / 65536) (i % 65536 * nbytes h) (nbytes h)
  ⟨BitVec.ofNat 32 (leAt b 0 4), (List.range (leAt b 4 2)).map (fun j => (fieldOf (leAt b (16 + 8 * j) 4) 0 28, BitVec.ofNat 32 (leAt b (20 + 8 * j) 4)))⟩

/-- The index that its source's records give; none without a valid header (R349, R366). -/
def storedIndex (rs : List StoredRec) : Option StoredLens :=
  let g := rs.foldl applyUnit {}
  if g.header.isEmpty ∨ fieldOf (leAt g.header 0 4) 0 1 = 0 then none
  else
    let h := lensHeader g.header
    let st := g.map.flatMap (fun u => unitStates u.1 u.2)
    some { hdr := h, epoch := leAt g.header 0x18 8, entry := lensEntries g.header, segments := lensSegments g.header
           vectors := st.map (fun e => (e.1, unitVector h g.vec e.1))
           nodes := st.map (fun e => (e.1, unitNode h g.node e.1)), states := st }

end Sys2Proof.Machine
end

