-- ==== Sys2Proof/Machine/Lens.lean ====
section
/-! DEFINITION. Lens (R346 to R366): the index and its distances, queries and the expansion table, merge of results, insert, delete and
consolidation, and the units a capture takes. -/

namespace Sys2Proof.Machine

open Sys2Proof

def Chan.modLens (c : Chan) (f : Lens → Lens) : Chan := { c with lens := f c.lens }

/-! ### Distances (R347, R348) -/

/-- The elements of an index format (R347). -/
def lensElemOk (e : Nat) : Bool := e == 9 || e == 0 || e == 2 || e == 3 || e == 4

/-- A vector element as it is stored: exactly where the format holds it, else a value the spec does not state. -/
def storeElem (e : Nat) (x : F32) : F32 :=
  if e = 2 ∨ e = 3 then
    let f := if e = 2 then fmtE4m3 else fmtE5m2
    let y := toF32 (fdecode f (fencode f false (f32 x)))
    if y = x then x else Config.narrowElem e x
  else x

/-- The products of one dimension as the array forms them (R347): four S12 products for FP32, one otherwise. -/
def dimProducts (e : Nat) (x y : F32) : List FVal :=
  if e = 9 then
    let a := split12 x
    let b := split12 y
    [(s12 a.1).mul (s12 b.1), (s12 a.1).mul (s12 b.2), (s12 a.2).mul (s12 b.1), (s12 a.2).mul (s12 b.2)]
  else [(f32 x).mul (f32 y)]

/-- q · x in ascending dimension order into a WIDE entry (R348); INT8 is exact (R118). -/
def lensDot (e : Nat) (q x : List F32) : Wide :=
  let ps := (List.zipWith (fun a b => dimProducts e a b) q x).flatten
  if e = 4 then { wideZero with v := ps.foldl FVal.add (.fin false 0 1 0) } else mergeBlocks false (ps.length + 1) ps wideZero

/-- The blocks of q · x that set sticky (R118, R119). -/
def lensSticky (e : Nat) (q x : List F32) : Nat :=
  let ps := (List.zipWith (fun a b => dimProducts e a b) q x).flatten
  if e = 4 then 0 else stickyIn (ps.length + 1) ps

/-- The blocks of one dot product of an index that may set sticky. -/
def lensBlocks (h : LensHdr) : Nat := if h.elem = 4 then 0 else ((if h.elem = 9 then 4 else 1) * h.dim + 15) / 16

/-- aux of a vector, and the query's value formed the same way (R348). -/
def lensAux (h : LensHdr) (x : List F32) : F32 :=
  let n := wideF32 (lensDot h.elem x x)
  if h.metric = 0 then 0 else if h.metric = 1 then n else if f32isZero n then 0 else f32rsqrt n

/-- The blocks that set sticky as the value of a vector is formed. -/
def auxSticky (h : LensHdr) (x : List F32) : Nat := if h.metric = 0 then 0 else lensSticky h.elem x x

/-- The distance of a query with its value from a vector with its aux (R348); L2 is merged in WIDE (R121). -/
def lensDist (h : LensHdr) (q : List F32) (qn : F32) (x : List F32) (aux : F32) : F32 :=
  let w := lensDot h.elem q x
  if h.metric = 0 then toF32 w.v.neg
  else if h.metric = 1 then
    let d := wideF32 (wideMerge (wideMerge { wideZero with v := f32 qn } { wideZero with v := f32 aux })
      { w with v := (w.v.mul (.fin false 2 1 0)).neg })
    if f32lt d 0 then 0 else d
  else f32sub 0x3F800000 (f32mul (f32mul (wideF32 w) aux) qn)

/-- The order of R348: nearer first, ties by the lower id. -/
def nearer (a b : F32 × Nat) : Bool := f32lt a.1 b.1 || (!f32lt b.1 a.1 && decide (a.2 < b.2))

/-- Insert into a list in that order. -/
def insertNear (x : F32 × Nat) : List (F32 × Nat) → List (F32 × Nat)
  | [] => [x]
  | y :: r => if nearer x y then x :: y :: r else y :: insertNear x r

/-- A vector with a NaN or an infinite element. -/
def badVector (v : List F32) : Bool := v.any (fun x => !f32finite x)

/-! ### The index (R349 to R353) -/

/-- The fields of an index header lie in their ranges (R349). -/
def hdrOk (h : LensHdr) : Bool :=
  decide (h.metric ≤ 2) && lensElemOk h.elem && decide (h.place ≤ 3) && decide (1 ≤ h.dim) && decide (h.dim ≤ 4096) &&
  (h.elem != 4 || h.dim % 32 == 0) && decide (2 ≤ h.degree) && decide (h.degree ≤ 64) && decide (1 ≤ h.entries) &&
  decide (h.entries ≤ 16) && decide (h.degree ≤ h.buildBeam) && decide (h.buildBeam ≤ 1024) && decide (2 ≤ h.owner) &&
  decide (h.owner ≤ 255) && h.capacity % 65536 == 0 && decide (65536 ≤ h.capacity) && decide (h.capacity ≤ 268435456)

/-- States of an id (R353): 0 ABSENT, 1 LIVE, 2 TOMBSTONE, 3 INSERTING. -/
def Lens.stateOf (x : Lens) (i : Nat) : Nat := (tget i x.states).getD 0

def Lens.setState (x : Lens) (i v : Nat) : Lens := { x with states := if v = 0 then tdel i x.states else tset i v x.states }

def Lens.node (x : Lens) (i : Nat) : LensNode := (tget i x.nodes).getD ⟨0, []⟩

def Lens.vector (x : Lens) (i : Nat) : List F32 := (tget i x.vectors).getD []

/-! ### Units for Mirror (R366) -/

/-- A unit of a record kind, as one number: kind, then the object field of R366. -/
def unitKey (kind obj : Nat) : Nat := kind + 16 * obj

/-- A write to a unit: it is changed, and one not yet captured is copied first (R366). -/
def Chan.touchUnit (c : Chan) (k : Nat) : Chan :=
  let m := c.mirror
  let c := if m.gen != 0 && m.todo.contains k && !c.lens.copied.contains k then
      { c.modLens (fun x => { x with copied := k :: x.copied }) with
        mirror := if 65536 ≤ c.lens.copied.length then { m with stallCount := wrap64 (m.stallCount + 1) } else m }
    else c
  c.modLens (fun x => if x.dirty.contains k then x else { x with dirty := k :: x.dirty })

/-- The 4 KiB units that n bytes at an offset of an array touch. -/
def fileUnits (off n : Nat) : List Nat := (List.range ((off + n - 1) / 4096 + 1 - off / 4096)).map (fun i => off / 4096 + i)

def Chan.touchUnits (c : Chan) (kind seg off n : Nat) : Chan :=
  (fileUnits off n).foldl (fun c u => c.touchUnit (unitKey kind (seg + u * 4096))) c

/-- A vector record is written (R351). -/
def Chan.putVector (c : Chan) (h : LensHdr) (i : Nat) (v : List F32) : Chan :=
  (c.touchUnits 10 (i / 65536) (i % 65536 * vbytes h) (vbytes h)).modLens (fun x => { x with vectors := tset i v x.vectors })

/-- A whole node record is written (R352). -/
def Chan.putNode (c : Chan) (h : LensHdr) (i : Nat) (n : LensNode) : Chan :=
  (c.touchUnits 11 (i / 65536) (i % 65536 * nbytes h) (nbytes h)).modLens (fun x => { x with nodes := tset i n x.nodes })

/-- An id changes its state, with the counts of the header (R349, R353). -/
def Chan.putState (c : Chan) (i v : Nat) : Chan :=
  let o := c.lens.stateOf i
  let c := (c.touchUnits 12 0 (i / 4) 1).touchUnit (unitKey 9 0)
  c.modLens (fun x => { x.setState i v with
    live := x.live + (if v = 1 then 1 else 0) - (if o = 1 then 1 else 0)
    tombs := x.tombs + (if v = 2 then 1 else 0) - (if o = 2 then 1 else 0) })

/-- An entry point slot is written or cleared. -/
def Chan.putEntry (c : Chan) (k : Nat) (i : Option Nat) : Chan :=
  (c.touchUnit (unitKey 9 0)).modLens (fun x => { x with entry := match i with | some v => tset k v x.entry | none => tdel k x.entry })

/-! ### Segments (R351) -/

/-- An array of n bytes in a tier, as contiguous runs of 32 granules. -/
def Chan.takeArray (c : Chan) (tier n : Nat) : Option Loc × Chan :=
  let r := (c.tier tier).takeSpan (ceilDiv n 524288)
  (r.1.map (fun g => ⟨tier, g⟩), c.setTier tier r.2)

/-- The tier of an array follows place: T1 when a contiguous range is free there, else T2; or T2 only. -/
def Chan.placeArray (c : Chan) (place n : Nat) : Option Loc × Chan :=
  if place = 0 ∨ place = 2 then
    match c.takeArray 1 n with
    | (some l, c) => (some l, c)
    | (none, c) => c.takeArray 2 n
  else c.takeArray 2 n

/-- An array's runs are freed. -/
def Chan.freeArray (c : Chan) (l : Loc) (n : Nat) : Chan :=
  (List.range (ceilDiv n 524288)).foldl (fun c i => c.freeLoc ⟨l.tier, l.granule + 32 * i⟩) c

/-- The segment of an id is there, or is allocated at its first insert; none when it cannot be. -/
def Chan.needSegment (c : Chan) (h : LensHdr) (i : Nat) : Bool × Chan :=
  let sg := i / 65536
  if (tget sg c.lens.segments).isSome then (true, c)
  else
    match c.placeArray h.place (65536 * vbytes h) with
    | (none, f) => (false, c.withFails f)
    | (some a, c1) =>
      match c1.placeArray h.place (65536 * nbytes h) with
      | (none, f) => (false, c.withFails f)
      | (some b, c2) => (true, ((c2.touchUnit (unitKey 13 sg)).touchUnit (unitKey 9 0)).modLens (fun x =>
          { x with segments := tset sg (a, b) x.segments }))

/-! ### Create and destroy (R346) -/

/-- OP_LENS_CREATE (R346). -/
def execOpLensCreate (d : Hdr) (hdr : LensHdr) : State → Host.Outcome State Fault Refusal :=
  accept 0x58 d (fun _ ch s =>
    if (s.chan ch).lens.hdr.isSome then complete d 0x58 .indexState [] [] s
    else if !hdrOk hdr then complete d 0x58 .paramInvalid [] [] s
    else complete d 0x58 .ok [] [] (s.modChan ch (fun c => (c.modLens (fun _ => { hdr := some hdr })).touchUnit (unitKey 9 0))))

/-- The index is gone and its segments are free. -/
def dropIndex (c : Chan) : Chan :=
  match c.lens.hdr with
  | none => c
  | some h =>
    let segs := c.lens.segments
    let c := segs.foldl (fun (c : Chan) (e : Nat × Loc × Loc) =>
      ((c.freeArray e.2.1 (65536 * vbytes h)).freeArray e.2.2 (65536 * nbytes h)).touchUnit (unitKey 13 (e.1 + 4096))) c
    (c.touchUnit (unitKey 9 0)).modLens (fun x => { dirty := x.dirty, copied := x.copied })

/-- The arrays of stored segments are taken in their tiers (R366). -/
def takeSegments (h : LensHdr) : List (Nat × Nat × Nat) → Tbl (Loc × Loc) → Chan → Option (Tbl (Loc × Loc) × Chan)
  | [], t, c => some (t, c)
  | (sg, va, na) :: r, t, c =>
    match c.takeArray va (65536 * vbytes h) with
    | (none, _) => none
    | (some a, c) =>
      match c.takeArray na (65536 * nbytes h) with
      | (none, _) => none
      | (some b, c) => takeSegments h r (tset sg (a, b) t) c

/-- Every unit of the index, as a full generation sends it (R306, R366). -/
def allUnits (c : Chan) : List Nat :=
  match c.lens.hdr with
  | none => [unitKey 9 0]
  | some h =>
    unitKey 9 0 :: c.lens.segments.map (fun e => unitKey 13 e.1) ++
    c.lens.segments.flatMap (fun e =>
      (List.range (16 * vbytes h)).map (fun u => unitKey 10 (e.1 + u * 4096)) ++
      (List.range (16 * nbytes h)).map (fun u => unitKey 11 (e.1 + u * 4096))) ++
    (List.range (h.capacity / 16384)).map (fun u => unitKey 12 (u * 4096))

/-- An index as the buddy store's records give it, on a channel that holds none; its units are written (R366); none where there is no room. -/
def rebuildIndex (x : StoredLens) (c : Chan) : Option Chan :=
  match takeSegments x.hdr x.segments [] c with
  | none => none
  | some (t, c) =>
    let dirty := c.lens.dirty
    let c := c.modLens (fun y => { (default : Lens) with
      hdr := some x.hdr, live := x.states.countP (fun e => e.2 == 1), tombs := x.states.countP (fun e => e.2 == 2), epoch := x.epoch
      entry := x.entry, segments := t, vectors := x.vectors, nodes := x.nodes, states := x.states, nextId := y.nextId })
    some (c.modLens (fun y => { y with dirty := allUnits c ++ dirty }))

/-- A Lens descriptor of a channel is outstanding. -/
def lensBusy (ch : Nat) (s : State) : Bool :=
  s.ops.any (fun o => match o.kind with | .lensQuery c => c == ch | .lensWrite c => c == ch | _ => false)

/-- LENS_DESTROY: OP_LENS_CREATE with destroy = 1 (R346). -/
def execLensDestroy (d : Hdr) : State → Host.Outcome State Fault Refusal :=
  accept 0x58 d (fun _ ch s =>
    if (s.chan ch).lens.hdr.isNone then complete d 0x58 .indexState [] [] s
    else if lensBusy ch s then complete d 0x58 .indexBusy [] [] s
    else complete d 0x58 .ok [] [] (s.modChan ch dropIndex))

/-! ### Search (R356) -/

/-- visit of R356: the query with v considered; `truncated` ends it. -/
def visit (x : Lens) (h : LensHdr) (q : LensQuery) (v : Nat) : LensQuery :=
  if q.truncated then q
  else if 24320 ≤ q.visited.length then { q with truncated := true }
  else
    let dv := lensDist h q.vec q.qaux (x.vector v) (x.node v).aux
    let q := { q with visited := v :: q.visited, sticky := q.sticky + lensSticky h.elem q.vec (x.vector v) }
    let better : Bool := match q.res.getLast? with | some w => f32lt dv w.1 | none => true
    if decide (q.res.length < q.beam) || better then
      { q with res := insertNear (dv, v) (if q.beam ≤ q.res.length then q.res.dropLast else q.res)
               cand := insertNear (dv, v) (if q.beam ≤ q.cand.length then q.cand.dropLast else q.cand) }
    else q

/-- The next node a query expands; none when its search stops (R356). -/
def nextExpand (q : LensQuery) : Option (Nat × LensQuery) :=
  if q.truncated then none
  else
    match q.cand with
    | [] => none
    | (du, u) :: r =>
      let full := decide (q.beam ≤ q.res.length)
      let far := match q.res.getLast? with | some w => f32lt w.1 du | none => false
      if full && far then none else some (u, { q with cand := r, expanding := some u, expansions := q.expansions + 1 })

/-- A post of a node: it joins the node's entry or makes a new one (R357). -/
def postTable (u q : Nat) : List (Nat × List Nat) → List (Nat × List Nat)
  | [] => [(u, [q])]
  | e :: r => if e.1 = u then (u, e.2 ++ [q]) :: r else e :: postTable u q r

/-- The neighbours an expansion visits: those that are neither ABSENT nor INSERTING, and not visited yet. -/
def expandQuery (x : Lens) (h : LensHdr) (u : Nat) (q : LensQuery) : LensQuery :=
  ((x.node u).nbrs.map (·.1)).foldl (fun q v =>
    if q.visited.contains v || x.stateOf v == 0 || x.stateOf v == 3 then q else visit x h q v) { q with expanding := none }

/-- A result entry (R359). -/
def topkWords (fid ch : Nat) (first trunc : Bool) (r : F32 × Nat) : List Nat :=
  [r.1.toNat + (r.2 + (if first && trunc then 2 ^ 29 else 0) + 2 ^ 31) * 2 ^ 32, fid + 64 * ch]

/-- The k result entries of an ended query (R358). -/
def queryResults (fid ch : Nat) (x : Lens) (q : LensQuery) : List Nat :=
  let rs := (q.res.filter (fun r => x.stateOf r.2 == 1)).take q.k
  let ws := (List.range rs.length).flatMap (fun j => match rs[j]? with | some r => topkWords fid ch (j == 0) q.truncated r | none => [])
  let pad := List.replicate (2 * (q.k - rs.length)) 0
  if rs.isEmpty ∧ q.truncated then (2 ^ 29 * 2 ^ 32) :: pad.drop 1 else ws ++ pad

/-- An ended query of a descriptor: its results are kept, and with the last one the descriptor completes (R354). -/
def batchEnd (ch : Nat) (q : LensQuery) (s : State) : State :=
  let ws := queryResults s.fid ch (s.chan ch).lens q
  match (s.chan ch).lens.batches.find? (fun b => b.ring == q.ring && b.tag == q.tag) with
  | none => s
  | some b =>
    let b' := { b with left := b.left - 1, results := tset q.num ws b.results, truncated := b.truncated + (if q.truncated then 1 else 0)
                       expansions := b.expansions + q.expansions }
    if b'.left = 0 then
      let s := s.modChan ch (fun c => c.modLens (fun x => { x with batches := x.batches.erase b }))
      match opOf q.ring q.tag s with
      | some op => endOp op .ok [b'.truncated, b'.expansions] [(b'.outAddr, .words (b'.results.flatMap (·.2)))] s
      | none => s
    else s.modChan ch (fun c => c.modLens (fun x => { x with batches := x.batches.map (fun y => if y = b then b' else y) }))

/-! ### Write descriptors (R361 to R365) -/

def Lens.modWrite (x : Lens) (id : Nat) (f : LensWrite → LensWrite) : Lens :=
  { x with writes := x.writes.map (fun w => if w.id = id then f w else w) }

/-- A write descriptor completes: epoch rises (R361). -/
def writeEnd (ch : Nat) (w : LensWrite) (st : Status) (res : List Nat) (s : State) : State :=
  let s := s.modChan ch (fun c => (c.touchUnit (unitKey 9 0)).modLens (fun x =>
    { x with writes := x.writes.filter (fun y => y.id != w.id), epoch := wrap64 (x.epoch + 1) }))
  match opOf w.ring w.tag s with
  | some op => endOp op st res [] s
  | none => s

/-- prune of R363: `near i j` is the distance of j from i. -/
def pruneKeep (near : Nat → Nat → F32) (r : Nat) : List (F32 × Nat) → List Nat → List Nat
  | [], kept => kept
  | (dc, c) :: rest, kept =>
    if r ≤ kept.length then kept
    else if kept.any (fun s => f32lt (near s c) dc) then pruneKeep near r rest kept
    else pruneKeep near r rest (kept ++ [c])

/-- The distance between stored vectors, the first taken as the query (R363). -/
def storedDist (x : Lens) (h : LensHdr) (i j : Nat) : F32 :=
  lensDist h (x.vector i) (lensAux h (x.vector i)) (x.vector j) (x.node j).aux

def prune (x : Lens) (h : LensHdr) (p : Nat) (cands : List Nat) (r : Nat) : List Nat :=
  pruneKeep (storedDist x h) r ((cands.dedup.map (fun c => (storedDist x h p c, c))).foldl (fun l c => insertNear c l) []) []

/-- A node record with a list of neighbours, each with its aux (R352). -/
def nodeWith (x : Lens) (aux : F32) (ns : List Nat) : LensNode := ⟨aux, ns.map (fun n => (n, (x.node n).aux))⟩

/-- The lowest empty entry-point slot. -/
def freeEntrySlot (x : Lens) (h : LensHdr) : Option Nat := firstFree (x.entry.map (·.1)) 0 h.entries

/-- The insertion of R363 after its search: node record, LIVE, entry point, reverse edges. -/
def linkNode (h : LensHdr) (i : Nat) (found : List (F32 × Nat)) (c : Chan) : Chan :=
  let x := c.lens
  let ns := prune x h i ((found.map (·.2)).filter (fun v => x.stateOf v == 1)) h.degree
  let c := (c.putNode h i (nodeWith x (x.node i).aux ns)).putState i 1
  let c := match freeEntrySlot c.lens h with | some k => c.putEntry k (some i) | none => c
  ns.foldl (fun c n =>
    let nd := c.lens.node n
    let l := nd.nbrs.map (·.1)
    let l' := if l.length < h.degree then l ++ [i] else prune c.lens h n (l ++ [i]) h.degree
    c.putNode h n (nodeWith c.lens nd.aux l')) c

/-- A kernel of a write descriptor joins the BULK queue, width 8 (R361). -/
def pushWrite (ch : Nat) (w : LensWrite) (s : State) : State :=
  s.modChan ch (fun c => c.pushUnit 8 w.deadline s.now (bulkMinTiles ch s) (.lensWrite w.id))

/-- The search of a write descriptor has ended: its links are work for the tiles. -/
def insertFound (ch id : Nat) (q : LensQuery) (s : State) : State :=
  match (s.chan ch).lens.writes.find? (fun w => w.id == id) with
  | none => s
  | some w => pushWrite ch w (s.modChan ch (fun c => c.modLens (fun x => x.modWrite id (fun w => { w with stage := 2, found := q.res }))))

/-- A query goes on: it posts its next expansion, or ends (R356, R357); the blocks that set sticky since are counted (R119). -/
def advance (ch : Nat) (q : LensQuery) (s : State) : State :=
  let s := s.modChan ch (fun c => { c with arithSticky := wrap64 (c.arithSticky + q.sticky) })
  let q := { q with sticky := 0 }
  match nextExpand q with
  | some (u, q) =>
    s.modChan ch (fun c => c.modLens (fun x =>
      { x with queries := x.queries.map (fun y => if y.id = q.id then q else y), table := postTable u q.id x.table }))
  | none =>
    let s := s.modChan ch (fun c => c.modLens (fun x => { x with queries := x.queries.filter (fun y => y.id != q.id) }))
    match q.insertOf with
    | some id => insertFound ch id q s
    | none => batchEnd ch q s

/-- A query begins in its slot: it visits the valid entry points (R356). -/
def beginQuery (ch : Nat) (h : LensHdr) (q : LensQuery) (s : State) : State :=
  let x := (s.chan ch).lens
  let q := { q with id := x.nextId, sticky := auxSticky h q.vec }
  let q := (x.entry.map (·.2)).foldl (fun q e => if q.visited.contains e then q else visit x h q e) q
  advance ch q (s.modChan ch (fun c => c.modLens (fun x => { x with queries := x.queries ++ [q], nextId := x.nextId + 1 })))

/-- Query slots in use (R354, R361). -/
def slotsFree (c : Chan) : Nat := 4096 - c.lens.queries.length

/-- A write descriptor takes up its next vector, when it may: its failures end it (R362), else its search begins. -/
def startWrite (ch id : Nat) (s : State) : State :=
  let c := s.chan ch
  match c.lens.hdr, c.lens.writes.find? (fun w => w.id == id) with
  | some h, some w =>
    if w.stage ≠ 0 ∨ w.consolidate ∨ slotsFree c = 0 then s
    else
      match w.todo with
      | [] => writeEnd ch w .ok [w.inserted] s
      | (i, v) :: _ =>
        if h.capacity ≤ i ∨ badVector v then writeEnd ch w .paramInvalid [w.inserted] s
        else if c.lens.stateOf i ≠ 0 then writeEnd ch w .idExists [w.inserted] s
        else
          match c.needSegment h i with
          | (false, c) => writeEnd ch w .noSpace [w.inserted] (s.setChan ch c)
          | (true, c) =>
            let x := v.map (storeElem h.elem)
            let aux := lensAux h x
            let c := ((c.putState i 3).putVector h i x).putNode h i ⟨aux, []⟩
            let c := c.modLens (fun y => y.modWrite id (fun w => { w with stage := 1 }))
            beginQuery ch h { (default : LensQuery) with vec := x, qaux := aux, k := h.buildBeam, beam := h.buildBeam, deadline := w.deadline
                                                         insertOf := some id } (s.setChan ch c)
  | _, _ => s

/-- The first 64 write descriptors take up their work (R361). -/
def pumpWrites (ch : Nat) : Nat → State → State
  | 0, s => s
  | n + 1, s =>
    match ((s.chan ch).lens.writes.take 64).find? (fun w => w.stage == 0 && !w.consolidate) with
    | some w => if slotsFree (s.chan ch) = 0 then s else pumpWrites ch n (startWrite ch w.id s)
    | none => s

/-! ### Descriptors that wait (R354, R366, R379) -/

/-- The header of a Lens command. -/
def lensCmdHdr : Instr → Option Hdr
  | .opLensQuery d _ _ _ _ _ _ => some d
  | .opLensInsert d _ _ _ _ _ => some d
  | .opLensDelete d _ _ _ => some d
  | .opLensConsolidate d => some d
  | _ => none

/-- The waiting descriptors without those of a ring and tag. -/
def dropHeld (ring tag : Nat) (hs : List LensHeld) : List LensHeld :=
  hs.filter (fun e => match lensCmdHdr e.cmd with | some d => d.ring != ring || d.tag != tag | none => false)

/-- A waiting descriptor is a query. -/
def LensHeld.isQuery (e : LensHeld) : Bool := match e.cmd with | .opLensQuery _ _ _ _ _ _ _ => true | _ => false

/-- A generation of the channel has been started and waits for the write descriptors in progress: new ones wait (R366). -/
def declaring (c : Chan) : Bool := c.mirror.gen != 0 && !c.mirror.capturing && !c.mirror.ended

/-- What a waiting descriptor waits for is there: its query slots (R354), or the generation is declared (R366). -/
def LensHeld.mayGo (c : Chan) (e : LensHeld) : Bool :=
  match e.cmd with
  | .opLensQuery _ count _ _ _ _ _ => decide (count ≤ slotsFree c)
  | _ => !declaring c

/-- The waiting descriptor that goes on next: queries take slots in acceptance order, and so do write descriptors. -/
def lensNext (c : Chan) : Option LensHeld :=
  ((c.lens.waiting.find? LensHeld.isQuery).filter (LensHeld.mayGo c)).or
    ((c.lens.waiting.find? (fun e => !e.isQuery)).filter (LensHeld.mayGo c))

/-- The queries of a descriptor begin one after another. -/
def beginAll (ch : Nat) (h : LensHdr) (q : LensQuery) : Nat → List (List F32) → State → State
  | _, [], s => s
  | n, v :: r, s => beginAll ch h q (n + 1) r (beginQuery ch h { q with num := n, vec := v, qaux := lensAux h v } s)

/-- A query descriptor has its slots: its vectors are read, and one that is not finite rejects it whole (R348, R354). -/
def queryStart (ch : Nat) (op : RunOp) (d : Hdr) (dl : Option Nat) (count k beam outAddr : Nat) (vecs : List (List F32)) (s : State) : State :=
  match (s.chan ch).lens.hdr with
  | none => s
  | some h =>
    if vecs.any badVector then endOp op .paramInvalid [0, 0] [] s
    else
      let s := s.modChan ch (fun c => c.modLens (fun x => { x with batches := x.batches ++
        [{ ring := d.ring, tag := d.tag, k := k, left := count, outAddr := outAddr }] }))
      beginAll ch h { (default : LensQuery) with ring := d.ring, tag := d.tag, k := k, beam := beam, deadline := dl } 0 (vecs.take count) s

/-- An id becomes TOMBSTONE; an entry point that names it takes its first LIVE neighbour (R364). -/
def deleteId (i : Nat) (c : Chan) : Chan :=
  let c := c.putState i 2
  match c.lens.entry.find? (fun e => e.2 == i) with
  | some e => c.putEntry e.1 (((c.lens.node i).nbrs.map (·.1)).find? (fun v => c.lens.stateOf v == 1))
  | none => c

/-- The ids of a delete: each LIVE one becomes TOMBSTONE at once; how many did (R364). -/
def deleteIds (ids : List Nat) (c : Chan) : Chan × Nat :=
  ids.foldl (fun (a : Chan × Nat) i => if a.1.lens.stateOf i = 1 then (deleteId i a.1, a.2 + 1) else a) (c, 0)

/-- A delete runs and completes (R361, R364). -/
def deleteStart (ch : Nat) (op : RunOp) (count : Nat) (ids : List Nat) (s : State) : State :=
  let r := deleteIds (ids.take count) (s.chan ch)
  let c := (r.1.touchUnit (unitKey 9 0)).modLens (fun x => { x with epoch := wrap64 (x.epoch + 1) })
  endOp op .ok [r.2, min count ids.length - r.2] [] (s.setChan ch c)

/-- A write descriptor joins those in progress. -/
def writeStart (ch : Nat) (w : LensWrite) (s : State) : State :=
  let w := { w with id := (s.chan ch).lens.nextId }
  let s := s.modChan ch (fun c => c.modLens (fun x => { x with writes := x.writes ++ [w], nextId := x.nextId + 1 }))
  if w.consolidate then pushWrite ch w s else s

/-- A waiting descriptor goes on. -/
def lensStart (ch : Nat) (e : LensHeld) (s : State) : State :=
  match lensCmdHdr e.cmd with
  | none => s
  | some d =>
    match opOf d.ring d.tag s, e.cmd with
    | some op, .opLensQuery _ count k beam _ outAddr vecs => queryStart ch op d e.deadline count k beam outAddr vecs s
    | some _, .opLensInsert _ count _ _ ids vecs =>
      writeStart ch { (default : LensWrite) with ring := d.ring, tag := d.tag, deadline := e.deadline, todo := (List.zip ids vecs).take count } s
    | some op, .opLensDelete _ count _ ids => deleteStart ch op count ids s
    | some _, .opLensConsolidate _ =>
      writeStart ch { (default : LensWrite) with ring := d.ring, tag := d.tag, deadline := e.deadline, stage := 2, consolidate := true
                                                 tset := ((s.chan ch).lens.states.filter (fun e => e.2 == 2)).map (·.1) } s
    | _, _ => s

/-- Waiting descriptors go on while one may. -/
def lensResume (ch : Nat) : Nat → State → State
  | 0, s => s
  | n + 1, s =>
    match lensNext (s.chan ch) with
    | none => s
    | some e => lensResume ch n (lensStart ch e (s.modChan ch (fun c => c.modLens (fun x => { x with waiting := x.waiting.erase e }))))

/-- Descriptors go on after a slot, a place among the 64 or a declaration has come. -/
def lensPump (ch : Nat) (s : State) : State :=
  let s := lensResume ch (s.chan ch).lens.waiting.length s
  pumpWrites ch ((s.chan ch).lens.writes.length + 1) s

/-- A Lens descriptor is accepted: it waits its turn, and goes on at once where nothing keeps it. -/
def lensTake (opcode : Nat) (d : Hdr) (fn ch : Nat) (ranges : List (Nat × Nat)) (k : RunKind) (cmd : Instr) (s : State) : State :=
  lensPump ch ((addOp opcode d fn ch ranges false k s).modChan ch (fun c =>
    c.modLens (fun x => { x with waiting := x.waiting ++ [⟨cmd, deadlineOf d s⟩] })))

/-! ### OP_LENS_QUERY (R354) -/

def queryCheck (fn ch count k beam vecAddr outAddr : Nat) (s : State) : Option Status :=
  match (s.chan ch).lens.hdr with
  | none => if count = 0 then some .lenZero else if 256 < count ∨ k = 0 ∨ 1024 < k ∨ beam < k ∨ 1024 < beam then some .paramInvalid
      else some .indexState
  | some h =>
    let e := if h.elem = 9 then 4 else if h.elem = 4 then 1 else 2
    if count = 0 then some .lenZero
    else if 256 < count ∨ k = 0 ∨ 1024 < k ∨ beam < k ∨ 1024 < beam then some .paramInvalid
    else rangesCheck fn [(vecAddr, count * h.dim * e), (outAddr, count * k * 16)] s

/-- OP_LENS_QUERY (R354): it waits at the head of its ring until enough slots are free. -/
def execOpLensQuery (d : Hdr) (count k beam vecAddr outAddr : Nat) (vecs : List (List F32)) : State → Host.Outcome State Fault Refusal :=
  accept 0x59 d (fun fn ch s =>
    match queryCheck fn ch count k beam vecAddr outAddr s with
    | some st => complete d 0x59 st [0, 0] [] s
    | none => lensTake 0x59 d fn ch [(vecAddr, 0), (outAddr, 0)] (.lensQuery ch) (.opLensQuery d count k beam vecAddr outAddr vecs) s)

/-! ### EXPANSION_SERVE (R357) -/

/-- The earliest deadline among the queries that wait on an entry. -/
def entryDeadline (x : Lens) (e : Nat × List Nat) : Option Nat :=
  (x.queries.filter (fun q => e.2.contains q.id)).foldl (fun d q => if dlLt q.deadline d then q.deadline else d) none

/-- The entry served next: the earliest deadline, then creation order. -/
def serveNext (x : Lens) : Option (Nat × List Nat) :=
  x.table.foldl (fun (b : Option (Nat × List Nat)) e =>
    match b with
    | none => some e
    | some a => if dlLt (entryDeadline x e) (entryDeadline x a) then some e else b) none

/-- Serve one entry: each waiting query receives its distances and goes on. -/
def expansionServe (ch : Nat) (s : State) : State :=
  let x := (s.chan ch).lens
  match x.hdr, serveNext x with
  | some h, some e =>
    let s := s.modChan ch (fun c => c.modLens (fun y => { y with table := y.table.filter (fun f => f.1 != e.1) }))
    (e.2.foldl (fun s id =>
      match (s.chan ch).lens.queries.find? (fun q => q.id == id) with
      | some q => advance ch (expandQuery x h e.1 q) s
      | none => s) s)
  | _, _ => s

/-- EXPANSION_SERVE (R357). -/
def execExpansionServe (channel : Nat) : State → Host.Outcome State Fault Refusal :=
  whenUp (fun s => lensPump channel (expansionServe channel s))

/-! ### Insert, delete, consolidate -/

def insertCheck (fn ch count idAddr vecAddr : Nat) (s : State) : Option Status :=
  match (s.chan ch).lens.hdr with
  | none => if count = 0 then some .lenZero else some .indexState
  | some h =>
    let e := if h.elem = 9 then 4 else if h.elem = 4 then 1 else 2
    if count = 0 then some .lenZero
    else if 65536 < count then some .paramInvalid
    else rangesCheck fn [(idAddr, 4 * count), (vecAddr, count * h.dim * e)] s

/-- OP_LENS_INSERT (R362). -/
def execOpLensInsert (d : Hdr) (count idAddr vecAddr : Nat) (ids : List Nat) (vecs : List (List F32)) :
    State → Host.Outcome State Fault Refusal :=
  accept 0x5A d (fun fn ch s =>
    match insertCheck fn ch count idAddr vecAddr s with
    | some st => complete d 0x5A st [0] [] s
    | none =>
      if (s.chan ch).bulkFull then complete d 0x5A .bulkQueueFull [0] [] s
      else lensTake 0x5A d fn ch [(idAddr, 0), (vecAddr, 0)] (.lensWrite ch) (.opLensInsert d count idAddr vecAddr ids vecs) s)

/-- OP_LENS_DELETE (R364). -/
def execOpLensDelete (d : Hdr) (count idAddr : Nat) (ids : List Nat) : State → Host.Outcome State Fault Refusal :=
  accept 0x5B d (fun fn ch s =>
    let c := s.chan ch
    if count = 0 then complete d 0x5B .lenZero [] [] s
    else if c.lens.hdr.isNone then complete d 0x5B .indexState [] [] s
    else if 65536 < count then complete d 0x5B .paramInvalid [] [] s
    else
      match rangeCheck fn idAddr (4 * count) s with
      | some st => complete d 0x5B st [] [] s
      | none => lensTake 0x5B d fn ch [(idAddr, 0)] (.lensWrite ch) (.opLensDelete d count idAddr ids) s)

/-- OP_LENS_CONSOLIDATE (R365). -/
def execOpLensConsolidate (d : Hdr) : State → Host.Outcome State Fault Refusal :=
  accept 0x5C d (fun fn ch s =>
    let c := s.chan ch
    if c.lens.hdr.isNone then complete d 0x5C .indexState [] [] s
    else if c.lens.writes.any (fun w => w.consolidate) || c.lens.waiting.any (fun e => match e.cmd with | .opLensConsolidate _ => true | _ => false) then
      complete d 0x5C .indexBusy [] [] s
    else if c.bulkFull then complete d 0x5C .bulkQueueFull [] [] s
    else lensTake 0x5C d fn ch [] (.lensWrite ch) (.opLensConsolidate d) s)

/-- The lists of a consolidation (R365). -/
def consolidateLists (h : LensHdr) (t : List Nat) (c : Chan) : Chan :=
  ((c.lens.states.filter (fun e => e.2 == 1)).map (·.1)).foldl (fun c p =>
    let x := c.lens
    let l := (x.node p).nbrs.map (·.1)
    if l.any (fun v => t.contains v) then
      let more := (l.filter (fun v => t.contains v)).flatMap (fun v => (x.node v).nbrs.map (·.1))
      let cs := l.filter (fun v => !t.contains v) ++ more.filter (fun v => !t.contains v && v != p)
      c.putNode h p (nodeWith x (x.node p).aux (prune x h p cs h.degree))
    else c) c

/-- At most this many dot products form in a prune of n candidates: the values taken as the query's and the distances (R363). -/
def pruneDots (h : LensHdr) (n : Nat) : Nat := 2 * n * (h.degree + 1)

/-- A kernel of a write descriptor has ended on the tiles; poisoned inputs end the descriptor (R488). -/
def lensUnitDone (ch id : Nat) (poisoned : Bool) (s : State) : State :=
  let c := s.chan ch
  match c.lens.hdr, c.lens.writes.find? (fun w => w.id == id) with
  | some h, some w =>
    if poisoned then
      let s := match w.todo with
        | (i, _) :: _ => s.modChan ch (fun c => c.putState i 0)
        | [] => s
      lensPump ch (writeEnd ch w .poisoned (if w.consolidate then [] else [w.inserted]) s)
    else if w.consolidate then
      (addSticky ch (lensBlocks h * c.lens.states.length * pruneDots h (h.degree * (h.degree + 1))) s).modChan ch (fun c =>
        let c := consolidateLists h w.tset c
        c.modLens (fun x => x.modWrite id (fun w => { w with stage := 3, waitFor := some (x.queries.map (fun q => q.id)) })))
    else
      match w.todo with
      | [] => s
      | (i, _) :: r =>
        let s := addSticky ch (lensBlocks h * (pruneDots h w.found.length + h.degree * pruneDots h (h.degree + 1))) s
        let s := s.modChan ch (fun c => (linkNode h i w.found c).modLens (fun x => x.modWrite id (fun w =>
          { w with todo := r, inserted := w.inserted + 1, stage := 0, found := [] })))
        lensPump ch s
  | _, _ => s

/-- The lowest LIVE ids that are no entry point fill the empty slots (R365). -/
def fillEntries (h : LensHdr) : Nat → Chan → Chan
  | 0, c => c
  | n + 1, c =>
    match freeEntrySlot c.lens h, (c.lens.states.filter (fun e => e.2 == 1 && !(c.lens.entry.any (fun y => y.2 == e.1)))).head? with
    | some k, some e => fillEntries h n (c.putEntry k (some e.1))
    | _, _ => c

/-- CONSOLIDATE_FREE (R365): the queries accepted before the last list was written have ended. -/
def consolidateFree (ch : Nat) (s : State) : State :=
  let c := s.chan ch
  match c.lens.hdr, c.lens.writes.find? (fun w => w.consolidate && w.stage == 3) with
  | some h, some w =>
    if (w.waitFor.getD []).any (fun q => c.lens.queries.any (fun y => y.id == q)) then s
    else
      let s := s.modChan ch (fun c => fillEntries h 16 (w.tset.foldl (fun c t => (c.putNode h t ⟨0, []⟩).putState t 0) c))
      lensPump ch (writeEnd ch w .ok [w.tset.length] s)
  | _, _ => s

/-- CONSOLIDATE_FREE (R365). -/
def execConsolidateFree (channel : Nat) : State → Host.Outcome State Fault Refusal := whenUp (consolidateFree channel)

/-! ### OP_MERGE_TOPK (R360) -/

/-- The order of merged entries: distance, shard, id. -/
def topkBefore (a b : TopkEntry) : Bool :=
  f32lt a.d b.d || (!f32lt b.d a.d && (decide (a.shard < b.shard) || (a.shard == b.shard && decide (a.id < b.id))))

def insertTopk (x : TopkEntry) : List TopkEntry → List TopkEntry
  | [] => [x]
  | y :: r => if topkBefore x y then x :: y :: r else y :: insertTopk x r

/-- The first entry of each shard and id. -/
def firstTopk : List TopkEntry → List (Nat × Nat) → List TopkEntry
  | [], _ => []
  | x :: r, seen => if seen.contains (x.shard, x.id) then firstTopk r seen else x :: firstTopk r ((x.shard, x.id) :: seen)

/-- The merged output. -/
def mergeTopk (lists kIn kOut : Nat) (data : List (List TopkEntry)) : List Nat :=
  let all := (data.take lists).flatMap (fun l => l.take kIn)
  let trunc := all.any (fun e => e.truncated)
  let out := (firstTopk ((all.filter (fun e => e.valid)).foldl (fun l e => insertTopk e l) []) []).take kOut
  let flag (j : Nat) : Nat := if j = 0 ∧ trunc then 2 ^ 29 else 0
  (List.range kOut).flatMap (fun j => match out[j]? with
    | some e => [e.d.toNat + (e.id + flag j + 2 ^ 31) * 2 ^ 32, e.shard]
    | none => [flag j * 2 ^ 32, 0])

/-- OP_MERGE_TOPK (R360): its results are written when it ends (R387). -/
def execOpMergeTopk (d : Hdr) (lists kIn kOut inAddr outAddr : Nat) (data : List (List TopkEntry)) :
    State → Host.Outcome State Fault Refusal :=
  accept 0x5D d (fun fn ch s =>
    if lists = 0 ∨ kIn = 0 then complete d 0x5D .lenZero [] [] s
    else if lists < 2 ∨ 64 < lists ∨ 1024 < kIn ∨ kOut = 0 ∨ 1024 < kOut then complete d 0x5D .paramInvalid [] [] s
    else
      match rangesCheck fn [(inAddr, lists * kIn * 16), (outAddr, kOut * 16)] s with
      | some st => complete d 0x5D st [] [] s
      | none => addOp 0x5D d fn ch [(inAddr, lists * kIn * 16), (outAddr, kOut * 16)] true
          (.ready .ok [] [(outAddr, .words (mergeTopk lists kIn kOut data))]) s)

end Sys2Proof.Machine
end

