-- ==== Sys2Proof/Machine/Mirror.lean ====
section
/-! DEFINITION. Mirror (R290 to R316): generations, captures, acknowledgements and manifests, failure warnings, restore and
rollback. -/

namespace Sys2Proof.Machine

open Sys2Proof

/-! ### Generations (R295, R305, R306) -/

/-- The sessions of a channel that are not CLOSED, in index order. -/
def Chan.liveSessions (c : Chan) : List Nat := (c.dirs.filter (fun e => e.2.state != .closed)).map (·.1)

/-- A full generation sends every session from position 0, with no CLONE (R306). -/
def Chan.markFull (c : Chan) : Chan :=
  if c.mirror.full then
    c.liveSessions.foldl (fun c i => c.setCapture i { c.capture i with changed := true, sentLen := 0, forkedFrom := none }) c
  else c

/-- A participant takes part in generation g (R295 item 1): its epoch is its most recently fixed step. -/
def Chan.startGen (g : Nat) (c : Chan) : Chan :=
  let c := c.markFull
  let m := c.mirror
  { c with mirror := { m with gen := g, epoch := c.nextStep - 1, todo := [], capturing := false, recIndex := m.nextIndex
                              shardLen := m.nextLen, nextIndex := 0, nextLen := 0, ended := false, endHeld := 0, manifestAcked := false } }

/-- The participants of generation g. -/
def partsOf (g : Nat) (s : State) : List Nat := (List.range 8).filter (fun n => (s.chan n).mirror.gen == g)

/-- A participant whose generation is complete (R305, R306). -/
def Chan.completeGen (c : Chan) : Chan :=
  let m := c.mirror
  { c with mirror := { m with captures := m.captures.map (fun (e : Nat × Capture) =>
                                if e.2.lastGen = m.gen then (e.1, { e.2 with doneLen := e.2.capLen }) else e)
                              prevGen := m.doneGen, doneGen := m.gen, doneEpoch := m.epoch
                              gen := 0, todo := [], capturing := false, ended := false, full := m.oldBuddy.isSome, oldBuddy := none, manifestAcked := false } }

/-- Generation g is complete (R305): its snapshots complete with ST_OK. -/
def completeGen (g : Nat) (s : State) : State :=
  let s := (partsOf g s).foldl (fun s n => s.modChan n Chan.completeGen) s
  let s := { s with mirrorDev := { s.mirrorDev with openGen := none, manifestOut := false, priority := false } }
  (s.ops.filter (fun o => o.kind == .snapshot g)).foldl (fun s o => endOp o .ok [g] [] s) s

/-- The name of the CHECKPOINT key of a channel of a device under a key generation (R302, R452). -/
def ckptKey (fid ch gen : Nat) : Nat := 2 + 8 * (fid + 64 * ch + 512 * gen)

/-- Slot 1 is loaded from the current generation of the group key (R280, R453, R454). -/
def reloadSlot1 (n : Nat) (s : State) : State :=
  match s.encl.groupCur with
  | some g => s.modChan n (fun c => { c with keys := tset 1 ⟨true, ckptKey s.fid n g.1, g.1, 0⟩ c.keys })
  | none => s

/-- Slot 1 is reloaded where it does not hold the current generation; the channel's next generation is then full (R306, R467). -/
def renewSlot1 (n : Nat) (s : State) : State :=
  let k := (tget 1 (s.chan n).keys).getD {}
  if k.loaded && s.encl.groupCur.map (·.1) == some k.keyGen then s
  else (reloadSlot1 n s).modChan n (fun c => { c with mirror := { c.mirror with full := true } })

/-- A generation starts (R295). With no participant it is complete at once (log entry 22). -/
def startGen (priority : Bool) (s : State) : State :=
  let g := s.mirrorDev.nextGen
  let ns := parties s
  let s := { s with mirrorDev := { s.mirrorDev with openGen := some g, nextGen := g + 1, again := false, priority := priority
                                                    manifestOut := false } }
  if ns.isEmpty then completeGen g s else ns.foldl (fun s n => (renewSlot1 n s).modChan n (Chan.startGen g)) s

/-- A trigger of R295: a generation starts, or the next one starts when the open one ends. -/
def trigger (priority : Bool) (s : State) : State :=
  match s.mirrorDev.openGen with
  | none => startGen priority s
  | some _ => { s with mirrorDev := { s.mirrorDev with again := true, priority := s.mirrorDev.priority || priority } }

/-- The generation that a trigger asked for while another was open starts once that one has ended (R295). -/
def mirrorNext (s : State) : State :=
  if s.mirrorDev.openGen.isNone && s.mirrorDev.again then startGen s.mirrorDev.priority s else s

/-- OP_MIRROR_SNAPSHOT (R391): it completes with the generation it starts or waits for. -/
def execOpMirrorSnapshot (d : Hdr) : State → Host.Outcome State Fault Refusal :=
  accept 0x48 d (fun fn t s => trigger false (addOp 0x48 d fn t [] true (.snapshot s.mirrorDev.nextGen) s))

/-- MIRROR_INTERVAL (R295). -/
def execMirrorInterval : State → Host.Outcome State Fault Refusal :=
  whenUp (fun s => if (parties s).isEmpty then s else trigger false s)

/-! ### Capture (R295, R296) -/

/-- The sessions a capture takes, in index order (R295 item 3). -/
def Chan.captureList (c : Chan) : List Nat :=
  ((c.mirror.captures.map (·.1)) ++ c.liveSessions).foldl (fun (t : Tbl Unit) i => if c.toCapture i then tset i () t else t) []
    |>.map (·.1)

/-- The copier may start: the step of the epoch has ended (R182, R295 item 2). -/
def Chan.epochEnded (c : Chan) : Bool := c.steps.all (fun st => decide (c.mirror.epoch < st.num))

/-- A SEARCH channel declares the generation once no write descriptor is in progress: its epoch is that of the index, and it sends the
units changed, or every unit in a full generation (R306, R366). -/
def lensCapture (c : Chan) : Chan :=
  if c.mirror.gen ≠ 0 ∧ !c.mirror.capturing ∧ !c.mirror.ended ∧ c.lens.writes.isEmpty then
    let us := if c.mirror.full then allUnits c else c.lens.dirty.reverse
    { c.modLens (fun x => { x with dirty := [], copied := [] }) with
      mirror := { c.mirror with epoch := c.lens.epoch, capturing := true, todo := us } }
  else c

/-- The copies of the open generation have a deadline from here (R184, R185). -/
def captureStart (deadline : Nat) (c : Chan) : Chan :=
  let c := if c.mirror.capturing then c else { c with mirror := { c.mirror with deadline := deadline } }
  if c.role = .search then lensCapture c
  else if c.mirror.gen ≠ 0 ∧ !c.mirror.capturing ∧ !c.mirror.ended ∧ c.epochEnded then
    { c with mirror := { c.mirror with capturing := true, todo := c.captureList } }
  else c

/-- CAPTURE_START (R295). -/
def execCaptureStart (channel : Nat) : State → Host.Outcome State Fault Refusal :=
  whenUp (fun s => lensPump channel ((mirrorNext s).modChan channel (captureStart (deviceDl channel s))))

/-- What a capture is made from (R296): the copy-before-write image, or the live objects. -/
def Chan.captureImage (c : Chan) (i : Nat) : CbwImage :=
  let x := c.capture i
  match x.cbw with
  | some y => y
  | none => ⟨c.dir i, (c.sblk i).getD { img := default }, (c.queue i).words, x.isNew, x.forkedFrom, x.closedSince, x.drops⟩

/-- The records of a session's capture in the order of R296. -/
def captureRecords (c : Chan) (i : Nat) : List Record :=
  let x := c.capture i
  let y := c.captureImage i
  let e := y.dir
  let md := recMode e
  let lo := if y.closedSince then 0 else x.sentLen
  (if y.closedSince then [⟨.close, i, i, 0, 0, 0, md⟩] else []) ++
  if e.state = .closed then []
  else
    (match y.isNew, y.forkedFrom with
     | true, some p => [⟨.clone, i, p + i * 2 ^ 17, 0, 0, 0, md⟩]
     | _, _ => []) ++
    tailsOf (c.prof e.profile) e i lo e.kvLen ++
    y.drops.reverse.map (fun k => ⟨.free, i, i + k * 2 ^ 17, 0, 0, 0, md⟩) ++
    [⟨.dir, i, i, 0, 64, 2, md⟩, ⟨.sblk, i, i, 0, 32768, 2, md⟩] ++
    if y.queue.isEmpty then [] else [⟨.queue, i, i, 0, 4 * y.queue.length, 2, md⟩]

/-- The pages that a capture with kvLen positions holds whole are not dirty any more, and take the snapshot epoch (R77). -/
def Chan.snapPages (c : Chan) (i kvLen : Nat) : Chan :=
  let x := c.prof (c.dir i).profile
  (c.map i).foldl (fun c e =>
    let p := c.page e.2.desc
    if e.2.valid && p.dirty && decide (x.rowOf e.1 * x.p + p.fill ≤ kvLen) then
      c.modPage e.2.desc (fun p => { p with dirty := false, snapEpoch := c.mirror.epoch })
    else c) c

/-- The entry after its capture (R296). What was written since an image was taken is left for the next capture. -/
def Chan.captured (i : Nat) (c : Chan) : Chan :=
  let x := c.capture i
  let y := c.captureImage i
  let live := y.dir.state != .closed
  let len := if live then max x.sentLen y.dir.kvLen else 0
  let x := match x.cbw with
    | some _ => { x with lastGen := c.mirror.gen, cbw := none, capLen := len, sentLen := if x.closedSince then 0 else len }
    | none => { x with lastGen := c.mirror.gen, capLen := len, sentLen := len, changed := false, isNew := false, forkedFrom := none
                       closedSince := false, drops := [] }
  let c := if live then (c.setCapture i x).snapPages i len else c.setCapture i x
  { c with mirror := { c.mirror with held := if live then i :: c.mirror.held.erase i else c.mirror.held.erase i } }

/-- The record of a unit of an index (R366), sealed in MODE_C. -/
def unitRecord (h : Option LensHdr) (k : Nat) : Record :=
  let kind := k % 16
  let obj := k / 16
  let gxp := match h with | some h => h.elem == 0 || h.elem == 2 || h.elem == 3 | none => false
  if kind = 9 then ⟨.lhdr, 0, obj, 0, 69632, 2, 0⟩
  else if kind = 10 then ⟨.lvec, 0, obj, 0, 4096, if gxp then 1 else 2, 0⟩
  else if kind = 11 then ⟨.lnode, 0, obj, 0, 4096, 2, 0⟩
  else if kind = 12 then ⟨.lstate, 0, obj, 0, 4096, 2, 0⟩
  else ⟨.lseg, 0, obj, 0, 0, 0, 0⟩

/-- The copier sends one unit of an index (R366). -/
def copyUnit (n k : Nat) (s : State) : State :=
  let s := s.modChan n (fun c => { c.modLens (fun x => { x with copied := x.copied.erase k }) with
                                   mirror := { c.mirror with todo := c.mirror.todo.erase k } })
  sendRecord n true (unitRecord (s.chan n).lens.hdr k) s

/-- The copier captures one session (R296) or unit (R366), or, with none left, ends the shard (R303). What it compresses waits for work of an
earlier deadline and for the block queue (R185, R288). -/
def copierStep (n : Nat) (s : State) : State :=
  let s := s.modChan n Chan.admitJobs
  let c := s.chan n
  if c.mirror.gen = 0 ∨ !c.mirror.capturing ∨ c.mirror.ended then s
  else
    match c.mirror.todo with
    | [] =>
      let s := s.modChan n (fun c => { c with mirror := { c.mirror with ended := true, capturing := false, endHeld := c.mirror.held.length } })
      sendRecord n true ⟨.fin, 0, c.mirror.epoch, 0, 0, 0, 0⟩ s
    | i :: r =>
      if !c.mayStart c.mirror.deadline then s
      else if c.role = .search then copyUnit n i s
      else
      let s := s.modChan n (fun c => { c with mirror := { c.mirror with todo := r } })
      if (c.capture i).lastGen = c.mirror.gen then s
      else
        let s := (captureRecords c i).foldl (fun s x => sendRecord n true x s) s
        if (s.chan n).mirror.gen = c.mirror.gen then s.modChan n (Chan.captured i) else s

/-- COPIER_CAPTURE (R296). -/
def execCopierCapture (channel : Nat) : State → Host.Outcome State Fault Refusal :=
  whenUp (fun s => mirrorNext (copierStep channel s))

/-! ### Manifests (R304, R305) -/

/-- The head of a CBOR item in the shortest form (R304): major type and argument. -/
def cborHead (major n : Nat) : List Byte :=
  let be (k : Nat) : List Byte := (natLE k n).reverse
  if n < 24 then [BitVec.ofNat 8 (major * 32 + n)]
  else if n < 256 then BitVec.ofNat 8 (major * 32 + 24) :: be 1
  else if n < 65536 then BitVec.ofNat 8 (major * 32 + 25) :: be 2
  else if n < 4294967296 then BitVec.ofNat 8 (major * 32 + 26) :: be 4
  else BitVec.ofNat 8 (major * 32 + 27) :: be 8

def cborUint (n : Nat) : List Byte := cborHead 0 n
def cborBytes (b : List Byte) : List Byte := cborHead 2 b.length ++ b
def cborArray (l : List (List Byte)) : List Byte := cborHead 4 l.length ++ l.flatten

/-- A map with the keys 1 to n in order. -/
def cborMap (l : List (List Byte)) : List Byte :=
  cborHead 5 l.length ++ ((List.range l.length).zip l).flatMap (fun e => cborUint (e.1 + 1) ++ e.2)

/-- A shard entry as the device makes it (R304); the digest is over records whose bytes are not modelled. -/
def shardOf (n ix : Nat) (s : State) : List Byte :=
  let m := (s.chan n).mirror
  let b := buddyOf n s
  cborMap [cborUint n, cborUint m.epoch, cborUint m.gen, cborUint m.shardLen,
    cborBytes ((List.range 32).map (Config.freeByte ix)), cborUint m.recIndex, cborUint m.endHeld, cborUint (b.1 * 8 + b.2)]

/-- The checkpoint group (R291). -/
def mirrorGroup (s : State) : Nat := fieldOf (eff 0x0D8 s) 0 16

/-- The seed of the device's checkpoint key (R453). -/
def ckptSeed (s : State) : List Byte := Config.derive s.encl.fuses.uds 3 s.encl.fuses.serial 456

/-- The device's checkpoint public key (R304 key 7). -/
def ckptPub (s : State) : List Byte := Config.publicKey (ckptSeed s)

/-- The manifest map of generation g (R304). -/
def manifestBody (g : Nat) (s : State) : List Byte :=
  let ns := partsOf g s
  let keyGen := match ns with
    | n :: _ => ((tget 1 (s.chan n).keys).getD {}).keyGen
    | [] => 0
  cborMap [cborUint 1, cborUint s.fid, cborBytes s.encl.fuses.serial, cborUint (mirrorGroup s), cborUint g, cborUint keyGen,
    cborBytes (ckptPub s), cborArray (ns.map (fun n => shardOf n (s.freeIx + n) s))]

/-- The signed manifest goes to the buddies it names (R305). -/
def sendManifest (g n : Nat) (body sig : List Byte) (s : State) : State :=
  let b := buddyOf n s
  if (s.chan n).mirror.gen ≠ g then s
  else
    match sendReq n b.1 b.2 0 (.manifest n) .writeBulk (fieldOf (buddyWord n s) 9 6) (.bytes (cborArray [cborBytes body, cborBytes sig]))
        (s.emit (.manifest g s.fid n body sig)) with
    | .ok s => s
    | .error st => unprotected n st s

/-- A participant's shard is stored: its END record and every other one acknowledged (R303). -/
def Mirror.shardStored (m : Mirror) : Bool := m.ended && m.sent.all (fun r => r.gen != m.gen)

/-- Once every shard is stored the manifest is signed and sent (R304); once every buddy has it the generation is complete, and with an
interval of 0 the next one starts (R291, R305). -/
def checkGen (s : State) : State :=
  match s.mirrorDev.openGen with
  | none => s
  | some g =>
    let ns := partsOf g s
    if !s.mirrorDev.manifestOut then
      if ns.all (fun n => (s.chan n).mirror.shardStored) then
        let body := manifestBody g s
        let sig := Config.edSign (ckptSeed s) 2 body
        let s := { s with freeIx := s.freeIx + 8, mirrorDev := { s.mirrorDev with manifestOut := true } }
        ns.foldl (fun s n => sendManifest g n body sig s) s
      else s
    else if ns.all (fun n => (s.chan n).mirror.manifestAcked) then
      let s := completeGen g s
      if s.mirrorDev.again ∨ fieldOf (eff 0x0E0 s) 0 24 = 0 ∧ !(parties s).isEmpty then startGen s.mirrorDev.priority s else s
    else s

/-- The runs held for a session are freed once its capture's records are acknowledged (R298). -/
def Chan.releaseHeld (i : Nat) (c : Chan) : Chan :=
  let m := c.mirror
  if (c.capture i).lastGen = m.gen ∧ m.sent.all (fun r => !(r.gen == m.gen && r.session == i)) then
    let c := (m.heldRuns.filter (fun r => r.1 == i)).foldl (fun (c : Chan) r => c.freeLoc r.2) c
    { c with mirror := { c.mirror with heldRuns := m.heldRuns.filter (fun r => r.1 != i) } }
  else c

/-- The answer to a record (R303). -/
def recordAck (n g index : Nat) (st : Status) (s : State) : State :=
  let m := (s.chan n).mirror
  match m.sent.find? (fun r => r.gen == g && r.index == index) with
  | none => s
  | some r =>
    if st ≠ .ok then unprotected n st s
    else
      checkGen (s.modChan n (fun c => ({ c with mirror := { c.mirror with sent := c.mirror.sent.erase r } }).releaseHeld r.session))

/-- The answer to a manifest (R305). -/
def manifestAck (n : Nat) (st : Status) (s : State) : State :=
  if (s.chan n).mirror.gen = 0 then s
  else if st ≠ .ok then unprotected n st s
  else checkGen (s.modChan n (fun c => { c with mirror := { c.mirror with manifestAcked := true } }))

/-- A channel waits for an acknowledgement of its buddy (R303). -/
def Mirror.awaits (m : Mirror) (d : MirrorDev) : Bool := !m.sent.isEmpty || (m.gen != 0 && d.manifestOut && !m.manifestAcked)

/-- The buddy of some channels is down (R303). -/
def buddyLost (fid unit : Nat) (s : State) : State :=
  ((participants s).filter (fun n => buddyOf n s == (fid, unit) && !(s.chan n).mirror.noBuddy)).foldl
    (fun s n => unprotected n .peerUnreachable s) s

/-! ### Failure warnings (R307 to R309) -/

/-- A measured condition lies at or past its threshold (R307): 0 HBM errors, 1 FEC, 2 retrains, 3 thermal margin, 4 regulator. -/
def warnHit (condition value : Nat) (s : State) : Bool :=
  let w := eff 0x0E8 s
  if condition = 0 then decide (fieldOf w 0 16 ≤ value)
  else if condition = 1 then decide (fieldOf w 32 32 ≤ value)
  else if condition = 2 then decide (fieldOf w 16 8 ≤ value)
  else if condition = 3 then decide (value ≤ fieldOf w 24 5)
  else if condition = 4 then fieldOf w 29 1 == 1 && value != 0
  else false

/-- The warning of a condition is forgotten once it has stayed below its threshold for 1 s (R308). -/
def warnRest (condition source : Nat) (s : State) : State :=
  let m := s.mirrorDev
  let mine (e : Nat × Nat × Nat) : Bool := e.1 == condition && e.2.1 == source
  match m.belowSince.find? mine with
  | some e =>
    if e.2.2 + 1000000000 ≤ s.now then
      { s with mirrorDev := { m with warned := m.warned.erase (condition, source), belowSince := m.belowSince.filter (fun x => !mine x) } }
    else s
  | none => s

/-- A condition has been measured (R308, R309). -/
def warnMeasure (condition source value : Nat) (s : State) : State :=
  let s := warnRest condition source s
  let m := s.mirrorDev
  let below := m.belowSince.filter (fun e => !(e.1 == condition && e.2.1 == source))
  if warnHit condition value s then
    let s := { s with mirrorDev := { m with belowSince := below } }
    if m.warned.contains (condition, source) then s
    else
      let s := { s with mirrorDev := { s.mirrorDev with warned := (condition, source) :: m.warned } }
      let s := setAlert 1 s
      let s := raiseEvent 1 (.failureWarning condition source value) 8 (raiseEvent 0 (.failureWarning condition source value) 8 s)
      if fieldOf (eff 0x0E0 s) 32 1 = 1 ∧ !(parties s).isEmpty then trigger true s else s
  else if m.warned.contains (condition, source) ∧ below.length = m.belowSince.length then
    { s with mirrorDev := { m with belowSince := (condition, source, s.now) :: m.belowSince } }
  else s

/-- WARN_MEASURE (R308). -/
def execWarnMeasure (condition source value : Nat) : State → Host.Outcome State Fault Refusal :=
  whenUp (warnMeasure condition source value)

/-! ### Rebuilding a session (R313) -/

/-- A session's captured state is one it is parked in (R313). -/
def capturedParked (e : Dir) : Bool := e.state == .parked || e.state == .parking || e.state == .reviving

/-- The state a rebuilt session takes (R313). -/
def mappedState (e : Dir) : SessState :=
  if capturedParked e then .parked else if e.state = .runnable ∨ e.state = .running then .stopped else e.state

/-- One page of a rebuilt session, RAW, with share count 1 and score 0 (R313); `straight` for a session that goes to its park tier,
whose pages take no run here. The failing channel comes back where there is no room. -/
def rebuildPage (w : Wm) (straight : Bool) (i : Nat) (q : Nat × List (List Byte) × List (List Byte)) (c : Chan) : Except Chan Chan :=
  let e := c.dir i
  let x := c.prof e.profile
  let lf := if straight then (true, c) else c.needLeaf w (c.placement i) i q.1
  if !lf.1 then .error lf.2
  else
    match lf.2.freeDesc with
    | none => .error lf.2
    | some d =>
      let run := if straight then (some (⟨0, 0⟩ : Loc), lf.2) else lf.2.takePlaced w (lf.2.placement i) x.rawClass
      match run with
      | (none, f) => .error f
      | (some l, c) =>
        let p : Page := { newPage l x e e.lastStep with residency := .resident, fill := q.2.1.length, k := q.2.1, v := q.2.2, dirty := true }
        .ok (({ c.setPage d p with shares := tset d 1 c.shares }).setMap i (tset q.1 ⟨d, false, true⟩ (c.map i)))

def rebuildPages (w : Wm) (straight : Bool) (i : Nat) : List (Nat × List (List Byte) × List (List Byte)) → Chan → Except Chan Chan
  | [], c => .ok c
  | q :: r, c =>
    match rebuildPage w straight i q c with
    | .error f => .error f
    | .ok c => rebuildPages w straight i r c

/-- The input queue of a rebuilt session. -/
def rebuildQueue (w : Wm) (i : Nat) (ws : List Nat) (c : Chan) : Except Chan Chan :=
  match c.takeMany w (c.placement i) 0 (queueGranules ws.length) with
  | (none, f) => .error f
  | (some qs, c) => .ok (if ws.isEmpty then { c with queues := tdel i c.queues } else c.setQueue i (newQueue ws qs))

/-- The directory entry and block of a rebuilt session at entry i. -/
def rebuildDir (i : Nat) (x : StoredSession) (c : Chan) : Chan :=
  let e : Dir := { x.dir with epoch := c.epoch, count := (c.dir i).count, state := mappedState x.dir, parkPend := false, closePend := false
                              forkPend := false, resumePend := false, streaming := false, sblk := ⟨0, 0⟩, pmap := ⟨0, 0⟩, asqIndex := 0
                              asqValid := false }
  let b := if x.dir.state = .runnable ∨ x.dir.state = .running then { x.blk with stopReason := 9, stopIndex := 0 } else x.blk
  let c := (c.setDir i e).setSblk i b
  let c := c.setMap i (x.dropped.foldl (fun m k => tset k (⟨0, true, false⟩ : MapEntry) m) [])
  (c.setCapture i { c.capture i with isNew := true, changed := true, forkedFrom := none, sentLen := 0 }).bindSlots e

/-- The writes of a session that goes straight to its park tier (R313): its pages, block, root and leaves. -/
def parkWrites (n i : Nat) (plan : Tbl (Loc × Nat × Nat)) (runs : List (Loc × Nat × Nat)) (s : State) : State :=
  let mode := ((s.chan n).dir i).stackMode
  let ws := plan.map (fun q => q.2) ++ runs
  ws.foldl (fun s w =>
    match (s.chan n).seal 0 with
    | none => s
    | some c =>
      let t := locTarget n w.1 s
      match sendReq n t.1 t.2.1 0 .stale .writeBulk t.2.2 (envelopeOut (s.chan n) s.fid n 0 mode w.2.1 w.2.2 s.freeIx) (s.setChan n c) with
      | .ok s => s.advanceFree
      | .error _ => s) s

/-- A session rebuilt at a free entry (R313), or the channel that found no room. -/
def rebuildAt (n i : Nat) (x : StoredSession) (s : State) : Except Chan State :=
  let w := wmOf n s
  let c := rebuildDir i x (s.chan n)
  let straight := capturedParked x.dir
  match rebuildQueue w i x.queue c with
  | .error f => .error f
  | .ok c =>
    if straight then
      match rebuildPages w true i x.kv c with
      | .error f => .error f
      | .ok c =>
        let s := s.setChan n c
        match parkPlan n i s.freeIx s with
        | (none, f) => .error f
        | (some (plan, runs), c) =>
          let s := { s with freeIx := s.freeIx + 16777216 + 65537 }
          let tier := (c.dir i).parkTier
          let c := plan.foldl (fun c q => match c.pageAt i q.1 with | some d => parkSwitch i d q.2 c | none => c) c
          let s := s.setChan n ((parkEnd i tier runs c).countPages i)
          .ok (if tier = 2 then s else parkWrites n i plan runs s)
    else
      match c.takeBlock w (c.placement i) with
      | (none, f) => .error f
      | (some (b, r), c) =>
        let c := c.modDir i (fun e => { e with sblk := b, pmap := r })
        match rebuildPages w false i x.kv c with
        | .error f => .error f
        | .ok c => .ok (s.setChan n ((c.countPages i).queueEncodes i (x.kv.map (·.1)) (deviceDl n s)))

/-- A session rebuilt under a new handle (R42, R313). -/
def rebuildNew (n : Nat) (x : StoredSession) (s : State) : Except Chan (Nat × State) :=
  match (s.chan n).freeEntry with
  | none => .error (s.chan n)
  | some i => (rebuildAt n i x s).map (fun s => (i, s))

/-- A report entry (R316): old handle, new handle, kv_len with state and action, step. -/
def reportWords (old new kvLen state action step : Nat) : List Nat :=
  [old, new, kvLen + state * 2 ^ 32 + action * 2 ^ 40, step]

/-- The report entry of a session now at entry i. -/
def reportLive (n i old action step : Nat) (s : State) : List Nat :=
  let e := (s.chan n).dir i
  reportWords old (handleWord (handleOf n i s)) e.kvLen (sessCode e.state) action step

/-! ### Restore (R310 to R313) -/

/-- The channels a mask names. -/
def maskChans (m : BitVec 8) : List Nat := (List.range 8).filter (fun n => m.getLsbD n)

/-- The records of a source channel, in the order sent. -/
def recordsOf (n : Nat) (rs : List (Nat × StoredRec)) : List StoredRec := (rs.filter (fun e => e.1 == n)).map (·.2)

/-- The index that records give for a channel (R366). -/
def indexOf (n : Nat) (rs : List (Nat × StoredRec)) : Option StoredLens := storedIndex (recordsOf n rs)

/-- The sessions that records give for a channel of a source, under the profiles of the channel that takes them (R313). -/
def sessionsOf (src n : Nat) (rs : List (Nat × StoredRec)) (s : State) : List StoredSession :=
  storedSessions (s.chan n).prof src n (recordsOf n rs)

/-- The source of a channel is a SEARCH channel: its records are of the kinds of an index (R366). -/
def searchSource (a : RestoreArgs) (n : Nat) : Bool :=
  a.manifests.any (fun m => (recordsOf n m.records).any (fun r => match r with
    | .lhdr _ | .lvec _ _ _ | .lnode _ _ _ | .lstate _ _ | .lseg _ _ => true
    | _ => false))

/-- Item 3 of R311 fails, with R366 for a SEARCH source. -/
def targetBusy (a : RestoreArgs) (n : Nat) (s : State) : Bool :=
  if searchSource a n then (s.chan n).lens.hdr.isSome else !(s.chan n).liveSessions.isEmpty || participant n s

/-- The checks of R311, items 1 to 5, with R366 for a SEARCH source. -/
def restoreCheck (a : RestoreArgs) (s : State) : Option Status :=
  let ns := maskChans a.channels
  if ns.isEmpty then some .lenZero
  else if ns.any (fun n => (s.chan n).state != .active) then some .channelOffline
  else if ns.any (fun n => (s.chan n).role != (if searchSource a n then .search else .attn)) then some .roleMismatch
  else if ns.any (fun n => targetBusy a n s) then some .restoreTargetBusy
  else if s.encl.barred then some .lifecycle
  else if s.encl.groupCur.isNone then some .keyNotReleased
  else if s.mgmt.congested then some .mgmtBusy
  else none

/-- The report's buffer (R316, R383). -/
def reportCheck (fn addr cap : Nat) (s : State) : Option Status :=
  if cap = 0 ∨ 1048576 < cap then some .paramInvalid else rangeCheck fn addr (32 * cap) s

/-- The manifests that select_generation keeps (R312). -/
def candidates (a : RestoreArgs) : List Manifest :=
  a.manifests.filter (fun m => m.heldByAll && Config.edVerify a.pubkey 2 m.body m.sig && m.pubkey == a.pubkey && m.source == a.source
    && (match a.maxGen with | some g => decide (m.generation ≤ g) | none => true))

/-- The shard entry a manifest lists for a channel. -/
def shardEntry (m : Manifest) (ch : Nat) : Option ShardEntry := m.shards.find? (fun e => e.channel == ch)

/-- A shard of generation g that was read: its END step, length and digest are those of its own manifest (R312). A shard of the
generation before that the store does not hold is not needed. -/
def shardOk (ms : List Manifest) (m : Manifest) (ch g : Nat) : Bool :=
  match m.read.find? (fun r => r.channel == ch && r.generation == g), (ms.find? (fun x => x.generation == g)).bind (fun x => shardEntry x ch) with
  | some r, some e => r.endStep == e.step && r.length == e.length && r.digest == e.digest
  | some _, none => false
  | none, _ => g != m.generation

/-- Manifests by generation, newest first. -/
def insertManifest (m : Manifest) : List Manifest → List Manifest
  | [] => [m]
  | x :: r => if x.generation ≤ m.generation then m :: x :: r else x :: insertManifest m r

/-- select_generation of R312. -/
def selectGeneration (a : RestoreArgs) : Option Manifest :=
  let ms := (candidates a).foldl (fun l m => insertManifest m l) []
  ms.find? (fun m => (maskChans a.channels).all (fun ch => (shardEntry m ch).isNone ||
    (shardOk ms m ch m.generation && shardOk ms m ch (m.generation - 1))))

/-- The sessions of the named channels that a manifest's records give. -/
def storedFor (m : Manifest) (ns : List Nat) (s : State) : List (Nat × StoredSession) :=
  ns.flatMap (fun n => (sessionsOf m.source n m.records s).map (fun x => (n, x)))

/-- The indexes of the named channels that a manifest's records give. -/
def indexesFor (m : Manifest) (ns : List Nat) : List (Nat × StoredLens) :=
  ns.filterMap (fun n => (indexOf n m.records).map (fun x => (n, x)))

/-- Rebuild sessions one after another: the report and the state, or the sessions built when room ran out, with the channel that failed. -/
def rebuildAll : List (Nat × StoredSession) → List (Nat × Nat) → List Nat → State → Except (List (Nat × Nat) × Nat × Chan × State) (List Nat × State)
  | [], _, rep, s => .ok (rep, s)
  | (n, x) :: r, built, rep, s =>
    match rebuildNew n x s with
    | .error f => .error (built, n, f, s)
    | .ok (i, s') => rebuildAll r ((n, i) :: built) (rep ++ reportLive n i (handleWord x.oldHandle) 0 x.dir.lastStep s') s'

/-- The indexes of the named SEARCH channels are rebuilt (R366); none where room runs out. -/
def rebuildIndexes : List (Nat × StoredLens) → State → Option State
  | [], s => some s
  | (n, x) :: r, s =>
    match rebuildIndex x (s.chan n) with
    | none => none
    | some c => rebuildIndexes r (s.setChan n c)

/-- What a restore built goes again: sessions are closed and indexes dropped (R312, R313, R366). -/
def undoRestore (built : List (Nat × Nat)) (ns : List Nat) (s : State) : State :=
  let s := built.foldl (fun s b => s.modChan b.1 (fun c => c.closeSession b.2)) s
  ns.foldl (fun s n => s.modChan n dropIndex) s

/-- The device holds the key generation a manifest names (R454). -/
def genHeld (m : Manifest) (s : State) : Bool :=
  s.encl.groupCur.map (·.1) == some m.keyGen || s.encl.groupPrev.map (·.1) == some m.keyGen

/-- A selected generation is applied (R313, R316, R454). -/
def applyRestore (d : Hdr) (a : RestoreArgs) (m : Manifest) (s : State) : State :=
  let ns := maskChans a.channels
  let xs := storedFor m ns s
  if !genHeld m s then complete d 0x49 .keyNotReleased [] [] s
  else if a.reportCap < xs.length then complete d 0x49 .lenExceedsBuffer [xs.length] [] s
  else if !m.tagsOk then complete d 0x49 .restoreNone [] [] (ns.foldl (fun s n => reloadSlot1 n s) s)
  else
    match rebuildAll xs [] [] s with
    | .ok (rep, s') =>
      match rebuildIndexes (indexesFor m ns) s' with
      | some s => complete d 0x49 .ok [m.generation, xs.length] [(a.reportAddr, .words rep)] (ns.foldl (fun s n => reloadSlot1 n s) s)
      | none =>
        let built := ns.flatMap (fun n => (s'.chan n).liveSessions.map (fun i => (n, i)))
        complete d 0x49 .noSpace [] [] (ns.foldl (fun s n => reloadSlot1 n s) (undoRestore built (ns.filter (fun n => searchSource a n)) s'))
    | .error (built, n, f, s) =>
      let s := s.modChan n (fun c => c.withFails f)
      complete d 0x49 .noSpace [] [] (ns.foldl (fun s n => reloadSlot1 n s) (undoRestore built [] s))

/-- OP_MIRROR_RESTORE (R310 to R313). -/
def execOpMirrorRestore (d : Hdr) (a : RestoreArgs) : State → Host.Outcome State Fault Refusal :=
  accept 0x49 d (fun fn _ s =>
    match restoreCheck a s with
    | some st => complete d 0x49 st [] [] s
    | none =>
      match reportCheck fn a.reportAddr a.reportCap s with
      | some st => complete d 0x49 st [] [] s
      | none => withEntry 0x49 d (fun s =>
          match selectGeneration a with
          | none => complete d 0x49 .restoreNone [] [] s
          | some m => applyRestore d a m s) s)

/-! ### Rollback (R314, R315) -/

/-- The sequences of a session in unfinished steps. -/
def seqsOf (c : Chan) (p : Slot → Bool) : List (Nat × Nat) :=
  c.steps.flatMap (fun st => ((List.range st.slots.length).filter (fun k =>
    match st.slots[k]? with | some x => x.phase != .done && p x | none => false)).map (fun k => (st.num, k)))

/-- Sequences complete their step with ST_ROLLBACK, appending nothing. -/
def rollSeqs (n : Nat) (p : Slot → Bool) (s : State) : State :=
  (seqsOf (s.chan n) p).foldl (fun s h => endSeq n h.1 h.2 .rollback none true s) s

/-- A session is closed without a completion (R314 item 5, R315): what is pending for it ends with ST_ROLLBACK. -/
def closeQuiet (n i : Nat) (s : State) : State :=
  let mine (k : RunKind) : Bool := match k with | .park c j => c == n && j == i | .revive c j => c == n && j == i | _ => false
  let s := endOps (fun o => mine o.kind) .rollback s
  let s := endPending n i .rollback s
  let mineR (k : ReqKind) : Bool := match k with
    | .revive c j _ => c == n && j == i
    | .parkWrite c j _ => c == n && j == i
    | _ => false
  (dropReqs mineR s).modChan n (fun c => c.closeSession i)

/-- The positions at or above a length leave a session (R314 item 4): entries past it are dropped, the last page is cut. -/
def truncate (i len : Nat) (c : Chan) : Chan :=
  let x := c.prof (c.dir i).profile
  let es := (c.map i).map (·.1)
  es.foldl (fun c e =>
    match c.pageAt i e with
    | none => c
    | some d =>
      if len ≤ x.rowOf e * x.p then (c.setMap i (tdel e (c.map i))).unshare d
      else
        let f := min (c.page d).fill (len - x.rowOf e * x.p)
        if c.share d ≤ 1 then c.modPage d (fun p => { p with fill := f, k := p.k.take f, v := p.v.take f }) else c) c

/-- A changed session that is resident and was captured resident takes its captured objects back in place (R314 item 4). -/
def reload (n i : Nat) (x : StoredSession) (s : State) : Except Chan State :=
  let w := wmOf n s
  let c := (s.chan n).dropDraft i
  let e := c.dir i
  let c := c.unbindSlots e
  let c := truncate i x.dir.kvLen c
  let c := (c.queue i).granules.foldl (fun c l => c.freeLoc l) c
  let runs := x.dir.state == .runnable || x.dir.state == .running
  let e' : Dir := { x.dir with epoch := e.epoch, count := e.count, state := if runs then .runnable else x.dir.state, parkPend := false
                               closePend := false, forkPend := false, resumePend := false, streaming := e.streaming, sblk := e.sblk
                               pmap := e.pmap, asqIndex := e.asqIndex, asqValid := e.asqValid }
  let c := ((c.setDir i e').setSblk i x.blk).bindSlots e'
  let back := x.kv.filter (fun q => (c.pageAt i q.1).isNone)
  let c := { c with chunks := tdel i c.chunks }
  match rebuildQueue w i x.queue c with
  | .error f => .error f
  | .ok c =>
    match rebuildPages w false i back c with
    | .error f => .error f
    | .ok c =>
      let c := ((c.countPages i).setCapture i { c.capture i with sentLen := 0, changed := true }).queueEncodes i (back.map (·.1)) (deviceDl n s)
      let c := if runs then
          (if e'.asqValid then c.rerelease i s.now
           else match c.enterAsq (handleOf n i s) s.now with
             | some c => c
             | none => c.modDir i (fun e => { e with state := .stopped }))
        else c.leaveAsq i
      .ok (s.setChan n c)

/-- A live session is the one captured. -/
def sameSession (n : Nat) (x : StoredSession) (s : State) : Bool :=
  let e := (s.chan n).dir x.oldHandle.index
  e.state != .closed && e.count == x.oldHandle.count && e.epoch == x.oldHandle.epoch

/-- A session has a change after a generation (R293, R314). -/
def changedAfter (n i g : Nat) (s : State) : Bool :=
  let y := (s.chan n).capture i
  y.changed || y.isNew || y.cbw.isSome || decide (g < y.lastGen) || decide (y.doneLen < ((s.chan n).dir i).kvLen)

/-- A session is neither captured nor live in its park tier. -/
def bothResident (n : Nat) (x : StoredSession) (s : State) : Bool :=
  let e := (s.chan n).dir x.oldHandle.index
  !capturedParked x.dir && !capturedParked e

/-- A session that cannot be taken back in place is closed and rebuilt under a new handle; where there is no room it stays closed
(log entry 23). -/
def rollRebuild (n : Nat) (x : StoredSession) (s : State) : State × List Nat :=
  let old := handleWord x.oldHandle
  match rebuildNew n x s with
  | .ok (i, s) => (s, reportLive n i old 3 x.dir.lastStep s)
  | .error f => (s.modChan n (fun c => c.withFails f), reportWords old 0 0 0 2 x.dir.lastStep)

/-- Items 4 and 6 of R314 for one stored session. -/
def rollOne (n g : Nat) (x : StoredSession) (s : State) : State × List Nat :=
  let i := x.oldHandle.index
  if !sameSession n x s then rollRebuild n x s
  else if !changedAfter n i g s then (s, [])
  else if bothResident n x s then
    match reload n i x s with
    | .ok s => (s, reportLive n i (handleWord x.oldHandle) 1 x.dir.lastStep s)
    | .error f =>
      (closeQuiet n i (s.modChan n (fun c => c.withFails f)), reportWords (handleWord x.oldHandle) 0 0 0 2 x.dir.lastStep)
  else rollRebuild n x (closeQuiet n i s)

/-- The sessions stored for a channel. -/
def storedOf (n : Nat) (a : RollbackArgs) (s : State) : List StoredSession := sessionsOf s.fid n a.records s

/-- The live sessions that did not exist at the generation. -/
def newerSessions (n : Nat) (a : RollbackArgs) (s : State) : List Nat :=
  (s.chan n).liveSessions.filter (fun i => !(storedOf n a s).any (fun x => x.oldHandle.index == i && sameSession n x s))

/-- The report entries a rollback of a channel needs (R316). -/
def rollCount (n g : Nat) (a : RollbackArgs) (s : State) : Nat :=
  (newerSessions n a s).length + (storedOf n a s).countP (fun x => !sameSession n x s || changedAfter n x.oldHandle.index g s)

/-- The Lens descriptors of a channel in flight end with a status, and their work leaves the tiles. -/
def endLens (n : Nat) (st : Status) (s : State) : State :=
  let mine (o : RunOp) : Bool := match o.kind with | .lensQuery c => c == n | .lensWrite c => c == n | _ => false
  let s := s.modChan n (fun c => { c.modLens (fun x => { x with queries := [], batches := [], table := [], writes := [], waiting := [] }) with
    bulk := c.bulk.filter (fun u => match u.work with | .lensWrite _ => false | _ => true) })
  dispatchChan n (endOps mine st s)

/-- A SEARCH channel goes back to its index at the generation (R366); where room runs out it holds none (log entry 23). -/
def rollIndex (n : Nat) (a : RollbackArgs) (s : State) : State :=
  let s := endLens n .rollback (abandonGen s)
  s.modChan n (fun c =>
    let c := dropIndex c
    match indexOf n a.records with
    | some e => (rebuildIndex e c).getD c
    | none => c)

/-- Items 1 to 6 of R314 for one channel: the state and the report. -/
def rollChannel (n g : Nat) (a : RollbackArgs) (s : State) : State × List Nat :=
  if (s.chan n).role = .search then (rollIndex n a s, [])
  else
  let s := abandonGen (rollSeqs n (fun _ => true) s)
  let newer := newerSessions n a s
  let xs := storedOf n a s
  let r := newer.foldl (fun (p : State × List Nat) i =>
    let old := handleWord (handleOf n i p.1)
    (closeQuiet n i p.1, p.2 ++ reportWords old 0 0 0 2 0)) (s, [])
  xs.foldl (fun (p : State × List Nat) x =>
    let q := rollOne n g x p.1
    (q.1, p.2 ++ q.2)) r

/-- The generation a rollback names on a channel: N or N − 1, 0 for the newest (R314). -/
def rollGen (n gen : Nat) (s : State) : Option Nat :=
  let m := (s.chan n).mirror
  if m.doneGen = 0 then none
  else if gen = 0 then some m.doneGen
  else if gen = m.doneGen ∨ gen = m.prevGen then some gen
  else none

/-- The checks of OP_MIRROR_ROLLBACK. -/
def rollbackCheck (fn : Nat) (a : RollbackArgs) (s : State) : Option Status :=
  let ns := maskChans a.channels
  if ns.isEmpty then some .lenZero
  else if ns.any (fun n => !participant n s) then some .roleMismatch
  else match reportCheck fn a.reportAddr a.reportCap s with
    | some st => some st
    | none => if ns.any (fun n => (rollGen n a.gen s).isNone) then some .restoreNone else none

/-- OP_MIRROR_ROLLBACK with session = 0 (R314). -/
def execOpMirrorRollback (d : Hdr) (a : RollbackArgs) : State → Host.Outcome State Fault Refusal :=
  accept 0x4A d (fun fn _ s =>
    match rollbackCheck fn a s with
    | some st => complete d 0x4A st [] [] s
    | none =>
      let ns := maskChans a.channels
      let gen (n : Nat) : Nat := (rollGen n a.gen s).getD 0
      let need := (ns.map (fun n => rollCount n (gen n) a s)).sum
      if a.reportCap < need then complete d 0x4A .lenExceedsBuffer [need] [] s
      else
        let r := ns.foldl (fun (p : State × List Nat) n =>
          let q := rollChannel n (gen n) a p.1
          (q.1, p.2 ++ q.2)) (s, [])
        complete d 0x4A .ok [match ns with | n :: _ => gen n | [] => 0, r.2.length / 4] [(a.reportAddr, .words r.2)] (mirrorNext r.1))

/-- The checks of R315. -/
def sessRollCheck (fn : Nat) (a : RollbackArgs) (s : State) : Option Status :=
  match maskChans a.channels with
  | [n] =>
    match checkHandle a.handle n fn s with
    | some st => some st
    | none =>
      if !participant n s then some .roleMismatch
      else match reportCheck fn a.reportAddr a.reportCap s with
        | some st => some st
        | none => if (rollGen n a.gen s).isNone then some .restoreNone else none
  | _ => some .paramInvalid

/-- One session is rolled back (R315). -/
def rollSession (n i : Nat) (a : RollbackArgs) (s : State) : State × List Nat :=
  let old := handleOf n i s
  let step := ((s.chan n).dir i).lastStep
  let s := endPending n i .rollback s
  let s := closeQuiet n i (rollSeqs n (fun x => x.index == i) s)
  match (storedOf n a s).find? (fun x => x.oldHandle == old) with
  | some x => rollRebuild n x s
  | none => (s, reportWords (handleWord old) 0 0 0 2 step)

/-- SESSION_ROLLBACK: OP_MIRROR_ROLLBACK with session = 1 (R315). -/
def execSessionRollback (d : Hdr) (a : RollbackArgs) : State → Host.Outcome State Fault Refusal :=
  accept 0x4A d (fun fn _ s =>
    match sessRollCheck fn a s with
    | some st => complete d 0x4A st [] [] s
    | none =>
      match maskChans a.channels with
      | n :: _ =>
        let r := rollSession n a.handle.index a s
        complete d 0x4A .ok [(rollGen n a.gen s).getD 0, 1] [(a.reportAddr, .words r.2)] r.1
      | [] => s)

end Sys2Proof.Machine
end

