-- ==== Sys2Proof/Machine/Pool.lean ====
section
/-! DEFINITION. The memory pool (R320 to R345): partitions and extents, access checks, plain access and near-memory operations,
leases, revocation, mirrored extents and rebuild, and OP_POOL_OP. -/

namespace Sys2Proof.Machine

open Sys2Proof

/-! ### Extents and their memory (R321, R323, R329) -/

def Chan.extent (c : Chan) (key : Nat) : Option Extent := tget key c.pool.extents

def Chan.setExtent (c : Chan) (key : Nat) (x : Extent) : Chan := { c with pool := { c.pool with extents := tset key x c.pool.extents } }

def Chan.modExtent (c : Chan) (key : Nat) (f : Extent → Extent) : Chan :=
  match c.extent key with
  | some x => c.setExtent key (f x)
  | none => c

/-- The address of an extent's first byte in the channel's memory: T1 from 0, T2 from 2^40. -/
def Extent.base (x : Extent) : Nat := (if x.loc.tier = 1 then 0 else 2 ^ 40) + x.loc.granule * 16384

/-- The memory address of a partition offset in an extent. -/
def Extent.at (x : Extent) (off : Nat) : Nat := x.base + (off - x.pOff)

/-- The slots of a partition that are not FREE. -/
def Chan.slotsOf (c : Chan) (part : Nat) : Tbl Extent := c.pool.extents.filter (fun e => e.1 / 64 == part && e.2.state != 0)

/-- The slot of a partition that holds a whole range (R325). -/
def Chan.slotFor (c : Chan) (part off len : Nat) : Option (Nat × Extent) :=
  (c.slotsOf part).find? (fun e => decide (e.2.pOff ≤ off) && decide (off + len ≤ e.2.pOff + e.2.length))

/-- Granules for an extent. -/
def Chan.takeExtent (c : Chan) (tier g : Nat) : Option Loc × Chan :=
  let a := c.tier tier
  let r := if g ≤ 32 then a.take (classOf g) else a.takeSpan (spanBlocks g)
  (r.1.map (fun n => ⟨tier, n⟩), c.setTier tier r.2)

/-- An extent's granules return. They were filled with zero when it was revoked (R341, R468). -/
def Chan.freeExtent (c : Chan) (x : Extent) : Chan :=
  let a := c.tier x.loc.tier
  let a := if x.granules ≤ 32 then a.release x.loc.granule
    else (List.range (spanBlocks x.granules)).foldl (fun a i => Alloc.release a (x.loc.granule + 32 * i)) a
  c.setTier x.loc.tier a

/-- An extent's bytes are filled with zero and its poison cleared. -/
def Chan.zeroExtent (c : Chan) (x : Extent) : Chan :=
  let inside (a : Nat) : Bool := decide (x.base ≤ a) && decide (a < x.base + x.length)
  { c with mem := c.mem.filter (fun e => !inside e.1), pool := { c.pool with poison := c.pool.poison.filter (fun l => !inside (l * 256)) } }

/-! ### Partitions and extents (R322 to R328) -/

/-- Who hears of a partition's events beside F1. -/
def poolEvent (ev : Event) (ch owner : Nat) (s : State) : State :=
  let s := raiseEvent 1 ev ch s
  if owner = 1 then s else raiseEvent owner ev ch s

/-- A channel serves as an ACTIVE POOL channel. -/
def isPool (ch : Nat) (s : State) : Bool := (s.chan ch).state == .active && (s.chan ch).role == .pool

/-- The owner holds a COMPAT partition, other than one, with a slot that is not FREE (R328). -/
def compatBusy (owner but : Nat) (s : State) : Bool :=
  s.parts.any (fun e => e.1 != but && e.2.valid && e.2.isolation == 1 && e.2.ownerFid == owner &&
    !((s.chan e.2.poolChannel).slotsOf e.1).isEmpty)

/-- The owner's key generation shows in every COMPAT partition of it, and its key is in the key tables (R327, R328). -/
def showGen (owner gen : Nat) (s : State) : State :=
  let mine (p : Partition) : Bool := p.valid && p.isolation == 1 && p.ownerFid == owner
  let s := { s with parts := s.parts.map (fun (e : Nat × Partition) => if mine e.2 then (e.1, { e.2 with keyGen := gen }) else e) }
  (s.parts.filter (fun e => mine e.2)).foldl (fun s e => s.modChan e.2.poolChannel (fun c =>
    { c with pool := { c.pool with xts := (owner, gen) :: c.pool.xts.filter (fun k => k.1 != owner) } })) s

/-- A partition has become COMPAT: a new key generation unless the owner's key is in use (R328). -/
def compatKey (part owner : Nat) (s : State) : State :=
  let gen := (tget owner s.xtsGen).getD 0
  if compatBusy owner part s || !((s.chan (s.part part).poolChannel).slotsOf part).isEmpty then showGen owner gen s
  else showGen owner (gen + 1) { s with xtsGen := tset owner (gen + 1) s.xtsGen }

/-- The checks of OP_PARTITION_SET (R324). -/
def partitionCheck (part : Nat) (g : PartImage) (s : State) : Option Status :=
  let p := s.part part
  if !isPool g.poolChannel s then some .roleMismatch
  else if 1 < g.isolation ∨ 0x4F < g.ownerFid ∨ 7 < g.ownerChannel ∨ 63 < part then some .paramInvalid
  else if (p.ownerFid ≠ g.ownerFid ∨ p.ownerChannel ≠ g.ownerChannel ∨ p.poolChannel ≠ g.poolChannel ∨ p.isolation ≠ g.isolation)
      ∧ !((s.chan p.poolChannel).slotsOf part).isEmpty then some .extentState
  else if g.valid ∧ g.isolation = 1 ∧ s.encl.barred then some .lifecycle
  else none

/-- The entry an image writes: its device-written fields stay. -/
def partOf (p : Partition) (g : PartImage) : Partition :=
  { p with ownerFid := g.ownerFid, ownerChannel := g.ownerChannel, poolChannel := g.poolChannel, isolation := g.isolation
           valid := g.valid, leaseEn := g.leaseEn, ownerFn := g.ownerFn, keyGen := if g.isolation = 1 then p.keyGen else 0 }

def partitionSet (part : Nat) (g : PartImage) (s : State) : State :=
  let s := s.setPart part (partOf (s.part part) g)
  if g.valid ∧ g.isolation = 1 then compatKey part g.ownerFid s else s

/-- OP_PARTITION_SET (R324). -/
def execOpPartitionSet (d : Hdr) (partition : Nat) (img : PartImage) : State → Host.Outcome State Fault Refusal :=
  accept 0x50 d (fun _ _ s =>
    match partitionCheck partition img s with
    | some st => complete d 0x50 st [] [] s
    | none => complete d 0x50 .ok [] [] (partitionSet partition img s))

/-- An image's range overlaps another slot of the partition that is not FREE. -/
def overlaps (c : Chan) (key : Nat) (g : ExtentImage) : Bool :=
  (c.slotsOf (key / 64)).any (fun e => e.1 != key && decide (e.2.pOff < g.pOff + g.length) && decide (g.pOff < e.2.pOff + e.2.length))

/-- The promotion of R343: mirror NONE written to a SECONDARY. -/
def promotes (x : Extent) (g : ExtentImage) : Bool := x.mirror == 2 && g.mirror == 0 && x.state != 0

/-- The checks of OP_EXTENT_SET (R324), up to the space. -/
def extentCheck (part slot : Nat) (g : ExtentImage) (s : State) : Option Status :=
  let p := s.part part
  let c := s.chan p.poolChannel
  let x := (c.extent (64 * part + slot)).getD {}
  if !isPool p.poolChannel s then some .roleMismatch
  else if 63 < part ∨ 63 < slot ∨ 3 < g.state ∨ 3 < g.mirror then some .paramInvalid
  else if promotes x g ∨ g.state = 0 then
    (if promotes x g ∨ x.state = 0 ∨ x.state = 3 then none else some .extentState)
  else if !(g.tier == 1 || g.tier == 2) ∨ g.pOff % 16384 ≠ 0 ∨ 2 ^ 55 ≤ g.pOff ∨ g.length % 16384 ≠ 0 ∨ g.length < 16384
      ∨ 51539607552 < g.length ∨ overlaps c (64 * part + slot) g then some .paramInvalid
  else if x.state ≠ 0 ∧ x.state ≠ 3 then some .extentState
  else none

/-- The slots in use of a partition, and its owner's key, follow a slot that became FREE (R322, R328). -/
def slotFreed (part : Nat) (s : State) : State :=
  let p := s.part part
  let n := ((s.chan p.poolChannel).slotsOf part).length
  let s := s.setPart part { p with extents := n }
  if n = 0 ∧ p.isolation = 1 ∧ !compatBusy p.ownerFid part s then
    { s with chans := s.chans.map (fun (e : Nat × Chan) =>
      (e.1, { e.2 with pool := { e.2.pool with xts := e.2.pool.xts.filter (fun k => k.1 != p.ownerFid) } })) }
  else s

/-- A slot becomes FREE: its granules return. -/
def extentFree (part slot : Nat) (s : State) : State :=
  let n := (s.part part).poolChannel
  match (s.chan n).extent (64 * part + slot) with
  | none => s
  | some x =>
    if x.state = 0 then s
    else slotFreed part (s.modChan n (fun c =>
      let c := c.freeExtent x
      { c with pool := { c.pool with extents := tdel (64 * part + slot) c.pool.extents } }))

/-- A new extent: ACTIVE, reading as zero; none when its granules cannot be allocated. -/
def extentNew (part slot : Nat) (g : ExtentImage) (s : State) : Option State × State :=
  let n := (s.part part).poolChannel
  let c0 := s.chan n
  let c := match c0.extent (64 * part + slot) with
    | some x => if x.state = 3 then c0.freeExtent x else c0
    | none => c0
  let k := g.length / 16384
  match c.takeExtent g.tier k with
  | (none, f) => (none, s.setChan n (c0.withFails f))
  | (some l, c) =>
    let x : Extent := { pOff := g.pOff, length := g.length, loc := l, granules := k, state := 1, mirror := g.mirror
                        mirrorOk := g.mirror != 0, buddy := g.buddy }
    let s := s.setChan n ((c.setExtent (64 * part + slot) x).zeroExtent x)
    let p := s.part part
    let s := s.setPart part { p with extents := ((s.chan n).slotsOf part).length }
    (some s, s)

def extentSet (d : Hdr) (part slot : Nat) (g : ExtentImage) (s : State) : State :=
  let n := (s.part part).poolChannel
  let x := ((s.chan n).extent (64 * part + slot)).getD {}
  if promotes x g then
    complete d 0x51 .ok [] [] (s.modChan n (fun c => c.setExtent (64 * part + slot) { x with mirror := 0, mirrorOk := false }))
  else if g.state = 0 then complete d 0x51 .ok [] [] (extentFree part slot s)
  else
    match extentNew part slot g s with
    | (some s, _) => complete d 0x51 .ok [] [] s
    | (none, s) => complete d 0x51 .noSpace [] [] s

/-- OP_EXTENT_SET (R324). -/
def execOpExtentSet (d : Hdr) (partition slot : Nat) (img : ExtentImage) : State → Host.Outcome State Fault Refusal :=
  accept 0x51 d (fun _ _ s =>
    match extentCheck partition slot img s with
    | some st => complete d 0x51 st [] [] s
    | none => extentSet d partition slot img s)

/-! ### Requests (R329, R330) -/

/-- A request of a pool channel: the operation of R330, or 32 for a plain read and 33 for a plain write. -/
structure PoolReq where
  p : Pkt
  op : Nat
  part : Nat
  off : Nat
  len : Nat
  src : Option (Nat × Nat)
  b : PoolBlk
  data : List Byte
  addr : Nat
deriving DecidableEq, Repr

/-- Partition and offset of a pool address (R329). -/
def poolPart (a : Nat) : Nat := a % 64
def poolOff (a : Nat) : Nat := a / 256 % 2 ^ 55

def noBlk : PoolBlk := ⟨0, 0, false, false, 0, 0, 0, 0, 0, 0, 0⟩

/-- The size of an element (R330). -/
def elemSize (e : Nat) : Nat := if e = 1 then 2 else if e = 3 then 8 else 4

/-- The bytes an operation's range has: atomics have their operand's size. -/
def opLen (op : Nat) (b : PoolBlk) : Nat :=
  if op = 4 then elemSize b.elem else if op = 5 then (if b.wide then 16 else 8) else b.len

def blkReq (p : Pkt) (op : Nat) (b : PoolBlk) (data : List Byte) : PoolReq :=
  ⟨p, op, b.dstPart, b.dst, opLen op b, if op = 1 ∨ op = 2 ∨ op = 3 then some (b.srcPart, b.src) else none, b, data, 0⟩

/-- The request a command brings. -/
def poolReqOf : Instr → Option PoolReq
  | .readReq p a n => some ⟨p, 32, poolPart a.toNat, poolOff a.toNat, n, none, noBlk, [], a.toNat⟩
  | .write p a d => some ⟨p, 33, poolPart a.toNat, poolOff a.toNat, d.length, none, noBlk, d, a.toNat⟩
  | .writeBulk p a d => some ⟨p, 33, poolPart a.toNat, poolOff a.toNat, d.length, none, noBlk, d, a.toNat⟩
  | .fill p b => some (blkReq p 0 b [])
  | .copy p b => some (blkReq p 1 b [])
  | .compare p b => some (blkReq p 2 b [])
  | .reduce p b => some (blkReq p 3 b [])
  | .atomicAdd p b => some (blkReq p 4 b [])
  | .cas p b => some (blkReq p 5 b [])
  | .acquireS p b => some (blkReq p 16 b [])
  | .acquireM p b => some (blkReq p 17 b [])
  | .writeback p b d => some (blkReq p 18 b d)
  | .release p b d => some (blkReq p 19 b d)
  | .renew p b => some (blkReq p 20 b [])
  | _ => none

/-- The operation block's codes and alignment (R330). -/
def blkOk (r : PoolReq) : Bool :=
  let b := r.b
  let z := elemSize b.elem
  if 32 ≤ r.op then true
  else if r.op = 4 then (b.elem == 0 || b.elem == 3) && r.off % z == 0
  else if r.op = 5 then r.off % (if b.wide then 16 else 8) == 0
  else if 16 ≤ r.op then r.off % 16 == 0 && b.len == 256
  else decide (b.len ≤ 1073741824) &&
    (if r.op = 0 then b.len % 16 == 0 && r.off % 16 == 0
     else if r.op = 3 then b.rop != 3 && b.elem < 4 && b.len % z == 0 && r.off % z == 0 && b.src % z == 0
     else true)

/-- The 32 bytes of a pool response (R333). -/
def poolRspBytes (st : Status) (done result : Nat) : List Byte := natLE 2 (statusCode st) ++ natLE 6 0 ++ natLE 8 done ++ natLE 16 result

/-- The answer to a request (R333, R437): a posted write is answered only when it fails. -/
def answer (r : PoolReq) (st : Status) (done result : Nat) (data : List Byte) (s : State) : State :=
  if r.op = 32 then respond r.p (if r.p.bulkRsp then .readRspBulk else .readRsp) st r.addr (if st = .ok then .bytes data else .empty) s
  else if r.op = 33 then (if r.p.ackReq ∨ st ≠ .ok then respond r.p .writeAck st r.addr .empty s else s)
  else respond r.p .poolRsp st 0 (.bytes (poolRspBytes st done result ++ data)) s

/-! ### Access checks (R325, R326) -/

/-- A write that a primary forwards to this slot (R343). -/
def fromPrimary (r : PoolReq) (x : Extent) : Bool :=
  r.op == 33 && (x.mirror == 2 || x.mirror == 3) && x.buddy.fabricId == r.p.srcFid && x.buddy.channel == r.p.srcUnit

/-- check_access of R325 on one range: the slot. A lease message that answers a recall is taken while REVOKING (R341). -/
def checkAccess (r : PoolReq) (part off len : Nat) (s : State) : Except Status Nat :=
  let ch := r.p.dstUnit
  let p := s.part part
  let back := r.op == 18 || r.op == 19
  if (s.chan ch).state = .failed then .error .channelFailed
  else if !isPool ch s then .error .roleMismatch
  else if !p.valid ∨ p.poolChannel ≠ ch then .error .accessViolation
  else
    match (s.chan ch).slotFor part off len with
    | some (k, x) =>
      if fromPrimary r x then (if x.state = 1 then .ok k else .error .extentRevoked)
      else if r.p.srcFid ≠ p.ownerFid ∨ (p.ownerFid < 64 ∧ r.p.srcUnit ≠ p.ownerChannel) then .error .accessViolation
      else if x.state = 3 ∨ (x.state = 2 ∧ !back) then .error .extentRevoked
      else if x.mirror = 2 ∨ x.mirror = 3 then .error .extentState
      else .ok k
    | none => .error .accessViolation

/-- The checks of a request: destination, then source, which lies in the same partition. -/
def checkReq (r : PoolReq) (s : State) : Except Status (List Nat) :=
  match checkAccess r r.part r.off r.len s with
  | .error st => .error st
  | .ok k =>
    match r.src with
    | none => .ok [k]
    | some (sp, so) =>
      if sp ≠ r.part then .error .accessViolation
      else
        match checkAccess r sp so r.len s with
        | .error st => .error st
        | .ok j => .ok [k, j]

/-- A violation is reported (R326): at once for the first, those within 1 ms of an event with the next one. -/
def violate (r : PoolReq) (s : State) : State :=
  let ch := r.p.dstUnit
  let p := s.part r.part
  let vs := (s.chan ch).pool.violations
  let code := if r.op = 32 then Config.plainOp false else if r.op = 33 then Config.plainOp true else r.op
  let me := r.p.srcFid + 128 * r.p.srcUnit
  let set (v : Nat × Nat × Nat) (s : State) : State :=
    s.modChan ch (fun c => { c with pool := { c.pool with violations := tset r.part v c.pool.violations } })
  match tget r.part vs with
  | some (t, n, who) =>
    if s.now < t + 1000000 then set (t, n + 1, if n = 0 then me else who) s
    else
      let who := if n = 0 then me else who
      raiseEventN (if p.valid then p.ownerFn else 1) (.poolViolation (who % 128) (who / 128) r.part code (n + 1) r.off) ch (n + 1)
        (set (s.now, 0, 0) s)
  | none =>
    raiseEvent (if p.valid then p.ownerFn else 1) (.poolViolation r.p.srcFid r.p.srcUnit r.part code 1 r.off) ch (set (s.now, 0, 0) s)

/-- A refused request is counted in a slot under revocation (R341). -/
def countRefused (r : PoolReq) (s : State) : State :=
  s.modChan r.p.dstUnit (fun c => match c.slotFor r.part r.off r.len with
    | some (k, x) => if x.state = 2 then c.setExtent k { x with refused := x.refused + 1 } else c
    | none => c)

/-! ### Poison (R340) -/

/-- The first offset of a range at which a poisoned line stops an access: any line it reads, or one it writes in part. -/
def badOff (c : Chan) (a len : Nat) (read : Bool) : Option Nat :=
  lowest (c.pool.poison.filterMap (fun l =>
    if l * 256 + 256 ≤ a ∨ a + len ≤ l * 256 then none
    else if !read && decide (a ≤ l * 256) && decide (l * 256 + 256 ≤ a + len) then none
    else some (l * 256 - a)))

/-- Bytes written: a whole line written loses its poison. -/
def Chan.poke (c : Chan) (a : Nat) (bs : List Byte) : Chan :=
  { c with mem := Mem.writeN a bs c.mem
           pool := { c.pool with poison := c.pool.poison.filter (fun l => !(decide (a ≤ l * 256) && decide (l * 256 + 256 ≤ a + bs.length))) } }

/-- The lines that a range touches become poisoned. -/
def Chan.poisonRange (c : Chan) (a len : Nat) : Chan :=
  if len = 0 then c
  else { c with pool := { c.pool with poison :=
    (List.range ((a + len - 1) / 256 + 1 - a / 256)).foldl (fun l i => if l.contains (a / 256 + i) then l else (a / 256 + i) :: l) c.pool.poison } }

/-- The lesser of two stops. -/
def minOff : Option Nat → Option Nat → Option Nat
  | none, b => b
  | a, none => a
  | some a, some b => some (min a b)

/-! ### Element arithmetic (R332) -/

/-- The value of a floating element. -/
def elemVal (e v : Nat) : FVal := if e = 1 then fdecode fmtBf16 v else fdecode fmtFp32 v

/-- A floating value rounded once to its element; NaN is canonical. -/
def elemEnc (e : Nat) (v : FVal) : Nat := if e = 1 then fencode fmtBf16 false v else fencode fmtFp32 false v

/-- The signed value of an integer element. -/
def elemInt (e v : Nat) : Int :=
  let w := 8 * elemSize e
  if v < 2 ^ (w - 1) then (v : Int) else (v : Int) - 2 ^ w

/-- One of two floats comes first: −0 lies below +0. -/
def floatBefore (e a b : Nat) : Bool :=
  let top := 2 ^ (8 * elemSize e - 1)
  (elemVal e a).lt (elemVal e b) || (!(elemVal e b).lt (elemVal e a) && decide (top ≤ a) && decide (b < top))

def isNanElem (e v : Nat) : Bool := match elemVal e v with | .nan => true | _ => false

/-- rop of R330 on two elements: 0 SUM, 1 MIN, 2 MAX. -/
def ropElem (rop e a b : Nat) : Nat :=
  if e < 2 then
    if rop = 0 then elemEnc e ((elemVal e a).add (elemVal e b))
    else if isNanElem e a || isNanElem e b then elemEnc e .nan
    else if floatBefore e a b == (rop == 1) then a else b
  else if rop = 0 then (a + b) % 2 ^ (8 * elemSize e)
  else if decide (elemInt e a < elemInt e b) == (rop == 1) then a else b

/-- The elements of a byte string. -/
def elemsOf (e : Nat) : Nat → List Byte → List Nat
  | 0, _ => []
  | n + 1, bs => leNat (bs.take (elemSize e)) :: elemsOf e n (bs.drop (elemSize e))

/-- A scalar reduction (R332): a floating sum is exact and rounds once. -/
def reduceScalar (rop e ix : Nat) (xs : List Nat) : Nat :=
  match xs with
  | [] => Config.openNat ix % 2 ^ (8 * elemSize e)
  | x :: r =>
    if e < 2 ∧ rop = 0 then elemEnc e (r.foldl (fun v y => v.add (elemVal e y)) (elemVal e x))
    else r.foldl (fun v y => ropElem rop e v y) (if e < 2 ∧ isNanElem e x then elemEnc e .nan else x)

/-! ### The effect of an operation (R331, R333) -/

/-- What an operation did: the channel, status, done, result, data to return, and how many bytes of the destination it wrote. -/
structure Done where
  c : Chan
  st : Status
  done : Nat
  result : Nat
  data : List Byte
  wrote : Nat

/-- Bytes of the 16-byte pattern repeated. -/
def pattern (v : BitVec 128) (n : Nat) : List Byte := (List.range n).map (fun i => BitVec.ofNat 8 (v.toNat / 256 ^ (i % 16)))

/-- The first offset at which two byte strings differ, or their length. -/
def firstDiff : List Byte → List Byte → Nat
  | a :: x, b :: y => if a = b then firstDiff x y + 1 else 0
  | _, _ => 0

/-- Status and length of a range operation that may stop at a poisoned line. -/
def stopAt (len : Nat) (o : Option Nat) : Status × Nat := match o with | some n => (.poisoned, n) | none => (.ok, len)

/-- An operation at its memory addresses: `a` the destination's, `a2` the source's. -/
def poolEffect (r : PoolReq) (a a2 ix : Nat) (c : Chan) : Done :=
  let b := r.b
  let z := elemSize b.elem
  if r.op = 32 then
    match badOff c a r.len true with
    | some _ => ⟨c, .poisoned, 0, 0, [], 0⟩
    | none => ⟨c, .ok, r.len, 0, Mem.readN a r.len c.mem, 0⟩
  else if r.op = 33 then
    let (st, n) := stopAt r.len (badOff c a r.len false)
    let c := c.poke a (r.data.take n)
    ⟨if r.p.poison then c.poisonRange a n else c, st, n, 0, [], n⟩
  else if r.op = 0 then
    let (st, n) := stopAt r.len (badOff c a r.len false)
    ⟨c.poke a (pattern b.operand n), st, n, 0, [], n⟩
  else if r.op = 1 then
    let (st, n) := stopAt r.len (minOff (badOff c a r.len false) (badOff c a2 r.len true))
    ⟨c.poke a (Mem.readN a2 n c.mem), st, n, 0, [], n⟩
  else if r.op = 2 then
    let (st, n) := stopAt r.len (minOff (badOff c a r.len true) (badOff c a2 r.len true))
    ⟨c, st, n, firstDiff (Mem.readN a n c.mem) (Mem.readN a2 n c.mem), [], 0⟩
  else if r.op = 3 then
    if b.scalar then
      let (st, n) := stopAt r.len (badOff c a2 r.len true)
      ⟨c, st, n, reduceScalar b.rop b.elem ix (elemsOf b.elem (n / z) (Mem.readN a2 n c.mem)), [], 0⟩
    else
      let (st, n) := stopAt r.len (minOff (badOff c a r.len true) (badOff c a2 r.len true))
      let xs := elemsOf b.elem (n / z) (Mem.readN a n c.mem)
      let ys := elemsOf b.elem (n / z) (Mem.readN a2 n c.mem)
      ⟨c.poke a ((List.zipWith (fun x y => natLE z (ropElem b.rop b.elem x y)) xs ys).flatten), st, n, 0, [], n⟩
  else
    match badOff c a r.len true with
    | some _ => ⟨c, .poisoned, 0, 0, [], 0⟩
    | none =>
      let old := leNat (Mem.readN a r.len c.mem)
      if r.op = 4 then
        ⟨c.poke a (natLE r.len (ropElem 0 b.elem old (b.operand.toNat % 256 ^ r.len))), .ok, r.len, old, [], r.len⟩
      else if old = b.operand.toNat % 256 ^ r.len then
        ⟨c.poke a (natLE r.len (b.operand2.toNat % 256 ^ r.len)), .ok, r.len, old, [], r.len⟩
      else ⟨c, .ok, r.len, old, [], 0⟩

/-! ### Mirrored extents (R343) -/

/-- The part of a write that a primary forwards: all of it, or during a rebuild what lies below mark (R344). -/
def forwardLen (x : Extent) (off n : Nat) : Nat :=
  if x.mirror = 1 ∧ x.mirrorOk then (if x.filling then min n (x.pOff + x.mark - off) else n) else 0

/-- A mirrored write goes to the secondary; the other outcome is that the secondary cannot be reached. -/
def forward (ch key : Nat) (x : Extent) (off n : Nat) (poison : Bool) (s : State) : Option State :=
  let c := s.chan ch
  match sendReq ch x.buddy.fabricId x.buddy.channel 0 (.forward ch (key / 64) (key % 64)) (if poison then .poisonBulk else .writeBulk)
      (x.buddy.partition + off * 256) (.bytes (Mem.readN (x.at off) n c.mem)) s with
  | .ok s => some s
  | .error _ => none

/-- Accepted requests of some extents have completed. -/
def dropInflight (ch : Nat) (keys : List Nat) (s : State) : State :=
  keys.foldl (fun s k => s.modChan ch (fun c => c.modExtent k (fun x => { x with inflight := x.inflight - 1 }))) s

/-- A request completes. -/
def finishReq (r : PoolReq) (keys : List Nat) (st : Status) (done result : Nat) (data : List Byte) (s : State) : State :=
  answer r st done result data (dropInflight r.p.dstUnit keys s)

/-- The secondary has been lost (R343): mirror_ok clears, EV_POOL_DEGRADED goes to F1, and the held writes complete on the primary
copy alone. -/
def degrade (ch key : Nat) (s : State) : State :=
  let held := (s.chan ch).pool.waits.filter (fun w => match w with | .secondary k _ _ _ _ _ _ => k == key | _ => false)
  let s := s.modChan ch (fun c =>
    let c := c.modExtent key (fun x => { x with mirrorOk := false, filling := false })
    { c with pool := { c.pool with waits := c.pool.waits.filter (fun w => !held.contains w) } })
  let s := dropReqs (fun k => k == .forward ch (key / 64) (key % 64)) s
  let s := raiseEvent 1 (.poolDegraded (key / 64) (key % 64)) ch s
  held.foldl (fun s w =>
    match w with
    | .secondary _ keys cmd st done result data => (match poolReqOf cmd with
        | some r => finishReq r keys st done result data s
        | none => s)
    | .recall _ _ => s) s

/-- The secondary's answer to the oldest forwarded write of a slot (R343). -/
def forwardAck (ch key : Nat) (st : Status) (s : State) : State :=
  if st ≠ .ok then (if ((s.chan ch).extent key).any (fun x => x.mirrorOk) then degrade ch key s else s)
  else
    match (s.chan ch).pool.waits.find? (fun w => match w with | .secondary k _ _ _ _ _ _ => k == key | _ => false) with
    | some w =>
      let s := s.modChan ch (fun c => { c with pool := { c.pool with waits := c.pool.waits.erase w } })
      (match w with
       | .secondary _ keys cmd st done result data => (match poolReqOf cmd with
           | some r => finishReq r keys st done result data s
           | none => s)
       | .recall _ _ => s)
    | none => s

/-- SECONDARY_ACK_TIMEOUT (R343). -/
def execSecondaryAckTimeout (channel partition slot : Nat) : State → Host.Outcome State Fault Refusal :=
  whenUp (fun s =>
    if (s.chan channel).pool.waits.any (fun w => match w with | .secondary k _ _ _ _ _ _ => k == 64 * partition + slot | _ => false)
    then degrade channel (64 * partition + slot) s else s)

/-- A request that has taken its effect completes, after the secondary's acknowledgement where it wrote a mirrored extent. -/
def settleReq (cmd : Instr) (r : PoolReq) (keys : List Nat) (d : Done) (s : State) : State :=
  let ch := r.p.dstUnit
  let s := s.setChan ch d.c
  let s := if r.op = 33 ∧ r.p.poison ∧ 0 < d.wrote then
      (match keys with
       | k :: _ => (match d.c.extent k with | some x => memPoison ch x.loc.tier (x.at r.off) 1 s | none => s)
       | [] => s)
    else s
  match keys with
  | [] => answer r d.st d.done d.result d.data s
  | k :: _ =>
    match d.c.extent k with
    | none => finishReq r keys d.st d.done d.result d.data s
    | some x =>
      let n := forwardLen x r.off d.wrote
      if n = 0 then finishReq r keys d.st d.done d.result d.data s
      else
        match forward ch k x r.off n (r.op == 33 && r.p.poison) s with
        | some s => s.modChan ch (fun c => { c with pool := { c.pool with
            waits := c.pool.waits ++ [.secondary k keys cmd d.st d.done d.result d.data] } })
        | none => finishReq r keys d.st d.done d.result d.data (degrade ch k s)

/-! ### Leases (R338 to R340) -/

/-- A lease on a line that a range of an extent touches. -/
def leaseMeets (key : Nat) (x : Extent) (off len : Nat) (l : Lease) : Bool :=
  l.partition == key / 64 && l.slot == key % 64 && decide (x.pOff + l.line * 256 < off + max len 1) &&
    decide (off < x.pOff + l.line * 256 + 256)

/-- The leases that hold an access of one range back: every one it touches, but a SHARED one under a read (R339). -/
def blockers (c : Chan) (key off len : Nat) (read : Bool) : List Nat :=
  match c.extent key with
  | none => []
  | some x => (c.pool.leases.filter (fun e => leaseMeets key x off len e.2 && !(read && e.2.state == 1))).map (·.1)

/-- The pool address of a leased line (R329, R338). -/
def lineAddr (c : Chan) (l : Lease) : Nat :=
  l.partition + 256 * ((match c.extent (64 * l.partition + l.slot) with | some x => x.pOff | none => 0) + l.line * 256)

/-- A RECALL goes to the adapter that holds a lease (R339, R341); one that is RECALLING already keeps was_m. -/
def sendRecall (ch id : Nat) (s : State) : State :=
  match tget id (s.chan ch).pool.leases with
  | none => s
  | some l =>
      (s.modChan ch (fun c => { c with pool := { c.pool with leases := tset id { l with state := 3, wasM := l.state == 2 || (l.state == 3 && l.wasM) } c.pool.leases } })).emit
        (.packet .recall ch l.adapter 0 0 0 0 .ok 0 (.bytes (poolBlock 21 0 (lineAddr (s.chan ch) l) 0 256 0 0)))

/-- A lease is recalled before an access touches its line, once (R339). -/
def recallLease (ch id : Nat) (s : State) : State :=
  match tget id (s.chan ch).pool.leases with
  | none => s
  | some l => if l.state = 3 then s else sendRecall ch id s

/-- The leases an accepted request waits for. -/
def reqBlockers (c : Chan) (r : PoolReq) (keys : List Nat) : List Nat :=
  let reads := r.op == 32 || r.op == 2 || (r.op == 3 && r.b.scalar)
  match keys, r.src with
  | [k], _ => if 16 ≤ r.op ∧ r.op < 32 then
      (if r.op = 16 ∨ r.op = 17 then (blockers c k r.off r.len false).filter (fun i => match tget i c.pool.leases with
        | some l => l.state == 3 | none => false) else [])
    else blockers c k r.off r.len reads
  | k :: j :: _, some (_, so) => blockers c k r.off r.len reads ++ blockers c j so r.len true
  | _, _ => []

/-- The slots of an accepted request. -/
def reqKeys (c : Chan) (r : PoolReq) : List Nat :=
  ((c.slotFor r.part r.off r.len).map (·.1)).toList ++ (match r.src with
    | some (sp, so) => ((c.slotFor sp so r.len).map (·.1)).toList
    | none => [])

/-- The line of a request within an extent. -/
def lineOf (x : Extent) (off : Nat) : Nat := (off - x.pOff) / 256

/-- The lease a request's line has. -/
def leaseOn (c : Chan) (key line : Nat) : Option (Nat × Lease) :=
  c.pool.leases.find? (fun e => e.2.partition == key / 64 && e.2.slot == key % 64 && e.2.line == line)

/-- When a lease taken now ends (R338). -/
def leaseExpiry (ch : Nat) (s : State) : Nat := s.now + chanField ch 0x20000 0 10 s * 1000000

def Chan.setLease (c : Chan) (id : Nat) (l : Lease) : Chan := { c with pool := { c.pool with leases := tset id l c.pool.leases } }

/-- An acquire (R338): the response carries the line. Only WRITEBACK turns MODIFIED into SHARED. -/
def acquire (cmd : Instr) (r : PoolReq) (key : Nat) (x : Extent) (s : State) : State :=
  let ch := r.p.dstUnit
  let c := s.chan ch
  let line := lineOf x r.off
  let a := x.base + line * 256
  if !(s.part r.part).leaseEn then finishReq r [key] .notPermitted 0 0 [] s
  else if (badOff c a 256 true).isSome then finishReq r [key] .poisoned 0 0 [] s
  else
    let held : Option (Nat × Lease) := leaseOn c key line
    let id? : Option Nat := match held with
      | some e => some e.1
      | none => firstFree (c.pool.leases.map (fun (e : Nat × Lease) => e.1)) 0 (c.pool.leases.length + 1)
    match id? with
    | none => finishReq r [key] .leaseFull 0 0 [] s
    | some id =>
      if 262144 ≤ id then finishReq r [key] .leaseFull 0 0 [] s
      else
        let l : Lease := ⟨key / 64, key % 64, line, r.p.srcFid, if r.op = 17 ∨ held.any (fun (e : Nat × Lease) => e.2.state == 2) then 2 else 1, false, false, leaseExpiry ch s⟩
        settleReq cmd r [key] ⟨c.setLease id l, .ok, 256, 0, Mem.readN a 256 c.mem, 0⟩ s

/-- A lease message for a line without its lease is discarded and counted (R339). -/
def lateLease (r : PoolReq) (key : Nat) (s : State) : State :=
  let s := if r.op = 20 then s else s.modChan r.p.dstUnit (fun c =>
    ({ c with pool := { c.pool with lateWb := wrap64 (c.pool.lateWb + 1) } }).modExtent key (fun x =>
      if x.state = 2 then { x with late := x.late + 1 } else x))
  finishReq r [key] (statusOfCode (Config.lateStatus r.op)) 0 0 [] s

/-- Poison of a lease's line (R340), forwarded to a secondary. -/
def poisonLine (ch : Nat) (l : Lease) (s : State) : State :=
  let key := 64 * l.partition + l.slot
  match (s.chan ch).extent key with
  | none => s
  | some x =>
    let s := s.modChan ch (fun c => (c.poisonRange (x.base + l.line * 256) 256).modExtent key (fun x =>
      if x.state = 2 then { x with poisonedN := x.poisonedN + 1 } else x))
    let n := forwardLen x (x.pOff + l.line * 256) 256
    if n = 0 then s else (forward ch key x (x.pOff + l.line * 256) n true s).getD (degrade ch key s)

/-- A lease ends in the MODIFIED state. -/
def Lease.dirty (l : Lease) : Bool := l.state == 2 || (l.state == 3 && l.wasM)

/-- Leases end at once for a cause (R340): 0 expiry, 1 recall timeout, 2 link drop. Lines held MODIFIED become poisoned, with one event
for each partition; the rest are released. -/
def endLeases (ch cause : Nat) (ids : List Nat) (s : State) : State :=
  let ls := ids.filterMap (fun i => tget i (s.chan ch).pool.leases)
  let s := ls.foldl (fun s l => if l.dirty then poisonLine ch l s else s) s
  let s := s.modChan ch (fun c => { c with pool := { c.pool with leases := c.pool.leases.filter (fun e => !ids.contains e.1) } })
  let bad := ls.filter Lease.dirty
  ((bad.map (fun l => l.partition)).dedup).foldl (fun s p =>
    let mine := bad.filter (fun l => l.partition == p)
    poolEvent (.poolPoison ((mine.head?.map (fun l => l.adapter)).getD 0) p (Config.poisonCause cause) mine.length) ch (s.part p).ownerFn s) s

/-- An accepted request: it waits for a recall, or takes its effect (R339). `more` takes up the requests that wait for leases that the
request ends. -/
def poolTry (more : Nat → List Nat → State → State) (cmd : Instr) (r : PoolReq) (s : State) : State :=
  let ch := r.p.dstUnit
  let c := s.chan ch
  let keys := reqKeys c r
  match reqBlockers c r keys with
  | id :: ids =>
    let s := (id :: ids).foldl (fun s i => recallLease ch i s) s
    s.modChan ch (fun c => { c with pool := { c.pool with waits := c.pool.waits ++ [.recall id cmd] } })
  | [] =>
    match keys with
    | [] => answer r .accessViolation 0 0 [] s
    | key :: rest =>
      match c.extent key with
      | none => finishReq r keys .accessViolation 0 0 [] s
      | some x =>
        if 16 ≤ r.op ∧ r.op < 32 then
          if r.op = 16 ∨ r.op = 17 then acquire cmd r key x s
          else
            match leaseOn c key (lineOf x r.off) with
            | none => lateLease r key s
            | some (id, l) =>
              let a := x.base + l.line * 256
              if r.op = 20 then
                settleReq cmd r [key] ⟨c.setLease id { l with expiry := leaseExpiry ch s }, .ok, 256, 0, [], 0⟩ s
              else
                let full := r.data.length == 256
                let c := if full then c.poke a r.data else c
                let c := if full ∧ x.state = 2 then c.setExtent key { x with written := x.written + 1 } else c
                let w := if full then 256 else 0
                let r' : PoolReq := { r with off := x.pOff + l.line * 256 }
                if r.op = 18 then
                  settleReq cmd r' [key] ⟨c.setLease id { l with state := if l.state = 3 then 3 else 1, wasM := false, wb := true }, .ok, w, 0, [], w⟩ s
                else
                  let c := if !full ∧ !l.wb ∧ x.state = 2 then c.modExtent key (fun x => { x with released := x.released + 1 }) else c
                  let s := if full ∨ !l.dirty then s.setChan ch c else poisonLine ch l (s.setChan ch c)
                  let c := s.chan ch
                  let s := settleReq cmd r' [key] ⟨{ c with pool := { c.pool with leases := tdel id c.pool.leases } }, .ok, w, 0, [], w⟩ s
                  more ch [id] s
        else
          let a2 := match rest, r.src with
            | j :: _, some (_, so) => (match c.extent j with | some y => y.at so | none => 0)
            | _, _ => 0
          settleReq cmd r keys (poolEffect r (x.at r.off) a2 s.freeIx c) s.advanceFree

/-- The requests that wait for leases that have ended go on, in the order they came. -/
def leasesGone : Nat → Nat → List Nat → State → State
  | 0, _, _, s => s
  | n + 1, ch, ids, s =>
    let mine (w : PoolWait) : Bool := match w with | .recall i _ => ids.contains i | .secondary _ _ _ _ _ _ _ => false
    let ws := (s.chan ch).pool.waits.filter mine
    let s := s.modChan ch (fun c => { c with pool := { c.pool with waits := c.pool.waits.filter (fun w => !mine w) } })
    ws.foldl (fun s w =>
      match w with
      | .recall _ cmd => (match poolReqOf cmd with | some r => poolTry (leasesGone n) cmd r s | none => s)
      | .secondary _ _ _ _ _ _ _ => s) s

/-- A request is taken up by its channel (R325, R326, R330). -/
def poolTake (cmd : Instr) (s : State) : State :=
  match poolReqOf cmd with
  | none => s
  | some r =>
    if !blkOk r then answer r .paramInvalid 0 0 [] s
    else
      match checkReq r s with
      | .error st =>
        let s := if st = .accessViolation then violate r s else if st = .extentRevoked then countRefused r s else s
        answer r st 0 0 [] s
      | .ok keys =>
        if r.len = 0 then answer r .ok 0 (if r.op = 3 ∧ r.b.scalar then Config.openNat s.freeIx % 2 ^ 128 else 0) [] s.advanceFree
        else
          let s := keys.foldl (fun s k => s.modChan r.p.dstUnit (fun c => c.modExtent k (fun x => { x with inflight := x.inflight + 1 }))) s
          poolTry (leasesGone ((s.chan r.p.dstUnit).pool.waits.length + 1)) cmd r s

/-- A channel has room for one more operation: fewer than 256 are in flight (R335). -/
def poolRoom (ch : Nat) (s : State) : Bool := decide ((s.chan ch).pool.waits.length < 256)

/-- A request arrives at a channel: it waits its turn behind 256 in flight (R335). A message that ends or extends a lease is no operation of
its own and never waits (DESIGN CHOICE, log entry 121). -/
def poolArrive (cmd : Instr) (s : State) : State :=
  match poolReqOf cmd with
  | none => s
  | some r =>
    let ch := r.p.dstUnit
    if (18 ≤ r.op ∧ r.op ≤ 20) ∨ (poolRoom ch s ∧ (s.chan ch).pool.backlog.isEmpty) then poolTake cmd s
    else s.modChan ch (fun c => { c with pool := { c.pool with backlog := c.pool.backlog ++ [cmd] } })

/-- Requests that wait are taken up in order while there is room (R335). -/
def poolDrain : Nat → Nat → State → State
  | 0, _, s => s
  | n + 1, ch, s =>
    match (s.chan ch).pool.backlog with
    | [] => s
    | cmd :: r =>
      if poolRoom ch s then
        poolDrain n ch (poolTake cmd (s.modChan ch (fun c => { c with pool := { c.pool with backlog := r } })))
      else s

/-- A pool operation packet (R330): the port complex takes none. -/
def poolPacket (cmd : Instr) (p : Pkt) : State → Host.Outcome State Fault Refusal :=
  whenUp (arrive p (fun s => if p.dstUnit = 8 then badPacket p.port s else poolArrive cmd s))

/-- FILL (R331). -/
def execFill (p : Pkt) (b : PoolBlk) : State → Host.Outcome State Fault Refusal := poolPacket (.fill p b) p
/-- COPY (R331). -/
def execCopy (p : Pkt) (b : PoolBlk) : State → Host.Outcome State Fault Refusal := poolPacket (.copy p b) p
/-- COMPARE (R331). -/
def execCompare (p : Pkt) (b : PoolBlk) : State → Host.Outcome State Fault Refusal := poolPacket (.compare p b) p
/-- REDUCE (R331). -/
def execReduce (p : Pkt) (b : PoolBlk) : State → Host.Outcome State Fault Refusal := poolPacket (.reduce p b) p
/-- ATOMIC_ADD (R331). -/
def execAtomicAdd (p : Pkt) (b : PoolBlk) : State → Host.Outcome State Fault Refusal := poolPacket (.atomicAdd p b) p
/-- CAS (R331). -/
def execCas (p : Pkt) (b : PoolBlk) : State → Host.Outcome State Fault Refusal := poolPacket (.cas p b) p
/-- ACQUIRE_S (R338). -/
def execAcquireS (p : Pkt) (b : PoolBlk) : State → Host.Outcome State Fault Refusal := poolPacket (.acquireS p b) p
/-- ACQUIRE_M (R338). -/
def execAcquireM (p : Pkt) (b : PoolBlk) : State → Host.Outcome State Fault Refusal := poolPacket (.acquireM p b) p
/-- WRITEBACK (R338). -/
def execWriteback (p : Pkt) (b : PoolBlk) (data : List Byte) : State → Host.Outcome State Fault Refusal :=
  poolPacket (.writeback p b data) p
/-- RELEASE (R338). -/
def execRelease (p : Pkt) (b : PoolBlk) (data : List Byte) : State → Host.Outcome State Fault Refusal :=
  poolPacket (.release p b data) p
/-- RENEW (R338). -/
def execRenew (p : Pkt) (b : PoolBlk) : State → Host.Outcome State Fault Refusal := poolPacket (.renew p b) p

/-- Leases end and what waited for them goes on. -/
def endAndWake (ch cause : Nat) (ids : List Nat) (s : State) : State :=
  leasesGone ((s.chan ch).pool.waits.length + 1) ch ids (endLeases ch cause ids s)

/-- LEASE_EXPIRY (R340). -/
def execLeaseExpiry (channel lease : Nat) : State → Host.Outcome State Fault Refusal :=
  whenUp (fun s => if (tget lease (s.chan channel).pool.leases).isSome then endAndWake channel 0 [lease] s else s)

/-- RECALL_TIMEOUT (R339). -/
def execRecallTimeout (channel lease : Nat) : State → Host.Outcome State Fault Refusal :=
  whenUp (fun s =>
    match tget lease (s.chan channel).pool.leases with
    | some l => if l.state = 3 then endAndWake channel 1 [lease] s else s
    | none => s)

/-- An adapter is PEER_DOWN: all its leases end at once (R340). -/
def adapterLost (fid : Nat) (s : State) : State :=
  (List.range 8).foldl (fun s ch =>
    let ids := ((s.chan ch).pool.leases.filter (fun e => e.2.adapter == fid)).map (·.1)
    if ids.isEmpty then s else endAndWake ch 2 ids s) s

/-! ### Revocation (R341) -/

/-- OP_EXTENT_REVOKE (R341). -/
def execOpExtentRevoke (d : Hdr) (partition slot : Nat) : State → Host.Outcome State Fault Refusal :=
  accept 0x52 d (fun fn t s =>
    let ch := (s.part partition).poolChannel
    match (s.chan ch).extent (64 * partition + slot) with
    | some x =>
      if x.state = 1 then
        let s := s.modChan ch (fun c => c.setExtent (64 * partition + slot)
          { x with state := 2, drained := x.inflight, refused := 0, recalled := 0, written := 0, released := 0, poisonedN := 0, late := 0
                   recallsSent := false })
        addOp 0x52 d fn t [] true (.revoke ch partition slot s.now) s
      else complete d 0x52 .extentState [] [] s
    | none => complete d 0x52 .extentState [] [] s)

/-- The leases of a slot. -/
def slotLeases (c : Chan) (key : Nat) : List Nat :=
  (c.pool.leases.filter (fun e => e.2.partition == key / 64 && e.2.slot == key % 64)).map (·.1)

/-- EXTENT_DRAINED (R341): nothing is in flight, forwarding stops and the leases are recalled. -/
def extentDrained (ch key : Nat) (s : State) : State :=
  match (s.chan ch).extent key with
  | none => s
  | some x =>
    if x.state ≠ 2 ∨ x.inflight ≠ 0 ∨ x.recallsSent then s
    else
      let ids := slotLeases (s.chan ch) key
      let s := s.modChan ch (fun c => c.setExtent key { x with recallsSent := true, recalled := ids.length, mirrorOk := false, filling := false })
      ids.foldl (fun s i => sendRecall ch i s) s

def execExtentDrained (channel partition slot : Nat) : State → Host.Outcome State Fault Refusal :=
  whenUp (extentDrained channel (64 * partition + slot))

def sat16 (n : Nat) : Nat := satTo 65535 n

/-- EXTENT_ZERO_FILL_DONE (R341): the slot is REVOKED, its event is raised and the descriptor completes. -/
def zeroFillDone (ch key : Nat) (s : State) : State :=
  match (s.chan ch).extent key with
  | none => s
  | some x =>
    if x.state ≠ 2 ∨ !x.recallsSent ∨ !(slotLeases (s.chan ch) key).isEmpty then s
    else
      let p := key / 64
      let k := key % 64
      let s := s.modChan ch (fun c => (c.zeroExtent x).setExtent key { x with state := 3 })
      let s := poolEvent (.extentRevoked p k (sat16 x.drained) (sat16 x.refused) (sat16 x.recalled) (sat16 x.written) (sat16 x.released)
        (sat16 x.poisonedN) (sat16 x.late)) ch (s.part p).ownerFn s
      match s.ops.find? (fun o => match o.kind with | .revoke c a b _ => c == ch && a == p && b == k | _ => false) with
      | some op =>
        (match op.kind with
         | .revoke _ _ _ t0 => endOp op .ok [s.now - t0, x.recalled, x.poisonedN] [] s
         | _ => s)
      | none => s

def execExtentZeroFillDone (channel partition slot : Nat) : State → Host.Outcome State Fault Refusal :=
  whenUp (zeroFillDone channel (64 * partition + slot))

/-! ### Rebuild (R344) -/

/-- The key of a slot named in the buddy form. -/
def buddyKey (b : BuddySlot) : Nat := 64 * b.partition + b.slot

/-- A source on this device becomes PRIMARY with the target as buddy. -/
def sourcePrimary (source target : BuddySlot) (s : State) : State :=
  if source.fabricId = s.fid then
    s.modChan source.channel (fun c => c.modExtent (buddyKey source) (fun x =>
      { x with mirror := 1, mirrorOk := true, buddy := target, mark := 0, filling := true }))
  else s

/-- OP_REBUILD (R344). -/
def execOpRebuild (d : Hdr) (partition slot : Nat) (source : BuddySlot) (srcOff srcLen : Nat) : State → Host.Outcome State Fault Refusal :=
  accept 0x53 d (fun fn t s =>
    let ch := (s.part partition).poolChannel
    match (s.chan ch).extent (64 * partition + slot) with
    | some x =>
      if x.state = 1 ∧ x.mirror = 0 ∧ x.pOff = srcOff ∧ x.length = srcLen then
        let s := s.modChan ch (fun c => c.setExtent (64 * partition + slot) { x with mirror := 3, mirrorOk := false, mark := 0, buddy := source })
        addOp 0x53 d fn t [] true (.rebuild ch partition slot) (sourcePrimary source ⟨s.fid, ch, partition, slot⟩ s)
      else complete d 0x53 .extentState [] [] s
    | none => complete d 0x53 .extentState [] [] s)

/-- The rebuild of a target has copied its last line. -/
def rebuildDone (ch key : Nat) (x : Extent) (s : State) : State :=
  let s := s.modChan ch (fun c => c.setExtent key { x with mirror := 2, mirrorOk := true, mark := x.length })
  let s := raiseEvent 1 (.rebuildDone (key / 64) (key % 64) x.length) ch s
  endOps (fun o => o.kind == .rebuild ch (key / 64) (key % 64)) .ok s

/-- REBUILD_COPY (R344): at the source the next line goes to the target, after a recall of its lease (R339); at the target the next line
has come. -/
def rebuildCopy (ch key : Nat) (s : State) : State :=
  match (s.chan ch).extent key with
  | none => s
  | some x =>
    if x.mirror = 3 ∧ x.state = 1 then
      if x.length ≤ x.mark + 256 then rebuildDone ch key x s
      else s.modChan ch (fun c => c.setExtent key { x with mark := x.mark + 256 })
    else if x.mirror = 1 ∧ x.filling ∧ x.mark < x.length then
      match blockers (s.chan ch) key (x.pOff + x.mark) 256 true with
      | id :: ids => (id :: ids).foldl (fun s i => recallLease ch i s) s
      | [] =>
        let bad := (badOff (s.chan ch) (x.base + x.mark) 256 true).isSome
        match forward ch key x (x.pOff + x.mark) 256 bad s with
        | none => degrade ch key s
        | some s => s.modChan ch (fun c => c.setExtent key { x with mark := x.mark + 256, filling := decide (x.mark + 256 < x.length) })
    else s

def execRebuildCopy (channel partition slot : Nat) : State → Host.Outcome State Fault Refusal :=
  whenUp (rebuildCopy channel (64 * partition + slot))

/-- The source of a rebuild is PEER_DOWN (R344): the target is filled with zero and is mirror NONE again. -/
def rebuildLost (fid unit : Nat) (s : State) : State :=
  (List.range 8).foldl (fun s ch =>
    ((s.chan ch).pool.extents.filter (fun e => e.2.mirror == 3 && e.2.buddy.fabricId == fid && e.2.buddy.channel == unit)).foldl (fun s e =>
      let s := s.modChan ch (fun c => (c.zeroExtent e.2).setExtent e.1 { e.2 with mirror := 0, mirrorOk := false, mark := 0 })
      endOps (fun o => o.kind == .rebuild ch (e.1 / 64) (e.1 % 64)) .peerUnreachable s) s) s

/-! ### OP_POOL_OP (R334) -/

/-- OP_POOL_OP (R334). -/
def execOpPoolOp (d : Hdr) (op targetFid targetChannel resultAddr : Nat) (b : PoolBlk) : State → Host.Outcome State Fault Refusal :=
  accept 0x54 d (fun fn ch s =>
    if 5 < op then complete d 0x54 .paramInvalid [0, 0] [] s
    else
      match rangeCheck fn resultAddr 32 s with
      | some st => complete d 0x54 st [0, 0] [] s
      | none =>
        match sendReq ch targetFid targetChannel fn (.poolOp d.ring d.tag) .poolOp 0
            (.bytes (poolBlock op (b.elem + 4 * b.rop + (if b.scalar then 16 else 0) + (if b.wide then 32 else 0)) (b.dstPart + 256 * b.dst)
              (b.srcPart + 256 * b.src) b.len b.operand.toNat b.operand2.toNat)) s with
        | .error st => complete d 0x54 st [0, 0] [] s
        | .ok s => addOp 0x54 d fn ch [(resultAddr, 32)] true (.poolOp ch 0 resultAddr) s)

/-- The response to an OP_POOL_OP (R333, R334). -/
def poolOpDone (ring tag : Nat) (st : Status) (done result : Nat) (s : State) : State :=
  match opOf ring tag s with
  | some op =>
    (match op.kind with
     | .poolOp _ _ addr => endOp op st [done, result % 2 ^ 64] [(addr, .bytes (poolRspBytes st done result))] s
     | _ => s)
  | none => s

end Sys2Proof.Machine
end

