-- ==== Sys2Proof/Machine/Finish.lean ====
section
/-! DEFINITION. The ends of work inside a channel: page moves and spills (R95), fetches (R97, R98) and BULK units (R186, R187, R488). -/

namespace Sys2Proof.Machine

open Sys2Proof

/-- PAGE_MOVE_COMPLETE (R95): the copy of a MOVING or SPILLING page is written. -/
def execPageMoveComplete (channel desc : Nat) : State → Host.Outcome State Fault Refusal :=
  whenUp (fun s => (answerReqs (fun k => k == .spillWrite channel desc) s).modChan channel (moveDone desc))

/-- FETCH_COMPLETE (R97, R98): the page is resident or LOST, and the sequences that wait for it look again. -/
def execFetchComplete (channel desc : Nat) (e : Envelope) : State → Host.Outcome State Fault Refusal :=
  whenUp (fun s => wakeHeld channel (fetchDone channel desc false e s))

/-- A unit that holds its tiles and runs. -/
def runningUnit (c : Chan) (unit : Nat) : Option BulkUnit :=
  c.bulk.find? (fun u => u.id == unit && u.onTiles && !u.restoring)

/-- What the end of a unit's work does. -/
def bulkWorkDone (ch : Nat) (w : BulkWork) (poisoned : Bool) (s : State) : State :=
  match w with
  | .append ring tag a prefill start new copies => appendUnitDone ch ring tag a prefill start new copies poisoned s
  | .modelLayer run _ => modelUnitDone ch run poisoned s
  | .lensWrite id => lensUnitDone ch id poisoned s

/-- What a unit waits for (R97, R181): the pages a prefill's layer reads that are not resident; none where it may end. -/
def unitWaits (c : Chan) (w : BulkWork) : Option (Nat × List Nat) :=
  match w with
  | .append _ _ a true start new _ =>
    let j := hostJob a start new
    if jobReady c j == .held then some (a.handle.index, (jobReads c j).filter (fun d => (c.page d).residency == .spilled)) else none
  | _ => none

/-- A BULK unit ends: a dispatch point (R186). A prefill whose layer reads pages not resident has them fetched and does not end (R97). -/
def bulkUnitComplete (ch unit : Nat) (poisoned : Bool) (s : State) : State :=
  match runningUnit (s.chan ch) unit with
  | none => s
  | some u =>
    match unitWaits (s.chan ch) u.work with
    | some (i, ds) => startFetches ch i ds s
    | none =>
    let s := s.modChan ch (fun c => { c with bulk := c.bulk.filter (fun v => v.id != unit) })
    let s := countMiss ch 0 0 (missed u.deadline s.now) s
    let s := if poisoned then
        let tier := 1 + Config.openNat s.freeIx % 2
        let addr := Config.openNat (s.freeIx + 1)
        memPoison ch tier addr 1 (s.modChan ch (fun c => { c with bad := ⟨tier, addr / 16384⟩ :: c.bad })).advanceFree.advanceFree
      else s
    dispatchChan ch (bulkWorkDone ch u.work poisoned s)

/-- BULK_UNIT_COMPLETE (R186). -/
def execBulkUnitComplete (channel unit : Nat) (poisoned : Bool) : State → Host.Outcome State Fault Refusal :=
  whenUp (bulkUnitComplete channel unit poisoned)

end Sys2Proof.Machine
end

