-- ==== Sys2Proof/Machine/Queue.lean ====
section
/-! DEFINITION. Ring pairs, doorbells, intake with Iris metering, registered buffers, completions of timed operations, and
OP_WAIT_COUNT (R336, R337, R368 to R390, R408 to R413). -/

namespace Sys2Proof.Machine

open Sys2Proof

/-! ### Register answers (R530, R532) -/

/-- The answer to a register access of a requester on the fabric; service firmware and the BMC port get none. -/
def answerReg (r : Requester) (st : Status) (p : Payload) (s : State) : State :=
  match r with
  | .fn n => s.emit (.packet .regRsp 8 (s.fn n).adapter 0 0 n ((s.fn n).resetGen % 256) st 0 p)
  | .endpoint f => s.emit (.packet .regRsp 8 f 0 0 0 0 st 0 p)
  | .service => s
  | .bmc => s

/-- An access that R532 does not permit. -/
def denyReg (r : Requester) (s : State) : State :=
  answerReg r .notPermitted .empty { s with mgmt := { s.mgmt with regDeny := wrap64 (s.mgmt.regDeny + 1) } }

/-- The requester is function n or F0. -/
def fnOrF0 (r : Requester) (n : Nat) : Bool := r == .fn 0 || r == .fn n

/-! ### Ring faults and host reads of ring memory (R377, R390) -/

/-- A ring fault (R390): ERROR, its cause, and EV_RING_FAULT to the owner. -/
def ringFault (ring err : Nat) (s : State) : State :=
  let r := s.ring ring
  raiseEvent r.owner (.ringFault ring err) 8 (s.setRing ring { r with state := .error, err := err })

/-- The device reads ring memory of an ACTIVE ring whose tail covers entries not read yet, one read of up to 16 entries at a time (R377). -/
def ringRead (ring : Nat) (s : State) : State :=
  let r := s.ring ring
  if r.state == .active && decide (r.sqHead < r.sqTail) && !s.reqs.any (fun q => q.kind == .ringMem ring) then
    match sendReq 8 (s.fn r.owner).adapter 0 0 (.ringMem ring) .readReq (r.sqBase + r.sqHead % 2 ^ r.sqExp * 64)
        (.ask (64 * min 16 (min (r.sqTail - r.sqHead) (2 ^ r.sqExp - r.sqHead % 2 ^ r.sqExp)))) s with
    | .ok s => s
    | .error _ => s
  else s

/-! ### Doorbells (R373 to R376) -/

/-- take_sq_tail of R375; an event ring has none (R372). -/
def takeSqTail (ring v : Nat) (s : State) : State :=
  let r := s.ring ring
  if r.sqExp = 0 ∨ v ≤ r.sqTail then s
  else if 2 ^ r.sqExp < v - r.sqHead then ringFault ring 3 s
  else ringRead ring (s.setRing ring { r with sqTail := v })

/-- take_cq_head of R375. -/
def takeCqHead (ring v : Nat) (s : State) : State :=
  let r := s.ring ring
  if v ≤ r.cqHead then s
  else if r.cqPosted < v then ringFault ring 4 s
  else ringRoom ring (s.setRing ring { r with cqHead := v })

/-- The ACTIVE ring pair of a function on a doorbell line (R373). -/
def ringOfLine (fn line : Nat) (s : State) : Option Nat :=
  (s.rings.find? (fun e => e.2.owner == fn && e.2.line == line && e.2.state == .active)).map (·.1)

/-- Traffic of a function is taken only from its adapter and while the function is enabled (R398). -/
def fromFunction (fn srcFid : Nat) (s : State) : Bool := (s.fn fn).enable && (s.fn fn).adapter == srcFid

/-- A doorbell message taken (R374 to R376, R404 item 1). -/
def notifyDb (srcFid fn line word value : Nat) (s : State) : State :=
  if !fromFunction fn srcFid s then s.modFn fn (fun f => { f with misroute := wrap64 (f.misroute + 1) })
  else if (s.fn fn).resetRun.isSome then s
  else if 1024 ≤ s.mgmt.notifies then { s with mgmt := { s.mgmt with dbDropped := wrap64 (s.mgmt.dbDropped + 1), pollSoon := true } }
  else
    let s := { s with mgmt := { s.mgmt with notifies := s.mgmt.notifies + 1 } }
    match ringOfLine fn line s with
    | none => s
    | some ring => if word = 0 then takeSqTail ring value s else if word = 1 then takeCqHead ring value s else s

/-- A doorbell message is for the port complex (R436). -/
def doorbell (p : Pkt) (fn line word value : Nat) (s : State) : State :=
  if p.dstUnit ≠ 8 then badPacket p.port s else notifyDb p.srcFid fn line word value s

/-- NOTIFY_DB (R375, R376, R436). -/
def execNotifyDb (p : Pkt) (fn line word value : Nat) : State → Host.Outcome State Fault Refusal :=
  whenUp (arrive p (doorbell p fn line word value))

/-- Both words of one line of a poll (R376). -/
def pollOne (s : State) (w : Nat × Nat × Nat) : State :=
  let act (f : State → State) (s : State) : State := if (s.ring w.1).state == .active then f s else s
  act (takeCqHead w.1 w.2.2) (act (takeSqTail w.1 w.2.1) s)

/-- DB_POLL (R376): the words read for each ACTIVE ring pair. -/
def execDbPoll (words : List (Nat × Nat × Nat)) : State → Host.Outcome State Fault Refusal :=
  whenUp (fun s => words.foldl pollOne { s with mgmt := { s.mgmt with pollSoon := false } })

/-! ### Iris (R408 to R412) -/

/-- Bytes of a descriptor by its size code. -/
def descBytes (size : Nat) : Nat := 64 * 2 ^ size

/-- What meters a descriptor: a bucket pair, or the class shaper of its egress port (R408). -/
inductive Meter where
  | pair (n : Nat)
  | shaper (ix : Nat)
deriving DecidableEq, Repr

/-- The egress port of a ring's descriptors (R408). -/
def egressOf (r : Ring) : Nat := if r.target < 8 then r.target else 8

/-- The meter of a descriptor on a ring, and whether its flow has another owner (R408). -/
def meterOf (r : Ring) (d : Fetched) (s : State) : Meter × Bool :=
  let f := s.flow d.flow
  if f.owner ≠ r.owner then (.shaper (egressOf r * 8), true)
  else if f.mapped then (.pair f.pair, false)
  else (.shaper (egressOf r * 8 + f.cls), false)

/-- The cost of a descriptor (R409). -/
def costOf (descriptors : Bool) (d : Fetched) : Nat := if descriptors then 1 else descBytes d.size + d.rangeBytes

/-- The width of a port in lanes that its rate follows (R412): x4 when it is not trained. -/
def portWidth (n : Nat) (s : State) : Nat := if (s.port n).width = 0 then 4 else (s.port n).width

/-- What a release takes from a class credit, in units of 1 / (2 × 10^8) byte (R412): cost × (R − idle) / R. -/
def creditCost (ix cost : Nat) (s : State) : Int :=
  let w := portWidth (ix / 8) s
  (cost : Int) * 1000 * ((50000 * w : Nat) - ((s.shaper ix).idle : Int)) * ((4 / w : Nat) : Int)

/-- The outcome of metering a descriptor. -/
inductive Admit where
  | release (s : State)
  | reject (s : State)
  | hold (s : State)

/-- admit of R411, and the class shapers of R412. -/
def admitMeter (r : Ring) (d : Fetched) (s : State) : Admit :=
  match (meterOf r d s).1 with
  | .pair n =>
    let p := s.pair n
    let cost := costOf p.params.descriptors d
    let lim (b : Nat) : Int := ((min cost b : Nat) : Int) * 1000
    if lim p.params.cbs ≤ p.c ∧ lim p.params.pbs ≤ p.p then
      .release (s.setPair n { p with c := p.c - (cost : Int) * 1000, p := p.p - (cost : Int) * 1000, rel := wrap64 (p.rel + cost) })
    else if p.params.police then .reject (s.setPair n { p with rej := wrap64 (p.rej + 1) })
    else .hold (if r.metered then s else s.setPair n { p with heldCount := wrap64 (p.heldCount + 1) })
  | .shaper ix =>
    let p := s.shaper ix
    if p.idle = 200000 ∨ p.idle ≠ 0 ∧ 0 ≤ p.credit then
      .release (s.setShaper ix { p with credit := p.credit - creditCost ix (costOf false d) s })
    else .hold s

/-! ### Intake (R377 to R381, R388) -/

/-- The entries a size code stands for (R377). -/
def sizeEntries (size : Nat) : Nat := if size = 0 then 1 else if size = 1 then 2 else 4

/-- The device reads one descriptor: the tail covers it, there is completion credit, and its framing holds (R377, R381, R388). -/
def fetchOne (ring : Nat) (d : Fetched) (s : State) : Option State :=
  let r := s.ring ring
  let n := sizeEntries d.size
  if r.state ≠ .active ∨ (s.fn r.owner).resetRun.isSome then none
  else if r.sqTail ≤ r.sqHead then none
  else if 3 ≤ d.size ∨ r.sqHead % n ≠ 0 then some (ringFault ring 5 s)
  else if r.sqTail < r.sqHead + n then none
  else if 2 ^ r.cqExp < r.cqPosted - r.cqHead + r.reserved + needOf d.opcode then none
  else some (s.setRing ring { r with sqHead := wrap64 (r.sqHead + n), held := r.held ++ [d] })

/-- The descriptors of one host read, at most 16 entries (R377). -/
def fetchAll (ring : Nat) : Nat → List Fetched → State → State
  | _, [], s => s
  | left, d :: r, s =>
    if left < sizeEntries d.size then s
    else
      match fetchOne ring d s with
      | some s => fetchAll ring (left - sizeEntries d.size) r s
      | none => s

/-- A descriptor of a ring waits for query slots, or as a Lens write for the declaration of a generation (R354, R366). -/
def lensHolds (ring : Nat) (s : State) : Bool :=
  (List.range 8).any (fun n => (s.chan n).lens.waiting.any (fun e => (lensCmdHdr e.cmd).any (fun d => d.ring == ring)))

/-- Whether the descriptor at the head of a ring must wait for earlier ones: a fence, an OP_WAIT_COUNT, or a descriptor that waits for
resources (R379). -/
def headWaits (ring : Nat) (d : Fetched) (s : State) : Bool :=
  let r := s.ring ring
  (d.fence && !r.accepted.isEmpty) || r.accepted.any (fun a => a.opcode == 0x55) || lensHolds ring s

/-- Items 1 and 2 of R380, then items 3 to 5. -/
def headCheck (ring : Nat) (d : Fetched) (s : State) : Option Status :=
  match opRow d.opcode with
  | none => some .opcodeInvalid
  | some row =>
    if descBytes d.size ≠ row.size then some .descSize
    else commonCheck d.opcode { ring := ring, tag := d.tag, irq := d.irq, vector := d.vector, deadline := d.deadline, flow := d.flow } s

def hdrOf (ring : Nat) (d : Fetched) : Hdr :=
  { ring := ring, tag := d.tag, irq := d.irq, vector := d.vector, deadline := d.deadline, flow := d.flow }

/-- The head of a ring leaves for acceptance. -/
def leaveHead (ring : Nat) (d : Fetched) (s : State) : State :=
  s.modRing ring (fun r => { r with held := r.held.drop 1, metered := false, accepted := r.accepted ++ [d] })

/-- A foreign flow is counted once for a descriptor (R408). -/
def countForeign (r : Ring) (d : Fetched) (s : State) : State :=
  if (meterOf r d s).2 && !r.metered then { s with foreign := wrap64 (s.foreign + 1) } else s

/-- The head of a ring goes on, if it may (R379, R380, R411); none when it waits. -/
def admitHead (ring : Nat) (s : State) : Option State :=
  let r := s.ring ring
  match r.held with
  | [] => none
  | d :: _ =>
    if headWaits ring d s then none
    else
      match headCheck ring d s with
      | some st => some (complete (hdrOf ring d) d.opcode st [] [] (leaveHead ring d s))
      | none =>
        match admitMeter r d (countForeign r d s) with
        | .release s => some (leaveHead ring d s)
        | .reject s => some (complete (hdrOf ring d) d.opcode .rateExceeded [] [] (leaveHead ring d s))
        | .hold _ => none

/-- A head that Iris holds is counted once (R409). -/
def markHeld (ring : Nat) (s : State) : State :=
  let r := s.ring ring
  match r.held with
  | [] => s
  | d :: _ =>
    if headWaits ring d s || (headCheck ring d s).isSome then s
    else
      match admitMeter r d (countForeign r d s) with
      | .hold s => s.modRing ring (fun r => { r with metered := true })
      | _ => s

/-- Every head of a ring that may go on does, in entry order. -/
def pumpRing (ring : Nat) : Nat → State → State
  | 0, s => s
  | n + 1, s =>
    match admitHead ring s with
    | some s => pumpRing ring n s
    | none => markHeld ring s

def pump (ring : Nat) (s : State) : State := pumpRing ring ((s.ring ring).held.length + 1) s

/-- DESC_FETCH (R377): the descriptors that a host read brought in are taken, and the ring's next read follows. -/
def execDescFetch (ring : Nat) (ds : List Fetched) : State → Host.Outcome State Fault Refusal :=
  whenUp (fun s => ringRead ring (pump ring (fetchAll ring 16 ds (answerReqs (fun k => k == .ringMem ring) s))))

/-- DESC_ADMIT (R379). -/
def execDescAdmit (ring : Nat) : State → Host.Outcome State Fault Refusal := whenUp (pump ring)

/-! ### Refill (R411, R412) -/

/-- refill of R411, levels in thousandths; `dt` in ns. -/
def refillPair (dt : Nat) (p : Pair) : Pair :=
  let cap (b : Nat) (v : Int) : Int := min (((b * 1000 : Nat)) : Int) v
  let p : Pair := match p.staged with
    | some r => { p with params := r, staged := none, c := cap r.cbs p.c, p := cap r.pbs p.p }
    | none => p
  { p with c := cap p.params.cbs (p.c + ((p.params.cir * dt : Nat) : Int)), p := cap p.params.pbs (p.p + ((p.params.pir * dt : Nat) : Int)) }

/-- A descriptor waits on a class shaper. -/
def shaperHeld (ix : Nat) (s : State) : Bool :=
  s.rings.any (fun e => match e.2.held with | d :: _ => e.2.metered && (meterOf e.2 d s).1 == .shaper ix | [] => false)

/-- A class shaper at a refill: its setting takes effect, its credit rises while a descriptor of the class is held. -/
def refillShaper (dt ix : Nat) (s : State) (p : Shaper) : Shaper :=
  let p := match p.staged with | some i => { p with idle := i, staged := none } | none => p
  if shaperHeld ix s then { p with credit := p.credit + ((p.idle * dt * 200000 : Nat) : Int) }
  else { p with credit := min 0 p.credit }

/-- Staged flow-map entries take effect. -/
def applyFlows (s : State) : State :=
  { s with flows := s.stagedFlows.foldl (fun t e => tset e.1 e.2 t) s.flows, stagedFlows := [] }

/-- The class of the head of a ring; 8 for one metered by a pair. -/
def headClass (r : Ring) (s : State) : Nat :=
  match r.held with
  | [] => 9
  | d :: _ => match (meterOf r d s).1 with | .pair _ => 8 | .shaper ix => ix % 8

/-- The heads of one class are tried again, in ring order. -/
def retryClass (k : Nat) (s : State) : State :=
  (s.rings.filter (fun e => headClass e.2 s == k)).foldl (fun s e => pump e.1 s) s

/-- The refill period (R411). -/
def refillNs (s : State) : Nat := fieldOf (eff 0x50000 s) 0 17

/-- A refill (R410 to R413): settings apply and their descriptors complete, levels rise, held descriptors are tried again, the highest
class first. -/
def irisRefill (s : State) : State :=
  let s := applyFlows s
  let dt := refillNs s
  let s := { s with pairs := s.pairs.map (fun (e : Nat × Pair) => (e.1, refillPair dt e.2)) }
  let s := { s with shapers := s.shapers.map (fun (e : Nat × Shaper) => (e.1, refillShaper dt e.1 s e.2)) }
  let s := endOps (fun o => o.kind == .iris) .ok s
  [8, 7, 6, 5, 4, 3, 2, 1, 0].foldl (fun s k => retryClass k s) s

/-- IRIS_REFILL (R411). -/
def execIrisRefill : State → Host.Outcome State Fault Refusal := whenUp irisRefill

/-- The fields of an Iris setting lie in their ranges (R408 to R410, R412). -/
def irisOk (index : Nat) : IrisImage → Bool
  | .flow r => decide (index < 65536) && decide (r.pair < 4096) && decide (r.cls < 8) && decide (r.owner < 256)
  | .pair r => decide (index < 4096) && decide (r.cir ≤ 200000) && decide (r.cir ≤ r.pir) && decide (r.pir ≤ 200000) &&
      decide (1 ≤ r.cbs) && decide (r.cbs < 4294967296) && decide (1 ≤ r.pbs) && decide (r.pbs < 4294967296) && decide (r.owner < 256)
  | .shaper idle => decide (index < 72) && decide (idle ≤ 200000)
  | .reserved => false

/-- A setting is staged (R410). -/
def stageIris (index : Nat) (img : IrisImage) (s : State) : State :=
  match img with
  | .flow r => { s with stagedFlows := tset index r s.stagedFlows }
  | .pair r => s.setPair index { s.pair index with staged := some r }
  | .shaper idle => s.setShaper index { s.shaper index with staged := some idle }
  | .reserved => s

/-- OP_IRIS_SET (R410). -/
def execOpIrisSet (d : Hdr) (index : Nat) (img : IrisImage) : State → Host.Outcome State Fault Refusal :=
  accept 0x61 d (fun fn t s =>
    if irisOk index img then addOp 0x61 d fn t [] true .iris (stageIris index img s) else complete d 0x61 .paramInvalid [] [] s)

/-! ### OP_NOP, buffers and timed operations -/

/-- OP_NOP (R391). -/
def execOpNop (d : Hdr) : State → Host.Outcome State Fault Refusal := accept 0x00 d (fun _ _ s => complete d 0x00 .ok [] [] s)

/-- The outcome of a register (R382), in its order. -/
def bufCheck (fn index base length : Nat) (s : State) : Option Status :=
  let bufs := (s.fn fn).bufs
  if (tget index bufs).isSome then some .bufBusy
  else if length = 0 then some .lenZero
  else if base % 4096 ≠ 0 ∨ length % 4096 ≠ 0 ∨ 1099511627776 < length ∨ 18446744073709551616 < base + length ∨ 256 ≤ index then
    some .paramInvalid
  else if bufs.any (fun e => decide (base < e.2.base + e.2.length) && decide (e.2.base < base + length)) then some .paramInvalid
  else none

/-- OP_BUF_REGISTER (R382). -/
def execOpBufRegister (d : Hdr) (index base length : Nat) : State → Host.Outcome State Fault Refusal :=
  accept 0x01 d (fun fn _ s =>
    match bufCheck fn index base length s with
    | some st => complete d 0x01 st [] [] s
    | none => complete d 0x01 .ok [] [] (s.modFn fn (fun f => { f with bufs := tset index ⟨base, length, false⟩ f.bufs })))

/-- OP_BUF_UNREGISTER (R382): the index is unusable at once, and the descriptor completes when its earlier users have ended. -/
def execOpBufUnregister (d : Hdr) (index : Nat) : State → Host.Outcome State Fault Refusal :=
  accept 0x02 d (fun fn t s =>
    match tget index (s.fn fn).bufs with
    | none => complete d 0x02 .bufInvalid [] [] s
    | some b =>
      if b.leaving then complete d 0x02 .bufInvalid [] [] s
      else
        let s := s.modFn fn (fun f => { f with bufs := tset index { b with leaving := true } f.bufs })
        let s := addOp 0x02 d fn t [] false (.unregister index) s
        settle s.ops.length s)

/-- DESC_COMPLETE (R387): a timed operation ends. -/
def descComplete (ring tag : Nat) (s : State) : State :=
  match s.ops.find? (fun o => o.hdr.ring == ring && o.hdr.tag == tag && (match o.kind with | .ready _ _ _ => true | _ => false)) with
  | some op =>
    (match op.kind with
     | .ready st res writes => endOp op st res writes s
     | _ => s)
  | none => s

/-- DESC_COMPLETE (R387). -/
def execDescComplete (ring tag : Nat) : State → Host.Outcome State Fault Refusal := whenUp (descComplete ring tag)

/-! ### OP_WAIT_COUNT (R336, R337) -/

/-- The checks of R337 that do not depend on the counter. -/
def waitCheck (d : Hdr) (fid ring timeout : Nat) (s : State) : Option Status :=
  if fid = s.fid ∧ ring = d.ring ∨ 64 ≤ fid ∨ 4096 ≤ ring ∨ 281474976710656 ≤ timeout then some .paramInvalid
  else if fid ≠ s.fid ∧ fid < 80 ∧ (s.peer fid).down then some .peerUnreachable
  else none

/-- OP_WAIT_COUNT (R337): a remote counter with n = 0 has not been seen. -/
def execOpWaitCount (d : Hdr) (fabricId ring n timeout : Nat) : State → Host.Outcome State Fault Refusal :=
  accept 0x55 d (fun fn t s =>
    match waitCheck d fabricId ring timeout s with
    | some st => complete d 0x55 st [] [] s
    | none =>
      if fabricId = s.fid then
        if n ≤ (s.ring ring).counter then complete d 0x55 .ok [(s.ring ring).counter] [] s
        else addOp 0x55 d fn t [] false (.waitCount fabricId ring n timeout) s
      else if n = 0 then complete d 0x55 .ok [Config.openNat s.freeIx] [] s.advanceFree
      else addOp 0x55 d fn t [] false (.waitCount fabricId ring n timeout) s)

/-- The OP_WAIT_COUNT that a ring waits for. -/
def waitOf (ring : Nat) (s : State) : Option (RunOp × Nat × Nat × Nat × Nat) :=
  s.ops.findSome? (fun o => match o.kind with
    | .waitCount f r n t => if o.hdr.ring = ring then some (o, f, r, n, t) else none
    | _ => none)

/-- The end of a wait (R337). -/
def endWait (op : RunOp) (st : Status) (res : List Nat) (s : State) : State :=
  endOp op st res [] (dropReqs (fun k => k == .counter op.hdr.ring) s)

/-- WAIT_POLL (R337): a remote counter is read. -/
def waitPoll (ring : Nat) (s : State) : State :=
  match waitOf ring s with
  | none => s
  | some (op, fid, r, _, _) =>
    if fid = s.fid ∨ s.reqs.any (fun q => q.kind == .counter ring) then s
    else
      match sendReq 8 fid 8 op.fn (.counter ring) .ctrRead 0 (.ask r) s with
      | .ok s => s
      | .error _ => endWait op .peerUnreachable [] s

/-- WAIT_POLL (R337). -/
def execWaitPoll (ring : Nat) : State → Host.Outcome State Fault Refusal := whenUp (waitPoll ring)

/-- A counter read has been answered (R337). -/
def counterRead (ring value : Nat) (s : State) : State :=
  match waitOf ring s with
  | some (op, _, _, n, _) => if n ≤ value then endWait op .ok [value] s else s
  | none => s

/-- WAIT_TIMEOUT (R337). -/
def waitTimeout (ring : Nat) (s : State) : State :=
  match waitOf ring s with
  | some (op, _, _, _, t) => if t = 0 then s else endWait op .waitTimeout [] s
  | none => s

/-- WAIT_TIMEOUT (R337). -/
def execWaitTimeout (ring : Nat) : State → Host.Outcome State Fault Refusal := whenUp (waitTimeout ring)

/-! ### Enabling a ring (R370, R371) -/

/-- The refusal of an enable (R370): 1 for an exponent, 2 for a line in use. -/
def enableErr (ring : Nat) (s : State) : Option Nat :=
  let r := s.ring ring
  if !(r.sqExp == 0 || (decide (6 ≤ r.sqExp) && decide (r.sqExp ≤ 16))) || !(decide (6 ≤ r.cqExp) && decide (r.cqExp ≤ 16)) then some 1
  else if s.rings.any (fun e => e.1 != ring && e.2.owner == r.owner && e.2.line == r.line && e.2.state != .disabled) then some 2
  else none

/-- enable = 1 is written to a DISABLED ring pair (R370, R371). -/
def enableRing (ring : Nat) (s : State) : State :=
  let r := s.ring ring
  if r.state ≠ .disabled ∨ !(s.fn r.owner).enable ∨ (s.fn r.owner).resetRun.isSome ∨ s.mgmt.resetBusy then s
  else
    match enableErr ring s with
    | some e => s.setRing ring { r with err := e }
    | none => ringRoom ring (s.setRing ring { r with state := .active, err := 0, sqTail := 0, sqHead := 0, cqPosted := 0, cqHead := 0 })

/-- RING_ENABLE (R371). -/
def execRingEnable (r : Requester) (ring : Nat) : State → Host.Outcome State Fault Refusal :=
  whenUp (fun s => if fnOrF0 r (s.ring ring).owner then answerReg r .ok .empty (enableRing ring s) else denyReg r s)

end Sys2Proof.Machine
end

