-- ==== Sys2Proof/Machine/Func.lean ====
section
/-! DEFINITION. Interrupt timers, event coalescing, ring, function and channel resets, Aperture gates and composition slices
(R399 to R407, R414 to R420, R477). -/

namespace Sys2Proof.Machine

open Sys2Proof

/-! ### Interrupts and coalesced events -/

/-- INTR_TIMER (R400). -/
def execIntrTimer (fn vector : Nat) : State → Host.Outcome State Fault Refusal := whenUp (trySend fn vector)

/-- The mask of a vector is cleared and its pending interrupt tried (R400). -/
def unmask (fn vec : Nat) (s : State) : State :=
  trySend fn vec (s.modFn fn (fun f => { f with vecs := tset vec { f.vec vec with mask := false } f.vecs }))

/-- VEC_UNMASK (R399, R400): the vector that the requester has selected. -/
def execVecUnmask (r : Requester) : State → Host.Outcome State Fault Refusal :=
  whenUp (fun s =>
    let fn := selOf r 0x060 s
    if fnOrF0 r fn then answerReg r .ok .empty (unmask fn (selOf r 0x0A0 s) s) else denyReg r s)

/-- The coalesced events of a function are posted (R477). -/
def flushEvents (s : State) (fn : Nat) : State :=
  let l := (s.fn fn).coalesced
  l.foldl (fun s h => postEvent fn h s) (s.modFn fn (fun f => { f with coalesced := [], coalescedSeen := [] }))

/-- COALESCE_PERIOD (R477). -/
def execCoalescePeriod : State → Host.Outcome State Fault Refusal :=
  whenUp (fun s => (s.fns.map (·.1)).foldl flushEvents s)

/-! ### The end of a function's or a ring's descriptors (R403, R404 item 2) -/

/-- A descriptor has begun: it has changed state that the device holds (R403). -/
def hasBegun (op : RunOp) (s : State) : Bool :=
  match op.kind with
  | .bulk ch unit =>
    (s.chan ch).bulk.any (fun u => u.id == unit && (!u.tiles.isEmpty || !u.saved.isEmpty)) ||
    (s.chan ch).runs.any (fun r => r.id == unit && r.dispatched)
  | .unregister _ => false
  | .pendingOp _ _ => false
  | .stepWait _ _ => false
  | .waitCount _ _ _ _ => false
  | .lensQuery _ => false
  | .lensWrite ch =>
    (s.chan ch).lens.writes.any (fun w => w.ring == op.hdr.ring && w.tag == op.hdr.tag &&
      (if w.consolidate then w.stage == 3 || (s.chan ch).bulk.any (fun u => u.work == .lensWrite w.id && (!u.tiles.isEmpty || !u.saved.isEmpty))
       else w.stage != 0 || w.inserted != 0))
  | _ => op.begun

/-- What a descriptor that has not begun holds goes back. -/
def cancelOp (op : RunOp) (s : State) : State :=
  let mine (r t : Nat) : Bool := r == op.hdr.ring && t == op.hdr.tag
  match op.kind with
  | .unregister index =>
    s.modFn op.fn (fun f => { f with bufs := tmod index (fun b => { b with leaving := false }) f.bufs })
  | .pendingOp ch i =>
    s.modChan ch (fun c => c.setPend i ((c.pendOf i).filter (fun k => match sessHdr k with | some h => !mine h.1.ring h.1.tag | none => true)))
  | .waitCount _ _ _ _ => dropReqs (fun k => k == .counter op.hdr.ring) s
  | .bulk ch unit =>
    match (s.chan ch).runs.find? (fun r => r.id == unit), (s.chan ch).bulk.find? (fun u => u.id == unit) with
    | some r, _ => s.modChan ch (dropRun r (fun t => t))
    | none, some u =>
      (match u.work with
       | .append _ _ a _ start new copies =>
         s.modChan ch (fun c => appendCancel a start new copies { c with bulk := c.bulk.filter (fun v => v.id != unit) })
       | _ => s)
    | none, none => s
  | .lensQuery ch =>
    let gone := ((s.chan ch).lens.queries.filter (fun q => q.insertOf.isNone && mine q.ring q.tag)).map (·.id)
    s.modChan ch (fun c => c.modLens (fun x =>
      { x with queries := x.queries.filter (fun q => !gone.contains q.id)
               batches := x.batches.filter (fun b => !mine b.ring b.tag)
               waiting := dropHeld op.hdr.ring op.hdr.tag x.waiting
               table := (x.table.map (fun (e : Nat × List Nat) => (e.1, e.2.filter (fun q => !gone.contains q)))).filter (fun e => !e.2.isEmpty) }))
  | .lensWrite ch =>
    let ids := ((s.chan ch).lens.writes.filter (fun w => mine w.ring w.tag)).map (·.id)
    s.modChan ch (fun c => { c.modLens (fun x =>
        { x with writes := x.writes.filter (fun w => !mine w.ring w.tag), waiting := dropHeld op.hdr.ring op.hdr.tag x.waiting }) with
      bulk := c.bulk.filter (fun u => match u.work with | .lensWrite id => !ids.contains id | _ => true) })
  | _ => s

/-- The Iris charge of a released descriptor goes back to its pair (R404 item 2). -/
def unchargeOne (ring : Nat) (d : Fetched) (s : State) : State :=
  match (meterOf (s.ring ring) d s).1 with
  | .pair n =>
    let p := s.pair n
    let cost := costOf p.params.descriptors d
    s.setPair n { p with c := p.c + (cost : Int) * 1000, p := p.p + (cost : Int) * 1000, rel := p.rel - cost }
  | .shaper _ => s

/-- The charge of an operation's descriptor, when Iris released it. -/
def uncharge (op : RunOp) (s : State) : State :=
  match (s.ring op.hdr.ring).accepted.find? (fun d => d.tag == op.hdr.tag && d.opcode == op.opcode) with
  | some d => unchargeOne op.hdr.ring d s
  | none => s

/-- A begun descriptor is detached (R404 item 2): it goes on under a ring number past the last, and posts no completion. -/
def detachOp (op : RunOp) (s : State) : State :=
  let ring := 4096 * (1 + s.freeIx) + op.hdr.ring
  let mine (r t : Nat) : Bool := r == op.hdr.ring && t == op.hdr.tag
  let s := s.modRing op.hdr.ring (fun r => { r with accepted := removeFetched op.hdr.tag op.opcode r.accepted })
  let s := s.modFn op.fn (fun f => { f with detached := f.detached + 1 })
  let s := if op.target < 8 then s.modChan op.target (fun c =>
      { c with
        bulk := c.bulk.map (fun u => match u.work with
          | .append r t a p st n k => if mine r t then { u with work := .append ring t a p st n k } else u
          | _ => u)
        runs := c.runs.map (fun r => if mine r.ring r.tag then { r with ring := ring } else r)
        lens := { c.lens with writes := c.lens.writes.map (fun w => if mine w.ring w.tag then { w with ring := ring } else w) } })
    else s
  { s with ops := s.ops.map (fun o => if o = op then { o with detached := true, hdr := { o.hdr with ring := ring } } else o)
           freeIx := s.freeIx + 1 }

/-- One outstanding descriptor ends by a ring or function reset: whether it was detached, and the state. -/
def endByReset (op : RunOp) (s : State) : Bool × State :=
  match op.kind with
  | .poolOp _ _ _ =>
    (false, endOp op .abortedReset [] [] (dropReqs (fun k => k == .poolOp op.hdr.ring op.hdr.tag) s))
  | _ =>
    if hasBegun op s then (true, detachOp op s)
    else (false, endOp op .abortedReset [] [] (cancelOp op (uncharge op s)))

/-- Descriptors of a ring that are released and outstanding no operation: they end with ST_ABORTED_RESET. -/
def abortRead (ring : Nat) (s : State) : State :=
  let r := s.ring ring
  let s := r.accepted.foldl (fun s d => complete (hdrOf ring d) d.opcode .abortedReset [] [] (unchargeOne ring d s)) s
  (s.ring ring).held.foldl (fun s d =>
    complete (hdrOf ring d) d.opcode .abortedReset [] [] (s.modRing ring (fun r => { r with held := r.held.drop 1, metered := false }))) s

/-- Item 2 of R404 for some rings: the state, how many were aborted and how many detached. -/
def endDescriptors (rings : List Nat) (s : State) : State × Nat × Nat :=
  let mine := s.ops.filter (fun o => rings.contains o.hdr.ring)
  let r := mine.foldl (fun (p : State × Nat × Nat) op =>
    if p.1.ops.contains op then
      let q := endByReset op p.1
      if q.1 then (q.2, p.2.1, p.2.2 + 1) else (q.2, p.2.1 + 1, p.2.2)
    else p) (s, 0, 0)
  let left := (rings.map (fun n => (r.1.ring n).accepted.length + (r.1.ring n).held.length)).sum
  (rings.foldl (fun s n => abortRead n s) r.1, r.2.1 + left, r.2.2)

/-! ### Ring reset (R406) -/

/-- Item 5 of R406. -/
def disableRing (ring : Nat) (s : State) : State :=
  (dropReqs (fun k => k == .ringMem ring) s).modRing ring (fun r =>
    { r with state := .disabled, sqTail := 0, sqHead := 0, cqPosted := 0, cqHead := 0, counter := 0, held := [], metered := false
             accepted := [] })

/-- Every reset empties the KEM slots and spends the debug nonce (R461, R470). -/
def spendSecrets (s : State) : State :=
  { s with encl := { s.encl with kem := s.encl.kem.map (fun (e : Nat × KemSlot) => (e.1, { e.2 with full := false })), nonce := none } }

/-- A ring reset (R406): the state, aborted and detached. -/
def resetRing (ring : Nat) (s : State) : State × Nat × Nat :=
  let r := endDescriptors [ring] (spendSecrets s)
  (disableRing ring r.1, r.2)

/-- The descriptor of an OP_RESET that resets its own ring or function is no longer outstanding (R402). -/
def dropOwn (d : Hdr) (s : State) : State := s.modRing d.ring (fun r => { r with accepted := removeFetched d.tag 0x60 r.accepted })

/-- OP_RESET of scope 1 (R402, R406). -/
def opRingReset (d : Hdr) (ring fn : Nat) (s : State) : State :=
  if fn ≠ 0 ∧ (4096 ≤ ring ∨ (s.ring ring).owner ≠ fn) then complete d 0x60 .notPermitted [] [] s
  else if 4096 ≤ ring then complete d 0x60 .paramInvalid [] [] s
  else if d.ring = ring then
    let r := resetRing ring (dropOwn d s)
    raiseEvent fn (.functionResetDone d.tag r.2.1 r.2.2 (r.1.fn fn).resetGen) 8 r.1
  else complete d 0x60 .ok [] [] (resetRing ring s).1

/-- enable = 0 is written (R371). -/
def regRingReset (r : Requester) (ring : Nat) (s : State) : State :=
  if !fnOrF0 r (s.ring ring).owner then denyReg r s
  else answerReg r .ok .empty (if (s.ring ring).state = .disabled then s else (resetRing ring s).1)

/-- RING_RESET (R406). -/
def execRingReset (by_ : ResetBy) (ring : Nat) : State → Host.Outcome State Fault Refusal :=
  match by_ with
  | .desc d => accept 0x60 d (fun fn _ s => opRingReset d ring fn s)
  | .reg r => whenUp (regRingReset r ring)
  | .pin => whenUp (fun s => s)
  | .adapterLoss => whenUp (fun s => s)

/-! ### Function reset (R404) -/

/-- Items 3 to 6 of R404. -/
def finishFnReset (fn : Nat) (run : FnReset) (s : State) : State :=
  let f := s.fn fn
  let gen := (f.resetGen + 1) % 256
  let s := s.setFn fn { f with resetGen := gen, fence := true, resetRun := none
                               vecs := f.vecs.map (fun (e : Nat × Vec) => (e.1, { e.2 with pending := 0 })) }
  let full (p : Pair) : Pair :=
    if p.params.owner = fn then { p with c := ((p.params.cbs * 1000 : Nat) : Int), p := ((p.params.pbs * 1000 : Nat) : Int) } else p
  let s := { s with pairs := s.pairs.map (fun (e : Nat × Pair) => (e.1, full e.2)) }
  let s := raiseEvent fn (.functionResetDone (run.tag.getD 0) run.aborted run.detached gen) 8 s
  endOps (fun o => o.kind == .reset 2 fn) .ok s

/-- A function reset with the tag of an OP_RESET of its own (R404): it joins one in progress; a fence still running is waited for. -/
def fnReset (fn : Nat) (tag : Option Nat) (s : State) : State :=
  match (s.fn fn).resetRun with
  | some run => s.modFn fn (fun f => { f with resetRun := some { run with tag := match run.tag with | some t => some t | none => tag } })
  | none =>
    let s := spendSecrets s
    let f := s.fn fn
    let rings := (s.rings.filter (fun e => e.2.owner == fn)).map (·.1)
    let r := endDescriptors rings s
    let s := (rings.filter (fun n => !(f.evValid && f.evRing == n))).foldl (fun s n => disableRing n s) r.1
    let run : FnReset := ⟨tag, r.2.1, r.2.2⟩
    if f.fence then s.modFn fn (fun f => { f with resetRun := some run }) else finishFnReset fn run s

/-- OP_RESET of scope 2 (R402). -/
def opFnReset (d : Hdr) (target fn : Nat) (s : State) : State :=
  if fn ≠ 0 ∧ target ≠ fn then complete d 0x60 .notPermitted [] [] s
  else if 256 ≤ target then complete d 0x60 .paramInvalid [] [] s
  else if target = fn then fnReset fn (some d.tag) (dropOwn d s)
  else fnReset target none (addOp 0x60 d fn 8 [] true (.reset 2 target) s)

/-- FUNCTION_RESET (R404); the loss of its adapter resets a function whose adapter is PEER_DOWN (R398). -/
def execFunctionReset (by_ : ResetBy) (fn : Nat) : State → Host.Outcome State Fault Refusal :=
  match by_ with
  | .desc d => accept 0x60 d (fun f _ s => opFnReset d fn f s)
  | .reg _ => whenUp (fun s => s)
  | .pin => whenUp (fun s => s)
  | .adapterLoss => whenUp (fun s => if (s.peer (s.fn fn).adapter).down then fnReset fn none s else s)

/-- FUNCTION_FENCE_END (R404 item 3): requests that waited go out, or a reset that waited goes on. -/
def fenceEnd (fn : Nat) (s : State) : State :=
  let f := s.fn fn
  let s := s.setFn fn { f with fence := false }
  match f.resetRun with
  | some run => finishFnReset fn run s
  | none => releaseReqs s.reqWait.length s

/-- FUNCTION_FENCE_END (R404). -/
def execFunctionFenceEnd (fn : Nat) : State → Host.Outcome State Fault Refusal :=
  whenUp (fun s => if (s.fn fn).fence then fenceEnd fn s else s)

/-! ### Channel reset (R407) -/

/-- An outstanding descriptor for a channel. -/
def opOn (n : Nat) (o : RunOp) : Bool :=
  o.target == n || (match o.kind with | .revoke c _ _ _ => c == n | .rebuild c _ _ => c == n | _ => false)

/-- A request that a channel made. -/
def reqOn (n : Nat) : ReqKind → Bool
  | .image _ c => c == n
  | .fetch c _ => c == n
  | .revive c _ _ => c == n
  | .parkWrite c _ _ => c == n
  | .spillWrite c _ => c == n
  | .record c _ _ => c == n
  | .manifest c => c == n
  | .forward c _ _ => c == n
  | _ => false

/-- Every descriptor for a channel completes with a status, from every ring (R22, R407). -/
def endChannelOps (n : Nat) (st : Status) (s : State) : State :=
  let s := endOps (opOn n) st s
  (s.rings.filter (fun e => e.2.target == n)).foldl (fun s e =>
    e.2.accepted.foldl (fun s d => complete (hdrOf e.1 d) d.opcode st [] [] s) s) s

/-- The work of a channel ends with a status: its loads, its part of an open generation, its descriptors and requests. -/
def dropChannelWork (n : Nat) (st : Status) (s : State) : State :=
  let s := if (s.chan n).mirror.gen ≠ 0 then abandonGen s else s
  dropReqs (reqOn n) (endChannelOps n st (abortLoads n st s))

/-- What a channel keeps over a channel reset (R401, R407, R533): its state and role until it ends, step numbers, the record of a failure, which only a
reset that succeeds clears (R489), and the epoch, which rises. Sessions, pages, slots, models, extents, indexes, keys, T1 and T2 are gone, and its counters are 0. -/
def blankChan (c : Chan) : Chan :=
  { state := c.state, role := c.role, epoch := (c.epoch + 1) % 64, cause := c.cause, resetting := c.resetting, switch := c.switch
    failedOnce := c.failedOnce, hbmTrained := c.hbmTrained, nextStep := c.nextStep }

/-- The partitions of a pool channel hold no slot in use. -/
def clearParts (n : Nat) (s : State) : State :=
  { s with parts := s.parts.map (fun (e : Nat × Partition) => if e.2.poolChannel = n then (e.1, { e.2 with extents := 0 }) else e) }

/-- Items 1 to 5 of R407 with the status its descriptors take. -/
def wipeChan (n : Nat) (st : Status) (s : State) : State := clearParts n ((dropChannelWork n st s).modChan n blankChan)

/-- A channel reset begins (R407): an ACTIVE channel is in DRAINING until it ends; an OP_ROLE_SET in progress ends with it. -/
def beginChanReset (n : Nat) (s : State) : State :=
  let s := endOps (fun o => o.kind == .roleSet n) .abortedReset (spendSecrets s)
  let s := s.modChan n (fun c => { c with switch := none, resetting := true, state := if c.state = .active then .draining else c.state })
  wipeChan n .abortedReset s

/-- OP_RESET of scope 3 (R402, R407). -/
def opChanReset (d : Hdr) (n fn : Nat) (s : State) : State :=
  if fn ≠ 0 then complete d 0x60 .notPermitted [] [] s
  else if 8 ≤ n then complete d 0x60 .paramInvalid [] [] s
  else
    let s := if (s.chan n).resetting then s else beginChanReset n s
    addOp 0x60 d fn 8 [] true (.reset 3 n) s

/-- CHANNEL_RESET (R407). -/
def execChannelReset (by_ : ResetBy) (channel : Nat) : State → Host.Outcome State Fault Refusal :=
  match by_ with
  | .desc d => accept 0x60 d (fun fn _ s => opChanReset d channel fn s)
  | .reg _ => whenUp (fun s => s)
  | .pin => whenUp (fun s => s)
  | .adapterLoss => whenUp (fun s => s)

/-! ### Aperture (R415 to R417) -/

/-- The cycle of a gate list. -/
def cycleOf (g : GateList) : Nat := (g.entries.map (fun e => e.duration)).sum

/-- The entry at a position of the cycle: its number and its gates. -/
def entryAt : List GateEntry → Nat → Nat → Nat × BitVec 8
  | [], _, _ => (0, 0xFF)
  | e :: r, k, pos => if pos < e.duration then (k, e.opens) else entryAt r (k + 1) (pos - e.duration)

/-- The entry and the open gates of a list now: before base, and while it is not enabled, every gate is open (R415). -/
def gatesNow (g : GateList) (now : Nat) : Nat × BitVec 8 :=
  if !g.enable || decide (now < g.base) then (0, 0xFF) else entryAt g.entries 0 ((now - g.base) % cycleOf g)

/-- The staged list takes effect now (R417). -/
def gateSwitches (g : Gate) (now : Nat) : Bool :=
  match g.staged with
  | none => false
  | some x =>
    if !g.running.enable then decide (x.base ≤ now)
    else decide (g.running.base ≤ now) && decide (x.base ≤ now - (now - g.running.base) % cycleOf g.running)

/-- A boundary (R416, R417). -/
def gateStep (now : Nat) (g : Gate) : Gate :=
  let g : Gate := if gateSwitches g now then { g with running := g.staged.getD {}, staged := none } else g
  let e := gatesNow g.running now
  { g with current := e.1, opens := e.2 }

/-- GATE_BOUNDARY (R416): a switch to a new list completes its descriptor. -/
def gateBoundary (port : Nat) (s : State) : State :=
  let g := s.gate port
  let s' := s.setGate port (gateStep s.now g)
  if gateSwitches g s.now then endOps (fun o => o.kind == .aperture port) .ok s' else s'

/-- GATE_BOUNDARY (R416). -/
def execGateBoundary (port : Nat) : State → Host.Outcome State Fault Refusal := whenUp (gateBoundary port)

/-- The port holds or will hold an enabled list: it claims its timer compare unit (R417, R481). -/
def gateClaims (port : Nat) (s : State) : Bool :=
  (s.gate port).running.enable || (match (s.gate port).staged with | some g => g.enable | none => false)

/-- The checks of OP_APERTURE_SET (R383, R417), the last as a commit makes its claim (R480). -/
def apertureCheck (fn port : Nat) (enable : Bool) (count listAddr : Nat) (entries : List GateEntry) (s : State) : Option Status :=
  if 8 < port ∨ count = 0 ∨ 256 < count then some .paramInvalid
  else
    match rangeCheck fn listAddr (8 * count) s with
    | some st => some st
    | none =>
      if entries.any (fun e => decide (e.duration < 64)) then some .paramInvalid
      else if enable ∧ s.mgmt.congested then some .mgmtBusy
      else if enable ∧ fieldOf (eff 0x0C8 s) 0 4 = port then some .cfgResourceConflict
      else none

/-- OP_APERTURE_SET (R417). -/
def execOpApertureSet (d : Hdr) (port : Nat) (enable : Bool) (count base listAddr : Nat) (entries : List GateEntry) :
    State → Host.Outcome State Fault Refusal :=
  accept 0x62 d (fun fn t s =>
    match apertureCheck fn port enable count listAddr entries s with
    | some st => complete d 0x62 st [] [] s
    | none =>
      let s := addOp 0x62 d fn t [(listAddr, 8 * count)] true (.aperture port) s
      s.setGate port { s.gate port with staged := some ⟨enable, base, entries.take count⟩ })

/-! ### Composition slices (R418 to R420) -/

/-- The channels of an ID; they leave every other ID (R418). -/
def setComposition (id : Nat) (channels : BitVec 8) (clear : Bool) (s : State) : State :=
  let s := { s with comps := s.comps.map (fun (e : Nat × Composition) => (e.1, { e.2 with channels := e.2.channels &&& ~~~channels })) }
  let c := s.comp id
  s.setComp id { channels := channels, allocated := if clear then 0 else c.allocated, busy := if clear then 0 else c.busy }

/-- OP_COMPOSITION_SET (R418). -/
def execOpCompositionSet (d : Hdr) (id : Nat) (channels : BitVec 8) (clear : Bool) : State → Host.Outcome State Fault Refusal :=
  accept 0x63 d (fun _ _ s =>
    if 64 ≤ id then complete d 0x63 .paramInvalid [] [] s
    else withEntry 0x63 d (fun s => complete d 0x63 .ok [] [] (setComposition id channels clear s)) s)

/-- The 64 records of R420, four fields each: allocated, busy, timer, channels. -/
def compositionWords (s : State) : List Nat :=
  (List.range 64).flatMap (fun k => let c := s.comp k; [c.allocated, c.busy, s.now, c.channels.toNat])

/-- OP_COMPOSITION_READ (R420): the records are those of its acceptance. -/
def execOpCompositionRead (d : Hdr) (outAddr : Nat) : State → Host.Outcome State Fault Refusal :=
  accept 0x64 d (fun fn t s =>
    match rangeCheck fn outAddr 2048 s with
    | some st => complete d 0x64 st [] [] s
    | none => addOp 0x64 d fn t [(outAddr, 2048)] true (.ready .ok [] [(outAddr, .words (compositionWords s))]) s)

end Sys2Proof.Machine
end

