-- ==== Sys2Proof/Machine/Packets.lean ====
section
/-! DEFINITION. The packets that carry what the block emits (R17, R432, R434, R436 to R438): their port, virtual channel, header and data. -/

namespace Sys2Proof.Machine

open Sys2Proof

/-- The virtual channel of a packet (R436, R437). -/
def vcOf : PktOp → Nat
  | .readReq => 0
  | .readReqBulk => 0
  | .readRsp => 1
  | .readRspBulk => 3
  | .write => 0
  | .writeBulk => 3
  | .poisonBulk => 3
  | .writeAck => 1
  | .poolOp => 0
  | .poolRsp => 1
  | .segAttn => 0
  | .segSample => 0
  | .regRsp => 1
  | .notify => 2
  | .intr => 2
  | .recall => 2
  | .ctrRead => 2
  | .ctrRsp => 2

/-- The port and virtual channel of what the block emits on the fabric; a port sends flits and LINK messages of its own. -/
def outRoute : Out → Option (Nat × Nat)
  | .completion _ _ _ _ _ _ _ _ _ => some (8, 0)
  | .event _ _ _ _ _ _ => some (8, 0)
  | .interrupt _ _ _ _ => some (8, 2)
  | .hostWrite unit _ _ _ _ => some (unit, 0)
  | .packet op unit _ _ _ _ _ _ _ _ => some (unit, vcOf op)
  | .segment _ ch _ _ _ => some (ch, 0)
  | .workList ch _ _ _ _ _ _ _ _ => some (ch, 0)
  | .tailWord ch _ _ => some (ch, 0)
  | .outRecord ch _ _ _ _ _ _ _ => some (ch, 0)
  | .mirrorRecord _ _ _ _ _ _ _ => none
  | .manifest _ _ _ _ _ => none
  | .flit _ _ _ _ _ _ _ _ _ _ _ _ => none
  | .linkMsg _ _ _ _ _ => none
  | .pmbus _ _ => none
  | .bmc _ => none

/-- The payload carries poison (R434). -/
def Payload.isPoisoned : Payload → Bool
  | .poisoned _ => true
  | _ => false

/-- A packet's bytes. -/
def packetBytes (h : PktHdr) (bulkRsp : Bool) (data : List Byte) : List Byte := h.bytes bulkRsp data.length ++ data

/-- The packets of a read request for n bytes: one for each 4,096 B, under the request's tags in turn (R432, R435, R436; log entry 123). -/
def readPackets (h : PktHdr) (bulkRsp : Bool) (n : Nat) : List (List Byte) :=
  (List.range ((n + 4095) / 4096)).map (fun k =>
    packetBytes { h with aux := min 4096 (n - 4096 * k), addr := h.addr + 4096 * k, req := h.req + k % 256 } bulkRsp [])

/-- The packets that write some bytes: 4,096 B in each at most, the address advancing (R432, R436). -/
def writePackets (h : PktHdr) : Nat → List Byte → List (List Byte)
  | 0, _ => []
  | k + 1, bs =>
    packetBytes h false (bs.take 4096) ::
      if bs.length ≤ 4096 then [] else writePackets { h with addr := h.addr + 4096 } k (bs.drop 4096)

def writesOf (h : PktHdr) (bs : List Byte) : List (List Byte) := writePackets h (bs.length / 4096 + 1) bs

/-- The same under a request's tags in turn (R435; log entry 123). -/
def taggedWrites (h : PktHdr) (bs : List Byte) : List (List Byte) :=
  (List.range (max 1 ((bs.length + 4095) / 4096))).map (fun k =>
    packetBytes { h with addr := h.addr + 4096 * k, req := h.req + k % 256 } false ((bs.drop (4096 * k)).take 4096))

/-- A posted write of a unit to memory of a destination. -/
def writeHdr (s : State) (unit fid dstUnit addr : Nat) : PktHdr :=
  { code := 0x03, dstFid := fid, dstUnit := dstUnit, srcFid := s.fid, srcUnit := unit, addr := addr }

/-- The writes of a completion to its ring: the entries that continue it, each at its slot modulo the ring, then the first, which is fenced
(R387, R438). -/
def entryWrites (s : State) (ring slot : Nat) (bs : List Byte) : List (List Byte) :=
  let r := s.ring ring
  let h (k : Nat) : PktHdr := writeHdr s 8 (s.fn r.owner).adapter 0 (r.cqBase + (slot + k) % 2 ^ r.cqExp * 32)
  (List.range (bs.length / 32 - 1)).map (fun k => packetBytes (h (k + 1)) false ((bs.drop (32 * (k + 1))).take 32)) ++
    [packetBytes { h 0 with fence := true } false (bs.take 32)]

/-- A write waits for its acknowledgement: one to a POOL channel, and an operation's data whose completion the port complex writes by another
path (R437, R438). -/
def wantsAck (op : PktOp) (dstFid dstUnit : Nat) : Bool :=
  op == .write || ((op == .writeBulk || op == .poisonBulk) && decide (dstFid < 64) && decide (dstUnit < 8))

/-- The packets of what the block emits, in the order they leave. -/
def outPackets (s : State) (o : Out) : List (List Byte) :=
  match o with
  | .completion ring slot phase tag st opcode sqHead ext result =>
    entryWrites s ring slot (completionBytes ring phase tag st opcode sqHead ext result)
  | .event ring slot phase ev source count => entryWrites s ring slot (eventBytes ring phase ev source count)
  | .interrupt fn vector count adapter =>
    [packetBytes { code := 0x11, fence := true, dstFid := adapter, dstUnit := 0, srcFid := s.fid, srcUnit := 8, fn := fn } false
      (layOut 8 [(0, 1, fn), (1, 1, vector), (4, 4, count)])]
  | .hostWrite unit fn _ addr p =>
    writesOf { writeHdr s unit (s.fn fn).adapter 0 addr with
               fn := fn, poison := p.isPoisoned } p.data
  | .packet op unit fid dst req fn gen st addr p =>
    let h : PktHdr := { code := pktCode op, ackReq := wantsAck op fid dst, poison := op == .poisonBulk || p.isPoisoned, dstFid := fid, dstUnit := dst
                        srcFid := s.fid, srcUnit := unit, req := req, fn := fn, gen := gen, status := statusCode st, addr := addr }
    match p with
    | .ask n =>
      if op = .ctrRead then [packetBytes { h with aux := n } false []]
      else readPackets h (op == .readReqBulk) n
    | _ => taggedWrites h p.data
  | .segment sample ch fid unit g =>
    [packetBytes { code := if sample then 0x09 else 0x08, dstFid := fid, dstUnit := unit, srcFid := s.fid, srcUnit := ch } false (Seg.bytes g)]
  | .workList ch sub offset _ _ _ _ _ p =>
    writesOf (writeHdr s ch (wlFid ch sub s) 0 (eff (chanBase ch + 0x108 + 0x20 * sub) s + offset)) p.data
  | .tailWord ch sub value =>
    if sub < 8 then
      [packetBytes { writeHdr s ch (wlFid ch sub s) 0 (eff (chanBase ch + 0x110 + 0x20 * sub) s) with fence := true } false (natLE 8 value)]
    else
      match (s.chan ch).sblk (sub - 8) with
      | some b =>
        let fn := ((s.chan ch).dir (sub - 8)).owner
        [packetBytes { writeHdr s ch (s.fn fn).adapter 0 b.img.outTailAddr with fence := true, fn := fn } false (natLE 8 value)]
      | none => []
  | .outRecord ch index offset length pad fields toks text =>
    match (s.chan ch).sblk index with
    | some b =>
      let fn := ((s.chan ch).dir index).owner
      writesOf { writeHdr s ch (s.fn fn).adapter 0 (b.img.outAddr + offset) with fn := fn } (outRecordBytes length pad fields toks text)
    | none => []
  | _ => []

/-- The bytes of a flit that leaves a port (R428). -/
def flitOut : Out → List Byte
  | .flit _ data vc seq ack nak _ creditVc credit sop eop body =>
    flitBytes (bit data) vc sop eop seq ack creditVc credit true nak body
  | _ => []

end Sys2Proof.Machine
end

