-- ==== Sys2Proof/Machine/Link.lean ====
section
/-! DEFINITION. The Joune Link (R421 to R440): failure reports and the outcomes of requests, packets, training, the flits a port sends
and receives, and what passes with time. -/

namespace Sys2Proof.Machine

open Sys2Proof

/-! ### Failure reports and failed requests (R435, R491) -/

/-- The status of a request's outcome reaches what it was made for. -/
def reqFailed (k : ReqKind) (st : Status) (s : State) : State :=
  match k with
  | .image load ch => loadPart load ch st 0 (none, none, none) none s
  | .fetch ch d => fetchLost ch d s
  | .revive ch i stage => reviveRsp hooks ch i stage st false none s
  | .parkWrite ch i _ => parkAck hooks.pend ch i st s
  | .parkRead ch i e => parkReadRsp hooks.pend ch i e st false none s
  | .spillWrite ch d => spillFail ch d s
  | .record ch gen index => recordAck ch gen index st s
  | .manifest ch => manifestAck ch st s
  | .forward ch part slot => forwardAck ch (64 * part + slot) st s
  | .poolOp ring tag => poolOpDone ring tag st 0 0 s
  | .ringMem ring => if (s.ring ring).state = .active then ringFault ring 6 s else s
  | .dataWrite id => dataDone id s
  | .counter ring => match waitOf ring s with | some (op, _, _, _, _) => endWait op .peerUnreachable [] s | none => s
  | .stale => s

/-- The waits for a counter of a peer that is PEER_DOWN end (R337). -/
def waitsLost (fid : Nat) (s : State) : State :=
  (s.ops.filter (fun o => match o.kind with | .waitCount f _ _ _ => f == fid && fid != s.fid | _ => false)).foldl
    (fun s o => endWait o .peerUnreachable [] s) s

/-- The functions bound to an adapter. -/
def boundTo (fid : Nat) (s : State) : List Nat := (s.fns.filter (fun e => e.2.adapter == fid && e.2.enable)).map (·.1)

/-- What follows when a peer moves to PEER_DOWN: waits end, and functions bound to an adapter are reset and its leases end (R337,
R340, R398). -/
def peerDownEffects (fid : Nat) (s : State) : State :=
  let s := waitsLost fid s
  if fid < 64 then s else adapterLost fid ((boundTo fid s).foldl (fun s f => fnReset f none s) s)

/-- A failure report with all its effects (R491): the table and its event; the peer's unit, newly marked, fails what is outstanding to
it, and the buddies and rebuilds that use it. -/
def reportPeer (fid unit port cause : Nat) (s : State) : State :=
  let fresh := decide (fid < 80) && !(s.peer fid).down
  let newUnit := decide (fid < 80) && !unitMarked fid unit s
  let r := report fid unit port cause s
  let s := r.2.foldl (fun s q => reqFailed q.kind .peerUnreachable s) r.1
  let s := if newUnit then rebuildLost fid unit (buddyLost fid unit s) else s
  if fresh then peerDownEffects fid s else s

/-- A request ends with ST_PEER_UNREACHABLE and is reported (R435). -/
def failRequest (r : Request) (cause : Nat) (s : State) : State :=
  reportPeer r.dstFid r.dstUnit r.port cause (reqFailed r.kind .peerUnreachable (dropReq r s))

/-- REQ_TIMEOUT (R435). -/
def execReqTimeout (unit req : Nat) : State → Host.Outcome State Fault Refusal :=
  whenUp (fun s => match s.reqs.find? (fun r => r.unit == unit && r.left.contains req) with
    | some r => failRequest r 1 s
    | none => s)

/-- The header of a packet that the switch discarded fails its request (R435). -/
def unreach (port : Nat) (lost : Pkt) (s : State) : State :=
  match s.reqs.find? (fun r => lost.srcFid == s.fid && r.unit == lost.srcUnit && r.left.contains lost.req && r.dstFid == lost.dstFid
      && r.dstUnit == lost.dstUnit) with
  | some r => failRequest { r with port := port } 2 (dropReq r s)
  | none => s

/-- UNREACH (R435, R436). -/
def execUnreach (port : Nat) (lost : Pkt) : State → Host.Outcome State Fault Refusal := whenUp (unreach port lost)

/-- MIRROR_ACK_TIMEOUT (R303): no acknowledgement within ack_tmo. -/
def mirrorAckTimeout (n : Nat) (s : State) : State :=
  if (s.chan n).mirror.awaits s.mirrorDev then
    let b := buddyOf n s
    let s := reportPeer b.1 b.2 n 1 s
    let s := if (s.chan n).mirror.noBuddy then s else unprotected n .peerUnreachable s
    mirrorNext (s.modChan n (fun c => { c with mirror := { c.mirror with sent := [] } }))
  else s

/-- MIRROR_ACK_TIMEOUT (R303). -/
def execMirrorAckTimeout (channel : Nat) : State → Host.Outcome State Fault Refusal := whenUp (mirrorAckTimeout channel)

/-! ### Packets (R434 to R440) -/

/-- The envelope a response brings; other bytes frame none. -/
def envOf : ReadData → Option Envelope
  | .envelope e => some e
  | _ => none

/-- The response to a read (R437). -/
def readDone (r : Request) (p : Pkt) (data : ReadData) (s : State) : State :=
  let st := statusOfCode p.status
  match r.kind with
  | .image load ch => if st = .ok then (if r.poison then loadPart load ch .poisoned 0 (none, none, none) none s else loadImage load ch data s)
      else loadPart load ch st 0 (none, none, none) none s
  | .fetch ch d => if st = .ok then wakeHeld ch (fetchDone ch d r.poison ((envOf data).getD default) s) else wakeHeld ch (fetchLost ch d s)
  | .revive ch i stage => reviveRsp hooks ch i stage st r.poison (envOf data) s
  | .parkRead ch i e => parkReadRsp hooks.pend ch i e st r.poison (envOf data) s
  | .ringMem ring => if st = .ok then s else reqFailed (.ringMem ring) st s
  | _ => s

/-- A response reaches what its request was made for. -/
def takeResponse (p : Pkt) (f : Request → State → State) (s : State) : State :=
  match takeRsp p s with
  | (some r, s) => f r s
  | (none, s) => s

/-- READ_RSP (R437). -/
def execReadRsp (p : Pkt) (data : ReadData) : State → Host.Outcome State Fault Refusal :=
  whenUp (arrive p (takeResponse p (fun r => readDone r p data)))

/-- The answer to a write (R437). -/
def writeDone (r : Request) (st : Status) (s : State) : State :=
  match r.kind with
  | .record ch gen index => mirrorNext (recordAck ch gen index st s)
  | .manifest ch => mirrorNext (manifestAck ch st s)
  | .parkWrite ch i _ => parkAck hooks.pend ch i st s
  | .spillWrite ch d => if st = .ok then s.modChan ch (moveDone d) else spillFail ch d s
  | .forward ch part slot => forwardAck ch (64 * part + slot) st s
  | .dataWrite id => dataDone id s
  | _ => s

/-- The ring whose completion ring holds an address. -/
def ringOfCq (adapter addr : Nat) (s : State) : Option Nat :=
  (s.rings.find? (fun e => (s.fn e.2.owner).adapter == adapter && e.2.state == .active && decide (e.2.cqBase ≤ addr) &&
    decide (addr < e.2.cqBase + 2 ^ e.2.cqExp * 32))).map (·.1)

/-- WRITE_ACK (R437): for an outstanding write, or of a completion entry that could not be written (R390). -/
def writeAck (p : Pkt) (addr : Nat) (s : State) : State :=
  match matchReq p s, (if p.status ≠ 0 ∧ p.dstUnit = 8 then ringOfCq p.srcFid addr s else none) with
  | none, some ring => ringFault ring 6 (s.modRing ring (fun r => { r with lost := satTo 4294967295 (r.lost + 1) }))
  | _, _ => takeResponse p (fun r => writeDone r (statusOfCode p.status)) s

/-- WRITE_ACK (R437). -/
def execWriteAck (p : Pkt) (addr : Word) : State → Host.Outcome State Fault Refusal := whenUp (arrive p (writeAck p addr.toNat))

/-- The response to a pool operation (R333). -/
def poolDone (p : Pkt) (done result : Nat) (r : Request) (s : State) : State :=
  match r.kind with
  | .poolOp ring tag => poolOpDone ring tag (statusOfCode p.status) done result s
  | _ => s

/-- POOL_RSP (R333). -/
def execPoolRsp (p : Pkt) (done : Nat) (result : BitVec 128) : State → Host.Outcome State Fault Refusal :=
  whenUp (arrive p (takeResponse p (poolDone p done result.toNat)))

/-- REG_RSP (R436): the device sends no REG_READ, so that none is awaited; the value goes nowhere. -/
def execRegRsp (p : Pkt) (_value : Word) : State → Host.Outcome State Fault Refusal :=
  whenUp (arrive p (takeResponse p (fun _ s => s)))

/-- A counter read (R336): the port complex answers with the counter. -/
def ctrAnswer (p : Pkt) (ring : Nat) (s : State) : State :=
  if p.dstUnit ≠ 8 ∨ 4096 ≤ ring then badPacket p.port s
  else respond p .ctrRsp .ok 0 (.bytes (natLE 8 (s.ring ring).counter)) s

/-- CTR_READ (R336, R436). -/
def execCtrRead (p : Pkt) (ring : Nat) : State → Host.Outcome State Fault Refusal := whenUp (arrive p (ctrAnswer p ring))

/-- The counter that a wait asked for (R337). -/
def ctrDone (ring value : Nat) (r : Request) (s : State) : State :=
  match r.kind with
  | .counter n => if 4096 ≤ ring then s else counterRead n value s
  | _ => s

/-- CTR_RSP (R337). -/
def execCtrRsp (p : Pkt) (ring value : Nat) : State → Host.Outcome State Fault Refusal :=
  whenUp (arrive p (takeResponse p (ctrDone ring value)))

/-- EV_PROT_DENY at most once per 1 ms, with the count (R464). -/
def protDenied (n : Nat) (s : State) : State :=
  if (s.chan n).role = .pool ∨ (protRanges (s.chan n)).isEmpty then s
  else
    let e := s.encl
    let count := e.protDenyNew + 1
    let due := match e.protEventAt with | none => true | some t => decide (t + 1000000 ≤ s.now)
    if due then
      raiseEventN 0 (.protDeny count) n count { s with encl := { e with protDeny := wrap64 (e.protDeny + 1), protDenyNew := 0, protEventAt := some s.now } }
    else { s with encl := { e with protDeny := wrap64 (e.protDeny + 1), protDenyNew := count } }

/-- A plain access (R329, R436): one of a length outside 1 to 4,096 is a bad packet, and so is one for the port complex. -/
def plainArrive (cmd : Instr) (p : Pkt) (n : Nat) (s : State) : State :=
  if n = 0 ∨ 4096 < n ∨ p.dstUnit = 8 then badPacket p.port s else poolArrive cmd (protDenied p.dstUnit s)

def plainAccess (cmd : Instr) (p : Pkt) (n : Nat) : State → Host.Outcome State Fault Refusal := whenUp (arrive p (plainArrive cmd p n))

/-- READ_REQ (R436). -/
def execReadReq (p : Pkt) (addr : Word) (bytes : Nat) : State → Host.Outcome State Fault Refusal :=
  plainAccess (.readReq p addr bytes) p bytes

/-- WRITE (R437). -/
def execWrite (p : Pkt) (addr : Word) (data : List Byte) : State → Host.Outcome State Fault Refusal :=
  plainAccess (.write p addr data) p data.length

/-- WRITE_BULK (R437). -/
def execWriteBulk (p : Pkt) (addr : Word) (data : List Byte) : State → Host.Outcome State Fault Refusal :=
  plainAccess (.writeBulk p addr data) p data.length

/-! ### Training (R424 to R427) -/

/-- The port of a lane, and its number within the port. -/
def lanePort (lane : Nat) : Nat × Nat := (lane / 4, lane % 4)

/-- JLK_PORT_CTL of a port: the widest width it permits, in lanes. -/
def widestOf (port : Nat) (s : State) : Nat :=
  let w := fieldOf (eff 0x40000 s) (4 * port + 1) 2
  if w = 0 then 4 else if w = 1 then 2 else 1

/-- Events of a link go to F0 and to F1 (R493). -/
def linkEvent (ev : Event) (s : State) : State := raiseEvent 1 ev 8 (raiseEvent 0 ev 8 s)

/-- An ACTIVE port retrains; it is counted (R427). -/
def toRetrain (p : Port) : Port := { p with state := .retrain, wasActive := true, retrain := wrap64 (p.retrain + 1) }

/-- A port that starts with empty replay and credit state (R425, R427). -/
def freshLink (p : Port) : Port :=
  { p with replayBuf := [], credits := [0, 0, 0, 0], owed := [0, 0, 0, 0], txSeq := 0, rxSeq := 0, replays := 0, nakSent := false
           unacked := 0, partialPkt := [] }

/-- The lanes of a port do not include one (R426, R427). -/
def dropLane (lane : Nat) (p : Port) : Port :=
  let m : BitVec 4 := BitVec.ofNat 4 (2 ^ lane)
  { p with good := p.good &&& ~~~m, excluded := p.excluded ||| m }

/-- PARTNER_DETECT (R424). -/
def partnerDetect (lanes : BitVec 4) (p : Port) : Port :=
  if p.state = .detect ∧ lanes ≠ 0 then { p with state := .signal, good := lanes &&& ~~~p.excluded } else p

def execPartnerDetect (port : Nat) (lanes : BitVec 4) : State → Host.Outcome State Fault Refusal :=
  whenUp (fun s => s.modPort port (partnerDetect lanes))

/-- The lanes that fail a stage are left out, and training goes on with the others (R424). -/
def keepLanes (lanes : BitVec 4) (st : PortState) (p : Port) : Port :=
  { p with state := st, good := p.good &&& lanes, excluded := p.excluded ||| (p.good &&& ~~~lanes) }

/-- SIGNAL_DONE (R424): a retraining port keeps its equaliser settings. -/
def signalDone (lanes : BitVec 4) (p : Port) : Port :=
  if p.state = .signal then keepLanes lanes .equalize p else if p.state = .retrain then keepLanes lanes .align p else p

/-- The lanes of a port that train have lock. -/
def lockLanes (port : Nat) (lanes : BitVec 4) (s : State) : State :=
  (List.range 4).foldl (fun s k => if lanes.getLsbD k then s.setLane (4 * port + k) { s.lane (4 * port + k) with lock := true } else s) s

def execSignalDone (port : Nat) (lanes : BitVec 4) : State → Host.Outcome State Fault Refusal :=
  whenUp (fun s =>
    let p := s.port port
    if p.state = .signal ∨ p.state = .retrain then lockLanes port (p.good &&& lanes) (s.setPort port (signalDone lanes p)) else s)

/-- EQUALIZE_DONE (R424). -/
def equalizeDone (lanes : BitVec 4) (p : Port) : Port := if p.state = .equalize then keepLanes lanes .align p else p

def execEqualizeDone (port : Nat) (lanes : BitVec 4) : State → Host.Outcome State Fault Refusal :=
  whenUp (fun s => s.modPort port (equalizeDone lanes))

/-- ALIGN_DONE (R424, R425): the port sends its LINK message. -/
def alignDone (port : Nat) (lanes : BitVec 4) (s : State) : State :=
  let p := s.port port
  if p.state = .align then
    (s.setPort port (keepLanes lanes .config p)).emit (.linkMsg port s.fid port (widestOf port s) (if p.wasActive then p.rxSeq else 0))
  else s

def execAlignDone (port : Nat) (lanes : BitVec 4) : State → Host.Outcome State Fault Refusal := whenUp (alignDone port lanes)

/-- The width of R426 from the lanes good on both sides and the widest width permitted. -/
def widthOf (lanes : BitVec 4) (widest : Nat) : Nat :=
  if lanes = 0xF ∧ 4 ≤ widest then 4
  else if (lanes &&& 3 = 3 ∨ lanes &&& 12 = 12) ∧ 2 ≤ widest then 2
  else if lanes ≠ 0 ∧ 1 ≤ widest then 1
  else 0

/-- The lanes that are active at a width (R426): all; port lanes 0 and 1, or else 2 and 3; or the lowest good one. -/
def laneSet (good : BitVec 4) (w : Nat) : BitVec 4 :=
  if w = 4 then 0xF
  else if w = 2 then (if good &&& 3 = 3 then 3 else 12)
  else if good.getLsbD 0 then 1 else if good.getLsbD 1 then 2 else if good.getLsbD 2 then 4 else 8

/-- The bytes of a flit that travel on active lane j at width w (R423). -/
def laneShare (w j : Nat) (flit : List Byte) : List Byte := (flit.drop (256 / w * j)).take (256 / w)

/-- Flits kept after the one before `expect` (R425, R430). -/
def dropThrough (ack : Nat) (l : List SentFlit) : List SentFlit :=
  if l.any (fun f => f.seq == ack) then (l.dropWhile (fun f => f.seq != ack)).drop 1 else l

/-- The sequence number last received in order. -/
def lastSeq (p : Port) : Nat := (p.rxSeq + 65535) % 65536

/-- The flits of a buffer go out again. -/
def resend (port : Nat) (l : List SentFlit) (s : State) : State :=
  l.foldl (fun s f => s.emit (.flit port true f.vc f.seq (lastSeq (s.port port)) false true 0 0 f.sop f.eop f.body)) s

/-- CONFIG ends (R425, R426): partner, width and credits are fixed, and the port is ACTIVE. -/
def configDone (port fid unit : Nat) (lanes : BitVec 4) (width : Nat) (credits : List Nat) (expect : Nat) (s : State) : State :=
  let p := s.port port
  let w := widthOf (p.good &&& lanes) (min (widestOf port s) width)
  if w = 0 then s
  else
    let changed := p.partnerKnown && (p.partnerFid != fid || p.partnerUnit != unit)
    let q := if changed then { freshLink p with partnerChange := wrap64 (p.partnerChange + 1) } else p
    let fresh := changed || !p.wasActive
    let q := if fresh then { q with credits := credits } else { q with replayBuf := dropThrough ((expect + 65535) % 65536) q.replayBuf }
    let s := s.setPort port { q with state := .active, wasActive := true, wasDown := false, width := w, lanes := laneSet (p.good &&& lanes) w, partnerFid := fid
                                     partnerUnit := unit, partnerKnown := true, replays := 0 }
    let s := if fresh then s else resend port (s.port port).replayBuf s
    let s := if p.wasDown then linkEvent (.linkUp port w) s else s
    if p.wasActive ∧ w < p.width then linkEvent (.linkDegraded port w) s else s

/-- LINK_MESSAGE (R425, R427). -/
def linkMessage (port : Nat) (m : LinkMsg) (s : State) : State :=
  match m with
  | .config fid unit lanes width credits expect =>
    if (s.port port).state = .config then configDone port fid unit lanes width credits expect s else s
  | .retrain => if (s.port port).state = .active then s.modPort port toRetrain else s

def execLinkMessage (port : Nat) (m : LinkMsg) : State → Host.Outcome State Fault Refusal := whenUp (linkMessage port m)

/-- TRAINING_LIMIT_EXPIRY (R424). -/
def limitExpiry (p : Port) : Port :=
  match p.state with
  | .disabled => p
  | .detect => p
  | .active => p
  | .down => p
  | .signal => if p.wasActive then toRetrain p else { p with state := .detect }
  | .equalize => if p.wasActive then toRetrain p else { p with state := .detect }
  | .align => if p.wasActive then toRetrain p else { p with state := .detect }
  | .config => if p.wasActive then toRetrain p else { p with state := .detect }
  | .retrain => toRetrain p

def execTrainingLimitExpiry (port : Nat) : State → Host.Outcome State Fault Refusal :=
  whenUp (fun s => s.modPort port limitExpiry)

/-- LANE_LOCK_LOSS (R427, R509). -/
def laneLockLoss (lane : Nat) (s : State) : State :=
  let (port, k) := lanePort lane
  let s := s.setLane lane { s.lane lane with lock := false }
  let p := s.port port
  s.setPort port (if p.state = .active then toRetrain (dropLane k p) else dropLane k p)

def execLaneLockLoss (lane : Nat) : State → Host.Outcome State Fault Refusal := whenUp (laneLockLoss lane)

/-- FEC_UNCORR_LIMIT (R427): more uncorrectable codewords than JLK_FEC_UNCORR in 1 ms. -/
def fecLimit (lane : Nat) (s : State) : State :=
  let (port, k) := lanePort lane
  let l := s.lane lane
  let s := s.setLane lane { l with fecUncorr := wrap64 (l.fecUncorr + fieldOf (eff 0x40018 s) 0 16 + 1) }
  let p := s.port port
  if p.state = .active then s.setPort port (toRetrain (dropLane k p)) else s

def execFecUncorrLimit (lane : Nat) : State → Host.Outcome State Fault Refusal := whenUp (fecLimit lane)

/-- The peers a port serves: those of its outstanding requests, its channel's buddy and T3 region, and the adapters of the functions
for HP (R35, R427). -/
def peersOf (port : Nat) (s : State) : List (Nat × Nat) :=
  let qs := (s.reqs.filter (fun r => r.port == port)).map (fun r => (r.dstFid, r.dstUnit))
  let t := t3Word port s
  let mine := if port < 8 then
      (if participant port s then [buddyOf port s] else []) ++ (if fieldOf t 24 1 = 1 then [(fieldOf t 0 6, fieldOf t 6 3)] else [])
    else (s.fns.filter (fun e => e.2.enable)).map (fun e => (e.2.adapter, 0))
  (qs ++ mine).dedup

/-- A port enters DOWN (R427). -/
def toDown (port : Nat) (s : State) : State :=
  let peers := peersOf port s
  let s := s.setPort port { freshLink (s.port port) with state := .down, wasActive := false, wasDown := true, width := 0, lanes := 0 }
  let s := linkEvent (.linkDown port) s
  let lost := s.reqs.filter (fun r => r.port == port)
  let s := lost.foldl (fun s r => if s.reqs.contains r then reqFailed r.kind .peerUnreachable (dropReq r s) else s) s
  peers.foldl (fun s p => reportPeer p.1 p.2 port 3 s) s

/-- LINK_DOWN_TIMEOUT (R427): the port has not reached ACTIVE in time. -/
def linkDownTimeout (port : Nat) (s : State) : State :=
  match (s.port port).state with
  | .active => s
  | .disabled => s
  | .down => s
  | _ => toDown port s

def execLinkDownTimeout (port : Nat) : State → Host.Outcome State Fault Refusal := whenUp (linkDownTimeout port)

/-- DOWN_RETRY (R424). -/
def execDownRetry (port : Nat) : State → Host.Outcome State Fault Refusal :=
  whenUp (fun s => s.modPort port (fun p => if p.state = .down then { p with state := .detect } else p))

/-- A bit of JLK_PORT_CTL. -/
def setPortCtl (port bit : Nat) (s : State) : State :=
  let v := eff 0x40000 s
  setEff 0x40000 (v - fieldOf v (4 * port) 1 * 2 ^ (4 * port) + bit * 2 ^ (4 * port)) s

/-- PORT_ENABLE (R424). -/
def enablePort (port : Nat) (s : State) : State :=
  (setPortCtl port 1 s).modPort port (fun p => if p.state = .disabled then { p with state := .detect } else p)

def execPortEnable (r : Requester) (port : Nat) : State → Host.Outcome State Fault Refusal :=
  whenUp (fun s => if r == .fn 0 then answerReg r .ok .empty (enablePort port s) else denyReg r s)

/-- PORT_DISABLE (R424): transmitters quiet, and the link starts afresh when it is enabled again. -/
def disablePort (port : Nat) (s : State) : State :=
  (setPortCtl port 0 s).modPort port (fun p =>
    if p.state = .disabled then p
    else { freshLink p with state := .disabled, wasActive := false, width := 0, lanes := 0, excluded := 0, good := 0 })

def execPortDisable (r : Requester) (port : Nat) : State → Host.Outcome State Fault Refusal :=
  whenUp (fun s => if r == .fn 0 then answerReg r .ok .empty (disablePort port s) else denyReg r s)

/-- REWIDEN (R426): an ACTIVE port retrains and tries every lane. -/
def rewidenPort (p : Port) : Port :=
  if p.state = .active then { toRetrain p with good := 0xF, excluded := 0 } else p

def execRewiden (r : Requester) (port : Nat) : State → Host.Outcome State Fault Refusal :=
  whenUp (fun s => if r == .fn 0 then answerReg r .ok .empty (s.modPort port rewidenPort) else denyReg r s)

/-! ### Flits (R428 to R431) -/

/-- A flit's CRC is good (R428, R429). -/
def flitGood (f : List Byte) : Bool :=
  f.length == 256 && (crc64 (f.take 8 ++ f.drop 16)).toNat == leNat ((f.drop 8).take 8)

/-- A change of one virtual channel's entry. -/
def bumpVc {α : Type} (vc : Nat) (f : α → α) (l : List α) : List α := l.modify vc f

/-- The virtual channel that receives the next credit, in rotation (R431), and the count. -/
def nextOwed (p : Port) : Nat × Nat :=
  match ([0, 1, 2, 3].map (fun k => (p.creditVc + k) % 4)).find? (fun v => p.owed.getD v 0 != 0) with
  | some v => (v, min 4095 (p.owed.getD v 0))
  | none => (p.creditVc % 4, 0)

/-- A flit that carries an acknowledgement leaves (R430, R431). -/
def sendAck (port : Nat) (nak : Bool) (s : State) : State :=
  let p := s.port port
  let v := nextOwed p
  (s.setPort port { p with unacked := 0, owed := bumpVc v.1 (fun n => n - v.2) p.owed, creditVc := (v.1 + 1) % 4 }).emit
    (.flit port false 0 0 (lastSeq p) nak false v.1 v.2 false false [])

/-- A replay of the flits not acknowledged (R430); too many in a row retrain the port (R427). -/
def replayFrom (port : Nat) (s : State) : State :=
  let p := s.port port
  if p.replayBuf.isEmpty then s
  else
    let p := { p with replay := wrap64 (p.replay + 1), replays := p.replays + 1 }
    if fieldOf (eff 0x40010 s) 0 7 ≤ p.replays then s.setPort port { toRetrain p with replays := 0 }
    else resend port p.replayBuf (s.setPort port p)

/-- REPLAY_TIMEOUT (R430). -/
def execReplayTimeout (port : Nat) : State → Host.Outcome State Fault Refusal :=
  whenUp (fun s => if (s.port port).state = .active then replayFrom port s else s)

/-- ACK_TIMER (R430). -/
def execAckTimer (port : Nat) : State → Host.Outcome State Fault Refusal :=
  whenUp (fun s =>
    let p := s.port port
    if p.state = .active ∧ (p.unacked ≠ 0 ∨ p.owed.any (fun n => n != 0)) then sendAck port false s else s)

/-- The acknowledgement and the NAK that a flit carries (R430). -/
def takeAck (port ack : Nat) (valid nak : Bool) (s : State) : State :=
  let p := s.port port
  let l := if valid then dropThrough ack p.replayBuf else p.replayBuf
  let s := s.setPort port { p with replayBuf := l, replays := if l.length < p.replayBuf.length then 0 else p.replays }
  if nak then replayFrom port s else s

/-- A flit is discarded and counted; one NAK is sent for each expected number (R430). -/
def discardFlit (port : Nat) (nak : Bool) (s : State) : State :=
  let p := s.port port
  let s := s.setPort port { p with crcErr := wrap64 (p.crcErr + 1), nakSent := p.nakSent || nak }
  if nak && !p.nakSent then sendAck port true s else s

/-- A DATA flit in order: it joins its packet (R432); the whole packet, when it ends one. -/
def joinFlit (vc : Nat) (sop eop : Bool) (data : List Byte) (p : Port) : Option (List Byte) × Port :=
  let old := if sop then [] else (tget vc p.partialPkt).getD []
  let whole := old ++ data
  let p := { p with rxSeq := (p.rxSeq + 1) % 65536, nakSent := false, unacked := p.unacked + 1 }
  if eop then
    (some whole, { p with partialPkt := tdel vc p.partialPkt, owed := bumpVc vc (fun n => n + whole.length / 240) p.owed })
  else (none, { p with partialPkt := tset vc whole p.partialPkt })

/-- A flit arrives at a port (R428 to R431): the packet it ends, if any, and the state. LINK messages come as LINK_MESSAGE. -/
def flitReceive (port : Nat) (f : List Byte) (s : State) : Option (Nat × List Byte) × State :=
  let p := s.port port
  if p.state ≠ .active then (none, s)
  else if !flitGood f then (none, discardFlit port true s)
  else
    let b0 := leNat (f.take 1)
    let seq := leNat ((f.drop 2).take 2)
    let ack := leNat ((f.drop 4).take 2)
    let cr := leNat ((f.drop 6).take 2)
    let kind := b0 % 4
    let vc := b0 / 4 % 4
    let s := if kind = 2 ∨ kind = 3 then s else takeAck port ack (cr / 16384 % 2 == 1) (cr / 32768 == 1) s
    let credit (s : State) : State := s.modPort port (fun p => { p with credits := bumpVc (cr / 4096 % 4) (fun n => n + cr % 4096) p.credits })
    if kind = 0 then (none, credit s)
    else if kind = 1 then
      let p := s.port port
      if p.state ≠ .active then (none, s)
      else if seq = p.rxSeq then
        let r := joinFlit vc (b0 / 16 % 2 == 1) (b0 / 32 % 2 == 1) (f.drop 16) p
        let s := credit (s.setPort port r.2)
        (r.1.map (fun w => (vc, w)), if 64 ≤ (s.port port).unacked then sendAck port false s else s)
      else (none, discardFlit port (decide ((seq + 65536 - p.rxSeq) % 65536 < 32768)) s)
    else (none, s)

/-! ### What a port sends (R414, R428, R431, R432) -/

/-- The class that APT_CLASS_MAP gives a kind (R414, R541): 0 attention, 1 ring traffic on HP, 2 records of a priority generation, 3 moves
between tiers, 4 Mirror, 5 bulk. -/
def mapClass (k : Nat) (s : State) : Nat := fieldOf (eff 0x60000 s) (4 * k) 3

/-- The class of a flow that a function charges (R408). -/
def flowClass (fn flow : Nat) (s : State) : Nat := if (s.flow flow).owner = fn then (s.flow flow).cls else 0

/-- The class of an outstanding operation's flow. -/
def opClass (ring tag : Nat) (s : State) : Nat :=
  match opOf ring tag s with
  | some op => flowClass op.fn op.hdr.flow s
  | none => 0

/-- The class of the flow of an operation whose data is being written. -/
def dataClass (id : Nat) (s : State) : Nat :=
  match s.ops.find? (fun o => match o.kind with | .writing i _ _ => i == id | _ => false) with
  | some op => flowClass op.fn op.hdr.flow s
  | none => 0

/-- The class of a Mirror record of the open generation (R309, R414). -/
def mirrorClass (s : State) : Nat := mapClass (if s.mirrorDev.priority then 2 else 4) s

/-- The class of a request by what it is made for (R414). -/
def reqClass (k : ReqKind) (s : State) : Nat :=
  match k with
  | .image _ _ => mapClass 5 s
  | .fetch _ _ => mapClass 3 s
  | .revive _ _ _ => mapClass 3 s
  | .parkRead _ _ _ => mapClass 3 s
  | .parkWrite _ _ _ => mapClass 3 s
  | .spillWrite _ _ => mapClass 3 s
  | .record _ g _ => if s.mirrorDev.openGen = some g then mirrorClass s else mapClass 4 s
  | .manifest _ => mirrorClass s
  | .forward _ _ _ => mapClass 5 s
  | .poolOp ring tag => opClass ring tag s
  | .ringMem _ => mapClass 1 s
  | .dataWrite id => dataClass id s
  | .counter _ => mapClass 5 s
  | .stale => mapClass 3 s

/-- The class of what the block emits (R414). -/
def outClass (o : Out) (s : State) : Nat :=
  match o with
  | .completion _ _ _ _ _ _ _ _ _ => mapClass 1 s
  | .event _ _ _ _ _ _ => mapClass 1 s
  | .hostWrite _ fn flow _ _ => flowClass fn flow s
  | .packet op unit fid dst req _ _ _ _ _ =>
    if op = .regRsp then mapClass 5 s
    else if op = .readRsp ∨ op = .readRspBulk ∨ op = .writeAck ∨ op = .poolRsp then Config.responseClass fid dst req % 8
    else
      match s.reqs.find? (fun r => r.unit == unit && r.left.contains req) with
      | some r => reqClass r.kind s
      | none => mapClass 5 s
  | .segment _ _ _ _ _ => mapClass 0 s
  | .workList _ _ _ _ _ _ _ _ _ => mapClass 0 s
  | .tailWord _ sub _ => mapClass (if sub < 8 then 0 else 5) s
  | _ => mapClass 5 s

/-- The time for which the entries of a list, taken from the first, keep a class open. -/
def openRun (c : Nat) : List GateEntry → Nat
  | [] => 0
  | e :: r => if e.opens.getLsbD c then e.duration + openRun c r else 0

/-- The entries from the k-th on, across the cycle boundary. -/
def rotated (g : GateList) (k : Nat) : List GateEntry := g.entries.drop k ++ g.entries.take k

/-- The entry at a position of the cycle and the time since its start. -/
def entryPos : List GateEntry → Nat → Nat → Nat × Nat
  | [], k, _ => (k, 0)
  | e :: r, k, pos => if pos < e.duration then (k, pos) else entryPos r (k + 1) (pos - e.duration)

/-- Where a running list stands now. -/
def gatePos (g : GateList) (now : Nat) : Nat × Nat := entryPos g.entries 0 ((now - g.base) % cycleOf g)

/-- The open time that remains for a class from now (R416), none where it has no end. -/
def openLeft (g : GateList) (c now : Nat) : Option Nat :=
  if !g.enable || g.entries.all (fun e => e.opens.getLsbD c) then none
  else if now < g.base then some (g.base - now + openRun c g.entries)
  else some (openRun c (rotated g (gatePos g now).1) - (gatePos g now).2)

/-- The longest window of a class (R416). -/
def longestWindow (g : GateList) (c : Nat) : Nat :=
  ((List.range g.entries.length).map (fun k => openRun c (rotated g k))).foldl max 0

/-- A window of a class starts now (R416). -/
def windowStarts (g : GateList) (c now : Nat) : Bool :=
  decide (g.base ≤ now) && (gatePos g now).2 == 0 && decide (0 < openRun c (rotated g (gatePos g now).1)) &&
    (match (rotated g (gatePos g now).1).getLast? with
     | some e => !e.opens.getLsbD c
     | none => false)

/-- Whether a packet of a class that lasts d hundredths of a nanosecond may begin now, and whether it overruns its window (R416). -/
def mayBegin (g : Gate) (c now d : Nat) : Option Bool :=
  match openLeft g.running c now with
  | none => some false
  | some left =>
    if !g.opens.getLsbD c then none
    else if d ≤ 100 * left then some false
    else if 100 * longestWindow g.running c < d ∧ windowStarts g.running c now then some true
    else none

/-- The duration of a packet's flits in hundredths of a nanosecond (R416). -/
def flitTime (port flits : Nat) (s : State) : Nat := 128 * flits * (4 / portWidth port s)

/-- Who sends what leaves by HP (R17): the channel of a ring or an event, else the port complex, 8; a fabric port has one sender. -/
def outSource (port : Nat) (o : Out) (s : State) : Nat :=
  if port ≠ 8 then 8
  else match o with
    | .completion ring _ _ _ _ _ _ _ _ => min 8 (s.ring ring).target
    | .event _ _ _ _ src _ => min 8 src
    | _ => 8

/-- The first thing at or after a place of `out` that a source sends on a port's virtual channel, with its place. -/
def nextOut (port vc src : Nat) (s : State) : List Out → Nat → Option (Nat × Out)
  | [], _ => none
  | o :: r, i =>
    match outRoute o with
    | some (p, v) => if p = port ∧ v = vc ∧ outSource port o s = src then some (i, o) else nextOut port vc src s r (i + 1)
    | none => nextOut port vc src s r (i + 1)

/-- The flits of one packet enter the replay buffer and leave (R430 to R432): `sop` says that the first of them starts the packet. -/
def sendFlits (port vc : Nat) : Bool → List (List Byte) → State → State
  | _, [], s => s
  | sop, b :: bs, s =>
    let p := s.port port
    let v := nextOwed p
    let q := { p with txSeq := (p.txSeq + 1) % 65536, replayBuf := p.replayBuf ++ [⟨p.txSeq, vc, sop, bs.isEmpty, b⟩], unacked := 0
                      owed := bumpVc v.1 (fun n => n - v.2) p.owed, creditVc := (v.1 + 1) % 4, credits := bumpVc vc (fun n => n - 1) p.credits }
    sendFlits port vc false bs ((s.setPort port q).emit (.flit port true vc p.txSeq (lastSeq p) false false v.1 v.2 sop bs.isEmpty b))

/-- Where a source of a port's virtual channel stands: the place in `out` and the packet of the object there. -/
def Port.placeOf (p : Port) (vc src : Nat) : Nat × Nat := (tget (vc * 16 + src) p.txPos).getD (0, 0)

def Port.setPlace (p : Port) (vc src : Nat) (x : Nat × Nat) : Port := { p with txPos := tset (vc * 16 + src) x p.txPos }

/-- What a source has to send on a port's virtual channel. -/
def sourceNext (port vc src : Nat) (s : State) : Option (Nat × Out) :=
  let pos := ((s.port port).placeOf vc src).1
  nextOut port vc src s ((s.out.reverse).drop pos) pos

/-- The sources in turn order: round-robin from the one whose turn it is (R17). -/
def turnOrder (turn : Nat) : List Nat := (List.range 9).map (fun k => (turn + k) % 9)

/-- A port's virtual channel sends one packet of the source whose turn it is among those that have one (R17), when the port holds credits for
all its flits, has room to keep them, and the gate of its class lets it begin (R416, R430, R431). Packets on VC2 are never gated (R414). -/
def sendNext (port : Nat) (s : State) (vc : Nat) : State :=
  let p := s.port port
  match (turnOrder (p.txTurn.getD vc 0)).findSome? (fun src => (sourceNext port vc src s).map (fun x => (src, x))) with
  | none => s
  | some (src, i, o) =>
    let (pos, part) := p.placeOf vc src
    let k := if i = pos then part else 0
    let ps := outPackets s o
    let bodies := cutFlits 18 (ps.getD k [])
    let f := bodies.length
    let begins := if vc = 2 then some false else mayBegin (s.gate port) (outClass o s) s.now (flitTime port f s)
    match decide (f ≤ p.credits.getD vc 0 ∧ p.replayBuf.length + f ≤ 4096), begins with
    | true, some long =>
      let s := if long then s.setGate port { s.gate port with overrun := wrap64 ((s.gate port).overrun + 1) } else s
      sendFlits port vc true bodies (s.setPort port { p.setPlace vc src (if k + 1 < ps.length then (i, k + 1) else (i + 1, 0)) with
                                            txTurn := p.txTurn.set vc ((src + 1) % 9) })
    | _, _ => s.setPort port (p.setPlace vc src (i, k))

/-- What the ACTIVE ports send as time passes. -/
def transmit (s : State) : State :=
  ((s.ports.filter (fun e => e.2.state == .active)).map (·.1)).foldl (fun s n => [0, 1, 2, 3].foldl (sendNext n) s) s

end Sys2Proof.Machine
end

