-- ==== Sys2Proof/Machine/Layout.lean ====
section
/-! DEFINITION. Where a channel's T1 and T2 hold what State keeps by name (R28, R41, R75, R76, R166, R188, R190, R191, R243, R244, R293, R320,
R321, R350): the areas of each role, and the address of an entry in them. No command reads or writes an area by its address; the granule pools
and extent spaces start where these tables end. -/

namespace Sys2Proof.Machine

open Sys2Proof

/-- The areas of T1 and T2 below and beside the granules. -/
inductive Area where
  | sessionDir | descTable | shareTable | asqTable | wlStage0 | wlStage1 | bulkQueue | queueDir | tokSlots | gramSlots | maskTags
  | captureTable | cbw | staging | leaseDir | extentTable | poolWork | forwardBuf | indexHeader | segTable | expansion | stateMap | querySlots
  | modelTable | progStore | runStaging | windowA | windowB | actT1 | saveArea | prismTables | granules
deriving DecidableEq, Repr, Inhabited

/-- An area with its offset and its length in bytes. -/
abbrev AreaRow := Area × Nat × Nat

/-- The control area's areas (R166, R190), at the same offsets in every role that uses them. -/
def controlAreas : List AreaRow :=
  [(.asqTable, 0x01900000, 0x40000), (.wlStage0, 0x01940000, 0x90000), (.wlStage1, 0x019D0000, 0x90000), (.bulkQueue, 0x01A60000, 0xA0000),
   (.queueDir, 0x01B00000, 0x400000), (.tokSlots, 0x01F00000, 0x1000), (.gramSlots, 0x01F01000, 0x4000), (.maskTags, 0x01F05000, 0xFB000)]

/-- T1 of a channel in a role (R41, R75, R243, R293, R320, R350); an UNASSIGNED channel has no layout. -/
def t1Areas : Role → List AreaRow
  | .none => []
  | .attn => [(.sessionDir, 0, 0x800000), (.descTable, 0x00800000, 0x1000000), (.shareTable, 0x01800000, 0x100000)] ++ controlAreas ++
      [(.captureTable, 0x02000000, 0x200000), (.cbw, 0x02200000, 0xFE00000), (.granules, 0x12000000, 0x4E000000)]
  | .pool => [(.leaseDir, 0, 0x400000), (.extentTable, 0x00400000, 0x40000), (.poolWork, 0x00440000, 0x1BC0000),
      (.forwardBuf, 0x02000000, 0x10000000), (.granules, 0x12000000, 0x4E000000)]
  | .search => [(.indexHeader, 0, 0x1000), (.segTable, 0x1000, 0x10000), (.expansion, 0x11000, 0x18EF000), (.bulkQueue, 0x01A60000, 0xA0000),
      (.cbw, 0x02000000, 0x10000000), (.stateMap, 0x12000000, 0x4000000), (.querySlots, 0x16000000, 0x20000000),
      (.granules, 0x36000000, 0x2A000000)]
  | .model => [(.modelTable, 0, 0x1000), (.progStore, 0x1000, 0xFFF000), (.runStaging, 0x01000000, 0x900000)] ++ controlAreas ++
      [(.windowA, 0x02000000, 0x28000000), (.windowB, 0x2A000000, 0x28000000), (.actT1, 0x52000000, 0xE000000)]

/-- Bytes of T2. -/
def t2Len : Nat := 0xC00000000

/-- T2 of a channel in a role, its Prism table area of so many units of 512 KiB (R76, R191, R244, R321, R350). -/
def t2Areas (role : Role) (prism : Nat) : List AreaRow :=
  let p := if role = .search ∨ role = .pool then 0 else prism * 0x80000
  [(.saveArea, 0, 0x09000000), (.prismTables, 0x09000000, p), (.granules, 0x09000000 + p, t2Len - (0x09000000 + p))]

/-- An area's offset and length, where the role has it. -/
def areaIn (l : List AreaRow) (a : Area) : Option (Nat × Nat) := (l.find? (fun r => r.1 == a)).map (·.2)

/-- Bytes of one entry of a table (R41, R49, R80, R166, R190, R206, R233, R247, R293, R320, R338, R350, R356). -/
def entryLen : Area → Nat
  | .sessionDir => 64
  | .descTable => 32
  | .shareTable => 2
  | .asqTable => 32
  | .bulkQueue => 64
  | .queueDir => 32
  | .tokSlots => 256
  | .gramSlots => 256
  | .maskTags => 8
  | .captureTable => 16
  | .cbw => 4096
  | .leaseDir => 16
  | .extentTable => 64
  | .segTable => 16
  | .querySlots => 131072
  | .modelTable => 64
  | .saveArea => 0x00240000
  | .prismTables => 0x80000
  | .granules => 16384
  | _ => 1

/-- The T1 offset of an entry of a table of a role. -/
def t1EntryAt (role : Role) (a : Area) (i : Nat) : Option Nat := (areaIn (t1Areas role) a).map (fun r => r.1 + i * entryLen a)

/-- The granules of a role's pool or extent space in an area list, lowest and past the last. -/
def granuleSpace (l : List AreaRow) : Nat × Nat :=
  match areaIn l .granules with
  | some (o, n) => (o / 16384, (o + n) / 16384)
  | none => (0, 0)

end Sys2Proof.Machine
end

