-- ==== Sys2Proof/Machine/Package.lean ====
section
/-! DEFINITION. The package and its test access port (R469, R510, R522, R523, R526 to R528): ball names and groups, the IDCODE, and what a boundary
scan captures of the pins. The state machine of the port is that of IEEE 1149.1-2013, which the spec does not reproduce and the command table has
no row for (log entry 122). -/

namespace Sys2Proof.Machine

open Sys2Proof

/-- The letters of row names (R527). -/
def rowLetters : List Char := ['A', 'B', 'C', 'D', 'E', 'F', 'G', 'H', 'J', 'K', 'L', 'M', 'N', 'P', 'T', 'U', 'V', 'W', 'Y']

/-- The letters of row i, 1 to 106 (R526, R527). -/
def rowName (i : Nat) : List Char :=
  if i ≤ 19 then (rowLetters[i - 1]?).toList
  else (rowLetters[(i - 20) / 19]?).toList ++ (rowLetters[(i - 20) % 19]?).toList

/-- Groups of balls (R528). -/
inductive BallGroup where
  | joune | refclk | resets | flash | smbus | jtag | gpio | straps | sense | reserved | vddCore | vddSram | vddSer | vddaPll | vddIo | hbmVdd
  | hbmVddq | hbmVpp | vddHbmPhy | gnd
deriving DecidableEq, Repr

/-- How many balls each group has (R528). -/
def ballCounts : List (BallGroup × Nat) :=
  [(.joune, 144), (.refclk, 2), (.resets, 6), (.flash, 10), (.smbus, 6), (.jtag, 5), (.gpio, 16), (.straps, 10), (.sense, 6), (.reserved, 15),
   (.vddCore, 1800), (.vddSram, 400), (.vddSer, 216), (.vddaPll, 24), (.vddIo, 16), (.hbmVdd, 320), (.hbmVddq, 480), (.hbmVpp, 32),
   (.vddHbmPhy, 240), (.gnd, 7488)]

/-- The CMOS balls of R510 and R528. -/
inductive Pin where
  | porstN | warmN | faultN | alertN | thermtripN | pwrcap
  | spiClk | spiCsN | spiIo (k : Fin 8)
  | smb0Scl | smb0Sda | smb0AlertN | smb1Scl | smb1Sda | smb1AlertN
  | gpio (k : Fin 16) | strapFid (k : Fin 6) | strapAdp (k : Fin 4)
deriving DecidableEq, Repr

/-- What boundary scan covers (R522). -/
def scanPins : List Pin :=
  [.porstN, .warmN, .faultN, .alertN, .thermtripN, .pwrcap, .spiClk, .spiCsN] ++ (List.finRange 8).map Pin.spiIo ++
  [.smb0Scl, .smb0Sda, .smb0AlertN, .smb1Scl, .smb1Sda, .smb1AlertN] ++ (List.finRange 16).map Pin.gpio ++
  (List.finRange 6).map Pin.strapFid ++ (List.finRange 4).map Pin.strapAdp

/-- The level of a pin (R510, R523). An open-drain output that is not asserted, and every output while PORST_N is low, is pulled up. A level
that the board or a serial bus drives and State does not hold is free, by its place in the chain (log entry 122). -/
def pinLevel (s : State) (p : Pin) : Bool :=
  let p' := s.power
  let free : Bool := Config.pinIn s.now (16 + scanPins.idxOf p)
  match p with
  | .porstN => p'.porstN
  | .warmN => p'.warmN
  | .pwrcap => p'.pwrcap
  | .faultN => !p'.porstN || p'.faultN
  | .alertN => !p'.porstN || p'.alert == 0
  | .thermtripN => !p'.porstN || p'.thermtripN
  | .gpio k => (pinLevels s).testBit k
  | .spiClk | .spiCsN | .spiIo _ => free
  | .smb0Scl | .smb0Sda | .smb0AlertN | .smb1Scl | .smb1Sda | .smb1AlertN => free
  | .strapFid _ | .strapAdp _ => free

/-- What a boundary scan captures (R522); with no debug open it and the IDCODE are all the port gives (R469). -/
def scanCapture (s : State) : List Bool := scanPins.map (pinLevel s)

/-- The IDCODE (R522): stepping B1, the part, Feroskyn's identity code, 1. -/
def idcode : BitVec 32 := (0x2#4 ++ 0x0658#16) ++ (Config.jep106 ++ 1#1)

/-- What the debug port gives (R469): IDCODE and boundary scan always, the rest by the scope of an open. -/
structure PortAccess where
  idcode : Bool
  boundary : Bool
  runControl : Bool
  trace : Bool
deriving DecidableEq, Repr

/-- In MANUFACTURING the port is open with no token (R451). -/
def portAccess (s : State) : PortAccess :=
  let mfg : Bool := s.encl.fuses.lifecycle == 0
  ⟨true, true, mfg || s.encl.jtagOpen, mfg || s.encl.traceOpen⟩

end Sys2Proof.Machine
end

