-- ==== Sys2Proof/Machine/Security.lean ====
section
/-! DEFINITION. The enclave (R443 to R473): keys and their release, evidence, debug unlock, firmware update, zeroisation; and the
restart of service firmware with its claim on the trace buffer (R478, R483). Derivation strings are named by code: 0 GS8-DEVID, 1 GS8-CDI,
2 GS8-ALIAS, 3 GS8-CKPT, 4 GS8-KEK-1; signature contexts: 0 GS8-FW-1, 1 GS8-DEBUG-1, 2 manifests, 3 GS8-EVIDENCE-1, 4 GS8-ALIAS-1. -/

namespace Sys2Proof.Machine

open Sys2Proof

/-! ### Error, zeroisation and the DRBG -/

/-- The device goes offline and FAULT_N is asserted (R24, R510). -/
def goOffline (s : State) : State := { s with power := { s.power with offline := true, faultN := false } }

/-- Zeroisation (R448). -/
def zeroise (s : State) : State :=
  let e := s.encl
  { s with encl := { e with weightKeys := [], groupCur := none, groupPrev := none, drbgCount := 0
                            kem := e.kem.map (fun (k : Nat × KemSlot) => (k.1, { k.2 with full := false, dk := 0, digest := [] })) }
           chans := s.chans.map (fun (c : Nat × Chan) => (c.1, { c.2 with keys := [], pool := { c.2.pool with xts := [] } })) }

/-- The enclave enters ERROR (R447). -/
def enclaveError (cause : Nat) (s : State) : State :=
  let s := zeroise s
  goOffline { s with encl := { s.encl with state := .error, cause := cause % 256 } }

/-- ENCLAVE_ERROR (R447). -/
def execEnclaveError (cause : Nat) : State → Host.Outcome State Fault Refusal := whenUp (enclaveError cause)

/-- The DRBG is reseeded (R445). -/
def reseed (s : State) : State := { s with encl := { s.encl with reseeds := wrap64 (s.encl.reseeds + 1), drbgCount := 0 } }

/-- One generate request of the DRBG (R445): `n` bytes; it reseeds after 1,048,576 of them. -/
def drbgDraw (n : Nat) (s : State) : List Byte × State :=
  let b := (List.range n).map (Config.drbgByte s.freeIx)
  let s := ({ s with encl := { s.encl with drbgCount := s.encl.drbgCount + 1 } }).advanceFree
  (b, if 1048576 ≤ s.encl.drbgCount then reseed s else s)

/-- The STORAGE slot is loaded with a fresh key of the DRBG (R280, R453). -/
def loadStorage (n : Nat) (s : State) : State :=
  let r := drbgDraw 32 s
  r.2.modChan n (fun c => { c with keys := tset 0 ⟨true, 1 + 8 * leNat r.1, Config.openNat s.freeIx, 0⟩ c.keys })

/-! ### Evidence (R460 to R462) -/

/-- Bytes brought to a fixed length. -/
def fitTo (n : Nat) (l : List Byte) : List Byte := (List.range n).map (fun i => l.getD i 0)

/-- A map of CBOR items by their numbers (R304, R462). -/
def cborKeyed (l : List (Nat × List Byte)) : List Byte := cborHead 5 l.length ++ l.flatMap (fun e => cborUint e.1 ++ e.2)

/-- The four measurements, in layer order (R456). -/
def measured (e : Enclave) : List (List Byte) := (List.range 4).map (fun k => fitTo 64 (e.measurements.getD k []))

def devIdSeed (e : Enclave) : List Byte := Config.derive e.fuses.uds 0 e.fuses.serial 456

/-- The alias seed, from the CDI (R453). -/
def aliasSeed (e : Enclave) : List Byte :=
  Config.derive (Config.derive e.fuses.uds 1 (measured e).flatten 512) 2 e.fuses.serial 456

/-- The enclave derives identities and signs evidence (R451, R462, R472). -/
def identified (e : Enclave) : Bool := !e.debugOpened && (e.fuses.lifecycle == 1 || e.fuses.lifecycle == 2)

/-- The evidence map of R462, with the KEM key pair and its kem_id where one was made. -/
def evidenceMap (nonce : List Byte) (kem : Option (Nat × Nat)) (s : State) : List Byte :=
  let e := s.encl
  let f := e.fuses
  let id := identified e
  let serial := fitTo 16 f.serial
  let aliasKey := fitTo 57 (Config.publicKey (aliasSeed e))
  let own : Nat × List Byte → Option (Nat × List Byte) := fun x => if [8, 9, 10, 12].contains x.1 && !id then none else some x
  let gen (g : Option (Nat × List Byte)) : Nat := match g with | some x => x.1 | none => 0
  cborKeyed (([(1, cborUint 1), (2, cborBytes serial), (3, cborUint f.lifecycle),
    (4, cborUint ((if e.debugOpened then 1 else 0) + (if e.state == EnclaveState.error then 2 else 0))), (5, cborUint f.debugCount),
    (6, cborArray [cborUint f.svn, cborUint e.runningSvn]), (7, cborArray ((measured e).map cborBytes)),
    (8, cborBytes (fitTo 57 (Config.publicKey (devIdSeed e)))), (9, cborBytes (fitTo 114 e.endorsement)),
    (10, cborArray [cborBytes aliasKey, cborBytes (fitTo 114 (Config.edSign (devIdSeed e) 4 (serial ++ aliasKey ++ (measured e).flatten)))]),
    (11, cborBytes nonce), (12, cborBytes (fitTo 57 (ckptPub s)))] ++
    (match kem with
     | some (dk, id) => [(13, cborBytes (fitTo 1568 (Config.kemPublic dk))), (14, cborUint id)]
     | none => []) ++
    [(15, cborUint s.fid), (16, cborArray [cborUint (mirrorGroup s), cborUint (gen e.groupCur), cborUint (gen e.groupPrev)])]).filterMap own)

/-- The evidence record (R462); in MANUFACTURING, where no identity is derived, its bytes are free. -/
def evidenceRecord (nonce : List Byte) (kem : Option (Nat × Nat)) (s : State) : List Byte :=
  if s.encl.fuses.lifecycle = 0 then Config.evidenceBytes s.freeIx
  else
    let m := evidenceMap nonce kem s
    cborArray [cborBytes m, cborBytes (if identified s.encl then fitTo 114 (Config.edSign (aliasSeed s.encl) 3 m) else [])]

/-- A KEM slot. -/
def kemSlot (n : Nat) (s : State) : KemSlot := (tget n s.encl.kem).getD {}

/-- The slot a new key pair takes: the lowest empty one, or else the one made longest ago (R461). -/
def kemPick (s : State) : Nat :=
  match (List.range 16).find? (fun n => !(kemSlot n s).full) with
  | some n => n
  | none => (List.range 16).foldl (fun b n => if (kemSlot n s).madeAt < (kemSlot b s).madeAt then n else b) 0

/-- The use count of the key pair that a slot takes next: 28 bits. -/
def kemUse (n : Nat) (s : State) : Nat := ((kemSlot n s).useCount + 1) % 268435456

/-- OP_EVIDENCE_GET (R460, R461): the record is that of its acceptance. -/
def evidenceGet (d : Hdr) (nonce : List Byte) (outAddr outCap : Nat) (kem : Bool) (fn : Nat) (s : State) : State :=
  if outCap = 0 then complete d 0x68 .lenZero [] [] s
  else if 4096 < outCap then complete d 0x68 .paramInvalid [] [] s
  else
    match rangeCheck fn outAddr outCap s with
    | some st => complete d 0x68 st [] [] s
    | none =>
      let slot := kemPick s
      let id := slot + 16 * kemUse slot s
      let rec_ := evidenceRecord nonce (if kem then some (s.freeIx, id) else none) s
      if outCap < rec_.length then complete d 0x68 .lenExceedsBuffer [rec_.length, 4294967295] [] s
      else if kem ∧ s.encl.fuses.lifecycle = 0 then complete d 0x68 .lifecycle [] [] s
      else
        let s' := if kem then
            let r := (drbgDraw 64 s).2
            { r with encl := { r.encl with kem := tset slot ⟨true, kemUse slot s, s.now, s.freeIx, Config.sha3 rec_⟩ r.encl.kem } }
          else s.advanceFree
        addOp 0x68 d fn 8 [(outAddr, outCap)] true
          (.ready .ok [rec_.length, if kem then id else 4294967295] [(outAddr, .bytes rec_)]) s'

/-- OP_EVIDENCE_GET (R460). -/
def execOpEvidenceGet (d : Hdr) (nonce : List Byte) (outAddr outCap : Nat) (kem : Bool) : State → Host.Outcome State Fault Refusal :=
  accept 0x68 d (fun fn _ s => evidenceGet d nonce outAddr outCap kem fn s)

/-! ### Key release (R466, R467) -/

/-- Keys may be released (R451, R472). -/
def keysAllowed (s : State) : Bool := s.encl.fuses.lifecycle == 2 && !s.encl.debugOpened && !s.encl.barred

/-- The key a blob holds, unwrapped under the KEK of R466. -/
def unwrapKey (b : Blob) (k : KemSlot) (s : State) : Option (List Byte) :=
  let kek := Config.derive (Config.kemDecaps k.dk b.kemCt) 4 (s.encl.fuses.serial ++ b.evDigest ++ b.hdr) 256
  Config.gcmOpen (leNat kek) b.wrapIv b.hdr b.wrapped b.tag

/-- A released key in its place: a weight-key slot, or the current generation of the group key (R467). -/
def storeKey (b : Blob) (key : List Byte) (s : State) : State :=
  let e := s.encl
  if b.kind = 1 then { s with encl := { e with weightKeys := tset (b.target % 64) key e.weightKeys } }
  else
    let prev := match e.groupCur with | some g => if g.1 = b.gen then e.groupPrev else some g | none => e.groupPrev
    { s with encl := { e with groupCur := some (b.gen, key), groupPrev := prev } }

/-- release of R466. -/
def releaseKey (b : Blob) (s : State) : Status × State :=
  let slot := b.kemSlot
  let k := kemSlot slot s
  if !k.full || k.useCount != b.kemCount then (.nonceStale, s)
  else
    let s := { s with encl := { s.encl with kem := tset slot { k with full := false } s.encl.kem } }
    if k.digest ≠ b.evDigest then (.authFailed, s)
    else
      match unwrapKey b k s with
      | none => (.authFailed, s)
      | some key => if s.encl.runningSvn < b.minSvn then (.versionRevoked, s) else (.ok, storeKey b key s)

/-- The checks of R467 for a RELEASE. -/
def releaseCheck (kind fn addr len : Nat) (b : Blob) (s : State) : Option Status :=
  if len = 0 then some .lenZero
  else if len ≠ 1724 then some .paramInvalid
  else
    match rangeCheck fn addr len s with
    | some st => some st
    | none =>
      if b.kind ≠ kind ∨ kind = 2 ∧ b.target ≠ mirrorGroup s then some .paramInvalid
      else if !keysAllowed s then some .lifecycle
      else none

def keyRelease (opcode kind : Nat) (d : Hdr) (addr len : Nat) (b : Blob) (fn : Nat) (s : State) : State :=
  match releaseCheck kind fn addr len b s with
  | some st => complete d opcode st [] [] s
  | none => let r := releaseKey b s; complete d opcode r.1 [] [] r.2

/-- OP_KEY_RELEASE (R466). -/
def execOpKeyRelease (d : Hdr) (blobAddr blobLen : Nat) (blob : Blob) : State → Host.Outcome State Fault Refusal :=
  accept 0x69 d (fun fn _ s => keyRelease 0x69 1 d blobAddr blobLen blob fn s)

/-- OP_GROUP_KEY (R467). -/
def execOpGroupKey (d : Hdr) (blobAddr blobLen : Nat) (blob : Blob) : State → Host.Outcome State Fault Refusal :=
  accept 0x6A d (fun fn _ s => keyRelease 0x6A 2 d blobAddr blobLen blob fn s)

/-- KEY_ERASE (R467). -/
def execKeyErase (d : Hdr) (slot : Nat) : State → Host.Outcome State Fault Refusal :=
  accept 0x69 d (fun _ _ s =>
    if 64 ≤ slot then complete d 0x69 .paramInvalid [] [] s
    else if !keysAllowed s then complete d 0x69 .lifecycle [] [] s
    else complete d 0x69 .ok [] [] { s with encl := { s.encl with weightKeys := tdel slot s.encl.weightKeys } })

/-- GROUP_KEY_ERASE (R467): index 0 the current generation, 1 the previous one. -/
def execGroupKeyErase (d : Hdr) (index : Nat) : State → Host.Outcome State Fault Refusal :=
  accept 0x6A d (fun _ _ s =>
    if 2 ≤ index then complete d 0x6A .paramInvalid [] [] s
    else if !keysAllowed s then complete d 0x6A .lifecycle [] [] s
    else
      let e := s.encl
      complete d 0x6A .ok [] [] { s with encl := if index = 0 then { e with groupCur := none } else { e with groupPrev := none } })

/-! ### The trace buffer's claims (R481, R483) -/

/-- The monitor captures raw samples (R495). -/
def monRaw (n : Nat) (s : State) : Bool := monProbe n s != 0 && fieldOf (monCtl n s) 5 1 == 1

/-- Spectrum raw capture holds the trace buffer by a commit. -/
def rawHeld (s : State) : Bool := (List.range 128).any (fun n => monRaw n s)

/-- The runtime claim that holds the trace buffer: 0 crash dump, 1 debug trace. -/
def traceClaim (s : State) : Option Nat := if s.mgmt.crashDump then some 0 else if s.encl.traceOpen then some 1 else none

/-- A monitor's raw capture is suspended (R483). -/
def monSuspended (n : Nat) (s : State) : Bool := monRaw n s && (traceClaim s).isSome

/-- EV_RESOURCE_PREEMPTED for the trace buffer (R483). -/
def preempted (holder claimant : Nat) (start : Bool) (s : State) : State :=
  raiseEvent 0 (.resourcePreempted 2 (Config.claimCode holder) (Config.claimCode claimant) start) 8 s

/-- Each suspension and resumption between an earlier state and now is raised (R483). -/
def traceEvents (before s : State) : State :=
  let dbg (s : State) : Bool := s.mgmt.crashDump && s.encl.traceOpen
  let raw (s : State) : Bool := rawHeld s && (traceClaim s).isSome
  let s := if dbg s != dbg before then preempted 1 0 (dbg s) s else s
  if raw s != raw before then preempted 2 (((if raw s then traceClaim s else traceClaim before)).getD 0) (raw s) s else s

/-! ### Debug unlock (R469 to R472) -/

/-- DEBUG_CHALLENGE (R470). -/
def execDebugChallenge (d : Hdr) (addr : Nat) : State → Host.Outcome State Fault Refusal :=
  accept 0x6B d (fun fn _ s =>
    match rangeCheck fn addr 32 s with
    | some st => complete d 0x6B st [] [] s
    | none =>
      let r := drbgDraw 32 s
      complete d 0x6B .ok [] [(addr, .bytes r.1)] { r.2 with encl := { r.2.encl with nonce := some r.1 } })

/-- Item 3 of R471 passes. -/
def tokenSigned (t : Token) (f : Fuses) : Bool :=
  (if t.authority = 0 then Config.sha3 t.signer == f.dbgAuth
   else t.authority == 1 && f.ownAuth.any (fun b => b != 0) && Config.sha3 t.signer == f.ownAuth) && Config.edVerify t.signer 1 t.body t.sig

/-- Item 4 of R471 passes (R449, R451, R470). -/
def tokenPermitted (t : Token) (f : Fuses) : Bool :=
  if t.kind = 1 then (f.lifecycle == 1 || f.lifecycle == 2) && decide (f.debugCount < 8)
  else if t.kind = 2 then f.lifecycle == 1 && t.authority == 0
  else t.kind == 3 && decide (f.lifecycle < 3)

/-- Items 1 and 2 of R472. -/
def openDebug (d : Hdr) (t : Token) (fn : Nat) (s : State) : State :=
  let s := zeroise s
  let s := { s with encl := { s.encl with barred := true } }
  let s := (List.range 8).foldl (fun s n => beginChanReset n s) s
  addOp 0x6B d fn 8 [] true (.debugOpen (t.kind == 3) t.jtag t.trace) s

/-- Items 3 and 4 of R472, once no channel reset runs. -/
def debugDone (s : State) : State :=
  if (List.range 8).any (fun n => (s.chan n).resetting) then s
  else
    (s.ops.filter (fun o => match o.kind with | .debugOpen _ _ _ => true | _ => false)).foldl (fun s o =>
      match o.kind with
      | .debugOpen dec jtag trace =>
        let e := s.encl
        let s' := if dec then { s with encl := { e with fuses := { e.fuses with lifecycle := 3 } } }
          else { s with encl := { e with fuses := { e.fuses with debugCount := e.fuses.debugCount + 1 }, debugOpened := true
                                         jtagOpen := jtag, traceOpen := trace } }
        endOp o .ok [] [] (traceEvents s s')
      | _ => s) s

/-- SUBMIT (R471). -/
def debugSubmit (d : Hdr) (addr len : Nat) (t : Token) (fn : Nat) (s : State) : State :=
  if len ≠ 235 then complete d 0x6B .paramInvalid [] [] s
  else
    match rangeCheck fn addr len s with
    | some st => complete d 0x6B st [] [] s
    | none =>
      let held := s.encl.nonce
      let s := { s with encl := { s.encl with nonce := none } }
      if held ≠ some t.nonce ∨ t.serial ≠ s.encl.fuses.serial then complete d 0x6B .nonceStale [] [] s
      else if !tokenSigned t s.encl.fuses then complete d 0x6B .signatureInvalid [] [] s
      else if !tokenPermitted t s.encl.fuses then complete d 0x6B .lifecycle [] [] s
      else if t.kind = 2 then
        complete d 0x6B .ok [] [] { s with encl := { s.encl with fuses := { s.encl.fuses with lifecycle := 2 } } }
      else openDebug d t fn s

/-- DEBUG_SUBMIT (R471). -/
def execDebugSubmit (d : Hdr) (addr len : Nat) (token : Token) : State → Host.Outcome State Fault Refusal :=
  accept 0x6B d (fun fn _ s => debugSubmit d addr len token fn s)

/-! ### Firmware (R455 to R459, R478) -/

/-- Item 4 of R458, with the header's ranges (R457). -/
def imageCheck (i : FwImage) (s : State) : Option Status :=
  if i.magic ≠ 0x31574653 ∨ i.version ≠ 1 ∨ 64 < i.svn ∨ i.codeLen = 0 ∨ 33554176 < i.codeLen ∨ i.code.length ≠ i.codeLen then
    some .paramInvalid
  else if Config.sha3 i.signer ≠ s.encl.fuses.fwAuth ∨ !Config.edVerify i.signer 0 i.body i.sig
      ∨ Config.shake512 i.code ≠ i.codeDigest then some .signatureInvalid
  else if i.svn < s.encl.fuses.svn then some .versionRevoked
  else none

/-- The image of a slot: true for B. -/
def slotImage (b : Bool) (s : State) : Option FwImage := if b then s.encl.slotB else s.encl.slotA

/-- An OP_FW_UPDATE runs (R459). -/
def fwRuns (s : State) : Bool := s.ops.any (fun o => o.opcode == 0x6C)

/-- A restart of service firmware begins (R478 items 1 and 2): 1 watchdog, 2 ACTIVATE. -/
def startRestart (cause : Nat) (s : State) : State :=
  let s' := { s with mgmt := { s.mgmt with restarting := true, restartCause := cause, crashDump := true } }
  enterCongested (traceEvents s s')

/-- An OP_FW_UPDATE that has done its work ends with DESC_COMPLETE. -/
def fwReady (d : Hdr) (fn : Nat) (ranges : List (Nat × Nat)) (s : State) : State := addOp 0x6C d fn 8 ranges true (.ready .ok [] []) s

/-- FW_STAGE (R459). -/
def fwStage (d : Hdr) (addr len : Nat) (i : FwImage) (fn : Nat) (s : State) : State :=
  if fwRuns s then complete d 0x6C .mgmtBusy [] [] s
  else if len < 256 ∨ 33554432 < len then complete d 0x6C .paramInvalid [] [] s
  else
    match rangeCheck fn addr len s with
    | some st => complete d 0x6C st [] [] s
    | none =>
      match imageCheck i s with
      | some st => complete d 0x6C st [] [] s
      | none =>
        fwReady d fn [(addr, len)] { s with encl := if s.encl.bootActive then { s.encl with slotA := some i } else { s.encl with slotB := some i } }

/-- FW_STAGE (R459). -/
def execFwStage (d : Hdr) (addr len : Nat) (img : FwImage) : State → Host.Outcome State Fault Refusal :=
  accept 0x6C d (fun fn _ s => fwStage d addr len img fn s)

/-- FW_ACTIVATE (R459): the image of the slot not active is checked again under item 4 of R458. -/
def fwActivate (d : Hdr) (fn : Nat) (s : State) : State :=
  if fwRuns s then complete d 0x6C .mgmtBusy [] [] s
  else
    match slotImage (!s.encl.bootActive) s with
    | none => complete d 0x6C .signatureInvalid [] [] s
    | some i =>
      match imageCheck i s with
      | some st => complete d 0x6C st [] [] s
      | none =>
        fwReady d fn [] (startRestart 2 { s with encl := { s.encl with bootActive := !s.encl.bootActive, bootTrying := true, bootConfirmed := false, bootTries := 0 } })

/-- FW_ACTIVATE (R459). -/
def execFwActivate (d : Hdr) : State → Host.Outcome State Fault Refusal := accept 0x6C d (fun fn _ s => fwActivate d fn s)

/-- FW_COMMIT_SVN (R459). -/
def execFwCommitSvn (d : Hdr) : State → Host.Outcome State Fault Refusal :=
  accept 0x6C d (fun fn _ s =>
    if fwRuns s then complete d 0x6C .mgmtBusy [] [] s
    else if !s.encl.bootConfirmed then complete d 0x6C .notPermitted [] [] s
    else fwReady d fn [] { s with encl := { s.encl with fuses := { s.encl.fuses with svn := max s.encl.fuses.svn s.encl.runningSvn } } })

/-- FW_CONFIRM (R458): service firmware reaches ready within 2 s of its start. -/
def execFwConfirm : State → Host.Outcome State Fault Refusal :=
  whenUp (fun s =>
    if s.encl.state = .ready ∧ !s.mgmt.restarting ∧ s.now ≤ s.encl.startedAt + 2000000000 then
      { s with encl := { s.encl with bootConfirmed := true } }
    else s)

/-- Feroskyn's provisioning sequence (R449, R451): uds comes from the enclave's DRBG. -/
def provision (serial fwAuth dbgAuth ownAuth : List Byte) (s : State) : State :=
  if s.encl.fuses.lifecycle ≠ 0 then s
  else
    let r := drbgDraw 64 s
    let e := r.2.encl
    { r.2 with encl := { e with fuses := { e.fuses with uds := r.1, serial := fitTo 16 serial, fwAuth := fitTo 64 fwAuth
                                                        dbgAuth := fitTo 64 dbgAuth, ownAuth := fitTo 64 ownAuth, lifecycle := 1 } } }

/-- PROVISIONING_SEQUENCE (R451). -/
def execProvisioningSequence (serial fwAuth dbgAuth ownAuth : List Byte) : State → Host.Outcome State Fault Refusal :=
  whenUp (provision serial fwAuth dbgAuth ownAuth)

end Sys2Proof.Machine
end

