-- ==== Sys2Proof/Machine/Mgmt.lean ====
section
/-! DEFINITION. Management (R474 to R497): exception entries, the watchdog and service-firmware restarts, channel faults, staged
registers, commits and claims, channel reset ends and role switching, and the Spectrum monitors. -/

namespace Sys2Proof.Machine

open Sys2Proof

/-! ### Staged registers and locks (R479, R534, R535) -/

/-- The registers of access RWL that F1 may commit (R479). -/
def f1Reg (a : Nat) : Bool :=
  match addrChan a with
  | some n => a == chanBase n + 0x050 || a == chanBase n + 0x080
  | none => a == 0x008 || a == 0x0D8

/-- The class of the register at an address. -/
def regClassOf (a : Nat) : Option RegClass := (regRow a).map (·.cls)

/-- The lock that a register of a scope takes: the registers of F1, the other RECOMMIT ones, the ROLE ones (R479). -/
def lockOf (a : Nat) : Nat :=
  if regClassOf a = some .role then regScope a + 32 else if f1Reg a then regScope a + 16 else regScope a

/-- A register is locked: ROLE registers while their channel is ACTIVE too (R479). -/
def isLocked (a : Nat) (s : State) : Bool :=
  s.locks.contains (lockOf a) ||
  (regClassOf a == some .role && match addrChan a with | some n => (s.chan n).state == .active | none => false)

def addLock (k : Nat) (s : State) : State := if s.locks.contains k then s else { s with locks := k :: s.locks }

/-- The locks of a scope are cleared (R479). -/
def clearLocks (scope : Nat) (s : State) : State :=
  { s with locks := s.locks.filter (fun k => k != scope && k != scope + 16 && k != scope + 32) }

/-- A value with the 4 or 8 bytes of an access replaced (R530). -/
def mergeWrite (old a size value : Nat) : Nat :=
  if size = 8 then value
  else if a % 8 = 0 then old / 4294967296 * 4294967296 + value % 4294967296
  else old % 4294967296 + value % 4294967296 * 4294967296

/-- A write of an RWL register is staged unless it is locked (R534). -/
def stageWrite (r : Requester) (a size : Nat) (value : Word) (s : State) : State :=
  let b := a / 8 * 8
  match regRow b with
  | none => s
  | some row =>
    if isLocked b s then s
    else
      let key := keyOf r b s
      { s with staged := tset key (rowMask row (mergeWrite (stagedOf key s) a size value.toNat)) s.staged }

/-! ### Commit (R479 to R482, R536) -/

/-- A staged value of a scope that a commit of a requester applies; ROLE ones only at role assignment. -/
def commits (r : Requester) (scope : Nat) (role : Bool) (key : Nat) : Bool :=
  let a := key % 4294967296
  regScope a == scope && (regClassOf a == some .recommit || (role && regClassOf a == some .role)) && (r != .fn 1 || f1Reg a)

/-- The staged values applied, as they would stand. -/
def applied (r : Requester) (scope : Nat) (role : Bool) (s : State) : State :=
  let ks := s.staged.filter (fun e => commits r scope role e.1)
  { s with regs := ks.foldl (fun t e => tset e.1 e.2 t) s.regs, staged := s.staged.filter (fun e => !commits r scope role e.1) }

/-- The granules of a role's T1 and T2 pools, lowest and past the last (R75, R76, R320, R321, R350); a role without a T1 pool is given the
bounds of ATTN, which nothing of it allocates from. -/
def poolBounds (role : Role) (prism : Nat) : (Nat × Nat) × (Nat × Nat) :=
  ((match areaIn (t1Areas role) .granules with | some _ => granuleSpace (t1Areas role) | none => granuleSpace (t1Areas .attn)),
   granuleSpace (t2Areas role prism))

/-- The pool sizes of R92, for a role on a channel. -/
def poolSizes (n : Nat) (role : Role) (s : State) : Nat × Nat :=
  let b := poolBounds role (prismUnits n s)
  (b.1.2 - b.1.1, b.2.2 - b.2.1)

/-- A probe lies in the scope of its monitor (R494). -/
def probeOk (monitor probe : Nat) : Bool :=
  if monitor < 112 then [0, 1, 2, 3, 4, 5, 6, 8].contains probe else [0, 1, 3, 7, 8, 9, 10].contains probe

/-- The ranges that tie a staged value to others (R92, R96, R163, R216, R290, R494, R498): `key` in the state with the values applied. -/
def ruleOk (role : Role) (key : Nat) (s : State) : Bool :=
  let a := key % 4294967296
  match addrChan a with
  | none =>
    if a = 0x0F0 then decide (exqLow s < exqHigh s)
    else if a = 0x70008 then probeOk (key / 4294967296) (fieldOf (eff key s) 0 4)
    else true
  | some n =>
    let o := a - chanBase n
    let z := poolSizes n role s
    if o = 0x008 then fixedMode n s || decide (eff 0x010 s ≤ 16)
    else if o = 0x040 then decide (t1Low n s < t1High n s) && decide (t1High n s ≤ z.1)
    else if o = 0x048 then decide (t2Low n s < t2High n s) && decide (t2High n s ≤ z.2)
    else if o = 0x068 then spillTier n s == 0 || spillTier n s == 3 || spillTier n s == 4
    else if o = 0x078 then logitFmt n s == 0 || logitFmt n s == 9
    else if o = 0x080 then fieldOf (eff a s) 16 1 == 0 || fieldOf (eff a s) 0 6 != s.fid
    else true

/-- The commit enables a Mirror participant (R472). -/
def enables (r : Requester) (scope : Nat) (s : State) : Bool :=
  s.staged.any (fun e => commits r scope false e.1 && 1 ≤ scope && e.1 == chanBase (scope - 1) + 0x080 && fieldOf e.2 16 1 == 1 &&
    fieldOf (eff e.1 s) 16 1 == 0)

/-- The GPIO pins that board outputs and threshold outputs claim (R481, R497). -/
def pinClaims (s : State) : List Nat :=
  (List.range 16).filter (fun p => fieldOf (eff 0x140 s) p 1 == 1) ++
  ((List.range 128).filter (fun n => fieldOf (eff (0x70018 + 4294967296 * n) s) 37 1 == 1)).map
    (fun n => fieldOf (eff (0x70018 + 4294967296 * n) s) 32 4)

/-- The first entry of a list that comes again. -/
def firstTwice : List Nat → Option Nat
  | [] => none
  | x :: r => if r.contains x then some x else firstTwice r

/-- The resource that two committed claimants name (R481, R482), as resource[15:0]. -/
def conflict (s : State) : Option Nat :=
  let t := fieldOf (eff 0x0C8 s) 0 4
  if gateClaims t s then some (1 + 256 * t)
  else if 2 ≤ ((List.range 128).filter (fun n => monRaw n s)).length then some 2
  else (firstTwice (pinClaims s)).map (fun p => 3 + 256 * p)

/-- Checks 2 and 3 of R480, with the keys a Mirror participant needs (R454, R472). -/
def commitCheck (r : Requester) (scope : Nat) (role : Option Role) (s : State) : Option (Status × Nat) :=
  let s' := applied r scope role.isSome s
  let cur := role.getD (if 1 ≤ scope then (s.chan (scope - 1)).role else .none)
  let mine := (s.staged.filter (fun e => commits r scope role.isSome e.1)).map (·.1) ++
    (if role = some .attn then [chanBase (scope - 1) + 0x008] else [])
  if mine.any (fun k => !(match regRow (k % 4294967296) with | some row => rowOk row (eff k s') | none => true) || !ruleOk cur k s') then
    some (.paramInvalid, 0)
  else if enables r scope s ∧ s.encl.barred then some (.lifecycle, 0)
  else if enables r scope s ∧ s.encl.groupCur.isNone then some (.keyNotReleased, 0)
  else if scope = 0 then (conflict s').map (fun k => (.cfgResourceConflict, k))
  else none

/-- A new buddy (R291, R303, R536): an open generation ends on the old one, and the next is full. -/
def newBuddy (n : Nat) (before s : State) : State :=
  let old := eff (chanBase n + 0x080) before
  if old = eff (chanBase n + 0x080) s then s
  else
    let s := s.modChan n (fun c =>
      { c with mirror := { c.mirror with full := true, noBuddy := false
                                         oldBuddy := if c.mirror.gen = 0 then none else some (c.mirror.oldBuddy.getD old) } })
    if fieldOf old 16 1 = 0 then renewSlot1 n s else s

/-- Monitors whose set-up changed are cleared (R495, R541). -/
def clearMonitors (before s : State) : State :=
  let changed (n : Nat) : Bool := [0x70008, 0x70010].any (fun a => eff (a + 4294967296 * n) before != eff (a + 4294967296 * n) s)
  { s with monitors := s.monitors.filter (fun e => !changed e.1) }

/-- What follows from values that took effect (R440, R454, R483, R495, R536). -/
def committed (scope : Nat) (before s : State) : State :=
  if scope = 0 then
    let s := if s.fid = before.fid then s
      else { s with ports := s.ports.map (fun (e : Nat × Port) => if e.2.state = .active then (e.1, { e.2 with state := .config }) else e) }
    let s := if mirrorGroup s = mirrorGroup before then s else { s with encl := { s.encl with groupCur := none, groupPrev := none } }
    traceEvents before (clearMonitors before s)
  else newBuddy (scope - 1) before s

/-- The locks a COMMIT sets (R479). -/
def lockScope (r : Requester) (scope : Nat) (role : Bool) (s : State) : State :=
  let s := addLock (scope + 16) s
  let s := if r = .fn 1 then s else addLock scope s
  if role then addLock (scope + 32) s else s

/-- A commit after check 1 of R480: its status, the resource it names, and the state. -/
def commitNow (r : Requester) (scope : Nat) (role : Option Role) (s : State) : Status × Nat × State :=
  match commitCheck r scope role s with
  | some (st, k) => (st, k, s)
  | none => (.ok, 0, committed scope s (lockScope r scope role.isSome (applied r scope role.isSome s)))

/-- The status of the last commit, and the count of commits ended (R480, R538). -/
def noteCommit (st : Status) (resource : Nat) (s : State) : State :=
  { s with mgmt := { s.mgmt with cfgStatus := st, cfgResource := resource, commits := (s.mgmt.commits + 1) % 65536 } }

/-- PRT_CFG_STATUS after a commit has ended (R480, R538). -/
def cfgEnded (st : Status) (resource : Nat) (s : State) : State :=
  noteCommit st resource { s with mgmt := { s.mgmt with cfgBusy := none } }

/-- The channel of a scope is UNASSIGNED or FAILED (R479). -/
def idleScope (scope : Nat) (s : State) : Bool :=
  1 ≤ scope && ((s.chan (scope - 1)).state == .unassigned || (s.chan (scope - 1)).state == .failed)

/-- A COMMIT starts (R475, R480): it takes an exception entry, which its end frees. -/
def startCommit (r : Requester) (scope : Nat) (s : State) : State :=
  if s.mgmt.congested ∨ s.encl.state = .noFirmware then cfgEnded .mgmtBusy 0 s
  else
    let id := s.mgmt.nextEx
    let s := takeEntry s
    let r := if idleScope scope s then (Status.ok, 0, s) else commitNow r scope none s
    { r.2.2 with mgmt := { r.2.2.mgmt with cfgBusy := some ⟨scope, id, r.1, r.2.1⟩ } }

/-- A COMMIT is requested: it waits for one that is busy (R535). -/
def requestCommit (r : Requester) (scope : Nat) (s : State) : State :=
  if s.mgmt.cfgBusy.isSome then { s with mgmt := { s.mgmt with heldCommits := s.mgmt.heldCommits ++ [(r, scope)] } }
  else startCommit r scope s

/-- The commits that waited start, one after another, until one is busy (R535). -/
def nextCommits : Nat → State → State
  | 0, s => s
  | n + 1, s =>
    if s.mgmt.cfgBusy.isSome then s
    else
      match s.mgmt.heldCommits with
      | [] => s
      | (r, scope) :: rest => nextCommits n (startCommit r scope { s with mgmt := { s.mgmt with heldCommits := rest } })

/-- busy clears: the writes held are staged, and the next commit starts (R535). -/
def endCommit (run : CfgRun) (s : State) : State :=
  let held := s.mgmt.heldWrites
  let s := cfgEnded run.st run.resource { s with mgmt := { s.mgmt with heldWrites := [] } }
  let s := held.foldl (fun s w => stageWrite w.1 w.2.1 w.2.2.1 w.2.2.2 s) s
  nextCommits s.mgmt.heldCommits.length s

/-- A write to PRT_CFG_COMMIT (R479, R532): a scope that does not exist is ignored. -/
def cfgAction (r : Requester) (scope : Nat) (f : State → State) : State → Host.Outcome State Fault Refusal :=
  whenUp (fun s =>
    if r = .fn 0 ∨ r = .fn 1 then answerReg r .ok .empty (if scope ≤ 8 then f s else s) else denyReg r s)

/-- CFG_COMMIT (R480). -/
def execCfgCommit (r : Requester) (scope : Nat) : State → Host.Outcome State Fault Refusal :=
  cfgAction r scope (requestCommit r scope)

/-- UNLOCK (R479). -/
def unlockScope (r : Requester) (scope : Nat) (s : State) : State :=
  { s with locks := s.locks.filter (fun k => !(k == scope + 16 || (k == scope && r != .fn 1))) }

/-- CFG_UNLOCK (R479). -/
def execCfgUnlock (r : Requester) (scope : Nat) : State → Host.Outcome State Fault Refusal :=
  cfgAction r scope (unlockScope r scope)

/-- DISCARD (R479). -/
def discardScope (r : Requester) (scope : Nat) (s : State) : State :=
  { s with staged := s.staged.filter (fun e => !commits r scope true e.1) }

/-- CFG_DISCARD (R479). -/
def execCfgDiscard (r : Requester) (scope : Nat) : State → Host.Outcome State Fault Refusal :=
  cfgAction r scope (discardScope r scope)

/-! ### Exceptions, the watchdog and restarts (R475 to R478) -/

/-- The count of used entries has fallen: MGMT_CONGESTED ends at the low threshold unless a restart runs (R476). -/
def relieve (s : State) : State := if exqUsed s ≤ exqLow s ∧ !s.mgmt.restarting then leaveCongested s else s

/-- EXCEPTION_COMPLETE (R475): its entry is free. -/
def exceptionComplete (id : Nat) (s : State) : State :=
  if s.mgmt.exq.contains id then
    let s := relieve { s with mgmt := { s.mgmt with exq := s.mgmt.exq.erase id } }
    match s.mgmt.cfgBusy with
    | some run => if run.id = id then endCommit run s else s
    | none => s
  else s

/-- EXCEPTION_COMPLETE (R475): nothing completes while service firmware does not run. -/
def execExceptionComplete (id : Nat) : State → Host.Outcome State Fault Refusal :=
  whenUp (fun s => if s.mgmt.restarting ∨ s.encl.state = .noFirmware then s else exceptionComplete id s)

/-- PRT_WDOG_KICK (R478, R532). -/
def execPrtWdogKick (r : Requester) : State → Host.Outcome State Fault Refusal :=
  whenUp (fun s => if r = .service then { s with mgmt := { s.mgmt with kickedAt := s.now } } else denyReg r s)

/-- The watchdog expires (R478): a restart, or, for the fourth within 10 s, service firmware stays halted. -/
def watchdogExpiry (s : State) : State :=
  if s.mgmt.restarting ∨ s.encl.state = .noFirmware then s
  else
    let recent := s.now :: s.mgmt.restarts.filter (fun t => decide (s.now ≤ t + 10000000000))
    let s := { s with mgmt := { s.mgmt with restarts := recent } }
    if 4 ≤ recent.length then { s with encl := { s.encl with state := .noFirmware } } else startRestart 1 s

/-- WATCHDOG_EXPIRY (R478). -/
def execWatchdogExpiry : State → Host.Outcome State Fault Refusal := whenUp watchdogExpiry

/-- The image that runs, and its measurements (R456). -/
def runImage (s : State) : State :=
  match slotImage s.encl.bootActive s with
  | some i =>
    { s with encl := { s.encl with runningSvn := i.svn, bootFailed := false, state := .ready
                                   measurements := s.encl.measurements.take 2 ++ [Config.shake512 i.header, Config.shake512 i.code] } }
  | none => s

/-- Items 4 and 5 of R478. -/
def restartDone (duration : Nat) (s : State) : State :=
  if !s.mgmt.restarting then s
  else
    let cause := s.mgmt.restartCause
    let before := s
    let s := { s with mgmt := { s.mgmt with restarting := false, crashDump := false, kickedAt := s.now }
                      encl := { s.encl with startedAt := s.now } }
    let s := if cause = 2 then runImage s else s
    relieve (raiseEvent 0 (.mgmtRestart cause duration) 8 (traceEvents before s))

/-- FW_RESTART_DONE (R478). -/
def execFwRestartDone (duration : Nat) : State → Host.Outcome State Fault Refusal := whenUp (restartDone duration)

/-! ### Faults (R22 to R24, R486, R489) -/

/-- Accesses that wait at a pool channel are answered with ST_CHANNEL_FAILED (R489). -/
def failWaits (n : Nat) (s : State) : State :=
  let s := (s.chan n).pool.backlog.foldl (fun s cmd => match poolReqOf cmd with | some r => answer r .channelFailed 0 0 [] s | none => s) s
  (s.chan n).pool.waits.foldl (fun s w =>
    match w with
    | .recall _ cmd => (match poolReqOf cmd with | some r => answer r .channelFailed 0 0 [] s | none => s)
    | .secondary _ _ cmd _ _ _ _ => (match poolReqOf cmd with | some r => answer r .channelFailed 0 0 [] s | none => s)) s

/-- What a channel keeps in FAILED: its counters; its storage is lost and its keys erased (R22, R280, R533). -/
def failedChan (cause : Nat) (c : Chan) : Chan :=
  { blankChan c with
    state := .failed, cause := cause, epoch := c.epoch, resetting := false, switch := none
    failedOnce := true, eccCorr := c.eccCorr, eccUncorr := c.eccUncorr, scrubPass := c.scrubPass, stalled := c.stalled
    prismInvalid := c.prismInvalid, normFlush := c.normFlush, outInvalid := c.outInvalid, outFull := c.outFull
    arithSticky := c.arithSticky, attnDiscard := c.attnDiscard, cdnHdrErr := c.cdnHdrErr, cdnCrcErr := c.cdnCrcErr
    cdnTagErr := c.cdnTagErr, missTotal := c.missTotal
    mirror := { doneGen := c.mirror.doneGen, doneEpoch := c.mirror.doneEpoch, stallCount := c.mirror.stallCount, stallNs := c.mirror.stallNs } }

/-- The one report of a channel that entered FAILED (R489, R514). -/
def reportFailed (n cause : Nat) (s : State) : State :=
  raiseEvent 1 (.channelFailed n cause) n (raiseEvent 0 (.channelFailed n cause) n (setAlert 2 s))

/-- A fatal fault takes a channel to FAILED (R22, R23, R489). -/
def channelFault (n cause : Nat) (s : State) : State :=
  if (s.chan n).state = .failed ∧ !(s.chan n).resetting then s
  else
    let again := (s.chan n).failedOnce
    let s := endOps (fun o => o.kind == .roleSet n) .channelFailed (failWaits n s)
    let s := endOps (fun o => o.kind == .reset 3 n) .channelFailed s
    let s := clearParts n ((dropChannelWork n .channelFailed s).modChan n (failedChan cause))
    errorLog (if again then s else reportFailed n cause s)

/-- DEVICE_FATAL_FAULT (R24): the cause has no register of its own. -/
def execDeviceFatalFault (_cause : Nat) : State → Host.Outcome State Fault Refusal := whenUp goOffline

/-- PATROL_SCRUB (R486): corrected bursts, and a pass completed. -/
def patrolScrub (corrected : Nat) (passDone : Bool) (c : Chan) : Chan :=
  { c with eccCorr := wrap64 (c.eccCorr + corrected), scrubPass := if passDone then wrap64 (c.scrubPass + 1) else c.scrubPass }

/-- PATROL_SCRUB (R486): a correction leaves an error log (R475, R487). -/
def execPatrolScrub (channel corrected : Nat) (passDone : Bool) : State → Host.Outcome State Fault Refusal :=
  whenUp (fun s =>
    if channel < 8 then
      let s := s.modChan channel (patrolScrub corrected passDone)
      if corrected = 0 then s else errorLog s
    else s)

/-! ### The end of a channel reset and role switching (R407, R484, R485) -/

/-- A channel enters UNASSIGNED (R479, R542): its locks are cleared and its watermarks read 0. -/
def enterUnassigned (n : Nat) (s : State) : State :=
  let s := s.modChan n (fun c => { c with state := .unassigned, role := .none, cause := 0, failedOnce := false, resetting := false })
  clearLocks (n + 1) { s with regs := tdel (chanBase n + 0x040) (tdel (chanBase n + 0x048) s.regs) }

/-- The self-test of a channel fails (R407): it stays in FAILED or enters it. -/
def selfTestFailed (n : Nat) (s : State) : State :=
  let again := (s.chan n).failedOnce
  let cause := Config.openNat s.freeIx % 256
  let s := (s.advanceFree).modChan n (fun c => { c with state := .failed, cause := cause, resetting := false, switch := none, failedOnce := true })
  errorLog (if again then s else reportFailed n cause s)

/-- A field that holds 0 takes its default (R92). -/
def wmDefault (key lo w d : Nat) (s : State) : State :=
  let v := stagedOf key s
  if fieldOf v lo w = 0 then { s with staged := tset key (v + d * 2 ^ lo) s.staged } else s

/-- The watermark fields of a channel that hold 0 take their defaults (R92, R485 item 4). The size of the Prism area is the staged
one. -/
def wmDefaults (n : Nat) (role : Role) (s : State) : State :=
  let b := poolBounds role (fieldOf (stagedOf (chanBase n + 0x070) s) 0 12)
  let p1 := b.1.2 - b.1.1
  let p2 := b.2.2 - b.2.1
  wmDefault (chanBase n + 0x048) 32 22 (p2 - p2 / 8) (wmDefault (chanBase n + 0x048) 0 22 (p2 - p2 / 16)
    (wmDefault (chanBase n + 0x040) 32 17 (p1 - p1 / 8) (wmDefault (chanBase n + 0x040) 0 17 (p1 - p1 / 16) s)))

/-- The work-list registers of a channel return to their reset values (R543). -/
def clearWl (n : Nat) (s : State) : State :=
  { s with regs := s.regs.filter (fun e => !(decide (chanBase n + 0x100 ≤ e.1) && decide (e.1 < chanBase n + 0x240))) }

/-- Item 5 of R485. -/
def takeRole (n : Nat) (role : Role) (s : State) : State :=
  let b := poolBounds role (prismUnits n s)
  let s := clearWl n s
  let s := s.modChan n (fun c =>
    { c with t1 := { c.t1 with lo := b.1.1, hi := b.1.2 }, t2 := { c.t2 with lo := b.2.1, hi := b.2.2 }
             profiles := if role = .attn ∨ role = .model then s.profiles else c.profiles })
  let s := if role = .model then s else loadStorage n s
  s.modChan n (fun c => { c with state := .active, role := role })

/-- Items 4 to 6 of R485, on a channel that is UNASSIGNED. -/
def assignRole (n : Nat) (sw : RoleSwitch) (s : State) : State :=
  let s := s.modChan n (fun c => { c with switch := none })
  let fin (st : Status) (s : State) : State := endOps (fun o => o.kind == .roleSet n) st s
  if sw.role = .none then fin .ok s
  else if s.mgmt.congested then fin .mgmtBusy (noteCommit .mgmtBusy 0 s)
  else
    let r := commitNow (.fn 0) (n + 1) (some sw.role) (wmDefaults n sw.role s)
    if r.1 = .ok then fin .ok (takeRole n sw.role (noteCommit .ok 0 r.2.2)) else fin r.1 (noteCommit r.1 r.2.1 s)

/-- A channel reset, or the zeroing of a role switch, has reached its last item (R407, R485). -/
def channelResetDone (n : Nat) (ok : Bool) (s : State) : State :=
  let c := s.chan n
  match c.switch with
  | some sw =>
    if !sw.zeroing then s
    else if ok then assignRole n sw (enterUnassigned n s)
    else endOps (fun o => o.kind == .roleSet n) .channelFailed (selfTestFailed n s)
  | none =>
    if !c.resetting then s
    else if ok then endOps (fun o => o.kind == .reset 3 n) .ok (enterUnassigned n s)
    else endOps (fun o => o.kind == .reset 3 n) .channelFailed (selfTestFailed n s)

/-- Accepted work of a DRAINING channel has completed (R485 item 2). -/
def drained (n : Nat) (s : State) : Bool :=
  let c := s.chan n
  !s.ops.any (opOn n) && s.rings.all (fun e => e.2.target != n || e.2.accepted.isEmpty) && c.steps.isEmpty && c.bulk.isEmpty && c.runs.isEmpty
    && c.lens.queries.isEmpty && c.lens.writes.isEmpty && c.lens.waiting.isEmpty && c.pool.waits.isEmpty && c.pool.backlog.isEmpty

/-- Item 3 of R485 begins. -/
def beginZero (n : Nat) (s : State) : State :=
  let s := s.modChan n (fun c => { c with switch := c.switch.map (fun w => { w with zeroing := true }) })
  wipeChan n .abortedReset s

/-- A role switch goes on once its channel is drained. -/
def drainNext (n : Nat) (s : State) : State :=
  match (s.chan n).switch with
  | some sw => if !sw.zeroing && drained n s then beginZero n s else s
  | none => s

/-- The checks of R484, with R451. -/
def roleCheck (channel role : Nat) (s : State) : Option Status :=
  match roleOfCode role with
  | none => some .paramInvalid
  | some r =>
    if 8 ≤ channel then some .paramInvalid
    else if s.encl.fuses.lifecycle = 3 ∧ r ≠ .none then some .lifecycle
    else if s.mgmt.congested then some .mgmtBusy
    else if (s.chan channel).state = .failed then some .channelOffline
    else if (s.chan channel).role = .pool ∧ (s.chan channel).pool.extents.any (fun e => e.2.state != 0) then some .extentState
    else none

/-- An accepted OP_ROLE_SET (R485 item 1): an OP_STEP whose list is not yet fixed ends (R183). -/
def beginSwitch (d : Hdr) (n : Nat) (role : Role) (drainTmo fn : Nat) (s : State) : State :=
  let s := addOp 0x70 d fn 8 [] true (.roleSet n) s
  let s := s.modChan n (fun c => { c with switch := some ⟨d, role, drainTmo, false⟩, state := if c.state = .active then .draining else c.state })
  let s := endOps (fun o => match o.kind with | .stepWait c _ => c == n | _ => false) .channelOffline s
  drainNext n s

/-- OP_ROLE_SET (R484, R485): it waits while a reset or an earlier switch occupies the channel. -/
def roleSet (d : Hdr) (channel role drainTmo fn : Nat) (s : State) : State :=
  if channel < 8 ∧ ((s.chan channel).resetting ∨ (s.chan channel).switch.isSome) then s
  else
    match roleCheck channel role s with
    | some st => complete d 0x70 st [] [] s
    | none =>
      let r := (roleOfCode role).getD .none
      if (s.chan channel).state = .active ∧ (s.chan channel).role = r then complete d 0x70 .ok [] [] s
      else withEntry 0x70 d (beginSwitch d channel r drainTmo fn) s

/-- OP_ROLE_SET (R485). -/
def execOpRoleSet (d : Hdr) (channel role drainTmo : Nat) : State → Host.Outcome State Fault Refusal :=
  accept 0x70 d (fun fn _ s => roleSet d channel role drainTmo fn s)

/-- DRAIN_TMO_EXPIRY (R485 item 2). -/
def execDrainTmoExpiry (channel : Nat) : State → Host.Outcome State Fault Refusal :=
  whenUp (fun s =>
    match (s.chan channel).switch with
    | some sw => if sw.drainTmo ≠ 0 ∧ !sw.zeroing then beginZero channel s else s
    | none => s)

/-! ### The peer health table (R492) -/

/-- PRT_PEER_CLEAR (R492): the entry that the requester has selected. -/
def peerClear (entry : Nat) (s : State) : State :=
  let p := s.peer entry
  if p.down then
    let s := s.setPeer entry { p with down := false }
    linkEvent (.peerUp entry p.generation p.reports) s
  else s

/-- PRT_PEER_CLEAR (R492, R532). -/
def execPrtPeerClear (r : Requester) : State → Host.Outcome State Fault Refusal :=
  whenUp (fun s => if r = .fn 1 then answerReg r .ok .empty (peerClear (selOf r 0x118 s) s) else denyReg r s)

/-! ### Spectrum (R494 to R497) -/

/-- bin_of of R495. -/
def binOf (ctl : Nat) (v : Int) : Nat :=
  if fieldOf ctl 4 1 = 0 then
    (min (max ((v - (fieldOf ctl 32 16 : Int)) / ((max 1 (fieldOf ctl 48 16) : Nat) : Int)) 0) 63).toNat
  else
    let lo := fieldOf ctl 8 5
    if v < ((2 ^ lo : Nat) : Int) then 0
    else
      let e := Nat.log2 v.toNat
      min (1 + 4 * (e - lo) + (4 * v.toNat / 2 ^ e - 4)) 63

/-- A monitor with one more sample (R495). -/
def addSample (ctl : Nat) (v : Int) (m : Monitor) : Monitor :=
  let b := binOf ctl v
  { min := if m.count = 0 then v else min m.min v
    max := if m.count = 0 then v else max m.max v
    count := satTo 18446744073709551615 (m.count + 1)
    sum := min 18446744073709551615 (m.sum + v)
    bins := tset b (satTo 4294967295 ((tget b m.bins).getD 0 + 1)) m.bins
    last := some v }

/-- Submission entries of a ring that are posted and not yet completed (R494, log entry 126). -/
def ringOutstanding (k : Nat) (s : State) : Nat :=
  let r := s.ring k
  (r.sqTail - r.sqHead) + r.held.length + r.accepted.length + (s.ops.filter (fun o => o.hdr.ring == k)).length

/-- The sample of a monitor at the end of its period: a depth is what State holds, a temperature what the sensor last read; any other is what
the command brings (R494). -/
def sampleOf (n : Nat) (v : Int) (s : State) : Int :=
  let c := s.chan (n / 14)
  let kind := fieldOf (monCtl n s) 6 2
  let filter := fieldOf (monCtl n s) 16 16
  match monProbe n s with
  | 3 => if kind = 1 then (ringOutstanding filter s : Int) else v
  | 4 => (c.bulkLen : Int)
  | 5 => (c.blockDepth : Int)
  | 6 => (c.lens.table.length : Int)
  | 7 => (exqUsed s : Int)
  | 9 => if kind = 3 then s.power.temps.getD filter v else v
  | _ => v

/-- A sample enters a monitor (R495): statistics, and raw capture into the trace buffer of 1,048,576 samples unless it is suspended (R483). -/
def countSample (n : Nat) (v : Int) (s : State) : State :=
  if monProbe n s = 0 ∨ 128 ≤ n then s
  else
    let s := if monRaw n s && !monSuspended n s then
        { s with mgmt := { s.mgmt with trace := ((s.now, v) :: s.mgmt.trace).take 1048576 } } else s
    s.setMonitor n (addSample (monCtl n s) v (s.monitor n))

/-- SPECTRUM_SAMPLE (R494, R495). -/
def spectrumSample (n : Nat) (v : Int) (s : State) : State := countSample n (sampleOf n v s) s

/-- SPECTRUM_SAMPLE (R495). -/
def execSpectrumSample (monitor : Nat) (v : Int) : State → Host.Outcome State Fault Refusal := whenUp (spectrumSample monitor v)

/-- A monitor's record (R496), field by field. -/
def monitorRecord (n : Nat) (s : State) : List Nat :=
  let m := s.monitor n
  let ctl := monCtl n s
  [n + fieldOf ctl 0 4 * 2 ^ 16 + (fieldOf ctl 4 1 + fieldOf ctl 5 1 * 2 + (if monSuspended n s then 4 else 0)) * 2 ^ 32, s.now,
   if m.count = 0 then 18446744073709551615 else int64 m.min, if m.count = 0 then 0 else int64 m.max, m.count, int64 m.sum] ++
  (List.range 32).map (fun k => (tget (2 * k) m.bins).getD 0 % 2 ^ 32 + (tget (2 * k + 1) m.bins).getD 0 % 2 ^ 32 * 2 ^ 32) ++ [0, 0]

/-- OP_SPECTRUM_SNAPSHOT (R496): the records are those of its acceptance. -/
def spectrumSnapshot (d : Hdr) (mask : BitVec 128) (outAddr : Nat) (clear : Bool) (fn : Nat) (s : State) : State :=
  let ms := (List.range 128).filter (fun n => mask.getLsbD n)
  if ms.isEmpty then complete d 0x71 .lenZero [] [] s
  else
    match rangeCheck fn outAddr (320 * ms.length) s with
    | some st => complete d 0x71 st [] [] s
    | none =>
      let s' := if clear then { s with monitors := s.monitors.filter (fun e => !mask.getLsbD e.1) } else s
      addOp 0x71 d fn 8 [(outAddr, 320 * ms.length)] true
        (.ready .ok [] [(outAddr, .words (ms.flatMap (fun n => monitorRecord n s)))]) s'

/-- OP_SPECTRUM_SNAPSHOT (R496). -/
def execOpSpectrumSnapshot (d : Hdr) (mask : BitVec 128) (outAddr : Nat) (clear : Bool) : State → Host.Outcome State Fault Refusal :=
  accept 0x71 d (fun fn _ s => spectrumSnapshot d mask outAddr clear fn s)

end Sys2Proof.Machine
end

