-- ==== Sys2Proof/Machine/Power.lean ====
section
/-! DEFINITION. Power, pins and the device-wide resets (R401, R458, R499 to R525), the alert causes (R514), throttling (R516 to R518),
the ends of channel resets, and what passes with time. -/

namespace Sys2Proof.Machine

open Sys2Proof

/-! ### The ends of channel resets -/

/-- A warm device reset ends once no channel reset runs (R401, R512): while WARM_N is still low the device stays in reset. -/
def warmDone (s : State) : State :=
  if s.mgmt.resetBusy && (List.range 8).all (fun n => !(s.chan n).resetting) then
    if s.power.warmN then { s with mgmt := { s.mgmt with resetBusy := false } } else { s with power := { s.power with warmHeld := true } }
  else s

/-- What waits for channel resets to end (R472, R512). -/
def resetsEnded (s : State) : State := warmDone (debugDone s)

/-- CHANNEL_RESET_DONE (R407). -/
def execChannelResetDone (channel : Nat) (ok : Bool) : State → Host.Outcome State Fault Refusal :=
  whenUp (fun s => resetsEnded (channelResetDone channel ok s))

/-- CHANNEL_FATAL_FAULT (R22). -/
def execChannelFatalFault (channel cause : Nat) : State → Host.Outcome State Fault Refusal :=
  whenUp (fun s => if channel < 8 then resetsEnded (channelFault channel (cause % 256) s) else s)

/-! ### Warm device reset (R401, R512) -/

/-- A function other than F0 returns to its power-on setting; the counters of the port complex and the reset generation go on (R401,
R404, R533). -/
def warmFn (f : Fn) : Fn :=
  { resetGen := (f.resetGen + 1) % 256, lateRsp := f.lateRsp, evLost := f.evLost, misroute := f.misroute, fence := true }

/-- F0 keeps its binding and its doorbell base (R401). -/
def warmF0 (f : Fn) : Fn := { warmFn f with adapter := f.adapter, enable := true, dbBase := f.dbBase }

/-- A ring pair after a warm device reset: those of F0 are cleared, the others DISABLED (R401). -/
def warmRing (n : Nat) (r : Ring) : Ring :=
  if r.owner = 0 then ringDefault n
  else { r with state := .disabled, sqTail := 0, sqHead := 0, cqPosted := 0, cqHead := 0, counter := 0, held := [], metered := false, accepted := [] }

/-- What a warm device reset does besides its channel resets (R401, R445, R479, R523). -/
def warmParts (s : State) : State :=
  let s := { s with ops := [], loads := [], reqWait := [], rings := s.rings.map (fun (e : Nat × Ring) => (e.1, warmRing e.1 e.2)) }
  let s := dropReqs (fun _ => true) s
  let f0 := warmF0 (s.fn 0)
  let s := { s with fns := s.fns.map (fun (e : Nat × Fn) => (e.1, warmFn e.2)) }
  let s := s.setFn 0 f0
  let full (p : Pair) : Pair := { p with c := ((p.params.cbs * 1000 : Nat) : Int), p := ((p.params.pbs * 1000 : Nat) : Int) }
  reseed { s with locks := s.locks.filter (fun k => k != 0 && k != 16), regs := tdel 0x140 s.regs
                  pairs := s.pairs.map (fun (e : Nat × Pair) => (e.1, full e.2)) }

/-- A warm device reset begins; one requested while it runs joins it (R402, R512). A channel whose reset is under way goes on with it, and its
epoch rises for this reset too (R39). -/
def warmReset (s : State) : State :=
  if s.mgmt.resetBusy then s
  else
    let s := warmParts s
    let s := { s with mgmt := { s.mgmt with resetBusy := true } }
    (List.range 8).foldl (fun s n => if (s.chan n).resetting then s.modChan n (fun c => { c with epoch := (c.epoch + 1) % 64 }) else beginChanReset n s) s

/-- WARM_DEVICE_RESET (R401): OP_RESET of scope 4 from F0, which posts nothing, or WARM_N falling. -/
def execWarmDeviceReset (by_ : ResetBy) : State → Host.Outcome State Fault Refusal :=
  match by_ with
  | .desc d => accept 0x60 d (fun fn _ s => if fn ≠ 0 then complete d 0x60 .notPermitted [] [] s else warmReset s)
  | .reg _ => whenUp (fun s => s)
  | .pin => fun s =>
    let s' := { s with power := { s.power with warmN := false } }
    .next (if s.up then warmReset s' else s')
  | .adapterLoss => whenUp (fun s => s)

/-- WARM_N rises (R512): a reset whose work has ended completes. -/
def warmRise (s : State) : State :=
  let s' := { s with power := { s.power with warmN := true } }
  if s.power.warmHeld then { s' with power := { s'.power with warmHeld := false }, mgmt := { s.mgmt with resetBusy := false } } else s'

/-- WARM_N_RISE (R512): taken even while the device is held in reset. -/
def execWarmNRise : State → Host.Outcome State Fault Refusal := fun s => .next (warmRise s)

/-! ### Power-on (R401, R458, R511, R513) -/

/-- Every register, table, memory and counter at its reset value; the fuses stay (R401). -/
def powerOff (s : State) : State :=
  { State.reset with
    pending := s.pending, out := s.out, freeIx := s.freeIx
    encl := { State.reset.encl with fuses := s.encl.fuses }
    power := { State.reset.power with warmN := s.power.warmN, pwrcap := s.power.pwrcap } }

/-- PORST_N_FALL (R513): it overrides every other pin and every reset in progress. -/
def execPorstNFall : State → Host.Outcome State Fault Refusal := fun s => .next (powerOff s)

/-- Item 3 of R458: the slot of the boot record, and the record as it leaves the item. -/
def pickSlot (b : BootInput) : Bool × Bool × Nat :=
  if b.trying && decide (3 ≤ b.tries) && !b.confirmed then (!b.active, false, b.tries) else (b.active, b.trying, min 15 (b.tries + 1))

/-- The image that verifies: the selected slot's, or else the other's (R458 item 4). -/
def bootImage (b : BootInput) (slot : Bool) (s : State) : Option Bool :=
  let ok (k : Bool) : Bool := match if k then b.slotB else b.slotA with
    | some i => (imageCheck i s).isNone
    | none => false
  if ok slot then some slot else if ok (!slot) then some (!slot) else none

/-- Items 3 to 6 of R458. -/
def bootFirmware (b : BootInput) (s : State) : State :=
  let r := pickSlot b
  let e := { s.encl with slotA := b.slotA, slotB := b.slotB, bootTrying := r.2.1, bootConfirmed := b.confirmed, bootTries := r.2.2
                         endorsement := b.endorsement, measurements := [Config.romMeasure 0, Config.romMeasure 1], startedAt := s.now }
  match bootImage b r.1 s with
  | some k => runImage { s with encl := { e with bootActive := k } }
  | none => { s with encl := { e with bootActive := r.1, state := .noFirmware, bootFailed := true, cause := Config.openNat s.freeIx % 256 }
                     freeIx := s.freeIx + 1 }

/-- A channel at the end of item 5 of R511. -/
def bootChan (ok : BitVec 8) (ports : BitVec 9) (s : State) (n : Nat) : State :=
  let s := s.modChan n (fun c => { c with hbmTrained := true })
  if ok.getLsbD n && ports.getLsbD n then s else selfTestFailed n s

/-- Items 1 to 3 of R511: straps, PLL and clocks. -/
def powerUp (b : BootInput) (s : State) : State :=
  let s := powerOff s
  { s with power := { s.power with porstN := true, strapFid := b.fid % 64, strapAdp := b.adp % 16, pllLock := true, clocks := true } }

/-- A port whose test passes goes to DETECT (R511). -/
def portsUp (b : BootInput) (s : State) : State :=
  { s with ports := (List.range 9).map (fun n => (n, if b.portOk.getLsbD n then { state := .detect } else {})) }

/-- PORST_N rises (R511): straps, PLL and clocks, enclave tests, ports, firmware and channels, in one step. -/
def boot (b : BootInput) (s : State) : State :=
  if b.enclaveTestCause ≠ 0 then enclaveError b.enclaveTestCause (powerUp b s)
  else (List.range 8).foldl (bootChan b.channelOk b.portOk) (bootFirmware b (portsUp b (powerUp b s)))

/-- PORST_N_RISE (R511). -/
def execPorstNRise (b : BootInput) : State → Host.Outcome State Fault Refusal := fun s => .next (if s.power.porstN then s else boot b s)

/-! ### Clocks and rails (R501 to R509, R515) -/

/-- PLL_LOCK_LOSS (R509). -/
def execPllLockLoss : State → Host.Outcome State Fault Refusal :=
  whenUp (fun s => goOffline { s with power := { s.power with pllLock := false } })

/-- RAIL_FAULT (R505). -/
def execRailFault (_rail : Nat) : State → Host.Outcome State Fault Refusal := whenUp goOffline

/-- THERMTRIP (R515): a comparator independent of every clock; the pin latches and the clocks stop. -/
def execThermtrip (sensor : Nat) : State → Host.Outcome State Fault Refusal := fun s =>
  .next (if s.power.porstN ∧ sensor < 24 then { s with power := { s.power with thermtripN := false, clocks := false } } else s)

/-- The regulator address of a rail (R502, R539). -/
def railAddr (rail : Nat) (s : State) : Nat := if rail < 8 then fieldOf (eff 0x30050 s) (8 * rail) 7 else fieldOf (eff 0x30058 s) 0 7

/-- One addressed regulator is read (R502): its power, its warning, a fault (R505), and whether a commanded setpoint was reached within
1 ms (R501), to the tolerance of R499. -/
def pollRail (s : State) (e : Nat × RailReading) : State :=
  let rail := e.1
  let r := e.2
  if railAddr rail s = 0 then s
  else
    let p := s.power
    let due := rail == 0 && p.avsPending && (match p.avsAt with | some t => decide (t + 1000000 ≤ s.now) | none => false)
    let off := decide (3 * p.avsMv < 100 * ((r.millivolts - p.avsMv) + (p.avsMv - r.millivolts)))
    let mw := (List.range 9).map (fun k => if k = rail then r.milliwatts else p.railMw.getD k 0)
    let warn := if r.warning then rail :: p.regWarning.erase rail else p.regWarning.erase rail
    let s := { s with power := { p with railMw := mw, regWarning := warn, avsPending := p.avsPending && !due } }
    let s := if r.warning then setAlert 3 s else s
    let s := warnMeasure 4 rail (if r.warning then 1 else 0) s
    if r.fault ∨ (due && off) then goOffline s else s

/-- The poll of each addressed regulator (R502). -/
def pmbusPoll (rs : List RailReading) (s : State) : State := ((List.range 9).zip rs).foldl pollRail s

/-- PMBUS_POLL (R502). -/
def execPmbusPoll (rs : List RailReading) : State → Host.Outcome State Fault Refusal := whenUp (pmbusPoll rs)

/-- SMB1_ALERT_N (R502): the poll is made at once. -/
def execSmb1AlertN (rs : List RailReading) : State → Host.Outcome State Fault Refusal := whenUp (pmbusPoll rs)

/-- The setpoint that the critical-path monitors ask for (R501): 5 mV lower while all pass, 5 mV higher when one fails. -/
def avsNext (allPass : Bool) (mv : Nat) : Nat := if allPass then max 600 (mv - 5) else min 800 (mv + 5)

/-- A new setpoint is commanded, at most once per 50 µs (R501). -/
def avsAdjust (allPass : Bool) (s : State) : State :=
  let mv := avsNext allPass s.power.avsMv
  let soon : Bool := match s.power.avsAt with | some t => decide (s.now < t + 50000) | none => false
  if mv = s.power.avsMv ∨ soon ∨ railAddr 0 s = 0 then s
  else ({ s with power := { s.power with avsMv := mv, avsAt := some s.now, avsPending := true } }).emit (.pmbus 0 mv)

/-- AVS_ADJUST (R501). -/
def execAvsAdjust (allPass : Bool) : State → Host.Outcome State Fault Refusal := whenUp (avsAdjust allPass)

/-! ### Thermal and power limits (R514 to R518) -/

/-- The hottest sensor: its number and reading in m°C. -/
def hottest : List Int → Nat × Int
  | [] => (0, 0)
  | t :: r => (t :: r).zipIdx.foldl (fun b e => if b.2 < e.1 then (e.2, e.1) else b) (0, t)

/-- PWR_THERM_ALERT and PWR_THERM_THROTTLE, in m°C. -/
def thermAlert (s : State) : Int := ((fieldOf (eff 0x30020 s) 0 7 * 1000 : Nat) : Int)

def thermThrottle (s : State) : Int := ((fieldOf (eff 0x30028 s) 0 7 * 1000 : Nat) : Int)

/-- The duty of the thermal controller after a sample (R517). -/
def thermalDuty (t throttle : Int) (duty : Nat) : Nat :=
  if throttle ≤ t then duty - 1 else if t < throttle - 2000 then min 64 (duty + 1) else duty

/-- A cause of PWR_ALERT_STATUS is present (R514). -/
def causePresent (k : Nat) (s : State) : Bool :=
  if k = 0 then decide (thermAlert s ≤ (hottest s.power.temps).2) && !s.power.temps.isEmpty
  else if k = 1 then !s.mirrorDev.warned.isEmpty
  else if k = 2 then (List.range 8).any (fun n => (s.chan n).state == .failed)
  else if k = 3 then !s.power.regWarning.isEmpty
  else if k = 4 then s.power.pwrcap
  else k == 5 && decide (s.power.dutyTherm < 64)

/-- Causes that are present set their bits (R514). -/
def refreshAlerts (s : State) : State := (List.range 6).foldl (fun s k => if causePresent k s then setAlert k s else s) s

/-- Every sensor is read (R516), the throttle follows (R517), and the margin of R307 is measured. -/
def thermalSample (temps : List Int) (s : State) : State :=
  let h := hottest temps
  let s := { s with power := { s.power with temps := temps, dutyTherm := thermalDuty h.2 (thermThrottle s) s.power.dutyTherm } }
  warnMeasure 3 h.1 ((105000 - h.2) / 1000).toNat (refreshAlerts s)

/-- THERMAL_SAMPLE (R517). -/
def execThermalSample (temps : List Int) : State → Host.Outcome State Fault Refusal := whenUp (thermalSample temps)

/-- PWRCAP_CHANGE (R518): the pin's level, and its alert cause while the block is up. -/
def execPwrcapChange (level : Bool) : State → Host.Outcome State Fault Refusal := fun s =>
  let s' := { s with power := { s.power with pwrcap := level } }
  .next (if level && s.up then setAlert 4 s' else s')

/-- The power estimate of 1 µs (R518): the core estimate and the PMBus readings of the other rails. The duty that the controller sets, from
8/64 to 64/64, is free. -/
def powerControl (coreMw : Nat) (s : State) : State :=
  let p := s.power
  ({ s with power := { p with powerHist := ((coreMw + (p.railMw.drop 1).sum) :: p.powerHist).take 1000
                              dutyPower := 8 + Config.openNat s.freeIx % 57 } }).advanceFree

/-- POWER_CONTROL (R518). -/
def execPowerControl (coreMw : Nat) : State → Host.Outcome State Fault Refusal := whenUp (powerControl coreMw)

/-- The duty in force: the lower of the two controllers' (R518). -/
def dutyOf (s : State) : Nat := min s.power.dutyTherm s.power.dutyPower

/-! ### Alert causes and the BMC port (R514, R521) -/

/-- A W1C write of PWR_ALERT_STATUS (R514). -/
def clearAlerts (mask : BitVec 6) (s : State) : State := { s with power := { s.power with alert := s.power.alert &&& ~~~mask } }

/-- ALERT_STATUS_CLEAR (R514, R532). -/
def execAlertStatusClear (r : Requester) (mask : BitVec 6) : State → Host.Outcome State Fault Refusal :=
  whenUp (fun s => if r = .fn 0 ∨ r = .bmc then answerReg r .ok .empty (clearAlerts mask s) else denyReg r s)

/-- A Block Write (R521): it sets the register address, and a value goes to the two registers writable there. -/
def bmcWrite (addr : Nat) (value : Option (BitVec 32)) (s : State) : State :=
  let s := { s with power := { s.power with bmcAddr := addr } }
  match value with
  | none => s
  | some v =>
    if addr = 0x30040 then clearAlerts (v.setWidth 6) s
    else if addr = 0x30030 ∧ v.toNat ≤ 23 then setSel .bmc 0x30030 v.toNat s
    else s

/-- BMC_BLOCK_WRITE (R521). -/
def execBmcBlockWrite (addr : Nat) (value : Option (BitVec 32)) : State → Host.Outcome State Fault Refusal := whenUp (bmcWrite addr value)

/-- BMC_BLOCK_READ (R521): a register outside PWR_, CLK_ and SEC_ reads zero. -/
def execBmcBlockRead : State → Host.Outcome State Fault Refusal :=
  whenUp (fun s => s.emit (.bmc (if readPermitted .bmc s.power.bmcAddr s then (readReg .bmc s.power.bmcAddr 4 s).2 else 0)))

/-! ### Time -/

/-- The local timer counts while CLK_MGMT runs, in reset too (R169, R401). -/
def tickTimer (s : State) : State :=
  if s.power.porstN && s.power.clocks && s.power.pllLock then { s with now := wrap64 (s.now + 1) } else s

/-- One nanosecond of the local timer passes with no command: the timer (R169), the composition counters (R419), the throttled
time (R518), the doorbell messages of the past instant (R376), what the ports send (R431), pool requests that wait for
room (R335), and role switches whose channel is drained (R485). -/
def tick (s : State) : State :=
  let t := tickTimer s
  if s.up && s.power.pllLock then
    let s := (List.range 8).foldl (fun s n => drainNext n (poolDrain 256 n s)) (transmit s)
    { s with
      now := t.now
      comps := s.comps.map (fun (e : Nat × Composition) => (e.1, tickComp s e.2))
      mgmt := { s.mgmt with notifies := 0 }
      power := { s.power with throttleNs := if dutyOf s < 64 then wrap64 (s.power.throttleNs + 1) else s.power.throttleNs } }
  else t

end Sys2Proof.Machine
end

