-- ==== Sys2Proof/Machine/RegWrite.lean ====
section
/-! DEFINITION. Register writes (R530 to R537, R543): permission, range, staging, and the registers whose write acts by itself. -/

namespace Sys2Proof.Machine

open Sys2Proof

/-- A requester may write a register (R532). -/
def writePermitted (r : Requester) (a : Nat) (w : Writers) (s : State) : Bool :=
  match w with
  | .f0 => r == .fn 0
  | .f0f1 => r == .fn 0 || r == .fn 1
  | .f1 => r == .fn 1
  | .every => match r with | .fn _ => true | .service => true | .bmc => true | .endpoint _ => false
  | .fnSelf => fnOrF0 r (selOf r 0x060 s)
  | .ringOwner => fnOrF0 r (s.ring (selOf r 0x030 s)).owner
  | .wlHead =>
    r == .fn 0 || (match addrChan a with
      | some n => r == .endpoint (wlFid n ((a - chanBase n - 0x200) / 8) s)
      | none => false)
  | .service => r == .service
  | .f0Bmc => r == .fn 0 || r == .bmc
  | .none => false

/-- The access writes bit `k` of the register. -/
def covers (a size k : Nat) : Bool := size == 8 || (if a % 8 = 0 then decide (k < 32) else decide (32 ≤ k))

def okReg (r : Requester) (s : State) : State := answerReg r .ok .empty s

/-- A value outside its range (R530). -/
def badReg (r : Requester) (s : State) : State := answerReg r .paramInvalid .empty s

/-! ### Ring contexts (R368 to R371) -/

/-- PRT_RING_OWNER. -/
def writeRingOwner (r : Requester) (a size v : Nat) (s : State) : State :=
  let k := selOf r 0x030 s
  let g := s.ring k
  let w := mergeWrite (g.owner + g.line * 256) a size v
  if fieldOf w 0 8 ≠ g.owner ∧ r ≠ .fn 0 then denyReg r s
  else okReg r (if g.state = .disabled then s.setRing k { g with owner := fieldOf w 0 8, line := fieldOf w 8 6 } else s)

/-- PRT_RING_CTL: while enable is 1 only a write of enable = 0 acts. -/
def writeRingCtl (r : Requester) (a size v : Nat) (s : State) : State :=
  let k := selOf r 0x030 s
  let g := s.ring k
  let on : Bool := g.state != .disabled
  let w := mergeWrite (g.target + g.sqExp * 256 + g.cqExp * 65536 + if on then 16777216 else 0) a size v
  if on then (if fieldOf w 24 1 = 0 then regRingReset r k s else okReg r s)
  else if 8 < fieldOf w 0 4 then badReg r s
  else
    let s := s.setRing k { g with target := fieldOf w 0 4, sqExp := fieldOf w 8 5, cqExp := fieldOf w 16 5 }
    okReg r (if fieldOf w 24 1 = 1 then enableRing k s else s)

/-- PRT_RING_SQ_BASE and PRT_RING_CQ_BASE. -/
def writeRingBase (r : Requester) (sq : Bool) (a size v : Nat) (s : State) : State :=
  let k := selOf r 0x030 s
  let g := s.ring k
  let w := mergeWrite (if sq then g.sqBase else g.cqBase) a size v / 4096 * 4096
  okReg r (if g.state = .disabled then s.setRing k (if sq then { g with sqBase := w } else { g with cqBase := w }) else s)

/-! ### Functions (R397 to R399) -/

/-- A function has an ACTIVE ring pair. -/
def ringsActive (fn : Nat) (s : State) : Bool := s.rings.any (fun e => e.2.owner == fn && e.2.state == .active)

/-- PRT_FN_BIND and PRT_FN_CTL: ignored while the function has an ACTIVE ring pair. -/
def writeFnBind (r : Requester) (bind : Bool) (a size v : Nat) (s : State) : State :=
  let n := selOf r 0x060 s
  let f := s.fn n
  let w := mergeWrite (if bind then f.adapter else if f.enable then 1 else 0) a size v
  if bind ∧ (fieldOf w 0 7 < 0x40 ∨ 0x4F < fieldOf w 0 7) then badReg r s
  else okReg r (if ringsActive n s then s
    else s.setFn n (if bind then { f with adapter := fieldOf w 0 7 } else { f with enable := fieldOf w 0 1 == 1 }))

/-- PRT_FN_DB_BASE: the function itself writes it only while none of its rings is ACTIVE. -/
def writeFnDb (r : Requester) (a size v : Nat) (s : State) : State :=
  let n := selOf r 0x060 s
  let f := s.fn n
  okReg r (if r ≠ .fn 0 ∧ ringsActive n s then s else s.setFn n { f with dbBase := mergeWrite f.dbBase a size v / 4096 * 4096 })

/-- PRT_FN_EVRING: events held for a ring that is ACTIVE follow. -/
def writeFnEvring (r : Requester) (a size v : Nat) (s : State) : State :=
  let n := selOf r 0x060 s
  let f := s.fn n
  let w := mergeWrite (f.evRing + f.evVector * 65536 + if f.evValid then 16777216 else 0) a size v
  okReg r (drainEvents n 65 (s.setFn n { f with evRing := fieldOf w 0 12, evVector := fieldOf w 16 6, evValid := fieldOf w 24 1 == 1 }))

/-- PRT_FN_VEC: a vector unmasked is tried (R400). -/
def writeVec (r : Requester) (a size v : Nat) (s : State) : State :=
  let n := selOf r 0x060 s
  let k := selOf r 0x0A0 s
  let f := s.fn n
  let x := f.vec k
  let w := mergeWrite ((if x.mask then 1 else 0) + x.count * 256 + x.time * 65536) a size v
  if fieldOf w 8 8 = 0 then badReg r s
  else okReg r (trySend n k (s.setFn n { f with
    vecs := tset k { x with mask := fieldOf w 0 1 == 1, count := fieldOf w 8 8, time := fieldOf w 16 20 } f.vecs }))

/-! ### Ports, subscribers and other registers that act -/

/-- JLK_PORT_CTL for one port: its width setting, its enable, and rewiden. -/
def writePortOf (v : Nat) (s : State) (p : Nat) : State :=
  let old := eff 0x40000 s
  let s := setEff 0x40000 (old - fieldOf old (4 * p + 1) 2 * 2 ^ (4 * p + 1) + fieldOf v (4 * p + 1) 2 * 2 ^ (4 * p + 1)) s
  let s := if fieldOf v (4 * p) 1 = fieldOf old (4 * p) 1 then s else if fieldOf v (4 * p) 1 = 1 then enablePort p s else disablePort p s
  if fieldOf v (4 * p + 3) 1 = 1 then s.modPort p rewidenPort else s

/-- JLK_PORT_CTL. -/
def writePorts (r : Requester) (a size v : Nat) (s : State) : State :=
  let w := mergeWrite (eff 0x40000 s) a size v
  if (List.range 9).any (fun p => fieldOf w (4 * p + 1) 2 == 3) then badReg r s
  else okReg r (((List.range 9).filter (fun p => covers a size (4 * p))).foldl (writePortOf w) s)

/-- The words of a subscriber other than the one that holds enable ignore writes while enable is 1 (R543). -/
def writeSub (r : Requester) (n k : Nat) (row : RegRow) (b a size v : Nat) (s : State) : State :=
  let w := rowMask row (mergeWrite (eff b s) a size v)
  if !rowOk row w then badReg r s
  else okReg r (if b % 0x20 ≠ 0 ∧ wlEnabled n k s then s else setEff b w s)

/-- CHN_WL_HEADn (R543). -/
def writeWlHead (r : Requester) (n k v : Nat) (s : State) : State :=
  if v < wlHead n k s ∨ (tget k (s.chan n).wlTail).getD 0 < v then badReg r s
  else okReg r (setEff (chanBase n + 0x200 + 8 * k) v s)

/-- WL_HEAD_WRITE (R543, R532). -/
def execWlHeadWrite (r : Requester) (channel sub value : Nat) : State → Host.Outcome State Fault Refusal :=
  whenUp (fun s =>
    if 8 ≤ channel ∨ 8 ≤ sub then s
    else if writePermitted r (chanBase channel + 0x200 + 8 * sub) .wlHead s then writeWlHead r channel sub value s
    else denyReg r s)

/-- The late write-back counter of a channel returns to 0 (R533). -/
def clearLateWb (n : Nat) (s : State) : State := s.modChan n (fun c => { c with pool := { c.pool with lateWb := 0 } })

/-- POOL_LATE_WB_CLEAR (R533, R532): all ones is written. -/
def execPoolLateWbClear (r : Requester) (channel : Nat) : State → Host.Outcome State Fault Refusal :=
  whenUp (fun s => if 8 ≤ channel then s else if r = .fn 0 then okReg r (clearLateWb channel s) else denyReg r s)

/-- PRT_CFG_COMMIT (R479). -/
def writeCommit (r : Requester) (v : Nat) (s : State) : State :=
  let scope := fieldOf v 0 4
  let act := fieldOf v 8 2
  okReg r (if 8 < scope then s
    else if act = 1 then requestCommit r scope s
    else if act = 2 then unlockScope r scope s
    else if act = 3 then discardScope r scope s
    else s)

/-- A permitted write of a register of the port complex that acts by itself. -/
def ownPort (r : Requester) (b a size v : Nat) (s : State) : State :=
  let low : Bool := covers a size 0
  if b = 0x020 then (if low then writeCommit r v s else okReg r s)
  else if b = 0x038 then writeRingOwner r a size v s
  else if b = 0x040 then writeRingCtl r a size v s
  else if b = 0x048 then writeRingBase r true a size v s
  else if b = 0x050 then writeRingBase r false a size v s
  else if b = 0x068 then writeFnBind r true a size v s
  else if b = 0x070 then writeFnBind r false a size v s
  else if b = 0x078 then writeFnDb r a size v s
  else if b = 0x080 then writeFnEvring r a size v s
  else if b = 0x0A8 then writeVec r a size v s
  else if b = 0x110 then (if low ∧ v % 2 = 1 then { s with mgmt := { s.mgmt with kickedAt := s.now } } else s)
  else if b = 0x138 then okReg r (if low ∧ v % 2 = 1 then peerClear (selOf r 0x118 s) s else s)
  else if b = 0x30040 then okReg r (if low then clearAlerts (BitVec.ofNat 6 v) s else s)
  else if b = 0x40000 then writePorts r a size v s
  else okReg r s

/-- POOL_LATE_WB after a write of it: each 1 that is written clears its bit, all ones the counter (R10, R530, R533). -/
def lateWritten (a size v c : Nat) : Nat := (BitVec.ofNat 64 c &&& ~~~(BitVec.ofNat 64 (mergeWrite 0 a size v))).toNat

/-- A permitted write, at an offset in a channel's blocks, of a register that acts by itself. -/
def ownChanAt (o : Nat) (r : Requester) (n : Nat) (row : RegRow) (b a size v : Nat) (s : State) : State :=
  if 0x100 ≤ o ∧ o < 0x200 then writeSub r n ((o - 0x100) / 0x20) row b a size v s
  else if 0x200 ≤ o ∧ o < 0x240 then writeWlHead r n ((o - 0x200) / 8) (mergeWrite (wlHead n ((o - 0x200) / 8) s) a size v) s
  else if o = 0x20010 then
    okReg r (s.modChan n (fun c => { c with pool := { c.pool with lateWb := lateWritten a size v c.pool.lateWb } }))
  else okReg r s

/-- A permitted write of a register of a channel that acts by itself. -/
def ownChan (r : Requester) (n : Nat) (row : RegRow) (b a size v : Nat) (s : State) : State :=
  ownChanAt (b - chanBase n) r n row b a size v s

/-- A write of PRT_FABRIC_DEVICES above 16 while an ACTIVE ATTN channel runs in TABLE mode (R537). -/
def devicesBad (b w : Nat) (s : State) : Bool :=
  b == 0x010 && decide (16 < fieldOf w 0 7) &&
    (List.range 8).any (fun n => (s.chan n).state == .active && (s.chan n).role == .attn && !fixedMode n s)

/-- An RWL write is held while its scope is being committed (R535), and staged otherwise. -/
def stageOrHold (r : Requester) (a size : Nat) (value : Word) (s : State) : State :=
  match s.mgmt.cfgBusy with
  | some run =>
    if run.scope = regScope (a / 8 * 8) then { s with mgmt := { s.mgmt with heldWrites := s.mgmt.heldWrites ++ [(r, a, size, value)] } }
    else stageWrite r a size value s
  | none => stageWrite r a size value s

/-- A register write (R530). -/
def regWrite (r : Requester) (a size : Nat) (value : Word) (s : State) : State :=
  let b := a / 8 * 8
  let v := value.toNat
  if !addrMapped a || !(size == 4 || size == 8) || a % size != 0 then badReg r s
  else
    match regRow b with
    | none => okReg r s
    | some row =>
      if row.writers = .none then okReg r s
      else if !writePermitted r b row.writers s then denyReg r s
      else
        match row.cls with
        | .ro => okReg r s
        | .rw =>
          let w := rowMask row (mergeWrite (eff b s) a size v)
          if !rowOk row w || devicesBad b w s then badReg r s else okReg r (setEff b w s)
        | .sel =>
          let w := rowMask row (mergeWrite (selOf r b s) a size v)
          if rowOk row w then okReg r (setSel r b w s) else badReg r s
        | .recommit => okReg r (stageOrHold r a size value s)
        | .role => okReg r (stageOrHold r a size value s)
        | .own => (match addrChan b with
          | some n => ownChan r n row b a size v s
          | none => ownPort r b a size v s)

/-- REG_WRITE (R530). -/
def execRegWrite (r : Requester) (addr size : Nat) (value : Word) : State → Host.Outcome State Fault Refusal :=
  whenUp (regWrite r addr size value)

end Sys2Proof.Machine
end

