-- ==== Sys2Proof/Machine/Wire.lean ====
section
/-! DEFINITION. A packet as the flits of its last flit bring it (R432, R434, R436): the header read from its bytes, the checks of R436, and
the effect of each opcode, which is that of the opcode's own command. -/

namespace Sys2Proof.Machine

open Sys2Proof

/-- The little-endian value of `n` bytes at an offset. -/
def fieldAt (b : List Byte) (o n : Nat) : Nat := leNat ((b.drop o).take n)

/-- The header of a packet (R434). -/
def pktOf (port : Nat) (b : List Byte) : Pkt :=
  let flags := fieldAt b 1 1
  let dst := fieldAt b 4 2
  let src := fieldAt b 6 2
  { port, dstFid := fieldOf dst 0 7, dstUnit := fieldOf dst 7 4, srcFid := fieldOf src 0 7, srcUnit := fieldOf src 7 4
    req := fieldAt b 8 2, fn := fieldAt b 10 1, gen := fieldAt b 11 1, status := fieldAt b 12 2
    ackReq := flags % 2 == 1, poison := flags / 4 % 2 == 1, bulkRsp := flags / 8 % 2 == 1 }

/-- A segment (R140, R215). -/
def segOf (b : List Byte) : Seg :=
  let kind := fieldAt b 7 1
  { stepLo := fieldAt b 0 4, slot := fieldAt b 4 2 % 8192, layer := fieldAt b 6 1, part := kind % 8, last := kind / 8 % 2 == 1
    rank := kind / 16, offset := fieldAt b 8 4, len := fieldAt b 12 2, status := fieldAt b 14 2, data := b.drop 16 }

/-- The operation block of R330, with the pool addresses of R329. -/
def poolBlkOf (b : List Byte) : PoolBlk :=
  let t := fieldAt b 1 1
  let dst := fieldAt b 8 8
  let src := fieldAt b 16 8
  { elem := t % 4, rop := t / 4 % 4, scalar := t / 16 % 2 == 1, wide := t / 32 % 2 == 1
    dstPart := fieldOf dst 0 6, dst := fieldOf dst 8 55, srcPart := fieldOf src 0 6, src := fieldOf src 8 55, len := fieldAt b 24 8
    operand := BitVec.ofNat 128 (fieldAt b 32 16), operand2 := BitVec.ofNat 128 (fieldAt b 48 16) }

/-- An envelope that a packet holds whole (R277): its header, ciphertext, tag and, in MODE_C, check table. -/
def envelopeOf (b : List Byte) : Option Envelope :=
  let ctl := fieldAt b 4 1
  let len := fieldAt b 24 4
  let words := if ctl % 4 = 0 then (len + 511) / 512 else 0
  if b.length < 48 + len + 4 * words then none
  else some { magic := fieldAt b 0 4, mode := ctl % 4, codec := ctl / 4 % 4, keySlot := fieldAt b 5 1 % 4, keyGen := fieldAt b 8 4
              nonce := (b.drop 12).take 12, bodyLen := len, body := (b.drop 32).take len, tag := (b.drop (32 + len)).take 16
              crcs := (List.range words).map (fun k => BitVec.ofNat 32 (fieldAt b (48 + len + 4 * k) 4)) }

/-! ### Register packets (R398, R530 to R532) -/

/-- Who makes a register access: a function from a host adapter, an endpoint from elsewhere; none when R398 discards the packet. -/
def requesterOf (p : Pkt) (s : State) : Option Requester :=
  if 0x40 ≤ p.srcFid ∧ p.srcFid ≤ 0x4F then (if fromFunction p.fn p.srcFid s then some (.fn p.fn) else none)
  else if p.fn = 0 then some (.endpoint p.srcFid)
  else none

/-- The responses that `f` emitted carry a packet's tag and go to its source (R435). -/
def retag (p : Pkt) (old : State) (s : State) : State :=
  let new := s.out.length - old.out.length
  { s with out := (s.out.take new).map (fun o => match o with
      | .packet .regRsp u _ _ _ _ _ st a d => .packet .regRsp u p.srcFid p.srcUnit p.req p.fn p.gen st a d
      | o => o) ++ s.out.drop new }

/-- A register packet: R398, then its access. -/
def regPacket (p : Pkt) (f : Requester → State → State) (s : State) : State :=
  if p.dstUnit ≠ 8 then badPacket p.port s
  else
    match requesterOf p s with
    | none => s.modFn p.fn (fun g => { g with misroute := wrap64 (g.misroute + 1) })
    | some r => retag p s (f r s)

/-- A register read (R530). -/
def regRead (addr size : Nat) (r : Requester) (s : State) : State :=
  let v := readReg r addr size s
  if v.1 = .ok then answerReg r .ok (.bytes (natLE size v.2)) s
  else if v.1 = .notPermitted then denyReg r s
  else answerReg r v.1 .empty s

/-! ### Opcodes (R436) -/

/-- A pool operation packet (R330): its command, or none for a reserved operation. -/
def poolCmd (p : Pkt) (b : List Byte) : Option Instr :=
  let k := poolBlkOf b
  match fieldAt b 0 1 with
  | 0 => some (.fill p k)
  | 1 => some (.copy p k)
  | 2 => some (.compare p k)
  | 3 => some (.reduce p k)
  | 4 => some (.atomicAdd p k)
  | 5 => some (.cas p k)
  | 16 => some (.acquireS p k)
  | 17 => some (.acquireM p k)
  | 18 => some (.writeback p k (b.drop 64))
  | 19 => some (.release p k (b.drop 64))
  | 20 => some (.renew p k)
  | _ => none

/-- POOL_OP (R330): a reserved operation completes with ST_PARAM_INVALID. -/
def poolOpPacket (p : Pkt) (b : List Byte) (s : State) : State :=
  if p.dstUnit = 8 then badPacket p.port s
  else
    match poolCmd p b with
    | some c => poolArrive c s
    | none => respond p .poolRsp .paramInvalid 0 (.bytes (poolRspBytes .paramInvalid 0 0)) s

/-- READ_RSP: an error, ring memory, or an object that the packet holds whole is taken; of a longer object the command READ_RSP
brings the whole (log entry 60). -/
def readRspPacket (p : Pkt) (b : List Byte) (s : State) : State :=
  let take (data : ReadData) : State → State := takeResponse p (fun r => readDone r p data)
  match envelopeOf b with
  | some e => take (.envelope e) s
  | none =>
    match matchReq p s with
    | some r =>
      if p.status ≠ 0 ∨ p.poison then take .none s
      else (match r.kind with
        | .image _ _ => s
        | .fetch _ _ => s
        | .revive _ _ _ => s
        | _ => take (.bytes b) s)
    | none => take .none s

/-- The virtual channel of an opcode; READ_RSP travels on VC1 or VC3 (R436). -/
def opcodeVc (op vc : Nat) : Bool :=
  if op = 2 then vc == 1 || vc == 3
  else if op = 1 ∨ op = 3 ∨ op = 6 ∨ op = 8 ∨ op = 9 ∨ op = 10 ∨ op = 11 then vc == 0
  else if op = 4 then vc == 3
  else if op = 5 ∨ op = 7 ∨ op = 12 then vc == 1
  else if 16 ≤ op ∧ op ≤ 21 then vc == 2
  else false

/-- The lengths of an opcode's payload (R436). -/
def opcodeLen (op n : Nat) (failed : Bool) : Bool :=
  if op = 1 ∨ op = 5 ∨ op = 10 ∨ op = 19 then n == 0
  else if op = 2 then (if failed then n == 0 else decide (1 ≤ n ∧ n ≤ 4096))
  else if op = 3 ∨ op = 4 then decide (1 ≤ n ∧ n ≤ 4096)
  else if op = 6 then decide (64 ≤ n ∧ n ≤ 4096)
  else if op = 7 then n == 32 || n == 288
  else if op = 8 ∨ op = 9 then decide (32 ≤ n ∧ n ≤ 4096)
  else if op = 11 then n == 4 || n == 8
  else if op = 12 then n == 0 || n == 4 || n == 8
  else if op = 16 then n == 16
  else if op = 17 ∨ op = 20 then n == 8
  else if op = 18 then n == 64
  else op == 21 && n == 32

/-- The effect of a packet that R436 admits, at its unit. INTR and RECALL are messages to a host adapter, which no unit takes. -/
def openPacket (p : Pkt) (op addr aux : Nat) (b : List Byte) (s : State) : State :=
  if op = 1 then plainArrive (.readReq p (BitVec.ofNat 64 addr) (aux % 8192)) p (aux % 8192) s
  else if op = 2 then readRspPacket p b s
  else if op = 3 then plainArrive (.write p (BitVec.ofNat 64 addr) b) p b.length s
  else if op = 4 then plainArrive (.writeBulk p (BitVec.ofNat 64 addr) b) p b.length s
  else if op = 5 then writeAck p addr s
  else if op = 6 then poolOpPacket p b s
  else if op = 7 then takeResponse p (poolDone p (fieldAt b 8 8) (fieldAt b 16 16)) s
  else if op = 8 then (if p.dstUnit = 8 then badPacket p.port s else takeSeg p.dstUnit p (segOf b) s)
  else if op = 9 then (if p.dstUnit = 8 then badPacket p.port s else takeSample p.dstUnit p (segOf b) s)
  else if op = 10 then regPacket p (regRead addr (aux % 16)) s
  else if op = 11 then regPacket p (fun r => regWrite r addr b.length (BitVec.ofNat 64 (leNat b))) s
  else if op = 12 then takeResponse p (fun _ s => s) s
  else if op = 16 then doorbell p (fieldAt b 0 1) (fieldAt b 1 1) (fieldAt b 2 1) (fieldAt b 8 8) s
  else if op = 19 then ctrAnswer p (aux % 4096) s
  else if op = 20 then takeResponse p (ctrDone (aux % 4096) (fieldAt b 0 8)) s
  else if op = 21 then unreach p.port (pktOf p.port b) s
  else badPacket p.port s

/-- A whole packet (R432, R434, R436). -/
def takePacket (port vc : Nat) (w : List Byte) (s : State) : State :=
  let op := fieldAt w 0 1
  let len := fieldAt w 2 2 % 8192
  let p := pktOf port w
  if 4096 < len ∨ w.length / 240 ≠ (32 + len + 239) / 240 then badPacket port s
  else if !opcodeVc op vc ∨ !opcodeLen op len (p.status != 0) then badPacket port s
  else arrive p (openPacket p op (fieldAt w 16 8) (fieldAt w 24 8) ((w.drop 32).take len)) s

/-- FLIT_RECEIVE (R428 to R432): the flit, and the packet that it ends. -/
def flitArrives (port : Nat) (flit : List Byte) (s : State) : State :=
  match flitReceive port flit s with
  | (some (vc, w), s) => takePacket port vc w s
  | (none, s) => s

def execFlitReceive (port : Nat) (flit : List Byte) : State → Host.Outcome State Fault Refusal := whenUp (flitArrives port flit)

end Sys2Proof.Machine
end

