-- ==== Sys2Proof/Machine/Dispatch.lean ====
section
/-! DEFINITION. One arm per command (R391 and the commands of the other chapters). -/

namespace Sys2Proof.Machine

open Sys2Proof

def exec (i : Instr) (s : State) : Host.Outcome State Fault Refusal :=
  match i with
  | .opNop d => Sys2Proof.Machine.execOpNop d s
  | .opBufRegister d index base length => Sys2Proof.Machine.execOpBufRegister d index base length s
  | .opBufUnregister d index => Sys2Proof.Machine.execOpBufUnregister d index s
  | .opSessionOpen d owner profile tokenizer grammarSlot grammarEn addr len img => Sys2Proof.Machine.execOpSessionOpen d owner profile tokenizer grammarSlot grammarEn addr len img s
  | .opSessionClose d h => Sys2Proof.Machine.execOpSessionClose d h s
  | .opSessionPark d h => Sys2Proof.Machine.execOpSessionPark d h s
  | .opSessionRevive d h => Sys2Proof.Machine.execOpSessionRevive d h s
  | .opSessionFork d h => Sys2Proof.Machine.execOpSessionFork d h s
  | .opSessionResume d h toolTag genLimit feedCut useDefault => Sys2Proof.Machine.execOpSessionResume d h toolTag genLimit feedCut useDefault s
  | .opSessionSet d h addr len img rebind grammarSlot grammarEn => Sys2Proof.Machine.execOpSessionSet d h addr len img rebind grammarSlot grammarEn s
  | .opSessionQuery d h addr => Sys2Proof.Machine.execOpSessionQuery d h addr s
  | .opKvPrefetch d h firstLayer layerCount => Sys2Proof.Machine.execOpKvPrefetch d h firstLayer layerCount s
  | .opProfileSet d profile rec => Sys2Proof.Machine.execOpProfileSet d profile rec s
  | .opKvAppend d a => Sys2Proof.Machine.execOpKvAppend d a s
  | .opAttnPrefill d a => Sys2Proof.Machine.execOpAttnPrefill d a s
  | .opAttnMerge d a => Sys2Proof.Machine.execOpAttnMerge d a s
  | .opStep d a => Sys2Proof.Machine.execOpStep d a s
  | .opTextIn d a => Sys2Proof.Machine.execOpTextIn d a s
  | .opTokenizerLoad d a => Sys2Proof.Machine.execOpTokenizerLoad d a s
  | .tokenizerUnload d a => Sys2Proof.Machine.execTokenizerUnload d a s
  | .opSessionDraft d a => Sys2Proof.Machine.execOpSessionDraft d a s
  | .opGrammarLoad d a => Sys2Proof.Machine.execOpGrammarLoad d a s
  | .grammarUnload d a => Sys2Proof.Machine.execGrammarUnload d a s
  | .opModelLoad d a => Sys2Proof.Machine.execOpModelLoad d a s
  | .modelUnload d a => Sys2Proof.Machine.execModelUnload d a s
  | .opModelRun d a => Sys2Proof.Machine.execOpModelRun d a s
  | .opMirrorSnapshot d => Sys2Proof.Machine.execOpMirrorSnapshot d s
  | .opMirrorRestore d a => Sys2Proof.Machine.execOpMirrorRestore d a s
  | .opMirrorRollback d a => Sys2Proof.Machine.execOpMirrorRollback d a s
  | .sessionRollback d a => Sys2Proof.Machine.execSessionRollback d a s
  | .opPartitionSet d partition img => Sys2Proof.Machine.execOpPartitionSet d partition img s
  | .opExtentSet d partition slot img => Sys2Proof.Machine.execOpExtentSet d partition slot img s
  | .opExtentRevoke d partition slot => Sys2Proof.Machine.execOpExtentRevoke d partition slot s
  | .opRebuild d partition slot source srcOff srcLen => Sys2Proof.Machine.execOpRebuild d partition slot source srcOff srcLen s
  | .opPoolOp d op targetFid targetChannel resultAddr b => Sys2Proof.Machine.execOpPoolOp d op targetFid targetChannel resultAddr b s
  | .opWaitCount d fabricId ring n timeout => Sys2Proof.Machine.execOpWaitCount d fabricId ring n timeout s
  | .opLensCreate d hdr => Sys2Proof.Machine.execOpLensCreate d hdr s
  | .lensDestroy d => Sys2Proof.Machine.execLensDestroy d s
  | .opLensQuery d count k beam vecAddr outAddr vecs => Sys2Proof.Machine.execOpLensQuery d count k beam vecAddr outAddr vecs s
  | .opLensInsert d count idAddr vecAddr ids vecs => Sys2Proof.Machine.execOpLensInsert d count idAddr vecAddr ids vecs s
  | .opLensDelete d count idAddr ids => Sys2Proof.Machine.execOpLensDelete d count idAddr ids s
  | .opLensConsolidate d => Sys2Proof.Machine.execOpLensConsolidate d s
  | .opMergeTopk d lists kIn kOut inAddr outAddr data => Sys2Proof.Machine.execOpMergeTopk d lists kIn kOut inAddr outAddr data s
  | .ringReset by_ ring => Sys2Proof.Machine.execRingReset by_ ring s
  | .functionReset by_ fn => Sys2Proof.Machine.execFunctionReset by_ fn s
  | .channelReset by_ channel => Sys2Proof.Machine.execChannelReset by_ channel s
  | .warmDeviceReset by_ => Sys2Proof.Machine.execWarmDeviceReset by_ s
  | .opIrisSet d index img => Sys2Proof.Machine.execOpIrisSet d index img s
  | .opApertureSet d port enable count base listAddr entries => Sys2Proof.Machine.execOpApertureSet d port enable count base listAddr entries s
  | .opCompositionSet d id channels clear => Sys2Proof.Machine.execOpCompositionSet d id channels clear s
  | .opCompositionRead d outAddr => Sys2Proof.Machine.execOpCompositionRead d outAddr s
  | .opEvidenceGet d nonce outAddr outCap kem => Sys2Proof.Machine.execOpEvidenceGet d nonce outAddr outCap kem s
  | .opKeyRelease d blobAddr blobLen blob => Sys2Proof.Machine.execOpKeyRelease d blobAddr blobLen blob s
  | .keyErase d slot => Sys2Proof.Machine.execKeyErase d slot s
  | .opGroupKey d blobAddr blobLen blob => Sys2Proof.Machine.execOpGroupKey d blobAddr blobLen blob s
  | .groupKeyErase d index => Sys2Proof.Machine.execGroupKeyErase d index s
  | .debugChallenge d addr => Sys2Proof.Machine.execDebugChallenge d addr s
  | .debugSubmit d addr len token => Sys2Proof.Machine.execDebugSubmit d addr len token s
  | .fwStage d addr len img => Sys2Proof.Machine.execFwStage d addr len img s
  | .fwActivate d => Sys2Proof.Machine.execFwActivate d s
  | .fwCommitSvn d => Sys2Proof.Machine.execFwCommitSvn d s
  | .opRoleSet d channel role drainTmo => Sys2Proof.Machine.execOpRoleSet d channel role drainTmo s
  | .opSpectrumSnapshot d mask outAddr clear => Sys2Proof.Machine.execOpSpectrumSnapshot d mask outAddr clear s
  | .cfgCommit r scope => Sys2Proof.Machine.execCfgCommit r scope s
  | .cfgUnlock r scope => Sys2Proof.Machine.execCfgUnlock r scope s
  | .cfgDiscard r scope => Sys2Proof.Machine.execCfgDiscard r scope s
  | .ringEnable r ring => Sys2Proof.Machine.execRingEnable r ring s
  | .prtWdogKick r => Sys2Proof.Machine.execPrtWdogKick r s
  | .prtPeerClear r => Sys2Proof.Machine.execPrtPeerClear r s
  | .portEnable r port => Sys2Proof.Machine.execPortEnable r port s
  | .portDisable r port => Sys2Proof.Machine.execPortDisable r port s
  | .rewiden r port => Sys2Proof.Machine.execRewiden r port s
  | .wlHeadWrite r channel sub value => Sys2Proof.Machine.execWlHeadWrite r channel sub value s
  | .vecUnmask r => Sys2Proof.Machine.execVecUnmask r s
  | .alertStatusClear r mask => Sys2Proof.Machine.execAlertStatusClear r mask s
  | .poolLateWbClear r channel => Sys2Proof.Machine.execPoolLateWbClear r channel s
  | .regWrite r addr size value => Sys2Proof.Machine.execRegWrite r addr size value s
  | .notifyDb p fn line word value => Sys2Proof.Machine.execNotifyDb p fn line word value s
  | .dbPoll words => Sys2Proof.Machine.execDbPoll words s
  | .descFetch ring ds => Sys2Proof.Machine.execDescFetch ring ds s
  | .descAdmit ring => Sys2Proof.Machine.execDescAdmit ring s
  | .irisRefill => Sys2Proof.Machine.execIrisRefill s
  | .descComplete ring tag => Sys2Proof.Machine.execDescComplete ring tag s
  | .intrTimer fn vector => Sys2Proof.Machine.execIntrTimer fn vector s
  | .coalescePeriod => Sys2Proof.Machine.execCoalescePeriod s
  | .partnerDetect port lanes => Sys2Proof.Machine.execPartnerDetect port lanes s
  | .signalDone port lanes => Sys2Proof.Machine.execSignalDone port lanes s
  | .equalizeDone port lanes => Sys2Proof.Machine.execEqualizeDone port lanes s
  | .alignDone port lanes => Sys2Proof.Machine.execAlignDone port lanes s
  | .linkMessage port m => Sys2Proof.Machine.execLinkMessage port m s
  | .trainingLimitExpiry port => Sys2Proof.Machine.execTrainingLimitExpiry port s
  | .laneLockLoss lane => Sys2Proof.Machine.execLaneLockLoss lane s
  | .fecUncorrLimit lane => Sys2Proof.Machine.execFecUncorrLimit lane s
  | .linkDownTimeout port => Sys2Proof.Machine.execLinkDownTimeout port s
  | .downRetry port => Sys2Proof.Machine.execDownRetry port s
  | .flitReceive port flit => Sys2Proof.Machine.execFlitReceive port flit s
  | .replayTimeout port => Sys2Proof.Machine.execReplayTimeout port s
  | .ackTimer port => Sys2Proof.Machine.execAckTimer port s
  | .readReq p addr bytes => Sys2Proof.Machine.execReadReq p addr bytes s
  | .readRsp p data => Sys2Proof.Machine.execReadRsp p data s
  | .write p addr data => Sys2Proof.Machine.execWrite p addr data s
  | .writeBulk p addr data => Sys2Proof.Machine.execWriteBulk p addr data s
  | .writeAck p addr => Sys2Proof.Machine.execWriteAck p addr s
  | .poolRsp p done result => Sys2Proof.Machine.execPoolRsp p done result s
  | .segAttn p g => Sys2Proof.Machine.execSegAttn p g s
  | .segSample p g => Sys2Proof.Machine.execSegSample p g s
  | .regRsp p value => Sys2Proof.Machine.execRegRsp p value s
  | .ctrRead p ring => Sys2Proof.Machine.execCtrRead p ring s
  | .ctrRsp p ring value => Sys2Proof.Machine.execCtrRsp p ring value s
  | .unreach port lost => Sys2Proof.Machine.execUnreach port lost s
  | .reqTimeout unit req => Sys2Proof.Machine.execReqTimeout unit req s
  | .fill p b => Sys2Proof.Machine.execFill p b s
  | .copy p b => Sys2Proof.Machine.execCopy p b s
  | .compare p b => Sys2Proof.Machine.execCompare p b s
  | .reduce p b => Sys2Proof.Machine.execReduce p b s
  | .atomicAdd p b => Sys2Proof.Machine.execAtomicAdd p b s
  | .cas p b => Sys2Proof.Machine.execCas p b s
  | .acquireS p b => Sys2Proof.Machine.execAcquireS p b s
  | .acquireM p b => Sys2Proof.Machine.execAcquireM p b s
  | .writeback p b data => Sys2Proof.Machine.execWriteback p b data s
  | .release p b data => Sys2Proof.Machine.execRelease p b data s
  | .renew p b => Sys2Proof.Machine.execRenew p b s
  | .leaseExpiry channel lease => Sys2Proof.Machine.execLeaseExpiry channel lease s
  | .recallTimeout channel lease => Sys2Proof.Machine.execRecallTimeout channel lease s
  | .extentDrained channel partition slot => Sys2Proof.Machine.execExtentDrained channel partition slot s
  | .extentZeroFillDone channel partition slot => Sys2Proof.Machine.execExtentZeroFillDone channel partition slot s
  | .secondaryAckTimeout channel partition slot => Sys2Proof.Machine.execSecondaryAckTimeout channel partition slot s
  | .rebuildCopy channel partition slot => Sys2Proof.Machine.execRebuildCopy channel partition slot s
  | .gatherExpiry channel => Sys2Proof.Machine.execGatherExpiry channel s
  | .workListFix channel => Sys2Proof.Machine.execWorkListFix channel s
  | .fixedListFix channel => Sys2Proof.Machine.execFixedListFix channel s
  | .workListPublish channel => Sys2Proof.Machine.execWorkListPublish channel s
  | .wlWaitTimeout channel => Sys2Proof.Machine.execWlWaitTimeout channel s
  | .layerTimeout channel stepNo slot => Sys2Proof.Machine.execLayerTimeout channel stepNo slot s
  | .bucketBuild channel layer => Sys2Proof.Machine.execBucketBuild channel layer s
  | .attnLayerComplete channel stepNo slot => Sys2Proof.Machine.execAttnLayerComplete channel stepNo slot s
  | .mergeTimeout channel stepNo slot => Sys2Proof.Machine.execMergeTimeout channel stepNo slot s
  | .sampleRow channel stepNo slot => Sys2Proof.Machine.execSampleRow channel stepNo slot s
  | .outHeadRefresh channel index value => Sys2Proof.Machine.execOutHeadRefresh channel index value s
  | .bulkUnitComplete channel unit poisoned => Sys2Proof.Machine.execBulkUnitComplete channel unit poisoned s
  | .preemptSaveComplete channel unit => Sys2Proof.Machine.execPreemptSaveComplete channel unit s
  | .restoreComplete channel unit => Sys2Proof.Machine.execRestoreComplete channel unit s
  | .demote channel tier => Sys2Proof.Machine.execDemote channel tier s
  | .pageMoveComplete channel desc => Sys2Proof.Machine.execPageMoveComplete channel desc s
  | .pageEncode channel desc => Sys2Proof.Machine.execPageEncode channel desc s
  | .fetchComplete channel desc e => Sys2Proof.Machine.execFetchComplete channel desc e s
  | .modelRunDispatch channel => Sys2Proof.Machine.execModelRunDispatch channel s
  | .windowFill channel => Sys2Proof.Machine.execWindowFill channel s
  | .expansionServe channel => Sys2Proof.Machine.execExpansionServe channel s
  | .consolidateFree channel => Sys2Proof.Machine.execConsolidateFree channel s
  | .waitPoll ring => Sys2Proof.Machine.execWaitPoll ring s
  | .waitTimeout ring => Sys2Proof.Machine.execWaitTimeout ring s
  | .gateBoundary port => Sys2Proof.Machine.execGateBoundary port s
  | .mirrorInterval => Sys2Proof.Machine.execMirrorInterval s
  | .captureStart channel => Sys2Proof.Machine.execCaptureStart channel s
  | .copierCapture channel => Sys2Proof.Machine.execCopierCapture channel s
  | .mirrorAckTimeout channel => Sys2Proof.Machine.execMirrorAckTimeout channel s
  | .warnMeasure condition source value => Sys2Proof.Machine.execWarnMeasure condition source value s
  | .exceptionComplete id => Sys2Proof.Machine.execExceptionComplete id s
  | .watchdogExpiry => Sys2Proof.Machine.execWatchdogExpiry s
  | .fwRestartDone duration => Sys2Proof.Machine.execFwRestartDone duration s
  | .fwConfirm => Sys2Proof.Machine.execFwConfirm s
  | .channelFatalFault channel cause => Sys2Proof.Machine.execChannelFatalFault channel cause s
  | .deviceFatalFault cause => Sys2Proof.Machine.execDeviceFatalFault cause s
  | .patrolScrub channel corrected passDone => Sys2Proof.Machine.execPatrolScrub channel corrected passDone s
  | .channelResetDone channel ok => Sys2Proof.Machine.execChannelResetDone channel ok s
  | .functionFenceEnd fn => Sys2Proof.Machine.execFunctionFenceEnd fn s
  | .spectrumSample monitor v => Sys2Proof.Machine.execSpectrumSample monitor v s
  | .enclaveError cause => Sys2Proof.Machine.execEnclaveError cause s
  | .porstNFall => Sys2Proof.Machine.execPorstNFall s
  | .porstNRise b => Sys2Proof.Machine.execPorstNRise b s
  | .warmNRise => Sys2Proof.Machine.execWarmNRise s
  | .pwrcapChange level => Sys2Proof.Machine.execPwrcapChange level s
  | .thermtrip sensor => Sys2Proof.Machine.execThermtrip sensor s
  | .pllLockLoss => Sys2Proof.Machine.execPllLockLoss s
  | .railFault rail => Sys2Proof.Machine.execRailFault rail s
  | .pmbusPoll rs => Sys2Proof.Machine.execPmbusPoll rs s
  | .smb1AlertN rs => Sys2Proof.Machine.execSmb1AlertN rs s
  | .avsAdjust allPass => Sys2Proof.Machine.execAvsAdjust allPass s
  | .thermalSample temps => Sys2Proof.Machine.execThermalSample temps s
  | .powerControl coreMw => Sys2Proof.Machine.execPowerControl coreMw s
  | .bmcBlockWrite addr value => Sys2Proof.Machine.execBmcBlockWrite addr value s
  | .bmcBlockRead => Sys2Proof.Machine.execBmcBlockRead s
  | .drainTmoExpiry channel => Sys2Proof.Machine.execDrainTmoExpiry channel s
  | .scrubComplete channel tier granule => Sys2Proof.Machine.execScrubComplete channel tier granule s
  | .provisioningSequence serial fwAuth dbgAuth ownAuth => Sys2Proof.Machine.execProvisioningSequence serial fwAuth dbgAuth ownAuth s

end Sys2Proof.Machine
end

