-- ==== Sys2Proof/Safety.lean ====
section
/-! DEFINITION. What counts as a safe state and a safe step, and the conditions, on the state and the operands alone, under which a
command has its own effect. -/

namespace Sys2Proof.Machine

open Sys2Proof

/-! ### Safe states and safe steps -/

/-- While PORST_N is low everything is at its reset value but what it leaves alone: the fuses, the queue, what has already left the
block, the count of free values, and the levels of WARM_N and PWRCAP (R401, R511, R513). -/
def HeldAtReset (s : State) : Prop := s.power.porstN = false → powerOff s = s

/-- The fuses after a step, against those before (R449, R451, R459): the lifecycle and the two counts only rise, and the fields that
provisioning writes stay once it has run. -/
structure FusesFollow (f g : Fuses) : Prop where
  lifecycle : f.lifecycle ≤ g.lifecycle
  svn : f.svn ≤ g.svn
  debugCount : f.debugCount ≤ g.debugCount
  written : f.lifecycle ≠ 0 → g.uds = f.uds ∧ g.serial = f.serial ∧ g.fwAuth = f.fwAuth ∧ g.dbgAuth = f.dbgAuth ∧ g.ownAuth = f.ownAuth

/-- The lifecycle is one of the four of R451. -/
def LifecycleKnown (s : State) : Prop := s.encl.fuses.lifecycle ≤ 3

/-- The memory of every channel is in its canonical form. -/
def MemoryCanonical (s : State) : Prop := ∀ n, Mem.wf (s.chan n).mem = true

/-- A safe state. -/
def State.Safe (s : State) : Prop := HeldAtReset s ∧ LifecycleKnown s

/-! ### When a command has its own effect -/

/-- A descriptor passes the common checks of R380 and its operation runs, for a function and a target. -/
abbrev Accepts (op : Nat) (d : Hdr) (fn target : Nat) (s : State) : Prop :=
  s.up = true ∧ ringLive d.ring s = true ∧ s.encl.bootFailed = false ∧ commonCheck op d s = none ∧
    (s.ring d.ring).owner = fn ∧ (s.ring d.ring).target = target

/-- A descriptor that names a session passes the common checks and those of its handle (R54, R380). -/
abbrev OnSession (op : Nat) (d : Hdr) (h : Handle) (fn ch : Nat) (s : State) : Prop :=
  Accepts op d fn ch s ∧ checkHandle h ch fn s = none

/-- A session operation that the table of R50 does not let act now (R51): it completes with the status of the table, or is queued, unless one of its
kind is queued already. -/
abbrev Judged (op : Nat) (cmd : Instr) (v : Verdict) (d : Hdr) (h : Handle) (fn ch : Nat) (s : State) : Prop :=
  OnSession op d h fn ch s →
    (∀ st, v = .fail st → exec cmd s = .next (complete d op st [] [] s)) ∧
    (v = .defer ∨ v = .queue →
      let held : Bool := ((s.chan ch).pendOf h.index).any (fun c => match sessHdr c with | some x => x.2 == op | none => false)
      (held = true → exec cmd s = .next (complete d op .sessionBusy [] [] s)) ∧
      (held = false → exec cmd s = .next (addOp op d fn ch [] false (.pendingOp ch h.index)
        (s.modChan ch (fun c => c.setPend h.index ((s.chan ch).pendOf h.index ++ [cmd]))))))

/-- Service firmware runs and the exception queue has an entry free (R475, R478). -/
abbrev EntryFree (s : State) : Prop := s.encl.state ≠ .noFirmware ∧ exqUsed s < 4096

/-- A packet that reaches the unit it is for (R16, R434). -/
abbrev Arrives (p : Pkt) (s : State) : Prop := s.up = true ∧ p.dstUnit ≤ 8 ∧ p.dstFid = s.fid ∧ p.dstUnit = p.port

/-- A command that acts on the block's pins, while it is held in reset too (R511 to R518). -/
def actsOnPins : Instr → Bool
  | .warmDeviceReset .pin => true
  | .porstNFall => true
  | .porstNRise _ => true
  | .warmNRise => true
  | .pwrcapChange _ => true
  | .thermtrip _ => true
  | _ => false

end Sys2Proof.Machine
end

