-- ==== Sys2Proof/Certificates/Slice0/Obligations.lean ====
section
/-! DEFINITION. What is claimed of the block, one statement per definition. A statement whose docstring names a log entry rests on a
choice of the model. -/

open Sys2Proof Sys2Proof.Machine

/-! ### The block as a whole -/

/-- A step takes exactly the command at the front of the queue and runs it on the state with the rest waiting. -/
def Obligations.StepRunsTheFrontCommand : Prop :=
  ∀ (s : State) (c : Instr) (rest : List Instr), s.pending = c :: rest → step s = exec c { s with pending := rest }

/-- With no command waiting a step lets one nanosecond pass (log entry 2): nothing happens without PORST_N high, clocks and PLL lock; the local
timer alone counts while the block is held in reset or offline (R169, R401); and, while it is up and neither a role switch is open nor a pool request
waits for room, only what the ports send and their gates count, the timer, the composition counters, the doorbell count of the instant and
the throttled time change. -/
def Obligations.EmptyQueueLetsTimePass : Prop :=
  ∀ s : State, s.pending = [] →
    ((s.power.porstN && s.power.clocks && s.power.pllLock) = false → step s = .next s) ∧
    ((s.power.porstN && s.power.clocks && s.power.pllLock) = true → s.up = false → step s = .next { s with now := wrap64 (s.now + 1) }) ∧
    (s.up = true → s.power.pllLock = true → (∀ n < 8, (s.chan n).switch = none ∧ (s.chan n).pool.backlog = []) →
      ∃ t, step s = .next t ∧ t.now = wrap64 (s.now + 1) ∧
        t = { s with ports := t.ports, gates := t.gates, out := t.out, comps := t.comps, now := t.now, mgmt := { s.mgmt with notifies := 0 }
                     power := { s.power with throttleNs := t.power.throttleNs } } ∧
        t.power.throttleNs = if dutyOf s < 64 then wrap64 (s.power.throttleNs + 1) else s.power.throttleNs)

/-- Every command answers a next state, and takes nothing from and puts nothing into the queue; and while the block is held in reset, has no
clock or is offline (R24, R509, R513), a command other than those of the pins changes nothing. -/
def Obligations.CommandsAnswerAndKeepTheQueue : Prop :=
  ∀ (c : Instr) (s : State), (∃ t, exec c s = .next t ∧ t.pending = s.pending) ∧
    (s.up = false → actsOnPins c = false → exec c s = .next s)

/-- At reset PORST_N is low, the block is not up, nothing waits, nothing has left it, no fuse has been burnt, no table and no memory
lists anything, and every channel is UNASSIGNED with no role, every ring pair DISABLED, every port DISABLED and every peer UP; and it is a safe state. -/
def Obligations.ResetState : Prop :=
  State.Safe State.reset ∧ State.reset.power.porstN = false ∧ State.reset.up = false ∧ State.reset.pending = [] ∧ State.reset.out = [] ∧
    State.reset.encl.fuses.lifecycle = 0 ∧ State.reset.encl.fuses.svn = 0 ∧ State.reset.ops = [] ∧ State.reset.reqs = [] ∧
    (∀ n, (State.reset.chan n).state = .unassigned ∧ (State.reset.chan n).role = .none ∧ (State.reset.chan n).mem = [] ∧
      (State.reset.chan n).pool.extents = [] ∧ (State.reset.chan n).nextStep = 1) ∧
    (∀ n, (State.reset.ring n).state = .disabled ∧ (State.reset.ring n).counter = 0) ∧
    (∀ n, (State.reset.port n).state = .disabled) ∧ (∀ n, (State.reset.peer n).down = false)

/-- While PORST_N is low everything but the fuses, the pins' levels and what has left the block stays at its reset value, whatever steps
are made (R401, R511, R513): an invariant of every step. -/
def Obligations.HeldAtResetIsKept : Prop :=
  ∀ s t : State, HeldAtReset s → step s = .next t → HeldAtReset t

/-- From a lifecycle of R451 every step leaves one of R451, the lifecycle, the security version and the count of debug opens only
rise, and what provisioning wrote stays (R449, R451). -/
def Obligations.FusesOnlyMoveForward : Prop :=
  ∀ s t : State, LifecycleKnown s → step s = .next t → FusesFollow s.encl.fuses t.encl.fuses ∧ LifecycleKnown t

/-- PORST_N low puts every register, table, memory and counter at its reset value and ends FAULT_N, THERMTRIP_N, DEBUG_OPENED and any
throttle; only the fuses, the queue, what has left the block and the levels of the other pins stay (R401, R450, R513). PORST_N rising, from a block it was held low (R511): the straps are taken and the clocks run; with the enclave's tests passed, a port
whose test passes detects and another stays DISABLED, a channel whose test and port pass is UNASSIGNED and another FAILED, and the
block is up; with a test failed it is offline with FAULT_N low. PORST_N rising again changes nothing. -/
def Obligations.PorstResetsAndBoots : Prop :=
  (∀ s : State, ∃ t, exec .porstNFall s = .next t ∧
     t = { State.reset with pending := s.pending, out := s.out, freeIx := s.freeIx
                            encl := { State.reset.encl with fuses := s.encl.fuses }
                            power := { State.reset.power with warmN := s.power.warmN, pwrcap := s.power.pwrcap } } ∧
     t.power.porstN = false ∧ t.power.faultN = true ∧ t.power.thermtripN = true ∧ t.encl.debugOpened = false ∧
     t.power.dutyTherm = 64 ∧ t.power.dutyPower = 64 ∧ (∀ n, t.chan n = {}) ∧ (∀ n, t.ring n = ringDefault n) ∧ (∀ n, t.port n = {})) ∧
  (∀ (b : BootInput) (s : State),
     (s.power.porstN = true → exec (.porstNRise b) s = .next s) ∧
     (s.power.porstN = false → ∃ t, exec (.porstNRise b) s = .next t ∧ t.power.porstN = true ∧ t.pending = s.pending ∧
       t.encl.fuses = s.encl.fuses ∧ t.power.clocks = true ∧ t.power.strapFid = b.fid % 64 ∧ t.power.strapAdp = b.adp % 16 ∧
       (b.enclaveTestCause ≠ 0 → t.encl.state = .error ∧ t.power.offline = true ∧ t.power.faultN = false) ∧
       (b.enclaveTestCause = 0 → t.up = true ∧
         (∀ n < 9, (t.port n).state = if b.portOk.getLsbD n then .detect else .disabled) ∧
         (∀ n < 8, (t.chan n).state = if b.channelOk.getLsbD n && b.portOk.getLsbD n then .unassigned else .failed))))

/-- The pins WARM_N, PWRCAP and the thermal trip (R512, R515, R518): what each level change does, and that nothing else changes. -/
def Obligations.PinCommands : Prop :=
  ∀ s : State,
    exec .warmNRise s = .next (if s.power.warmHeld then
        { s with power := { s.power with warmN := true, warmHeld := false }, mgmt := { s.mgmt with resetBusy := false } }
      else { s with power := { s.power with warmN := true } }) ∧
    (∀ level, exec (.pwrcapChange level) s = .next (if level && s.up then
        { s with power := { s.power with pwrcap := true, alert := s.power.alert ||| 0x10#6 } }
      else { s with power := { s.power with pwrcap := level } })) ∧
    (∀ sensor, sensor < 24 → s.power.porstN = true → exec (.thermtrip sensor) s =
      .next { s with power := { s.power with thermtripN := false, clocks := false } })

/-! ### Rings, completions and intake -/

/-- OP_NOP completes with ST_OK: one entry at the ring's next slot, whose phase is 1 − (p % 2) on pass p, the counts raised by one, the
descriptor no longer outstanding, and nothing else changed, where the entry raises no interrupt and no operation waits (R385 to
R387). An accepted OP_NOP answers the completion of its descriptor with ST_OK, whatever else waits. -/
def Obligations.NopPostsOneCompletion : Prop :=
  (∀ (d : Hdr) (s : State) (fn target : Nat), Accepts 0x00 d fn target s → (s.ring d.ring).usable = true → d.irq = false → s.ops = [] →
     exec (.opNop d) s = .next
       ({ s with out := .completion d.ring ((s.ring d.ring).cqPosted % 2 ^ (s.ring d.ring).cqExp)
                   (1 - ((s.ring d.ring).cqPosted / 2 ^ (s.ring d.ring).cqExp) % 2 == 1) d.tag .ok 0x00
                   ((s.ring d.ring).sqHead % 4294967296) 0 [] :: s.out }.setRing d.ring
         { s.ring d.ring with
           cqPosted := ((s.ring d.ring).cqPosted + 1) % 18446744073709551616
           counter := ((s.ring d.ring).counter + 1) % 18446744073709551616
           accepted := removeFetched d.tag 0x00 (s.ring d.ring).accepted })) ∧
  (∀ (d : Hdr) (s : State) (fn target : Nat), Accepts 0x00 d fn target s → exec (.opNop d) s = .next (complete d 0x00 .ok [] [] s))

/-- A descriptor of any opcode that fails a common check (R380) completes with that check's status and changes nothing outside the host
side: shown of one opcode of each form of operand. -/
def Obligations.FailedCommonCheckOnlyCompletes : Prop :=
  ∀ (d : Hdr) (s : State) (st : Status), s.up = true → ringLive d.ring s = true → s.encl.bootFailed = false →
    (∀ h, commonCheck 0x11 d s = some st → exec (.opSessionClose d h) s = .next (complete d 0x11 st [] [] s)) ∧
    (∀ a, commonCheck 0x28 d s = some st → exec (.opStep d a) s = .next (complete d 0x28 st [] [] s)) ∧
    (∀ a, commonCheck 0x40 d s = some st → exec (.opModelLoad d a) s = .next (complete d 0x40 st [] [] s)) ∧
    (∀ p k, commonCheck 0x52 d s = some st → exec (.opExtentRevoke d p k) s = .next (complete d 0x52 st [] [] s)) ∧
    (∀ h, commonCheck 0x58 d s = some st → exec (.opLensCreate d h) s = .next (complete d 0x58 st [] [] s)) ∧
    (∀ a m, commonCheck 0x63 d s = some st → exec (.opCompositionSet d a m true) s = .next (complete d 0x63 st [] [] s)) ∧
    (commonCheck 0x6C d s = some st → exec (.fwActivate d) s = .next (complete d 0x6C st [] [] s)) ∧
    (∀ w, (complete d w st [] [] s).chans = s.chans ∧ (complete d w st [] [] s).regs = s.regs ∧ (complete d w st [] [] s).encl = s.encl ∧
      (complete d w st [] [] s).power = s.power ∧ (complete d w st [] [] s).ports = s.ports ∧ (complete d w st [] [] s).peers = s.peers ∧
      (complete d w st [] [] s).parts = s.parts ∧ (complete d w st [] [] s).mgmt = s.mgmt)

/-- OP_BUF_REGISTER that passes R382's checks sets the index to the buffer and completes with ST_OK. OP_BUF_UNREGISTER of a buffer in use by no earlier operation (R382): with none outstanding the index is free in the next state, and
the descriptor completes with ST_OK. -/
def Obligations.BuffersComeAndGo : Prop :=
  (∀ (d : Hdr) (index base length fn target : Nat) (s : State), Accepts 0x01 d fn target s → bufCheck fn index base length s = none →
     exec (.opBufRegister d index base length) s =
       .next (complete d 0x01 .ok [] [] (s.modFn fn (fun f => { f with bufs := tset index ⟨base, length, false⟩ f.bufs })))) ∧
  (∀ (d : Hdr) (index fn target : Nat) (b : Buf) (s : State), Accepts 0x02 d fn target s → tget index (s.fn fn).bufs = some b →
     b.leaving = false → s.ops = [] → d.irq = false → (s.ring d.ring).usable = true →
     ∃ t, exec (.opBufUnregister d index) s = .next t ∧ tget index (t.fn fn).bufs = none ∧ t.ops = [] ∧
       (∃ slot ph, t.out = .completion d.ring slot ph d.tag .ok 0x02 ((s.ring d.ring).sqHead % 4294967296) 0 [] :: s.out) ∧
       t = { s with out := t.out, rings := t.rings, fns := t.fns })

/-- A doorbell word of a function's own adapter moves the tail of its ACTIVE ring pair on the line (R373 to R375): within the ring the
tail is taken and ring memory is read; past it the ring faults with err 3. The head word moves the completion head, or faults with err
4. A message that is not from the function's adapter is counted and changes nothing else (R398). DB_POLL acts on the words of each ring pair that is ACTIVE as the doorbell messages do, and on no other (R376). -/
def Obligations.DoorbellsMoveTheirRing : Prop :=
  (∀ (p : Pkt) (fn line value ring : Nat) (s : State), Arrives p s → p.dstUnit = 8 →
     (fromFunction fn p.srcFid s = false → ∀ word, exec (.notifyDb p fn line word value) s =
       .next (s.modFn fn (fun f => { f with misroute := wrap64 (f.misroute + 1) }))) ∧
     (fromFunction fn p.srcFid s = true → (s.fn fn).resetRun = none → s.mgmt.notifies < 1024 → ringOfLine fn line s = some ring →
       let s1 := { s with mgmt := { s.mgmt with notifies := s.mgmt.notifies + 1 } }
       ((s.ring ring).sqExp ≠ 0 → (s.ring ring).sqTail < value → value ≤ (s.ring ring).sqHead + 2 ^ (s.ring ring).sqExp →
         exec (.notifyDb p fn line 0 value) s = .next (ringRead ring (s1.setRing ring { s.ring ring with sqTail := value }))) ∧
       ((s.ring ring).sqExp ≠ 0 → (s.ring ring).sqTail < value → (s.ring ring).sqHead + 2 ^ (s.ring ring).sqExp < value →
         exec (.notifyDb p fn line 0 value) s = .next (ringFault ring 3 s1)) ∧
       ((s.ring ring).cqHead < value → value ≤ (s.ring ring).cqPosted →
         exec (.notifyDb p fn line 1 value) s = .next (ringRoom ring (s1.setRing ring { s.ring ring with cqHead := value }))) ∧
       ((s.ring ring).cqHead < value → (s.ring ring).cqPosted < value →
         exec (.notifyDb p fn line 1 value) s = .next (ringFault ring 4 s1)))) ∧
  (∀ (s : State), s.up = true →
     exec (.dbPoll []) s = .next { s with mgmt := { s.mgmt with pollSoon := false } } ∧
     (∀ ring tail head, (s.ring ring).state ≠ .active →
       exec (.dbPoll [(ring, tail, head)]) s = .next { s with mgmt := { s.mgmt with pollSoon := false } }) ∧
     (∀ ring tail head, (s.ring ring).state = .active → (s.ring ring).sqExp = 0 → (s.ring ring).cqHead < head →
       head ≤ (s.ring ring).cqPosted →
       exec (.dbPoll [(ring, tail, head)]) s = .next (ringRoom ring
         ({ s with mgmt := { s.mgmt with pollSoon := false } }.setRing ring { s.ring ring with cqHead := head }))))

/-- A descriptor whose size field is 3, or whose first entry breaks its alignment, takes the ring to a ring fault with err 5 and no
further descriptor of that read is taken (R377, R381); the ring is in ERROR with its cause, and its owner is told. DESC_FETCH takes a descriptor that the tail covers whole, with its framing right and completion credit for it (R377, R388): it is held
in entry order and the device's head moves past its entries, before any is accepted. -/
def Obligations.DescriptorsAreFetched : Prop :=
  (∀ (ring : Nat) (d : Fetched) (s : State), (s.ring ring).state = .active → (s.fn (s.ring ring).owner).resetRun = none →
     (s.ring ring).sqHead < (s.ring ring).sqTail → (3 ≤ d.size ∨ (s.ring ring).sqHead % sizeEntries d.size ≠ 0) →
     fetchOne ring d s = some (raiseEvent (s.ring ring).owner (.ringFault ring 5) 8
       (s.setRing ring { s.ring ring with state := .error, err := 5 }))) ∧
  (∀ (ring : Nat) (d : Fetched) (s : State), s.up = true → (s.ring ring).state = .active → (s.fn (s.ring ring).owner).resetRun = none →
     d.size < 3 → (s.ring ring).sqHead % sizeEntries d.size = 0 → (s.ring ring).sqHead + sizeEntries d.size ≤ (s.ring ring).sqTail →
     (s.ring ring).cqPosted - (s.ring ring).cqHead + (s.ring ring).reserved + needOf d.opcode ≤ 2 ^ (s.ring ring).cqExp →
     exec (.descFetch ring [d]) s = .next (ringRead ring (pump ring ((answerReqs (fun k => k == .ringMem ring) s).setRing ring
       { s.ring ring with sqHead := wrap64 ((s.ring ring).sqHead + sizeEntries d.size), held := (s.ring ring).held ++ [d] }))))

/-- DESC_ADMIT on a ring whose head descriptor passes the common checks, waits for nothing and is within its meter (R379, R409): a
descriptor of a mapped flow takes its cost from both levels of its pair and is accepted; a later one is looked at in turn. -/
def Obligations.HeadsAreAdmittedByTheirMeter : Prop :=
  ∀ (ring : Nat) (d : Fetched) (s : State), s.up = true → (s.ring ring).held = [d] → headWaits ring d s = false →
    headCheck ring d s = none → (s.flow d.flow).owner = (s.ring ring).owner → (s.flow d.flow).mapped = true →
    let n := (s.flow d.flow).pair
    let p := s.pair n
    let cost := costOf p.params.descriptors d
    ((min cost p.params.cbs : Nat) : Int) * 1000 ≤ p.c → ((min cost p.params.pbs : Nat) : Int) * 1000 ≤ p.p →
    exec (.descAdmit ring) s = .next ((s.setPair n { p with c := p.c - (cost : Int) * 1000, p := p.p - (cost : Int) * 1000
                                                            rel := wrap64 (p.rel + cost) }).setRing ring
      { s.ring ring with held := [], metered := false, accepted := (s.ring ring).accepted ++ [d] })

/-- DESC_COMPLETE ends a timed operation of the ring with what it holds (R387): one of the port complex, or one that writes nothing, completes at once,
and the data that a channel's own port writes is sent first (R438). INTR_TIMER sends a pending interrupt whose time has passed
(R400), and COALESCE_PERIOD and VEC_UNMASK act on every function and on the selected vector. -/
def Obligations.TimedHostWork : Prop :=
  ∀ (s : State), s.up = true →
    (∀ ring tag d fn t ranges st res w, s.ops = [⟨d, fn, 0x68, t, true, false, 0, ranges, .ready st res w⟩] → d.ring = ring → d.tag = tag →
      (8 ≤ t ∧ 8 ≤ (s.ring d.ring).target ∨ w = [] →
        exec (.descComplete ring tag) s = .next (complete d 0x68 st res w { s with ops := [] })) ∧
      (∀ a p, t < 8 → w = [(a, p)] → unitMarked (s.fn fn).adapter 0 s = false → (s.fn fn).adapter ≠ s.fid →
        mustWait t fn (tagCount .write p) s = false →
        ∃ u req, exec (.descComplete ring tag) s = .next u ∧ u.ops.map (·.hdr) = [d] ∧ u.rings = s.rings ∧
          u.out = .packet .write t (s.fn fn).adapter 0 req fn ((s.fn fn).resetGen % 256) .ok a p :: s.out)) ∧
    (∀ fn vec, ((s.fn fn).vec vec).mask = false → ((s.fn fn).vec vec).pending ≠ 0 →
      ((s.fn fn).vec vec).time ≤ s.now - ((s.fn fn).vec vec).first →
      exec (.intrTimer fn vec) s = .next
        ({ s with out := .interrupt fn vec ((s.fn fn).vec vec).pending (s.fn fn).adapter :: s.out }.setFn fn
          { s.fn fn with vecs := tset vec { (s.fn fn).vec vec with pending := 0 } (s.fn fn).vecs })) ∧
    (∀ fn vec, ((s.fn fn).vec vec).mask = true ∨ ((s.fn fn).vec vec).pending = 0 → exec (.intrTimer fn vec) s = .next s) ∧
    exec .coalescePeriod s = .next ((s.fns.map (·.1)).foldl flushEvents s) ∧
    (∀ r, fnOrF0 r (selOf r 0x060 s) = true →
      exec (.vecUnmask r) s = .next (answerReg r .ok .empty (unmask (selOf r 0x060 s) (selOf r 0x0A0 s) s)))

/-! ### Rings and functions enabled and reset -/

/-- Enabling a DISABLED ring pair of an enabled function with legal exponents and a free line (R370, R371): it is ACTIVE with its counts
at 0, and the requester is answered ST_OK; an exponent out of range leaves it DISABLED with err 1. -/
def Obligations.RingsEnable : Prop :=
  ∀ (r : Requester) (ring : Nat) (s : State), s.up = true → fnOrF0 r (s.ring ring).owner = true → (s.ring ring).state = .disabled →
    (s.fn (s.ring ring).owner).enable = true → (s.fn (s.ring ring).owner).resetRun = none → s.mgmt.resetBusy = false →
    (enableErr ring s = none → exec (.ringEnable r ring) s = .next (answerReg r .ok .empty (ringRoom ring (s.setRing ring
      { s.ring ring with state := .active, err := 0, sqTail := 0, sqHead := 0, cqPosted := 0, cqHead := 0 })))) ∧
    (∀ e, enableErr ring s = some e →
      exec (.ringEnable r ring) s = .next (answerReg r .ok .empty (s.setRing ring { s.ring ring with err := e }))) ∧
    ((s.ring ring).sqExp = 3 → enableErr ring s = some 1)

/-- A ring reset by an OP_RESET from another ring of its owner or of F0 (R402, R406), of a ring with no operation outstanding and nothing
read: the ring is DISABLED, its counts are 0 and its queues empty, its context is kept, the KEM slots are empty and the debug nonce
spent, and the descriptor completes with ST_OK. A ring reset through the register of the ring (R371, R406, R532): a requester that may not write it is counted and refused; one that
may has a DISABLED ring left as it is. -/
def Obligations.RingResets : Prop :=
  (∀ (d : Hdr) (ring fn target : Nat) (s : State), Accepts 0x60 d fn target s → ring < 4096 → (fn = 0 ∨ (s.ring ring).owner = fn) →
     d.ring ≠ ring → s.ops = [] → (s.ring ring).accepted = [] → (s.ring ring).held = [] →
     ∃ u, exec (.ringReset (.desc d) ring) s = .next (complete d 0x60 .ok [] [] u) ∧
       u.ring ring = { s.ring ring with state := .disabled, sqTail := 0, sqHead := 0, cqPosted := 0, cqHead := 0, counter := 0, metered := false } ∧
       u.encl.nonce = none ∧ u.chans = s.chans ∧ u.regs = s.regs ∧ (∀ k, k ≠ ring → u.ring k = s.ring k)) ∧
  (∀ (r : Requester) (ring : Nat) (s : State), s.up = true →
     (fnOrF0 r (s.ring ring).owner = false → exec (.ringReset (.reg r) ring) s = .next (denyReg r s)) ∧
     (fnOrF0 r (s.ring ring).owner = true → (s.ring ring).state = .disabled →
       exec (.ringReset (.reg r) ring) s = .next (answerReg r .ok .empty s)) ∧
     (fnOrF0 r (s.ring ring).owner = true → (s.ring ring).state ≠ .disabled →
       exec (.ringReset (.reg r) ring) s = .next (answerReg r .ok .empty (resetRing ring s).1) ∧
       (((resetRing ring s).1.ring ring).state = .disabled ∧ ((resetRing ring s).1.ring ring).counter = 0 ∧
         ((resetRing ring s).1.ring ring).accepted = [] ∧ ((resetRing ring s).1.ring ring).held = [])))

/-- A function reset by the function itself (R402, R404): with no operation outstanding, no ring and no fence running, the reset generation
rises by one modulo 256, the fence of the function runs, nothing is outstanding and no channel changes; where the function has no event
ring its pending interrupts are gone and its ring is DISABLED with nothing accepted. The end of a function's fence (R404 item 3): requests that waited for it go out and the function is fenced no longer. -/
def Obligations.FunctionResets : Prop :=
  (∀ (d : Hdr) (fn target : Nat) (s : State), Accepts 0x60 d fn target s → fn < 256 → s.ops = [] → (s.fn fn).resetRun = none →
     (s.fn fn).fence = false → s.rings = [(d.ring, s.ring d.ring)] → (s.ring d.ring).held = [] →
     (s.ring d.ring).accepted = [⟨0x60, 0, d.irq, false, d.vector, d.tag, d.deadline, d.flow, 0⟩] →
     ∃ t, exec (.functionReset (.desc d) fn) s = .next t ∧ (t.fn fn).resetGen = ((s.fn fn).resetGen + 1) % 256 ∧ (t.fn fn).fence = true ∧
       (t.fn fn).resetRun = none ∧ t.ops = [] ∧ t.chans = s.chans ∧ (∀ n, ((t.fn fn).vec n).pending = 0 ∨ (s.fn fn).evValid = true) ∧
       ((s.fn fn).evValid = false → (t.ring d.ring).state = .disabled ∧ (t.ring d.ring).accepted = [])) ∧
  (∀ (fn : Nat) (s : State), s.up = true → (s.fn fn).fence = true → (s.fn fn).resetRun = none →
     exec (.functionFenceEnd fn) s = .next (releaseReqs s.reqWait.length (s.setFn fn { s.fn fn with fence := false })) ∧
     (s.reqWait = [] → exec (.functionFenceEnd fn) s = .next (s.setFn fn { s.fn fn with fence := false })))

/-- A channel reset begins (R402, R407): F0's OP_RESET of scope 3 stays outstanding, the channel is being reset and an ACTIVE one is in
DRAINING, its sessions, pages, models, extents, keys, active sequences and memory are gone, its role and its step numbers stay, and, with no load
running and no part in an open Mirror generation, no other channel is touched; one for a channel under reset joins it, and another function, or a
channel that does not exist, is refused. A channel reset ends (R407): with its self-test passed the channel is UNASSIGNED with no role, with it
failed FAILED; one for a channel that is not being reset changes nothing of the channels. -/
def Obligations.ChannelResets : Prop :=
  (∀ (d : Hdr) (n target : Nat) (s : State), Accepts 0x60 d 0 target s → n < 8 → (s.chan n).resetting = false →
     ∃ t, exec (.channelReset (.desc d) n) s = .next t ∧ (t.chan n).resetting = true ∧
       (t.chan n).state = (if (s.chan n).state = .active then .draining else (s.chan n).state) ∧ (t.chan n).role = (s.chan n).role ∧
       (t.chan n).nextStep = (s.chan n).nextStep ∧ (t.chan n).epoch = ((s.chan n).epoch + 1) % 64 ∧
       t.ops.getLast? = some ⟨d, 0, 0x60, 8, true, false, s.now, [], .reset 3 n⟩ ∧
       (t.chan n).dirs = [] ∧ (t.chan n).pages = [] ∧ (t.chan n).models = [] ∧ (t.chan n).pool.extents = [] ∧
       (t.chan n).keys = [] ∧ (t.chan n).asq = [] ∧ (t.chan n).mem = [] ∧
       (s.loads = [] → (s.chan n).mirror.gen = 0 → ∀ k, k ≠ n → t.chan k = s.chan k)) ∧
  (∀ (d : Hdr) (n fn target : Nat) (s : State), Accepts 0x60 d fn target s →
     (fn ≠ 0 → exec (.channelReset (.desc d) n) s = .next (complete d 0x60 .notPermitted [] [] s)) ∧
     (fn = 0 → 8 ≤ n → exec (.channelReset (.desc d) n) s = .next (complete d 0x60 .paramInvalid [] [] s)) ∧
     (fn = 0 → n < 8 → (s.chan n).resetting = true →
       exec (.channelReset (.desc d) n) s = .next (addOp 0x60 d 0 8 [] true (.reset 3 n) s))) ∧
  (∀ (n : Nat) (s : State), s.up = true → (s.chan n).switch = none →
     ((s.chan n).resetting = true →
       (∃ t, exec (.channelResetDone n true) s = .next t ∧ (t.chan n).state = .unassigned ∧ (t.chan n).role = .none ∧
         (t.chan n).resetting = false ∧ (t.chan n).failedOnce = false ∧ (t.chan n).nextStep = (s.chan n).nextStep) ∧
       (∃ t, exec (.channelResetDone n false) s = .next t ∧ (t.chan n).state = .failed ∧ (t.chan n).resetting = false ∧
         (t.chan n).role = (s.chan n).role)) ∧
     ((s.chan n).resetting = false → ∀ ok, exec (.channelResetDone n ok) s = .next (resetsEnded s) ∧ (resetsEnded s).chans = s.chans))

/-- A warm device reset from F0 (R401, R402): every ring pair is DISABLED and nothing is outstanding, the locks of the port complex are
gone, the device is in reset, and a channel reset of each channel begins, or, under way already, goes on with its epoch raised (R39); the fuses stay and the descriptor gets no completion. A
function other than F0 is refused with ST_NOT_PERMITTED, and a request made during a warm reset joins it. -/
def Obligations.WarmResetBegins : Prop :=
  ∀ (d : Hdr) (fn target : Nat) (s : State), Accepts 0x60 d fn target s →
    (fn ≠ 0 → exec (.warmDeviceReset (.desc d)) s = .next (complete d 0x60 .notPermitted [] [] s)) ∧
    (fn = 0 → s.mgmt.resetBusy = false → exec (.warmDeviceReset (.desc d)) s = .next
        ((List.range 8).foldl (fun s n =>
            if (s.chan n).resetting then s.modChan n (fun c => { c with epoch := (c.epoch + 1) % 64 }) else beginChanReset n s)
          { warmParts s with mgmt := { s.mgmt with resetBusy := true } }) ∧
      (∀ r, ((warmParts s).ring r).state = .disabled) ∧ (warmParts s).ops = [] ∧ (warmParts s).loads = [] ∧
      (warmParts s).regs = tdel 0x140 s.regs ∧ 0 ∉ (warmParts s).locks ∧ (warmParts s).encl.fuses = s.encl.fuses ∧
      ((warmParts s).fn 0).adapter = (s.fn 0).adapter ∧ ((warmParts s).fn 0).enable = true) ∧
    (fn = 0 → s.mgmt.resetBusy = true → exec (.warmDeviceReset (.desc d)) s = .next s)

/-! ### Iris, Aperture, compositions and counted waits -/

/-- OP_IRIS_SET within its ranges stays outstanding with its setting staged (R410), and one out of range completes with
ST_PARAM_INVALID. IRIS_REFILL (R411): with no descriptor held and no setting waiting, every bucket level rises by rate × period to at most its size, the class
credits move with the period, and nothing else changes. -/
def Obligations.IrisSettingsAndRefills : Prop :=
  (∀ (d : Hdr) (index fn target : Nat) (s : State), Accepts 0x61 d fn target s →
     (∀ r, irisOk index (.flow r) = true → exec (.opIrisSet d index (.flow r)) s =
       .next (addOp 0x61 d fn target [] true .iris { s with stagedFlows := tset index r s.stagedFlows })) ∧
     (∀ r, irisOk index (.pair r) = true → exec (.opIrisSet d index (.pair r)) s =
       .next (addOp 0x61 d fn target [] true .iris (s.setPair index { s.pair index with staged := some r }))) ∧
     (∀ idle, index < 72 → idle ≤ 200000 → exec (.opIrisSet d index (.shaper idle)) s =
       .next (addOp 0x61 d fn target [] true .iris (s.setShaper index { s.shaper index with staged := some idle }))) ∧
     (∀ img, irisOk index img = false → exec (.opIrisSet d index img) s = .next (complete d 0x61 .paramInvalid [] [] s))) ∧
  (∀ s : State, s.up = true → s.stagedFlows = [] → s.ops = [] → (∀ e ∈ s.rings, e.2.held = []) →
     exec .irisRefill s = .next { s with pairs := s.pairs.map (fun e => (e.1, refillPair (refillNs s) e.2))
                                         shapers := s.shapers.map (fun e => (e.1, refillShaper (refillNs s) e.1 s e.2)) } ∧
     (∀ (p : Pair) (dt : Nat), p.staged = none → (refillPair dt p).c = min ((p.params.cbs * 1000 : Nat) : Int) (p.c + ((p.params.cir * dt : Nat) : Int)) ∧
       (refillPair dt p).p = min ((p.params.pbs * 1000 : Nat) : Int) (p.p + ((p.params.pir * dt : Nat) : Int)) ∧
       (refillPair dt p).rel = p.rel))

/-- OP_APERTURE_SET that passes its checks (R417) stages its list of gates for the port and stays outstanding. GATE_BOUNDARY of a port whose
list is disabled (R415 to R417) switches to the staged list from its base on, and its descriptor completes with ST_OK; before the base,
or with none staged, the list stays, and with it every gate open. While a running list does not keep the gates of a class open for ever
and the gate of the class is closed, no packet of the class begins (R416). OP_COMPOSITION_SET of an ID below 64 (R418) sets its members, which
leave every other composition, and completes with ST_OK, taking an entry of the exception queue. OP_COMPOSITION_READ (R420) stays outstanding with the 64 records it will write. -/
def Obligations.GateListsAndCompositions : Prop :=
  (∀ (d : Hdr) (port : Nat) (enable : Bool) (count base listAddr : Nat) (entries : List GateEntry) (fn target : Nat) (s : State),
     Accepts 0x62 d fn target s →
     (apertureCheck fn port enable count listAddr entries s = none →
       exec (.opApertureSet d port enable count base listAddr entries) s =
         .next ((addOp 0x62 d fn target [(listAddr, 8 * count)] true (.aperture port) s).setGate port
           { s.gate port with staged := some ⟨enable, base, entries.take count⟩ })) ∧
     (∀ st, apertureCheck fn port enable count listAddr entries s = some st →
       exec (.opApertureSet d port enable count base listAddr entries) s = .next (complete d 0x62 st [] [] s))) ∧
  (∀ (port : Nat) (s : State), s.up = true → (s.gate port).running.enable = false →
     let g := gateStep s.now (s.gate port)
     ((s.gate port).staged = none → exec (.gateBoundary port) s = .next (s.setGate port g) ∧ g.running = (s.gate port).running ∧ g.opens = 0xFF) ∧
     (∀ x, (s.gate port).staged = some x →
       (s.now < x.base → exec (.gateBoundary port) s = .next (s.setGate port g) ∧ g.running = (s.gate port).running ∧ g.staged = some x ∧
         g.opens = 0xFF) ∧
       (x.base ≤ s.now → exec (.gateBoundary port) s = .next (endOps (fun o => o.kind == .aperture port) .ok (s.setGate port g)) ∧
         g.running = x ∧ g.staged = none ∧ (x.enable = false → g.opens = 0xFF)))) ∧
  (∀ (port vc src i : Nat) (o : Out) (s : State), vc ≠ 2 →
     (turnOrder ((s.port port).txTurn.getD vc 0)).findSome? (fun q => (sourceNext port vc q s).map (fun x => (q, x))) = some (src, i, o) →
     (s.gate port).opens.getLsbD (outClass o s) = false → openLeft (s.gate port).running (outClass o s) s.now ≠ none →
     (sendNext port s vc).out = s.out) ∧
  (∀ (d : Hdr) (fn target : Nat) (s : State),
     (∀ id channels clear, Accepts 0x63 d fn target s → EntryFree s → id < 64 →
       exec (.opCompositionSet d id channels clear) s = .next (complete d 0x63 .ok [] [] (setComposition id channels clear (takeEntry s))) ∧
         ((setComposition id channels clear s).comp id).channels = channels ∧
         (∀ k, k ≠ id → ((setComposition id channels clear s).comp k).channels = (s.comp k).channels &&& ~~~channels)) ∧
     (∀ id channels clear, Accepts 0x63 d fn target s → 64 ≤ id →
       exec (.opCompositionSet d id channels clear) s = .next (complete d 0x63 .paramInvalid [] [] s)) ∧
     (∀ outAddr, Accepts 0x64 d fn target s → rangeCheck fn outAddr 2048 s = none →
       exec (.opCompositionRead d outAddr) s = .next (addOp 0x64 d fn target [(outAddr, 2048)] true
         (.ready .ok [] [(outAddr, .words (compositionWords s))]) s)))

/-- OP_WAIT_COUNT on a counter of this device (R336, R337): at its value it completes with ST_OK and the counter; below it the wait stays
outstanding; WAIT_TIMEOUT ends one that has a time limit with ST_WAIT_TIMEOUT and leaves one that has none. WAIT_POLL of a wait on a counter of another device reads it with one request, and a second poll waits for that answer (R337). -/
def Obligations.CountedWaits : Prop :=
  (∀ (d : Hdr) (ring n timeout fn target : Nat) (s : State), Accepts 0x55 d fn target s → waitCheck d s.fid ring timeout s = none →
     (n ≤ (s.ring ring).counter →
       exec (.opWaitCount d s.fid ring n timeout) s = .next (complete d 0x55 .ok [(s.ring ring).counter] [] s)) ∧
     ((s.ring ring).counter < n →
       exec (.opWaitCount d s.fid ring n timeout) s = .next (addOp 0x55 d fn target [] false (.waitCount s.fid ring n timeout) s)) ∧
     (∀ op k f r m tm, waitOf k s = some (op, f, r, m, tm) →
       (tm ≠ 0 → exec (.waitTimeout k) s = .next (endWait op .waitTimeout [] s)) ∧ (tm = 0 → exec (.waitTimeout k) s = .next s) ∧
       (f = s.fid → exec (.waitPoll k) s = .next s))) ∧
  (∀ (k f r m tm : Nat) (op : RunOp) (s : State), s.up = true → waitOf k s = some (op, f, r, m, tm) → f ≠ s.fid →
     (s.reqs.any (fun q => q.kind == .counter k) = true → exec (.waitPoll k) s = .next s) ∧
     (s.reqs.any (fun q => q.kind == .counter k) = false → ∀ t, sendReq 8 f 8 op.fn (.counter k) .ctrRead 0 (.ask r) s = .ok t →
       exec (.waitPoll k) s = .next t) ∧
     (s.reqs.any (fun q => q.kind == .counter k) = false → ∀ st, sendReq 8 f 8 op.fn (.counter k) .ctrRead 0 (.ask r) s = .error st →
       exec (.waitPoll k) s = .next (endWait op .peerUnreachable [] s)))


/-! ### Sessions -/

/-- OP_SESSION_OPEN takes the lowest-numbered entry that is CLOSED and not retired; the entry is then OPEN, with the owner, the profile
and the slots asked for, nothing in history and a new block, and its handle is the result; every other entry stays. With no such entry
the OPEN completes with ST_SESSION_TABLE_FULL, and with a check of R57 failed with that check's status, and has no other effect. -/
def Obligations.SessionsOpenAtTheLowestFreeEntry : Prop :=
  ∀ (d : Hdr) (owner profile tok gslot addr len fn ch : Nat) (gen : Bool) (img : ParamImage) (s : State), Accepts 0x10 d fn ch s →
    let c := s.chan ch
    let free (i : Nat) : Prop := i < 131072 ∧ (c.dir i).state = .closed ∧ (c.dir i).count < 4294967295
    (∀ st, openCheck ch fn owner profile tok gslot gen addr len img s = some st →
      exec (.opSessionOpen d owner profile tok gslot gen addr len img) s = .next (complete d 0x10 st [] [] s)) ∧
    ((∀ i, ¬ free i) → openCheck ch fn owner profile tok gslot gen addr len img s ≠ none) ∧
    ((∀ i, ¬ free i) → (owner = fn ∨ fn = 0) → s.mgmt.congested = false → imageBuffer fn addr len s = none → (c.prof profile).valid = true →
      (c.tokImage tok).isSome = true → imageOk img c owner tok gslot gen s = true →
      exec (.opSessionOpen d owner profile tok gslot gen addr len img) s = .next (complete d 0x10 .sessionTableFull [] [] s)) ∧
    (openCheck ch fn owner profile tok gslot gen addr len img s = some .sessionTableFull → ∀ i, ¬ free i) ∧
    (openCheck ch fn owner profile tok gslot gen addr len img s = none → EntryFree s →
      ∀ c', ((∀ b r, c.takeBlock (wmOf ch s) ((if img.pin then 2 else 0) + (c.prof profile).kvPlace) = (some (b, r), c') →
          ∃ i u, free i ∧ (∀ j < i, ¬ free j) ∧
            exec (.opSessionOpen d owner profile tok gslot gen addr len img) s =
              .next (complete d 0x10 .ok [handleWord (handleOf ch i u)] [] u) ∧
            u = (takeEntry s).setChan ch (u.chan ch) ∧ (u.chan ch).dir i = { openDir c i owner profile tok gslot gen img with sblk := b, pmap := r } ∧
            ((u.chan ch).dir i).state = .opened ∧ ((u.chan ch).dir i).kvLen = 0 ∧ ((u.chan ch).dir i).owner = owner ∧
            (u.chan ch).sblk i = some (newSblk img) ∧ (∀ j, j ≠ i → (u.chan ch).dir j = c.dir j)) ∧
        (c.takeBlock (wmOf ch s) ((if img.pin then 2 else 0) + (c.prof profile).kvPlace) = (none, c') →
          exec (.opSessionOpen d owner profile tok gslot gen addr len img) s =
            .next (complete d 0x10 .noSpace [] [] ((takeEntry s).setChan ch c')))))

/-- CLOSE, FORK and RESUME, each judged by the table of R50 where it does not act at once (R51). CLOSE (R58) of a session that is neither RUNNING nor
PARKING frees the entry and raises its count, and completes with ST_OK; where a revive moves the session, the REVIVE and what is queued end
first. FORK (R60, R61) makes an OPEN child of the issuer with the parent's map and length, and completes with its handle; an open chunk, a full
table, a share count at its limit and missing space each end it with a status of their own. RESUME (R55, R56) makes the session RUNNABLE in the active
table with its limit, or STOPPED with reason 4 where the limit is 0, and completes with ST_OK. The order of FORK's failures is the model's (log
entry 119). -/
def Obligations.SessionsCloseForkAndResume : Prop :=
  ∀ (d : Hdr) (h : Handle) (fn ch : Nat) (s : State), opOf d.ring d.tag s = none →
    let c := s.chan ch
    let i := h.index
    Judged 0x11 (.opSessionClose d h) (judgeClose (c.dir i)) d h fn ch s ∧
    Judged 0x14 (.opSessionFork d h) (judgeFork (c.dir i)) d h fn ch s ∧
    (∀ toolTag limit feed dflt, Judged 0x15 (.opSessionResume d h toolTag limit feed dflt) (judgeResume (c.dir i)) d h fn ch s) ∧
    (OnSession 0x11 d h fn ch s → judgeClose (c.dir i) = .act →
      ∃ u, exec (.opSessionClose d h) s = .next (complete d 0x11 .ok [] [] u) ∧
        (u.chan ch).dir i = { count := (c.dir i).count + 1, epoch := (c.dir i).epoch } ∧ (u.chan ch).sblk i = none ∧
        (∀ j, j ≠ i → (u.chan ch).dir j = c.dir j) ∧ (∀ k, k ≠ ch → u.chan k = s.chan k) ∧
        ((c.dir i).state ≠ .reviving → (c.dir i).streaming = false → u.ops = s.ops)) ∧
    (OnSession 0x14 d h fn ch s → judgeFork (c.dir i) = .act →
      ((tget i c.chunks).isSome = true → exec (.opSessionFork d h) s = .next (complete d 0x14 .prefillOpen [] [] s)) ∧
      (tget i c.chunks = none → (c.prof (c.dir i).profile).valid = true →
        (c.freeEntry = none → exec (.opSessionFork d h) s = .next (complete d 0x14 .sessionTableFull [] [] s)) ∧
        (∀ j, c.freeEntry = some j → (∃ x ∈ c.descsOf i, 65535 ≤ c.share x) →
          exec (.opSessionFork d h) s = .next (complete d 0x14 .forkLimit [] [] s)) ∧
        (∀ j c', c.freeEntry = some j → (∀ x ∈ c.descsOf i, c.share x < 65535) → forkSpace c (wmOf ch s) i = (none, c') →
          exec (.opSessionFork d h) s = .next (complete d 0x14 .noSpace [] [] (s.setChan ch c'))) ∧
        (∀ j b r ls qs c', c.freeEntry = some j → (∀ x ∈ c.descsOf i, c.share x < 65535) →
          forkSpace c (wmOf ch s) i = (some (b, r, ls, qs), c') →
          ∃ u, exec (.opSessionFork d h) s = .next (complete d 0x14 .ok [handleWord (handleOf ch j u)] [] u) ∧
            ((u.chan ch).dir j).state = .opened ∧ ((u.chan ch).dir j).owner = fn ∧ ((u.chan ch).dir j).kvLen = (c.dir i).kvLen ∧
            ((u.chan ch).dir j).asqValid = false ∧ ((u.chan ch).dir j).count = (c.dir j).count ∧
            (∀ k, k ≠ j → (u.chan ch).dir k = c.dir k) ∧ (∀ k, k ≠ ch → u.chan k = s.chan k)))) ∧
    (∀ toolTag limit feed dflt b, OnSession 0x15 d h fn ch s → judgeResume (c.dir i) = .act → c.sblk i = some b →
      let n := if dflt then b.img.genLimit else limit
      ((tget i c.chunks).isSome = true → exec (.opSessionResume d h toolTag limit feed dflt) s = .next (complete d 0x15 .prefillOpen [] [] s)) ∧
      (tget i c.chunks = none → (c.dir i).state = .waitingTool → toolTag ≠ (c.dir i).toolTag →
        exec (.opSessionResume d h toolTag limit feed dflt) s = .next (complete d 0x15 .toolTagMismatch [] [] s)) ∧
      (tget i c.chunks = none → ((c.dir i).state = .waitingTool → toolTag = (c.dir i).toolTag) →
        (n = 0 → ∃ u b', exec (.opSessionResume d h toolTag limit feed dflt) s = .next (complete d 0x15 .ok [] [] u) ∧
          ((u.chan ch).dir i).state = .stopped ∧ (u.chan ch).sblk i = some b' ∧ b'.stopReason = 4) ∧
        (n ≠ 0 → ((c.dir i).kvLen ≠ 0 ∨ c.pendingOf i ≠ 0) → c.asq.length < 8192 →
          ∃ u b', exec (.opSessionResume d h toolTag limit feed dflt) s = .next (complete d 0x15 .ok [] [] u) ∧
            ((u.chan ch).dir i).state = .runnable ∧ ((u.chan ch).dir i).asqValid = true ∧ ((u.chan ch).dir i).asqIndex < 8192 ∧
            ((u.chan ch).dir i).deadline = d.deadline ∧ (u.chan ch).sblk i = some b' ∧ b'.genLimitRun = n ∧ b'.genCount = 0 ∧
            (∀ k, k ≠ i → (u.chan ch).dir k = c.dir k)) ∧
        (n ≠ 0 → (c.dir i).kvLen = 0 → c.pendingOf i = 0 →
          exec (.opSessionResume d h toolTag limit feed dflt) s = .next (complete d 0x15 .sessionEmpty [] [] s)) ∧
        (n ≠ 0 → ((c.dir i).kvLen ≠ 0 ∨ c.pendingOf i ≠ 0) → 8192 ≤ c.asq.length →
          exec (.opSessionResume d h toolTag limit feed dflt) s = .next (complete d 0x15 .activeTableFull [] [] s))))

/-- SET, QUERY, KV_PREFETCH, TEXT_IN, SESSION_DRAFT and PROFILE_SET (R46, R97, R104, R203, R204, R226, R392). A SET that passes its checks replaces
the parameter image and, where it rebinds, the grammar slot, and completes with ST_OK; in a state of R50 that takes none it fails. QUERY writes 128
bytes and changes nothing else. A prefetch starts the fetches of the layers it names, and names no others. TEXT_IN joins the tokens of its text to
the input queue in order, with their copy to the host where one is asked for; an empty text that is not the last only reports; one that fails
reports a carry that did not change. A draft raises the pending count by its entries. A profile reaches the master copy unless it is in use. -/
def Obligations.SessionsAreSetReadAndFed : Prop :=
  ∀ (d : Hdr) (h : Handle) (fn ch : Nat) (s : State), opOf d.ring d.tag s = none →
    let c := s.chan ch
    let i := h.index
    (∀ addr len img rebind gs ge, OnSession 0x16 d h fn ch s → imageBuffer fn addr len s = none → EntryFree s →
      let slot := if rebind then gs else (c.dir i).grammarSlot
      let en := if rebind then ge else (c.dir i).grammarEn
      (imageOk img c (c.dir i).owner (c.dir i).tokenizer slot en (takeEntry s) = false →
        exec (.opSessionSet d h addr len img rebind gs ge) s = .next (complete d 0x16 .paramInvalid [] [] (takeEntry s))) ∧
      (imageOk img c (c.dir i).owner (c.dir i).tokenizer slot en (takeEntry s) = true →
        (∀ st, judgeInput (c.dir i) = .fail st →
          exec (.opSessionSet d h addr len img rebind gs ge) s = .next (complete d 0x16 st [] [] (takeEntry s))) ∧
        (∀ b, judgeInput (c.dir i) = .act → c.sblk i = some b →
          ∃ u, exec (.opSessionSet d h addr len img rebind gs ge) s = .next (complete d 0x16 .ok [] [] u) ∧
            (u.chan ch).sblk i = some (setSblkImage b img (slot != (c.dir i).grammarSlot)) ∧
            (u.chan ch).dir i = ({ c.dir i with grammarSlot := slot, grammarEn := en } : Dir).withImage img ∧
            (∀ k, k ≠ i → (u.chan ch).dir k = c.dir k)))) ∧
    (∀ addr, OnSession 0x17 d h fn ch s → rangeCheck fn addr 128 s = none →
      exec (.opSessionQuery d h addr) s = .next (complete d 0x17 .ok [] [(addr, .words (queryWords c i))] s) ∧
        (queryWords c i).length = 16) ∧
    (∀ first n, OnSession 0x18 d h fn ch s →
      let x := c.prof (c.dir i).profile
      (first < x.layers → first + n ≤ x.layers →
        exec (.opKvPrefetch d h first n) s = .next (complete d 0x18 .ok [] [] (startFetches ch i (spilledOf c i first n) s)) ∧
          (spilledOf c i first n = [] → exec (.opKvPrefetch d h first n) s = .next (complete d 0x18 .ok [] [] s))) ∧
      (x.layers ≤ first ∨ x.layers < first + n → exec (.opKvPrefetch d h first n) s = .next (complete d 0x18 .paramInvalid [] [] s))) ∧
    (∀ a b, OnSession 0x30 d a.handle fn ch s → a.handle = h → c.sblk i = some b →
      let carried := [0, 0, 0, heldWord b.carry]
      (∀ st, textCheck fn a s = some st → exec (.opTextIn d a) s = .next (complete d 0x30 st carried [] s)) ∧
      (∀ st, textCheck fn a s = none → judgeInput (c.dir i) = .fail st → exec (.opTextIn d a) s = .next (complete d 0x30 st carried [] s)) ∧
      (∀ t, textCheck fn a s = none → judgeInput (c.dir i) = .act → c.tokImage (c.dir i).tokenizer = some t →
        (a.textLen = 0 → a.last = false → exec (.opTextIn d a) s = .next (complete d 0x30 .ok carried [] s)) ∧
        (a.textLen ≠ 0 ∨ a.last = true →
          let o := textRun t (c.dir i).utf8Policy b.carry a.text a.last
          let c1 : Chan := { c with prismInvalid := wrap64 (c.prismInvalid + o.invalid), normFlush := wrap64 (c.normFlush + o.run.flushes) }
          let n := o.run.toks.length
          (∀ off, o.rejected = some off →
            exec (.opTextIn d a) s = .next (complete d 0x30 .textInvalid [0, 0, int32 off, heldWord b.carry] [] (s.setChan ch c1))) ∧
          (o.rejected = none → a.hostCopy = true → a.tokCap < n →
            exec (.opTextIn d a) s = .next (complete d 0x30 .lenExceedsBuffer [n, o.invalid, 0, heldWord b.carry] [] (s.setChan ch c1))) ∧
          (o.rejected = none → (a.hostCopy = true → n ≤ a.tokCap) →
            (∀ c', (c1.touch i none).joinQueue (wmOf ch s) i o.run.toks = (false, c') →
              exec (.opTextIn d a) s = .next (complete d 0x30 .noSpace [0, o.invalid, 0, heldWord b.carry] [] (s.setChan ch (c1.withFails c')))) ∧
            (∀ c', (c1.touch i none).joinQueue (wmOf ch s) i o.run.toks = (true, c') →
              ∃ u, exec (.opTextIn d a) s = .next (complete d 0x30 .ok [n, o.invalid, 0, heldWord o.run.carry]
                  (if a.hostCopy then [(a.tokAddr, .bytes (o.run.toks.flatMap (natLE 4)))] else []) u) ∧
                ((u.chan ch).queue i).words = (c.queue i).words ++ o.run.toks ∧
                (u.chan ch).sblk i = some { b with carry := o.run.carry }))))) ∧
    (∀ a, Accepts 0x38 d fn ch s → a.handle = h → a.count ≠ 0 → rangeCheck fn a.addr (264 * a.count) s = none → checkHandle h ch fn s = none →
      (∀ st, draftCheck c a = some st → exec (.opSessionDraft d a) s = .next (complete d 0x38 st [] [] s)) ∧
      (∀ g t', draftCheck c a = none → (c.dir i).asqValid = true → c.t1.take 0 = (some g, t') →
        ∃ u, exec (.opSessionDraft d a) s = .next (complete d 0x38 .ok [] [] u) ∧
          (u.chan ch).draftOf i = some ⟨g, a.base, a.entries⟩ ∧ (u.chan ch).pendingOf i = c.pendingOf i + a.count)) ∧
    (∀ n rec, Accepts 0x19 d fn ch s → n < 64 → profileOk rec = true → modelFieldsOk rec = true →
      (profileBusy n s = true → exec (.opProfileSet d n rec) s = .next (complete d 0x19 .profileBusy [] [] s)) ∧
      (profileBusy n s = false → exec (.opProfileSet d n rec) s = .next (complete d 0x19 .ok [] [] (setProfile n rec s)) ∧
        tget n (setProfile n rec s).profiles = some rec))

/-- KV_APPEND and ATTN_PREFILL (R149 to R151), each judged by the table of R50 where it does not act at once (R51). One that fails a check completes with
the status of the check; out of order, past the context limit, with the BULK queue full or without a page it completes with that status; else it stays
outstanding as a unit of the BULK queue with its pages reserved, and kv_len does not move until the chunk closes. OP_ATTN_MERGE (R160) stays outstanding
with its two results, or completes with the status of its checks. -/
def Obligations.HostLayersAndMerges : Prop :=
  ∀ (d : Hdr) (fn ch : Nat) (s : State), opOf d.ring d.tag s = none →
    let c := s.chan ch
    (∀ a pre,
      let op := if pre then 0x21 else 0x20
      let cmd : Instr := if pre then .opAttnPrefill d a else .opKvAppend d a
      let i := a.handle.index
      (∀ st, OnSession op d a.handle fn ch s → appendCheck c fn a pre s = some st → exec cmd s = .next (complete d op st [] [] s)) ∧
      (appendCheck c fn a pre s = none → Judged op cmd (judgeInput (c.dir i)) d a.handle fn ch s) ∧
      (OnSession op d a.handle fn ch s → appendCheck c fn a pre s = none → judgeInput (c.dir i) = .act →
        (∀ st, appendOrder c a = some st → exec cmd s = .next (complete d op st [] [] s)) ∧
        (appendOrder c a = none → c.bulkFull = true → exec cmd s = .next (complete d op .bulkQueueFull [] [] s)) ∧
        (appendOrder c a = none → c.bulkFull = false →
          (∀ st f, c.reserve (wmOf ch s) i [a.layer] (layerLen c i a.layer) a.tokens c.nextStep = .error (st, f) →
            exec cmd s = .next (complete d op st [] [] (s.setChan ch f))) ∧
          (∀ new copies c', c.reserve (wmOf ch s) i [a.layer] (layerLen c i a.layer) a.tokens c.nextStep = .ok (new, copies, c') →
            ∃ t, exec cmd s = .next t ∧
              t.ops = s.ops ++ [⟨d, fn, op, ch, false, false, s.now, appendRanges (c.prof (c.dir i).profile) a pre, .bulk ch c'.nextUnit⟩] ∧
              (t.chan ch).dir i = c.dir i ∧ t.out = s.out)))) ∧
    (∀ a, Accepts 0x22 d fn ch s →
      (mergeCheck fn a s = none → exec (.opAttnMerge d a) s = .next (addOp 0x22 d fn ch (mergeRanges a) true
        (.ready .ok [] (mergeWrites a s.freeIx)) { s with freeIx := s.freeIx + 2 })) ∧
      (∀ st, mergeCheck fn a s = some st → exec (.opAttnMerge d a) s = .next (complete d 0x22 st [] [] s)))

/-- PARK and REVIVE (R64 to R67), each judged by the table of R50 where it does not act at once (R51). PARK with a chunk open ends with ST_PREFILL_OPEN
(R149), and one without space changes only the counts of failures; to T2 it leaves the session PARKED and out of the active table; to T3 or T4 the session is
PARKING and its objects go out one after another. REVIVE of a PARKED session whose block stands at T3 or T4 reads the block first, and stays outstanding on a
REVIVING session; where the unit that holds the block cannot be reached the session stays PARKED and the REVIVE completes with ST_REVIVE_FAILED; where
nothing is left to move the session takes its saved state at once. -/
def Obligations.SessionsParkAndRevive : Prop :=
  ∀ (d : Hdr) (h : Handle) (fn ch : Nat) (s : State), opOf d.ring d.tag s = none →
    let c := s.chan ch
    let i := h.index
    Judged 0x12 (.opSessionPark d h) (judgePark (c.dir i)) d h fn ch s ∧
    Judged 0x13 (.opSessionRevive d h) (judgeRevive (c.dir i)) d h fn ch s ∧
    (OnSession 0x12 d h fn ch s → judgePark (c.dir i) = .act →
      ((tget i c.chunks).isSome = true → exec (.opSessionPark d h) s = .next (complete d 0x12 .prefillOpen [] [] s)) ∧
      (tget i c.chunks = none → ∀ c',
        (parkPlan ch i s.freeIx s = (none, c') → exec (.opSessionPark d h) s = .next (complete d 0x12 .noSpace [] [] (s.setChan ch c'))) ∧
        (∀ (plan : Tbl (Loc × Nat × Nat)) runs, parkPlan ch i s.freeIx s = (some (plan, runs), c') →
          ((c'.dir i).parkTier = 2 → ∃ u, exec (.opSessionPark d h) s = .next (complete d 0x12 .ok [] [] u) ∧
            ((u.chan ch).dir i).state = .parked ∧ ((u.chan ch).dir i).savedState = (c'.dir i).state ∧ ((u.chan ch).dir i).asqValid = false) ∧
          ((c'.dir i).parkTier ≠ 2 → exec (.opSessionPark d h) s = .next (parkGo noPend ch i (addOp 0x12 d fn ch [] true (.park ch i)
            ({ s with freeIx := s.freeIx + 16777216 + 65537 }.setChan ch { parkEnter i c' with
              moves := tset i ⟨plan.map (fun e : Nat × (Loc × Nat × Nat) => e.1), none, 0, plan, runs, 0⟩ (parkEnter i c').moves }))) ∧
            ((parkEnter i c').dir i).state = .parking)))) ∧
    (OnSession 0x13 d h fn ch s → (c.dir i).state = .parked →
      ((tget i c.parkRuns).isSome = true → 3 ≤ (c.dir i).sblk.tier →
        let at_ := locTarget ch (c.dir i).sblk s
        let unreached : Prop := unitMarked at_.1 at_.2.1 s = true ∨ (at_.1 = s.fid ∧ at_.2.1 < 8 ∧ (s.chan at_.2.1).state = .failed)
        (¬ unreached → ∃ t, exec (.opSessionRevive d h) s = .next t ∧ ((t.chan ch).dir i).state = .reviving ∧
          t.ops = s.ops ++ [⟨d, fn, 0x13, ch, true, false, s.now, [], .revive ch i⟩]) ∧
        (unreached → s.ops = [] → c.pendOf i = [] → (c.dir i).streaming = false →
          ∃ u, exec (.opSessionRevive d h) s = .next (complete d 0x13 .reviveFailed [0] [] u) ∧ ((u.chan ch).dir i).state = .parked ∧ u.ops = [])) ∧
      ((c.dir i).savedState ∈ [.opened, .waitingTool, .stopped] → tget i c.parkRuns = none → tget i c.parkedMaps = none →
        c.pendOf i = [] → s.ops = [] → ∃ u, exec (.opSessionRevive d h) s = .next (complete d 0x13 .ok [] [] u) ∧
          ((u.chan ch).dir i).state = (c.dir i).savedState ∧ ((u.chan ch).dir i).streaming = false ∧ u.ops = []))

/-! ### Slots, loads and model runs -/

/-- OP_TOKENIZER_LOAD, OP_GRAMMAR_LOAD, OP_MODEL_LOAD and their unloads (R198, R199, R231, R251), over every list of channels: one that fails its checks
completes with the status of the check. An unload leaves the slot EMPTY on each named channel and completes with ST_OK. A load without room in a
Prism area completes with ST_NO_SPACE; else the slot is LOADING on each named channel, one read goes out per channel, and the descriptor stays
outstanding. -/
def Obligations.SlotsLoadAndUnload : Prop :=
  ∀ (d : Hdr) (a : LoadArgs) (fn target : Nat) (s : State),
    let cs := loadChans a
    let answers (k op : Nat) (load unload : Instr) (check : Bool → Option Status) (u : State) : Prop :=
      (∀ st, check true = some st → exec unload s = .next (complete d op st [] [] s)) ∧
      (check true = none → exec unload s = .next (complete d op .ok [] [] (cs.foldl (fun s n => s.modChan n (emptySlot k a.slot)) s))) ∧
      (∀ st, check false = some st → exec load s = .next (complete d op st [] [] s)) ∧
      (check false = none → EntryFree s →
        (k ≠ 2 → takePrisms a.len cs u [] = none → exec load s = .next (complete d op .noSpace [] [] u)) ∧
        (∀ rs v, (if k = 2 then some ([], u) else takePrisms a.len cs u []) = some (rs, v) → unitMarked (s.fn 0).adapter 0 s = false →
          (s.fn 0).adapter ≠ s.fid → ∃ t, exec load s = .next t ∧ (∀ n ∈ cs, slotState k a.slot (t.chan n) = 1) ∧
            t.ops = s.ops ++ [⟨d, fn, op, 8, true, false, s.now, [(a.addr, a.len)], .load s.nextLoad⟩] ∧ t.nextLoad = s.nextLoad + 1))
    (Accepts 0x31 d fn target s → answers 0 0x31 (.opTokenizerLoad d a) (.tokenizerUnload d a) (fun un => loadCheck 0 fn a un s) (takeEntry s)) ∧
    (Accepts 0x39 d fn target s → answers 1 0x39 (.opGrammarLoad d a) (.grammarUnload d a) (fun un => loadCheck 1 fn a un s)
      (cs.foldl (fun s n => s.modChan n (dropMasks a.slot)) (takeEntry s))) ∧
    (Accepts 0x40 d fn target s → answers 2 0x40 (.opModelLoad d a) (.modelUnload d a) (fun un => modelLoadCheck fn a un s) (takeEntry s)) ∧
    (∀ k n, k < 3 → n ∈ cs → slotState k a.slot ((cs.foldl (fun s n => s.modChan n (emptySlot k a.slot)) s).chan n) = 0)

/-- OP_MODEL_RUN that passes its checks joins the runs accepted and stays outstanding (R259); one that fails completes with the status of the
check. MODEL_RUN_DISPATCH gives the window to the run first by deadline and acceptance, where none holds it (R262): a run whose text proves too long
ends, another has its inputs as tokens. WINDOW_FILL copies the next layer's weights of the run that holds the window, and changes nothing where none
does (R263); shown in full for the first layer of a model that does not fit. -/
def Obligations.ModelRunsAreAcceptedAndDispatched : Prop :=
  ∀ (d : Hdr) (a : RunArgs) (fn ch : Nat) (s : State), s.up = true →
    (Accepts 0x41 d fn ch s →
      (runCheck ch fn a s = none → exec (.opModelRun d a) s = .next (addOp 0x41 d fn ch
          [(a.inAddr, 16 * a.count), (a.dataAddr, a.dataLen), (a.outAddr, a.outLen)] false (.bulk ch (s.chan ch).nextUnit)
          (s.setChan ch (runAccept d a ch s))) ∧
        (runAccept d a ch s).runs.map (fun r => r.a) = (s.chan ch).runs.map (fun r => r.a) ++ [a]) ∧
      (∀ st, runCheck ch fn a s = some st → exec (.opModelRun d a) s = .next (complete d 0x41 st [] [] s))) ∧
    (∀ r, (s.chan ch).running = some r → exec (.modelRunDispatch ch) s = .next s) ∧
    ((s.chan ch).runs = [] → exec (.modelRunDispatch ch) s = .next s) ∧
    (∀ r, (s.chan ch).running = none → nextRun (s.chan ch).runs = some r →
      r ∈ (s.chan ch).runs ∧ (∀ q ∈ (s.chan ch).runs, q = r ∨ runBefore r q = true) ∧
      let ts := runTokens (s.chan ch) r.a
      let c := countText ts.2.1 ts.2.2 (s.chan ch)
      (∀ st, lateCheck ((s.chan ch).prof r.a.profile) r.a ts.1 = some st →
        exec (.modelRunDispatch ch) s = .next (endRun ch r st (s.setChan ch c))) ∧
      (lateCheck ((s.chan ch).prof r.a.profile) r.a ts.1 = none →
        ∃ t r', exec (.modelRunDispatch ch) s = .next t ∧ (t.chan ch).running = some r' ∧ r'.id = r.id ∧
          r'.a.inputs = ts.1 ∧ (t.chan ch).window.owner = some r.a.profile ∧ t.ops = s.ops ∧ t.out = s.out)) ∧
    ((s.chan ch).running = none → ∃ t, exec (.windowFill ch) s = .next t ∧ t.chan ch = s.chan ch ∧ t.ops = s.ops ∧ t.out = s.out) ∧
    exec (.windowFill ch) s = .next (pushLayer ch (s.modChan ch fillWindow)) ∧
    (∀ r l, (s.chan ch).running = some r → ((s.chan ch).model r.a.profile).resident = false → mayReside (s.chan ch) r.a.profile = false →
      layersOf (s.chan ch) r.a.profile = [l] → l.stream = true → l.wLen ≤ 671088640 → r.a.steps = 1 → r.pass = 0 → r.layer = 0 →
      (s.chan ch).window = {} → (s.chan ch).bulk = [] →
      ∃ t, exec (.windowFill ch) s = .next t ∧ (t.chan ch).window.bufA = some (winKey 0 0) ∧
        (t.chan ch).bulk.map (fun u => u.work) = [.modelLayer r.id 0])

/-! ### The step engine -/

/-- OP_STEP is refused by a failed check, ST_SCHED_MODE in TABLE mode among them, and otherwise held until its list is fixed (R164, R179). GATHER_EXPIRY
and WORK_LIST_FIX fix a list where every condition of R171 holds, and change nothing where one does not; FIXED_LIST_FIX takes the first OP_STEP held
in FIXED mode. Shown for a list of one: the step takes the channel's next number, the sequence is RUNNING and its slot waits for publication; an OP_STEP
with no entry accepted completes with step number 0. -/
def Obligations.WorkListsAreFixed : Prop :=
  ∀ (d : Hdr) (a : StepArgs) (fn ch : Nat) (s : State), s.up = true →
    let c := s.chan ch
    (Accepts 0x28 d fn ch s →
      (fixedMode ch s = false → exec (.opStep d a) s = .next (complete d 0x28 .schedMode [] [] s)) ∧
      (∀ st, stepCheck ch fn a s = some st → exec (.opStep d a) s = .next (complete d 0x28 st [] [] s)) ∧
      (stepCheck ch fn a s = none → exec (.opStep d a) s = .next (addOp 0x28 d fn ch [(a.listAddr, 16 * a.count), (a.resultAddr, 8 * a.count)]
        false (.stepWait ch a) s))) ∧
    exec (.gatherExpiry ch) s = exec (.workListFix ch) s ∧
    ((mayFix ch s = false ∨ fixedMode ch s = true ∨ gatherOver ch s = false) → exec (.workListFix ch) s = .next s) ∧
    (mayFix ch s = true → fixedMode ch s = false → gatherOver ch s = true →
      exec (.workListFix ch) s = .next (buildList ch s) ∧
      (∀ q c' x, c.candidates = [q] → c.isCandidate q.handle.index = true → 0 < stepSeqs ch s → 0 < stepTokens ch s →
        let n := min (min (c.pendingOf q.handle.index) 2048) (stepTokens ch s)
        (c.dir q.handle.index).kvLen + n ≤ (c.prof (c.dir q.handle.index).profile).maxPositions →
        listSession c.nextStep n (chooseDriver (enabledSubs ch s) (some q) []) q.handle (wmOf ch s) c = .ok (x, c') →
        ∃ t st, exec (.workListFix ch) s = .next t ∧ (t.chan ch).nextStep = c'.nextStep + 1 ∧ (t.chan ch).steps = c'.steps ++ [st] ∧
          st.num = c'.nextStep ∧ st.slots = [x] ∧ st.published = false ∧ st.fixed = false ∧
          ((t.chan ch).dir q.handle.index).state = .running)) ∧
    ((mayFix ch s = false ∨ fixedMode ch s = false ∨ waitingStep ch s = none) → exec (.fixedListFix ch) s = .next s) ∧
    (∀ op a, mayFix ch s = true → fixedMode ch s = true → waitingStep ch s = some (op, a) →
      exec (.fixedListFix ch) s = .next (fixStep ch op a s) ∧
      (∀ e, a.entries = [e] →
        (∀ st, checkHandle e.handle ch op.fn s = some st →
          exec (.fixedListFix ch) s = .next (endOp op .ok [0] [(a.resultAddr, .words [statusCode st + 0xFFFF * 65536])] s)) ∧
        (∀ c' x, checkHandle e.handle ch op.fn s = none → (c.dir e.handle.index).state = .runnable →
          e.tokens = min (c.pendingOf e.handle.index) 2048 → e.tokens ≠ 0 →
          (c.dir e.handle.index).kvLen + e.tokens ≤ (c.prof (c.dir e.handle.index).profile).maxPositions →
          listSession c.nextStep e.tokens e.driver e.handle (wmOf ch s) c = .ok (x, c') →
          ∃ t st, exec (.fixedListFix ch) s = .next t ∧ (t.chan ch).nextStep = c'.nextStep + 1 ∧ (t.chan ch).steps = c'.steps ++ [st] ∧
            st.num = c'.nextStep ∧ st.slots = [x] ∧ st.fixed = true ∧
            t.ops = s.ops.map (fun o => if o = op then { o with begun := true, kind := .step ch c.nextStep a.resultAddr [(0, 0, 0)] } else o))))

/-- WORK_LIST_PUBLISH, WL_WAIT_TIMEOUT and WL_HEAD_WRITE (R173 to R176). With no subscriber enabled every sequence ends with ST_ACCEL_TIMEOUT; where every
enabled one has space its PAD, where it needs one, then its LIST record and then its tail go out and the step is published; where one has no space
nothing goes out and the list waits. The timeout acts only on a list that waits, and disables each subscriber without space. A head write within
the tail moves the head; one outside, or by a requester without the right, is refused. -/
def Obligations.WorkListsArePublished : Prop :=
  ∀ (ch : Nat) (s : State), s.up = true →
    ((s.chan ch).unpublished = none → exec (.workListPublish ch) s = .next s ∧ exec (.wlWaitTimeout ch) s = .next s) ∧
    (∀ st, (s.chan ch).unpublished = some st →
      let len := listLength st.slots
      let total := (st.slots.map (fun x => x.tokens.length)).sum
      (enabledSubs ch s = [] → exec (.workListPublish ch) s = .next (endAllSeqs ch st.num .accelTimeout st.slots.length
        (s.modChan ch (fun c => c.modStep st.num (fun st => { st with published := true, waitSince := none }))))) ∧
      (enabledSubs ch s ≠ [] → (∀ k ∈ enabledSubs ch s, wlSpace ch k len s = true) → ∃ t, exec (.workListPublish ch) s = .next t ∧
        t.out = ((enabledSubs ch s).foldl (fun s k => writeList ch k st s) s).out ∧
        (∀ y ∈ (t.chan ch).steps, y.num = st.num → y.published = true)) ∧
      (∀ k u, (u.chan ch).wlTail = (s.chan ch).wlTail → u.regs = s.regs → u.power = s.power →
        let tail := (tget k (s.chan ch).wlTail).getD 0
        let size := 2 ^ wlExp ch k s
        let pad := wlPad ch k len s
        let record := Out.workList ch k ((tail + pad) % size) len false st.num st.slots.length total (.bytes (listBytes ch st u))
        (writeList ch k st u).out = .tailWord ch k (wrap64 (tail + pad + len)) :: record ::
          (if pad = 0 then u.out else .workList ch k (tail % size) pad true st.num 0 0 (.bytes (padList st.num pad st.fixed (u.fid + ch * 64))) :: u.out) ∧
          (tget k ((writeList ch k st u).chan ch).wlTail).getD 0 = wrap64 (tail + pad + len)) ∧
      (∀ k ∈ enabledSubs ch s, wlSpace ch k len s = false → ∃ t, exec (.workListPublish ch) s = .next t ∧ t.out = s.out ∧
        (t.chan ch).wlTail = (s.chan ch).wlTail ∧ (∀ y ∈ (t.chan ch).steps, y.num = st.num → y.waitSince.isSome = true)) ∧
      (st.waitSince = none → exec (.wlWaitTimeout ch) s = .next s) ∧
      (st.waitSince.isSome = true → exec (.wlWaitTimeout ch) s = .next (waitOver ch st s))) ∧
    (∀ k < 8, wlEnabled ch k (dropSub ch k s) = false) ∧
    (∀ r k v, ch < 8 → k < 8 →
      (writePermitted r (chanBase ch + 0x200 + 8 * k) .wlHead s = false → exec (.wlHeadWrite r ch k v) s = .next (denyReg r s)) ∧
      (writePermitted r (chanBase ch + 0x200 + 8 * k) .wlHead s = true →
        (v < wlHead ch k s ∨ (tget k (s.chan ch).wlTail).getD 0 < v → exec (.wlHeadWrite r ch k v) s = .next (badReg r s)) ∧
        (wlHead ch k s ≤ v → v ≤ (tget k (s.chan ch).wlTail).getD 0 → ∃ t, exec (.wlHeadWrite r ch k v) s = .next (okReg r t) ∧
          wlHead ch k t = v ∧ t = { s with regs := t.regs } ∧ ∀ a, a ≠ chanBase ch + 0x200 + 8 * k → tget a t.regs = tget a s.regs)))

/-- The exchange of a layer (R143 to R145, R158, R161, R180): a segment for no current sequence is counted and dropped, an ill-formed one
ends its sequence with ST_ATTN_PROTOCOL, one of an input joins its part and one of another shard's result joins it. BUCKET_BUILD wakes the held
sequences and deals the free tiles; a lone ready sequence takes its place. ATTN_LAYER_COMPLETE of a plain sequence sends its O part, and its next
layer follows. The two timeouts end a sequence that waits, and change nothing for another. A part leaves as segments in offset order (R140):
together they hold its bytes, padded with zeros to a multiple of 16, each holds at most 4,080 of them at the offset where it stands, and the last
alone has last = 1. -/
def Obligations.SequencesRunTheirLayers : Prop :=
  ∀ (s : State), s.up = true →
    (∀ p g, Arrives p s →
      (p.dstUnit = 8 → exec (.segAttn p g) s = .next (badPacket p.port s) ∧ exec (.segSample p g) s = .next (badPacket p.port s)) ∧
      (p.dstUnit ≠ 8 → segSlot (s.chan p.dstUnit) g.stepLo g.slot = none →
        exec (.segAttn p g) s = .next (discardSeg p.dstUnit s) ∧ exec (.segSample p g) s = .next (discardSeg p.dstUnit s)) ∧
      (∀ num x, p.dstUnit ≠ 8 → segSlot (s.chan p.dstUnit) g.stepLo g.slot = some (num, x) →
        let c := s.chan p.dstUnit
        let pr := c.prof (c.dir x.index).profile
        let fault := endSeq p.dstUnit num g.slot .attnProtocol none true s
        (6 ≤ g.part → exec (.segAttn p g) s = .next fault) ∧
        (g.part < 4 → (addInput pr x g).bind (takeCtrl pr) = none → exec (.segAttn p g) s = .next fault) ∧
        (∀ y, g.part < 4 → (addInput pr x g).bind (takeCtrl pr) = some y →
          let u := s.modChan p.dstUnit (fun c => c.modSlot num g.slot (fun _ => { y with requester := (p.srcFid, p.srcUnit) }))
          exec (.segAttn p g) s = .next (if inputsDone pr y then placeSlot p.dstUnit num g.slot u else u)) ∧
        (g.part = 4 ∨ g.part = 5 → addShard pr x g = none → exec (.segAttn p g) s = .next fault) ∧
        (∀ y, g.part = 4 ∨ g.part = 5 → addShard pr x g = some y → exec (.segAttn p g) s =
          .next (mergeSend p.dstUnit num g.slot (s.modChan p.dstUnit (fun c => c.modSlot num g.slot (fun _ => y))))) ∧
        (g.part ≠ 1 → exec (.segSample p g) s = .next fault))) ∧
    (∀ ch layer, exec (.bucketBuild ch layer) s = .next ((wakeHeld ch s).modChan ch (buildLayer layer)) ∧
      (∀ num k x, slotsIn (s.chan ch) .held = [] → buildSlots (s.chan ch) layer = [(num, k, x)] → (s.chan ch).freeTiles ≠ [] →
        ∃ t, exec (.bucketBuild ch layer) s = .next t ∧ (∃ y, (t.chan ch).slotOf num k = some y ∧ y.phase = .tiles) ∧ t.out = s.out ∧
          (∀ n, n ≠ ch → t.chan n = s.chan n))) ∧
    (∀ ch num k, (∀ x, (s.chan ch).slotOf num k = some x → x.phase ≠ .tiles ∨ x.ctrl = none) → exec (.attnLayerComplete ch num k) s = .next s) ∧
    (∀ ch num k x q, (s.chan ch).slotOf num k = some x → x.phase = .tiles → x.ctrl = some q →
      exec (.attnLayerComplete ch num k) s = .next ((layerRan ch num k x q s).modChan ch dropBuilds) ∧
      (q.merges = false → q.isPartial = false → x.layer + 1 < ((s.chan ch).prof ((s.chan ch).dir x.index).profile).layers →
        ∃ t y o, exec (.attnLayerComplete ch num k) s = .next t ∧ (t.chan ch).slotOf num k = some y ∧ y.layer = x.layer + 1 ∧ y.phase = .inputs ∧
          t.out = (sendPart ch num k x 4 o s).out)) ∧
    (∀ ch num k st x, (s.chan ch).stepOf num = some st → (s.chan ch).slotOf num k = some x →
      exec (.layerTimeout ch num k) s = .next (if st.published ∧ (x.phase = .inputs ∨ x.phase = .logits)
        then endSeq ch num k .accelTimeout none true s else s) ∧
      exec (.mergeTimeout ch num k) s = .next (if x.phase = .merge then endSeq ch num k .peerUnreachable none true s else s)) ∧
    (∀ ch num k, (s.chan ch).slotOf num k = none → exec (.layerTimeout ch num k) s = .next s ∧ exec (.mergeTimeout ch num k) s = .next s) ∧
    (∀ (sample : Bool) (ch fid unit step slot at_ part rank : Nat) (st : Status) (bs : List Byte),
      ∃ gs : List Seg, (emitPart sample ch fid unit step slot at_ part rank st bs s).out =
          (gs.map (fun g => Out.segment sample ch fid unit g)).reverse ++ s.out ∧
        gs.flatMap (fun g => g.data) = pad16 bs ∧ (pad16 bs).length % 16 = 0 ∧ (pad16 bs).take bs.length = bs ∧
        (∀ k g, gs[k]? = some g → g.offset = 4080 * k ∧ g.len = g.data.length ∧ 1 ≤ g.len ∧ g.len ≤ 4080 ∧
          (g.last = true ↔ k + 1 = gs.length) ∧ g.slot = slot ∧ g.layer = at_ ∧ g.part = part ∧ g.rank = rank ∧ g.status = statusCode st))

/-- SEG_SAMPLE, SAMPLE_ROW and OUT_HEAD_REFRESH (R217, R221, R241): a logits segment that fits joins its row, and the sequence is sampled once every row
is whole; a whole row with a NaN or +infinity ends the step with ST_LOGITS_INVALID; one that does not fit ends it with ST_ATTN_PROTOCOL. SAMPLE_ROW of a
slot that is sampling ends its step with the tokens drawn, and changes nothing for another. A run of emitted tokens stops at the first end reason. A
head word within the ring's bounds is taken. -/
def Obligations.RowsAreSampled : Prop :=
  ∀ (s : State), s.up = true →
    (∀ p g num x, Arrives p s → p.dstUnit ≠ 8 → segSlot (s.chan p.dstUnit) g.stepLo g.slot = some (num, x) →
      let ch := p.dstUnit
      let c := s.chan ch
      let vocab := match c.tokImage (c.dir x.index).tokenizer with | some t => t.vocabSize | none => 0
      let fmt := logitFmt ch s
      let size := rowSize fmt vocab
      (addLogits size x g = none → exec (.segSample p g) s = .next (endSeq ch num g.slot .attnProtocol none true s)) ∧
      (∀ y, addLogits size x g = some y →
        let all := (List.range y.rows).all (fun r => ((tget r y.logits).getD {}).complete size)
        let u := s.modChan ch (fun c => c.modSlot num g.slot (fun _ =>
          { y with requester := (p.srcFid, p.srcUnit), phase := if all then .sampling else .logits }))
        let row := (tget g.layer y.logits).getD {}
        exec (.segSample p g) s = .next (if row.complete size && (logitRow fmt vocab row.data).any badLogit
          then endSeq ch num g.slot .logitsInvalid none true u else u))) ∧
    (∀ ch num k, (∀ x, (s.chan ch).slotOf num k = some x → x.phase ≠ .sampling) → exec (.sampleRow ch num k) s = .next s) ∧
    (∀ ch num k x t b, (s.chan ch).slotOf num k = some x → x.phase = .sampling →
      let e := (s.chan ch).dir x.index
      (s.chan ch).tokImage e.tokenizer = some t → (s.chan ch).sblk x.index = some b →
      exec (.sampleRow ch num k) s = .next (endSeq ch num k .ok (some (sampleSlot num (logitFmt ch s) x t
        (if e.grammarEn then (s.chan ch).gramImage e.grammarSlot else none) e b)) true s)) ∧
    (∀ t gr o tok, (o : SampleOut).stop ≠ 0 → emitToken t gr o tok = o) ∧
    (∀ t gr o tok, (o : SampleOut).stop = 0 → (emitToken t gr o tok).toks.map (fun e => e.1) = o.toks.map (fun e => e.1) ++ [tok] ∧
      (emitToken t gr o tok).blk.genCount = o.blk.genCount + 1) ∧
    (∀ ch i v, ∃ t, exec (.outHeadRefresh ch i v) s = .next t ∧ t.chan ch = takeHead i v (s.chan ch) ∧ t = { s with chans := t.chans } ∧
      (∀ k, k ≠ ch → t.chan k = s.chan k))

/-! ### BULK units and pages -/

/-- The ends of BULK work (R97, R98, R124, R186, R188, R488): a unit that does not hold its tiles ends nothing, and one of a prefill whose layer reads
pages not resident has them fetched and does not end. One that ends leaves the queue and its work is done before the dispatch point. Of a host-issued
layer: its operation completes with ST_SESSION_STALE where its handle has become stale, with ST_PAGE_LOST where a prefill's layer reads a LOST page, with
ST_POISONED where its input was poisoned, and else with ST_OK, a prefill's results written; the session keeps its state, and a layer appended by
OP_KV_APPEND posts one completion. A save puts the image of each tile into its slot and leaves the unit without tiles, and a restore puts each image on
the tile that takes it and frees the slots; neither changes a unit that is not saving or restoring. -/
def Obligations.BulkUnitsEnd : Prop :=
  ∀ (ch unit : Nat) (s : State), s.up = true →
    let c := s.chan ch
    (∀ p, runningUnit c unit = none → exec (.bulkUnitComplete ch unit p) s = .next s) ∧
    (∀ p u i ds, runningUnit c unit = some u → unitWaits c u.work = some (i, ds) → exec (.bulkUnitComplete ch unit p) s = .next (startFetches ch i ds s)) ∧
    (∀ u, runningUnit c unit = some u → unitWaits c u.work = none → exec (.bulkUnitComplete ch unit false) s = .next (dispatchChan ch
      (bulkWorkDone ch u.work false (countMiss ch 0 0 (missed u.deadline s.now)
        (s.modChan ch (fun c => { c with bulk := c.bulk.filter (fun v => v.id != unit) })))))) ∧
    (∀ u ring tag a start new copies op p, runningUnit c unit = some u → u.work = .append ring tag a false start new copies →
      opOf ring tag s = some op → s.ops = [op] → op.detached = false → op.opcode = 0x20 → u.deadline = none → op.hdr.irq = false →
      (s.ring op.hdr.ring).usable = true → checkHandle a.handle ch op.fn s = none → (p = true → 1000000 ≤ s.now ∧ s.mgmt.congested = false) →
      ∃ t slot ph st, exec (.bulkUnitComplete ch unit p) s = .next t ∧ t.ops = [] ∧ (∀ v ∈ (t.chan ch).bulk, v.id ≠ unit) ∧
        st = (if p then Status.poisoned else Status.ok) ∧
        .completion op.hdr.ring slot ph op.hdr.tag st 0x20 ((s.ring op.hdr.ring).sqHead % 4294967296) 0 [] ∈ t.out ∧
        ((t.chan ch).dir a.handle.index).state = (c.dir a.handle.index).state) ∧
    (∀ ring tag a pre start new copies op p v, opOf ring tag v = some op →
      let q := (v : State).chan ch
      let job := hostJob a start new
      let ends := bulkWorkDone ch (.append ring tag a pre start new copies) p v
      (∀ st, checkHandle a.handle ch op.fn v = some st →
        ends = endOp op .sessionStale [] [] (v.setChan ch ((q.unreserve new).unreserve copies))) ∧
      (checkHandle a.handle ch op.fn v = none →
        (pre = true → jobReady q job = .lost → ends = endOp op .pageLost [] [] (v.setChan ch (appendCancel a start new copies q))) ∧
        ((pre = true → jobReady q job ≠ .lost) →
          (p = true → ends = endOp op .poisoned [] [] (v.setChan ch (appendCancel a start new copies q))) ∧
          (p = false → ∃ w writes, ends = endOp op .ok [] writes w ∧ w.ops = v.ops ∧ w.out = v.out ∧ (∀ n, n ≠ ch → w.chan n = v.chan n) ∧
            ((w.chan ch).dir a.handle.index).state = (q.dir a.handle.index).state ∧
            (pre = false → writes = []) ∧
            (pre = true → ∃ o, writes.head? = some (a.oAddr, .bytes o) ∧ writes.length = if a.isPartial then 2 else 1))))) ∧
    (∃ t, exec (.preemptSaveComplete ch unit) s = .next t ∧ t = { s with chans := t.chans } ∧ (∀ n, n ≠ ch → t.chan n = s.chan n) ∧
      (c.bulk.find? (fun u => u.id == unit && u.saving) = none → t.chan ch = c) ∧
      (∀ u, c.bulk.find? (fun u => u.id == unit && u.saving) = some u →
        (∀ v ∈ (t.chan ch).bulk, v.id = unit → v.saving = false ∧ (unit ∉ c.bulkShare → v.tiles = [])) ∧
        (∀ v ∈ c.bulk, v.id ≠ unit → v.id ∉ c.bulkShare → v ∈ (t.chan ch).bulk) ∧
        (u.saved.Nodup → ∀ k tile slot : Nat, u.tiles[k]? = some tile → u.saved[k]? = some slot → tget slot (t.chan ch).saves = tget tile c.t0))) ∧
    (∃ t, exec (.restoreComplete ch unit) s = .next t ∧ t = { s with chans := t.chans } ∧ (∀ n, n ≠ ch → t.chan n = s.chan n) ∧
      (c.bulk.find? (fun u => u.id == unit && u.restoring) = none → t.chan ch = c) ∧
      (∀ u, c.bulk.find? (fun u => u.id == unit && u.restoring) = some u →
        (t.chan ch).bulk = c.bulk.map (fun v => if v.id = unit then { v with restoring := false, saved := [] } else v) ∧
        (∀ slot ∈ u.saved, tget slot (t.chan ch).saves = none) ∧
        (u.tiles.Nodup → ∀ k tile slot : Nat, u.tiles[k]? = some tile → u.saved[k]? = some slot → tget tile (t.chan ch).t0 = tget slot c.saves)))

/-- Pages move (R84, R93, R94, R95, R97, R98, R281, R468). DEMOTE moves nothing from a tier whose use is at or below its high watermark while no demotion
of it goes on, from T2 with no spill tier, and from no other tier; one that may start takes an eligible page of least last_step, which is then MOVING to a
run in T2, and with none counts a stall. A MOVING page whose copy is written is RESIDENT at its new place and a SPILLING one SPILLED there; a copy
abandoned since changes nothing. PAGE_ENCODE leaves a page as it is, or, where its turn has come and the result is shorter, coded at a run of its tier. A
FETCHING page is RESIDENT with its envelope accepted, and LOST with it rejected, which is counted, or poisoned; held sequences then look again. A freed run
is scrubbed once. -/
def Obligations.PagesMove : Prop :=
  ∀ (ch d : Nat) (s : State), s.up = true →
    let c := s.chan ch
    let p := c.page d
    (∀ tier, tier = 0 ∨ 2 < tier ∨ (tier = 2 ∧ spillTier ch s = 0) ∨
        (tier ∉ c.demoting ∧ (c.tier tier).use ≤ if tier = 1 then (wmOf ch s).h1 else (wmOf ch s).h2) → exec (.demote ch tier) s = .next s) ∧
    (∀ tier ix spill e, c.demoteNext tier ix spill = some e → ∃ q, (e, q) ∈ c.pages ∧ c.eligible tier ix spill e q = true ∧
      ∀ r ∈ c.pages, c.eligible tier ix spill r.1 r.2 = true → q.lastStep ≤ r.2.lastStep) ∧
    ((wmOf ch s).h1 < c.t1.use ∨ 1 ∈ c.demoting →
      let g := ({ c with demoting := 1 :: c.demoting.erase 1 } : Chan).withRegions ch s
      (wmOf ch s).l1 < g.t1.use - g.leaving 1 → g.admitJobs.mayStart (deviceDl ch s) = true →
      (g.demoteNext 1 s.freeIx false = none → ∃ t, exec (.demote ch 1) s = .next t ∧ (t.chan ch).stalled = wrap64 (c.stalled + 1) ∧
        (t.chan ch).pages = c.pages) ∧
      (∀ e n a, g.demoteNext 1 s.freeIx false = some e → g.t2.take (c.page e).sizeClass = (some n, a) →
        ∃ t m, exec (.demote ch 1) s = .next t ∧
          (t.chan ch).page e = { c.page e with residency := .moving, dest := some (⟨2, m⟩, (c.page e).sizeClass) })) ∧
    ((c.doomed.any (fun e => e.1 == d) = true ∨ p.dest = none ∨ (p.residency ≠ .moving ∧ p.residency ≠ .spilling)) →
      ∃ t, exec (.pageMoveComplete ch d) s = .next t ∧ t.chan ch = c) ∧
    (∀ l k, c.doomed.any (fun e => e.1 == d) = false → p.dest = some (l, k) → p.residency = .moving ∨ p.residency = .spilling →
      ∃ t, exec (.pageMoveComplete ch d) s = .next t ∧ (∀ e, e ≠ d → (t.chan ch).page e = c.page e) ∧
        (t.chan ch).page d = if p.residency = .moving then { p with loc := l, sizeClass := k, residency := .resident, dest := none }
          else pageOut p l p.destForm.1 p.destForm.2 1) ∧
    (∃ t, exec (.pageEncode ch d) s = .next t ∧ t.freeIx = s.freeIx + 1 ∧ (∀ e, e ≠ d → (t.chan ch).page e = c.page e) ∧
      (c.admitJobs.started (.encode d) = false ∨ c.beingWritten d = true ∨ c.toEncode (c.pageProf d) d = false ∨
        (c.pageProf d).rawBytes ≤ codedBytes s.freeIx → (t.chan ch).page d = p) ∧
      ((t.chan ch).page d = p ∨ ∃ g, (t.chan ch).page d = { p with loc := ⟨if p.loc.tier = 1 then 1 else 2, g⟩, sizeClass := classFor (codedBytes s.freeIx)
                                                                   codec := (c.pageProf d).kvCodec, storedLen := (codedBytes s.freeIx + 255) / 256
                                                                   len := codedBytes s.freeIx }) ∧
      (∀ g a, c.admitJobs.started (.encode d) = true → c.beingWritten d = false → c.toEncode (c.pageProf d) d = true → p.loc.tier = 1 →
        codedBytes s.freeIx < (c.pageProf d).rawBytes → c.t1.take (classFor (codedBytes s.freeIx)) = (some g, a) →
        ((t.chan ch).page d).loc = ⟨1, g⟩ ∧ ((t.chan ch).page d).codec = (c.pageProf d).kvCodec)) ∧
    (∀ e, exec (.fetchComplete ch d e) s = .next (wakeHeld ch (fetchDone ch d false e s)) ∧
      ∀ poison, let u := (fetchDone ch d poison e s).chan ch
        (p.residency ≠ .fetching ∨ p.dest = none → u = c) ∧
        (∀ l k, p.residency = .fetching → p.dest = some (l, k) →
          (poison = true → (u.page d).residency = .lost ∧ (u.page d).dest = none) ∧
          (poison = false → ∀ x, openEnvelope c (pageExpect s.fid ch p) e = .error x → (u.page d).residency = .lost ∧ (u.page d).dest = none ∧
            (u.cdnHdrErr, u.cdnCrcErr, u.cdnTagErr) = ((c.countReject x).cdnHdrErr, (c.countReject x).cdnCrcErr, (c.countReject x).cdnTagErr)) ∧
          (poison = false → ∀ b, openEnvelope c (pageExpect s.fid ch p) e = .ok b → (u.page d).residency = .resident ∧ (u.page d).loc = l ∧
            (u.page d).dest = none ∧ (u.page d).len = b.length))) ∧
    (∀ tier g, ∃ t, exec (.scrubComplete ch tier g) s = .next t ∧ t = { s with chans := t.chans } ∧
      t.chan ch = (if tier = 2 ∧ g ∈ c.t2.scrub then { c with t2 := c.t2.release g } else c))

/-! ### Mirror -/

/-- OP_MIRROR_SNAPSHOT stays outstanding for the generation that it starts, or for the one to come where one is open, and with no participant it completes
at once (R295, log entry 22). MIRROR_INTERVAL triggers in the same way and does nothing with no participant. CAPTURE_START begins a capture once the
epoch's steps have ended, or, of an index, once no write is in progress (R306, R366). A lost acknowledgement abandons the generation, makes the next one
full and raises the event (R303). -/
def Obligations.GenerationsStartAndEnd : Prop :=
  ∀ (d : Hdr) (fn target : Nat) (s : State), s.up = true →
    let g := s.mirrorDev.nextGen
    let starts (t : State) : Prop := t.mirrorDev.openGen = some g ∧ t.mirrorDev.nextGen = g + 1 ∧ t.mirrorDev.again = false ∧
      (∀ n ∈ parties s, (t.chan n).mirror.gen = g ∧ (t.chan n).mirror.epoch = (s.chan n).nextStep - 1 ∧ (t.chan n).mirror.capturing = false) ∧
      (∀ n, n ∉ parties s → t.chan n = s.chan n)
    let asks (t : State) : Prop := t.mirrorDev.again = true ∧ t.mirrorDev.openGen = s.mirrorDev.openGen ∧ t.mirrorDev.nextGen = g ∧ t.chans = s.chans
    (Accepts 0x48 d fn target s → ∃ t, exec (.opMirrorSnapshot d) s = .next t ∧
      (s.mirrorDev.openGen.isSome = true ∨ parties s ≠ [] → t.ops = s.ops ++ [⟨d, fn, 0x48, target, true, false, s.now, [], .snapshot g⟩]) ∧
      (s.mirrorDev.openGen.isSome = true → asks t) ∧
      (s.mirrorDev.openGen = none → parties s ≠ [] → starts t) ∧
      (s.mirrorDev.openGen = none → parties s = [] → t.mirrorDev.openGen = none ∧ t.mirrorDev.nextGen = g + 1 ∧ ∀ o ∈ t.ops, o.kind ≠ .snapshot g) ∧
      (s.mirrorDev.openGen = none → parties s = [] → partsOf g s = [] → (∀ o ∈ s.ops, o.kind ≠ .snapshot g) →
        let op : RunOp := ⟨d, fn, 0x48, target, true, false, s.now, [], .snapshot g⟩
        t = endOp op .ok [g] [] { s with ops := s.ops ++ [op], mirrorDev := { s.mirrorDev with openGen := none, nextGen := g + 1, again := false
                                                                                               priority := false, manifestOut := false } })) ∧
    (parties s = [] → exec .mirrorInterval s = .next s) ∧
    (parties s ≠ [] → ∃ t, exec .mirrorInterval s = .next t ∧ t.ops = s.ops ∧ (s.mirrorDev.openGen.isSome = true → asks t) ∧
      (s.mirrorDev.openGen = none → starts t)) ∧
    (∀ n, exec (.captureStart n) s = .next (lensPump n ((mirrorNext s).modChan n (captureStart (deviceDl n s))))) ∧
    (s.mirrorDev.openGen.isSome = true ∨ s.mirrorDev.again = false → mirrorNext s = s) ∧
    (∀ c dl, let m := (captureStart dl c).mirror
      let c' : Chan := if c.mirror.capturing then c else { c with mirror := { c.mirror with deadline := dl } }
      (c.mirror.gen = 0 ∨ c.mirror.capturing = true ∨ c.mirror.ended = true ∨ (c.role ≠ .search ∧ c.epochEnded = false) ∨
        (c.role = .search ∧ c.lens.writes ≠ []) → captureStart dl c = c') ∧
      (c.mirror.gen ≠ 0 → c.mirror.capturing = false → c.mirror.ended = false →
        (c.role ≠ .search → c.epochEnded = true → captureStart dl c = { c' with mirror := { c'.mirror with capturing := true, todo := c'.captureList } }) ∧
        (c.role = .search → c.lens.writes = [] → m.capturing = true ∧ m.epoch = c.lens.epoch ∧
          m.todo = (if c.mirror.full then allUnits c' else c.lens.dirty.reverse) ∧ (captureStart dl c).lens.dirty = []))) ∧
    (∀ n, (s.chan n).mirror.awaits s.mirrorDev = false → exec (.mirrorAckTimeout n) s = .next s) ∧
    (∀ n, (s.chan n).mirror.awaits s.mirrorDev = true → exec (.mirrorAckTimeout n) s = .next (
      let u := reportPeer (buddyOf n s).1 (buddyOf n s).2 n 1 s
      let v := if (u.chan n).mirror.noBuddy then u else unprotected n .peerUnreachable u
      mirrorNext (v.modChan n (fun c => { c with mirror := { c.mirror with sent := [] } })))) ∧
    (∀ n st u, let v := unprotected n st u
      v.mirrorDev.openGen = none ∧ (v.chan n).mirror.full = true ∧
      (∀ k, (u : State).mirrorDev.openGen = some k → ∀ m < 8, (u.chan m).mirror.gen = k → (v.chan m).mirror.gen = 0 ∧ (v.chan m).mirror.capturing = false ∧
        ∀ r ∈ (v.chan m).mirror.sent, r.gen ≠ k))

/-- COPIER_CAPTURE does nothing on a channel that is not capturing, and waits for work of an earlier deadline (R185, R288); with none left the shard ends
with its END record (R303); a session already captured in the generation is passed over; the others go one by one, a unit of an index or the records
of a session in the order of R296. A measured condition of a failure warning counts from the threshold on, once until it has stayed below for 1 s (R307
to R309). -/
def Obligations.CopiesAndWarnings : Prop :=
  ∀ (s : State), s.up = true →
    (∀ n, exec (.copierCapture n) s = .next (mirrorNext (copierStep n s)) ∧
      let u := s.modChan n Chan.admitJobs
      let c := u.chan n
      let m := c.mirror
      (m.gen = 0 ∨ m.capturing = false ∨ m.ended = true → copierStep n s = u) ∧
      (m.gen ≠ 0 → m.capturing = true → m.ended = false →
        (m.todo = [] → copierStep n s = sendRecord n true ⟨.fin, 0, m.epoch, 0, 0, 0, 0⟩
          (u.setChan n { c with mirror := { m with ended := true, capturing := false, endHeld := m.held.length } })) ∧
        (∀ i r, m.todo = i :: r →
          (c.mayStart m.deadline = false → copierStep n s = u) ∧
          (c.mayStart m.deadline = true → c.role = .search → copierStep n s = copyUnit n i u) ∧
          (c.mayStart m.deadline = true → c.role ≠ .search →
            let v := u.setChan n { c with mirror := { m with todo := r } }
            ((c.capture i).lastGen = m.gen → copierStep n s = v) ∧
            ((c.capture i).lastGen ≠ m.gen →
              let w := (captureRecords (v.chan n) i).foldl (fun s x => sendRecord n true x s) v
              copierStep n s = if (w.chan n).mirror.gen = m.gen then w.modChan n (Chan.captured i) else w))))) ∧
    (∀ c i, let y := (c : Chan).captureImage i
      let close : List Record := if y.closedSince then [⟨.close, i, i, 0, 0, 0, recMode y.dir⟩] else []
      (y.dir.state = .closed → captureRecords c i = close) ∧
      (y.dir.state ≠ .closed → ∃ clone tails frees, captureRecords c i = close ++ clone ++ tails ++ frees ++
          [⟨.dir, i, i, 0, 64, 2, recMode y.dir⟩, ⟨.sblk, i, i, 0, 32768, 2, recMode y.dir⟩] ++
          (if y.queue.isEmpty then [] else [⟨.queue, i, i, 0, 4 * y.queue.length, 2, recMode y.dir⟩]) ∧
        (∀ x ∈ clone, x.kind = .clone) ∧ (∀ x ∈ tails, x.kind = .tail) ∧ (∀ x ∈ frees, x.kind = .free))) ∧
    (∀ n r c, (s.chan n).mirror.noBuddy = false → (s.chan n).mirror.gen ≠ 0 → unitMarked (buddyOf n s).1 (buddyOf n s).2 s = false →
      (buddyOf n s).1 ≠ s.fid → (if r.raw = 0 then some (s.chan n) else (s.chan n).seal 1) = some c →
      let t := sendRecord n true r s
      let m := (s.chan n).mirror
      (t.chan n).mirror.sent = m.sent ++ [⟨m.gen, m.recIndex, recCode r.kind, r.session⟩] ∧ (t.chan n).mirror.recIndex = m.recIndex + 1 ∧
      (t.chan n).mirror.shardLen = m.shardLen + 32 + recordLen r s.freeIx ∧ t.mirrorDev = s.mirrorDev) ∧
    (∀ condition source value, ∃ t, exec (.warnMeasure condition source value) s = .next t ∧ t.encl = s.encl ∧ t.ports = s.ports ∧ t.regs = s.regs ∧
      let below := s.mirrorDev.belowSince.find? (fun e => e.1 == condition && e.2.1 == source)
      let rested := match below with | some e => decide (e.2.2 + 1000000000 ≤ s.now) | none => false
      let warned := if rested then s.mirrorDev.warned.erase (condition, source) else s.mirrorDev.warned
      (warnHit condition value s = true → (condition, source) ∈ t.mirrorDev.warned) ∧
      (warnHit condition value s = false → t.mirrorDev.warned = warned ∧ t.mirrorDev.openGen = s.mirrorDev.openGen ∧ t.out = s.out ∧
        ((condition, source) ∈ warned → below = none → (condition, source, s.now) ∈ t.mirrorDev.belowSince)))

/-- Restore and rollback (R310 to R316, R366, R454): a failed check completes with its status and nothing else. A RESTORE that finds no generation builds
nothing and completes with ST_RESTORE_NONE; one of a key generation not held with ST_KEY_NOT_RELEASED; one whose report has no room with
ST_LEN_EXCEEDS_BUFFER and the count; else every session and index is rebuilt and reported, four words a session, or, where room runs out, what was built
goes again. A rebuilt session takes the lowest free entry and the state of R313. A rollback completes with the generation and its report, or with
ST_LEN_EXCEEDS_BUFFER; of each session stored, one unchanged stays, one resident is taken back in place, and another is rebuilt under a new handle. A
SESSION_ROLLBACK does so for one session, and one the generation does not hold is reported as closed. -/
def Obligations.RestoresAndRollbacks : Prop :=
  ∀ (d : Hdr) (fn target : Nat) (s : State),
    (∀ a, Accepts 0x49 d fn target s →
      (∀ st, restoreCheck a s = some st → exec (.opMirrorRestore d a) s = .next (complete d 0x49 st [] [] s)) ∧
      (restoreCheck a s = none →
        (∀ st, reportCheck fn a.reportAddr a.reportCap s = some st → exec (.opMirrorRestore d a) s = .next (complete d 0x49 st [] [] s)) ∧
        (reportCheck fn a.reportAddr a.reportCap s = none → EntryFree s →
          (selectGeneration a = none → exec (.opMirrorRestore d a) s = .next (complete d 0x49 .restoreNone [] [] (takeEntry s))) ∧
          (∀ m, selectGeneration a = some m →
            let u := takeEntry s
            let ns := maskChans a.channels
            let xs := storedFor m ns u
            let done (st : Status) (result : List Nat) (writes : List (Nat × Payload)) (v : State) : Prop :=
              exec (.opMirrorRestore d a) s = .next (complete d 0x49 st result writes (ns.foldl (fun s n => reloadSlot1 n s) v))
            (genHeld m u = false → exec (.opMirrorRestore d a) s = .next (complete d 0x49 .keyNotReleased [] [] u)) ∧
            (genHeld m u = true →
              (a.reportCap < xs.length → exec (.opMirrorRestore d a) s = .next (complete d 0x49 .lenExceedsBuffer [xs.length] [] u)) ∧
              (xs.length ≤ a.reportCap →
                (m.tagsOk = false → done .restoreNone [] [] u) ∧
                (m.tagsOk = true →
                  (∀ rep v w, rebuildAll xs [] [] u = .ok (rep, v) → rebuildIndexes (indexesFor m ns) v = some w →
                    done .ok [m.generation, xs.length] [(a.reportAddr, .words rep)] w ∧ rep.length = 4 * xs.length) ∧
                  (∀ rep v, rebuildAll xs [] [] u = .ok (rep, v) → rebuildIndexes (indexesFor m ns) v = none → done .noSpace [] [] (undoRestore
                    (ns.flatMap (fun n => (v.chan n).liveSessions.map (fun i => (n, i)))) (ns.filter (fun n => searchSource a n)) v)) ∧
                  (∀ built n f v, rebuildAll xs [] [] u = .error (built, n, f, v) →
                    done .noSpace [] [] (undoRestore built [] (v.modChan n (fun c => c.withFails f)))) ∧
                  (∀ n x i v, xs = [(n, x)] → rebuildNew n x u = .ok (i, v) →
                    rebuildAll xs [] [] u = .ok (reportLive n i (handleWord x.oldHandle) 0 x.dir.lastStep v, v))))))))) ∧
    (∀ n x i v, rebuildNew n x s = .ok (i, v) → (s.chan n).freeEntry = some i ∧ ((v.chan n).dir i).state = mappedState x.dir ∧
      ((v.chan n).dir i).count = ((s.chan n).dir i).count ∧ ((v.chan n).dir i).epoch = (s.chan n).epoch) ∧
    (∀ a, Accepts 0x4A d fn target s →
      (∀ st, rollbackCheck fn a s = some st → exec (.opMirrorRollback d a) s = .next (complete d 0x4A st [] [] s)) ∧
      (rollbackCheck fn a s = none →
        let ns := maskChans a.channels
        let gen (n : Nat) : Nat := (rollGen n a.gen s).getD 0
        let need := (ns.map (fun n => rollCount n (gen n) a s)).sum
        let r := ns.foldl (fun (p : State × List Nat) n => ((rollChannel n (gen n) a p.1).1, p.2 ++ (rollChannel n (gen n) a p.1).2)) (s, [])
        (∀ n ∈ ns, (rollGen n a.gen s).isSome = true) ∧
        (a.reportCap < need → exec (.opMirrorRollback d a) s = .next (complete d 0x4A .lenExceedsBuffer [need] [] s)) ∧
        (need ≤ a.reportCap → exec (.opMirrorRollback d a) s = .next (complete d 0x4A .ok [(ns.head?.map gen).getD 0, r.2.length / 4]
          [(a.reportAddr, .words r.2)] (mirrorNext r.1))))) ∧
    (∀ n g a, (s.chan n).role = .search → rollChannel n g a s = (rollIndex n a s, [])) ∧
    (∀ n g x, let i := x.oldHandle.index
      (sameSession n x s = false → rollOne n g x s = rollRebuild n x s) ∧
      (sameSession n x s = true → changedAfter n i g s = false → rollOne n g x s = (s, [])) ∧
      (sameSession n x s = true → changedAfter n i g s = true → bothResident n x s = false → rollOne n g x s = rollRebuild n x (closeQuiet n i s)) ∧
      (sameSession n x s = true → changedAfter n i g s = true → bothResident n x s = true →
        (∀ v, reload n i x s = .ok v → rollOne n g x s = (v, reportLive n i (handleWord x.oldHandle) 1 x.dir.lastStep v)) ∧
        (∀ f, reload n i x s = .error f → rollOne n g x s = (closeQuiet n i (s.modChan n (fun c => c.withFails f)),
          reportWords (handleWord x.oldHandle) 0 0 0 2 x.dir.lastStep))) ∧
      (∀ j v, rebuildNew n x s = .ok (j, v) → rollRebuild n x s = (v, reportLive n j (handleWord x.oldHandle) 3 x.dir.lastStep v)) ∧
      (∀ f, rebuildNew n x s = .error f →
        rollRebuild n x s = (s.modChan n (fun c => c.withFails f), reportWords (handleWord x.oldHandle) 0 0 0 2 x.dir.lastStep))) ∧
    (∀ n i, ((closeQuiet n i s).chan n |>.dir i).state = .closed) ∧
    (∀ a, Accepts 0x4A d fn target s →
      (∀ st, sessRollCheck fn a s = some st → exec (.sessionRollback d a) s = .next (complete d 0x4A st [] [] s)) ∧
      (sessRollCheck fn a s = none → ∃ n g, maskChans a.channels = [n] ∧ rollGen n a.gen s = some g ∧
        let i := a.handle.index
        let w := closeQuiet n i (rollSeqs n (fun x => x.index == i) (endPending n i .rollback s))
        let r := match (storedOf n a w).find? (fun x => x.oldHandle == handleOf n i s) with
          | some x => rollRebuild n x w
          | none => (w, reportWords (handleWord (handleOf n i s)) 0 0 0 2 ((s.chan n).dir i).lastStep)
        exec (.sessionRollback d a) s = .next (complete d 0x4A .ok [g, 1] [(a.reportAddr, .words r.2)] r.1)))

/-! ### The pool -/

/-- The memory of every channel keeps its canonical form at every step: addresses strictly rising, no listed byte 0. -/
def Obligations.MemoryStaysCanonical : Prop :=
  ∀ s t : State, MemoryCanonical s → step s = .next t → MemoryCanonical t

/-- A packet from the fabric that reaches a port other than that of the unit it names, or names another device, is discarded and counted in that port's
misroute counter, one for a reserved unit as a bad packet, and nothing answers it: every command that brings a packet. -/
def Obligations.MisroutedPacketsAreCounted : Prop :=
  ∀ (p : Pkt) (s : State), s.up = true →
    ∀ c : Instr, ((∃ a n, c = .readReq p a n) ∨ (∃ a l, c = .write p a l) ∨ (∃ a l, c = .writeBulk p a l) ∨ (∃ x, c = .readRsp p x) ∨
      (∃ a, c = .writeAck p a) ∨ (∃ n r, c = .poolRsp p n r) ∨ (∃ g, c = .segAttn p g) ∨ (∃ g, c = .segSample p g) ∨ (∃ v, c = .regRsp p v) ∨
      (∃ r, c = .ctrRead p r) ∨ (∃ r v, c = .ctrRsp p r v) ∨ (∃ b, c = .fill p b) ∨ (∃ b, c = .copy p b) ∨ (∃ b, c = .compare p b) ∨
      (∃ b, c = .reduce p b) ∨ (∃ b, c = .atomicAdd p b) ∨ (∃ b, c = .cas p b) ∨ (∃ b, c = .acquireS p b) ∨ (∃ b, c = .acquireM p b) ∨
      (∃ b l, c = .writeback p b l) ∨ (∃ b l, c = .release p b l) ∨ (∃ b, c = .renew p b)) →
    (p.dstUnit ≤ 8 → p.dstUnit ≠ p.port ∨ p.dstFid ≠ s.fid →
      exec c s = .next (s.modPort p.port (fun q => { q with misroute := wrap64 (q.misroute + 1) }))) ∧
    (8 < p.dstUnit → exec c s = .next (badPacket p.port s))

/-- An access to a POOL channel (R325, R329 to R333, R335, R339, R340, R343). With 256 operations in flight, or others waiting, it waits its turn; a lease
message of R338 never does (log entry 121). One whose lines are leased waits while they are recalled. Else, by plain packets and by the near-memory
operations: what it writes, what it answers, and that no other byte of the channel changes; the answer is the last thing emitted. A read of a poisoned
line answers ST_POISONED, and a write stops at one it would write in part. A write to a mirrored extent is forwarded, and answered only after the
secondary. The commands, by r.op: FILL 0, COPY 1, COMPARE 2, REDUCE 3, ATOMIC_ADD 4, CAS 5, READ_REQ 32, WRITE and WRITE_BULK 33. -/
def Obligations.PoolAccessesReadAndWrite : Prop :=
  ∀ (c : Instr) (r : PoolReq) (s : State), poolReqOf c = some r → Arrives r.p s → r.p.dstUnit < 8 → (r.op < 32 ∨ (r.len ≠ 0 ∧ r.len ≤ 4096)) →
    let n := r.p.dstUnit
    let ch := s.chan n
    let u := if r.op < 32 then s else protDenied n s
    let turn : Prop := (18 ≤ r.op ∧ r.op ≤ 20) ∨ (ch.pool.waits.length < 256 ∧ ch.pool.backlog = [])
    (turn → exec c s = .next (poolTake c u)) ∧
    (¬ turn → exec c s = .next (u.modChan n (fun q => { q with pool := { q.pool with backlog := q.pool.backlog ++ [c] } }))) ∧
    (turn → blkOk r = true → ∀ k keys x, checkReq r s = .ok (k :: keys) → ch.extent k = some x →
      let a := x.at r.off
      let m := ch.mem
      let rsp (st : Status) : List Out := .packet (if r.p.bulkRsp then .readRspBulk else .readRsp) n r.p.srcFid r.p.srcUnit r.p.req r.p.fn r.p.gen st r.addr
        (if st = .ok then .bytes (Mem.readN a r.len m) else .empty) :: s.out
      let ack (st : Status) : List Out := .packet .writeAck n r.p.srcFid r.p.srcUnit r.p.req r.p.fn r.p.gen st r.addr .empty :: s.out
      (r.len = 0 → ∃ t result, exec c s = .next t ∧ t.chans = s.chans ∧
        t.out = .packet .poolRsp n r.p.srcFid r.p.srcUnit r.p.req r.p.fn r.p.gen .ok 0 (.bytes (poolRspBytes .ok 0 result)) :: s.out) ∧
      (∀ id ids, r.len ≠ 0 → reqBlockers ch r (k :: keys) = id :: ids → ∃ t, exec c s = .next t ∧ (t.chan n).mem = m ∧
        (t.chan n).pool.waits = ch.pool.waits ++ [.recall id c] ∧ ∀ i ∈ id :: ids, ∃ l, tget i (t.chan n).pool.leases = some l ∧ l.state = 3) ∧
      (r.len ≠ 0 → reqBlockers ch r (k :: keys) = [] → Mem.wf m = true → (r.op < 16 ∨ 32 ≤ r.op) → r.p.poison = false → ∃ t, exec c s = .next t ∧
        let m' := (t.chan n).mem
        (∀ b, (b < a ∨ a + r.len ≤ b) → Mem.read b m' = Mem.read b m) ∧ Mem.wf m' = true ∧
        (x.mirror = 1 → x.mirrorOk = true → x.filling = false → r.op = 33 → ch.pool.poison = [] → x.buddy.fabricId ≠ s.fid →
          unitMarked x.buddy.fabricId x.buddy.channel s = false → Mem.readN a r.len m' = r.data ∧
          (t.chan n).pool.waits = ch.pool.waits ++ [.secondary k [k] c .ok r.len 0 []] ∧ (t.out = s.out ∨ ∃ tag gen data,
            t.out = .packet .writeBulk n x.buddy.fabricId x.buddy.channel tag 0 gen .ok (x.buddy.partition + r.off * 256) data :: s.out)) ∧
        (x.mirror ≠ 1 → (∀ q, q ≠ n → t.chan q = s.chan q) ∧ t.regs = s.regs ∧ t.ops = s.ops ∧
          (∀ o, badOff ch a r.len true = some o → r.op = 32 → m' = m ∧ t.out = rsp .poisoned) ∧
          (∀ o, badOff ch a r.len false = some o → r.op = 33 → Mem.readN a o m' = r.data.take o ∧ t.out = ack .poisoned ∧
            ∀ b, (b < a ∨ a + o ≤ b) → Mem.read b m' = Mem.read b m)) ∧
        (x.mirror ≠ 1 → ch.pool.poison = [] →
          (r.op = 32 → m' = m ∧ t.out = rsp .ok) ∧
          (r.op = 33 → Mem.readN a r.len m' = r.data ∧ t.out = if r.p.ackReq then ack .ok else s.out) ∧
          (r.op = 0 → Mem.readN a r.len m' = pattern r.b.operand r.len) ∧
          (r.op < 16 → ∃ d, t.out = .packet .poolRsp n r.p.srcFid r.p.srcUnit r.p.req r.p.fn r.p.gen .ok 0 (.bytes d) :: s.out) ∧
          (∀ j sp so y, r.op = 1 → keys = [j] → r.src = some (sp, so) → ch.extent j = some y → Mem.readN a r.len m' = Mem.readN (y.at so) r.len m) ∧
          (r.op = 2 → m' = m) ∧ (r.op = 3 → r.b.scalar = true → m' = m) ∧
          (r.op = 4 → Mem.readN a r.len m' = natLE r.len (ropElem 0 r.b.elem (leNat (Mem.readN a r.len m)) (r.b.operand.toNat % 256 ^ r.len))) ∧
          (r.op = 5 → if leNat (Mem.readN a r.len m) = r.b.operand.toNat % 256 ^ r.len
            then Mem.readN a r.len m' = natLE r.len (r.b.operand2.toNat % 256 ^ r.len) else m' = m))))

/-- An access that fails its checks changes no memory and answers its status when its turn comes (R325, R326, R330, R341): an ill-formed operation block, a
channel that is FAILED or no POOL, a partition not valid there, a range in no extent, a requester that is not the owner, an extent being revoked. A
violation is reported, and a refusal counted in a slot under revocation. A plain access of no byte or more than 4,096, or any access to the port
complex, is a bad packet. -/
def Obligations.PoolAccessesAreRefused : Prop :=
  ∀ (c : Instr) (r : PoolReq) (s : State), poolReqOf c = some r → Arrives r.p s →
    let n := r.p.dstUnit
    let ch := s.chan n
    let p := s.part r.part
    (n = 8 ∨ (32 ≤ r.op ∧ (r.len = 0 ∨ 4096 < r.len)) → exec c s = .next (badPacket r.p.port s)) ∧
    (n < 8 → r.op < 32 → (18 ≤ r.op ∧ r.op ≤ 20) ∨ (ch.pool.waits.length < 256 ∧ ch.pool.backlog = []) → exec c s = .next (poolTake c s)) ∧
    (n < 8 →
      (blkOk r = false → poolTake c s = answer r .paramInvalid 0 0 [] s) ∧
      (blkOk r = true → ∀ st, checkReq r s = .error st →
        poolTake c s = answer r st 0 0 [] (if st = .accessViolation then violate r s else if st = .extentRevoked then countRefused r s else s)) ∧
      (ch.state = .failed → checkReq r s = .error .channelFailed) ∧
      (ch.state ≠ .failed → isPool n s = false → checkReq r s = .error .roleMismatch) ∧
      (isPool n s = true →
        (p.valid = false ∨ p.poolChannel ≠ n ∨ ch.slotFor r.part r.off r.len = none → checkReq r s = .error .accessViolation) ∧
        (∀ k x, p.valid = true → p.poolChannel = n → ch.slotFor r.part r.off r.len = some (k, x) → fromPrimary r x = false →
          (r.p.srcFid ≠ p.ownerFid ∨ (p.ownerFid < 64 ∧ r.p.srcUnit ≠ p.ownerChannel) → checkReq r s = .error .accessViolation) ∧
          (r.p.srcFid = p.ownerFid → p.ownerFid < 64 → r.p.srcUnit = p.ownerChannel →
            (x.state = 3 ∨ (x.state = 2 ∧ r.op ≠ 18 ∧ r.op ≠ 19) → checkReq r s = .error .extentRevoked) ∧
            (x.state = 1 → x.mirror = 2 ∨ x.mirror = 3 → checkReq r s = .error .extentState))))) ∧
    (violate r s).part = s.part ∧ ((violate r s).chan n).mem = ch.mem ∧ ((countRefused r s).chan n).mem = ch.mem ∧
    (∀ k x, ch.slotFor r.part r.off r.len = some (k, x) → x.state = 2 →
      ((countRefused r s).chan n).extent k = some { x with refused := x.refused + 1 }) ∧
    (∀ st u, (answer r st 0 0 [] u).chans = u.chans ∧ (answer r st 0 0 [] u).regs = u.regs)

/-- Leases (R338 to R341), of an accepted message whose turn it is. An acquire of an extent without leases enabled is refused; of a poisoned line answered
ST_POISONED; else, with an entry free, it records the lease with its kind, holder and end and answers with the line's bytes, or with none answers
ST_LEASE_FULL. A renewal moves the end; a write-back stores the line and leaves the lease SHARED; a release ends it, storing the line it brings; one for a
line without its lease is counted. LEASE_EXPIRY and RECALL_TIMEOUT, the latter of a lease being recalled alone, end a lease, and one held MODIFIED poisons
its line. The commands, by r.op: ACQUIRE_S 16, ACQUIRE_M 17, WRITEBACK 18, RELEASE 19, RENEW 20. -/
def Obligations.LeasesAreTakenAndEnded : Prop :=
  ∀ (s : State), s.up = true →
    (∀ (c : Instr) (r : PoolReq) (k : Nat) (x : Extent), poolReqOf c = some r → Arrives r.p s → r.p.dstUnit < 8 →
      let n := r.p.dstUnit
      let ch := s.chan n
      let line := lineOf x r.off
      let a := x.base + line * 256
      let answered (t : State) (st : Status) (done : Nat) (data : List Byte) : Prop :=
        t.out = .packet .poolRsp n r.p.srcFid r.p.srcUnit r.p.req r.p.fn r.p.gen st 0 (.bytes (poolRspBytes st done 0 ++ data)) :: s.out
      let free := firstFree (ch.pool.leases.map (fun (e : Nat × Lease) => e.1)) 0 (ch.pool.leases.length + 1)
      16 ≤ r.op → r.op ≤ 20 → blkOk r = true → checkReq r s = .ok [k] → ch.extent k = some x →
      ((r.op = 16 ∨ r.op = 17) → ch.pool.waits.length < 256 → ch.pool.backlog = [] → reqBlockers ch r [k] = [] →
        ((s.part r.part).leaseEn = false → ∃ t, exec c s = .next t ∧ answered t .notPermitted 0 [] ∧ (t.chan n).pool.leases = ch.pool.leases ∧
          (t.chan n).mem = ch.mem) ∧
        ((s.part r.part).leaseEn = true →
          ((badOff ch a 256 true).isSome = true → ∃ t, exec c s = .next t ∧ answered t .poisoned 0 [] ∧ (t.chan n).pool.leases = ch.pool.leases) ∧
          ((badOff ch a 256 true).isSome = false →
            (∀ id l, leaseOn ch k line = some (id, l) → id < 262144 → ∃ t, exec c s = .next t ∧ (t.chan n).mem = ch.mem ∧
              answered t .ok 256 (Mem.readN a 256 ch.mem) ∧
              (t.chan n).pool.leases = tset id ⟨k / 64, k % 64, line, r.p.srcFid, if r.op = 17 ∨ l.state = 2 then 2 else 1, false, false, leaseExpiry n s⟩ ch.pool.leases) ∧
            (∀ id, leaseOn ch k line = none → free = some id → id < 262144 → ∃ t, exec c s = .next t ∧ (t.chan n).mem = ch.mem ∧
              answered t .ok 256 (Mem.readN a 256 ch.mem) ∧
              (t.chan n).pool.leases = tset id ⟨k / 64, k % 64, line, r.p.srcFid, if r.op = 17 then 2 else 1, false, false, leaseExpiry n s⟩ ch.pool.leases) ∧
            (∀ id, leaseOn ch k line = none → free = some id → 262144 ≤ id → ∃ t, exec c s = .next t ∧ answered t .leaseFull 0 [] ∧
              (t.chan n).pool.leases = ch.pool.leases)))) ∧
      (18 ≤ r.op → leaseOn ch k line = none → ∃ t, exec c s = .next t ∧ (t.chan n).mem = ch.mem ∧ (t.chan n).pool.leases = ch.pool.leases ∧
        (t.chan n).pool.lateWb = if r.op = 20 then ch.pool.lateWb else wrap64 (ch.pool.lateWb + 1)) ∧
      (∀ id l, leaseOn ch k line = some (id, l) → Mem.wf ch.mem = true →
        (r.op = 20 → ∃ t, exec c s = .next t ∧ (t.chan n).mem = ch.mem ∧ answered t .ok 256 [] ∧
          (t.chan n).pool.leases = tset id { l with expiry := leaseExpiry n s } ch.pool.leases) ∧
        (r.op = 18 → ∃ t, exec c s = .next t ∧
          (t.chan n).pool.leases = tset id { l with state := if l.state = 3 then 3 else 1, wasM := false, wb := true } ch.pool.leases ∧
          (r.data.length = 256 → Mem.readN a 256 (t.chan n).mem = r.data ∧
            ∀ b, (b < a ∨ a + 256 ≤ b) → Mem.read b (t.chan n).mem = Mem.read b ch.mem) ∧
          (r.data.length ≠ 256 → (t.chan n).mem = ch.mem)) ∧
        (r.op = 19 → (∀ w ∈ ch.pool.waits, ∀ q, w ≠ .recall id q) → ∃ t, exec c s = .next t ∧ (t.chan n).pool.leases = tdel id ch.pool.leases ∧
          (r.data.length = 256 → Mem.readN a 256 (t.chan n).mem = r.data) ∧
          (r.data.length ≠ 256 → (t.chan n).mem = ch.mem ∧ (l.dirty = false → (t.chan n).pool.poison = ch.pool.poison) ∧
            (l.dirty = true → a % 256 = 0 → a / 256 ∈ (t.chan n).pool.poison))))) ∧
    (∀ n i, tget i (s.chan n).pool.leases = none → exec (.leaseExpiry n i) s = .next s ∧ exec (.recallTimeout n i) s = .next s) ∧
    (∀ n i l, tget i (s.chan n).pool.leases = some l →
      exec (.leaseExpiry n i) s = .next (endAndWake n 0 [i] s) ∧
      (l.state ≠ 3 → exec (.recallTimeout n i) s = .next s) ∧ (l.state = 3 → exec (.recallTimeout n i) s = .next (endAndWake n 1 [i] s)) ∧
      (∀ cause, (∀ w ∈ (s.chan n).pool.waits, ∀ q, w ≠ .recall i q) →
        let t := endAndWake n cause [i] s
        (∀ e ∈ (t.chan n).pool.leases, e.1 ≠ i) ∧ (∀ j m, j ≠ i → tget j (s.chan n).pool.leases = some m → tget j (t.chan n).pool.leases = some m) ∧
        (t.chan n).mem = (s.chan n).mem ∧ (l.dirty = false → (t.chan n).pool.poison = (s.chan n).pool.poison) ∧
        (∀ x, l.dirty = true → (s.chan n).extent (64 * l.partition + l.slot) = some x → x.base % 256 = 0 →
          x.base / 256 + l.line ∈ (t.chan n).pool.poison)))

/-- Partitions and extents (R322 to R328, R341 to R344): a partition is set; a new extent is ACTIVE and reads as zero, or finds no space, its slot becomes
FREE again, and a SECONDARY is promoted; a revocation waits for what is in flight, then for the leases, which are recalled, and leaves the extent REVOKED
and zero, its descriptor complete; a rebuild makes its slot the target, whose lines arrive one by one until the last, while the source sends them; a lost
secondary's held writes complete. OP_POOL_OP (R333, R334): one that is ill-formed, whose result range fails its check, or whose target cannot be reached completes with that status and
results of 0; else its request goes out and it stays outstanding for the response, which brings its status and results and writes them. A response of a
request that was given up ends nothing. -/
def Obligations.PartitionsExtentsAndPoolOperations : Prop :=
  (
    ∀ (d : Hdr) (part slot fn target : Nat) (s : State),
      (∀ g, Accepts 0x50 d fn target s →
        (partitionCheck part g s = none → exec (.opPartitionSet d part g) s = .next (complete d 0x50 .ok [] [] (partitionSet part g s)) ∧
          (g.isolation = 0 ∨ g.valid = false → (partitionSet part g s).part part = partOf (s.part part) g)) ∧
        (∀ st, partitionCheck part g s = some st → exec (.opPartitionSet d part g) s = .next (complete d 0x50 st [] [] s))) ∧
      (let ch := (s.part part).poolChannel
       let key := 64 * part + slot
       (∀ g, Accepts 0x51 d fn target s →
          (∀ st, extentCheck part slot g s = some st → exec (.opExtentSet d part slot g) s = .next (complete d 0x51 st [] [] s)) ∧
          (extentCheck part slot g s = none →
            let x := ((s.chan ch).extent key).getD {}
            (promotes x g = true → exec (.opExtentSet d part slot g) s = .next (complete d 0x51 .ok [] []
              (s.modChan ch (fun c => c.setExtent key { x with mirror := 0, mirrorOk := false })))) ∧
            (promotes x g = false →
              (g.state = 0 → exec (.opExtentSet d part slot g) s = .next (complete d 0x51 .ok [] [] (extentFree part slot s))) ∧
              (∀ v, g.state ≠ 0 → extentNew part slot g s = (none, v) → exec (.opExtentSet d part slot g) s = .next (complete d 0x51 .noSpace [] [] v)) ∧
              (∀ u v, g.state ≠ 0 → extentNew part slot g s = (some u, v) →
                exec (.opExtentSet d part slot g) s = .next (complete d 0x51 .ok [] [] u) ∧
                ∃ x, (u.chan ch).extent key = some x ∧ x.state = 1 ∧ x.length = g.length ∧ x.pOff = g.pOff ∧
                  (Mem.wf (s.chan ch).mem = true → ∀ a, x.base ≤ a → a < x.base + x.length → Mem.read a (u.chan ch).mem = 0))))) ∧
        ((s.chan ch).extent key = none →
          (Accepts 0x52 d fn target s → exec (.opExtentRevoke d part slot) s = .next (complete d 0x52 .extentState [] [] s)) ∧
          (∀ b off len, Accepts 0x53 d fn target s → exec (.opRebuild d part slot b off len) s = .next (complete d 0x53 .extentState [] [] s))) ∧
        (∀ x, (s.chan ch).extent key = some x →
          (Accepts 0x52 d fn target s → x.state = 1 → ∃ t, exec (.opExtentRevoke d part slot) s = .next t ∧
            t.ops = s.ops ++ [⟨d, fn, 0x52, target, true, false, s.now, [], .revoke ch part slot s.now⟩] ∧
            ∃ y, (t.chan ch).extent key = some y ∧ y.state = 2 ∧ y.drained = x.inflight ∧ y.recallsSent = false) ∧
          (Accepts 0x52 d fn target s → x.state ≠ 1 → exec (.opExtentRevoke d part slot) s = .next (complete d 0x52 .extentState [] [] s)) ∧
          (∀ b off len, Accepts 0x53 d fn target s → ¬ (x.state = 1 ∧ x.mirror = 0 ∧ x.pOff = off ∧ x.length = len) →
            exec (.opRebuild d part slot b off len) s = .next (complete d 0x53 .extentState [] [] s)) ∧
          (∀ b, Accepts 0x53 d fn target s → x.state = 1 → x.mirror = 0 →
            exec (.opRebuild d part slot b x.pOff x.length) s = .next (addOp 0x53 d fn target [] true (.rebuild ch part slot)
              (sourcePrimary b ⟨s.fid, ch, part, slot⟩ (s.modChan ch (fun c => c.setExtent key { x with mirror := 3, mirrorOk := false, mark := 0, buddy := b })))))) ∧
        (∀ b (g : BuddySlot), (b.fabricId ≠ s.fid → sourcePrimary b g s = s) ∧
          (∀ y, b.fabricId = s.fid → (s.chan b.channel).extent (64 * b.partition + b.slot) = some y →
            ((sourcePrimary b g s).chan b.channel).extent (64 * b.partition + b.slot) =
              some { y with mirror := 1, mirrorOk := true, buddy := g, mark := 0, filling := true })) ∧
        (∀ n x, s.up = true → (s.chan n).extent key = some x →
          (x.state ≠ 2 ∨ x.inflight ≠ 0 ∨ x.recallsSent = true → exec (.extentDrained n part slot) s = .next s) ∧
          (x.state = 2 → x.inflight = 0 → x.recallsSent = false → ∃ t, exec (.extentDrained n part slot) s = .next t ∧
            (t.chan n).extent key = some { x with recallsSent := true, recalled := (slotLeases (s.chan n) key).length, mirrorOk := false, filling := false } ∧
            (∀ i ∈ slotLeases (s.chan n) key, ∃ l, tget i (t.chan n).pool.leases = some l ∧ l.state = 3) ∧ (t.chan n).mem = (s.chan n).mem ∧
            t.ops = s.ops) ∧
          (x.state ≠ 2 ∨ x.recallsSent = false ∨ slotLeases (s.chan n) key ≠ [] → exec (.extentZeroFillDone n part slot) s = .next s) ∧
          (x.state = 2 → x.recallsSent = true → slotLeases (s.chan n) key = [] → ∃ t, exec (.extentZeroFillDone n part slot) s = .next t ∧
            (t.chan n).extent key = some { x with state := 3 } ∧
            (Mem.wf (s.chan n).mem = true → ∀ a, x.base ≤ a → a < x.base + x.length → Mem.read a (t.chan n).mem = 0) ∧
            (∀ op t0, slot < 64 → s.ops.find? (fun o => match o.kind with | .revoke c a b _ => c == n && a == part && b == slot | _ => false) = some op →
              op.kind = .revoke n part slot t0 → ∃ u, t = endOp op .ok [s.now - t0, x.recalled, x.poisonedN] [] u ∧ u.ops = s.ops)) ∧
          (x.mirror = 3 → x.state = 1 → x.mark + 256 < x.length → exec (.rebuildCopy n part slot) s =
            .next (s.modChan n (fun c => c.setExtent key { x with mark := x.mark + 256 }))) ∧
          (x.mirror = 3 → x.state = 1 → x.length ≤ x.mark + 256 → ∃ t, exec (.rebuildCopy n part slot) s = .next t ∧
            (t.chan n).extent key = some { x with mirror := 2, mirrorOk := true, mark := x.length } ∧
            (slot < 64 → ∀ o ∈ t.ops, o.kind ≠ .rebuild n part slot)) ∧
          (x.mirror = 1 → x.filling = true → x.mark < x.length → blockers (s.chan n) key (x.pOff + x.mark) 256 true = [] → x.buddy.fabricId ≠ s.fid →
            unitMarked x.buddy.fabricId x.buddy.channel s = false → ∃ t, exec (.rebuildCopy n part slot) s = .next t ∧
              (t.chan n).extent key = some { x with mark := x.mark + 256, filling := decide (x.mark + 256 < x.length) }) ∧
          (x.mirror = 0 ∨ (x.mirror = 1 ∧ x.filling = false) → exec (.rebuildCopy n part slot) s = .next s)) ∧
        (∀ n, s.up = true →
          let mine (w : PoolWait) : Prop := ∃ keys c st dn rs dt, w = .secondary key keys c st dn rs dt
          ((∀ w ∈ (s.chan n).pool.waits, ¬ mine w) → exec (.secondaryAckTimeout n part slot) s = .next s) ∧
          (∀ w ∈ (s.chan n).pool.waits, mine w → exec (.secondaryAckTimeout n part slot) s = .next (degrade n key s) ∧
            (∀ v ∈ ((degrade n key s).chan n).pool.waits, ¬ mine v) ∧
            ∀ y, (s.chan n).extent key = some y → ∃ z, ((degrade n key s).chan n).extent key = some z ∧ z.mirrorOk = false ∧ z.filling = false)))) ∧
  (
    ∀ (d : Hdr) (fn target op fid unit addr : Nat) (b : PoolBlk) (s : State),
      (Accepts 0x54 d fn target s →
        (5 < op → exec (.opPoolOp d op fid unit addr b) s = .next (complete d 0x54 .paramInvalid [0, 0] [] s)) ∧
        (∀ st, op ≤ 5 → rangeCheck fn addr 32 s = some st → exec (.opPoolOp d op fid unit addr b) s = .next (complete d 0x54 st [0, 0] [] s)) ∧
        (op ≤ 5 → rangeCheck fn addr 32 s = none →
          (unitMarked fid unit s = true → exec (.opPoolOp d op fid unit addr b) s = .next (complete d 0x54 .peerUnreachable [0, 0] [] s)) ∧
          (unitMarked fid unit s = false → fid = s.fid → unit < 8 → (s.chan unit).state = .failed →
            exec (.opPoolOp d op fid unit addr b) s = .next (complete d 0x54 .channelFailed [0, 0] [] s)) ∧
          (unitMarked fid unit s = false → ¬ (fid = s.fid ∧ unit < 8 ∧ (s.chan unit).state = .failed) →
            ∃ t, exec (.opPoolOp d op fid unit addr b) s = .next t ∧ t.chans = s.chans ∧
              t.ops = s.ops ++ [⟨d, fn, 0x54, target, true, false, s.now, [(addr, 32)], .poolOp target 0 addr⟩] ∧
              ((∃ q, t.reqs = s.reqs ++ [q] ∧ q.kind = .poolOp d.ring d.tag ∧ q.unit = target ∧ q.dstFid = fid ∧ q.dstUnit = unit) ∨
                (∃ w, t.reqWait = s.reqWait ++ [w] ∧ w.1.kind = .poolOp d.ring d.tag))))) ∧
      (∀ p q n result, s.up = true → Arrives p s → matchReq p s = some q → q.gen = (s.fn q.fn).resetGen % 256 → q.left = [p.req] →
        (q.kind = .stale → exec (.poolRsp p n result) s = .next (dropReq q s)) ∧
        (∀ ring tag op ch fid addr, q.kind = .poolOp ring tag → opOf ring tag s = some op → op.kind = .poolOp ch fid addr →
          exec (.poolRsp p n result) s = .next (endOp op (statusOfCode p.status) [n, result.toNat % 2 ^ 64]
            [(addr, .bytes (poolRspBytes (statusOfCode p.status) n result.toNat))] (dropReq q s)))))

/-! ### Lens -/

/-- Lens (R346 to R360): a channel with no index gets the index of the descriptor, empty; destroying one leaves none, and is refused while a descriptor is
outstanding. A query that passes its checks waits for its slots, in acceptance order; it is refused for a vector that is not finite, and on an empty index
answers k empty entries. An expansion of a query that can go on posts its next node, and one of a query with no candidate left ends it, and with the last
its descriptor, with the counts and the results. A merge stays outstanding with kOut entries to write. -/
def Obligations.IndexesAreCreatedSearchedAndMerged : Prop :=
  ∀ (d : Hdr) (fn ch : Nat) (s : State),
    let x := (s.chan ch).lens
    (∀ h, Accepts 0x58 d fn ch s →
      (x.hdr = none → hdrOk h = true → ∃ u, exec (.opLensCreate d h) s = .next (complete d 0x58 .ok [] [] u) ∧
        (u.chan ch).lens.hdr = some h ∧ (u.chan ch).lens.states = [] ∧ (u.chan ch).lens.entry = [] ∧ (u.chan ch).lens.epoch = 0 ∧
        (u.chan ch).mem = (s.chan ch).mem ∧ (u.chan ch).dirs = (s.chan ch).dirs ∧ (∀ n, n ≠ ch → u.chan n = s.chan n) ∧ u.regs = s.regs) ∧
      (x.hdr ≠ none → exec (.opLensCreate d h) s = .next (complete d 0x58 .indexState [] [] s)) ∧
      (x.hdr = none → hdrOk h = false → exec (.opLensCreate d h) s = .next (complete d 0x58 .paramInvalid [] [] s)) ∧
      (x.hdr ≠ none → lensBusy ch s = false → ∃ u, exec (.lensDestroy d) s = .next (complete d 0x58 .ok [] [] u) ∧
        (u.chan ch).lens.hdr = none ∧ (u.chan ch).lens.states = [] ∧ (∀ n, n ≠ ch → u.chan n = s.chan n) ∧ u.ops = s.ops) ∧
      (x.hdr ≠ none → lensBusy ch s = true → exec (.lensDestroy d) s = .next (complete d 0x58 .indexBusy [] [] s)) ∧
      (x.hdr = none → exec (.lensDestroy d) s = .next (complete d 0x58 .indexState [] [] s))) ∧
    (∀ count k beam va oa vecs, Accepts 0x59 d fn ch s →
      let cmd : Instr := .opLensQuery d count k beam va oa vecs
      let op : RunOp := ⟨d, fn, 0x59, ch, false, false, s.now, [(va, 0), (oa, 0)], .lensQuery ch⟩
      let u := { s with ops := s.ops ++ [op] }.modChan ch (fun c => c.modLens (fun x => { x with waiting := x.waiting ++ [(⟨cmd, deadlineOf d s⟩ : LensHeld)] }))
      (∀ st, queryCheck fn ch count k beam va oa s = some st → exec cmd s = .next (complete d 0x59 st [0, 0] [] s)) ∧
      (queryCheck fn ch count k beam va oa s = none → exec cmd s = .next (lensPump ch u) ∧
        (lensNext (u.chan ch) = none → (∀ w ∈ x.writes, w.stage ≠ 0 ∨ w.consolidate = true) → exec cmd s = .next u) ∧
        (∀ h v, x.hdr = some h → count = 1 → vecs = [v] → badVector v = false → x.entry = [] → x.queries = [] → x.batches = [] → x.waiting = [] →
          x.writes = [] → opOf d.ring d.tag s = none → ∃ w, exec cmd s = .next (endOp op .ok [0, 0] [(oa, .words (List.replicate (2 * k) 0))] w) ∧
            (w.chan ch).lens.states = x.states ∧ (w.chan ch).lens.queries = [] ∧ (w.chan ch).lens.batches = []) ∧
        (∀ h op' dl, x.hdr = some h → opOf d.ring d.tag s = some op' → vecs.any badVector = true →
          lensStart ch ⟨cmd, dl⟩ s = endOp op' .paramInvalid [0, 0] [] s))) ∧
    (∀ (c : Chan) count k beam va oa vecs e dl, (c.lens.waiting.find? LensHeld.isQuery) = some e →
      (e.cmd = .opLensQuery d count k beam va oa vecs → e.deadline = dl → count ≤ slotsFree c → lensNext c = some e) ∧
      (e.cmd = .opLensQuery d count k beam va oa vecs → slotsFree c < count → ∀ f, lensNext c = some f → f.isQuery = false)) ∧
    (s.up = true → exec (.expansionServe ch) s = .next (lensPump ch (expansionServe ch s)) ∧
      (x.waiting = [] → x.writes = [] → lensPump ch s = s) ∧
      (x.hdr = none ∨ x.table = [] → expansionServe ch s = s) ∧
      (∀ h u q, x.hdr = some h → serveNext x = some (u, [q.id]) → x.queries.find? (fun y => y.id == q.id) = some q →
        let q' := { expandQuery x h u q with sticky := 0 }
        let table := x.table.filter (fun f => f.1 != u)
        (∀ v q'', nextExpand q' = some (v, q'') → ((expansionServe ch s).chan ch).lens.table = postTable v q''.id table ∧
          ((expansionServe ch s).chan ch).lens.queries = x.queries.map (fun y => if y.id = q''.id then q'' else y) ∧ (expansionServe ch s).ops = s.ops) ∧
        (∀ b op, nextExpand q' = none → q'.insertOf = none → x.batches.find? (fun b => b.ring == q'.ring && b.tag == q'.tag) = some b → b.left = 1 →
          opOf q'.ring q'.tag s = some op → ∃ t, expansionServe ch s = endOp op .ok [b.truncated + (if q'.truncated then 1 else 0), b.expansions + q'.expansions]
              [(b.outAddr, .words ((tset q'.num (queryResults s.fid ch x q') b.results).flatMap (·.2)))] t ∧
            (t.chan ch).lens.queries = x.queries.filter (fun y => y.id != q'.id) ∧ (t.chan ch).lens.table = table ∧ (t.chan ch).lens.states = x.states ∧
            (t.chan ch).lens.batches = x.batches.erase b))) ∧
    (∀ lists kIn kOut ia oa data, Accepts 0x5D d fn ch s →
      (lists = 0 ∨ kIn = 0 → exec (.opMergeTopk d lists kIn kOut ia oa data) s = .next (complete d 0x5D .lenZero [] [] s)) ∧
      (1 ≤ lists → 1 ≤ kIn → lists < 2 ∨ 64 < lists ∨ 1024 < kIn ∨ kOut = 0 ∨ 1024 < kOut →
        exec (.opMergeTopk d lists kIn kOut ia oa data) s = .next (complete d 0x5D .paramInvalid [] [] s)) ∧
      (2 ≤ lists → lists ≤ 64 → 1 ≤ kIn → kIn ≤ 1024 → 1 ≤ kOut → kOut ≤ 1024 →
        (∀ st, rangesCheck fn [(ia, lists * kIn * 16), (oa, kOut * 16)] s = some st →
          exec (.opMergeTopk d lists kIn kOut ia oa data) s = .next (complete d 0x5D st [] [] s)) ∧
        (rangesCheck fn [(ia, lists * kIn * 16), (oa, kOut * 16)] s = none →
          exec (.opMergeTopk d lists kIn kOut ia oa data) s = .next (addOp 0x5D d fn ch [(ia, lists * kIn * 16), (oa, kOut * 16)] true
            (.ready .ok [] [(oa, .words (mergeTopk lists kIn kOut data))]) s) ∧ (mergeTopk lists kIn kOut data).length = 2 * kOut)))

/-- Writes of an index (R361 to R366): each descriptor that passes its checks waits while a generation is to be declared, and then goes on in acceptance
order. An insert takes an ABSENT id to INSERTING with its vector stored, and its links become work for the tiles, which makes it LIVE; one of an id that is
not ABSENT ends with ST_ID_EXISTS, and one out of range or not finite with ST_PARAM_INVALID. A delete takes each LIVE id to TOMBSTONE and counts it. A
consolidation becomes work for the tiles with the tombstones of that moment, and once no earlier query runs frees them. Each completion raises the epoch. -/
def Obligations.IndexesAreWritten : Prop :=
  ∀ (d : Hdr) (fn ch : Nat) (s : State),
    let c := s.chan ch
    let x := c.lens
    let op (code : Nat) (ranges : List (Nat × Nat)) : RunOp := ⟨d, fn, code, ch, false, false, s.now, ranges, .lensWrite ch⟩
    let took (cmd : Instr) (code : Nat) (ranges : List (Nat × Nat)) : Prop :=
      let u := { s with ops := s.ops ++ [op code ranges] }.modChan ch (fun c => c.modLens (fun x => { x with waiting := x.waiting ++ [(⟨cmd, deadlineOf d s⟩ : LensHeld)] }))
      exec cmd s = .next (lensPump ch u) ∧ (lensNext (u.chan ch) = none → (∀ w ∈ x.writes, w.stage ≠ 0 ∨ w.consolidate = true) → exec cmd s = .next u)
    (∀ n ia va ids vecs, Accepts 0x5A d fn ch s →
      let cmd : Instr := .opLensInsert d n ia va ids vecs
      (∀ st, insertCheck fn ch n ia va s = some st → exec cmd s = .next (complete d 0x5A st [0] [] s)) ∧
      (insertCheck fn ch n ia va s = none →
        (c.bulkFull = true → exec cmd s = .next (complete d 0x5A .bulkQueueFull [0] [] s)) ∧
        (c.bulkFull = false → took cmd 0x5A [(ia, 0), (va, 0)] ∧
          (∀ h i v, x.hdr = some h → declaring c = false → n = 1 → ids = [i] → vecs = [v] → x.writes = [] → x.waiting = [] → slotsFree c ≠ 0 →
            opOf d.ring d.tag s = none →
            (h.capacity ≤ i ∨ badVector v = true → ∃ u, exec cmd s = .next (endOp (op 0x5A [(ia, 0), (va, 0)]) .paramInvalid [0] [] u) ∧
              (u.chan ch).lens.states = x.states ∧ (u.chan ch).lens.epoch = wrap64 (x.epoch + 1)) ∧
            (i < h.capacity → badVector v = false → x.stateOf i ≠ 0 → ∃ u, exec cmd s = .next (endOp (op 0x5A [(ia, 0), (va, 0)]) .idExists [0] [] u) ∧
              (u.chan ch).lens.states = x.states ∧ (u.chan ch).lens.epoch = wrap64 (x.epoch + 1)) ∧
            (i < h.capacity → badVector v = false → x.stateOf i = 0 → x.entry = [] → (tget (i / 65536) x.segments).isSome = true →
              ∃ t, exec cmd s = .next t ∧ t.ops = s.ops ++ [op 0x5A [(ia, 0), (va, 0)]] ∧ (t.chan ch).lens.stateOf i = 3 ∧
                (t.chan ch).lens.vector i = v.map (storeElem h.elem) ∧ (∀ j, j ≠ i → (t.chan ch).lens.stateOf j = x.stateOf j) ∧
                (∀ n, n ≠ ch → t.chan n = s.chan n)))))) ∧
    (∀ h i found q, (linkNode h i found q).lens.stateOf i = 1 ∧ ∀ j, j ≠ i → (linkNode h i found q).lens.stateOf j = q.lens.stateOf j) ∧
    (∀ n ia ids, Accepts 0x5B d fn ch s →
      let cmd : Instr := .opLensDelete d n ia ids
      (n = 0 → exec cmd s = .next (complete d 0x5B .lenZero [] [] s)) ∧
      (n ≠ 0 → x.hdr = none → exec cmd s = .next (complete d 0x5B .indexState [] [] s)) ∧
      (n ≠ 0 → x.hdr ≠ none →
        (65536 < n → exec cmd s = .next (complete d 0x5B .paramInvalid [] [] s)) ∧
        (n ≤ 65536 → (∀ st, rangeCheck fn ia (4 * n) s = some st → exec cmd s = .next (complete d 0x5B st [] [] s)) ∧
          (rangeCheck fn ia (4 * n) s = none → took cmd 0x5B [(ia, 0)] ∧
            (declaring c = false → x.waiting = [] → x.writes = [] → opOf d.ring d.tag s = none → ∃ u k, exec cmd s = .next (endOp (op 0x5B [(ia, 0)]) .ok
                [k, min n ids.length - k] [] u) ∧ (u.chan ch).lens.epoch = wrap64 (x.epoch + 1) ∧ (u.chan ch).lens.vectors = x.vectors ∧
              (∀ j, (u.chan ch).lens.stateOf j = if j ∈ ids.take n ∧ x.stateOf j = 1 then 2 else x.stateOf j) ∧
              (∀ i, n = 1 → ids = [i] → x.stateOf i = 1 → k = 1 ∧ (u.chan ch).lens.live = x.live - 1 ∧ (u.chan ch).lens.tombs = x.tombs + 1) ∧
              (∀ i, n = 1 → ids = [i] → x.stateOf i ≠ 1 → k = 0 ∧ (u.chan ch).lens.entry = x.entry)))))) ∧
    (Accepts 0x5C d fn ch s →
      let busy := x.writes.any (fun w => w.consolidate) || x.waiting.any (fun e => match e.cmd with | .opLensConsolidate _ => true | _ => false)
      (x.hdr = none → exec (.opLensConsolidate d) s = .next (complete d 0x5C .indexState [] [] s)) ∧
      (x.hdr ≠ none → busy = true → exec (.opLensConsolidate d) s = .next (complete d 0x5C .indexBusy [] [] s)) ∧
      (x.hdr ≠ none → busy = false →
        (c.bulkFull = true → exec (.opLensConsolidate d) s = .next (complete d 0x5C .bulkQueueFull [] [] s)) ∧
        (c.bulkFull = false → took (.opLensConsolidate d) 0x5C [] ∧
          (declaring c = false → x.waiting = [] → x.writes = [] → opOf d.ring d.tag s = none → ∃ t w, exec (.opLensConsolidate d) s = .next t ∧
            t.ops = s.ops ++ [op 0x5C []] ∧ (t.chan ch).lens.writes = [w] ∧ w.consolidate = true ∧ w.stage = 2 ∧
            w.tset = (x.states.filter (fun e => e.2 == 2)).map (fun e => e.1) ∧ (t.chan ch).lens.states = x.states)))) ∧
    (s.up = true →
      (x.hdr = none ∨ x.writes.find? (fun w => w.consolidate && w.stage == 3) = none → exec (.consolidateFree ch) s = .next s) ∧
      (∀ w h, x.hdr = some h → x.writes.find? (fun w => w.consolidate && w.stage == 3) = some w →
        ((w.waitFor.getD []).any (fun q => x.queries.any (fun y => y.id == q)) = true → exec (.consolidateFree ch) s = .next s) ∧
        (∀ o, (w.waitFor.getD []).any (fun q => x.queries.any (fun y => y.id == q)) = false → opOf w.ring w.tag s = some o →
          ∃ u, exec (.consolidateFree ch) s = .next (lensPump ch (endOp o .ok [w.tset.length] [] u)) ∧ (∀ t ∈ w.tset, (u.chan ch).lens.stateOf t = 0) ∧
            (u.chan ch).lens.writes = x.writes.filter (fun y => y.id != w.id) ∧ (u.chan ch).lens.epoch = wrap64 (x.epoch + 1))))

/-! ### Keys, debug and firmware -/

/-- Keys and evidence (R460, R461, R466, R467): a blob whose key pair is spent is refused; one whose digest or wrapping does not check
empties the key pair's slot and stores nothing; one that checks stores its key, a weight key in its slot or the current group key, whose
forerunner is then the previous one; an erase empties what it names; evidence that fits stays outstanding with its record to write, and
a key pair made with it fills a slot. -/
def Obligations.KeysAreReleasedAndErased : Prop :=
  ∀ (d : Hdr) (fn target : Nat) (s : State),
    (∀ addr len (b : Blob),
      let k := kemSlot b.kemSlot s
      let live := k.full = true ∧ k.useCount = b.kemCount
      (Accepts 0x69 d fn target s →
        (∀ st, releaseCheck 1 fn addr len b s = some st → exec (.opKeyRelease d addr len b) s = .next (complete d 0x69 st [] [] s)) ∧
        (releaseCheck 1 fn addr len b s = none → b.kind = 1 ∧
          (¬ live → exec (.opKeyRelease d addr len b) s = .next (complete d 0x69 .nonceStale [] [] s)) ∧
          (live → ∃ u st, exec (.opKeyRelease d addr len b) s = .next (complete d 0x69 st [] [] u) ∧ (kemSlot b.kemSlot u).full = false ∧
            u.encl.groupCur = s.encl.groupCur ∧ u.chans = s.chans ∧ u.regs = s.regs ∧
            (k.digest ≠ b.evDigest → st = .authFailed ∧ u.encl.weightKeys = s.encl.weightKeys) ∧
            (k.digest = b.evDigest → match unwrapKey b k s with
              | none => st = .authFailed ∧ u.encl.weightKeys = s.encl.weightKeys
              | some key => if s.encl.runningSvn < b.minSvn then st = .versionRevoked ∧ u.encl.weightKeys = s.encl.weightKeys
                else st = .ok ∧ u.encl.weightKeys = tset (b.target % 64) key s.encl.weightKeys)))) ∧
      (Accepts 0x6A d fn target s →
        (∀ st, releaseCheck 2 fn addr len b s = some st → exec (.opGroupKey d addr len b) s = .next (complete d 0x6A st [] [] s)) ∧
        (releaseCheck 2 fn addr len b s = none →
          (¬ live → exec (.opGroupKey d addr len b) s = .next (complete d 0x6A .nonceStale [] [] s)) ∧
          (live → ∃ u st, exec (.opGroupKey d addr len b) s = .next (complete d 0x6A st [] [] u) ∧ (kemSlot b.kemSlot u).full = false ∧
            u.encl.weightKeys = s.encl.weightKeys ∧ u.chans = s.chans ∧
            (k.digest ≠ b.evDigest → st = .authFailed ∧ u.encl.groupCur = s.encl.groupCur ∧ u.encl.groupPrev = s.encl.groupPrev) ∧
            (k.digest = b.evDigest → match unwrapKey b k s with
              | none => st = .authFailed ∧ u.encl.groupCur = s.encl.groupCur ∧ u.encl.groupPrev = s.encl.groupPrev
              | some key => if s.encl.runningSvn < b.minSvn then st = .versionRevoked ∧ u.encl.groupCur = s.encl.groupCur
                else st = .ok ∧ u.encl.groupCur = some (b.gen, key) ∧
                  (∀ g, s.encl.groupCur = some g → u.encl.groupPrev = if g.1 = b.gen then s.encl.groupPrev else some g)))))) ∧
    (∀ slot, Accepts 0x69 d fn target s →
      (64 ≤ slot → exec (.keyErase d slot) s = .next (complete d 0x69 .paramInvalid [] [] s)) ∧
      (slot < 64 → keysAllowed s = true → ∃ u, exec (.keyErase d slot) s = .next (complete d 0x69 .ok [] [] u) ∧ tget slot u.encl.weightKeys = none ∧
        (∀ j, j ≠ slot → tget j u.encl.weightKeys = tget j s.encl.weightKeys)) ∧
      (slot < 64 → keysAllowed s = false → exec (.keyErase d slot) s = .next (complete d 0x69 .lifecycle [] [] s))) ∧
    (∀ i, Accepts 0x6A d fn target s →
      (2 ≤ i → exec (.groupKeyErase d i) s = .next (complete d 0x6A .paramInvalid [] [] s)) ∧
      (i < 2 → keysAllowed s = false → exec (.groupKeyErase d i) s = .next (complete d 0x6A .lifecycle [] [] s))) ∧
    (Accepts 0x6A d fn target s → keysAllowed s = true →
      exec (.groupKeyErase d 0) s = .next (complete d 0x6A .ok [] [] { s with encl := { s.encl with groupCur := none } }) ∧
      exec (.groupKeyErase d 1) s = .next (complete d 0x6A .ok [] [] { s with encl := { s.encl with groupPrev := none } })) ∧
    (∀ nonce oa cap kem, Accepts 0x68 d fn target s →
      let cmd : Instr := .opEvidenceGet d nonce oa cap kem
      let slot := kemPick s
      let id := if kem then slot + 16 * kemUse slot s else 4294967295
      let record := evidenceRecord nonce (if kem then some (s.freeIx, id) else none) s
      (cap = 0 → exec cmd s = .next (complete d 0x68 .lenZero [] [] s)) ∧
      (4096 < cap → exec cmd s = .next (complete d 0x68 .paramInvalid [] [] s)) ∧
      (1 ≤ cap → cap ≤ 4096 →
        (∀ st, rangeCheck fn oa cap s = some st → exec cmd s = .next (complete d 0x68 st [] [] s)) ∧
        (rangeCheck fn oa cap s = none →
          (cap < record.length → exec cmd s = .next (complete d 0x68 .lenExceedsBuffer [record.length, 4294967295] [] s)) ∧
          (record.length ≤ cap →
            (kem = true → s.encl.fuses.lifecycle = 0 → exec cmd s = .next (complete d 0x68 .lifecycle [] [] s)) ∧
            (kem = false ∨ s.encl.fuses.lifecycle ≠ 0 → ∃ u,
              exec cmd s = .next (addOp 0x68 d fn 8 [(oa, cap)] true (.ready .ok [record.length, id] [(oa, .bytes record)]) u) ∧ u.ops = s.ops ∧
              u.encl.weightKeys = s.encl.weightKeys ∧ u.chans = s.chans ∧ (∀ j, (kem = false ∨ j ≠ slot) → kemSlot j u = kemSlot j s) ∧
              (kem = true → (kemSlot slot u).full = true ∧ (kemSlot slot u).useCount = kemUse slot s ∧ (kemSlot slot u).digest = Config.sha3 record))))))

/-- Debug unlock, provisioning and the enclave's error (R447, R448, R451, R470 to R472): a challenge gives a nonce of 32 bytes, which a
token spends, right or wrong; a token to advance the field burns its bit; one to open debug (R472) erases every released key and stays
outstanding for the channel resets; provisioning burns the fuses once; an error erases the keys and takes the device offline. -/
def Obligations.DebugProvisioningAndErrors : Prop :=
  ∀ (d : Hdr) (fn target addr : Nat) (s : State), s.up = true →
    (∀ st, Accepts 0x6B d fn target s → rangeCheck fn addr 32 s = some st → exec (.debugChallenge d addr) s = .next (complete d 0x6B st [] [] s)) ∧
    (Accepts 0x6B d fn target s → rangeCheck fn addr 32 s = none →
      ∃ u nonce, exec (.debugChallenge d addr) s = .next (complete d 0x6B .ok [] [(addr, .bytes nonce)] u) ∧ nonce.length = 32 ∧
        u.encl.nonce = some nonce ∧ u.chans = s.chans ∧ u.regs = s.regs) ∧
    (∀ (t : Token) len, Accepts 0x6B d fn target s →
      (len ≠ 235 → exec (.debugSubmit d addr len t) s = .next (complete d 0x6B .paramInvalid [] [] s)) ∧
      (∀ st, len = 235 → rangeCheck fn addr len s = some st → exec (.debugSubmit d addr len t) s = .next (complete d 0x6B st [] [] s))) ∧
    (∀ (t : Token), Accepts 0x6B d fn target s → rangeCheck fn addr 235 s = none →
      let spent := { s with encl := { s.encl with nonce := none } }
      (s.encl.nonce ≠ some t.nonce ∨ t.serial ≠ s.encl.fuses.serial →
        exec (.debugSubmit d addr 235 t) s = .next (complete d 0x6B .nonceStale [] [] spent)) ∧
      (s.encl.nonce = some t.nonce → t.serial = s.encl.fuses.serial →
        if tokenSigned t s.encl.fuses = false then exec (.debugSubmit d addr 235 t) s = .next (complete d 0x6B .signatureInvalid [] [] spent)
        else if tokenPermitted t s.encl.fuses = false then exec (.debugSubmit d addr 235 t) s = .next (complete d 0x6B .lifecycle [] [] spent)
        else if t.kind = 2 then exec (.debugSubmit d addr 235 t) s = .next (complete d 0x6B .ok [] []
          { s with encl := { s.encl with nonce := none, fuses := { s.encl.fuses with lifecycle := 2 } } })
        else (zeroise spent).encl.weightKeys = [] ∧ (zeroise spent).encl.groupCur = none ∧ ∃ u, exec (.debugSubmit d addr 235 t) s = .next u ∧
          u.ops.getLast? = some ⟨d, fn, 0x6B, 8, true, false, s.now, [], .debugOpen (t.kind == 3) t.jtag t.trace⟩ ∧
          u.encl.fuses = s.encl.fuses ∧ u = openDebug d t fn spent)) ∧
    (∀ sn fw dbg own, (s.encl.fuses.lifecycle ≠ 0 → exec (.provisioningSequence sn fw dbg own) s = .next s) ∧
      (s.encl.fuses.lifecycle = 0 → ∃ t, exec (.provisioningSequence sn fw dbg own) s = .next t ∧ t.encl.fuses.lifecycle = 1 ∧
        t.encl.fuses.serial = fitTo 16 sn ∧ t.encl.fuses.fwAuth = fitTo 64 fw ∧ t.encl.fuses.dbgAuth = fitTo 64 dbg ∧
        t.encl.fuses.ownAuth = fitTo 64 own ∧ t.encl.fuses.uds.length = 64 ∧ t.encl.fuses.svn = s.encl.fuses.svn ∧ t.chans = s.chans)) ∧
    (∀ cause, ∃ t, exec (.enclaveError cause) s = .next t ∧ t.encl.state = .error ∧ t.encl.cause = cause % 256 ∧ t.encl.weightKeys = [] ∧
      t.encl.groupCur = none ∧ t.encl.groupPrev = none ∧ (∀ n, (t.chan n).keys = []) ∧ t.power.offline = true ∧
      t.power.faultN = false ∧ t.encl.fuses = s.encl.fuses ∧ t.up = false)

/-- Firmware (R458, R459, R478): an image that checks goes to the slot that is not active; activating it makes that slot active and trying
and restarts service firmware; COMMIT_SVN of a confirmed image raises the fuse's svn to the running one's; firmware is confirmed within
2 s of its start; a watchdog expiry restarts it, or, as the fourth within 10 s, halts it; the restart's end clears the crash dump.
Channels are untouched. A second update while one runs is refused. -/
def Obligations.FirmwareIsUpdatedAndRestarted : Prop :=
  ∀ (d : Hdr) (fn addr len : Nat) (i : FwImage) (s : State),
    (s.up = true → ringLive d.ring s = true → commonCheck 0x6C d s = none → (s.ring d.ring).owner = fn →
      (fwRuns s = true → exec (.fwStage d addr len i) s = .next (complete d 0x6C .mgmtBusy [] [] s) ∧
        exec (.fwActivate d) s = .next (complete d 0x6C .mgmtBusy [] [] s) ∧
        exec (.fwCommitSvn d) s = .next (complete d 0x6C .mgmtBusy [] [] s)) ∧
      (fwRuns s = false →
        (len < 256 ∨ 33554432 < len → exec (.fwStage d addr len i) s = .next (complete d 0x6C .paramInvalid [] [] s)) ∧
        (∀ st, 256 ≤ len → len ≤ 33554432 → rangeCheck fn addr len s = some st → exec (.fwStage d addr len i) s = .next (complete d 0x6C st [] [] s)) ∧
        (256 ≤ len → len ≤ 33554432 → rangeCheck fn addr len s = none →
          match imageCheck i s with
          | some st => exec (.fwStage d addr len i) s = .next (complete d 0x6C st [] [] s)
          | none => ∃ u, exec (.fwStage d addr len i) s = .next (addOp 0x6C d fn 8 [(addr, len)] true (.ready .ok [] []) u) ∧
            slotImage (!s.encl.bootActive) u = some i ∧ slotImage s.encl.bootActive u = slotImage s.encl.bootActive s ∧
            u.encl.bootActive = s.encl.bootActive ∧ u.encl.fuses = s.encl.fuses ∧ u.encl.runningSvn = s.encl.runningSvn) ∧
        (slotImage (!s.encl.bootActive) s = none → exec (.fwActivate d) s = .next (complete d 0x6C .signatureInvalid [] [] s)) ∧
        (slotImage (!s.encl.bootActive) s = some i →
          match imageCheck i s with
          | some st => exec (.fwActivate d) s = .next (complete d 0x6C st [] [] s)
          | none => ∃ t, exec (.fwActivate d) s = .next t ∧ t.encl.bootActive = (!s.encl.bootActive) ∧ t.encl.bootTrying = true ∧
            t.encl.bootConfirmed = false ∧ t.mgmt.restarting = true ∧ t.mgmt.restartCause = 2 ∧ t.mgmt.congested = true ∧
            t.encl.weightKeys = s.encl.weightKeys ∧ t.chans = s.chans ∧
            t.ops = s.ops ++ [⟨d, fn, 0x6C, 8, true, false, s.now, [], .ready .ok [] []⟩]) ∧
        (s.encl.bootConfirmed = true → exec (.fwCommitSvn d) s = .next (addOp 0x6C d fn 8 [] true (.ready .ok [] [])
          { s with encl := { s.encl with fuses := { s.encl.fuses with svn := max s.encl.fuses.svn s.encl.runningSvn } } })) ∧
        (s.encl.bootConfirmed = false → exec (.fwCommitSvn d) s = .next (complete d 0x6C .notPermitted [] [] s)))) ∧
    (s.up = true →
      (s.encl.state = .ready → s.mgmt.restarting = false → s.now ≤ s.encl.startedAt + 2000000000 →
        exec .fwConfirm s = .next { s with encl := { s.encl with bootConfirmed := true } }) ∧
      (s.encl.startedAt + 2000000000 < s.now → exec .fwConfirm s = .next s) ∧
      (s.mgmt.restarting = true ∨ s.encl.state = .noFirmware → exec .watchdogExpiry s = .next s) ∧
      (s.mgmt.restarting = false → s.encl.state ≠ .noFirmware →
        let recent := (s.mgmt.restarts.filter (fun t => decide (s.now ≤ t + 10000000000))).length
        (recent < 3 → ∃ t, exec .watchdogExpiry s = .next t ∧ t.mgmt.restarting = true ∧ t.mgmt.restartCause = 1 ∧ t.mgmt.crashDump = true ∧
          t.mgmt.congested = true ∧ t.mgmt.exq = s.mgmt.exq ∧ t.ops = s.ops ∧ t.chans = s.chans ∧ t.encl = s.encl) ∧
        (3 ≤ recent → ∃ t, exec .watchdogExpiry s = .next t ∧ t.encl.state = .noFirmware ∧ t.chans = s.chans ∧ t.ops = s.ops)) ∧
      (s.mgmt.restarting = false → ∀ n, exec (.fwRestartDone n) s = .next s) ∧
      (∀ n, s.mgmt.restarting = true → ∃ t, exec (.fwRestartDone n) s = .next t ∧ t.mgmt.restarting = false ∧ t.mgmt.crashDump = false ∧
        t.mgmt.kickedAt = s.now ∧ t.encl.startedAt = s.now ∧ t.chans = s.chans ∧ t.ops = s.ops ∧
        (s.mgmt.restartCause = 1 → t.encl.runningSvn = s.encl.runningSvn ∧ t.encl.measurements = s.encl.measurements) ∧
        (∀ j, s.mgmt.restartCause = 2 → slotImage s.encl.bootActive s = some j → t.encl.runningSvn = j.svn)))


/-! ### Roles, commits and monitors -/

/-- Role switches (R407, R484, R485): OP_ROLE_SET waits for a reset or an earlier switch of its channel, completes with the status of a check
that fails or, for the role the channel has, with ST_OK, and is kept in the channel otherwise: an ACTIVE one drains. Drained, or at the end of
drain_tmo, its storage is zeroed; then it takes no role, or its role with its staged registers committed, or stays UNASSIGNED when that commit
is busy or fails, or is FAILED when its self-test fails. -/
def Obligations.RolesAreSwitched : Prop :=
  ∀ (d : Hdr) (n role tmo : Nat) (s : State),
    (∀ fn target, Accepts 0x70 d fn target s →
      (n < 8 → (s.chan n).resetting = true ∨ (s.chan n).switch.isSome = true → exec (.opRoleSet d n role tmo) s = .next s) ∧
      ((n < 8 → (s.chan n).resetting = false ∧ (s.chan n).switch = none) →
        (∀ st, roleCheck n role s = some st → exec (.opRoleSet d n role tmo) s = .next (complete d 0x70 st [] [] s)) ∧
        (∀ r, roleCheck n role s = none → roleOfCode role = some r →
          ((s.chan n).state = .active → (s.chan n).role = r → exec (.opRoleSet d n role tmo) s = .next (complete d 0x70 .ok [] [] s)) ∧
          ((s.chan n).state ≠ .active ∨ (s.chan n).role ≠ r → EntryFree s →
            exec (.opRoleSet d n role tmo) s = .next (beginSwitch d n r tmo fn (takeEntry s)) ∧
            ((s.chan n).state = .active → (s.chan n).runs ≠ [] → let t := beginSwitch d n r tmo fn (takeEntry s)
              (t.chan n).state = .draining ∧ (t.chan n).switch = some ⟨d, r, tmo, false⟩ ∧ (t.chan n).role = (s.chan n).role ∧
              (t.chan n).runs = (s.chan n).runs ∧ (∀ k, k ≠ n → t.chan k = s.chan k) ∧ t.regs = s.regs))))) ∧
    (roleOfCode role = none ∨ 8 ≤ n → roleCheck n role s = some .paramInvalid) ∧
    (∀ r, n < 8 → roleOfCode role = some r → s.encl.fuses.lifecycle ≠ 3 → s.mgmt.congested = false →
      ((s.chan n).state = .failed → roleCheck n role s = some .channelOffline) ∧
      ((s.chan n).state ≠ .failed → (s.chan n).role = .pool → (∃ e ∈ (s.chan n).pool.extents, e.2.state ≠ 0) →
        roleCheck n role s = some .extentState)) ∧
    (n < 8 → s.up = true → ((s.chan n).switch = none → exec (.drainTmoExpiry n) s = .next s) ∧
      (∀ sw, (s.chan n).switch = some sw →
        (sw.drainTmo = 0 ∨ sw.zeroing = true → exec (.drainTmoExpiry n) s = .next s) ∧
        (sw.drainTmo ≠ 0 → sw.zeroing = false → exec (.drainTmoExpiry n) s = .next (beginZero n s) ∧ let t := beginZero n s
          (t.chan n).switch = some { sw with zeroing := true } ∧ (t.chan n).mem = [] ∧ (t.chan n).dirs = [] ∧ (t.chan n).models = [] ∧
          (t.chan n).bulk = []) ∧
        (sw.zeroing = true →
          (∃ t, exec (.channelResetDone n false) s = .next t ∧ (t.chan n).state = .failed ∧ (t.chan n).switch = none) ∧
          (sw.role = .none → ∃ t, exec (.channelResetDone n true) s = .next t ∧ (t.chan n).state = .unassigned ∧ (t.chan n).role = .none ∧
            (t.chan n).switch = none) ∧
          (sw.role ≠ .none → s.mgmt.congested = true → ∃ t, exec (.channelResetDone n true) s = .next t ∧ (t.chan n).state = .unassigned ∧
            (t.chan n).role = .none ∧ (t.chan n).switch = none ∧ t.mgmt.cfgStatus = .mgmtBusy) ∧
          (sw.role ≠ .none → s.mgmt.congested = false →
            let v := wmDefaults n sw.role ((enterUnassigned n s).modChan n (fun c => { c with switch := none }))
            (commitCheck (.fn 0) (n + 1) (some sw.role) v = none → ∃ t, exec (.channelResetDone n true) s = .next t ∧
              (t.chan n).state = .active ∧ (t.chan n).role = sw.role ∧ (t.chan n).switch = none) ∧
            (∀ st k, commitCheck (.fn 0) (n + 1) (some sw.role) v = some (st, k) → ∃ t, exec (.channelResetDone n true) s = .next t ∧
              (t.chan n).state = .unassigned ∧ (t.chan n).role = .none ∧ (t.chan n).switch = none ∧ t.mgmt.cfgStatus = st ∧
              t.regs = v.regs)))))

/-- PRT_CFG_COMMIT (R479, R480, R535): a commit that checks applies every staged value of its scope that its requester may commit and locks the
scope; one that fails a check applies none; it changes nothing in the scope of an UNASSIGNED or FAILED channel; it is busy until its
exception ends, and writes and commits requested meanwhile follow then; in MGMT_CONGESTED and in NO_FIRMWARE it ends at once with
ST_MGMT_BUSY. UNLOCK clears locks and DISCARD the scope's staged values. No function but F0 and F1 may. -/
def Obligations.RegistersAreCommitted : Prop :=
  ∀ (r : Requester) (scope : Nat) (s : State), s.up = true →
    (r ≠ .fn 0 → r ≠ .fn 1 → exec (.cfgCommit r scope) s = .next (denyReg r s) ∧ exec (.cfgUnlock r scope) s = .next (denyReg r s) ∧
      exec (.cfgDiscard r scope) s = .next (denyReg r s)) ∧
    ((r = .fn 0 ∨ r = .fn 1) →
      (8 < scope → exec (.cfgCommit r scope) s = .next (answerReg r .ok .empty s) ∧
        exec (.cfgUnlock r scope) s = .next (answerReg r .ok .empty s) ∧ exec (.cfgDiscard r scope) s = .next (answerReg r .ok .empty s)) ∧
      (scope ≤ 8 →
        exec (.cfgUnlock r scope) s = .next (answerReg r .ok .empty (unlockScope r scope s)) ∧ scope + 16 ∉ (unlockScope r scope s).locks ∧
        (r = .fn 0 → scope ∉ (unlockScope r scope s).locks) ∧
        exec (.cfgDiscard r scope) s = .next (answerReg r .ok .empty (discardScope r scope s)) ∧
        (∀ k v, (k, v) ∈ (discardScope r scope s).staged ↔ (k, v) ∈ s.staged ∧ commits r scope true k = false) ∧
        (∀ run, s.mgmt.cfgBusy = some run → exec (.cfgCommit r scope) s = .next (answerReg r .ok .empty
          { s with mgmt := { s.mgmt with heldCommits := s.mgmt.heldCommits ++ [(r, scope)] } })) ∧
        (s.mgmt.cfgBusy = none →
          (s.mgmt.congested = true ∨ s.encl.state = .noFirmware → ∃ t, exec (.cfgCommit r scope) s = .next t ∧
            t.mgmt.cfgStatus = .mgmtBusy ∧ t.mgmt.cfgBusy = none ∧ t.mgmt.commits = (s.mgmt.commits + 1) % 65536 ∧ t.regs = s.regs ∧
            t.staged = s.staged ∧ t.locks = s.locks) ∧
          (s.mgmt.congested = false → s.encl.state ≠ .noFirmware →
            (idleScope scope s = true → ∃ t, exec (.cfgCommit r scope) s = .next t ∧ t.regs = s.regs ∧ t.staged = s.staged ∧
              t.locks = s.locks ∧ t.mgmt.cfgBusy = some ⟨scope, s.mgmt.nextEx, .ok, 0⟩) ∧
            (∀ st k, idleScope scope s = false → commitCheck r scope none (takeEntry s) = some (st, k) →
              ∃ t, exec (.cfgCommit r scope) s = .next t ∧ t.regs = s.regs ∧ t.staged = s.staged ∧ t.locks = s.locks ∧
                t.mgmt.cfgBusy = some ⟨scope, s.mgmt.nextEx, st, k⟩) ∧
            (idleScope scope s = false → commitCheck r scope none (takeEntry s) = none → ∃ t, exec (.cfgCommit r scope) s = .next t ∧
              (∀ k v, (k, v) ∈ t.staged ↔ (k, v) ∈ s.staged ∧ commits r scope false k = false) ∧
              (∀ k, (∀ e ∈ s.staged, e.1 = k → commits r scope false k = false) → tget k t.regs = tget k s.regs) ∧
              (∀ k v, commits r scope false k = true → s.staged.filter (fun e => e.1 == k) = [(k, v)] → tget k t.regs = some v) ∧
              scope + 16 ∈ t.locks ∧ (r = .fn 0 → scope ∈ t.locks) ∧ (∀ k ∈ s.locks, k ∈ t.locks) ∧
              t.mgmt.cfgBusy = some ⟨scope, s.mgmt.nextEx, .ok, 0⟩))))) ∧
    (∀ id, (s.mgmt.restarting = true ∨ s.encl.state = .noFirmware ∨ s.mgmt.exq.contains id = false →
        exec (.exceptionComplete id) s = .next s) ∧
      (s.mgmt.restarting = false → s.encl.state ≠ .noFirmware → s.mgmt.exq.contains id = true →
        let v := relieve { s with mgmt := { s.mgmt with exq := s.mgmt.exq.erase id } }
        v.mgmt.exq = s.mgmt.exq.erase id ∧ v.regs = s.regs ∧ v.staged = s.staged ∧ v.chans = s.chans ∧
        ((∀ run, s.mgmt.cfgBusy = some run → run.id ≠ id) → exec (.exceptionComplete id) s = .next v) ∧
        (∀ run, s.mgmt.cfgBusy = some run → run.id = id → exec (.exceptionComplete id) s = .next (endCommit run v) ∧
          (s.mgmt.heldCommits = [] → let t := endCommit run v
            t.mgmt.cfgBusy = none ∧ t.mgmt.cfgStatus = run.st ∧ t.mgmt.cfgResource = run.resource ∧
            t.mgmt.commits = (s.mgmt.commits + 1) % 65536 ∧ t.regs = s.regs ∧ (s.mgmt.heldWrites = [] → t.staged = s.staged) ∧
            (∀ w, s.mgmt.heldWrites = [w] → t.staged = (stageWrite w.1 w.2.1 w.2.2.1 w.2.2.2 v).staged)))))

/-- Spectrum (R494 to R496): a sample of a monitor with a probe is what State holds of it, or what the command brings, raises its count by one,
moves its least, greatest, sum and histogram, and is captured when it is to be; a monitor with none takes no sample. A snapshot stays
outstanding with one record of 320 bytes for each monitor of its mask, and clears them when it is told to. -/
def Obligations.MonitorsSampleAndReport : Prop :=
  ∀ (s : State), s.up = true →
    (∀ n v, monProbe n s = 0 ∨ 128 ≤ n → exec (.spectrumSample n v) s = .next s) ∧
    (∀ n v, monProbe n s ≠ 0 → n < 128 → ∃ t, exec (.spectrumSample n v) s = .next t ∧ let w := sampleOf n v s
      (t.monitor n).count = min 18446744073709551615 ((s.monitor n).count + 1) ∧ (t.monitor n).last = some w ∧
      (t.monitor n).sum = min 18446744073709551615 ((s.monitor n).sum + w) ∧
      ((s.monitor n).count = 0 → (t.monitor n).min = w ∧ (t.monitor n).max = w) ∧
      ((s.monitor n).count ≠ 0 → (t.monitor n).min = min (s.monitor n).min w ∧ (t.monitor n).max = max (s.monitor n).max w) ∧
      tget (binOf (monCtl n s) w) (t.monitor n).bins =
        some (min 4294967295 ((tget (binOf (monCtl n s) w) (s.monitor n).bins).getD 0 + 1)) ∧
      (∀ k, k ≠ n → t.monitor k = s.monitor k) ∧
      (monRaw n s = false ∨ monSuspended n s = true → t.mgmt = s.mgmt) ∧
      (monRaw n s = true → monSuspended n s = false → t.mgmt.trace = ((s.now, w) :: s.mgmt.trace).take 1048576) ∧
      t.chans = s.chans ∧ t.regs = s.regs) ∧
    (∀ n v, (monProbe n s = 4 → sampleOf n v s = ((s.chan (n / 14)).bulkLen : Int)) ∧
      (monProbe n s = 6 → sampleOf n v s = ((s.chan (n / 14)).lens.table.length : Int)) ∧
      (monProbe n s = 7 → sampleOf n v s = (exqUsed s : Int)) ∧
      (monProbe n s = 1 ∨ monProbe n s = 2 ∨ monProbe n s = 8 ∨ 10 ≤ monProbe n s → sampleOf n v s = v)) ∧
    (∀ (d : Hdr) (mask : BitVec 128) oa fn target, Accepts 0x71 d fn target s →
      let ms := (List.range 128).filter (fun n => mask.getLsbD n)
      let recs := ms.flatMap (fun n => monitorRecord n s)
      (∀ clear, mask = 0 → exec (.opSpectrumSnapshot d mask oa clear) s = .next (complete d 0x71 .lenZero [] [] s)) ∧
      (∀ clear st, mask ≠ 0 → rangeCheck fn oa (320 * ms.length) s = some st →
        exec (.opSpectrumSnapshot d mask oa clear) s = .next (complete d 0x71 st [] [] s)) ∧
      (mask ≠ 0 → rangeCheck fn oa (320 * ms.length) s = none →
        exec (.opSpectrumSnapshot d mask oa false) s = .next (addOp 0x71 d fn 8 [(oa, 320 * ms.length)] true
          (.ready .ok [] [(oa, .words recs)]) s) ∧
        exec (.opSpectrumSnapshot d mask oa true) s = .next (addOp 0x71 d fn 8 [(oa, 320 * ms.length)] true
          (.ready .ok [] [(oa, .words recs)]) { s with monitors := s.monitors.filter (fun e => !mask.getLsbD e.1) }) ∧
        recs.length = 40 * ms.length))

/-! ### Faults -/

/-- Faults (R22 to R24, R486, R489): a fatal fault takes a channel to FAILED, one that is in its reset too, with its cause, its storage and keys
gone, its switch ended without the new role, and no operation for it outstanding, and is reported once until a reset succeeds; the
OP_ROLE_SET of a DRAINING channel completes with ST_CHANNEL_FAILED; one that is FAILED already takes no further effect. A fatal
fault of the device takes it offline. A scrub counts. -/
def Obligations.FaultsTakeChannelsAndTheDevice : Prop :=
  ∀ (n cause : Nat) (s : State), s.up = true →
    (8 ≤ n → exec (.channelFatalFault n cause) s = .next s) ∧
    (n < 8 → (s.chan n).state ≠ .failed ∨ (s.chan n).resetting = true → ∃ v t, exec (.channelFatalFault n cause) s = .next t ∧
      t = resetsEnded (errorLog (if (s.chan n).failedOnce = true then v else reportFailed n (cause % 256) v)) ∧
      (t.chan n).state = .failed ∧ (t.chan n).resetting = false ∧ (t.chan n).failedOnce = true ∧
      (t.chan n).cause = cause % 256 ∧ (t.chan n).role = (s.chan n).role ∧ (t.chan n).switch = none ∧ (t.chan n).dirs = [] ∧
      (t.chan n).mem = [] ∧ (t.chan n).keys = [] ∧ (t.chan n).eccCorr = (s.chan n).eccCorr ∧
      (∀ o ∈ t.ops, o.target ≠ n ∧ o.kind ≠ .roleSet n ∧ o.kind ≠ .reset 3 n)) ∧
    (∀ (d : Hdr) tm, n < 8 → (s.chan n).state = .draining → s.ops = [⟨d, 0, 0x70, 8, true, false, tm, [], .roleSet n⟩] →
      (s.ring d.ring).usable = true → ∃ t slot ph h, exec (.channelFatalFault n cause) s = .next t ∧ t.ops = [] ∧
        (t.chan n).state = .failed ∧ (t.chan n).role = (s.chan n).role ∧
        Out.completion d.ring slot ph d.tag .channelFailed 0x70 h 0 [] ∈ t.out ∧
        (s.loads = [] → (s.chan n).mirror.gen = 0 → (s.chan n).pool.waits = [] → (s.chan n).pool.backlog = [] →
          ∀ k, k ≠ n → t.chan k = s.chan k)) ∧
    (n < 8 → (s.chan n).state = .failed → (s.chan n).resetting = false → exec (.channelFatalFault n cause) s = .next (resetsEnded s)) ∧
    (exec (.deviceFatalFault cause) s = .next { s with power := { s.power with offline := true, faultN := false } } ∧
      State.up { s with power := { s.power with offline := true, faultN := false } } = false) ∧
    (∀ corrected done, (8 ≤ n → exec (.patrolScrub n corrected done) s = .next s) ∧
      (n < 8 → ∃ t, exec (.patrolScrub n corrected done) s = .next t ∧ (t.chan n).eccCorr = wrap64 ((s.chan n).eccCorr + corrected) ∧
        (t.chan n).scrubPass = (if done then wrap64 ((s.chan n).scrubPass + 1) else (s.chan n).scrubPass) ∧
        (t.chan n).mem = (s.chan n).mem ∧ (t.chan n).state = (s.chan n).state ∧ (∀ k, k ≠ n → t.chan k = s.chan k) ∧ t.regs = s.regs ∧
        (corrected = 0 → t.mgmt = s.mgmt)))

/-! ### Requests and their answers -/

/-- Requests over the fabric (R404, R405, R435, R437, R491, R492): a response that matches no request is a bad packet, counted as late when
its function has been reset since, and a failing acknowledgement of a completion entry is a fault of its ring; one that matches answers one
packet of its request, which has its outcome with the last of them or with the first that fails; one of an older generation of its
function is counted and has no other effect. A counter is read and its answer ends the wait it was asked for. A request that times out
or comes back undeliverable fails, and its peer is reported down, once until F1 clears it. -/
def Obligations.RequestsAreAnsweredOrFail : Prop :=
  ∀ (p : Pkt) (s : State), Arrives p s →
    (matchReq p s = none →
      let t := if p.fn ≠ 0 ∧ p.gen ≠ (s.fn p.fn).resetGen % 256 then s.modFn p.fn (fun f => { f with lateRsp := wrap64 (f.lateRsp + 1) })
        else badPacket p.port s
      (∀ x, exec (.readRsp p x) s = .next t) ∧ (∀ v, exec (.regRsp p v) s = .next t) ∧ (∀ r v, exec (.ctrRsp p r v) s = .next t) ∧
      (∀ d r, exec (.poolRsp p d r) s = .next t) ∧
      (∀ a, p.status = 0 ∨ p.dstUnit ≠ 8 ∨ ringOfCq p.srcFid a.toNat s = none → exec (.writeAck p a) s = .next t) ∧
      (∀ (a : Word) ring, p.status ≠ 0 → p.dstUnit = 8 → ringOfCq p.srcFid a.toNat s = some ring → exec (.writeAck p a) s = .next
        (ringFault ring 6 (s.modRing ring (fun r => { r with lost := min (r.lost + 1) 4294967295 }))))) ∧
    (∀ q, matchReq p s = some q →
      (q.gen = (s.fn q.fn).resetGen % 256 →
        let r := { q with left := q.left.erase p.req, poison := q.poison || p.poison }
        (q.left.erase p.req = [] →
          (∀ x, exec (.readRsp p x) s = .next (readDone r p x (dropReq q s))) ∧ (∀ v, exec (.regRsp p v) s = .next (dropReq q s)) ∧
          (∀ d y, exec (.poolRsp p d y) s = .next (poolDone p d y.toNat r (dropReq q s))) ∧
          (∀ a, exec (.writeAck p a) s = .next (writeDone r (statusOfCode p.status) (dropReq q s))) ∧
          (q.kind = .stale → ∀ x, exec (.readRsp p x) s = .next (dropReq q s)) ∧
          (∀ k op f rg m tm ring v, q.kind = .counter k → ring < 4096 → waitOf k s = some (op, f, rg, m, tm) →
            (m ≤ v → exec (.ctrRsp p ring v) s = .next (endWait op .ok [v] (dropReq q s))) ∧
            (v < m → exec (.ctrRsp p ring v) s = .next (dropReq q s))) ∧
          (s.reqWait = [] → (dropReq q s).reqs = s.reqs.erase q)) ∧
        (q.left.erase p.req ≠ [] → p.status = 0 →
          let t := { s with reqs := s.reqs.map (fun y => if y = q then r else y) }
          (∀ x, exec (.readRsp p x) s = .next t) ∧ (∀ v, exec (.regRsp p v) s = .next t) ∧ (∀ k v, exec (.ctrRsp p k v) s = .next t) ∧
          (∀ d y, exec (.poolRsp p d y) s = .next t) ∧ ∀ a, exec (.writeAck p a) s = .next t) ∧
        (q.left.erase p.req ≠ [] → p.status ≠ 0 →
          let t := { s with reqs := s.reqs.map (fun y => if y = q then { r with kind := .stale } else y) }
          (∀ x, exec (.readRsp p x) s = .next (readDone r p x t)) ∧ (∀ d y, exec (.poolRsp p d y) s = .next (poolDone p d y.toNat r t)) ∧
          ∀ a, exec (.writeAck p a) s = .next (writeDone r (statusOfCode p.status) t))) ∧
      (q.gen ≠ (s.fn q.fn).resetGen % 256 →
        let t := (dropReq q s).modFn q.fn (fun f => { f with lateRsp := wrap64 (f.lateRsp + 1) })
        (∀ x, exec (.readRsp p x) s = .next t) ∧ (∀ v, exec (.regRsp p v) s = .next t) ∧ (∀ k v, exec (.ctrRsp p k v) s = .next t) ∧
        (∀ d y, exec (.poolRsp p d y) s = .next t) ∧ ∀ a, exec (.writeAck p a) s = .next t)) ∧
    (∀ ring, (p.dstUnit = 8 → ring < 4096 → exec (.ctrRead p ring) s = .next (s.emit
        (.packet .ctrRsp 8 p.srcFid p.srcUnit p.req p.fn p.gen .ok 0 (.bytes (natLE 8 (s.ring ring).counter))))) ∧
      (p.dstUnit ≠ 8 ∨ 4096 ≤ ring → exec (.ctrRead p ring) s = .next (badPacket p.port s))) ∧
    (∀ unit req, (s.reqs.find? (fun r => r.unit == unit && r.left.contains req) = none → exec (.reqTimeout unit req) s = .next s) ∧
      (∀ r, s.reqs.find? (fun r => r.unit == unit && r.left.contains req) = some r →
        exec (.reqTimeout unit req) s = .next (failRequest r 1 s))) ∧
    (∀ lost port, lost.srcFid ≠ s.fid → exec (.unreach port lost) s = .next s) ∧
    (∀ lost port, lost.srcFid = s.fid →
      let sent := s.reqs.find? (fun r => r.unit == lost.srcUnit && r.left.contains lost.req && r.dstFid == lost.dstFid &&
        r.dstUnit == lost.dstUnit)
      (sent = none → exec (.unreach port lost) s = .next s) ∧
      (∀ r, sent = some r → exec (.unreach port lost) s = .next (failRequest { r with port := port } 2 (dropReq r s)))) ∧
    (∀ fid unit port cause, fid < 80 → unit < 9 →
      let t := (report fid unit port cause s).1
      (t.peer fid).down = true ∧ (t.peer fid).units.getLsbD unit = true ∧ (∀ k, k ≠ fid → t.peer k = s.peer k) ∧
      ((s.peer fid).down = false → (t.peer fid).generation = ((s.peer fid).generation + 1) % 65536 ∧ (t.peer fid).reports = 1 ∧
        (t.peer fid).cause = cause ∧ (t.peer fid).firstPort = port ∧ (t.peer fid).since = s.now) ∧
      ((s.peer fid).down = true → (t.peer fid).generation = (s.peer fid).generation ∧ (t.peer fid).cause = (s.peer fid).cause ∧
        (t.peer fid).reports = min 4294967295 ((s.peer fid).reports + 1))) ∧
    (∀ r, (r ≠ .fn 1 → exec (.prtPeerClear r) s = .next (denyReg r s)) ∧
      (r = .fn 1 → let e := selOf r 0x118 s
        ((s.peer e).down = false → exec (.prtPeerClear r) s = .next (answerReg r .ok .empty s)) ∧
        ((s.peer e).down = true → ∃ t, exec (.prtPeerClear r) s = .next t ∧ t.peer e = { s.peer e with down := false } ∧
          (∀ k, k ≠ e → t.peer k = s.peer k) ∧ t.chans = s.chans ∧ t.regs = s.regs)))

/-! ### Ports -/

/-- Training (R424 to R427): each stage goes on with the lanes that passed and leaves the others out; the end of CONFIG fixes partner,
width and credits and the port is ACTIVE; a lane that loses lock, or too many uncorrectable codewords, retrain an ACTIVE port without
the lane; a limit that expires takes a first training back to DETECT and another to RETRAIN; a port that stays away too long is DOWN, reports the
peers it serves, and tries again. F0 alone enables, disables and rewidens. No other port changes. -/
def Obligations.PortsTrain : Prop :=
  ∀ (n : Nat) (s : State), s.up = true →
    let p := s.port n
    (∀ l, ∃ t, exec (.partnerDetect n l) s = .next t ∧ (∀ k, k ≠ n → t.port k = s.port k) ∧ t.chans = s.chans ∧ t.regs = s.regs ∧
      t.port n = if p.state = .detect ∧ l ≠ 0 then { p with state := .signal, good := l &&& ~~~p.excluded } else p) ∧
    (∀ l, ∃ t, exec (.signalDone n l) s = .next t ∧ (∀ k, k ≠ n → t.port k = s.port k) ∧ t.chans = s.chans ∧
      (p.state = .signal → t.port n = keepLanes l .equalize p ∧ ∀ k, k < 4 → p.good.getLsbD k = true → l.getLsbD k = true →
        (t.lane (4 * n + k)).lock = true) ∧
      (p.state = .retrain → t.port n = keepLanes l .align p) ∧ (p.state ≠ .signal → p.state ≠ .retrain → t = s)) ∧
    (∀ l, ∃ t, exec (.equalizeDone n l) s = .next t ∧ (∀ k, k ≠ n → t.port k = s.port k) ∧ t.lanes = s.lanes ∧
      t.port n = if p.state = .equalize then keepLanes l .align p else p) ∧
    (∀ l, (p.state = .align → exec (.alignDone n l) s = .next ((s.setPort n (keepLanes l .config p)).emit
        (.linkMsg n s.fid n (widestOf n s) (if p.wasActive then p.rxSeq else 0)))) ∧
      (p.state ≠ .align → exec (.alignDone n l) s = .next s)) ∧
    (∀ f u l w cr e, (p.state ≠ .config → exec (.linkMessage n (.config f u l w cr e)) s = .next s) ∧
      (p.state = .config →
        let width := widthOf (p.good &&& l) (min (widestOf n s) w)
        (width = 0 → exec (.linkMessage n (.config f u l w cr e)) s = .next s) ∧
        (width ≠ 0 → ∃ t, exec (.linkMessage n (.config f u l w cr e)) s = .next t ∧ (t.port n).state = .active ∧ (t.port n).width = width ∧
          (t.port n).partnerFid = f ∧ (t.port n).partnerUnit = u ∧ (t.port n).partnerKnown = true ∧
          (p.wasActive = false → (t.port n).credits = cr) ∧
          (p.wasActive = true → p.partnerFid = f → p.partnerUnit = u → (t.port n).credits = p.credits ∧
            (t.port n).replayBuf = dropThrough ((e + 65535) % 65536) p.replayBuf ∧ (t.port n).rxSeq = p.rxSeq) ∧
          (p.partnerKnown = true → p.partnerFid ≠ f → (t.port n).partnerChange = wrap64 (p.partnerChange + 1) ∧ (t.port n).replayBuf = []) ∧
          (∀ k, k ≠ n → t.port k = s.port k)))) ∧
    (exec (.linkMessage n .retrain) s = .next (if p.state = .active then s.setPort n (toRetrain p) else s)) ∧
    (∃ t, exec (.trainingLimitExpiry n) s = .next t ∧ (∀ k, k ≠ n → t.port k = s.port k) ∧
      (p.state ∈ [.disabled, .detect, .active, .down] → t.port n = p) ∧
      (p.state ∈ [.signal, .equalize, .align, .config] → t.port n = if p.wasActive then toRetrain p else { p with state := .detect }) ∧
      (p.state = .retrain → t.port n = toRetrain p)) ∧
    (∀ k, k < 4 →
      (∃ t, exec (.laneLockLoss (4 * n + k)) s = .next t ∧ (t.lane (4 * n + k)).lock = false ∧ (t.port n).good.getLsbD k = false ∧
        (t.port n).state = (if p.state = .active then .retrain else p.state) ∧ (∀ j, j ≠ n → t.port j = s.port j)) ∧
      (∃ t, exec (.fecUncorrLimit (4 * n + k)) s = .next t ∧
        (t.lane (4 * n + k)).fecUncorr = wrap64 ((s.lane (4 * n + k)).fecUncorr + fieldOf (eff 0x40018 s) 0 16 + 1) ∧
        (p.state = .active → (t.port n).state = .retrain ∧ (t.port n).good.getLsbD k = false) ∧ (p.state ≠ .active → t.port n = p))) ∧
    (p.state ∈ [.active, .disabled, .down] → exec (.linkDownTimeout n) s = .next s) ∧
    (p.state ∉ [.active, .disabled, .down] → peersOf n s = [] → ∃ t, exec (.linkDownTimeout n) s = .next t ∧ (t.port n).state = .down ∧
      (t.port n).replayBuf = [] ∧ (t.port n).width = 0 ∧ (∀ k, k ≠ n → t.port k = s.port k) ∧ t.chans = s.chans) ∧
    (p.state ∉ [.active, .disabled, .down] → exec (.linkDownTimeout n) s = .next (toDown n s) ∧
      ∀ q ∈ peersOf n s, q.1 < 80 → ((toDown n s).peer q.1).down = true) ∧
    (∃ t, exec (.downRetry n) s = .next t ∧ (∀ k, k ≠ n → t.port k = s.port k) ∧
      t.port n = if p.state = .down then { p with state := .detect } else p) ∧
    (∀ r, (r ≠ .fn 0 → exec (.portEnable r n) s = .next (denyReg r s) ∧ exec (.portDisable r n) s = .next (denyReg r s) ∧
        exec (.rewiden r n) s = .next (denyReg r s)) ∧
      (r = .fn 0 →
        exec (.portEnable r n) s = .next (answerReg r .ok .empty (enablePort n s)) ∧
        ((enablePort n s).port n = if p.state = .disabled then { p with state := .detect } else p) ∧
        exec (.portDisable r n) s = .next (answerReg r .ok .empty (disablePort n s)) ∧ ((disablePort n s).port n).state = .disabled ∧
        (∀ k, k ≠ n → (disablePort n s).port k = s.port k ∧ (enablePort n s).port k = s.port k) ∧
        exec (.rewiden r n) s = .next (answerReg r .ok .empty (s.setPort n
          (if p.state = .active then { toRetrain p with good := 0xF, excluded := 0 } else p)))))

/-- Flits (R428 to R431): a flit at a port that is not ACTIVE is nothing; one whose CRC is wrong is counted and answered with one NAK; an IDLE
flit brings credits and an acknowledgement, and with a NAK the kept flits go out again; a DATA flit with the number expected raises it by one
and joins its packet, and the last one hands the packet on; one with a later number is counted and answered with one NAK, one with an
older number is counted. A replay sends the kept flits again, and too many in a row retrain the port. An acknowledgement that is due
leaves. -/
def Obligations.FlitsAreTakenAndReplayed : Prop :=
  ∀ (n : Nat) (s : State), s.up = true →
    let p := s.port n
    let again (l : List SentFlit) : List Out := (l.map (fun f => Out.flit n true f.vc f.seq (lastSeq p) false true 0 0 f.sop f.eop f.body)).reverse
    (∀ f, (p.state ≠ .active → exec (.flitReceive n f) s = .next s) ∧
      (p.state = .active → flitGood f = false → p.nakSent = true →
        exec (.flitReceive n f) s = .next (s.setPort n { p with crcErr := wrap64 (p.crcErr + 1), nakSent := true })) ∧
      (p.state = .active → flitGood f = false → p.nakSent = false → ∃ t, exec (.flitReceive n f) s = .next t ∧
        (t.port n).crcErr = wrap64 (p.crcErr + 1) ∧ (t.port n).nakSent = true ∧ (t.port n).rxSeq = p.rxSeq ∧ t.chans = s.chans ∧
        ∃ v c, t.out = .flit n false 0 0 (lastSeq p) true false v c false false [] :: s.out) ∧
      (p.state = .active → flitGood f = true →
        let b0 := leNat (f.take 1)
        let seq := leNat ((f.drop 2).take 2)
        let ack := leNat ((f.drop 4).take 2)
        let cr := leNat ((f.drop 6).take 2)
        let kept := if cr / 16384 % 2 = 1 then dropThrough ack p.replayBuf else p.replayBuf
        let credits := bumpVc (cr / 4096 % 4) (fun k => k + cr % 4096) p.credits
        let vc := b0 / 4 % 4
        let part := (if b0 / 16 % 2 = 1 then [] else (tget vc p.partialPkt).getD []) ++ f.drop 16
        (b0 % 4 = 2 ∨ b0 % 4 = 3 → exec (.flitReceive n f) s = .next s) ∧
        (b0 % 4 = 0 → cr < 32768 → ∃ t, exec (.flitReceive n f) s = .next t ∧ (t.port n).replayBuf = kept ∧ (t.port n).credits = credits ∧
          (t.port n).rxSeq = p.rxSeq ∧ t.chans = s.chans ∧ t.out = s.out) ∧
        (b0 % 4 = 0 → 32768 ≤ cr → kept ≠ [] → kept.length = p.replayBuf.length → p.replays + 1 < fieldOf (eff 0x40010 s) 0 7 →
          ∃ t, exec (.flitReceive n f) s = .next t ∧ (t.port n).replayBuf = kept ∧ (t.port n).credits = credits ∧
            (t.port n).replay = wrap64 (p.replay + 1) ∧ t.chans = s.chans ∧ t.out = again kept ++ s.out) ∧
        (b0 % 4 = 1 → cr < 32768 →
          (seq = p.rxSeq → b0 / 32 % 2 = 0 → ∃ t, exec (.flitReceive n f) s = .next t ∧
            (t.port n).rxSeq = (p.rxSeq + 1) % 65536 ∧ (t.port n).nakSent = false ∧ (t.port n).replayBuf = kept ∧
            (t.port n).credits = credits ∧ tget vc (t.port n).partialPkt = some part ∧ t.chans = s.chans ∧
            (p.unacked < 63 → (t.port n).unacked = p.unacked + 1 ∧ t.out = s.out) ∧
            (63 ≤ p.unacked → (t.port n).unacked = 0 ∧
              ∃ v c, t.out = .flit n false 0 0 (lastSeq (t.port n)) false false v c false false [] :: s.out)) ∧
          (seq = p.rxSeq → b0 / 32 % 2 = 1 → ∃ v, exec (.flitReceive n f) s = .next (takePacket n vc part v) ∧
            (v.port n).rxSeq = (p.rxSeq + 1) % 65536 ∧ (v.port n).nakSent = false ∧ tget vc (v.port n).partialPkt = tget vc (tdel vc p.partialPkt) ∧
            (v.port n).credits = credits ∧ v.chans = s.chans) ∧
          ((seq + 65536 - p.rxSeq) % 65536 ≥ 32768 → ∃ t, exec (.flitReceive n f) s = .next t ∧
            (t.port n).rxSeq = p.rxSeq ∧ (t.port n).crcErr = wrap64 (p.crcErr + 1) ∧ (t.port n).replayBuf = kept ∧ t.chans = s.chans ∧
            t.out = s.out) ∧
          (seq ≠ p.rxSeq → (seq + 65536 - p.rxSeq) % 65536 < 32768 → ∃ t, exec (.flitReceive n f) s = .next t ∧
            (t.port n).rxSeq = p.rxSeq ∧ (t.port n).crcErr = wrap64 (p.crcErr + 1) ∧ (t.port n).nakSent = true ∧ t.chans = s.chans ∧
            (p.nakSent = true → t.out = s.out) ∧
            (p.nakSent = false → ∃ v c, t.out = .flit n false 0 0 (lastSeq p) true false v c false false [] :: s.out))))) ∧
    (p.state ≠ .active ∨ p.replayBuf = [] → exec (.replayTimeout n) s = .next s) ∧
    (p.state = .active → p.replayBuf ≠ [] → ∃ t, exec (.replayTimeout n) s = .next t ∧ (t.port n).replay = wrap64 (p.replay + 1) ∧
      (t.port n).replayBuf = p.replayBuf ∧ t.chans = s.chans ∧
      (p.replays + 1 < fieldOf (eff 0x40010 s) 0 7 → (t.port n).state = .active ∧ t.out = again p.replayBuf ++ s.out) ∧
      (fieldOf (eff 0x40010 s) 0 7 ≤ p.replays + 1 → (t.port n).state = .retrain ∧ t.out = s.out)) ∧
    ((p.state ≠ .active ∨ (p.unacked = 0 ∧ ∀ v ∈ p.owed, v = 0)) → exec (.ackTimer n) s = .next s) ∧
    (p.state = .active → p.unacked ≠ 0 ∨ (∃ v ∈ p.owed, v ≠ 0) → ∃ t v c, exec (.ackTimer n) s = .next t ∧ (t.port n).unacked = 0 ∧
      t.out = .flit n false 0 0 (lastSeq p) false false v c false false [] :: s.out ∧ t.chans = s.chans)


/-! ### Registers and power -/

/-- A write to PRT_FABRIC_DEVICES of a value above 16, made while any ACTIVE ATTN channel runs in TABLE mode, fails with ST_PARAM_INVALID,
and the register stays; by either function that may write it, in either access size (R537, R530). -/
def Obligations.TableModeHoldsTheDeviceCount : Prop :=
  ∀ (r : Requester) (n size : Nat) (value : Word) (s : State), s.up = true → (r = .fn 0 ∨ r = .fn 1) → (size = 4 ∨ size = 8) → n < 8 →
    (s.chan n).state = .active → (s.chan n).role = .attn → fixedMode n s = false → 16 < value.toNat % 128 →
    exec (.regWrite r 0x010 size value) s = .next (answerReg r .paramInvalid .empty s) ∧
      (answerReg r .paramInvalid .empty s).regs = s.regs ∧ (answerReg r .paramInvalid .empty s).chans = s.chans

/-- Register writes (R10, R530 to R535, R543): an address outside the map, a size other than 4 or 8, or a misaligned one is invalid; an address
with no register, and a register that no one writes, ignore writes; a requester that may not write is counted and refused; a setting of
access RW, and a selector, takes its value at once where every field is in range and stays otherwise; a commit-controlled one is staged, held
while its scope is being committed, and stays while it is locked; the late write-back counter loses the bits that are written as 1. The
kick of the watchdog is service firmware's, and the late write-back counter F0's to clear. -/
def Obligations.RegistersAreWritten : Prop :=
  ∀ (r : Requester) (value : Word) (s : State), s.up = true →
    (∀ a size, addrMapped a = false ∨ (size ≠ 4 ∧ size ≠ 8) ∨ a % size ≠ 0 →
      exec (.regWrite r a size value) s = .next (answerReg r .paramInvalid .empty s)) ∧
    (∀ a size row, addrMapped a = true → (size = 4 ∨ size = 8) → a % size = 0 → regRow (a / 8 * 8) = some row → row.writers ≠ .none →
      writePermitted r (a / 8 * 8) row.writers s = false → exec (.regWrite r a size value) s = .next (denyReg r s) ∧
        (denyReg r s).mgmt.regDeny = wrap64 (s.mgmt.regDeny + 1) ∧ (denyReg r s).regs = s.regs ∧ (denyReg r s).chans = s.chans) ∧
    (∀ a size, addrMapped a = true → (size = 4 ∨ size = 8) → a % size = 0 → let b := a / 8 * 8
      (regRow b = none → exec (.regWrite r a size value) s = .next (answerReg r .ok .empty s)) ∧
      (∀ row, regRow b = some row →
        (row.writers = .none → exec (.regWrite r a size value) s = .next (answerReg r .ok .empty s)) ∧
        (row.writers ≠ .none → writePermitted r b row.writers s = true →
          (row.cls = .rw → let w := rowMask row (mergeWrite (eff b s) a size value.toNat)
            (rowOk row w = true → devicesBad b w s = false → ∃ t, exec (.regWrite r a size value) s = .next t ∧ tget b t.regs = some w ∧
              (∀ k, k ≠ b → tget k t.regs = tget k s.regs) ∧ t.staged = s.staged ∧ t.chans = s.chans) ∧
            (rowOk row w = false ∨ devicesBad b w s = true →
              exec (.regWrite r a size value) s = .next (answerReg r .paramInvalid .empty s))) ∧
          (row.cls = .sel → let w := rowMask row (mergeWrite (selOf r b s) a size value.toNat)
            (rowOk row w = true → exec (.regWrite r a size value) s = .next (answerReg r .ok .empty (setSel r b w s))) ∧
            (rowOk row w = false → exec (.regWrite r a size value) s = .next (answerReg r .paramInvalid .empty s))) ∧
          (row.cls = .recommit ∨ row.cls = .role →
            (∀ run, s.mgmt.cfgBusy = some run → run.scope = regScope b → exec (.regWrite r a size value) s = .next (answerReg r .ok .empty
              { s with mgmt := { s.mgmt with heldWrites := s.mgmt.heldWrites ++ [(r, a, size, value)] } })) ∧
            ((∀ run, s.mgmt.cfgBusy = some run → run.scope ≠ regScope b) →
              (isLocked b s = true → exec (.regWrite r a size value) s = .next (answerReg r .ok .empty s)) ∧
              (isLocked b s = false → ∃ t, exec (.regWrite r a size value) s = .next t ∧ t.regs = s.regs ∧ t.chans = s.chans ∧
                tget (keyOf r b s) t.staged = some (rowMask row (mergeWrite (stagedOf (keyOf r b s) s) a size value.toNat)) ∧
                (∀ k, k ≠ keyOf r b s → tget k t.staged = tget k s.staged))))))) ∧
    (∀ n, n < 8 → r = .fn 0 → ∃ t, exec (.regWrite r (chanBase n + 0x20010) 8 value) s = .next t ∧
      BitVec.ofNat 64 (t.chan n).pool.lateWb = BitVec.ofNat 64 (s.chan n).pool.lateWb &&& ~~~value ∧
      (∀ k, k ≠ n → t.chan k = s.chan k) ∧ t.regs = s.regs) ∧
    (r = .fn 0 →
      (∃ t, exec (.regWrite r 0x148 8 value) s = .next t ∧ tget 0x148 t.regs = some (value.toNat % 65536) ∧
        (∀ k, k ≠ 0x148 → tget k t.regs = tget k s.regs) ∧ t.chans = s.chans ∧ t.staged = s.staged) ∧
      (s.locks = [] → s.mgmt.cfgBusy = none → ∃ t, exec (.regWrite r 0x0F0 8 value) s = .next t ∧ t.regs = s.regs ∧
        tget 0x0F0 t.staged = some (value.toNat % 4096 + value.toNat / 65536 % 4096 * 65536) ∧
        (∀ k, k ≠ 0x0F0 → tget k t.staged = tget k s.staged)) ∧
      (0 ∈ s.locks → s.mgmt.cfgBusy = none → exec (.regWrite r 0x0F0 8 value) s = .next (answerReg r .ok .empty s)) ∧
      (∀ run, s.mgmt.cfgBusy = some run → run.scope = 0 → ∃ t, exec (.regWrite r 0x0F0 8 value) s = .next t ∧ t.staged = s.staged ∧
        t.mgmt.heldWrites = s.mgmt.heldWrites ++ [(r, 0x0F0, 8, value)])) ∧
    (exec (.prtWdogKick r) s = .next (if r = .service then { s with mgmt := { s.mgmt with kickedAt := s.now } } else denyReg r s)) ∧
    (∀ n, (8 ≤ n → exec (.poolLateWbClear r n) s = .next s) ∧ (n < 8 → r ≠ .fn 0 → exec (.poolLateWbClear r n) s = .next (denyReg r s)) ∧
      (n < 8 → r = .fn 0 → ∃ t, exec (.poolLateWbClear r n) s = .next t ∧ (t.chan n).pool.lateWb = 0 ∧
        (t.chan n).mem = (s.chan n).mem ∧ (∀ k, k ≠ n → t.chan k = s.chan k) ∧ t.regs = s.regs)) ∧
    (∀ m, (r ≠ .fn 0 → r ≠ .bmc → exec (.alertStatusClear r m) s = .next (denyReg r s)) ∧
      (r = .fn 0 ∨ r = .bmc → ∃ t, exec (.alertStatusClear r m) s = .next t ∧ t.power.alert = s.power.alert &&& ~~~m ∧ t.chans = s.chans))

/-- Power, clocks and temperature (R501, R502, R505, R509, R514 to R518, R521): the loss of the PLL's lock, a rail fault or a regulator's
fault takes the device offline, and so does a first reading that differs by more than 3% from a setpoint commanded 1 ms before (log entry 83); a regulator's
reading is kept with its warning, which is then measured; the setpoint moves by 5 mV within 0.60 to 0.80 V, at most
once per 50 µs, as one command; the thermal duty falls by one at or above the throttle point and rises by one below it less 2 °C; the power
controller's duty, free (log entry 3), is from 8 to 64; the board's controller reads the register that it addressed. -/
def Obligations.PowerIsWatchedAndLimited : Prop :=
  ∀ (s : State), s.up = true →
    (exec .pllLockLoss s = .next { s with power := { s.power with pllLock := false, offline := true, faultN := false } }) ∧
    (∀ rail, exec (.railFault rail) s = .next { s with power := { s.power with offline := true, faultN := false } }) ∧
    (∀ rs, exec (.pmbusPoll rs) s = .next (((List.range 9).zip rs).foldl pollRail s) ∧ exec (.smb1AlertN rs) s = exec (.pmbusPoll rs) s ∧
      ((∀ k < 9, railAddr k s = 0) → exec (.pmbusPoll rs) s = .next s)) ∧
    (∀ x : RailReading, railAddr 0 s ≠ 0 → s.power.avsPending = true → (∃ t0, s.power.avsAt = some t0 ∧ t0 + 1000000 ≤ s.now) →
      3 * s.power.avsMv < 100 * ((x.millivolts - s.power.avsMv) + (s.power.avsMv - x.millivolts)) → (pollRail s (0, x)).up = false) ∧
    (∀ k x, k < 9 → railAddr k s ≠ 0 →
      (k ≠ 0 ∨ s.power.avsPending = false ∨ ∃ t0, s.power.avsAt = some t0 ∧ s.now < t0 + 1000000) → ∃ u,
      let v := warnMeasure 4 k (if x.warning then 1 else 0) u
      pollRail s (k, x) = (if x.fault then goOffline v else v) ∧ (goOffline v).up = false ∧ u.power.railMw.getD k 0 = x.milliwatts ∧
      u.power.regWarning = (if x.warning then k :: s.power.regWarning.erase k else s.power.regWarning.erase k) ∧
      (x.warning = true → u.power.alert.getLsbD 3 = true) ∧ u.chans = s.chans ∧ u.regs = s.regs) ∧
    (∀ pass, (railAddr 0 s ≠ 0 → (∀ t0, s.power.avsAt = some t0 → t0 + 50000 ≤ s.now) → avsNext pass s.power.avsMv ≠ s.power.avsMv →
        exec (.avsAdjust pass) s = .next (({ s with power := { s.power with
          avsMv := avsNext pass s.power.avsMv, avsAt := some s.now, avsPending := true } }).emit (.pmbus 0 (avsNext pass s.power.avsMv)))) ∧
      (∀ t0, s.power.avsAt = some t0 → s.now < t0 + 50000 → exec (.avsAdjust pass) s = .next s) ∧
      (600 ≤ s.power.avsMv → s.power.avsMv ≤ 800 → 600 ≤ avsNext pass s.power.avsMv ∧ avsNext pass s.power.avsMv ≤ 800)) ∧
    (∀ temps, let h := hottest temps
      ∃ u, exec (.thermalSample temps) s = .next (warnMeasure 3 h.1 ((105000 - h.2) / 1000).toNat u) ∧ u.power.temps = temps ∧
      (thermThrottle s ≤ h.2 → u.power.dutyTherm = s.power.dutyTherm - 1) ∧
      (h.2 < thermThrottle s - 2000 → u.power.dutyTherm = min 64 (s.power.dutyTherm + 1)) ∧
      (thermThrottle s - 2000 ≤ h.2 → h.2 < thermThrottle s → u.power.dutyTherm = s.power.dutyTherm) ∧
      (temps ≠ [] → thermAlert s ≤ h.2 → u.power.alert.getLsbD 0 = true) ∧ u.regs = s.regs ∧ u.chans = s.chans) ∧
    (∀ mw, ∃ t, exec (.powerControl mw) s = .next t ∧ 8 ≤ t.power.dutyPower ∧ t.power.dutyPower ≤ 64 ∧
      t.power.dutyTherm = s.power.dutyTherm ∧ t.power.powerHist.head? = some (mw + (s.power.railMw.drop 1).sum) ∧ t.chans = s.chans) ∧
    (∀ a, exec (.bmcBlockWrite a none) s = .next { s with power := { s.power with bmcAddr := a } }) ∧
    (∀ v : BitVec 32, ∃ t, exec (.bmcBlockWrite 0x30040 (some v)) s = .next t ∧ t.power.alert = s.power.alert &&& ~~~(v.setWidth 6) ∧
      t.power.bmcAddr = 0x30040 ∧ t.regs = s.regs ∧ t.chans = s.chans) ∧
    (exec .bmcBlockRead s = .next (s.emit (.bmc (if readPermitted .bmc s.power.bmcAddr s then (readReg .bmc s.power.bmcAddr 4 s).2 else 0)))) ∧
    (s.power.bmcAddr < 0x10000 ∨ 0x40000 ≤ s.power.bmcAddr → exec .bmcBlockRead s = .next (s.emit (.bmc 0)))
end

