-- ==== Sys2Proof/Laws/State.lean ====
section
/-! SUPPORT. The fields of the state under each of its updates: every field but the one an update names is as before; and the parts
of the state as the update of the same and of another part leaves them. -/

namespace Sys2Proof.Machine

open Sys2Proof

/-! ### Tables -/

/-- An entry just set is read back. -/
@[simp] theorem tget_tset_same {α : Type} (k : Nat) (v : α) (t : Tbl α) : tget k (tset k v t) = some v := by
  induction t with
  | nil => simp [tset, tget]
  | cons e r ih =>
    obtain ⟨j, w⟩ := e
    simp only [tset]
    split
    · simp [tget]
    · split
      · simp [tget]
      · rename_i h1 h2
        simp [tget, Ne.symm h2, ih]

/-- Setting an entry leaves the others. -/
theorem tget_tset_other {α : Type} (k j : Nat) (v : α) (t : Tbl α) (h : j ≠ k) : tget j (tset k v t) = tget j t := by
  induction t with
  | nil => simp [tset, tget, Ne.symm h]
  | cons e r ih =>
    obtain ⟨i, w⟩ := e
    simp only [tset]
    split
    · simp [tget, Ne.symm h]
    · split
      · rename_i h1 h2
        subst h2
        simp [tget, Ne.symm h]
      · simp [tget, ih]

/-! ### Fields -/

@[simp] theorem State.setRing_pending (s : State) (n : Nat) (x : Ring) : (s.setRing n x).pending = s.pending := rfl
@[simp] theorem State.setRing_out (s : State) (n : Nat) (x : Ring) : (s.setRing n x).out = s.out := rfl
@[simp] theorem State.setRing_freeIx (s : State) (n : Nat) (x : Ring) : (s.setRing n x).freeIx = s.freeIx := rfl
@[simp] theorem State.setRing_now (s : State) (n : Nat) (x : Ring) : (s.setRing n x).now = s.now := rfl
@[simp] theorem State.setRing_power (s : State) (n : Nat) (x : Ring) : (s.setRing n x).power = s.power := rfl
@[simp] theorem State.setRing_encl (s : State) (n : Nat) (x : Ring) : (s.setRing n x).encl = s.encl := rfl
@[simp] theorem State.setRing_mgmt (s : State) (n : Nat) (x : Ring) : (s.setRing n x).mgmt = s.mgmt := rfl
@[simp] theorem State.setRing_mirrorDev (s : State) (n : Nat) (x : Ring) : (s.setRing n x).mirrorDev = s.mirrorDev := rfl
@[simp] theorem State.setRing_regs (s : State) (n : Nat) (x : Ring) : (s.setRing n x).regs = s.regs := rfl
@[simp] theorem State.setRing_staged (s : State) (n : Nat) (x : Ring) : (s.setRing n x).staged = s.staged := rfl
@[simp] theorem State.setRing_locks (s : State) (n : Nat) (x : Ring) : (s.setRing n x).locks = s.locks := rfl
@[simp] theorem State.setRing_sel (s : State) (n : Nat) (x : Ring) : (s.setRing n x).sel = s.sel := rfl
@[simp] theorem State.setRing_fns (s : State) (n : Nat) (x : Ring) : (s.setRing n x).fns = s.fns := rfl
@[simp] theorem State.setRing_ops (s : State) (n : Nat) (x : Ring) : (s.setRing n x).ops = s.ops := rfl
@[simp] theorem State.setRing_flows (s : State) (n : Nat) (x : Ring) : (s.setRing n x).flows = s.flows := rfl
@[simp] theorem State.setRing_stagedFlows (s : State) (n : Nat) (x : Ring) : (s.setRing n x).stagedFlows = s.stagedFlows := rfl
@[simp] theorem State.setRing_pairs (s : State) (n : Nat) (x : Ring) : (s.setRing n x).pairs = s.pairs := rfl
@[simp] theorem State.setRing_shapers (s : State) (n : Nat) (x : Ring) : (s.setRing n x).shapers = s.shapers := rfl
@[simp] theorem State.setRing_foreign (s : State) (n : Nat) (x : Ring) : (s.setRing n x).foreign = s.foreign := rfl
@[simp] theorem State.setRing_gates (s : State) (n : Nat) (x : Ring) : (s.setRing n x).gates = s.gates := rfl
@[simp] theorem State.setRing_comps (s : State) (n : Nat) (x : Ring) : (s.setRing n x).comps = s.comps := rfl
@[simp] theorem State.setRing_profiles (s : State) (n : Nat) (x : Ring) : (s.setRing n x).profiles = s.profiles := rfl
@[simp] theorem State.setRing_chans (s : State) (n : Nat) (x : Ring) : (s.setRing n x).chans = s.chans := rfl
@[simp] theorem State.setRing_parts (s : State) (n : Nat) (x : Ring) : (s.setRing n x).parts = s.parts := rfl
@[simp] theorem State.setRing_xtsGen (s : State) (n : Nat) (x : Ring) : (s.setRing n x).xtsGen = s.xtsGen := rfl
@[simp] theorem State.setRing_peers (s : State) (n : Nat) (x : Ring) : (s.setRing n x).peers = s.peers := rfl
@[simp] theorem State.setRing_ports (s : State) (n : Nat) (x : Ring) : (s.setRing n x).ports = s.ports := rfl
@[simp] theorem State.setRing_lanes (s : State) (n : Nat) (x : Ring) : (s.setRing n x).lanes = s.lanes := rfl
@[simp] theorem State.setRing_reqs (s : State) (n : Nat) (x : Ring) : (s.setRing n x).reqs = s.reqs := rfl
@[simp] theorem State.setRing_reqWait (s : State) (n : Nat) (x : Ring) : (s.setRing n x).reqWait = s.reqWait := rfl
@[simp] theorem State.setRing_loads (s : State) (n : Nat) (x : Ring) : (s.setRing n x).loads = s.loads := rfl
@[simp] theorem State.setRing_nextLoad (s : State) (n : Nat) (x : Ring) : (s.setRing n x).nextLoad = s.nextLoad := rfl
@[simp] theorem State.setRing_monitors (s : State) (n : Nat) (x : Ring) : (s.setRing n x).monitors = s.monitors := rfl

@[simp] theorem State.setFn_pending (s : State) (n : Nat) (x : Fn) : (s.setFn n x).pending = s.pending := rfl
@[simp] theorem State.setFn_out (s : State) (n : Nat) (x : Fn) : (s.setFn n x).out = s.out := rfl
@[simp] theorem State.setFn_freeIx (s : State) (n : Nat) (x : Fn) : (s.setFn n x).freeIx = s.freeIx := rfl
@[simp] theorem State.setFn_now (s : State) (n : Nat) (x : Fn) : (s.setFn n x).now = s.now := rfl
@[simp] theorem State.setFn_power (s : State) (n : Nat) (x : Fn) : (s.setFn n x).power = s.power := rfl
@[simp] theorem State.setFn_encl (s : State) (n : Nat) (x : Fn) : (s.setFn n x).encl = s.encl := rfl
@[simp] theorem State.setFn_mgmt (s : State) (n : Nat) (x : Fn) : (s.setFn n x).mgmt = s.mgmt := rfl
@[simp] theorem State.setFn_mirrorDev (s : State) (n : Nat) (x : Fn) : (s.setFn n x).mirrorDev = s.mirrorDev := rfl
@[simp] theorem State.setFn_regs (s : State) (n : Nat) (x : Fn) : (s.setFn n x).regs = s.regs := rfl
@[simp] theorem State.setFn_staged (s : State) (n : Nat) (x : Fn) : (s.setFn n x).staged = s.staged := rfl
@[simp] theorem State.setFn_locks (s : State) (n : Nat) (x : Fn) : (s.setFn n x).locks = s.locks := rfl
@[simp] theorem State.setFn_sel (s : State) (n : Nat) (x : Fn) : (s.setFn n x).sel = s.sel := rfl
@[simp] theorem State.setFn_rings (s : State) (n : Nat) (x : Fn) : (s.setFn n x).rings = s.rings := rfl
@[simp] theorem State.setFn_ops (s : State) (n : Nat) (x : Fn) : (s.setFn n x).ops = s.ops := rfl
@[simp] theorem State.setFn_flows (s : State) (n : Nat) (x : Fn) : (s.setFn n x).flows = s.flows := rfl
@[simp] theorem State.setFn_stagedFlows (s : State) (n : Nat) (x : Fn) : (s.setFn n x).stagedFlows = s.stagedFlows := rfl
@[simp] theorem State.setFn_pairs (s : State) (n : Nat) (x : Fn) : (s.setFn n x).pairs = s.pairs := rfl
@[simp] theorem State.setFn_shapers (s : State) (n : Nat) (x : Fn) : (s.setFn n x).shapers = s.shapers := rfl
@[simp] theorem State.setFn_foreign (s : State) (n : Nat) (x : Fn) : (s.setFn n x).foreign = s.foreign := rfl
@[simp] theorem State.setFn_gates (s : State) (n : Nat) (x : Fn) : (s.setFn n x).gates = s.gates := rfl
@[simp] theorem State.setFn_comps (s : State) (n : Nat) (x : Fn) : (s.setFn n x).comps = s.comps := rfl
@[simp] theorem State.setFn_profiles (s : State) (n : Nat) (x : Fn) : (s.setFn n x).profiles = s.profiles := rfl
@[simp] theorem State.setFn_chans (s : State) (n : Nat) (x : Fn) : (s.setFn n x).chans = s.chans := rfl
@[simp] theorem State.setFn_parts (s : State) (n : Nat) (x : Fn) : (s.setFn n x).parts = s.parts := rfl
@[simp] theorem State.setFn_xtsGen (s : State) (n : Nat) (x : Fn) : (s.setFn n x).xtsGen = s.xtsGen := rfl
@[simp] theorem State.setFn_peers (s : State) (n : Nat) (x : Fn) : (s.setFn n x).peers = s.peers := rfl
@[simp] theorem State.setFn_ports (s : State) (n : Nat) (x : Fn) : (s.setFn n x).ports = s.ports := rfl
@[simp] theorem State.setFn_lanes (s : State) (n : Nat) (x : Fn) : (s.setFn n x).lanes = s.lanes := rfl
@[simp] theorem State.setFn_reqs (s : State) (n : Nat) (x : Fn) : (s.setFn n x).reqs = s.reqs := rfl
@[simp] theorem State.setFn_reqWait (s : State) (n : Nat) (x : Fn) : (s.setFn n x).reqWait = s.reqWait := rfl
@[simp] theorem State.setFn_loads (s : State) (n : Nat) (x : Fn) : (s.setFn n x).loads = s.loads := rfl
@[simp] theorem State.setFn_nextLoad (s : State) (n : Nat) (x : Fn) : (s.setFn n x).nextLoad = s.nextLoad := rfl
@[simp] theorem State.setFn_monitors (s : State) (n : Nat) (x : Fn) : (s.setFn n x).monitors = s.monitors := rfl

@[simp] theorem State.setChan_pending (s : State) (n : Nat) (x : Chan) : (s.setChan n x).pending = s.pending := rfl
@[simp] theorem State.setChan_out (s : State) (n : Nat) (x : Chan) : (s.setChan n x).out = s.out := rfl
@[simp] theorem State.setChan_freeIx (s : State) (n : Nat) (x : Chan) : (s.setChan n x).freeIx = s.freeIx := rfl
@[simp] theorem State.setChan_now (s : State) (n : Nat) (x : Chan) : (s.setChan n x).now = s.now := rfl
@[simp] theorem State.setChan_power (s : State) (n : Nat) (x : Chan) : (s.setChan n x).power = s.power := rfl
@[simp] theorem State.setChan_encl (s : State) (n : Nat) (x : Chan) : (s.setChan n x).encl = s.encl := rfl
@[simp] theorem State.setChan_mgmt (s : State) (n : Nat) (x : Chan) : (s.setChan n x).mgmt = s.mgmt := rfl
@[simp] theorem State.setChan_mirrorDev (s : State) (n : Nat) (x : Chan) : (s.setChan n x).mirrorDev = s.mirrorDev := rfl
@[simp] theorem State.setChan_regs (s : State) (n : Nat) (x : Chan) : (s.setChan n x).regs = s.regs := rfl
@[simp] theorem State.setChan_staged (s : State) (n : Nat) (x : Chan) : (s.setChan n x).staged = s.staged := rfl
@[simp] theorem State.setChan_locks (s : State) (n : Nat) (x : Chan) : (s.setChan n x).locks = s.locks := rfl
@[simp] theorem State.setChan_sel (s : State) (n : Nat) (x : Chan) : (s.setChan n x).sel = s.sel := rfl
@[simp] theorem State.setChan_rings (s : State) (n : Nat) (x : Chan) : (s.setChan n x).rings = s.rings := rfl
@[simp] theorem State.setChan_fns (s : State) (n : Nat) (x : Chan) : (s.setChan n x).fns = s.fns := rfl
@[simp] theorem State.setChan_ops (s : State) (n : Nat) (x : Chan) : (s.setChan n x).ops = s.ops := rfl
@[simp] theorem State.setChan_flows (s : State) (n : Nat) (x : Chan) : (s.setChan n x).flows = s.flows := rfl
@[simp] theorem State.setChan_stagedFlows (s : State) (n : Nat) (x : Chan) : (s.setChan n x).stagedFlows = s.stagedFlows := rfl
@[simp] theorem State.setChan_pairs (s : State) (n : Nat) (x : Chan) : (s.setChan n x).pairs = s.pairs := rfl
@[simp] theorem State.setChan_shapers (s : State) (n : Nat) (x : Chan) : (s.setChan n x).shapers = s.shapers := rfl
@[simp] theorem State.setChan_foreign (s : State) (n : Nat) (x : Chan) : (s.setChan n x).foreign = s.foreign := rfl
@[simp] theorem State.setChan_gates (s : State) (n : Nat) (x : Chan) : (s.setChan n x).gates = s.gates := rfl
@[simp] theorem State.setChan_comps (s : State) (n : Nat) (x : Chan) : (s.setChan n x).comps = s.comps := rfl
@[simp] theorem State.setChan_profiles (s : State) (n : Nat) (x : Chan) : (s.setChan n x).profiles = s.profiles := rfl
@[simp] theorem State.setChan_parts (s : State) (n : Nat) (x : Chan) : (s.setChan n x).parts = s.parts := rfl
@[simp] theorem State.setChan_xtsGen (s : State) (n : Nat) (x : Chan) : (s.setChan n x).xtsGen = s.xtsGen := rfl
@[simp] theorem State.setChan_peers (s : State) (n : Nat) (x : Chan) : (s.setChan n x).peers = s.peers := rfl
@[simp] theorem State.setChan_ports (s : State) (n : Nat) (x : Chan) : (s.setChan n x).ports = s.ports := rfl
@[simp] theorem State.setChan_lanes (s : State) (n : Nat) (x : Chan) : (s.setChan n x).lanes = s.lanes := rfl
@[simp] theorem State.setChan_reqs (s : State) (n : Nat) (x : Chan) : (s.setChan n x).reqs = s.reqs := rfl
@[simp] theorem State.setChan_reqWait (s : State) (n : Nat) (x : Chan) : (s.setChan n x).reqWait = s.reqWait := rfl
@[simp] theorem State.setChan_loads (s : State) (n : Nat) (x : Chan) : (s.setChan n x).loads = s.loads := rfl
@[simp] theorem State.setChan_nextLoad (s : State) (n : Nat) (x : Chan) : (s.setChan n x).nextLoad = s.nextLoad := rfl
@[simp] theorem State.setChan_monitors (s : State) (n : Nat) (x : Chan) : (s.setChan n x).monitors = s.monitors := rfl

@[simp] theorem State.setPort_pending (s : State) (n : Nat) (x : Port) : (s.setPort n x).pending = s.pending := rfl
@[simp] theorem State.setPort_out (s : State) (n : Nat) (x : Port) : (s.setPort n x).out = s.out := rfl
@[simp] theorem State.setPort_freeIx (s : State) (n : Nat) (x : Port) : (s.setPort n x).freeIx = s.freeIx := rfl
@[simp] theorem State.setPort_now (s : State) (n : Nat) (x : Port) : (s.setPort n x).now = s.now := rfl
@[simp] theorem State.setPort_power (s : State) (n : Nat) (x : Port) : (s.setPort n x).power = s.power := rfl
@[simp] theorem State.setPort_encl (s : State) (n : Nat) (x : Port) : (s.setPort n x).encl = s.encl := rfl
@[simp] theorem State.setPort_mgmt (s : State) (n : Nat) (x : Port) : (s.setPort n x).mgmt = s.mgmt := rfl
@[simp] theorem State.setPort_mirrorDev (s : State) (n : Nat) (x : Port) : (s.setPort n x).mirrorDev = s.mirrorDev := rfl
@[simp] theorem State.setPort_regs (s : State) (n : Nat) (x : Port) : (s.setPort n x).regs = s.regs := rfl
@[simp] theorem State.setPort_staged (s : State) (n : Nat) (x : Port) : (s.setPort n x).staged = s.staged := rfl
@[simp] theorem State.setPort_locks (s : State) (n : Nat) (x : Port) : (s.setPort n x).locks = s.locks := rfl
@[simp] theorem State.setPort_sel (s : State) (n : Nat) (x : Port) : (s.setPort n x).sel = s.sel := rfl
@[simp] theorem State.setPort_rings (s : State) (n : Nat) (x : Port) : (s.setPort n x).rings = s.rings := rfl
@[simp] theorem State.setPort_fns (s : State) (n : Nat) (x : Port) : (s.setPort n x).fns = s.fns := rfl
@[simp] theorem State.setPort_ops (s : State) (n : Nat) (x : Port) : (s.setPort n x).ops = s.ops := rfl
@[simp] theorem State.setPort_flows (s : State) (n : Nat) (x : Port) : (s.setPort n x).flows = s.flows := rfl
@[simp] theorem State.setPort_stagedFlows (s : State) (n : Nat) (x : Port) : (s.setPort n x).stagedFlows = s.stagedFlows := rfl
@[simp] theorem State.setPort_pairs (s : State) (n : Nat) (x : Port) : (s.setPort n x).pairs = s.pairs := rfl
@[simp] theorem State.setPort_shapers (s : State) (n : Nat) (x : Port) : (s.setPort n x).shapers = s.shapers := rfl
@[simp] theorem State.setPort_foreign (s : State) (n : Nat) (x : Port) : (s.setPort n x).foreign = s.foreign := rfl
@[simp] theorem State.setPort_gates (s : State) (n : Nat) (x : Port) : (s.setPort n x).gates = s.gates := rfl
@[simp] theorem State.setPort_comps (s : State) (n : Nat) (x : Port) : (s.setPort n x).comps = s.comps := rfl
@[simp] theorem State.setPort_profiles (s : State) (n : Nat) (x : Port) : (s.setPort n x).profiles = s.profiles := rfl
@[simp] theorem State.setPort_chans (s : State) (n : Nat) (x : Port) : (s.setPort n x).chans = s.chans := rfl
@[simp] theorem State.setPort_parts (s : State) (n : Nat) (x : Port) : (s.setPort n x).parts = s.parts := rfl
@[simp] theorem State.setPort_xtsGen (s : State) (n : Nat) (x : Port) : (s.setPort n x).xtsGen = s.xtsGen := rfl
@[simp] theorem State.setPort_peers (s : State) (n : Nat) (x : Port) : (s.setPort n x).peers = s.peers := rfl
@[simp] theorem State.setPort_lanes (s : State) (n : Nat) (x : Port) : (s.setPort n x).lanes = s.lanes := rfl
@[simp] theorem State.setPort_reqs (s : State) (n : Nat) (x : Port) : (s.setPort n x).reqs = s.reqs := rfl
@[simp] theorem State.setPort_reqWait (s : State) (n : Nat) (x : Port) : (s.setPort n x).reqWait = s.reqWait := rfl
@[simp] theorem State.setPort_loads (s : State) (n : Nat) (x : Port) : (s.setPort n x).loads = s.loads := rfl
@[simp] theorem State.setPort_nextLoad (s : State) (n : Nat) (x : Port) : (s.setPort n x).nextLoad = s.nextLoad := rfl
@[simp] theorem State.setPort_monitors (s : State) (n : Nat) (x : Port) : (s.setPort n x).monitors = s.monitors := rfl

@[simp] theorem State.setLane_pending (s : State) (n : Nat) (x : Lane) : (s.setLane n x).pending = s.pending := rfl
@[simp] theorem State.setLane_out (s : State) (n : Nat) (x : Lane) : (s.setLane n x).out = s.out := rfl
@[simp] theorem State.setLane_freeIx (s : State) (n : Nat) (x : Lane) : (s.setLane n x).freeIx = s.freeIx := rfl
@[simp] theorem State.setLane_now (s : State) (n : Nat) (x : Lane) : (s.setLane n x).now = s.now := rfl
@[simp] theorem State.setLane_power (s : State) (n : Nat) (x : Lane) : (s.setLane n x).power = s.power := rfl
@[simp] theorem State.setLane_encl (s : State) (n : Nat) (x : Lane) : (s.setLane n x).encl = s.encl := rfl
@[simp] theorem State.setLane_mgmt (s : State) (n : Nat) (x : Lane) : (s.setLane n x).mgmt = s.mgmt := rfl
@[simp] theorem State.setLane_mirrorDev (s : State) (n : Nat) (x : Lane) : (s.setLane n x).mirrorDev = s.mirrorDev := rfl
@[simp] theorem State.setLane_regs (s : State) (n : Nat) (x : Lane) : (s.setLane n x).regs = s.regs := rfl
@[simp] theorem State.setLane_staged (s : State) (n : Nat) (x : Lane) : (s.setLane n x).staged = s.staged := rfl
@[simp] theorem State.setLane_locks (s : State) (n : Nat) (x : Lane) : (s.setLane n x).locks = s.locks := rfl
@[simp] theorem State.setLane_sel (s : State) (n : Nat) (x : Lane) : (s.setLane n x).sel = s.sel := rfl
@[simp] theorem State.setLane_rings (s : State) (n : Nat) (x : Lane) : (s.setLane n x).rings = s.rings := rfl
@[simp] theorem State.setLane_fns (s : State) (n : Nat) (x : Lane) : (s.setLane n x).fns = s.fns := rfl
@[simp] theorem State.setLane_ops (s : State) (n : Nat) (x : Lane) : (s.setLane n x).ops = s.ops := rfl
@[simp] theorem State.setLane_flows (s : State) (n : Nat) (x : Lane) : (s.setLane n x).flows = s.flows := rfl
@[simp] theorem State.setLane_stagedFlows (s : State) (n : Nat) (x : Lane) : (s.setLane n x).stagedFlows = s.stagedFlows := rfl
@[simp] theorem State.setLane_pairs (s : State) (n : Nat) (x : Lane) : (s.setLane n x).pairs = s.pairs := rfl
@[simp] theorem State.setLane_shapers (s : State) (n : Nat) (x : Lane) : (s.setLane n x).shapers = s.shapers := rfl
@[simp] theorem State.setLane_foreign (s : State) (n : Nat) (x : Lane) : (s.setLane n x).foreign = s.foreign := rfl
@[simp] theorem State.setLane_gates (s : State) (n : Nat) (x : Lane) : (s.setLane n x).gates = s.gates := rfl
@[simp] theorem State.setLane_comps (s : State) (n : Nat) (x : Lane) : (s.setLane n x).comps = s.comps := rfl
@[simp] theorem State.setLane_profiles (s : State) (n : Nat) (x : Lane) : (s.setLane n x).profiles = s.profiles := rfl
@[simp] theorem State.setLane_chans (s : State) (n : Nat) (x : Lane) : (s.setLane n x).chans = s.chans := rfl
@[simp] theorem State.setLane_parts (s : State) (n : Nat) (x : Lane) : (s.setLane n x).parts = s.parts := rfl
@[simp] theorem State.setLane_xtsGen (s : State) (n : Nat) (x : Lane) : (s.setLane n x).xtsGen = s.xtsGen := rfl
@[simp] theorem State.setLane_peers (s : State) (n : Nat) (x : Lane) : (s.setLane n x).peers = s.peers := rfl
@[simp] theorem State.setLane_ports (s : State) (n : Nat) (x : Lane) : (s.setLane n x).ports = s.ports := rfl
@[simp] theorem State.setLane_reqs (s : State) (n : Nat) (x : Lane) : (s.setLane n x).reqs = s.reqs := rfl
@[simp] theorem State.setLane_reqWait (s : State) (n : Nat) (x : Lane) : (s.setLane n x).reqWait = s.reqWait := rfl
@[simp] theorem State.setLane_loads (s : State) (n : Nat) (x : Lane) : (s.setLane n x).loads = s.loads := rfl
@[simp] theorem State.setLane_nextLoad (s : State) (n : Nat) (x : Lane) : (s.setLane n x).nextLoad = s.nextLoad := rfl
@[simp] theorem State.setLane_monitors (s : State) (n : Nat) (x : Lane) : (s.setLane n x).monitors = s.monitors := rfl

@[simp] theorem State.setPeer_pending (s : State) (n : Nat) (x : Peer) : (s.setPeer n x).pending = s.pending := rfl
@[simp] theorem State.setPeer_out (s : State) (n : Nat) (x : Peer) : (s.setPeer n x).out = s.out := rfl
@[simp] theorem State.setPeer_freeIx (s : State) (n : Nat) (x : Peer) : (s.setPeer n x).freeIx = s.freeIx := rfl
@[simp] theorem State.setPeer_now (s : State) (n : Nat) (x : Peer) : (s.setPeer n x).now = s.now := rfl
@[simp] theorem State.setPeer_power (s : State) (n : Nat) (x : Peer) : (s.setPeer n x).power = s.power := rfl
@[simp] theorem State.setPeer_encl (s : State) (n : Nat) (x : Peer) : (s.setPeer n x).encl = s.encl := rfl
@[simp] theorem State.setPeer_mgmt (s : State) (n : Nat) (x : Peer) : (s.setPeer n x).mgmt = s.mgmt := rfl
@[simp] theorem State.setPeer_mirrorDev (s : State) (n : Nat) (x : Peer) : (s.setPeer n x).mirrorDev = s.mirrorDev := rfl
@[simp] theorem State.setPeer_regs (s : State) (n : Nat) (x : Peer) : (s.setPeer n x).regs = s.regs := rfl
@[simp] theorem State.setPeer_staged (s : State) (n : Nat) (x : Peer) : (s.setPeer n x).staged = s.staged := rfl
@[simp] theorem State.setPeer_locks (s : State) (n : Nat) (x : Peer) : (s.setPeer n x).locks = s.locks := rfl
@[simp] theorem State.setPeer_sel (s : State) (n : Nat) (x : Peer) : (s.setPeer n x).sel = s.sel := rfl
@[simp] theorem State.setPeer_rings (s : State) (n : Nat) (x : Peer) : (s.setPeer n x).rings = s.rings := rfl
@[simp] theorem State.setPeer_fns (s : State) (n : Nat) (x : Peer) : (s.setPeer n x).fns = s.fns := rfl
@[simp] theorem State.setPeer_ops (s : State) (n : Nat) (x : Peer) : (s.setPeer n x).ops = s.ops := rfl
@[simp] theorem State.setPeer_flows (s : State) (n : Nat) (x : Peer) : (s.setPeer n x).flows = s.flows := rfl
@[simp] theorem State.setPeer_stagedFlows (s : State) (n : Nat) (x : Peer) : (s.setPeer n x).stagedFlows = s.stagedFlows := rfl
@[simp] theorem State.setPeer_pairs (s : State) (n : Nat) (x : Peer) : (s.setPeer n x).pairs = s.pairs := rfl
@[simp] theorem State.setPeer_shapers (s : State) (n : Nat) (x : Peer) : (s.setPeer n x).shapers = s.shapers := rfl
@[simp] theorem State.setPeer_foreign (s : State) (n : Nat) (x : Peer) : (s.setPeer n x).foreign = s.foreign := rfl
@[simp] theorem State.setPeer_gates (s : State) (n : Nat) (x : Peer) : (s.setPeer n x).gates = s.gates := rfl
@[simp] theorem State.setPeer_comps (s : State) (n : Nat) (x : Peer) : (s.setPeer n x).comps = s.comps := rfl
@[simp] theorem State.setPeer_profiles (s : State) (n : Nat) (x : Peer) : (s.setPeer n x).profiles = s.profiles := rfl
@[simp] theorem State.setPeer_chans (s : State) (n : Nat) (x : Peer) : (s.setPeer n x).chans = s.chans := rfl
@[simp] theorem State.setPeer_parts (s : State) (n : Nat) (x : Peer) : (s.setPeer n x).parts = s.parts := rfl
@[simp] theorem State.setPeer_xtsGen (s : State) (n : Nat) (x : Peer) : (s.setPeer n x).xtsGen = s.xtsGen := rfl
@[simp] theorem State.setPeer_ports (s : State) (n : Nat) (x : Peer) : (s.setPeer n x).ports = s.ports := rfl
@[simp] theorem State.setPeer_lanes (s : State) (n : Nat) (x : Peer) : (s.setPeer n x).lanes = s.lanes := rfl
@[simp] theorem State.setPeer_reqs (s : State) (n : Nat) (x : Peer) : (s.setPeer n x).reqs = s.reqs := rfl
@[simp] theorem State.setPeer_reqWait (s : State) (n : Nat) (x : Peer) : (s.setPeer n x).reqWait = s.reqWait := rfl
@[simp] theorem State.setPeer_loads (s : State) (n : Nat) (x : Peer) : (s.setPeer n x).loads = s.loads := rfl
@[simp] theorem State.setPeer_nextLoad (s : State) (n : Nat) (x : Peer) : (s.setPeer n x).nextLoad = s.nextLoad := rfl
@[simp] theorem State.setPeer_monitors (s : State) (n : Nat) (x : Peer) : (s.setPeer n x).monitors = s.monitors := rfl

@[simp] theorem State.setPart_pending (s : State) (n : Nat) (x : Partition) : (s.setPart n x).pending = s.pending := rfl
@[simp] theorem State.setPart_out (s : State) (n : Nat) (x : Partition) : (s.setPart n x).out = s.out := rfl
@[simp] theorem State.setPart_freeIx (s : State) (n : Nat) (x : Partition) : (s.setPart n x).freeIx = s.freeIx := rfl
@[simp] theorem State.setPart_now (s : State) (n : Nat) (x : Partition) : (s.setPart n x).now = s.now := rfl
@[simp] theorem State.setPart_power (s : State) (n : Nat) (x : Partition) : (s.setPart n x).power = s.power := rfl
@[simp] theorem State.setPart_encl (s : State) (n : Nat) (x : Partition) : (s.setPart n x).encl = s.encl := rfl
@[simp] theorem State.setPart_mgmt (s : State) (n : Nat) (x : Partition) : (s.setPart n x).mgmt = s.mgmt := rfl
@[simp] theorem State.setPart_mirrorDev (s : State) (n : Nat) (x : Partition) : (s.setPart n x).mirrorDev = s.mirrorDev := rfl
@[simp] theorem State.setPart_regs (s : State) (n : Nat) (x : Partition) : (s.setPart n x).regs = s.regs := rfl
@[simp] theorem State.setPart_staged (s : State) (n : Nat) (x : Partition) : (s.setPart n x).staged = s.staged := rfl
@[simp] theorem State.setPart_locks (s : State) (n : Nat) (x : Partition) : (s.setPart n x).locks = s.locks := rfl
@[simp] theorem State.setPart_sel (s : State) (n : Nat) (x : Partition) : (s.setPart n x).sel = s.sel := rfl
@[simp] theorem State.setPart_rings (s : State) (n : Nat) (x : Partition) : (s.setPart n x).rings = s.rings := rfl
@[simp] theorem State.setPart_fns (s : State) (n : Nat) (x : Partition) : (s.setPart n x).fns = s.fns := rfl
@[simp] theorem State.setPart_ops (s : State) (n : Nat) (x : Partition) : (s.setPart n x).ops = s.ops := rfl
@[simp] theorem State.setPart_flows (s : State) (n : Nat) (x : Partition) : (s.setPart n x).flows = s.flows := rfl
@[simp] theorem State.setPart_stagedFlows (s : State) (n : Nat) (x : Partition) : (s.setPart n x).stagedFlows = s.stagedFlows := rfl
@[simp] theorem State.setPart_pairs (s : State) (n : Nat) (x : Partition) : (s.setPart n x).pairs = s.pairs := rfl
@[simp] theorem State.setPart_shapers (s : State) (n : Nat) (x : Partition) : (s.setPart n x).shapers = s.shapers := rfl
@[simp] theorem State.setPart_foreign (s : State) (n : Nat) (x : Partition) : (s.setPart n x).foreign = s.foreign := rfl
@[simp] theorem State.setPart_gates (s : State) (n : Nat) (x : Partition) : (s.setPart n x).gates = s.gates := rfl
@[simp] theorem State.setPart_comps (s : State) (n : Nat) (x : Partition) : (s.setPart n x).comps = s.comps := rfl
@[simp] theorem State.setPart_profiles (s : State) (n : Nat) (x : Partition) : (s.setPart n x).profiles = s.profiles := rfl
@[simp] theorem State.setPart_chans (s : State) (n : Nat) (x : Partition) : (s.setPart n x).chans = s.chans := rfl
@[simp] theorem State.setPart_xtsGen (s : State) (n : Nat) (x : Partition) : (s.setPart n x).xtsGen = s.xtsGen := rfl
@[simp] theorem State.setPart_peers (s : State) (n : Nat) (x : Partition) : (s.setPart n x).peers = s.peers := rfl
@[simp] theorem State.setPart_ports (s : State) (n : Nat) (x : Partition) : (s.setPart n x).ports = s.ports := rfl
@[simp] theorem State.setPart_lanes (s : State) (n : Nat) (x : Partition) : (s.setPart n x).lanes = s.lanes := rfl
@[simp] theorem State.setPart_reqs (s : State) (n : Nat) (x : Partition) : (s.setPart n x).reqs = s.reqs := rfl
@[simp] theorem State.setPart_reqWait (s : State) (n : Nat) (x : Partition) : (s.setPart n x).reqWait = s.reqWait := rfl
@[simp] theorem State.setPart_loads (s : State) (n : Nat) (x : Partition) : (s.setPart n x).loads = s.loads := rfl
@[simp] theorem State.setPart_nextLoad (s : State) (n : Nat) (x : Partition) : (s.setPart n x).nextLoad = s.nextLoad := rfl
@[simp] theorem State.setPart_monitors (s : State) (n : Nat) (x : Partition) : (s.setPart n x).monitors = s.monitors := rfl

@[simp] theorem State.setPair_pending (s : State) (n : Nat) (x : Pair) : (s.setPair n x).pending = s.pending := rfl
@[simp] theorem State.setPair_out (s : State) (n : Nat) (x : Pair) : (s.setPair n x).out = s.out := rfl
@[simp] theorem State.setPair_freeIx (s : State) (n : Nat) (x : Pair) : (s.setPair n x).freeIx = s.freeIx := rfl
@[simp] theorem State.setPair_now (s : State) (n : Nat) (x : Pair) : (s.setPair n x).now = s.now := rfl
@[simp] theorem State.setPair_power (s : State) (n : Nat) (x : Pair) : (s.setPair n x).power = s.power := rfl
@[simp] theorem State.setPair_encl (s : State) (n : Nat) (x : Pair) : (s.setPair n x).encl = s.encl := rfl
@[simp] theorem State.setPair_mgmt (s : State) (n : Nat) (x : Pair) : (s.setPair n x).mgmt = s.mgmt := rfl
@[simp] theorem State.setPair_mirrorDev (s : State) (n : Nat) (x : Pair) : (s.setPair n x).mirrorDev = s.mirrorDev := rfl
@[simp] theorem State.setPair_regs (s : State) (n : Nat) (x : Pair) : (s.setPair n x).regs = s.regs := rfl
@[simp] theorem State.setPair_staged (s : State) (n : Nat) (x : Pair) : (s.setPair n x).staged = s.staged := rfl
@[simp] theorem State.setPair_locks (s : State) (n : Nat) (x : Pair) : (s.setPair n x).locks = s.locks := rfl
@[simp] theorem State.setPair_sel (s : State) (n : Nat) (x : Pair) : (s.setPair n x).sel = s.sel := rfl
@[simp] theorem State.setPair_rings (s : State) (n : Nat) (x : Pair) : (s.setPair n x).rings = s.rings := rfl
@[simp] theorem State.setPair_fns (s : State) (n : Nat) (x : Pair) : (s.setPair n x).fns = s.fns := rfl
@[simp] theorem State.setPair_ops (s : State) (n : Nat) (x : Pair) : (s.setPair n x).ops = s.ops := rfl
@[simp] theorem State.setPair_flows (s : State) (n : Nat) (x : Pair) : (s.setPair n x).flows = s.flows := rfl
@[simp] theorem State.setPair_stagedFlows (s : State) (n : Nat) (x : Pair) : (s.setPair n x).stagedFlows = s.stagedFlows := rfl
@[simp] theorem State.setPair_shapers (s : State) (n : Nat) (x : Pair) : (s.setPair n x).shapers = s.shapers := rfl
@[simp] theorem State.setPair_foreign (s : State) (n : Nat) (x : Pair) : (s.setPair n x).foreign = s.foreign := rfl
@[simp] theorem State.setPair_gates (s : State) (n : Nat) (x : Pair) : (s.setPair n x).gates = s.gates := rfl
@[simp] theorem State.setPair_comps (s : State) (n : Nat) (x : Pair) : (s.setPair n x).comps = s.comps := rfl
@[simp] theorem State.setPair_profiles (s : State) (n : Nat) (x : Pair) : (s.setPair n x).profiles = s.profiles := rfl
@[simp] theorem State.setPair_chans (s : State) (n : Nat) (x : Pair) : (s.setPair n x).chans = s.chans := rfl
@[simp] theorem State.setPair_parts (s : State) (n : Nat) (x : Pair) : (s.setPair n x).parts = s.parts := rfl
@[simp] theorem State.setPair_xtsGen (s : State) (n : Nat) (x : Pair) : (s.setPair n x).xtsGen = s.xtsGen := rfl
@[simp] theorem State.setPair_peers (s : State) (n : Nat) (x : Pair) : (s.setPair n x).peers = s.peers := rfl
@[simp] theorem State.setPair_ports (s : State) (n : Nat) (x : Pair) : (s.setPair n x).ports = s.ports := rfl
@[simp] theorem State.setPair_lanes (s : State) (n : Nat) (x : Pair) : (s.setPair n x).lanes = s.lanes := rfl
@[simp] theorem State.setPair_reqs (s : State) (n : Nat) (x : Pair) : (s.setPair n x).reqs = s.reqs := rfl
@[simp] theorem State.setPair_reqWait (s : State) (n : Nat) (x : Pair) : (s.setPair n x).reqWait = s.reqWait := rfl
@[simp] theorem State.setPair_loads (s : State) (n : Nat) (x : Pair) : (s.setPair n x).loads = s.loads := rfl
@[simp] theorem State.setPair_nextLoad (s : State) (n : Nat) (x : Pair) : (s.setPair n x).nextLoad = s.nextLoad := rfl
@[simp] theorem State.setPair_monitors (s : State) (n : Nat) (x : Pair) : (s.setPair n x).monitors = s.monitors := rfl

@[simp] theorem State.setShaper_pending (s : State) (n : Nat) (x : Shaper) : (s.setShaper n x).pending = s.pending := rfl
@[simp] theorem State.setShaper_out (s : State) (n : Nat) (x : Shaper) : (s.setShaper n x).out = s.out := rfl
@[simp] theorem State.setShaper_freeIx (s : State) (n : Nat) (x : Shaper) : (s.setShaper n x).freeIx = s.freeIx := rfl
@[simp] theorem State.setShaper_now (s : State) (n : Nat) (x : Shaper) : (s.setShaper n x).now = s.now := rfl
@[simp] theorem State.setShaper_power (s : State) (n : Nat) (x : Shaper) : (s.setShaper n x).power = s.power := rfl
@[simp] theorem State.setShaper_encl (s : State) (n : Nat) (x : Shaper) : (s.setShaper n x).encl = s.encl := rfl
@[simp] theorem State.setShaper_mgmt (s : State) (n : Nat) (x : Shaper) : (s.setShaper n x).mgmt = s.mgmt := rfl
@[simp] theorem State.setShaper_mirrorDev (s : State) (n : Nat) (x : Shaper) : (s.setShaper n x).mirrorDev = s.mirrorDev := rfl
@[simp] theorem State.setShaper_regs (s : State) (n : Nat) (x : Shaper) : (s.setShaper n x).regs = s.regs := rfl
@[simp] theorem State.setShaper_staged (s : State) (n : Nat) (x : Shaper) : (s.setShaper n x).staged = s.staged := rfl
@[simp] theorem State.setShaper_locks (s : State) (n : Nat) (x : Shaper) : (s.setShaper n x).locks = s.locks := rfl
@[simp] theorem State.setShaper_sel (s : State) (n : Nat) (x : Shaper) : (s.setShaper n x).sel = s.sel := rfl
@[simp] theorem State.setShaper_rings (s : State) (n : Nat) (x : Shaper) : (s.setShaper n x).rings = s.rings := rfl
@[simp] theorem State.setShaper_fns (s : State) (n : Nat) (x : Shaper) : (s.setShaper n x).fns = s.fns := rfl
@[simp] theorem State.setShaper_ops (s : State) (n : Nat) (x : Shaper) : (s.setShaper n x).ops = s.ops := rfl
@[simp] theorem State.setShaper_flows (s : State) (n : Nat) (x : Shaper) : (s.setShaper n x).flows = s.flows := rfl
@[simp] theorem State.setShaper_stagedFlows (s : State) (n : Nat) (x : Shaper) : (s.setShaper n x).stagedFlows = s.stagedFlows := rfl
@[simp] theorem State.setShaper_pairs (s : State) (n : Nat) (x : Shaper) : (s.setShaper n x).pairs = s.pairs := rfl
@[simp] theorem State.setShaper_foreign (s : State) (n : Nat) (x : Shaper) : (s.setShaper n x).foreign = s.foreign := rfl
@[simp] theorem State.setShaper_gates (s : State) (n : Nat) (x : Shaper) : (s.setShaper n x).gates = s.gates := rfl
@[simp] theorem State.setShaper_comps (s : State) (n : Nat) (x : Shaper) : (s.setShaper n x).comps = s.comps := rfl
@[simp] theorem State.setShaper_profiles (s : State) (n : Nat) (x : Shaper) : (s.setShaper n x).profiles = s.profiles := rfl
@[simp] theorem State.setShaper_chans (s : State) (n : Nat) (x : Shaper) : (s.setShaper n x).chans = s.chans := rfl
@[simp] theorem State.setShaper_parts (s : State) (n : Nat) (x : Shaper) : (s.setShaper n x).parts = s.parts := rfl
@[simp] theorem State.setShaper_xtsGen (s : State) (n : Nat) (x : Shaper) : (s.setShaper n x).xtsGen = s.xtsGen := rfl
@[simp] theorem State.setShaper_peers (s : State) (n : Nat) (x : Shaper) : (s.setShaper n x).peers = s.peers := rfl
@[simp] theorem State.setShaper_ports (s : State) (n : Nat) (x : Shaper) : (s.setShaper n x).ports = s.ports := rfl
@[simp] theorem State.setShaper_lanes (s : State) (n : Nat) (x : Shaper) : (s.setShaper n x).lanes = s.lanes := rfl
@[simp] theorem State.setShaper_reqs (s : State) (n : Nat) (x : Shaper) : (s.setShaper n x).reqs = s.reqs := rfl
@[simp] theorem State.setShaper_reqWait (s : State) (n : Nat) (x : Shaper) : (s.setShaper n x).reqWait = s.reqWait := rfl
@[simp] theorem State.setShaper_loads (s : State) (n : Nat) (x : Shaper) : (s.setShaper n x).loads = s.loads := rfl
@[simp] theorem State.setShaper_nextLoad (s : State) (n : Nat) (x : Shaper) : (s.setShaper n x).nextLoad = s.nextLoad := rfl
@[simp] theorem State.setShaper_monitors (s : State) (n : Nat) (x : Shaper) : (s.setShaper n x).monitors = s.monitors := rfl

@[simp] theorem State.setGate_pending (s : State) (n : Nat) (x : Gate) : (s.setGate n x).pending = s.pending := rfl
@[simp] theorem State.setGate_out (s : State) (n : Nat) (x : Gate) : (s.setGate n x).out = s.out := rfl
@[simp] theorem State.setGate_freeIx (s : State) (n : Nat) (x : Gate) : (s.setGate n x).freeIx = s.freeIx := rfl
@[simp] theorem State.setGate_now (s : State) (n : Nat) (x : Gate) : (s.setGate n x).now = s.now := rfl
@[simp] theorem State.setGate_power (s : State) (n : Nat) (x : Gate) : (s.setGate n x).power = s.power := rfl
@[simp] theorem State.setGate_encl (s : State) (n : Nat) (x : Gate) : (s.setGate n x).encl = s.encl := rfl
@[simp] theorem State.setGate_mgmt (s : State) (n : Nat) (x : Gate) : (s.setGate n x).mgmt = s.mgmt := rfl
@[simp] theorem State.setGate_mirrorDev (s : State) (n : Nat) (x : Gate) : (s.setGate n x).mirrorDev = s.mirrorDev := rfl
@[simp] theorem State.setGate_regs (s : State) (n : Nat) (x : Gate) : (s.setGate n x).regs = s.regs := rfl
@[simp] theorem State.setGate_staged (s : State) (n : Nat) (x : Gate) : (s.setGate n x).staged = s.staged := rfl
@[simp] theorem State.setGate_locks (s : State) (n : Nat) (x : Gate) : (s.setGate n x).locks = s.locks := rfl
@[simp] theorem State.setGate_sel (s : State) (n : Nat) (x : Gate) : (s.setGate n x).sel = s.sel := rfl
@[simp] theorem State.setGate_rings (s : State) (n : Nat) (x : Gate) : (s.setGate n x).rings = s.rings := rfl
@[simp] theorem State.setGate_fns (s : State) (n : Nat) (x : Gate) : (s.setGate n x).fns = s.fns := rfl
@[simp] theorem State.setGate_ops (s : State) (n : Nat) (x : Gate) : (s.setGate n x).ops = s.ops := rfl
@[simp] theorem State.setGate_flows (s : State) (n : Nat) (x : Gate) : (s.setGate n x).flows = s.flows := rfl
@[simp] theorem State.setGate_stagedFlows (s : State) (n : Nat) (x : Gate) : (s.setGate n x).stagedFlows = s.stagedFlows := rfl
@[simp] theorem State.setGate_pairs (s : State) (n : Nat) (x : Gate) : (s.setGate n x).pairs = s.pairs := rfl
@[simp] theorem State.setGate_shapers (s : State) (n : Nat) (x : Gate) : (s.setGate n x).shapers = s.shapers := rfl
@[simp] theorem State.setGate_foreign (s : State) (n : Nat) (x : Gate) : (s.setGate n x).foreign = s.foreign := rfl
@[simp] theorem State.setGate_comps (s : State) (n : Nat) (x : Gate) : (s.setGate n x).comps = s.comps := rfl
@[simp] theorem State.setGate_profiles (s : State) (n : Nat) (x : Gate) : (s.setGate n x).profiles = s.profiles := rfl
@[simp] theorem State.setGate_chans (s : State) (n : Nat) (x : Gate) : (s.setGate n x).chans = s.chans := rfl
@[simp] theorem State.setGate_parts (s : State) (n : Nat) (x : Gate) : (s.setGate n x).parts = s.parts := rfl
@[simp] theorem State.setGate_xtsGen (s : State) (n : Nat) (x : Gate) : (s.setGate n x).xtsGen = s.xtsGen := rfl
@[simp] theorem State.setGate_peers (s : State) (n : Nat) (x : Gate) : (s.setGate n x).peers = s.peers := rfl
@[simp] theorem State.setGate_ports (s : State) (n : Nat) (x : Gate) : (s.setGate n x).ports = s.ports := rfl
@[simp] theorem State.setGate_lanes (s : State) (n : Nat) (x : Gate) : (s.setGate n x).lanes = s.lanes := rfl
@[simp] theorem State.setGate_reqs (s : State) (n : Nat) (x : Gate) : (s.setGate n x).reqs = s.reqs := rfl
@[simp] theorem State.setGate_reqWait (s : State) (n : Nat) (x : Gate) : (s.setGate n x).reqWait = s.reqWait := rfl
@[simp] theorem State.setGate_loads (s : State) (n : Nat) (x : Gate) : (s.setGate n x).loads = s.loads := rfl
@[simp] theorem State.setGate_nextLoad (s : State) (n : Nat) (x : Gate) : (s.setGate n x).nextLoad = s.nextLoad := rfl
@[simp] theorem State.setGate_monitors (s : State) (n : Nat) (x : Gate) : (s.setGate n x).monitors = s.monitors := rfl

@[simp] theorem State.setComp_pending (s : State) (n : Nat) (x : Composition) : (s.setComp n x).pending = s.pending := rfl
@[simp] theorem State.setComp_out (s : State) (n : Nat) (x : Composition) : (s.setComp n x).out = s.out := rfl
@[simp] theorem State.setComp_freeIx (s : State) (n : Nat) (x : Composition) : (s.setComp n x).freeIx = s.freeIx := rfl
@[simp] theorem State.setComp_now (s : State) (n : Nat) (x : Composition) : (s.setComp n x).now = s.now := rfl
@[simp] theorem State.setComp_power (s : State) (n : Nat) (x : Composition) : (s.setComp n x).power = s.power := rfl
@[simp] theorem State.setComp_encl (s : State) (n : Nat) (x : Composition) : (s.setComp n x).encl = s.encl := rfl
@[simp] theorem State.setComp_mgmt (s : State) (n : Nat) (x : Composition) : (s.setComp n x).mgmt = s.mgmt := rfl
@[simp] theorem State.setComp_mirrorDev (s : State) (n : Nat) (x : Composition) : (s.setComp n x).mirrorDev = s.mirrorDev := rfl
@[simp] theorem State.setComp_regs (s : State) (n : Nat) (x : Composition) : (s.setComp n x).regs = s.regs := rfl
@[simp] theorem State.setComp_staged (s : State) (n : Nat) (x : Composition) : (s.setComp n x).staged = s.staged := rfl
@[simp] theorem State.setComp_locks (s : State) (n : Nat) (x : Composition) : (s.setComp n x).locks = s.locks := rfl
@[simp] theorem State.setComp_sel (s : State) (n : Nat) (x : Composition) : (s.setComp n x).sel = s.sel := rfl
@[simp] theorem State.setComp_rings (s : State) (n : Nat) (x : Composition) : (s.setComp n x).rings = s.rings := rfl
@[simp] theorem State.setComp_fns (s : State) (n : Nat) (x : Composition) : (s.setComp n x).fns = s.fns := rfl
@[simp] theorem State.setComp_ops (s : State) (n : Nat) (x : Composition) : (s.setComp n x).ops = s.ops := rfl
@[simp] theorem State.setComp_flows (s : State) (n : Nat) (x : Composition) : (s.setComp n x).flows = s.flows := rfl
@[simp] theorem State.setComp_stagedFlows (s : State) (n : Nat) (x : Composition) : (s.setComp n x).stagedFlows = s.stagedFlows := rfl
@[simp] theorem State.setComp_pairs (s : State) (n : Nat) (x : Composition) : (s.setComp n x).pairs = s.pairs := rfl
@[simp] theorem State.setComp_shapers (s : State) (n : Nat) (x : Composition) : (s.setComp n x).shapers = s.shapers := rfl
@[simp] theorem State.setComp_foreign (s : State) (n : Nat) (x : Composition) : (s.setComp n x).foreign = s.foreign := rfl
@[simp] theorem State.setComp_gates (s : State) (n : Nat) (x : Composition) : (s.setComp n x).gates = s.gates := rfl
@[simp] theorem State.setComp_profiles (s : State) (n : Nat) (x : Composition) : (s.setComp n x).profiles = s.profiles := rfl
@[simp] theorem State.setComp_chans (s : State) (n : Nat) (x : Composition) : (s.setComp n x).chans = s.chans := rfl
@[simp] theorem State.setComp_parts (s : State) (n : Nat) (x : Composition) : (s.setComp n x).parts = s.parts := rfl
@[simp] theorem State.setComp_xtsGen (s : State) (n : Nat) (x : Composition) : (s.setComp n x).xtsGen = s.xtsGen := rfl
@[simp] theorem State.setComp_peers (s : State) (n : Nat) (x : Composition) : (s.setComp n x).peers = s.peers := rfl
@[simp] theorem State.setComp_ports (s : State) (n : Nat) (x : Composition) : (s.setComp n x).ports = s.ports := rfl
@[simp] theorem State.setComp_lanes (s : State) (n : Nat) (x : Composition) : (s.setComp n x).lanes = s.lanes := rfl
@[simp] theorem State.setComp_reqs (s : State) (n : Nat) (x : Composition) : (s.setComp n x).reqs = s.reqs := rfl
@[simp] theorem State.setComp_reqWait (s : State) (n : Nat) (x : Composition) : (s.setComp n x).reqWait = s.reqWait := rfl
@[simp] theorem State.setComp_loads (s : State) (n : Nat) (x : Composition) : (s.setComp n x).loads = s.loads := rfl
@[simp] theorem State.setComp_nextLoad (s : State) (n : Nat) (x : Composition) : (s.setComp n x).nextLoad = s.nextLoad := rfl
@[simp] theorem State.setComp_monitors (s : State) (n : Nat) (x : Composition) : (s.setComp n x).monitors = s.monitors := rfl

@[simp] theorem State.setMonitor_pending (s : State) (n : Nat) (x : Monitor) : (s.setMonitor n x).pending = s.pending := rfl
@[simp] theorem State.setMonitor_out (s : State) (n : Nat) (x : Monitor) : (s.setMonitor n x).out = s.out := rfl
@[simp] theorem State.setMonitor_freeIx (s : State) (n : Nat) (x : Monitor) : (s.setMonitor n x).freeIx = s.freeIx := rfl
@[simp] theorem State.setMonitor_now (s : State) (n : Nat) (x : Monitor) : (s.setMonitor n x).now = s.now := rfl
@[simp] theorem State.setMonitor_power (s : State) (n : Nat) (x : Monitor) : (s.setMonitor n x).power = s.power := rfl
@[simp] theorem State.setMonitor_encl (s : State) (n : Nat) (x : Monitor) : (s.setMonitor n x).encl = s.encl := rfl
@[simp] theorem State.setMonitor_mgmt (s : State) (n : Nat) (x : Monitor) : (s.setMonitor n x).mgmt = s.mgmt := rfl
@[simp] theorem State.setMonitor_mirrorDev (s : State) (n : Nat) (x : Monitor) : (s.setMonitor n x).mirrorDev = s.mirrorDev := rfl
@[simp] theorem State.setMonitor_regs (s : State) (n : Nat) (x : Monitor) : (s.setMonitor n x).regs = s.regs := rfl
@[simp] theorem State.setMonitor_staged (s : State) (n : Nat) (x : Monitor) : (s.setMonitor n x).staged = s.staged := rfl
@[simp] theorem State.setMonitor_locks (s : State) (n : Nat) (x : Monitor) : (s.setMonitor n x).locks = s.locks := rfl
@[simp] theorem State.setMonitor_sel (s : State) (n : Nat) (x : Monitor) : (s.setMonitor n x).sel = s.sel := rfl
@[simp] theorem State.setMonitor_rings (s : State) (n : Nat) (x : Monitor) : (s.setMonitor n x).rings = s.rings := rfl
@[simp] theorem State.setMonitor_fns (s : State) (n : Nat) (x : Monitor) : (s.setMonitor n x).fns = s.fns := rfl
@[simp] theorem State.setMonitor_ops (s : State) (n : Nat) (x : Monitor) : (s.setMonitor n x).ops = s.ops := rfl
@[simp] theorem State.setMonitor_flows (s : State) (n : Nat) (x : Monitor) : (s.setMonitor n x).flows = s.flows := rfl
@[simp] theorem State.setMonitor_stagedFlows (s : State) (n : Nat) (x : Monitor) : (s.setMonitor n x).stagedFlows = s.stagedFlows := rfl
@[simp] theorem State.setMonitor_pairs (s : State) (n : Nat) (x : Monitor) : (s.setMonitor n x).pairs = s.pairs := rfl
@[simp] theorem State.setMonitor_shapers (s : State) (n : Nat) (x : Monitor) : (s.setMonitor n x).shapers = s.shapers := rfl
@[simp] theorem State.setMonitor_foreign (s : State) (n : Nat) (x : Monitor) : (s.setMonitor n x).foreign = s.foreign := rfl
@[simp] theorem State.setMonitor_gates (s : State) (n : Nat) (x : Monitor) : (s.setMonitor n x).gates = s.gates := rfl
@[simp] theorem State.setMonitor_comps (s : State) (n : Nat) (x : Monitor) : (s.setMonitor n x).comps = s.comps := rfl
@[simp] theorem State.setMonitor_profiles (s : State) (n : Nat) (x : Monitor) : (s.setMonitor n x).profiles = s.profiles := rfl
@[simp] theorem State.setMonitor_chans (s : State) (n : Nat) (x : Monitor) : (s.setMonitor n x).chans = s.chans := rfl
@[simp] theorem State.setMonitor_parts (s : State) (n : Nat) (x : Monitor) : (s.setMonitor n x).parts = s.parts := rfl
@[simp] theorem State.setMonitor_xtsGen (s : State) (n : Nat) (x : Monitor) : (s.setMonitor n x).xtsGen = s.xtsGen := rfl
@[simp] theorem State.setMonitor_peers (s : State) (n : Nat) (x : Monitor) : (s.setMonitor n x).peers = s.peers := rfl
@[simp] theorem State.setMonitor_ports (s : State) (n : Nat) (x : Monitor) : (s.setMonitor n x).ports = s.ports := rfl
@[simp] theorem State.setMonitor_lanes (s : State) (n : Nat) (x : Monitor) : (s.setMonitor n x).lanes = s.lanes := rfl
@[simp] theorem State.setMonitor_reqs (s : State) (n : Nat) (x : Monitor) : (s.setMonitor n x).reqs = s.reqs := rfl
@[simp] theorem State.setMonitor_reqWait (s : State) (n : Nat) (x : Monitor) : (s.setMonitor n x).reqWait = s.reqWait := rfl
@[simp] theorem State.setMonitor_loads (s : State) (n : Nat) (x : Monitor) : (s.setMonitor n x).loads = s.loads := rfl
@[simp] theorem State.setMonitor_nextLoad (s : State) (n : Nat) (x : Monitor) : (s.setMonitor n x).nextLoad = s.nextLoad := rfl

@[simp] theorem State.emit_pending (s : State) (x : Out) : (s.emit x).pending = s.pending := rfl
@[simp] theorem State.emit_freeIx (s : State) (x : Out) : (s.emit x).freeIx = s.freeIx := rfl
@[simp] theorem State.emit_now (s : State) (x : Out) : (s.emit x).now = s.now := rfl
@[simp] theorem State.emit_power (s : State) (x : Out) : (s.emit x).power = s.power := rfl
@[simp] theorem State.emit_encl (s : State) (x : Out) : (s.emit x).encl = s.encl := rfl
@[simp] theorem State.emit_mgmt (s : State) (x : Out) : (s.emit x).mgmt = s.mgmt := rfl
@[simp] theorem State.emit_mirrorDev (s : State) (x : Out) : (s.emit x).mirrorDev = s.mirrorDev := rfl
@[simp] theorem State.emit_regs (s : State) (x : Out) : (s.emit x).regs = s.regs := rfl
@[simp] theorem State.emit_staged (s : State) (x : Out) : (s.emit x).staged = s.staged := rfl
@[simp] theorem State.emit_locks (s : State) (x : Out) : (s.emit x).locks = s.locks := rfl
@[simp] theorem State.emit_sel (s : State) (x : Out) : (s.emit x).sel = s.sel := rfl
@[simp] theorem State.emit_rings (s : State) (x : Out) : (s.emit x).rings = s.rings := rfl
@[simp] theorem State.emit_fns (s : State) (x : Out) : (s.emit x).fns = s.fns := rfl
@[simp] theorem State.emit_ops (s : State) (x : Out) : (s.emit x).ops = s.ops := rfl
@[simp] theorem State.emit_flows (s : State) (x : Out) : (s.emit x).flows = s.flows := rfl
@[simp] theorem State.emit_stagedFlows (s : State) (x : Out) : (s.emit x).stagedFlows = s.stagedFlows := rfl
@[simp] theorem State.emit_pairs (s : State) (x : Out) : (s.emit x).pairs = s.pairs := rfl
@[simp] theorem State.emit_shapers (s : State) (x : Out) : (s.emit x).shapers = s.shapers := rfl
@[simp] theorem State.emit_foreign (s : State) (x : Out) : (s.emit x).foreign = s.foreign := rfl
@[simp] theorem State.emit_gates (s : State) (x : Out) : (s.emit x).gates = s.gates := rfl
@[simp] theorem State.emit_comps (s : State) (x : Out) : (s.emit x).comps = s.comps := rfl
@[simp] theorem State.emit_profiles (s : State) (x : Out) : (s.emit x).profiles = s.profiles := rfl
@[simp] theorem State.emit_chans (s : State) (x : Out) : (s.emit x).chans = s.chans := rfl
@[simp] theorem State.emit_parts (s : State) (x : Out) : (s.emit x).parts = s.parts := rfl
@[simp] theorem State.emit_xtsGen (s : State) (x : Out) : (s.emit x).xtsGen = s.xtsGen := rfl
@[simp] theorem State.emit_peers (s : State) (x : Out) : (s.emit x).peers = s.peers := rfl
@[simp] theorem State.emit_ports (s : State) (x : Out) : (s.emit x).ports = s.ports := rfl
@[simp] theorem State.emit_lanes (s : State) (x : Out) : (s.emit x).lanes = s.lanes := rfl
@[simp] theorem State.emit_reqs (s : State) (x : Out) : (s.emit x).reqs = s.reqs := rfl
@[simp] theorem State.emit_reqWait (s : State) (x : Out) : (s.emit x).reqWait = s.reqWait := rfl
@[simp] theorem State.emit_loads (s : State) (x : Out) : (s.emit x).loads = s.loads := rfl
@[simp] theorem State.emit_nextLoad (s : State) (x : Out) : (s.emit x).nextLoad = s.nextLoad := rfl
@[simp] theorem State.emit_monitors (s : State) (x : Out) : (s.emit x).monitors = s.monitors := rfl

@[simp] theorem State.advanceFree_pending (s : State) : (s.advanceFree).pending = s.pending := rfl
@[simp] theorem State.advanceFree_out (s : State) : (s.advanceFree).out = s.out := rfl
@[simp] theorem State.advanceFree_now (s : State) : (s.advanceFree).now = s.now := rfl
@[simp] theorem State.advanceFree_power (s : State) : (s.advanceFree).power = s.power := rfl
@[simp] theorem State.advanceFree_encl (s : State) : (s.advanceFree).encl = s.encl := rfl
@[simp] theorem State.advanceFree_mgmt (s : State) : (s.advanceFree).mgmt = s.mgmt := rfl
@[simp] theorem State.advanceFree_mirrorDev (s : State) : (s.advanceFree).mirrorDev = s.mirrorDev := rfl
@[simp] theorem State.advanceFree_regs (s : State) : (s.advanceFree).regs = s.regs := rfl
@[simp] theorem State.advanceFree_staged (s : State) : (s.advanceFree).staged = s.staged := rfl
@[simp] theorem State.advanceFree_locks (s : State) : (s.advanceFree).locks = s.locks := rfl
@[simp] theorem State.advanceFree_sel (s : State) : (s.advanceFree).sel = s.sel := rfl
@[simp] theorem State.advanceFree_rings (s : State) : (s.advanceFree).rings = s.rings := rfl
@[simp] theorem State.advanceFree_fns (s : State) : (s.advanceFree).fns = s.fns := rfl
@[simp] theorem State.advanceFree_ops (s : State) : (s.advanceFree).ops = s.ops := rfl
@[simp] theorem State.advanceFree_flows (s : State) : (s.advanceFree).flows = s.flows := rfl
@[simp] theorem State.advanceFree_stagedFlows (s : State) : (s.advanceFree).stagedFlows = s.stagedFlows := rfl
@[simp] theorem State.advanceFree_pairs (s : State) : (s.advanceFree).pairs = s.pairs := rfl
@[simp] theorem State.advanceFree_shapers (s : State) : (s.advanceFree).shapers = s.shapers := rfl
@[simp] theorem State.advanceFree_foreign (s : State) : (s.advanceFree).foreign = s.foreign := rfl
@[simp] theorem State.advanceFree_gates (s : State) : (s.advanceFree).gates = s.gates := rfl
@[simp] theorem State.advanceFree_comps (s : State) : (s.advanceFree).comps = s.comps := rfl
@[simp] theorem State.advanceFree_profiles (s : State) : (s.advanceFree).profiles = s.profiles := rfl
@[simp] theorem State.advanceFree_chans (s : State) : (s.advanceFree).chans = s.chans := rfl
@[simp] theorem State.advanceFree_parts (s : State) : (s.advanceFree).parts = s.parts := rfl
@[simp] theorem State.advanceFree_xtsGen (s : State) : (s.advanceFree).xtsGen = s.xtsGen := rfl
@[simp] theorem State.advanceFree_peers (s : State) : (s.advanceFree).peers = s.peers := rfl
@[simp] theorem State.advanceFree_ports (s : State) : (s.advanceFree).ports = s.ports := rfl
@[simp] theorem State.advanceFree_lanes (s : State) : (s.advanceFree).lanes = s.lanes := rfl
@[simp] theorem State.advanceFree_reqs (s : State) : (s.advanceFree).reqs = s.reqs := rfl
@[simp] theorem State.advanceFree_reqWait (s : State) : (s.advanceFree).reqWait = s.reqWait := rfl
@[simp] theorem State.advanceFree_loads (s : State) : (s.advanceFree).loads = s.loads := rfl
@[simp] theorem State.advanceFree_nextLoad (s : State) : (s.advanceFree).nextLoad = s.nextLoad := rfl
@[simp] theorem State.advanceFree_monitors (s : State) : (s.advanceFree).monitors = s.monitors := rfl

@[simp] theorem State.modRing_pending (s : State) (n : Nat) (f : Ring → Ring) : (s.modRing n f).pending = s.pending := rfl
@[simp] theorem State.modRing_out (s : State) (n : Nat) (f : Ring → Ring) : (s.modRing n f).out = s.out := rfl
@[simp] theorem State.modRing_freeIx (s : State) (n : Nat) (f : Ring → Ring) : (s.modRing n f).freeIx = s.freeIx := rfl
@[simp] theorem State.modRing_now (s : State) (n : Nat) (f : Ring → Ring) : (s.modRing n f).now = s.now := rfl
@[simp] theorem State.modRing_power (s : State) (n : Nat) (f : Ring → Ring) : (s.modRing n f).power = s.power := rfl
@[simp] theorem State.modRing_encl (s : State) (n : Nat) (f : Ring → Ring) : (s.modRing n f).encl = s.encl := rfl
@[simp] theorem State.modRing_mgmt (s : State) (n : Nat) (f : Ring → Ring) : (s.modRing n f).mgmt = s.mgmt := rfl
@[simp] theorem State.modRing_mirrorDev (s : State) (n : Nat) (f : Ring → Ring) : (s.modRing n f).mirrorDev = s.mirrorDev := rfl
@[simp] theorem State.modRing_regs (s : State) (n : Nat) (f : Ring → Ring) : (s.modRing n f).regs = s.regs := rfl
@[simp] theorem State.modRing_staged (s : State) (n : Nat) (f : Ring → Ring) : (s.modRing n f).staged = s.staged := rfl
@[simp] theorem State.modRing_locks (s : State) (n : Nat) (f : Ring → Ring) : (s.modRing n f).locks = s.locks := rfl
@[simp] theorem State.modRing_sel (s : State) (n : Nat) (f : Ring → Ring) : (s.modRing n f).sel = s.sel := rfl
@[simp] theorem State.modRing_fns (s : State) (n : Nat) (f : Ring → Ring) : (s.modRing n f).fns = s.fns := rfl
@[simp] theorem State.modRing_ops (s : State) (n : Nat) (f : Ring → Ring) : (s.modRing n f).ops = s.ops := rfl
@[simp] theorem State.modRing_flows (s : State) (n : Nat) (f : Ring → Ring) : (s.modRing n f).flows = s.flows := rfl
@[simp] theorem State.modRing_stagedFlows (s : State) (n : Nat) (f : Ring → Ring) : (s.modRing n f).stagedFlows = s.stagedFlows := rfl
@[simp] theorem State.modRing_pairs (s : State) (n : Nat) (f : Ring → Ring) : (s.modRing n f).pairs = s.pairs := rfl
@[simp] theorem State.modRing_shapers (s : State) (n : Nat) (f : Ring → Ring) : (s.modRing n f).shapers = s.shapers := rfl
@[simp] theorem State.modRing_foreign (s : State) (n : Nat) (f : Ring → Ring) : (s.modRing n f).foreign = s.foreign := rfl
@[simp] theorem State.modRing_gates (s : State) (n : Nat) (f : Ring → Ring) : (s.modRing n f).gates = s.gates := rfl
@[simp] theorem State.modRing_comps (s : State) (n : Nat) (f : Ring → Ring) : (s.modRing n f).comps = s.comps := rfl
@[simp] theorem State.modRing_profiles (s : State) (n : Nat) (f : Ring → Ring) : (s.modRing n f).profiles = s.profiles := rfl
@[simp] theorem State.modRing_chans (s : State) (n : Nat) (f : Ring → Ring) : (s.modRing n f).chans = s.chans := rfl
@[simp] theorem State.modRing_parts (s : State) (n : Nat) (f : Ring → Ring) : (s.modRing n f).parts = s.parts := rfl
@[simp] theorem State.modRing_xtsGen (s : State) (n : Nat) (f : Ring → Ring) : (s.modRing n f).xtsGen = s.xtsGen := rfl
@[simp] theorem State.modRing_peers (s : State) (n : Nat) (f : Ring → Ring) : (s.modRing n f).peers = s.peers := rfl
@[simp] theorem State.modRing_ports (s : State) (n : Nat) (f : Ring → Ring) : (s.modRing n f).ports = s.ports := rfl
@[simp] theorem State.modRing_lanes (s : State) (n : Nat) (f : Ring → Ring) : (s.modRing n f).lanes = s.lanes := rfl
@[simp] theorem State.modRing_reqs (s : State) (n : Nat) (f : Ring → Ring) : (s.modRing n f).reqs = s.reqs := rfl
@[simp] theorem State.modRing_reqWait (s : State) (n : Nat) (f : Ring → Ring) : (s.modRing n f).reqWait = s.reqWait := rfl
@[simp] theorem State.modRing_loads (s : State) (n : Nat) (f : Ring → Ring) : (s.modRing n f).loads = s.loads := rfl
@[simp] theorem State.modRing_nextLoad (s : State) (n : Nat) (f : Ring → Ring) : (s.modRing n f).nextLoad = s.nextLoad := rfl
@[simp] theorem State.modRing_monitors (s : State) (n : Nat) (f : Ring → Ring) : (s.modRing n f).monitors = s.monitors := rfl

@[simp] theorem State.modFn_pending (s : State) (n : Nat) (f : Fn → Fn) : (s.modFn n f).pending = s.pending := rfl
@[simp] theorem State.modFn_out (s : State) (n : Nat) (f : Fn → Fn) : (s.modFn n f).out = s.out := rfl
@[simp] theorem State.modFn_freeIx (s : State) (n : Nat) (f : Fn → Fn) : (s.modFn n f).freeIx = s.freeIx := rfl
@[simp] theorem State.modFn_now (s : State) (n : Nat) (f : Fn → Fn) : (s.modFn n f).now = s.now := rfl
@[simp] theorem State.modFn_power (s : State) (n : Nat) (f : Fn → Fn) : (s.modFn n f).power = s.power := rfl
@[simp] theorem State.modFn_encl (s : State) (n : Nat) (f : Fn → Fn) : (s.modFn n f).encl = s.encl := rfl
@[simp] theorem State.modFn_mgmt (s : State) (n : Nat) (f : Fn → Fn) : (s.modFn n f).mgmt = s.mgmt := rfl
@[simp] theorem State.modFn_mirrorDev (s : State) (n : Nat) (f : Fn → Fn) : (s.modFn n f).mirrorDev = s.mirrorDev := rfl
@[simp] theorem State.modFn_regs (s : State) (n : Nat) (f : Fn → Fn) : (s.modFn n f).regs = s.regs := rfl
@[simp] theorem State.modFn_staged (s : State) (n : Nat) (f : Fn → Fn) : (s.modFn n f).staged = s.staged := rfl
@[simp] theorem State.modFn_locks (s : State) (n : Nat) (f : Fn → Fn) : (s.modFn n f).locks = s.locks := rfl
@[simp] theorem State.modFn_sel (s : State) (n : Nat) (f : Fn → Fn) : (s.modFn n f).sel = s.sel := rfl
@[simp] theorem State.modFn_rings (s : State) (n : Nat) (f : Fn → Fn) : (s.modFn n f).rings = s.rings := rfl
@[simp] theorem State.modFn_ops (s : State) (n : Nat) (f : Fn → Fn) : (s.modFn n f).ops = s.ops := rfl
@[simp] theorem State.modFn_flows (s : State) (n : Nat) (f : Fn → Fn) : (s.modFn n f).flows = s.flows := rfl
@[simp] theorem State.modFn_stagedFlows (s : State) (n : Nat) (f : Fn → Fn) : (s.modFn n f).stagedFlows = s.stagedFlows := rfl
@[simp] theorem State.modFn_pairs (s : State) (n : Nat) (f : Fn → Fn) : (s.modFn n f).pairs = s.pairs := rfl
@[simp] theorem State.modFn_shapers (s : State) (n : Nat) (f : Fn → Fn) : (s.modFn n f).shapers = s.shapers := rfl
@[simp] theorem State.modFn_foreign (s : State) (n : Nat) (f : Fn → Fn) : (s.modFn n f).foreign = s.foreign := rfl
@[simp] theorem State.modFn_gates (s : State) (n : Nat) (f : Fn → Fn) : (s.modFn n f).gates = s.gates := rfl
@[simp] theorem State.modFn_comps (s : State) (n : Nat) (f : Fn → Fn) : (s.modFn n f).comps = s.comps := rfl
@[simp] theorem State.modFn_profiles (s : State) (n : Nat) (f : Fn → Fn) : (s.modFn n f).profiles = s.profiles := rfl
@[simp] theorem State.modFn_chans (s : State) (n : Nat) (f : Fn → Fn) : (s.modFn n f).chans = s.chans := rfl
@[simp] theorem State.modFn_parts (s : State) (n : Nat) (f : Fn → Fn) : (s.modFn n f).parts = s.parts := rfl
@[simp] theorem State.modFn_xtsGen (s : State) (n : Nat) (f : Fn → Fn) : (s.modFn n f).xtsGen = s.xtsGen := rfl
@[simp] theorem State.modFn_peers (s : State) (n : Nat) (f : Fn → Fn) : (s.modFn n f).peers = s.peers := rfl
@[simp] theorem State.modFn_ports (s : State) (n : Nat) (f : Fn → Fn) : (s.modFn n f).ports = s.ports := rfl
@[simp] theorem State.modFn_lanes (s : State) (n : Nat) (f : Fn → Fn) : (s.modFn n f).lanes = s.lanes := rfl
@[simp] theorem State.modFn_reqs (s : State) (n : Nat) (f : Fn → Fn) : (s.modFn n f).reqs = s.reqs := rfl
@[simp] theorem State.modFn_reqWait (s : State) (n : Nat) (f : Fn → Fn) : (s.modFn n f).reqWait = s.reqWait := rfl
@[simp] theorem State.modFn_loads (s : State) (n : Nat) (f : Fn → Fn) : (s.modFn n f).loads = s.loads := rfl
@[simp] theorem State.modFn_nextLoad (s : State) (n : Nat) (f : Fn → Fn) : (s.modFn n f).nextLoad = s.nextLoad := rfl
@[simp] theorem State.modFn_monitors (s : State) (n : Nat) (f : Fn → Fn) : (s.modFn n f).monitors = s.monitors := rfl

@[simp] theorem State.modChan_pending (s : State) (n : Nat) (f : Chan → Chan) : (s.modChan n f).pending = s.pending := rfl
@[simp] theorem State.modChan_out (s : State) (n : Nat) (f : Chan → Chan) : (s.modChan n f).out = s.out := rfl
@[simp] theorem State.modChan_freeIx (s : State) (n : Nat) (f : Chan → Chan) : (s.modChan n f).freeIx = s.freeIx := rfl
@[simp] theorem State.modChan_now (s : State) (n : Nat) (f : Chan → Chan) : (s.modChan n f).now = s.now := rfl
@[simp] theorem State.modChan_power (s : State) (n : Nat) (f : Chan → Chan) : (s.modChan n f).power = s.power := rfl
@[simp] theorem State.modChan_encl (s : State) (n : Nat) (f : Chan → Chan) : (s.modChan n f).encl = s.encl := rfl
@[simp] theorem State.modChan_mgmt (s : State) (n : Nat) (f : Chan → Chan) : (s.modChan n f).mgmt = s.mgmt := rfl
@[simp] theorem State.modChan_mirrorDev (s : State) (n : Nat) (f : Chan → Chan) : (s.modChan n f).mirrorDev = s.mirrorDev := rfl
@[simp] theorem State.modChan_regs (s : State) (n : Nat) (f : Chan → Chan) : (s.modChan n f).regs = s.regs := rfl
@[simp] theorem State.modChan_staged (s : State) (n : Nat) (f : Chan → Chan) : (s.modChan n f).staged = s.staged := rfl
@[simp] theorem State.modChan_locks (s : State) (n : Nat) (f : Chan → Chan) : (s.modChan n f).locks = s.locks := rfl
@[simp] theorem State.modChan_sel (s : State) (n : Nat) (f : Chan → Chan) : (s.modChan n f).sel = s.sel := rfl
@[simp] theorem State.modChan_rings (s : State) (n : Nat) (f : Chan → Chan) : (s.modChan n f).rings = s.rings := rfl
@[simp] theorem State.modChan_fns (s : State) (n : Nat) (f : Chan → Chan) : (s.modChan n f).fns = s.fns := rfl
@[simp] theorem State.modChan_ops (s : State) (n : Nat) (f : Chan → Chan) : (s.modChan n f).ops = s.ops := rfl
@[simp] theorem State.modChan_flows (s : State) (n : Nat) (f : Chan → Chan) : (s.modChan n f).flows = s.flows := rfl
@[simp] theorem State.modChan_stagedFlows (s : State) (n : Nat) (f : Chan → Chan) : (s.modChan n f).stagedFlows = s.stagedFlows := rfl
@[simp] theorem State.modChan_pairs (s : State) (n : Nat) (f : Chan → Chan) : (s.modChan n f).pairs = s.pairs := rfl
@[simp] theorem State.modChan_shapers (s : State) (n : Nat) (f : Chan → Chan) : (s.modChan n f).shapers = s.shapers := rfl
@[simp] theorem State.modChan_foreign (s : State) (n : Nat) (f : Chan → Chan) : (s.modChan n f).foreign = s.foreign := rfl
@[simp] theorem State.modChan_gates (s : State) (n : Nat) (f : Chan → Chan) : (s.modChan n f).gates = s.gates := rfl
@[simp] theorem State.modChan_comps (s : State) (n : Nat) (f : Chan → Chan) : (s.modChan n f).comps = s.comps := rfl
@[simp] theorem State.modChan_profiles (s : State) (n : Nat) (f : Chan → Chan) : (s.modChan n f).profiles = s.profiles := rfl
@[simp] theorem State.modChan_parts (s : State) (n : Nat) (f : Chan → Chan) : (s.modChan n f).parts = s.parts := rfl
@[simp] theorem State.modChan_xtsGen (s : State) (n : Nat) (f : Chan → Chan) : (s.modChan n f).xtsGen = s.xtsGen := rfl
@[simp] theorem State.modChan_peers (s : State) (n : Nat) (f : Chan → Chan) : (s.modChan n f).peers = s.peers := rfl
@[simp] theorem State.modChan_ports (s : State) (n : Nat) (f : Chan → Chan) : (s.modChan n f).ports = s.ports := rfl
@[simp] theorem State.modChan_lanes (s : State) (n : Nat) (f : Chan → Chan) : (s.modChan n f).lanes = s.lanes := rfl
@[simp] theorem State.modChan_reqs (s : State) (n : Nat) (f : Chan → Chan) : (s.modChan n f).reqs = s.reqs := rfl
@[simp] theorem State.modChan_reqWait (s : State) (n : Nat) (f : Chan → Chan) : (s.modChan n f).reqWait = s.reqWait := rfl
@[simp] theorem State.modChan_loads (s : State) (n : Nat) (f : Chan → Chan) : (s.modChan n f).loads = s.loads := rfl
@[simp] theorem State.modChan_nextLoad (s : State) (n : Nat) (f : Chan → Chan) : (s.modChan n f).nextLoad = s.nextLoad := rfl
@[simp] theorem State.modChan_monitors (s : State) (n : Nat) (f : Chan → Chan) : (s.modChan n f).monitors = s.monitors := rfl

@[simp] theorem State.modPort_pending (s : State) (n : Nat) (f : Port → Port) : (s.modPort n f).pending = s.pending := rfl
@[simp] theorem State.modPort_out (s : State) (n : Nat) (f : Port → Port) : (s.modPort n f).out = s.out := rfl
@[simp] theorem State.modPort_freeIx (s : State) (n : Nat) (f : Port → Port) : (s.modPort n f).freeIx = s.freeIx := rfl
@[simp] theorem State.modPort_now (s : State) (n : Nat) (f : Port → Port) : (s.modPort n f).now = s.now := rfl
@[simp] theorem State.modPort_power (s : State) (n : Nat) (f : Port → Port) : (s.modPort n f).power = s.power := rfl
@[simp] theorem State.modPort_encl (s : State) (n : Nat) (f : Port → Port) : (s.modPort n f).encl = s.encl := rfl
@[simp] theorem State.modPort_mgmt (s : State) (n : Nat) (f : Port → Port) : (s.modPort n f).mgmt = s.mgmt := rfl
@[simp] theorem State.modPort_mirrorDev (s : State) (n : Nat) (f : Port → Port) : (s.modPort n f).mirrorDev = s.mirrorDev := rfl
@[simp] theorem State.modPort_regs (s : State) (n : Nat) (f : Port → Port) : (s.modPort n f).regs = s.regs := rfl
@[simp] theorem State.modPort_staged (s : State) (n : Nat) (f : Port → Port) : (s.modPort n f).staged = s.staged := rfl
@[simp] theorem State.modPort_locks (s : State) (n : Nat) (f : Port → Port) : (s.modPort n f).locks = s.locks := rfl
@[simp] theorem State.modPort_sel (s : State) (n : Nat) (f : Port → Port) : (s.modPort n f).sel = s.sel := rfl
@[simp] theorem State.modPort_rings (s : State) (n : Nat) (f : Port → Port) : (s.modPort n f).rings = s.rings := rfl
@[simp] theorem State.modPort_fns (s : State) (n : Nat) (f : Port → Port) : (s.modPort n f).fns = s.fns := rfl
@[simp] theorem State.modPort_ops (s : State) (n : Nat) (f : Port → Port) : (s.modPort n f).ops = s.ops := rfl
@[simp] theorem State.modPort_flows (s : State) (n : Nat) (f : Port → Port) : (s.modPort n f).flows = s.flows := rfl
@[simp] theorem State.modPort_stagedFlows (s : State) (n : Nat) (f : Port → Port) : (s.modPort n f).stagedFlows = s.stagedFlows := rfl
@[simp] theorem State.modPort_pairs (s : State) (n : Nat) (f : Port → Port) : (s.modPort n f).pairs = s.pairs := rfl
@[simp] theorem State.modPort_shapers (s : State) (n : Nat) (f : Port → Port) : (s.modPort n f).shapers = s.shapers := rfl
@[simp] theorem State.modPort_foreign (s : State) (n : Nat) (f : Port → Port) : (s.modPort n f).foreign = s.foreign := rfl
@[simp] theorem State.modPort_gates (s : State) (n : Nat) (f : Port → Port) : (s.modPort n f).gates = s.gates := rfl
@[simp] theorem State.modPort_comps (s : State) (n : Nat) (f : Port → Port) : (s.modPort n f).comps = s.comps := rfl
@[simp] theorem State.modPort_profiles (s : State) (n : Nat) (f : Port → Port) : (s.modPort n f).profiles = s.profiles := rfl
@[simp] theorem State.modPort_chans (s : State) (n : Nat) (f : Port → Port) : (s.modPort n f).chans = s.chans := rfl
@[simp] theorem State.modPort_parts (s : State) (n : Nat) (f : Port → Port) : (s.modPort n f).parts = s.parts := rfl
@[simp] theorem State.modPort_xtsGen (s : State) (n : Nat) (f : Port → Port) : (s.modPort n f).xtsGen = s.xtsGen := rfl
@[simp] theorem State.modPort_peers (s : State) (n : Nat) (f : Port → Port) : (s.modPort n f).peers = s.peers := rfl
@[simp] theorem State.modPort_lanes (s : State) (n : Nat) (f : Port → Port) : (s.modPort n f).lanes = s.lanes := rfl
@[simp] theorem State.modPort_reqs (s : State) (n : Nat) (f : Port → Port) : (s.modPort n f).reqs = s.reqs := rfl
@[simp] theorem State.modPort_reqWait (s : State) (n : Nat) (f : Port → Port) : (s.modPort n f).reqWait = s.reqWait := rfl
@[simp] theorem State.modPort_loads (s : State) (n : Nat) (f : Port → Port) : (s.modPort n f).loads = s.loads := rfl
@[simp] theorem State.modPort_nextLoad (s : State) (n : Nat) (f : Port → Port) : (s.modPort n f).nextLoad = s.nextLoad := rfl
@[simp] theorem State.modPort_monitors (s : State) (n : Nat) (f : Port → Port) : (s.modPort n f).monitors = s.monitors := rfl

/-! ### Parts -/

@[simp] theorem State.setRing_ring_same (s : State) (n : Nat) (x : Ring) : (s.setRing n x).ring n = x := by
  simp [State.setRing, State.ring]
theorem State.setRing_ring_other (s : State) (n k : Nat) (x : Ring) (h : k ≠ n) : (s.setRing n x).ring k = s.ring k := by
  simp [State.setRing, State.ring, tget_tset_other _ _ _ _ h]
@[simp] theorem State.setFn_ring (s : State) (n k : Nat) (x : Fn) : (s.setFn n x).ring k = s.ring k := rfl
@[simp] theorem State.setChan_ring (s : State) (n k : Nat) (x : Chan) : (s.setChan n x).ring k = s.ring k := rfl
@[simp] theorem State.setPort_ring (s : State) (n k : Nat) (x : Port) : (s.setPort n x).ring k = s.ring k := rfl
@[simp] theorem State.setLane_ring (s : State) (n k : Nat) (x : Lane) : (s.setLane n x).ring k = s.ring k := rfl
@[simp] theorem State.setPeer_ring (s : State) (n k : Nat) (x : Peer) : (s.setPeer n x).ring k = s.ring k := rfl
@[simp] theorem State.setPart_ring (s : State) (n k : Nat) (x : Partition) : (s.setPart n x).ring k = s.ring k := rfl
@[simp] theorem State.setPair_ring (s : State) (n k : Nat) (x : Pair) : (s.setPair n x).ring k = s.ring k := rfl
@[simp] theorem State.setShaper_ring (s : State) (n k : Nat) (x : Shaper) : (s.setShaper n x).ring k = s.ring k := rfl
@[simp] theorem State.setGate_ring (s : State) (n k : Nat) (x : Gate) : (s.setGate n x).ring k = s.ring k := rfl
@[simp] theorem State.setComp_ring (s : State) (n k : Nat) (x : Composition) : (s.setComp n x).ring k = s.ring k := rfl
@[simp] theorem State.setMonitor_ring (s : State) (n k : Nat) (x : Monitor) : (s.setMonitor n x).ring k = s.ring k := rfl
@[simp] theorem State.emit_ring (s : State) (o : Out) (k : Nat) : (s.emit o).ring k = s.ring k := rfl
@[simp] theorem State.advanceFree_ring (s : State) (k : Nat) : s.advanceFree.ring k = s.ring k := rfl
@[simp] theorem State.setFn_fn_same (s : State) (n : Nat) (x : Fn) : (s.setFn n x).fn n = x := by
  simp [State.setFn, State.fn]
theorem State.setFn_fn_other (s : State) (n k : Nat) (x : Fn) (h : k ≠ n) : (s.setFn n x).fn k = s.fn k := by
  simp [State.setFn, State.fn, tget_tset_other _ _ _ _ h, fnDefault]
@[simp] theorem State.setRing_fn (s : State) (n k : Nat) (x : Ring) : (s.setRing n x).fn k = s.fn k := rfl
@[simp] theorem State.setChan_fn (s : State) (n k : Nat) (x : Chan) : (s.setChan n x).fn k = s.fn k := rfl
@[simp] theorem State.setPort_fn (s : State) (n k : Nat) (x : Port) : (s.setPort n x).fn k = s.fn k := rfl
@[simp] theorem State.setLane_fn (s : State) (n k : Nat) (x : Lane) : (s.setLane n x).fn k = s.fn k := rfl
@[simp] theorem State.setPeer_fn (s : State) (n k : Nat) (x : Peer) : (s.setPeer n x).fn k = s.fn k := rfl
@[simp] theorem State.setPart_fn (s : State) (n k : Nat) (x : Partition) : (s.setPart n x).fn k = s.fn k := rfl
@[simp] theorem State.setPair_fn (s : State) (n k : Nat) (x : Pair) : (s.setPair n x).fn k = s.fn k := rfl
@[simp] theorem State.setShaper_fn (s : State) (n k : Nat) (x : Shaper) : (s.setShaper n x).fn k = s.fn k := rfl
@[simp] theorem State.setGate_fn (s : State) (n k : Nat) (x : Gate) : (s.setGate n x).fn k = s.fn k := rfl
@[simp] theorem State.setComp_fn (s : State) (n k : Nat) (x : Composition) : (s.setComp n x).fn k = s.fn k := rfl
@[simp] theorem State.setMonitor_fn (s : State) (n k : Nat) (x : Monitor) : (s.setMonitor n x).fn k = s.fn k := rfl
@[simp] theorem State.emit_fn (s : State) (o : Out) (k : Nat) : (s.emit o).fn k = s.fn k := rfl
@[simp] theorem State.advanceFree_fn (s : State) (k : Nat) : s.advanceFree.fn k = s.fn k := rfl
@[simp] theorem State.setChan_chan_same (s : State) (n : Nat) (x : Chan) : (s.setChan n x).chan n = x := by
  simp [State.setChan, State.chan]
theorem State.setChan_chan_other (s : State) (n k : Nat) (x : Chan) (h : k ≠ n) : (s.setChan n x).chan k = s.chan k := by
  simp [State.setChan, State.chan, tget_tset_other _ _ _ _ h]
@[simp] theorem State.setRing_chan (s : State) (n k : Nat) (x : Ring) : (s.setRing n x).chan k = s.chan k := rfl
@[simp] theorem State.setFn_chan (s : State) (n k : Nat) (x : Fn) : (s.setFn n x).chan k = s.chan k := rfl
@[simp] theorem State.setPort_chan (s : State) (n k : Nat) (x : Port) : (s.setPort n x).chan k = s.chan k := rfl
@[simp] theorem State.setLane_chan (s : State) (n k : Nat) (x : Lane) : (s.setLane n x).chan k = s.chan k := rfl
@[simp] theorem State.setPeer_chan (s : State) (n k : Nat) (x : Peer) : (s.setPeer n x).chan k = s.chan k := rfl
@[simp] theorem State.setPart_chan (s : State) (n k : Nat) (x : Partition) : (s.setPart n x).chan k = s.chan k := rfl
@[simp] theorem State.setPair_chan (s : State) (n k : Nat) (x : Pair) : (s.setPair n x).chan k = s.chan k := rfl
@[simp] theorem State.setShaper_chan (s : State) (n k : Nat) (x : Shaper) : (s.setShaper n x).chan k = s.chan k := rfl
@[simp] theorem State.setGate_chan (s : State) (n k : Nat) (x : Gate) : (s.setGate n x).chan k = s.chan k := rfl
@[simp] theorem State.setComp_chan (s : State) (n k : Nat) (x : Composition) : (s.setComp n x).chan k = s.chan k := rfl
@[simp] theorem State.setMonitor_chan (s : State) (n k : Nat) (x : Monitor) : (s.setMonitor n x).chan k = s.chan k := rfl
@[simp] theorem State.emit_chan (s : State) (o : Out) (k : Nat) : (s.emit o).chan k = s.chan k := rfl
@[simp] theorem State.advanceFree_chan (s : State) (k : Nat) : s.advanceFree.chan k = s.chan k := rfl
@[simp] theorem State.setPort_port_same (s : State) (n : Nat) (x : Port) : (s.setPort n x).port n = x := by
  simp [State.setPort, State.port]
theorem State.setPort_port_other (s : State) (n k : Nat) (x : Port) (h : k ≠ n) : (s.setPort n x).port k = s.port k := by
  simp [State.setPort, State.port, tget_tset_other _ _ _ _ h]
@[simp] theorem State.setRing_port (s : State) (n k : Nat) (x : Ring) : (s.setRing n x).port k = s.port k := rfl
@[simp] theorem State.setFn_port (s : State) (n k : Nat) (x : Fn) : (s.setFn n x).port k = s.port k := rfl
@[simp] theorem State.setChan_port (s : State) (n k : Nat) (x : Chan) : (s.setChan n x).port k = s.port k := rfl
@[simp] theorem State.setLane_port (s : State) (n k : Nat) (x : Lane) : (s.setLane n x).port k = s.port k := rfl
@[simp] theorem State.setPeer_port (s : State) (n k : Nat) (x : Peer) : (s.setPeer n x).port k = s.port k := rfl
@[simp] theorem State.setPart_port (s : State) (n k : Nat) (x : Partition) : (s.setPart n x).port k = s.port k := rfl
@[simp] theorem State.setPair_port (s : State) (n k : Nat) (x : Pair) : (s.setPair n x).port k = s.port k := rfl
@[simp] theorem State.setShaper_port (s : State) (n k : Nat) (x : Shaper) : (s.setShaper n x).port k = s.port k := rfl
@[simp] theorem State.setGate_port (s : State) (n k : Nat) (x : Gate) : (s.setGate n x).port k = s.port k := rfl
@[simp] theorem State.setComp_port (s : State) (n k : Nat) (x : Composition) : (s.setComp n x).port k = s.port k := rfl
@[simp] theorem State.setMonitor_port (s : State) (n k : Nat) (x : Monitor) : (s.setMonitor n x).port k = s.port k := rfl
@[simp] theorem State.emit_port (s : State) (o : Out) (k : Nat) : (s.emit o).port k = s.port k := rfl
@[simp] theorem State.advanceFree_port (s : State) (k : Nat) : s.advanceFree.port k = s.port k := rfl
@[simp] theorem State.setLane_lane_same (s : State) (n : Nat) (x : Lane) : (s.setLane n x).lane n = x := by
  simp [State.setLane, State.lane]
theorem State.setLane_lane_other (s : State) (n k : Nat) (x : Lane) (h : k ≠ n) : (s.setLane n x).lane k = s.lane k := by
  simp [State.setLane, State.lane, tget_tset_other _ _ _ _ h]
@[simp] theorem State.setRing_lane (s : State) (n k : Nat) (x : Ring) : (s.setRing n x).lane k = s.lane k := rfl
@[simp] theorem State.setFn_lane (s : State) (n k : Nat) (x : Fn) : (s.setFn n x).lane k = s.lane k := rfl
@[simp] theorem State.setChan_lane (s : State) (n k : Nat) (x : Chan) : (s.setChan n x).lane k = s.lane k := rfl
@[simp] theorem State.setPort_lane (s : State) (n k : Nat) (x : Port) : (s.setPort n x).lane k = s.lane k := rfl
@[simp] theorem State.setPeer_lane (s : State) (n k : Nat) (x : Peer) : (s.setPeer n x).lane k = s.lane k := rfl
@[simp] theorem State.setPart_lane (s : State) (n k : Nat) (x : Partition) : (s.setPart n x).lane k = s.lane k := rfl
@[simp] theorem State.setPair_lane (s : State) (n k : Nat) (x : Pair) : (s.setPair n x).lane k = s.lane k := rfl
@[simp] theorem State.setShaper_lane (s : State) (n k : Nat) (x : Shaper) : (s.setShaper n x).lane k = s.lane k := rfl
@[simp] theorem State.setGate_lane (s : State) (n k : Nat) (x : Gate) : (s.setGate n x).lane k = s.lane k := rfl
@[simp] theorem State.setComp_lane (s : State) (n k : Nat) (x : Composition) : (s.setComp n x).lane k = s.lane k := rfl
@[simp] theorem State.setMonitor_lane (s : State) (n k : Nat) (x : Monitor) : (s.setMonitor n x).lane k = s.lane k := rfl
@[simp] theorem State.emit_lane (s : State) (o : Out) (k : Nat) : (s.emit o).lane k = s.lane k := rfl
@[simp] theorem State.advanceFree_lane (s : State) (k : Nat) : s.advanceFree.lane k = s.lane k := rfl
@[simp] theorem State.setPeer_peer_same (s : State) (n : Nat) (x : Peer) : (s.setPeer n x).peer n = x := by
  simp [State.setPeer, State.peer]
theorem State.setPeer_peer_other (s : State) (n k : Nat) (x : Peer) (h : k ≠ n) : (s.setPeer n x).peer k = s.peer k := by
  simp [State.setPeer, State.peer, tget_tset_other _ _ _ _ h]
@[simp] theorem State.setRing_peer (s : State) (n k : Nat) (x : Ring) : (s.setRing n x).peer k = s.peer k := rfl
@[simp] theorem State.setFn_peer (s : State) (n k : Nat) (x : Fn) : (s.setFn n x).peer k = s.peer k := rfl
@[simp] theorem State.setChan_peer (s : State) (n k : Nat) (x : Chan) : (s.setChan n x).peer k = s.peer k := rfl
@[simp] theorem State.setPort_peer (s : State) (n k : Nat) (x : Port) : (s.setPort n x).peer k = s.peer k := rfl
@[simp] theorem State.setLane_peer (s : State) (n k : Nat) (x : Lane) : (s.setLane n x).peer k = s.peer k := rfl
@[simp] theorem State.setPart_peer (s : State) (n k : Nat) (x : Partition) : (s.setPart n x).peer k = s.peer k := rfl
@[simp] theorem State.setPair_peer (s : State) (n k : Nat) (x : Pair) : (s.setPair n x).peer k = s.peer k := rfl
@[simp] theorem State.setShaper_peer (s : State) (n k : Nat) (x : Shaper) : (s.setShaper n x).peer k = s.peer k := rfl
@[simp] theorem State.setGate_peer (s : State) (n k : Nat) (x : Gate) : (s.setGate n x).peer k = s.peer k := rfl
@[simp] theorem State.setComp_peer (s : State) (n k : Nat) (x : Composition) : (s.setComp n x).peer k = s.peer k := rfl
@[simp] theorem State.setMonitor_peer (s : State) (n k : Nat) (x : Monitor) : (s.setMonitor n x).peer k = s.peer k := rfl
@[simp] theorem State.emit_peer (s : State) (o : Out) (k : Nat) : (s.emit o).peer k = s.peer k := rfl
@[simp] theorem State.advanceFree_peer (s : State) (k : Nat) : s.advanceFree.peer k = s.peer k := rfl
@[simp] theorem State.setPart_part_same (s : State) (n : Nat) (x : Partition) : (s.setPart n x).part n = x := by
  simp [State.setPart, State.part]
theorem State.setPart_part_other (s : State) (n k : Nat) (x : Partition) (h : k ≠ n) : (s.setPart n x).part k = s.part k := by
  simp [State.setPart, State.part, tget_tset_other _ _ _ _ h]
@[simp] theorem State.setRing_part (s : State) (n k : Nat) (x : Ring) : (s.setRing n x).part k = s.part k := rfl
@[simp] theorem State.setFn_part (s : State) (n k : Nat) (x : Fn) : (s.setFn n x).part k = s.part k := rfl
@[simp] theorem State.setChan_part (s : State) (n k : Nat) (x : Chan) : (s.setChan n x).part k = s.part k := rfl
@[simp] theorem State.setPort_part (s : State) (n k : Nat) (x : Port) : (s.setPort n x).part k = s.part k := rfl
@[simp] theorem State.setLane_part (s : State) (n k : Nat) (x : Lane) : (s.setLane n x).part k = s.part k := rfl
@[simp] theorem State.setPeer_part (s : State) (n k : Nat) (x : Peer) : (s.setPeer n x).part k = s.part k := rfl
@[simp] theorem State.setPair_part (s : State) (n k : Nat) (x : Pair) : (s.setPair n x).part k = s.part k := rfl
@[simp] theorem State.setShaper_part (s : State) (n k : Nat) (x : Shaper) : (s.setShaper n x).part k = s.part k := rfl
@[simp] theorem State.setGate_part (s : State) (n k : Nat) (x : Gate) : (s.setGate n x).part k = s.part k := rfl
@[simp] theorem State.setComp_part (s : State) (n k : Nat) (x : Composition) : (s.setComp n x).part k = s.part k := rfl
@[simp] theorem State.setMonitor_part (s : State) (n k : Nat) (x : Monitor) : (s.setMonitor n x).part k = s.part k := rfl
@[simp] theorem State.emit_part (s : State) (o : Out) (k : Nat) : (s.emit o).part k = s.part k := rfl
@[simp] theorem State.advanceFree_part (s : State) (k : Nat) : s.advanceFree.part k = s.part k := rfl
@[simp] theorem State.setPair_pair_same (s : State) (n : Nat) (x : Pair) : (s.setPair n x).pair n = x := by
  simp [State.setPair, State.pair]
theorem State.setPair_pair_other (s : State) (n k : Nat) (x : Pair) (h : k ≠ n) : (s.setPair n x).pair k = s.pair k := by
  simp [State.setPair, State.pair, tget_tset_other _ _ _ _ h]
@[simp] theorem State.setRing_pair (s : State) (n k : Nat) (x : Ring) : (s.setRing n x).pair k = s.pair k := rfl
@[simp] theorem State.setFn_pair (s : State) (n k : Nat) (x : Fn) : (s.setFn n x).pair k = s.pair k := rfl
@[simp] theorem State.setChan_pair (s : State) (n k : Nat) (x : Chan) : (s.setChan n x).pair k = s.pair k := rfl
@[simp] theorem State.setPort_pair (s : State) (n k : Nat) (x : Port) : (s.setPort n x).pair k = s.pair k := rfl
@[simp] theorem State.setLane_pair (s : State) (n k : Nat) (x : Lane) : (s.setLane n x).pair k = s.pair k := rfl
@[simp] theorem State.setPeer_pair (s : State) (n k : Nat) (x : Peer) : (s.setPeer n x).pair k = s.pair k := rfl
@[simp] theorem State.setPart_pair (s : State) (n k : Nat) (x : Partition) : (s.setPart n x).pair k = s.pair k := rfl
@[simp] theorem State.setShaper_pair (s : State) (n k : Nat) (x : Shaper) : (s.setShaper n x).pair k = s.pair k := rfl
@[simp] theorem State.setGate_pair (s : State) (n k : Nat) (x : Gate) : (s.setGate n x).pair k = s.pair k := rfl
@[simp] theorem State.setComp_pair (s : State) (n k : Nat) (x : Composition) : (s.setComp n x).pair k = s.pair k := rfl
@[simp] theorem State.setMonitor_pair (s : State) (n k : Nat) (x : Monitor) : (s.setMonitor n x).pair k = s.pair k := rfl
@[simp] theorem State.emit_pair (s : State) (o : Out) (k : Nat) : (s.emit o).pair k = s.pair k := rfl
@[simp] theorem State.advanceFree_pair (s : State) (k : Nat) : s.advanceFree.pair k = s.pair k := rfl
@[simp] theorem State.setShaper_shaper_same (s : State) (n : Nat) (x : Shaper) : (s.setShaper n x).shaper n = x := by
  simp [State.setShaper, State.shaper]
theorem State.setShaper_shaper_other (s : State) (n k : Nat) (x : Shaper) (h : k ≠ n) : (s.setShaper n x).shaper k = s.shaper k := by
  simp [State.setShaper, State.shaper, tget_tset_other _ _ _ _ h]
@[simp] theorem State.setRing_shaper (s : State) (n k : Nat) (x : Ring) : (s.setRing n x).shaper k = s.shaper k := rfl
@[simp] theorem State.setFn_shaper (s : State) (n k : Nat) (x : Fn) : (s.setFn n x).shaper k = s.shaper k := rfl
@[simp] theorem State.setChan_shaper (s : State) (n k : Nat) (x : Chan) : (s.setChan n x).shaper k = s.shaper k := rfl
@[simp] theorem State.setPort_shaper (s : State) (n k : Nat) (x : Port) : (s.setPort n x).shaper k = s.shaper k := rfl
@[simp] theorem State.setLane_shaper (s : State) (n k : Nat) (x : Lane) : (s.setLane n x).shaper k = s.shaper k := rfl
@[simp] theorem State.setPeer_shaper (s : State) (n k : Nat) (x : Peer) : (s.setPeer n x).shaper k = s.shaper k := rfl
@[simp] theorem State.setPart_shaper (s : State) (n k : Nat) (x : Partition) : (s.setPart n x).shaper k = s.shaper k := rfl
@[simp] theorem State.setPair_shaper (s : State) (n k : Nat) (x : Pair) : (s.setPair n x).shaper k = s.shaper k := rfl
@[simp] theorem State.setGate_shaper (s : State) (n k : Nat) (x : Gate) : (s.setGate n x).shaper k = s.shaper k := rfl
@[simp] theorem State.setComp_shaper (s : State) (n k : Nat) (x : Composition) : (s.setComp n x).shaper k = s.shaper k := rfl
@[simp] theorem State.setMonitor_shaper (s : State) (n k : Nat) (x : Monitor) : (s.setMonitor n x).shaper k = s.shaper k := rfl
@[simp] theorem State.emit_shaper (s : State) (o : Out) (k : Nat) : (s.emit o).shaper k = s.shaper k := rfl
@[simp] theorem State.advanceFree_shaper (s : State) (k : Nat) : s.advanceFree.shaper k = s.shaper k := rfl
@[simp] theorem State.setGate_gate_same (s : State) (n : Nat) (x : Gate) : (s.setGate n x).gate n = x := by
  simp [State.setGate, State.gate]
theorem State.setGate_gate_other (s : State) (n k : Nat) (x : Gate) (h : k ≠ n) : (s.setGate n x).gate k = s.gate k := by
  simp [State.setGate, State.gate, tget_tset_other _ _ _ _ h]
@[simp] theorem State.setRing_gate (s : State) (n k : Nat) (x : Ring) : (s.setRing n x).gate k = s.gate k := rfl
@[simp] theorem State.setFn_gate (s : State) (n k : Nat) (x : Fn) : (s.setFn n x).gate k = s.gate k := rfl
@[simp] theorem State.setChan_gate (s : State) (n k : Nat) (x : Chan) : (s.setChan n x).gate k = s.gate k := rfl
@[simp] theorem State.setPort_gate (s : State) (n k : Nat) (x : Port) : (s.setPort n x).gate k = s.gate k := rfl
@[simp] theorem State.setLane_gate (s : State) (n k : Nat) (x : Lane) : (s.setLane n x).gate k = s.gate k := rfl
@[simp] theorem State.setPeer_gate (s : State) (n k : Nat) (x : Peer) : (s.setPeer n x).gate k = s.gate k := rfl
@[simp] theorem State.setPart_gate (s : State) (n k : Nat) (x : Partition) : (s.setPart n x).gate k = s.gate k := rfl
@[simp] theorem State.setPair_gate (s : State) (n k : Nat) (x : Pair) : (s.setPair n x).gate k = s.gate k := rfl
@[simp] theorem State.setShaper_gate (s : State) (n k : Nat) (x : Shaper) : (s.setShaper n x).gate k = s.gate k := rfl
@[simp] theorem State.setComp_gate (s : State) (n k : Nat) (x : Composition) : (s.setComp n x).gate k = s.gate k := rfl
@[simp] theorem State.setMonitor_gate (s : State) (n k : Nat) (x : Monitor) : (s.setMonitor n x).gate k = s.gate k := rfl
@[simp] theorem State.emit_gate (s : State) (o : Out) (k : Nat) : (s.emit o).gate k = s.gate k := rfl
@[simp] theorem State.advanceFree_gate (s : State) (k : Nat) : s.advanceFree.gate k = s.gate k := rfl
@[simp] theorem State.setComp_comp_same (s : State) (n : Nat) (x : Composition) : (s.setComp n x).comp n = x := by
  simp [State.setComp, State.comp]
theorem State.setComp_comp_other (s : State) (n k : Nat) (x : Composition) (h : k ≠ n) : (s.setComp n x).comp k = s.comp k := by
  simp [State.setComp, State.comp, tget_tset_other _ _ _ _ h]
@[simp] theorem State.setRing_comp (s : State) (n k : Nat) (x : Ring) : (s.setRing n x).comp k = s.comp k := rfl
@[simp] theorem State.setFn_comp (s : State) (n k : Nat) (x : Fn) : (s.setFn n x).comp k = s.comp k := rfl
@[simp] theorem State.setChan_comp (s : State) (n k : Nat) (x : Chan) : (s.setChan n x).comp k = s.comp k := rfl
@[simp] theorem State.setPort_comp (s : State) (n k : Nat) (x : Port) : (s.setPort n x).comp k = s.comp k := rfl
@[simp] theorem State.setLane_comp (s : State) (n k : Nat) (x : Lane) : (s.setLane n x).comp k = s.comp k := rfl
@[simp] theorem State.setPeer_comp (s : State) (n k : Nat) (x : Peer) : (s.setPeer n x).comp k = s.comp k := rfl
@[simp] theorem State.setPart_comp (s : State) (n k : Nat) (x : Partition) : (s.setPart n x).comp k = s.comp k := rfl
@[simp] theorem State.setPair_comp (s : State) (n k : Nat) (x : Pair) : (s.setPair n x).comp k = s.comp k := rfl
@[simp] theorem State.setShaper_comp (s : State) (n k : Nat) (x : Shaper) : (s.setShaper n x).comp k = s.comp k := rfl
@[simp] theorem State.setGate_comp (s : State) (n k : Nat) (x : Gate) : (s.setGate n x).comp k = s.comp k := rfl
@[simp] theorem State.setMonitor_comp (s : State) (n k : Nat) (x : Monitor) : (s.setMonitor n x).comp k = s.comp k := rfl
@[simp] theorem State.emit_comp (s : State) (o : Out) (k : Nat) : (s.emit o).comp k = s.comp k := rfl
@[simp] theorem State.advanceFree_comp (s : State) (k : Nat) : s.advanceFree.comp k = s.comp k := rfl
@[simp] theorem State.setMonitor_monitor_same (s : State) (n : Nat) (x : Monitor) : (s.setMonitor n x).monitor n = x := by
  simp [State.setMonitor, State.monitor]
theorem State.setMonitor_monitor_other (s : State) (n k : Nat) (x : Monitor) (h : k ≠ n) : (s.setMonitor n x).monitor k = s.monitor k := by
  simp [State.setMonitor, State.monitor, tget_tset_other _ _ _ _ h]
@[simp] theorem State.setRing_monitor (s : State) (n k : Nat) (x : Ring) : (s.setRing n x).monitor k = s.monitor k := rfl
@[simp] theorem State.setFn_monitor (s : State) (n k : Nat) (x : Fn) : (s.setFn n x).monitor k = s.monitor k := rfl
@[simp] theorem State.setChan_monitor (s : State) (n k : Nat) (x : Chan) : (s.setChan n x).monitor k = s.monitor k := rfl
@[simp] theorem State.setPort_monitor (s : State) (n k : Nat) (x : Port) : (s.setPort n x).monitor k = s.monitor k := rfl
@[simp] theorem State.setLane_monitor (s : State) (n k : Nat) (x : Lane) : (s.setLane n x).monitor k = s.monitor k := rfl
@[simp] theorem State.setPeer_monitor (s : State) (n k : Nat) (x : Peer) : (s.setPeer n x).monitor k = s.monitor k := rfl
@[simp] theorem State.setPart_monitor (s : State) (n k : Nat) (x : Partition) : (s.setPart n x).monitor k = s.monitor k := rfl
@[simp] theorem State.setPair_monitor (s : State) (n k : Nat) (x : Pair) : (s.setPair n x).monitor k = s.monitor k := rfl
@[simp] theorem State.setShaper_monitor (s : State) (n k : Nat) (x : Shaper) : (s.setShaper n x).monitor k = s.monitor k := rfl
@[simp] theorem State.setGate_monitor (s : State) (n k : Nat) (x : Gate) : (s.setGate n x).monitor k = s.monitor k := rfl
@[simp] theorem State.setComp_monitor (s : State) (n k : Nat) (x : Composition) : (s.setComp n x).monitor k = s.monitor k := rfl
@[simp] theorem State.emit_monitor (s : State) (o : Out) (k : Nat) : (s.emit o).monitor k = s.monitor k := rfl
@[simp] theorem State.advanceFree_monitor (s : State) (k : Nat) : s.advanceFree.monitor k = s.monitor k := rfl
@[simp] theorem State.modRing_ring_same (s : State) (n : Nat) (f : Ring → Ring) : (s.modRing n f).ring n = f (s.ring n) := by
  simp [State.modRing]
theorem State.modRing_ring_other (s : State) (n k : Nat) (f : Ring → Ring) (h : k ≠ n) : (s.modRing n f).ring k = s.ring k := by
  simp [State.modRing, State.setRing_ring_other _ _ _ _ h]
@[simp] theorem State.modRing_fn (s : State) (n k : Nat) (f : Ring → Ring) : (s.modRing n f).fn k = s.fn k := rfl
@[simp] theorem State.modRing_chan (s : State) (n k : Nat) (f : Ring → Ring) : (s.modRing n f).chan k = s.chan k := rfl
@[simp] theorem State.modRing_port (s : State) (n k : Nat) (f : Ring → Ring) : (s.modRing n f).port k = s.port k := rfl
@[simp] theorem State.modRing_lane (s : State) (n k : Nat) (f : Ring → Ring) : (s.modRing n f).lane k = s.lane k := rfl
@[simp] theorem State.modRing_peer (s : State) (n k : Nat) (f : Ring → Ring) : (s.modRing n f).peer k = s.peer k := rfl
@[simp] theorem State.modRing_part (s : State) (n k : Nat) (f : Ring → Ring) : (s.modRing n f).part k = s.part k := rfl
@[simp] theorem State.modRing_pair (s : State) (n k : Nat) (f : Ring → Ring) : (s.modRing n f).pair k = s.pair k := rfl
@[simp] theorem State.modRing_shaper (s : State) (n k : Nat) (f : Ring → Ring) : (s.modRing n f).shaper k = s.shaper k := rfl
@[simp] theorem State.modRing_gate (s : State) (n k : Nat) (f : Ring → Ring) : (s.modRing n f).gate k = s.gate k := rfl
@[simp] theorem State.modRing_comp (s : State) (n k : Nat) (f : Ring → Ring) : (s.modRing n f).comp k = s.comp k := rfl
@[simp] theorem State.modRing_monitor (s : State) (n k : Nat) (f : Ring → Ring) : (s.modRing n f).monitor k = s.monitor k := rfl
@[simp] theorem State.modFn_fn_same (s : State) (n : Nat) (f : Fn → Fn) : (s.modFn n f).fn n = f (s.fn n) := by
  simp [State.modFn]
theorem State.modFn_fn_other (s : State) (n k : Nat) (f : Fn → Fn) (h : k ≠ n) : (s.modFn n f).fn k = s.fn k := by
  simp [State.modFn, State.setFn_fn_other _ _ _ _ h]
@[simp] theorem State.modFn_ring (s : State) (n k : Nat) (f : Fn → Fn) : (s.modFn n f).ring k = s.ring k := rfl
@[simp] theorem State.modFn_chan (s : State) (n k : Nat) (f : Fn → Fn) : (s.modFn n f).chan k = s.chan k := rfl
@[simp] theorem State.modFn_port (s : State) (n k : Nat) (f : Fn → Fn) : (s.modFn n f).port k = s.port k := rfl
@[simp] theorem State.modFn_lane (s : State) (n k : Nat) (f : Fn → Fn) : (s.modFn n f).lane k = s.lane k := rfl
@[simp] theorem State.modFn_peer (s : State) (n k : Nat) (f : Fn → Fn) : (s.modFn n f).peer k = s.peer k := rfl
@[simp] theorem State.modFn_part (s : State) (n k : Nat) (f : Fn → Fn) : (s.modFn n f).part k = s.part k := rfl
@[simp] theorem State.modFn_pair (s : State) (n k : Nat) (f : Fn → Fn) : (s.modFn n f).pair k = s.pair k := rfl
@[simp] theorem State.modFn_shaper (s : State) (n k : Nat) (f : Fn → Fn) : (s.modFn n f).shaper k = s.shaper k := rfl
@[simp] theorem State.modFn_gate (s : State) (n k : Nat) (f : Fn → Fn) : (s.modFn n f).gate k = s.gate k := rfl
@[simp] theorem State.modFn_comp (s : State) (n k : Nat) (f : Fn → Fn) : (s.modFn n f).comp k = s.comp k := rfl
@[simp] theorem State.modFn_monitor (s : State) (n k : Nat) (f : Fn → Fn) : (s.modFn n f).monitor k = s.monitor k := rfl
@[simp] theorem State.modChan_chan_same (s : State) (n : Nat) (f : Chan → Chan) : (s.modChan n f).chan n = f (s.chan n) := by
  simp [State.modChan]
theorem State.modChan_chan_other (s : State) (n k : Nat) (f : Chan → Chan) (h : k ≠ n) : (s.modChan n f).chan k = s.chan k := by
  simp [State.modChan, State.setChan_chan_other _ _ _ _ h]
@[simp] theorem State.modChan_ring (s : State) (n k : Nat) (f : Chan → Chan) : (s.modChan n f).ring k = s.ring k := rfl
@[simp] theorem State.modChan_fn (s : State) (n k : Nat) (f : Chan → Chan) : (s.modChan n f).fn k = s.fn k := rfl
@[simp] theorem State.modChan_port (s : State) (n k : Nat) (f : Chan → Chan) : (s.modChan n f).port k = s.port k := rfl
@[simp] theorem State.modChan_lane (s : State) (n k : Nat) (f : Chan → Chan) : (s.modChan n f).lane k = s.lane k := rfl
@[simp] theorem State.modChan_peer (s : State) (n k : Nat) (f : Chan → Chan) : (s.modChan n f).peer k = s.peer k := rfl
@[simp] theorem State.modChan_part (s : State) (n k : Nat) (f : Chan → Chan) : (s.modChan n f).part k = s.part k := rfl
@[simp] theorem State.modChan_pair (s : State) (n k : Nat) (f : Chan → Chan) : (s.modChan n f).pair k = s.pair k := rfl
@[simp] theorem State.modChan_shaper (s : State) (n k : Nat) (f : Chan → Chan) : (s.modChan n f).shaper k = s.shaper k := rfl
@[simp] theorem State.modChan_gate (s : State) (n k : Nat) (f : Chan → Chan) : (s.modChan n f).gate k = s.gate k := rfl
@[simp] theorem State.modChan_comp (s : State) (n k : Nat) (f : Chan → Chan) : (s.modChan n f).comp k = s.comp k := rfl
@[simp] theorem State.modChan_monitor (s : State) (n k : Nat) (f : Chan → Chan) : (s.modChan n f).monitor k = s.monitor k := rfl
@[simp] theorem State.modPort_port_same (s : State) (n : Nat) (f : Port → Port) : (s.modPort n f).port n = f (s.port n) := by
  simp [State.modPort]
theorem State.modPort_port_other (s : State) (n k : Nat) (f : Port → Port) (h : k ≠ n) : (s.modPort n f).port k = s.port k := by
  simp [State.modPort, State.setPort_port_other _ _ _ _ h]
@[simp] theorem State.modPort_ring (s : State) (n k : Nat) (f : Port → Port) : (s.modPort n f).ring k = s.ring k := rfl
@[simp] theorem State.modPort_fn (s : State) (n k : Nat) (f : Port → Port) : (s.modPort n f).fn k = s.fn k := rfl
@[simp] theorem State.modPort_chan (s : State) (n k : Nat) (f : Port → Port) : (s.modPort n f).chan k = s.chan k := rfl
@[simp] theorem State.modPort_lane (s : State) (n k : Nat) (f : Port → Port) : (s.modPort n f).lane k = s.lane k := rfl
@[simp] theorem State.modPort_peer (s : State) (n k : Nat) (f : Port → Port) : (s.modPort n f).peer k = s.peer k := rfl
@[simp] theorem State.modPort_part (s : State) (n k : Nat) (f : Port → Port) : (s.modPort n f).part k = s.part k := rfl
@[simp] theorem State.modPort_pair (s : State) (n k : Nat) (f : Port → Port) : (s.modPort n f).pair k = s.pair k := rfl
@[simp] theorem State.modPort_shaper (s : State) (n k : Nat) (f : Port → Port) : (s.modPort n f).shaper k = s.shaper k := rfl
@[simp] theorem State.modPort_gate (s : State) (n k : Nat) (f : Port → Port) : (s.modPort n f).gate k = s.gate k := rfl
@[simp] theorem State.modPort_comp (s : State) (n k : Nat) (f : Port → Port) : (s.modPort n f).comp k = s.comp k := rfl
@[simp] theorem State.modPort_monitor (s : State) (n k : Nat) (f : Port → Port) : (s.modPort n f).monitor k = s.monitor k := rfl
@[simp] theorem State.setRing_up (s : State) (n : Nat) (x : Ring) : (s.setRing n x).up = s.up := rfl
@[simp] theorem State.setRing_fid (s : State) (n : Nat) (x : Ring) : (s.setRing n x).fid = s.fid := rfl
@[simp] theorem State.setFn_up (s : State) (n : Nat) (x : Fn) : (s.setFn n x).up = s.up := rfl
@[simp] theorem State.setFn_fid (s : State) (n : Nat) (x : Fn) : (s.setFn n x).fid = s.fid := rfl
@[simp] theorem State.setChan_up (s : State) (n : Nat) (x : Chan) : (s.setChan n x).up = s.up := rfl
@[simp] theorem State.setChan_fid (s : State) (n : Nat) (x : Chan) : (s.setChan n x).fid = s.fid := rfl
@[simp] theorem State.setPort_up (s : State) (n : Nat) (x : Port) : (s.setPort n x).up = s.up := rfl
@[simp] theorem State.setPort_fid (s : State) (n : Nat) (x : Port) : (s.setPort n x).fid = s.fid := rfl
@[simp] theorem State.setLane_up (s : State) (n : Nat) (x : Lane) : (s.setLane n x).up = s.up := rfl
@[simp] theorem State.setLane_fid (s : State) (n : Nat) (x : Lane) : (s.setLane n x).fid = s.fid := rfl
@[simp] theorem State.setPeer_up (s : State) (n : Nat) (x : Peer) : (s.setPeer n x).up = s.up := rfl
@[simp] theorem State.setPeer_fid (s : State) (n : Nat) (x : Peer) : (s.setPeer n x).fid = s.fid := rfl
@[simp] theorem State.setPart_up (s : State) (n : Nat) (x : Partition) : (s.setPart n x).up = s.up := rfl
@[simp] theorem State.setPart_fid (s : State) (n : Nat) (x : Partition) : (s.setPart n x).fid = s.fid := rfl
@[simp] theorem State.setPair_up (s : State) (n : Nat) (x : Pair) : (s.setPair n x).up = s.up := rfl
@[simp] theorem State.setPair_fid (s : State) (n : Nat) (x : Pair) : (s.setPair n x).fid = s.fid := rfl
@[simp] theorem State.setShaper_up (s : State) (n : Nat) (x : Shaper) : (s.setShaper n x).up = s.up := rfl
@[simp] theorem State.setShaper_fid (s : State) (n : Nat) (x : Shaper) : (s.setShaper n x).fid = s.fid := rfl
@[simp] theorem State.setGate_up (s : State) (n : Nat) (x : Gate) : (s.setGate n x).up = s.up := rfl
@[simp] theorem State.setGate_fid (s : State) (n : Nat) (x : Gate) : (s.setGate n x).fid = s.fid := rfl
@[simp] theorem State.setComp_up (s : State) (n : Nat) (x : Composition) : (s.setComp n x).up = s.up := rfl
@[simp] theorem State.setComp_fid (s : State) (n : Nat) (x : Composition) : (s.setComp n x).fid = s.fid := rfl
@[simp] theorem State.setMonitor_up (s : State) (n : Nat) (x : Monitor) : (s.setMonitor n x).up = s.up := rfl
@[simp] theorem State.setMonitor_fid (s : State) (n : Nat) (x : Monitor) : (s.setMonitor n x).fid = s.fid := rfl
@[simp] theorem State.emit_up (s : State) (x : Out) : (s.emit x).up = s.up := rfl
@[simp] theorem State.emit_fid (s : State) (x : Out) : (s.emit x).fid = s.fid := rfl
@[simp] theorem State.advanceFree_up (s : State) : (s.advanceFree).up = s.up := rfl
@[simp] theorem State.advanceFree_fid (s : State) : (s.advanceFree).fid = s.fid := rfl
@[simp] theorem State.modRing_up (s : State) (n : Nat) (f : Ring → Ring) : (s.modRing n f).up = s.up := rfl
@[simp] theorem State.modRing_fid (s : State) (n : Nat) (f : Ring → Ring) : (s.modRing n f).fid = s.fid := rfl
@[simp] theorem State.modFn_up (s : State) (n : Nat) (f : Fn → Fn) : (s.modFn n f).up = s.up := rfl
@[simp] theorem State.modFn_fid (s : State) (n : Nat) (f : Fn → Fn) : (s.modFn n f).fid = s.fid := rfl
@[simp] theorem State.modChan_up (s : State) (n : Nat) (f : Chan → Chan) : (s.modChan n f).up = s.up := rfl
@[simp] theorem State.modChan_fid (s : State) (n : Nat) (f : Chan → Chan) : (s.modChan n f).fid = s.fid := rfl
@[simp] theorem State.modPort_up (s : State) (n : Nat) (f : Port → Port) : (s.modPort n f).up = s.up := rfl
@[simp] theorem State.modPort_fid (s : State) (n : Nat) (f : Port → Port) : (s.modPort n f).fid = s.fid := rfl

/-! ### The first number that is free -/

/-- A number found free is not in use, lies in the range that was searched, and every number before it is in use. -/
theorem firstFree_some {used : List Nat} {lo n k : Nat} (h : firstFree used lo n = some k) :
    k ∉ used ∧ lo ≤ k ∧ k < lo + n ∧ ∀ j, lo ≤ j → j < k → j ∈ used := by
  induction n generalizing lo with
  | zero => simp [firstFree] at h
  | succ n ih =>
    unfold firstFree at h
    split at h
    · rename_i hc
      obtain ⟨a, b, c, e⟩ := ih h
      refine ⟨a, by omega, by omega, fun j h1 h2 => ?_⟩
      by_cases hj : j = lo
      · subst hj; simpa using hc
      · exact e j (by omega) h2
    · rename_i hc
      simp only [Option.some.injEq] at h; subst h
      exact ⟨by simpa using hc, le_refl _, by omega, fun j h1 h2 => by omega⟩

/-- Where none is found free every number of the range is in use. -/
theorem firstFree_none {used : List Nat} {lo n : Nat} (h : firstFree used lo n = none) : ∀ j, lo ≤ j → j < lo + n → j ∈ used := by
  induction n generalizing lo with
  | zero => intro j a b; omega
  | succ n ih =>
    unfold firstFree at h
    split at h
    · rename_i hc
      intro j a b
      by_cases hj : j = lo
      · subst hj; simpa using hc
      · exact ih h j (by omega) (by omega)
    · simp at h

/-- One more number than are in use is enough: a free one is found, at most as large as their count. -/
theorem firstFree_full (used : List Nat) : ∃ k, firstFree used 0 (used.length + 1) = some k ∧ k ∉ used ∧ k ≤ used.length := by
  cases h : firstFree used 0 (used.length + 1) with
  | none =>
    have hs : List.range (used.length + 1) ⊆ used := fun j hj =>
      firstFree_none h j (Nat.zero_le _) (by have := List.mem_range.mp hj; omega)
    have := ((List.nodup_range (n := used.length + 1)).subperm hs).length_le
    simp at this
  | some k =>
    obtain ⟨a, _, c, _⟩ := firstFree_some h
    exact ⟨k, rfl, a, by omega⟩

end Sys2Proof.Machine
end

