-- ==== Sys2Proof/Laws/HostSide.lean ====
section
/-! SUPPORT. What raising an event, writing a completion and ending an operation can change: what has left the block, the rings, the
functions, the outstanding operations, and the requests that write an operation's data with the number that names it; and nothing else. -/

namespace Sys2Proof.Machine

open Sys2Proof

/-- Two states differ at most in what has left the block, the rings, the functions, the outstanding operations, the requests and the count
of free values. -/
def HostSide (s t : State) : Prop :=
  t = { s with out := t.out, rings := t.rings, fns := t.fns, ops := t.ops, reqs := t.reqs, reqWait := t.reqWait, freeIx := t.freeIx }

theorem HostSide.refl (s : State) : HostSide s s := rfl

theorem HostSide.trans {s t u : State} (h : HostSide s t) (g : HostSide t u) : HostSide s u := by
  unfold HostSide at *
  rw [g, h]

/-- Every part that the host side leaves. -/
theorem HostSide.parts {s t : State} (h : HostSide s t) :
    t.pending = s.pending ∧ t.now = s.now ∧ t.power = s.power ∧ t.encl = s.encl ∧ t.mgmt = s.mgmt ∧ t.regs = s.regs ∧
      t.chans = s.chans ∧ t.parts = s.parts ∧ t.peers = s.peers ∧ t.ports = s.ports ∧ t.gates = s.gates ∧
      t.pairs = s.pairs ∧ t.loads = s.loads ∧ t.mirrorDev = s.mirrorDev := by
  rw [h]
  exact ⟨rfl, rfl, rfl, rfl, rfl, rfl, rfl, rfl, rfl, rfl, rfl, rfl, rfl, rfl⟩

theorem HostSide.chan {s t : State} (h : HostSide s t) (n : Nat) : t.chan n = s.chan n := by rw [h]; rfl

theorem HostSide.up {s t : State} (h : HostSide s t) : t.up = s.up := by rw [h]; rfl

/-- A fold of operations of the host side. -/
theorem foldl_host {α : Type} (f : State → α → State) (h : ∀ s a, HostSide s (f s a)) (l : List α) (s : State) :
    HostSide s (l.foldl f s) := by
  induction l generalizing s with
  | nil => rfl
  | cons a l ih => exact (h s a).trans (ih _)

theorem emit_host (s : State) (o : Out) : HostSide s (s.emit o) := rfl

theorem setFn_host (s : State) (n : Nat) (f : Fn) : HostSide s (s.setFn n f) := rfl

theorem modFn_host (s : State) (n : Nat) (f : Fn → Fn) : HostSide s (s.modFn n f) := rfl

theorem setRing_host (s : State) (n : Nat) (r : Ring) : HostSide s (s.setRing n r) := rfl

theorem trySend_host (fn vec : Nat) (s : State) : HostSide s (trySend fn vec s) := by
  unfold trySend
  dsimp only
  (repeat' split) <;> rfl

theorem onCause_host (fn vec : Nat) (s : State) : HostSide s (onCause fn vec s) := by
  unfold onCause
  exact (setFn_host _ _ _).trans (trySend_host _ _ _)

theorem writeEvent_host (fn : Nat) (h : HeldEvent) (s : State) : HostSide s (writeEvent fn h s) := by
  unfold writeEvent
  exact ((emit_host _ _).trans (setRing_host _ _ _)).trans (onCause_host _ _ _)

theorem postEvent_host (fn : Nat) (h : HeldEvent) (s : State) : HostSide s (postEvent fn h s) := by
  unfold postEvent
  dsimp only
  split
  · rfl
  · split
    · exact writeEvent_host _ _ _
    · split <;> rfl

theorem raiseEventN_host (fn : Nat) (ev : Event) (src n : Nat) (s : State) : HostSide s (raiseEventN fn ev src n s) := by
  unfold raiseEventN
  dsimp only
  split
  · split
    · exact (setFn_host _ _ _).trans (postEvent_host _ _ _)
    · rfl
  · exact postEvent_host _ _ _

theorem raiseEvent_host (fn : Nat) (ev : Event) (src : Nat) (s : State) : HostSide s (raiseEvent fn ev src s) := raiseEventN_host _ _ _ _ _

theorem drainEvents_host (fn n : Nat) (s : State) : HostSide s (drainEvents fn n s) := by
  induction n generalizing s with
  | zero => rfl
  | succ n ih =>
    unfold drainEvents
    dsimp only
    split
    · split
      · exact ((setFn_host _ _ _).trans (writeEvent_host _ _ _)).trans (ih _)
      · split
        · rfl
        · exact ((setFn_host _ _ _).trans (writeEvent_host _ _ _)).trans (ih _)
    · rfl

theorem ringRoom_host (ring : Nat) (s : State) : HostSide s (ringRoom ring s) := foldl_host _ (fun _ _ => drainEvents_host _ _ _) _ _

theorem ringFault_host (ring err : Nat) (s : State) : HostSide s (ringFault ring err s) :=
  (setRing_host _ _ _).trans (raiseEvent_host _ _ _ _)

theorem writes_host (unit fn flow : Nat) (w : List (Nat × Payload)) (s : State) :
    HostSide s (w.foldl (fun s x => s.emit (.hostWrite unit fn flow x.1 x.2)) s) :=
  foldl_host _ (fun s _ => emit_host s _) w s

theorem postCompletion_host (d : Hdr) (op : Nat) (st : Status) (res : List Nat) (w : List (Nat × Payload)) (s : State) :
    HostSide s (postCompletion d op st res w s) := by
  unfold postCompletion
  dsimp only
  split
  · have h := writes_host (if (s.ring d.ring).target < 8 then (s.ring d.ring).target else 8) (s.ring d.ring).owner d.flow w s
    generalize List.foldl _ s w = u at *
    split
    · exact ((h.trans (emit_host _ _)).trans (setRing_host _ _ _)).trans (onCause_host _ _ _)
    · exact (h.trans (emit_host _ _)).trans (setRing_host _ _ _)
  · rfl

theorem reached_host {op : RunOp} {s t : State} {st : Status} {r : List Nat} (h : reached op s = some (st, r, t)) : HostSide s t := by
  unfold reached at h
  (repeat' split at h) <;> simp only [reduceCtorEq, Option.some.injEq, Prod.mk.injEq] at h <;> (obtain ⟨-, -, rfl⟩ := h; rfl)

theorem firstReached_host {l : List RunOp} {op : RunOp} {s t : State} {st : Status} {r : List Nat}
    (h : firstReached l s = some (op, st, r, t)) : HostSide s t := by
  induction l with
  | nil => simp [firstReached] at h
  | cons o l ih =>
    unfold firstReached at h
    split at h
    · rename_i hr
      simp only [Option.some.injEq, Prod.mk.injEq] at h
      obtain ⟨-, -, -, rfl⟩ := h
      exact reached_host hr
    · exact ih h

theorem finishOp_host (op : RunOp) (st : Status) (res : List Nat) (w : List (Nat × Payload)) (s : State) :
    HostSide s (finishOp op st res w s) := by
  unfold finishOp
  dsimp only
  split
  · have h := HostSide.trans (t := dropOp op s) rfl (writes_host (if op.target < 8 then op.target else 8) op.fn op.hdr.flow w (dropOp op s))
    generalize List.foldl _ (dropOp op s) w = u at *
    split
    · exact (h.trans (setFn_host _ _ _)).trans (raiseEvent_host _ _ _ _)
    · exact h.trans (setFn_host _ _ _)
  · exact HostSide.trans (t := dropOp op s) rfl (postCompletion_host _ _ _ _ _ _)

theorem settle_host (n : Nat) (s : State) : HostSide s (settle n s) := by
  induction n generalizing s with
  | zero => rfl
  | succ n ih =>
    unfold settle
    split
    · rfl
    · exact ((firstReached_host (by assumption)).trans (finishOp_host _ _ _ _ _)).trans (ih _)

/-! ### Requests -/

/-- Two states differ at most in the requests outstanding, those that wait, and what has left the block. -/
def ReqSide (s t : State) : Prop := t = { s with out := t.out, reqs := t.reqs, reqWait := t.reqWait }

theorem ReqSide.trans {s t u : State} (h : ReqSide s t) (g : ReqSide t u) : ReqSide s u := by
  unfold ReqSide at *
  rw [g, h]

theorem releaseOne_req (s : State) : ReqSide s (releaseOne s) := by
  unfold releaseOne
  split <;> rfl

theorem releaseReqs_req (n : Nat) (s : State) : ReqSide s (releaseReqs n s) := by
  induction n generalizing s with
  | zero => rfl
  | succ n ih =>
    unfold releaseReqs
    split
    · exact (releaseOne_req s).trans (ih _)
    · rfl

theorem dropReqs_req (f : ReqKind → Bool) (s : State) : ReqSide s (dropReqs f s) := rfl

theorem dropReq_req (r : Request) (s : State) : ReqSide s (dropReq r s) := by
  exact ReqSide.trans (t := { s with reqs := s.reqs.erase r }) rfl (releaseOne_req _)

/-- A request sent changes nothing but the requests and what has left the block. -/
theorem sendReq_req {unit fid dst fn : Nat} {k : ReqKind} {op : PktOp} {a : Nat} {p : Payload} {s t : State}
    (h : sendReq unit fid dst fn k op a p s = .ok t) : ReqSide s t := by
  unfold sendReq at h
  dsimp only at h
  (repeat' split at h) <;> simp only [reduceCtorEq, Except.ok.injEq] at h <;> subst h <;> rfl

theorem closeOp_host (op : RunOp) (st : Status) (res : List Nat) (w : List (Nat × Payload)) (s : State) :
    HostSide s (closeOp op st res w s) := (finishOp_host _ _ _ _ _).trans (settle_host _ _)

theorem dataDone_host (id : Nat) (s : State) : HostSide s (dataDone id s) := by
  unfold dataDone
  (repeat' split) <;> first | rfl | exact closeOp_host _ _ _ _ _

theorem ReqSide.host {s t : State} (h : ReqSide s t) : HostSide s t := by
  unfold ReqSide at h
  rw [h]
  rfl

theorem addOp_host (op : Nat) (d : Hdr) (fn t : Nat) (ranges : List (Nat × Nat)) (b : Bool) (k : RunKind) (s : State) :
    HostSide s (addOp op d fn t ranges b k s) := rfl

theorem endOp_host (op : RunOp) (st : Status) (res : List Nat) (w : List (Nat × Payload)) (s : State) :
    HostSide s (endOp op st res w s) := by
  unfold endOp
  dsimp only
  split
  · refine HostSide.trans ?_ (dataDone_host _ _)
    refine HostSide.trans ?_ (foldl_host _ (fun s a => ?_) _ _)
    · rfl
    · split
      · exact (sendReq_req (by assumption)).host
      · rfl
  · exact closeOp_host _ _ _ _ _

/-- A completion changes nothing outside the host side. -/
theorem complete_host (d : Hdr) (op : Nat) (st : Status) (res : List Nat) (w : List (Nat × Payload)) (s : State) :
    HostSide s (complete d op st res w s) := by
  unfold complete
  dsimp only
  (repeat' split)
  · exact (addOp_host _ _ _ _ _ _ _ _).trans (endOp_host _ _ _ _ _)
  · rfl
  · exact (postCompletion_host _ _ _ _ _ _).trans (settle_host _ _)

/-! ### Many operations -/

theorem endOps_host (p : RunOp → Bool) (st : Status) (s : State) : HostSide s (endOps p st s) :=
  foldl_host _ (fun _ _ => endOp_host _ _ _ _ _) _ _

theorem endChannelOps_host (n : Nat) (st : Status) (s : State) : HostSide s (endChannelOps n st s) := by
  unfold endChannelOps
  refine (endOps_host (opOn n) st s).trans ?_
  refine foldl_host (fun (s : State) (e : Nat × Ring) => e.2.accepted.foldl (fun s d => complete (hdrOf e.1 d) d.opcode st [] [] s) s)
    (fun s e => ?_) _ _
  exact foldl_host _ (fun _ _ => complete_host _ _ _ _ _ _) _ _

/-- With no operation outstanding and no data for a channel's own port to write, a completion is the entry alone. -/
theorem complete_alone (d : Hdr) (op : Nat) (st : Status) (res : List Nat) (w : List (Nat × Payload)) (s : State)
    (h : (postCompletion d op st res w s).ops = []) (hw : (s.ring d.ring).target < 8 → w = []) :
    complete d op st res w s = postCompletion d op st res w s := by
  have : ¬((s.ring d.ring).target < 8 ∧ (!w.isEmpty) = true) := fun g => by simp [hw g.1] at g
  simp only [complete, if_neg this, h]
  simp [settle]

end Sys2Proof.Machine
end

