-- ==== Sys2Proof/Laws/Accept.lean ====
section
/-! SUPPORT. What the gates before a command's own effect answer: an up block, the acceptance of a descriptor, a session handle, an
exception entry, and the arrival of a packet. -/

namespace Sys2Proof.Machine

open Sys2Proof

theorem whenUp_next {f : State → State} {s : State} (h : s.up = true) : whenUp f s = .next (f s) := by simp [whenUp, h]

theorem whenUp_down {f : State → State} {s : State} (h : s.up = false) : whenUp f s = .next s := by simp [whenUp, h]

theorem accept_next {op fn t : Nat} {d : Hdr} {f : Nat → Nat → State → State} {s : State} (h : Accepts op d fn t s) :
    accept op d f s = .next (f fn t s) := by
  obtain ⟨h1, h2, h3, h4, rfl, rfl⟩ := h
  simp [accept, whenUp, h1, h2, h3, h4]

/-- A descriptor that fails a common check completes with its status (R380). -/
theorem accept_refused {op : Nat} {d : Hdr} {f : Nat → Nat → State → State} {s : State} {st : Status} (h1 : s.up = true)
    (h2 : ringLive d.ring s = true) (h3 : s.encl.bootFailed = false) (h4 : commonCheck op d s = some st) :
    accept op d f s = .next (complete d op st [] [] s) := by
  simp [accept, whenUp, h1, h2, h3, h4]

theorem onSession_next {op fn ch : Nat} {d : Hdr} {h : Handle} {f : Nat → Nat → State → State} {s : State}
    (g : OnSession op d h fn ch s) : onSession op d h f s = .next (f fn ch s) := by
  rw [onSession, accept_next g.1, g.2]

theorem withEntry_next {op : Nat} {d : Hdr} {f : State → State} {s : State} (h : EntryFree s) : withEntry op d f s = f (takeEntry s) := by
  have := h.2
  simp [withEntry, h.1, Nat.not_le.mpr this]

theorem arrive_next {p : Pkt} {f : State → State} {s : State} (h : Arrives p s) : arrive p f s = f s := by
  obtain ⟨-, h2, h3, h4⟩ := h
  have : ¬8 < p.port := by omega
  simp [arrive, this, h3, h4]

end Sys2Proof.Machine
end

