-- ==== Sys2Proof/Laws/Kept.lean ====
section
/-! SUPPORT. What only a few commands change: the queue of commands, the fuses and the level of PORST_N. One lemma per operation says
that it leaves them. -/

namespace Sys2Proof.Machine

open Sys2Proof

/-- A state has the queue, the fuses and the level of PORST_N of another. -/
abbrev Kept (s t : State) : Prop := t.pending = s.pending ∧ t.encl.fuses = s.encl.fuses ∧ t.power.porstN = s.power.porstN

theorem Kept.trans {s t u : State} (h : Kept s t) (g : Kept t u) : Kept s u :=
  ⟨g.1.trans h.1, g.2.1.trans h.2.1, g.2.2.trans h.2.2⟩

@[simp] theorem ite_pending (c : Prop) [Decidable c] (s t : State) : (if c then s else t).pending = if c then s.pending else t.pending := by
  split <;> rfl
@[simp] theorem ite_fuses (c : Prop) [Decidable c] (s t : State) :
    (if c then s else t).encl.fuses = if c then s.encl.fuses else t.encl.fuses := by
  split <;> rfl
@[simp] theorem ite_porstN (c : Prop) [Decidable c] (s t : State) :
    (if c then s else t).power.porstN = if c then s.power.porstN else t.power.porstN := by
  split <;> rfl

/-- A fold of operations that keep keeps. -/
theorem foldl_kept {α : Type} (f : State → α → State) (h : ∀ s a, Kept s (f s a)) (l : List α) (s : State) : Kept s (l.foldl f s) := by
  induction l generalizing s with
  | nil => exact ⟨rfl, rfl, rfl⟩
  | cons a l ih => exact (h s a).trans (ih (f s a))

/-- A fold over something that carries a state keeps when each of its steps does. -/
theorem foldl_proj_kept {α β : Type} (g : β → State) (f : β → α → β) (h : ∀ b a, Kept (g b) (g (f b a))) (l : List α) (b : β) :
    Kept (g b) (g (l.foldl f b)) := by
  induction l generalizing b with
  | nil => exact ⟨rfl, rfl, rfl⟩
  | cons a l ih => exact (h b a).trans (ih (f b a))

end Sys2Proof.Machine
end

