-- ==== Sys2Proof/Laws/KeptSessions.lean ====
section
/-! SUPPORT. `Kept` of the shared operations, sessions, text and the exchange of ATTN steps: one lemma per operation. -/

namespace Sys2Proof.Machine

open Sys2Proof

/-! ### Ops -/

@[simp] theorem State.setRing_kept (s : State) (a0 : Nat) (a1 : Ring) : Kept s (State.setRing s a0 a1) := by
  unfold State.setRing
  simp [Kept]
@[simp] theorem State.modRing_kept (s : State) (a0 : Nat) (a1 : Ring → Ring) : Kept s (State.modRing s a0 a1) := by
  unfold State.modRing
  simp [Kept]
@[simp] theorem State.setFn_kept (s : State) (a0 : Nat) (a1 : Fn) : Kept s (State.setFn s a0 a1) := by
  unfold State.setFn
  simp [Kept]
@[simp] theorem State.modFn_kept (s : State) (a0 : Nat) (a1 : Fn → Fn) : Kept s (State.modFn s a0 a1) := by
  unfold State.modFn
  simp [Kept]
@[simp] theorem State.setChan_kept (s : State) (a0 : Nat) (a1 : Chan) : Kept s (State.setChan s a0 a1) := by
  unfold State.setChan
  simp [Kept]
@[simp] theorem State.modChan_kept (s : State) (a0 : Nat) (a1 : Chan → Chan) : Kept s (State.modChan s a0 a1) := by
  unfold State.modChan
  simp [Kept]
@[simp] theorem State.setPort_kept (s : State) (a0 : Nat) (a1 : Port) : Kept s (State.setPort s a0 a1) := by
  unfold State.setPort
  simp [Kept]
@[simp] theorem State.modPort_kept (s : State) (a0 : Nat) (a1 : Port → Port) : Kept s (State.modPort s a0 a1) := by
  unfold State.modPort
  simp [Kept]
@[simp] theorem State.setLane_kept (s : State) (a0 : Nat) (a1 : Lane) : Kept s (State.setLane s a0 a1) := by
  unfold State.setLane
  simp [Kept]
@[simp] theorem State.setPeer_kept (s : State) (a0 : Nat) (a1 : Peer) : Kept s (State.setPeer s a0 a1) := by
  unfold State.setPeer
  simp [Kept]
@[simp] theorem State.setPart_kept (s : State) (a0 : Nat) (a1 : Partition) : Kept s (State.setPart s a0 a1) := by
  unfold State.setPart
  simp [Kept]
@[simp] theorem State.setPair_kept (s : State) (a0 : Nat) (a1 : Pair) : Kept s (State.setPair s a0 a1) := by
  unfold State.setPair
  simp [Kept]
@[simp] theorem State.setShaper_kept (s : State) (a0 : Nat) (a1 : Shaper) : Kept s (State.setShaper s a0 a1) := by
  unfold State.setShaper
  simp [Kept]
@[simp] theorem State.setGate_kept (s : State) (a0 : Nat) (a1 : Gate) : Kept s (State.setGate s a0 a1) := by
  unfold State.setGate
  simp [Kept]
@[simp] theorem State.setComp_kept (s : State) (a0 : Nat) (a1 : Composition) : Kept s (State.setComp s a0 a1) := by
  unfold State.setComp
  simp [Kept]
@[simp] theorem State.setMonitor_kept (s : State) (a0 : Nat) (a1 : Monitor) : Kept s (State.setMonitor s a0 a1) := by
  unfold State.setMonitor
  simp [Kept]
@[simp] theorem State.emit_kept (s : State) (a0 : Out) : Kept s (State.emit s a0) := by
  unfold State.emit
  simp [Kept]
@[simp] theorem State.advanceFree_kept (s : State) : Kept s (State.advanceFree s) := by
  unfold State.advanceFree
  simp [Kept]
@[simp] theorem trySend_kept (a0 : Nat) (a1 : Nat) (s : State) : Kept s (trySend a0 a1 s) := by
  unfold trySend
  simp [Kept]
@[simp] theorem onCause_kept (a0 : Nat) (a1 : Nat) (s : State) : Kept s (onCause a0 a1 s) := by
  unfold onCause
  simp [Kept]
@[simp] theorem writeEvent_kept (a0 : Nat) (a1 : HeldEvent) (s : State) : Kept s (writeEvent a0 a1 s) := by
  unfold writeEvent
  simp [Kept]
@[simp] theorem postEvent_kept (a0 : Nat) (a1 : HeldEvent) (s : State) : Kept s (postEvent a0 a1 s) := by
  unfold postEvent
  simp [Kept]
@[simp] theorem raiseEventN_kept (a0 : Nat) (a1 : Event) (a2 : Nat) (a3 : Nat) (s : State) : Kept s (raiseEventN a0 a1 a2 a3 s) := by
  unfold raiseEventN
  (repeat' split) <;> simp [Kept]
@[simp] theorem raiseEvent_kept (a0 : Nat) (a1 : Event) (a2 : Nat) (s : State) : Kept s (raiseEvent a0 a1 a2 s) := by
  unfold raiseEvent
  simp [Kept]
@[simp] theorem drainEvents_kept (a0 : Nat) (a1 : Nat) (s : State) : Kept s (drainEvents a0 a1 s) := by
  induction a1 generalizing a0 s with
  | zero => simp [drainEvents, Kept]
  | succ n ih =>
    unfold drainEvents
    (try dsimp only)
    (repeat' split) <;> simp_all [Kept]
@[simp] theorem ringRoom_kept (a0 : Nat) (s : State) : Kept s (ringRoom a0 s) := by
  unfold ringRoom
  simp [Kept, foldl_kept]
@[simp] theorem memPoison_kept (a0 : Nat) (a1 : Nat) (a2 : Nat) (a3 : Nat) (s : State) : Kept s (memPoison a0 a1 a2 a3 s) := by
  unfold memPoison
  simp [Kept]
@[simp] theorem postCompletion_kept (a0 : Hdr) (a1 : Nat) (a2 : Status) (a3 : List Nat) (a4 : List (Nat × Payload)) (s : State) : Kept s (postCompletion a0 a1 a2 a3 a4 s) := by
  unfold postCompletion
  (repeat' split) <;> simp [Kept, foldl_kept]
theorem reached_kept {op : RunOp} {s t : State} {st : Status} {r : List Nat} (h : reached op s = some (st, r, t)) : Kept s t := by
  unfold reached at h
  (repeat' split at h) <;> simp_all [Kept]
  all_goals (obtain ⟨-, -, rfl⟩ := h; simp)
@[simp] theorem dropOp_kept (a0 : RunOp) (s : State) : Kept s (dropOp a0 s) := by
  unfold dropOp
  simp [Kept]
@[simp] theorem finishOp_kept (a0 : RunOp) (a1 : Status) (a2 : List Nat) (a3 : List (Nat × Payload)) (s : State) : Kept s (finishOp a0 a1 a2 a3 s) := by
  unfold finishOp
  (repeat' split) <;> simp [Kept, foldl_kept]
theorem firstReached_kept {l : List RunOp} {op : RunOp} {s t : State} {st : Status} {r : List Nat}
    (h : firstReached l s = some (op, st, r, t)) : Kept s t := by
  induction l with
  | nil => simp [firstReached] at h
  | cons o l ih =>
    unfold firstReached at h
    split at h
    · rename_i hr
      simp only [Option.some.injEq, Prod.mk.injEq] at h
      obtain ⟨-, -, -, rfl⟩ := h
      exact reached_kept hr
    · exact ih h
@[simp] theorem settle_kept (a0 : Nat) (s : State) : Kept s (settle a0 s) := by
  induction a0 generalizing s with
  | zero => simp [settle, Kept]
  | succ n ih =>
    unfold settle
    split
    · simp [Kept]
    · rename_i h
      have hk := firstReached_kept h
      simp_all [Kept]
@[simp] theorem addOp_kept (a0 : Nat) (a1 : Hdr) (a2 : Nat) (a3 : Nat) (a4 : List (Nat × Nat)) (a5 : Bool) (a6 : RunKind) (s : State) : Kept s (addOp a0 a1 a2 a3 a4 a5 a6 s) := by
  unfold addOp
  simp [Kept]
@[simp] theorem launch_kept (a0 : Request) (a1 : PktOp) (a2 : Nat) (a3 : Payload) (s : State) : Kept s (launch a0 a1 a2 a3 s) := by
  unfold launch
  simp [Kept]
theorem sendReq_kept {u f g n : Nat} {k : ReqKind} {op : PktOp} {a : Nat} {p : Payload} {s t : State}
    (h : sendReq u f g n k op a p s = .ok t) : Kept s t := by
  unfold sendReq at h
  dsimp only at h
  (repeat' split at h) <;> first | cases h; simp [Kept] | simp at h
@[simp] theorem releaseOne_kept (s : State) : Kept s (releaseOne s) := by
  unfold releaseOne
  (repeat' split) <;> simp [Kept]
@[simp] theorem releaseReqs_kept (a0 : Nat) (s : State) : Kept s (releaseReqs a0 s) := by
  induction a0 generalizing s with
  | zero => simp [releaseReqs, Kept]
  | succ n ih =>
    unfold releaseReqs
    (repeat' split) <;> simp_all [Kept]
@[simp] theorem dropReq_kept (a0 : Request) (s : State) : Kept s (dropReq a0 s) := by
  unfold dropReq
  simp [Kept]
@[simp] theorem dropReqs_kept (a0 : ReqKind → Bool) (s : State) : Kept s (dropReqs a0 s) := by
  unfold dropReqs
  simp [Kept]
@[simp] theorem closeOp_kept (a0 : RunOp) (a1 : Status) (a2 : List Nat) (a3 : List (Nat × Payload)) (s : State) : Kept s (closeOp a0 a1 a2 a3 s) := by
  simp [closeOp, Kept]
@[simp] theorem dataDone_kept (a0 : Nat) (s : State) : Kept s (dataDone a0 s) := by
  unfold dataDone
  (repeat' split) <;> simp [Kept]
/-- A fold that sends requests, each where it can. -/
theorem foldl_sends_kept {α : Type} (f : State → α → State) (h : ∀ s a, f s a = s ∨ ∃ u fi g n k op ad p, sendReq u fi g n k op ad p s = .ok (f s a))
    (l : List α) (s : State) : Kept s (l.foldl f s) :=
  foldl_kept f (fun s a => by
    rcases h s a with h | ⟨u, fi, g, n, k, op, ad, p, h⟩
    · rw [h]; exact ⟨rfl, rfl, rfl⟩
    · exact sendReq_kept h) l s
@[simp] theorem endOp_kept (a0 : RunOp) (a1 : Status) (a2 : List Nat) (a3 : List (Nat × Payload)) (s : State) :
    Kept s (endOp a0 a1 a2 a3 s) := by
  unfold endOp
  split
  · dsimp only
    refine Kept.trans ?_ (dataDone_kept _ _)
    refine Kept.trans ?_ (foldl_sends_kept _ (fun s a => ?_) _ _)
    · exact ⟨rfl, rfl, rfl⟩
    · split
      · rename_i h
        exact Or.inr ⟨_, _, _, _, _, _, _, _, h⟩
      · exact Or.inl rfl
  · exact closeOp_kept _ _ _ _ _
@[simp] theorem complete_kept (a0 : Hdr) (a1 : Nat) (a2 : Status) (a3 : List Nat) (a4 : List (Nat × Payload)) (s : State) : Kept s (complete a0 a1 a2 a3 a4 s) := by
  unfold complete
  (try dsimp only)
  (repeat' split) <;> simp_all [Kept]
@[simp] theorem endOps_kept (a0 : RunOp → Bool) (a1 : Status) (s : State) : Kept s (endOps a0 a1 s) := by
  unfold endOps
  simp [Kept, foldl_kept]
@[simp] theorem setAlert_kept (a0 : Nat) (s : State) : Kept s (setAlert a0 s) := by
  unfold setAlert
  simp [Kept]
@[simp] theorem enterCongested_kept (s : State) : Kept s (enterCongested s) := by
  unfold enterCongested
  (repeat' split) <;> simp [Kept]
@[simp] theorem leaveCongested_kept (s : State) : Kept s (leaveCongested s) := by
  unfold leaveCongested
  (repeat' split) <;> simp [Kept]
@[simp] theorem takeEntry_kept (s : State) : Kept s (takeEntry s) := by
  unfold takeEntry
  simp [Kept]
@[simp] theorem errorLog_kept (s : State) : Kept s (errorLog s) := by
  unfold errorLog
  (repeat' split) <;> simp [Kept]
@[simp] theorem withEntry_kept (a0 : Nat) (a1 : Hdr) (a2 : State → State) (s : State) (h3 : ∀ s, Kept s (a2 s)) : Kept s (withEntry a0 a1 a2 s) := by
  unfold withEntry
  (repeat' split) <;> simp_all [Kept]

/-! ### Regs -/

@[simp] theorem setSel_kept (a0 : Requester) (a1 : Nat) (a2 : Nat) (s : State) : Kept s (setSel a0 a1 a2 s) := by
  unfold setSel
  simp [Kept]
@[simp] theorem setEff_kept (a0 : Nat) (a1 : Nat) (s : State) : Kept s (setEff a0 a1 s) := by
  unfold setEff
  simp [Kept]

/-! ### Session -/

@[simp] theorem done_kept (a0 : Hdr) (a1 : Nat) (a2 : Status) (a3 : List Nat) (a4 : List (Nat × Payload)) (s : State) : Kept s (done a0 a1 a2 a3 a4 s) := by
  unfold done
  (repeat' split) <;> simp [Kept]
@[simp] theorem holdPending_kept (a0 : Instr) (a1 : Hdr) (a2 : Nat) (a3 : Nat) (a4 : Nat) (a5 : Nat) (a6 : List Nat) (s : State) : Kept s (holdPending a0 a1 a2 a3 a4 a5 a6 s) := by
  unfold holdPending
  (try dsimp only)
  (repeat' split) <;> simp_all [Kept]
@[simp] theorem onVerdictWith_kept (a0 : List Nat) (a1 : Verdict) (a2 : Instr) (a3 : Hdr) (a4 : Nat) (a5 : Nat) (a6 : Nat) (a7 : Nat) (a8 : State → State) (s : State) (ha8 : ∀ s, Kept s (a8 s)) : Kept s (onVerdictWith a0 a1 a2 a3 a4 a5 a6 a7 a8 s) := by
  unfold onVerdictWith
  (repeat' split) <;> simp_all [Kept]
@[simp] theorem onVerdict_kept (a0 : Verdict) (a1 : Instr) (a2 : Hdr) (a3 : Nat) (a4 : Nat) (a5 : Nat) (a6 : Nat) (a7 : State → State) (s : State) (h8 : ∀ s, Kept s (a7 s)) : Kept s (onVerdict a0 a1 a2 a3 a4 a5 a6 a7 s) := by
  unfold onVerdict
  simp_all [Kept]
@[simp] theorem endPending_kept (a0 : Nat) (a1 : Nat) (a2 : Status) (s : State) : Kept s (endPending a0 a1 a2 s) := by
  unfold endPending
  refine Kept.trans ?_ (foldl_kept _ (fun s a => ?_) _ _)
  · simp [Kept]
  · split <;> simp [Kept]
@[simp] theorem closeNow_kept (a0 : Hdr) (a1 : Nat) (a2 : Nat) (s : State) : Kept s (closeNow a0 a1 a2 s) := by
  unfold closeNow
  (repeat' split) <;> simp [Kept]
@[simp] theorem sessClose_kept (a0 : Instr) (a1 : Hdr) (a2 : Handle) (a3 : Nat) (a4 : Nat) (s : State) : Kept s (sessClose a0 a1 a2 a3 a4 s) := by
  unfold sessClose
  simp [Kept]
@[simp] theorem forkNow_kept (a0 : Hdr) (a1 : Nat) (a2 : Nat) (a3 : Nat) (s : State) : Kept s (forkNow a0 a1 a2 a3 s) := by
  unfold forkNow
  (try dsimp only)
  (repeat' split) <;> simp_all [Kept]
@[simp] theorem sessFork_kept (a0 : Instr) (a1 : Hdr) (a2 : Handle) (a3 : Nat) (a4 : Nat) (s : State) : Kept s (sessFork a0 a1 a2 a3 a4 s) := by
  unfold sessFork
  simp [Kept]
theorem resumeRun_kept {a b c d : Nat} {e : Bool} {s t : State} (h : resumeRun a b c d e s = some t) : Kept s t := by
  unfold resumeRun at h
  dsimp only at h
  split at h
  · simp at h
  · obtain ⟨c', -, rfl⟩ := Option.map_eq_some_iff.mp h
    simp [Kept]
@[simp] theorem resumeNow_kept (a0 : Hdr) (a1 : Nat) (a2 : Nat) (a3 : Nat) (a4 : Nat) (a5 : Bool) (a6 : Bool) (s : State) : Kept s (resumeNow a0 a1 a2 a3 a4 a5 a6 s) := by
  unfold resumeNow
  (try dsimp only)
  (repeat' split) <;> (first | (have hk := resumeRun_kept (by assumption); simp_all [Kept]; done) | (simp_all [Kept]; done))
@[simp] theorem sessResume_kept (a0 : Instr) (a1 : Hdr) (a2 : Handle) (a3 : Nat) (a4 : Nat) (a5 : Bool) (a6 : Bool) (a7 : Nat) (a8 : Nat) (s : State) : Kept s (sessResume a0 a1 a2 a3 a4 a5 a6 a7 a8 s) := by
  unfold sessResume
  simp [Kept]
@[simp] theorem setNow_kept (a0 : Hdr) (a1 : Nat) (a2 : Nat) (a3 : ParamImage) (a4 : Bool) (a5 : Nat) (a6 : Bool) (s : State) : Kept s (setNow a0 a1 a2 a3 a4 a5 a6 s) := by
  unfold setNow
  (repeat' split) <;> simp [Kept]
@[simp] theorem sessSet_kept (a0 : Instr) (a1 : Hdr) (a2 : Handle) (a3 : ParamImage) (a4 : Bool) (a5 : Nat) (a6 : Bool) (a7 : Nat) (a8 : Nat) (s : State) : Kept s (sessSet a0 a1 a2 a3 a4 a5 a6 a7 a8 s) := by
  unfold sessSet
  simp [Kept]

/-! ### Text -/

@[simp] theorem textNow_kept (a0 : Hdr) (a1 : TextArgs) (a2 : Nat) (a3 : Nat) (s : State) : Kept s (textNow a0 a1 a2 a3 s) := by
  unfold textNow
  (try dsimp only)
  (repeat' split) <;> simp_all [Kept]
@[simp] theorem sessText_kept (a0 : Instr) (a1 : Hdr) (a2 : TextArgs) (a3 : Nat) (a4 : Nat) (s : State) : Kept s (sessText a0 a1 a2 a3 a4 s) := by
  unfold sessText
  simp [Kept]

/-! ### Bulk -/

@[simp] theorem dispatchChan_kept (a0 : Nat) (s : State) : Kept s (dispatchChan a0 s) := by
  unfold dispatchChan
  simp [Kept]
@[simp] theorem addSticky_kept (a0 : Nat) (a1 : Nat) (s : State) : Kept s (addSticky a0 a1 s) := by
  simp [addSticky, Kept]
@[simp] theorem countMiss_kept (a0 : Nat) (a1 : Nat) (a2 : Nat) (a3 : Nat) (s : State) : Kept s (countMiss a0 a1 a2 a3 s) := by
  unfold countMiss
  (repeat' split) <;> simp [Kept]

/-! ### AttnHost -/

@[simp] theorem appendNow_kept (a0 : Hdr) (a1 : AppendArgs) (a2 : Bool) (a3 : Nat) (a4 : Nat) (a5 : Nat) (s : State) : Kept s (appendNow a0 a1 a2 a3 a4 a5 s) := by
  unfold appendNow
  (try dsimp only)
  (repeat' split) <;> simp_all [Kept]
@[simp] theorem sessAppend_kept (a0 : Instr) (a1 : Hdr) (a2 : AppendArgs) (a3 : Bool) (a4 : Nat) (a5 : Nat) (a6 : Nat) (s : State) : Kept s (sessAppend a0 a1 a2 a3 a4 a5 a6 s) := by
  unfold sessAppend
  simp [Kept]
@[simp] theorem appendUnitDone_kept (a0 : Nat) (a1 : Nat) (a2 : Nat) (a3 : AppendArgs) (a4 : Bool) (a5 : Nat) (a6 : Tbl Nat) (a7 : Tbl Nat) (a8 : Bool) (s : State) : Kept s (appendUnitDone a0 a1 a2 a3 a4 a5 a6 a7 a8 s) := by
  unfold appendUnitDone
  (repeat' split) <;> simp [Kept]

/-! ### Net -/

@[simp] theorem emitPart_kept (a0 : Bool) (a1 : Nat) (a2 : Nat) (a3 : Nat) (a4 : Nat) (a5 : Nat) (a6 : Nat) (a7 : Nat) (a8 : Nat) (a9 : Status) (a10 : List Byte) (s : State) : Kept s (emitPart a0 a1 a2 a3 a4 a5 a6 a7 a8 a9 a10 s) := by
  simp [emitPart, Kept, foldl_kept]
@[simp] theorem answerReqs_kept (a0 : ReqKind → Bool) (s : State) : Kept s (answerReqs a0 s) := by
  unfold answerReqs
  simp [Kept]
@[simp] theorem badPacket_kept (a0 : Nat) (s : State) : Kept s (badPacket a0 s) := by
  unfold badPacket
  simp [Kept]
@[simp] theorem arrive_kept (a0 : Pkt) (a1 : State → State) (s : State) (h2 : ∀ s, Kept s (a1 s)) : Kept s (arrive a0 a1 s) := by
  unfold arrive
  (repeat' split) <;> simp_all [Kept]
@[simp] theorem respond_kept (a0 : Pkt) (a1 : PktOp) (a2 : Status) (a3 : Nat) (a4 : Payload) (s : State) : Kept s (respond a0 a1 a2 a3 a4 s) := by
  unfold respond
  simp [Kept]
@[simp] theorem answerTag_kept (a0 : Request) (a1 : Pkt) (s : State) : Kept s (answerTag a0 a1 s).2 := by
  unfold answerTag
  (try dsimp only)
  (repeat' split) <;> simp_all [Kept]
theorem takeRsp_kept (p : Pkt) (s : State) : Kept s (takeRsp p s).2 := by
  unfold takeRsp
  (repeat' split) <;> simp [Kept]
theorem report_kept (a b c d : Nat) (s : State) : Kept s (report a b c d s).1 := by
  unfold report
  dsimp only
  (repeat' split) <;> simp [Kept]

/-! ### Park -/

@[simp] theorem noPend_kept (a0 : Nat) (a1 : Nat) (s : State) : Kept s (noPend a0 a1 s) := by
  simp [noPend, Kept]
@[simp] theorem parkFail_kept (a0 : Nat → Nat → State → State) (a1 : Nat) (a2 : Nat) (s : State) (ha0 : ∀ x0 x1 s, Kept s (a0 x0 x1 s)) : Kept s (parkFail a0 a1 a2 s) := by
  unfold parkFail
  (try dsimp only)
  (repeat' split) <;> simp_all [Kept]
@[simp] theorem parkSend_kept (a0 : Nat → Nat → State → State) (a1 : Nat) (a2 : Nat) (a3 : Nat) (a4 : Loc) (a5 : Nat) (a6 : Nat × Nat) (s : State) (ha0 : ∀ x0 x1 s, Kept s (a0 x0 x1 s)) : Kept s (parkSend a0 a1 a2 a3 a4 a5 a6 s) := by
  unfold parkSend
  (try dsimp only)
  (repeat' split) <;> (first | (simp_all [Kept]; done) | (have hk := sendReq_kept (by assumption); simp_all [Kept]; done))
@[simp] theorem parkFetch_kept (a0 : Nat → Nat → State → State) (a1 : Nat) (a2 : Nat) (a3 : Nat) (a4 : Nat) (a5 : Loc) (s : State) (ha0 : ∀ x0 x1 s, Kept s (a0 x0 x1 s)) : Kept s (parkFetch a0 a1 a2 a3 a4 a5 s) := by
  unfold parkFetch
  (try dsimp only)
  (repeat' split) <;> (first | (simp_all [Kept]; done) | (have hk := sendReq_kept (by assumption); simp_all [Kept]; done))
@[simp] theorem parkPage_kept (a0 : Nat → Nat → State → State) (a1 : Nat) (a2 : Nat) (a3 : Nat) (a4 : Loc × Nat × Nat) (s : State) (ha0 : ∀ x0 x1 s, Kept s (a0 x0 x1 s)) : Kept s (parkPage a0 a1 a2 a3 a4 s) := by
  unfold parkPage
  (try dsimp only)
  (repeat' split) <;> simp_all [Kept]
@[simp] theorem parkGo_kept (a0 : Nat → Nat → State → State) (a1 : Nat) (a2 : Nat) (s : State) (ha0 : ∀ x0 x1 s, Kept s (a0 x0 x1 s)) : Kept s (parkGo a0 a1 a2 s) := by
  unfold parkGo
  (try dsimp only)
  (repeat' split) <;> simp_all [Kept]
@[simp] theorem parkAck_kept (a0 : Nat → Nat → State → State) (a1 : Nat) (a2 : Nat) (a3 : Status) (s : State) (ha0 : ∀ x0 x1 s, Kept s (a0 x0 x1 s)) : Kept s (parkAck a0 a1 a2 a3 s) := by
  unfold parkAck
  (repeat' split) <;> simp_all [Kept]
@[simp] theorem parkReadRsp_kept (a0 : Nat → Nat → State → State) (a1 : Nat) (a2 : Nat) (a3 : Nat) (a4 : Status) (a5 : Bool) (a6 : Option Envelope) (s : State) (ha0 : ∀ x0 x1 s, Kept s (a0 x0 x1 s)) : Kept s (parkReadRsp a0 a1 a2 a3 a4 a5 a6 s) := by
  unfold parkReadRsp
  (try dsimp only)
  (repeat' split) <;> simp_all [Kept]
@[simp] theorem hold_kept (a0 : Nat) (a1 : Hdr) (a2 : Nat) (a3 : Nat) (a4 : RunKind) (s : State) : Kept s (hold a0 a1 a2 a3 a4 s) := by
  unfold hold
  (repeat' split) <;> simp [Kept]
@[simp] theorem parkNow_kept (a0 : Hdr) (a1 : Nat) (a2 : Nat) (a3 : Nat) (s : State) : Kept s (parkNow a0 a1 a2 a3 s) := by
  unfold parkNow
  (repeat' split) <;> simp [Kept]
@[simp] theorem sessPark_kept (a0 : Instr) (a1 : Hdr) (a2 : Handle) (a3 : Nat) (a4 : Nat) (s : State) : Kept s (sessPark a0 a1 a2 a3 a4 s) := by
  unfold sessPark
  simp [Kept]
@[simp] theorem reviveStop_kept (a0 : Hooks) (a1 : Nat) (a2 : Nat) (a3 : Nat) (a4 : Status) (s : State) (hp : ∀ a b s, Kept s (a0.pend a b s)) (hf : ∀ a b st s, Kept s (a0.failWaiting a b st s)) : Kept s (reviveStop a0 a1 a2 a3 a4 s) := by
  unfold reviveStop
  (try dsimp only)
  (repeat' split) <;> simp_all [Kept]
@[simp] theorem layer0Resident_kept (a0 : Nat) (a1 : Nat) (s : State) : Kept s (layer0Resident a0 a1 s) := by
  unfold layer0Resident
  simp [Kept]
@[simp] theorem reviveEnd_kept (a0 : Nat) (a1 : Nat) (s : State) : Kept s (reviveEnd a0 a1 s) := by
  unfold reviveEnd
  (try dsimp only)
  (repeat' split) <;> simp_all [Kept]
@[simp] theorem reviveRead_kept (a0 : Hooks) (a1 a2 a3 a4 a5 : Nat) (a6 : Loc) (s : State)
    (hp : ∀ a b s, Kept s (a0.pend a b s)) (hf : ∀ a b st s, Kept s (a0.failWaiting a b st s)) :
    Kept s (reviveRead a0 a1 a2 a3 a4 a5 a6 s) := by
  unfold reviveRead
  dsimp only
  split
  · exact sendReq_kept (by assumption)
  · exact reviveStop_kept _ _ _ _ _ _ hp hf
@[simp] theorem revivePages_kept (a0 : Hooks) (a1 a2 a3 : Nat) (s : State)
    (hp : ∀ a b s, Kept s (a0.pend a b s)) (hf : ∀ a b st s, Kept s (a0.failWaiting a b st s)) :
    Kept s (revivePages a0 a1 a2 a3 s) := by
  induction a3 generalizing s with
  | zero => exact ⟨rfl, rfl, rfl⟩
  | succ n ih =>
    unfold revivePages
    dsimp only
    (repeat' split) <;> first
      | exact ⟨rfl, rfl, rfl⟩
      | exact reviveEnd_kept _ _ _
      | exact ih _
      | (refine Kept.trans (Kept.trans ?_ (hp _ _ _)) (ih _); simp [Kept]; done)
      | (refine Kept.trans ?_ (ih _); simp [Kept]; done)
      | exact reviveStop_kept _ _ _ _ _ _ hp hf
      | exact Kept.trans (by simp [Kept]) (reviveStop_kept _ _ _ _ _ _ hp hf)
      | exact Kept.trans (by simp [Kept]) (reviveRead_kept _ _ _ _ _ _ _ _ hp hf)
@[simp] theorem reviveMapped_kept (a0 : Hooks) (a1 : Nat) (a2 : Nat) (s : State) (hp : ∀ a b s, Kept s (a0.pend a b s)) (hf : ∀ a b st s, Kept s (a0.failWaiting a b st s)) : Kept s (reviveMapped a0 a1 a2 s) := by
  unfold reviveMapped
  (try dsimp only)
  (repeat' split) <;> simp_all [Kept]
@[simp] theorem reviveNow_kept (a0 : Hooks) (a1 : Hdr) (a2 : Nat) (a3 : Nat) (a4 : Nat) (s : State) (hp : ∀ a b s, Kept s (a0.pend a b s)) (hf : ∀ a b st s, Kept s (a0.failWaiting a b st s)) : Kept s (reviveNow a0 a1 a2 a3 a4 s) := by
  unfold reviveNow
  (try dsimp only)
  (repeat' split) <;> simp_all [Kept]
@[simp] theorem sessRevive_kept (a0 : Hooks) (a1 : Instr) (a2 : Hdr) (a3 : Handle) (a4 : Nat) (a5 : Nat) (s : State) (hp : ∀ a b s, Kept s (a0.pend a b s)) (hf : ∀ a b st s, Kept s (a0.failWaiting a b st s)) : Kept s (sessRevive a0 a1 a2 a3 a4 a5 s) := by
  unfold sessRevive
  simp_all [Kept]
@[simp] theorem revivePage_kept (a0 : Hooks) (a1 : Nat) (a2 : Nat) (a3 : Nat) (a4 : Page) (a5 : List Byte) (s : State) (hp : ∀ a b s, Kept s (a0.pend a b s)) (hf : ∀ a b st s, Kept s (a0.failWaiting a b st s)) : Kept s (revivePage a0 a1 a2 a3 a4 a5 s) := by
  unfold revivePage
  (try dsimp only)
  (repeat' split) <;> simp_all [Kept]
@[simp] theorem reviveRsp_kept (a0 : Hooks) (a1 : Nat) (a2 : Nat) (a3 : Nat) (a4 : Status) (a5 : Bool) (a6 : Option Envelope) (s : State) (hp : ∀ a b s, Kept s (a0.pend a b s)) (hf : ∀ a b st s, Kept s (a0.failWaiting a b st s)) : Kept s (reviveRsp a0 a1 a2 a3 a4 a5 a6 s) := by
  unfold reviveRsp
  (try dsimp only)
  (repeat' split) <;> simp_all [Kept]
@[simp] theorem startFetch_kept (a0 : Nat) (a1 : Nat) (a2 : Nat) (s : State) : Kept s (startFetch a0 a1 a2 s) := by
  unfold startFetch
  (try dsimp only)
  (repeat' split) <;> (try have hk := sendReq_kept (by assumption)) <;> simp_all [Kept]
@[simp] theorem startFetches_kept (a0 : Nat) (a1 : Nat) (a2 : List Nat) (s : State) : Kept s (startFetches a0 a1 a2 s) := by
  unfold startFetches
  simp [Kept, foldl_kept]
@[simp] theorem fetchLost_kept (a0 : Nat) (a1 : Nat) (s : State) : Kept s (fetchLost a0 a1 s) := by
  unfold fetchLost
  simp [Kept]
@[simp] theorem fetchDone_kept (a0 : Nat) (a1 : Nat) (a2 : Bool) (a3 : Envelope) (s : State) : Kept s (fetchDone a0 a1 a2 a3 s) := by
  unfold fetchDone
  (try dsimp only)
  (repeat' split) <;> simp_all [Kept]
@[simp] theorem demoteRun_kept (a0 a1 a2 a3 : Nat) (s : State) : Kept s (demoteRun a0 a1 a2 a3 s) := by
  induction a3 generalizing s with
  | zero => simp [demoteRun, Kept]
  | succ n ih =>
    unfold demoteRun
    dsimp only
    (repeat' split) <;> first
      | (have hk := sendReq_kept (by assumption); simp_all [Kept]; done)
      | simp_all [Kept]
@[simp] theorem demoteStart_kept (a0 : Nat) (a1 : Nat) (s : State) : Kept s (demoteStart a0 a1 s) := by
  unfold demoteStart
  (repeat' split) <;> simp [Kept]
@[simp] theorem spillFail_kept (a0 : Nat) (a1 : Nat) (s : State) : Kept s (spillFail a0 a1 s) := by
  unfold spillFail
  simp [Kept]

/-! ### MirrorCore -/

@[simp] theorem abandonGen_kept (s : State) : Kept s (abandonGen s) := by
  unfold abandonGen
  (repeat' split) <;> simp [Kept, foldl_kept]
@[simp] theorem unprotected_kept (a0 : Nat) (a1 : Status) (s : State) : Kept s (unprotected a0 a1 s) := by
  unfold unprotected
  simp [Kept]
@[simp] theorem sendRecord_kept (a0 : Nat) (a1 : Bool) (a2 : Record) (s : State) : Kept s (sendRecord a0 a1 a2 s) := by
  unfold sendRecord
  (try dsimp only)
  (repeat' split) <;> (try have hk := sendReq_kept (by assumption)) <;> simp_all [Kept]
@[simp] theorem sendTails_kept (a0 : Nat) (a1 : Nat) (a2 : Nat) (a3 : Bool) (s : State) : Kept s (sendTails a0 a1 a2 a3 s) := by
  unfold sendTails
  simp [Kept, foldl_kept]
@[simp] theorem stepTails_kept (a0 : Nat) (a1 : Nat) (a2 : Nat) (s : State) : Kept s (stepTails a0 a1 a2 s) := by
  unfold stepTails
  (repeat' split) <;> simp [Kept]

/-! ### SessRun -/

@[simp] theorem outRecord_kept (a0 : Nat) (a1 : Nat) (a2 : Nat) (a3 : List Nat) (a4 : List Nat) (a5 : List Byte) (s : State) : Kept s (outRecord a0 a1 a2 a3 a4 a5 s) := by
  unfold outRecord
  (repeat' split) <;> simp [Kept]
@[simp] theorem endSegment_kept (a0 : Nat) (a1 : Nat) (a2 : Nat) (a3 : Slot) (a4 : Status) (a5 : Option SampleOut) (a6 : Bool) (s : State) : Kept s (endSegment a0 a1 a2 a3 a4 a5 a6 s) := by
  unfold endSegment
  (repeat' split) <;> simp [Kept]
@[simp] theorem endRecord_kept (a0 : Nat) (a1 : Nat) (a2 : Slot) (a3 : Status) (a4 : Option SampleOut) (s : State) : Kept s (endRecord a0 a1 a2 a3 a4 s) := by
  unfold endRecord
  (try dsimp only)
  (repeat' split) <;> simp_all [Kept]
@[simp] theorem endSteps_kept (a0 : Nat) (a1 : Nat) (s : State) : Kept s (endSteps a0 a1 s) := by
  induction a1 generalizing a0 s with
  | zero => simp [endSteps, Kept]
  | succ n ih =>
    unfold endSteps
    (try dsimp only)
    (repeat' split) <;> simp_all [Kept, foldl_kept]
@[simp] theorem checkStep_kept (a0 : Nat) (a1 : Nat) (s : State) : Kept s (checkStep a0 a1 s) := by
  unfold checkStep
  (try dsimp only)
  (repeat' split) <;> simp_all [Kept]
@[simp] theorem finishSeq_kept (a0 : Nat → Nat → State → State) (a1 : Nat) (a2 : Nat) (a3 : Nat) (a4 : Status) (a5 : Option SampleOut) (a6 : Bool) (s : State) (h1 : ∀ x0 x1 s, Kept s (a0 x0 x1 s)) : Kept s (finishSeq a0 a1 a2 a3 a4 a5 a6 s) := by
  unfold finishSeq
  (try dsimp only)
  (repeat' split) <;> simp_all [Kept]
@[simp] theorem failHeld_kept (a0 : Nat → Nat → State → State) (a1 : Nat) (a2 : Nat) (a3 : Status) (s : State) (h1 : ∀ x0 x1 s, Kept s (a0 x0 x1 s)) : Kept s (failHeld a0 a1 a2 a3 s) := by
  unfold failHeld
  (try dsimp only)
  simp_all [Kept, foldl_kept]
@[simp] theorem runOne_kept (a0 : Nat → Nat → State → State) (a1 : Nat) (a2 : Instr) (s : State) (h1 : ∀ x0 x1 s, Kept s (a0 x0 x1 s)) : Kept s (runOne a0 a1 a2 s) := by
  unfold runOne
  (try dsimp only)
  (repeat' split) <;> simp_all [Kept]
@[simp] theorem runPending_kept (a0 : Nat) (a1 : Nat) (a2 : Nat) (s : State) : Kept s (runPending a0 a1 a2 s) := by
  induction a0 generalizing a1 a2 s with
  | zero => simp [runPending, Kept]
  | succ n ih =>
    unfold runPending
    (try dsimp only)
    (repeat' split) <;> simp_all [Kept, foldl_kept]
@[simp] theorem pendNow_kept (a0 : Nat) (a1 : Nat) (s : State) : Kept s (pendNow a0 a1 s) := by
  unfold pendNow
  simp [Kept]
@[simp] theorem hooks_pend_kept (a b : Nat) (s : State) : Kept s (hooks.pend a b s) := by
  simp [hooks, Kept]
@[simp] theorem hooks_failWaiting_kept (a b : Nat) (st : Status) (s : State) : Kept s (hooks.failWaiting a b st s) := by
  simp [hooks, Kept]
@[simp] theorem endSeq_kept (a0 : Nat) (a1 : Nat) (a2 : Nat) (a3 : Status) (a4 : Option SampleOut) (a5 : Bool) (s : State) : Kept s (endSeq a0 a1 a2 a3 a4 a5 s) := by
  unfold endSeq
  simp [Kept]

/-! ### Sched -/

@[simp] theorem contextStop_kept (a0 : Nat) (a1 : Nat) (s : State) : Kept s (contextStop a0 a1 s) := by
  unfold contextStop
  (try dsimp only)
  (repeat' split) <;> simp_all [Kept]
@[simp] theorem kvSpaceEvent_kept (a0 : Nat) (a1 : Nat) (s : State) : Kept s (kvSpaceEvent a0 a1 s) := by
  unfold kvSpaceEvent
  (repeat' split) <;> simp [Kept]
@[simp] theorem startStep_kept (a0 : Nat) (a1 : Bool) (a2 : Option Nat) (a3 : List Slot) (s : State) : Kept s (startStep a0 a1 a2 a3 s) := by
  unfold startStep
  simp [Kept, foldl_kept]
theorem buildOne_kept (ch : Nat) (subs : List Nat) (a : Asq) (b : Build) : Kept b.s (buildOne ch subs a b).s := by
  unfold buildOne
  dsimp only
  (repeat' split) <;> simp [Kept]
@[simp] theorem buildList_kept (a0 : Nat) (s : State) : Kept s (buildList a0 s) := by
  unfold buildList
  have hb := foldl_proj_kept Build.s (fun b a => buildOne a0 (enabledSubs a0 s) a b) (fun b a => buildOne_kept _ _ a b)
    (s.chan a0).candidates ⟨s, [], stepTokens a0 s, 0⟩
  dsimp only
  split <;> simp_all [Kept]
@[simp] theorem fixList_kept (a0 : Nat) (s : State) : Kept s (fixList a0 s) := by
  simp [fixList, Kept]
theorem fixOne_kept (ch fn : Nat) (e : StepEntry) (b : FixedBuild) : Kept b.s (fixOne ch fn e b).s := by
  unfold fixOne
  dsimp only
  (repeat' split) <;> simp [Kept]
@[simp] theorem fixStep_kept (a0 : Nat) (a1 : RunOp) (a2 : StepArgs) (s : State) : Kept s (fixStep a0 a1 a2 s) := by
  unfold fixStep
  have hb := foldl_proj_kept FixedBuild.s (fun b e => fixOne a0 a1.fn e b) (fun b e => fixOne_kept _ _ e b) a2.entries
    ⟨s, [], [], [], 0⟩
  dsimp only
  split <;> simp_all [Kept]
@[simp] theorem writeList_kept (a0 : Nat) (a1 : Nat) (a2 : StepRec) (s : State) : Kept s (writeList a0 a1 a2 s) := by
  unfold writeList
  simp [Kept]
@[simp] theorem endAllSeqs_kept (a0 : Nat) (a1 : Nat) (a2 : Status) (a3 : Nat) (s : State) : Kept s (endAllSeqs a0 a1 a2 a3 s) := by
  unfold endAllSeqs
  simp [Kept, foldl_kept]
@[simp] theorem publish_kept (a0 : Nat) (a1 : StepRec) (s : State) : Kept s (publish a0 a1 s) := by
  unfold publish
  simp [Kept, foldl_kept]
@[simp] theorem dropSub_kept (a0 : Nat) (a1 : Nat) (s : State) : Kept s (dropSub a0 a1 s) := by
  unfold dropSub
  (repeat' split) <;> simp [Kept]
@[simp] theorem waitOver_kept (a0 : Nat) (a1 : StepRec) (s : State) : Kept s (waitOver a0 a1 s) := by
  unfold waitOver
  simp [Kept, foldl_kept]

/-! ### Exchange -/

@[simp] theorem placeSlot_kept (a0 : Nat) (a1 : Nat) (a2 : Nat) (s : State) : Kept s (placeSlot a0 a1 a2 s) := by
  unfold placeSlot
  (try dsimp only)
  (repeat' split) <;> simp_all [Kept]
@[simp] theorem wakeHeld_kept (a0 : Nat) (s : State) : Kept s (wakeHeld a0 s) := by
  unfold wakeHeld
  simp [Kept, foldl_kept]
@[simp] theorem protoFault_kept (a0 : Nat) (a1 : Nat) (a2 : Nat) (s : State) : Kept s (protoFault a0 a1 a2 s) := by
  unfold protoFault
  simp [Kept]
@[simp] theorem sendPart_kept (a0 : Nat) (a1 : Nat) (a2 : Nat) (a3 : Slot) (a4 : Nat) (a5 : List Byte) (s : State) : Kept s (sendPart a0 a1 a2 a3 a4 a5 s) := by
  simp [sendPart, Kept]
@[simp] theorem sendReqPart_kept (a0 : Nat) (a1 : Nat) (a2 : Nat) (a3 : Slot) (s : State) : Kept s (sendReqPart a0 a1 a2 a3 s) := by
  unfold sendReqPart
  (repeat' split) <;> simp [Kept]
@[simp] theorem layerSent_kept (a0 : Nat) (a1 : Nat) (a2 : Nat) (s : State) : Kept s (layerSent a0 a1 a2 s) := by
  unfold layerSent
  (repeat' split) <;> simp [Kept]
@[simp] theorem mergeSend_kept (a0 : Nat) (a1 : Nat) (a2 : Nat) (s : State) : Kept s (mergeSend a0 a1 a2 s) := by
  unfold mergeSend
  (repeat' split) <;> simp [Kept]
@[simp] theorem discardSeg_kept (a0 : Nat) (s : State) : Kept s (discardSeg a0 s) := by
  unfold discardSeg
  simp [Kept]
@[simp] theorem takeSeg_kept (a0 : Nat) (a1 : Pkt) (a2 : Seg) (s : State) : Kept s (takeSeg a0 a1 a2 s) := by
  unfold takeSeg
  (try dsimp only)
  (repeat' split) <;> simp_all [Kept]
@[simp] theorem layerRan_kept (a0 : Nat) (a1 : Nat) (a2 : Nat) (a3 : Slot) (a4 : Ctrl) (s : State) : Kept s (layerRan a0 a1 a2 a3 a4 s) := by
  simp [layerRan, Kept]

/-! ### Sample -/

@[simp] theorem takeSample_kept (a0 : Nat) (a1 : Pkt) (a2 : Seg) (s : State) : Kept s (takeSample a0 a1 a2 s) := by
  unfold takeSample
  (try dsimp only)
  (repeat' split) <;> simp_all [Kept]

end Sys2Proof.Machine
end

