-- ==== Sys2Proof/Laws/KeptRoles.lean ====
section
/-! SUPPORT. `Kept` of loads, model runs, Lens, the mirror and POOL: one lemma per operation. -/

namespace Sys2Proof.Machine

open Sys2Proof

/-! ### Load -/

@[simp] theorem setProfile_kept (a0 : Nat) (a1 : Profile) (s : State) : Kept s (setProfile a0 a1 s) := by
  unfold setProfile
  simp [Kept]
theorem takePrism_kept {n l b : Nat} {s t : State} (h : takePrism n l s = some (b, t)) : Kept s t := by
  unfold takePrism at h
  obtain ⟨x, -, hx⟩ := Option.map_eq_some_iff.mp h
  simp only [Prod.mk.injEq] at hx
  obtain ⟨-, rfl⟩ := hx
  simp [Kept]
theorem takePrisms_kept {l : Nat} {ns : List Nat} {s t : State} {r q : Tbl Nat} (h : takePrisms l ns s r = some (q, t)) : Kept s t := by
  induction ns generalizing s r with
  | nil => simp [takePrisms] at h; simp [h.2, Kept]
  | cons n ns ih =>
    rw [takePrisms] at h
    cases hp : takePrism n l s with
    | none => simp [hp] at h
    | some e =>
      obtain ⟨b, u⟩ := e
      simp only [hp] at h
      exact (takePrism_kept hp).trans (ih h)
theorem takeModel_kept {n b p : Nat} {x : Profile} {i : ModelImage} {s t : State} (h : takeModel n x i s = some (b, p, t)) : Kept s t := by
  unfold takeModel at h
  dsimp only at h
  split at h
  · simp only [Option.some.injEq, Prod.mk.injEq] at h
    obtain ⟨-, -, rfl⟩ := h
    simp [Kept]
  · simp at h
@[simp] theorem undoLoad_kept (a0 : Load) (a1 : Nat) (s : State) : Kept s (undoLoad a0 a1 s) := by
  unfold undoLoad
  (repeat' split) <;> simp [Kept]
@[simp] theorem installLoad_kept (a0 : Load) (a1 : Nat) (s : State) : Kept s (installLoad a0 a1 s) := by
  unfold installLoad
  (repeat' split) <;> simp [Kept]
@[simp] theorem loadEnd_kept (a0 : Load) (a1 : List Nat) (a2 : Status) (s : State) : Kept s (loadEnd a0 a1 a2 s) := by
  unfold loadEnd
  (try dsimp only)
  (repeat' split) <;> simp_all [Kept, foldl_kept]
@[simp] theorem loadPart_kept (a0 : Nat) (a1 : Nat) (a2 : Status) (a3 : Nat) (a4 : Option TokImage × Option GramImage × Option ModelImage) (a5 : Option (Nat × Nat)) (s : State) : Kept s (loadPart a0 a1 a2 a3 a4 a5 s) := by
  unfold loadPart
  (repeat' split) <;> simp [Kept]
@[simp] theorem loadImage_kept (a0 : Nat) (a1 : Nat) (a2 : ReadData) (s : State) : Kept s (loadImage a0 a1 a2 s) := by
  unfold loadImage
  (try dsimp only)
  (repeat' split) <;> (first | (have hk := takeModel_kept (by assumption); simp_all [Kept]; done) | (simp_all [Kept]; done))
@[simp] theorem loadRead_kept (a0 : Load) (a1 : Nat) (s : State) : Kept s (loadRead a0 a1 s) := by
  unfold loadRead
  refine foldl_kept _ (fun s n => ?_) _ _
  split
  · exact sendReq_kept (by assumption)
  · simp [Kept]
@[simp] theorem loadStart_kept (a0 : Nat) (a1 : Hdr) (a2 : Nat) (a3 : LoadArgs) (s : State) : Kept s (loadStart a0 a1 a2 a3 s) := by
  unfold loadStart
  dsimp only
  split
  · simp [Kept]
  · rename_i ranges s' h
    have hk : Kept s s' := by
      split at h
      · simp only [Option.some.injEq, Prod.mk.injEq] at h
        simp [h.2, Kept]
      · exact takePrisms_kept h
    simp_all [Kept, foldl_kept]
@[simp] theorem abortLoads_kept (a0 : Nat) (a1 : Status) (s : State) : Kept s (abortLoads a0 a1 s) := by
  unfold abortLoads
  simp [Kept, foldl_kept]
@[simp] theorem unloadNow_kept (a0 : Nat) (a1 : Hdr) (a2 : LoadArgs) (s : State) : Kept s (unloadNow a0 a1 a2 s) := by
  unfold unloadNow
  simp [Kept, foldl_kept]

/-! ### ModelRun -/

@[simp] theorem pushLayer_kept (a0 : Nat) (s : State) : Kept s (pushLayer a0 s) := by
  unfold pushLayer
  (try dsimp only)
  (repeat' split) <;> simp_all [Kept]
@[simp] theorem endRun_kept (a0 : Nat) (a1 : ModelRun) (a2 : Status) (s : State) : Kept s (endRun a0 a1 a2 s) := by
  unfold endRun
  (repeat' split) <;> simp [Kept]
@[simp] theorem modelUnitDone_kept (a0 : Nat) (a1 : Nat) (a2 : Bool) (s : State) : Kept s (modelUnitDone a0 a1 a2 s) := by
  unfold modelUnitDone
  (try dsimp only)
  (repeat' split) <;> simp_all [Kept]

/-! ### Lens -/

@[simp] theorem batchEnd_kept (a0 : Nat) (a1 : LensQuery) (s : State) : Kept s (batchEnd a0 a1 s) := by
  unfold batchEnd
  (try dsimp only)
  (repeat' split) <;> simp_all [Kept]
@[simp] theorem writeEnd_kept (a0 : Nat) (a1 : LensWrite) (a2 : Status) (a3 : List Nat) (s : State) : Kept s (writeEnd a0 a1 a2 a3 s) := by
  unfold writeEnd
  (try dsimp only)
  (repeat' split) <;> simp_all [Kept]
@[simp] theorem pushWrite_kept (a0 : Nat) (a1 : LensWrite) (s : State) : Kept s (pushWrite a0 a1 s) := by
  unfold pushWrite
  simp [Kept]
@[simp] theorem insertFound_kept (a0 : Nat) (a1 : Nat) (a2 : LensQuery) (s : State) : Kept s (insertFound a0 a1 a2 s) := by
  unfold insertFound
  (repeat' split) <;> simp [Kept]
@[simp] theorem advance_kept (a0 : Nat) (a1 : LensQuery) (s : State) : Kept s (advance a0 a1 s) := by
  unfold advance
  (try dsimp only)
  (repeat' split) <;> simp_all [Kept]
@[simp] theorem beginQuery_kept (a0 : Nat) (a1 : LensHdr) (a2 : LensQuery) (s : State) : Kept s (beginQuery a0 a1 a2 s) := by
  unfold beginQuery
  simp [Kept]
@[simp] theorem startWrite_kept (a0 : Nat) (a1 : Nat) (s : State) : Kept s (startWrite a0 a1 s) := by
  unfold startWrite
  (try dsimp only)
  (repeat' split) <;> simp_all [Kept]
@[simp] theorem pumpWrites_kept (a0 : Nat) (a1 : Nat) (s : State) : Kept s (pumpWrites a0 a1 s) := by
  induction a1 generalizing a0 s with
  | zero => simp [pumpWrites, Kept]
  | succ n ih =>
    unfold pumpWrites
    (repeat' split) <;> simp_all [Kept]
@[simp] theorem beginAll_kept (a0 : Nat) (a1 : LensHdr) (a2 : LensQuery) (a3 : Nat) (a4 : List (List F32)) (s : State) : Kept s (beginAll a0 a1 a2 a3 a4 s) := by
  induction a4 generalizing a0 a1 a2 a3 s with
  | nil => simp [beginAll, Kept]
  | cons x xs ih =>
    unfold beginAll
    simp_all [Kept]
@[simp] theorem queryStart_kept (a0 : Nat) (a1 : RunOp) (a2 : Hdr) (a3 : Option Nat) (a4 : Nat) (a5 : Nat) (a6 : Nat) (a7 : Nat) (a8 : List (List F32)) (s : State) : Kept s (queryStart a0 a1 a2 a3 a4 a5 a6 a7 a8 s) := by
  unfold queryStart
  (repeat' split) <;> simp [Kept]
@[simp] theorem deleteStart_kept (a0 : Nat) (a1 : RunOp) (a2 : Nat) (a3 : List Nat) (s : State) : Kept s (deleteStart a0 a1 a2 a3 s) := by
  simp [deleteStart, Kept]
@[simp] theorem writeStart_kept (a0 : Nat) (a1 : LensWrite) (s : State) : Kept s (writeStart a0 a1 s) := by
  simp [writeStart, Kept]
@[simp] theorem lensStart_kept (a0 : Nat) (a1 : LensHeld) (s : State) : Kept s (lensStart a0 a1 s) := by
  unfold lensStart
  (repeat' split) <;> simp [Kept]
@[simp] theorem lensResume_kept (a0 : Nat) (a1 : Nat) (s : State) : Kept s (lensResume a0 a1 s) := by
  induction a1 generalizing a0 s with
  | zero => simp [lensResume, Kept]
  | succ n ih =>
    unfold lensResume
    (repeat' split) <;> simp_all [Kept]
@[simp] theorem lensPump_kept (a0 : Nat) (s : State) : Kept s (lensPump a0 s) := by
  unfold lensPump
  simp [Kept]
@[simp] theorem lensTake_kept (a0 : Nat) (a1 : Hdr) (a2 : Nat) (a3 : Nat) (a4 : List (Nat × Nat)) (a5 : RunKind) (a6 : Instr) (s : State) : Kept s (lensTake a0 a1 a2 a3 a4 a5 a6 s) := by
  simp [lensTake, Kept]
@[simp] theorem expansionServe_kept (a0 : Nat) (s : State) : Kept s (expansionServe a0 s) := by
  unfold expansionServe
  (try dsimp only)
  (repeat' split) <;> (first | (simp_all [Kept]; done) | (refine Kept.trans ?_ (foldl_kept _ (fun s a => ?_) _ _) <;> (try dsimp only) <;> (repeat' split) <;> simp_all [Kept]))
@[simp] theorem lensUnitDone_kept (a0 : Nat) (a1 : Nat) (a2 : Bool) (s : State) : Kept s (lensUnitDone a0 a1 a2 s) := by
  unfold lensUnitDone
  (try dsimp only)
  (repeat' split) <;> simp_all [Kept]
@[simp] theorem consolidateFree_kept (a0 : Nat) (s : State) : Kept s (consolidateFree a0 s) := by
  unfold consolidateFree
  (try dsimp only)
  (repeat' split) <;> simp_all [Kept]

/-! ### Mirror -/

@[simp] theorem completeGen_kept (a0 : Nat) (s : State) : Kept s (completeGen a0 s) := by
  unfold completeGen
  simp [Kept, foldl_kept]
@[simp] theorem reloadSlot1_kept (a0 : Nat) (s : State) : Kept s (reloadSlot1 a0 s) := by
  unfold reloadSlot1
  (repeat' split) <;> simp [Kept]
@[simp] theorem renewSlot1_kept (a0 : Nat) (s : State) : Kept s (renewSlot1 a0 s) := by
  unfold renewSlot1
  simp [Kept]
@[simp] theorem startGen_kept (a0 : Bool) (s : State) : Kept s (startGen a0 s) := by
  unfold startGen
  simp [Kept, foldl_kept]
@[simp] theorem trigger_kept (a0 : Bool) (s : State) : Kept s (trigger a0 s) := by
  unfold trigger
  (repeat' split) <;> simp [Kept]
@[simp] theorem mirrorNext_kept (s : State) : Kept s (mirrorNext s) := by
  unfold mirrorNext
  (repeat' split) <;> simp [Kept]
@[simp] theorem copyUnit_kept (a0 : Nat) (a1 : Nat) (s : State) : Kept s (copyUnit a0 a1 s) := by
  unfold copyUnit
  simp [Kept]
@[simp] theorem copierStep_kept (a0 : Nat) (s : State) : Kept s (copierStep a0 s) := by
  unfold copierStep
  (try dsimp only)
  (repeat' split) <;> simp_all [Kept, foldl_kept]
@[simp] theorem sendManifest_kept (a0 : Nat) (a1 : Nat) (a2 : List Byte) (a3 : List Byte) (s : State) : Kept s (sendManifest a0 a1 a2 a3 s) := by
  unfold sendManifest
  (try dsimp only)
  (repeat' split) <;> (try have hk := sendReq_kept (by assumption)) <;> simp_all [Kept]
@[simp] theorem checkGen_kept (s : State) : Kept s (checkGen s) := by
  unfold checkGen
  (repeat' split) <;> simp [Kept, foldl_kept]
@[simp] theorem recordAck_kept (a0 : Nat) (a1 : Nat) (a2 : Nat) (a3 : Status) (s : State) : Kept s (recordAck a0 a1 a2 a3 s) := by
  unfold recordAck
  (try dsimp only)
  (repeat' split) <;> simp_all [Kept]
@[simp] theorem manifestAck_kept (a0 : Nat) (a1 : Status) (s : State) : Kept s (manifestAck a0 a1 s) := by
  unfold manifestAck
  (repeat' split) <;> simp [Kept]
@[simp] theorem buddyLost_kept (a0 : Nat) (a1 : Nat) (s : State) : Kept s (buddyLost a0 a1 s) := by
  unfold buddyLost
  simp [Kept, foldl_kept]
@[simp] theorem warnRest_kept (a0 : Nat) (a1 : Nat) (s : State) : Kept s (warnRest a0 a1 s) := by
  unfold warnRest
  (try dsimp only)
  (repeat' split) <;> simp_all [Kept]
@[simp] theorem warnMeasure_kept (a0 : Nat) (a1 : Nat) (a2 : Nat) (s : State) : Kept s (warnMeasure a0 a1 a2 s) := by
  unfold warnMeasure
  simp [Kept]
@[simp] theorem parkWrites_kept (a0 : Nat) (a1 : Nat) (a2 : Tbl (Loc × Nat × Nat)) (a3 : List (Loc × Nat × Nat)) (s : State) : Kept s (parkWrites a0 a1 a2 a3 s) := by
  unfold parkWrites
  (try dsimp only)
  (first | (simp_all [Kept]; done) | (refine Kept.trans ?_ (foldl_kept _ (fun s a => ?_) _ _) <;> (try dsimp only) <;> (repeat' split) <;> (first | (simp_all [Kept]; done) | (have hk := sendReq_kept (by assumption); simp_all [Kept]; done))))
theorem rebuildAt_kept {a0 : Nat} {a1 : Nat} {a2 : StoredSession} {s : State} {t : State} (h : rebuildAt a0 a1 a2 s = .ok t) : Kept s t := by
  unfold rebuildAt at h
  (try dsimp only at h)
  (repeat' split at h) <;> (first | (cases h; done) | (cases h; simp [Kept]; done) | (simp_all [Kept, foldl_kept]; done))
theorem rebuildNew_kept {n i : Nat} {x : StoredSession} {s t : State} (h : rebuildNew n x s = .ok (i, t)) : Kept s t := by
  unfold rebuildNew at h
  split at h
  · simp at h
  · rename_i j hj
    cases hr : rebuildAt n j x s with
    | error f => simp [hr, Except.map] at h
    | ok u =>
      simp only [hr, Except.map, Except.ok.injEq, Prod.mk.injEq] at h
      rw [← h.2]
      exact rebuildAt_kept hr
theorem rebuildAll_kept (l : List (Nat × StoredSession)) (b : List (Nat × Nat)) (r : List Nat) (s : State) :
    (∀ q t, rebuildAll l b r s = .ok (q, t) → Kept s t) ∧ (∀ b' n f t, rebuildAll l b r s = .error (b', n, f, t) → Kept s t) := by
  induction l generalizing b r s with
  | nil => simp [rebuildAll, Kept]
  | cons e l ih =>
    obtain ⟨n, x⟩ := e
    simp only [rebuildAll]
    split
    · refine ⟨fun _ _ h => by simp at h, fun _ _ _ _ h => ?_⟩
      simp only [Except.error.injEq, Prod.mk.injEq] at h
      simp [Kept, h.2.2.2]
    · rename_i i s' hn
      have hk := rebuildNew_kept hn
      exact ⟨fun q t h => hk.trans ((ih _ _ _).1 q t h), fun b' m f t h => hk.trans ((ih _ _ _).2 b' m f t h)⟩
theorem rebuildIndexes_kept {l : List (Nat × StoredLens)} {s t : State} (h : rebuildIndexes l s = some t) : Kept s t := by
  induction l generalizing s with
  | nil => simp [rebuildIndexes] at h; simp [h, Kept]
  | cons e l ih =>
    obtain ⟨n, x⟩ := e
    simp only [rebuildIndexes] at h
    split at h
    · simp at h
    · exact Kept.trans (by simp [Kept]) (ih h)
@[simp] theorem undoRestore_kept (a0 : List (Nat × Nat)) (a1 : List Nat) (s : State) : Kept s (undoRestore a0 a1 s) := by
  unfold undoRestore
  simp [Kept, foldl_kept]
@[simp] theorem applyRestore_kept (a0 : Hdr) (a1 : RestoreArgs) (a2 : Manifest) (s : State) : Kept s (applyRestore a0 a1 a2 s) := by
  unfold applyRestore
  dsimp only
  have hr := rebuildAll_kept (storedFor a2 (maskChans a1.channels) s) [] [] s
  split
  · simp [Kept]
  split
  · simp [Kept]
  split
  · simp [Kept, foldl_kept]
  split
  · rename_i he
    have h1 := hr.1 _ _ he
    split
    · have h2 := rebuildIndexes_kept (by assumption)
      simp_all [Kept, foldl_kept]
    · simp_all [Kept, foldl_kept]
  · rename_i he
    have h1 := hr.2 _ _ _ _ he
    simp_all [Kept, foldl_kept]
@[simp] theorem rollSeqs_kept (a0 : Nat) (a1 : Slot → Bool) (s : State) : Kept s (rollSeqs a0 a1 s) := by
  unfold rollSeqs
  simp [Kept, foldl_kept]
@[simp] theorem closeQuiet_kept (a0 : Nat) (a1 : Nat) (s : State) : Kept s (closeQuiet a0 a1 s) := by
  unfold closeQuiet
  simp [Kept]
theorem reload_kept {n i : Nat} {x : StoredSession} {s t : State} (h : reload n i x s = .ok t) : Kept s t := by
  unfold reload at h
  dsimp only at h
  (repeat' split at h) <;> simp only [reduceCtorEq, Except.ok.injEq] at h <;> subst h <;> simp [Kept]
theorem rollRebuild_kept (n : Nat) (x : StoredSession) (s : State) : Kept s (rollRebuild n x s).1 := by
  unfold rollRebuild
  dsimp only
  split
  · exact rebuildNew_kept (by assumption)
  · simp [Kept]
theorem rollOne_kept (n g : Nat) (x : StoredSession) (s : State) : Kept s (rollOne n g x s).1 := by
  unfold rollOne
  dsimp only
  split
  · exact rollRebuild_kept _ _ _
  · split
    · simp [Kept]
    · split
      · split
        · exact reload_kept (by assumption)
        · simp [Kept]
      · exact (closeQuiet_kept n _ s).trans (rollRebuild_kept _ _ _)
@[simp] theorem endLens_kept (a0 : Nat) (a1 : Status) (s : State) : Kept s (endLens a0 a1 s) := by
  unfold endLens
  simp [Kept]
@[simp] theorem rollIndex_kept (a0 : Nat) (a1 : RollbackArgs) (s : State) : Kept s (rollIndex a0 a1 s) := by
  unfold rollIndex
  (repeat' split) <;> simp [Kept]
theorem rollChannel_kept (n g : Nat) (a : RollbackArgs) (s : State) : Kept s (rollChannel n g a s).1 := by
  unfold rollChannel
  split
  · simp [Kept]
  · dsimp only
    refine Kept.trans ?_ (foldl_proj_kept (β := State × List Nat) Prod.fst _ (fun p x => ?_) _ _)
    · refine Kept.trans ?_ (foldl_proj_kept (β := State × List Nat) Prod.fst _ (fun p x => ?_) _ _)
      · simp [Kept]
      · simp [Kept]
    · exact rollOne_kept _ _ _ _
theorem rollSession_kept (n i : Nat) (a : RollbackArgs) (s : State) : Kept s (rollSession n i a s).1 := by
  unfold rollSession
  dsimp only
  split
  · exact (by simp [Kept] : Kept s _).trans (rollRebuild_kept _ _ _)
  · simp [Kept]

/-! ### Pool -/

@[simp] theorem poolEvent_kept (a0 : Event) (a1 : Nat) (a2 : Nat) (s : State) : Kept s (poolEvent a0 a1 a2 s) := by
  unfold poolEvent
  (repeat' split) <;> simp [Kept]
@[simp] theorem showGen_kept (a0 : Nat) (a1 : Nat) (s : State) : Kept s (showGen a0 a1 s) := by
  unfold showGen
  simp [Kept, foldl_kept]
@[simp] theorem compatKey_kept (a0 : Nat) (a1 : Nat) (s : State) : Kept s (compatKey a0 a1 s) := by
  unfold compatKey
  (repeat' split) <;> simp [Kept]
@[simp] theorem partitionSet_kept (a0 : Nat) (a1 : PartImage) (s : State) : Kept s (partitionSet a0 a1 s) := by
  unfold partitionSet
  (repeat' split) <;> simp [Kept]
@[simp] theorem slotFreed_kept (a0 : Nat) (s : State) : Kept s (slotFreed a0 s) := by
  unfold slotFreed
  simp [Kept]
@[simp] theorem extentFree_kept (a0 : Nat) (a1 : Nat) (s : State) : Kept s (extentFree a0 a1 s) := by
  unfold extentFree
  (try dsimp only)
  (repeat' split) <;> simp_all [Kept]
theorem extentNew_kept (p k : Nat) (g : ExtentImage) (s : State) :
    Kept s (extentNew p k g s).2 ∧ ∀ t, (extentNew p k g s).1 = some t → Kept s t := by
  unfold extentNew
  dsimp only
  generalize Chan.takeExtent _ _ _ = r
  obtain ⟨o, c⟩ := r
  cases o with
  | none => simp [Kept]
  | some l =>
    refine ⟨by simp [Kept], fun t h => ?_⟩
    simp only [Option.some.injEq] at h
    simp [← h, Kept]
@[simp] theorem extentSet_kept (a0 : Hdr) (a1 a2 : Nat) (a3 : ExtentImage) (s : State) : Kept s (extentSet a0 a1 a2 a3 s) := by
  unfold extentSet
  dsimp only
  have hk := extentNew_kept a1 a2 a3 s
  (repeat' split) <;> simp_all [Kept]
@[simp] theorem answer_kept (a0 : PoolReq) (a1 : Status) (a2 : Nat) (a3 : Nat) (a4 : List Byte) (s : State) : Kept s (answer a0 a1 a2 a3 a4 s) := by
  unfold answer
  (repeat' split) <;> simp [Kept]
@[simp] theorem violate_kept (a0 : PoolReq) (s : State) : Kept s (violate a0 s) := by
  unfold violate
  (try dsimp only)
  (repeat' split) <;> simp_all [Kept]
@[simp] theorem countRefused_kept (a0 : PoolReq) (s : State) : Kept s (countRefused a0 s) := by
  unfold countRefused
  simp [Kept]
theorem forward_kept {a b : Nat} {x : Extent} {o n : Nat} {p : Bool} {s t : State} (h : forward a b x o n p s = some t) : Kept s t := by
  unfold forward at h
  dsimp only at h
  split at h
  · rename_i hs
    simp only [Option.some.injEq] at h
    rw [← h]
    exact sendReq_kept hs
  · simp at h
@[simp] theorem dropInflight_kept (a0 : Nat) (a1 : List Nat) (s : State) : Kept s (dropInflight a0 a1 s) := by
  unfold dropInflight
  simp [Kept, foldl_kept]
@[simp] theorem finishReq_kept (a0 : PoolReq) (a1 : List Nat) (a2 : Status) (a3 : Nat) (a4 : Nat) (a5 : List Byte) (s : State) : Kept s (finishReq a0 a1 a2 a3 a4 a5 s) := by
  unfold finishReq
  simp [Kept]
@[simp] theorem degrade_kept (a0 a1 : Nat) (s : State) : Kept s (degrade a0 a1 s) := by
  unfold degrade
  dsimp only
  refine Kept.trans ?_ (foldl_kept _ (fun s w => ?_) _ _)
  · simp [Kept]
  · (repeat' split) <;> simp [Kept]
@[simp] theorem forwardAck_kept (a0 : Nat) (a1 : Nat) (a2 : Status) (s : State) : Kept s (forwardAck a0 a1 a2 s) := by
  unfold forwardAck
  (repeat' split) <;> simp [Kept]
@[simp] theorem settleReq_kept (a0 : Instr) (a1 : PoolReq) (a2 : List Nat) (a3 : Done) (s : State) : Kept s (settleReq a0 a1 a2 a3 s) := by
  unfold settleReq
  dsimp only
  have h0 : ∀ s : State, Kept s (if a1.op = 33 ∧ a1.p.poison ∧ 0 < a3.wrote then
      (match a2 with
       | k :: _ => (match a3.c.extent k with | some x => memPoison a1.p.dstUnit x.loc.tier (x.at a1.off) 1 s | none => s)
       | [] => s)
    else s) := by
    intro s
    (repeat' split) <;> simp [Kept]
  refine Kept.trans (Kept.trans ?_ (h0 (s.setChan a1.p.dstUnit a3.c))) ?_
  · simp [Kept]
  · generalize (if a1.op = 33 ∧ a1.p.poison ∧ 0 < a3.wrote then _ else _) = u
    (repeat' split) <;> first
      | (have hk := forward_kept (by assumption); simp_all [Kept]; done)
      | simp [Kept]
@[simp] theorem sendRecall_kept (a0 : Nat) (a1 : Nat) (s : State) : Kept s (sendRecall a0 a1 s) := by
  unfold sendRecall
  (repeat' split) <;> simp [Kept]
@[simp] theorem recallLease_kept (a0 : Nat) (a1 : Nat) (s : State) : Kept s (recallLease a0 a1 s) := by
  unfold recallLease
  (repeat' split) <;> simp [Kept]
@[simp] theorem acquire_kept (a0 : Instr) (a1 : PoolReq) (a2 : Nat) (a3 : Extent) (s : State) : Kept s (acquire a0 a1 a2 a3 s) := by
  unfold acquire
  (try dsimp only)
  (repeat' split) <;> simp_all [Kept]
@[simp] theorem lateLease_kept (a0 : PoolReq) (a1 : Nat) (s : State) : Kept s (lateLease a0 a1 s) := by
  unfold lateLease
  (repeat' split) <;> simp [Kept]
@[simp] theorem poisonLine_kept (a0 : Nat) (a1 : Lease) (s : State) : Kept s (poisonLine a0 a1 s) := by
  unfold poisonLine
  dsimp only
  split
  · simp [Kept]
  · split
    · simp [Kept]
    · cases hf : forward _ _ _ _ _ _ _ with
      | none => simp [Kept]
      | some t =>
        have hk := forward_kept hf
        simp_all [Kept]
@[simp] theorem endLeases_kept (a0 : Nat) (a1 : Nat) (a2 : List Nat) (s : State) : Kept s (endLeases a0 a1 a2 s) := by
  unfold endLeases
  simp [Kept, foldl_kept]
@[simp] theorem poolTry_kept (a0 : Nat → List Nat → State → State) (a1 : Instr) (a2 : PoolReq) (s : State) (h1 : ∀ x0 x1 s, Kept s (a0 x0 x1 s)) : Kept s (poolTry a0 a1 a2 s) := by
  unfold poolTry
  (try dsimp only)
  (repeat' split) <;> simp_all [Kept, foldl_kept]
@[simp] theorem leasesGone_kept (a0 a1 : Nat) (a2 : List Nat) (s : State) : Kept s (leasesGone a0 a1 a2 s) := by
  induction a0 generalizing a1 a2 s with
  | zero => simp [leasesGone, Kept]
  | succ n ih =>
    unfold leasesGone
    dsimp only
    refine Kept.trans ?_ (foldl_kept _ (fun s w => ?_) _ _)
    · simp [Kept]
    · (repeat' split) <;> simp [Kept, ih]
@[simp] theorem poolTake_kept (a0 : Instr) (s : State) : Kept s (poolTake a0 s) := by
  unfold poolTake
  (repeat' split) <;> simp [Kept, foldl_kept]
@[simp] theorem poolArrive_kept (a0 : Instr) (s : State) : Kept s (poolArrive a0 s) := by
  unfold poolArrive
  (repeat' split) <;> simp [Kept]
@[simp] theorem poolDrain_kept (a0 : Nat) (a1 : Nat) (s : State) : Kept s (poolDrain a0 a1 s) := by
  induction a0 generalizing a1 s with
  | zero => simp [poolDrain, Kept]
  | succ n ih =>
    unfold poolDrain
    (try dsimp only)
    (repeat' split) <;> simp_all [Kept]
@[simp] theorem endAndWake_kept (a0 : Nat) (a1 : Nat) (a2 : List Nat) (s : State) : Kept s (endAndWake a0 a1 a2 s) := by
  unfold endAndWake
  simp [Kept]
@[simp] theorem adapterLost_kept (a0 : Nat) (s : State) : Kept s (adapterLost a0 s) := by
  unfold adapterLost
  simp [Kept, foldl_kept]
@[simp] theorem extentDrained_kept (a0 : Nat) (a1 : Nat) (s : State) : Kept s (extentDrained a0 a1 s) := by
  unfold extentDrained
  (repeat' split) <;> simp [Kept, foldl_kept]
@[simp] theorem zeroFillDone_kept (a0 : Nat) (a1 : Nat) (s : State) : Kept s (zeroFillDone a0 a1 s) := by
  unfold zeroFillDone
  (try dsimp only)
  (repeat' split) <;> simp_all [Kept]
@[simp] theorem sourcePrimary_kept (a0 : BuddySlot) (a1 : BuddySlot) (s : State) : Kept s (sourcePrimary a0 a1 s) := by
  unfold sourcePrimary
  (repeat' split) <;> simp [Kept]
@[simp] theorem rebuildDone_kept (a0 : Nat) (a1 : Nat) (a2 : Extent) (s : State) : Kept s (rebuildDone a0 a1 a2 s) := by
  unfold rebuildDone
  simp [Kept]
@[simp] theorem rebuildCopy_kept (a0 a1 : Nat) (s : State) : Kept s (rebuildCopy a0 a1 s) := by
  unfold rebuildCopy
  dsimp only
  split
  · simp [Kept]
  · rename_i x _
    split
    · split <;> simp [Kept]
    · split
      · split
        · simp [Kept, foldl_kept]
        · cases hf : forward a0 a1 x (x.pOff + x.mark) 256 (badOff (s.chan a0) (x.base + x.mark) 256 true).isSome s with
          | none => simp [Kept]
          | some t =>
            have hk := forward_kept hf
            simp_all [Kept]
      · simp [Kept]
@[simp] theorem rebuildLost_kept (a0 : Nat) (a1 : Nat) (s : State) : Kept s (rebuildLost a0 a1 s) := by
  unfold rebuildLost
  simp [Kept, foldl_kept]
@[simp] theorem poolOpDone_kept (a0 : Nat) (a1 : Nat) (a2 : Status) (a3 : Nat) (a4 : Nat) (s : State) : Kept s (poolOpDone a0 a1 a2 a3 a4 s) := by
  unfold poolOpDone
  (repeat' split) <;> simp [Kept]

end Sys2Proof.Machine
end

