-- ==== Sys2Proof/Laws/KeptPorts.lean ====
section
/-! SUPPORT. `Kept` of rings, functions, ports, security, management, power and register writes: one lemma per operation. -/

namespace Sys2Proof.Machine

open Sys2Proof

/-! ### Finish -/

@[simp] theorem bulkWorkDone_kept (a0 : Nat) (a1 : BulkWork) (a2 : Bool) (s : State) : Kept s (bulkWorkDone a0 a1 a2 s) := by
  unfold bulkWorkDone
  (repeat' split) <;> simp [Kept]
@[simp] theorem bulkUnitComplete_kept (a0 : Nat) (a1 : Nat) (a2 : Bool) (s : State) : Kept s (bulkUnitComplete a0 a1 a2 s) := by
  unfold bulkUnitComplete
  (repeat' split) <;> simp [Kept]

/-! ### Queue -/

@[simp] theorem answerReg_kept (a0 : Requester) (a1 : Status) (a2 : Payload) (s : State) : Kept s (answerReg a0 a1 a2 s) := by
  unfold answerReg
  (repeat' split) <;> simp [Kept]
@[simp] theorem denyReg_kept (a0 : Requester) (s : State) : Kept s (denyReg a0 s) := by
  unfold denyReg
  simp [Kept]
@[simp] theorem ringFault_kept (a0 : Nat) (a1 : Nat) (s : State) : Kept s (ringFault a0 a1 s) := by
  unfold ringFault
  simp [Kept]
@[simp] theorem ringRead_kept (a0 : Nat) (s : State) : Kept s (ringRead a0 s) := by
  unfold ringRead
  (try dsimp only)
  (repeat' split) <;> (try have hk := sendReq_kept (by assumption)) <;> simp_all [Kept]
@[simp] theorem takeSqTail_kept (a0 : Nat) (a1 : Nat) (s : State) : Kept s (takeSqTail a0 a1 s) := by
  unfold takeSqTail
  simp [Kept]
@[simp] theorem takeCqHead_kept (a0 : Nat) (a1 : Nat) (s : State) : Kept s (takeCqHead a0 a1 s) := by
  unfold takeCqHead
  simp [Kept]
@[simp] theorem notifyDb_kept (a0 : Nat) (a1 : Nat) (a2 : Nat) (a3 : Nat) (a4 : Nat) (s : State) : Kept s (notifyDb a0 a1 a2 a3 a4 s) := by
  unfold notifyDb
  (try dsimp only)
  (repeat' split) <;> simp_all [Kept]
@[simp] theorem doorbell_kept (a0 : Pkt) (a1 : Nat) (a2 : Nat) (a3 : Nat) (a4 : Nat) (s : State) : Kept s (doorbell a0 a1 a2 a3 a4 s) := by
  unfold doorbell
  (repeat' split) <;> simp [Kept]
@[simp] theorem pollOne_kept (s : State) (a0 : Nat × Nat × Nat) : Kept s (pollOne s a0) := by
  unfold pollOne
  simp [Kept]
theorem fetchOne_kept {r : Nat} {d : Fetched} {s t : State} (h : fetchOne r d s = some t) : Kept s t := by
  unfold fetchOne at h
  dsimp only at h
  (repeat' split at h) <;> simp only [reduceCtorEq, Option.some.injEq] at h <;> subst h <;> simp [Kept]
@[simp] theorem fetchAll_kept (a0 : Nat) (a1 : Nat) (a2 : List Fetched) (s : State) : Kept s (fetchAll a0 a1 a2 s) := by
  induction a2 generalizing a0 a1 s with
  | nil => simp [fetchAll, Kept]
  | cons x xs ih =>
    unfold fetchAll
    (repeat' split)
    · simp [Kept]
    · have hk := fetchOne_kept (by assumption)
      simp_all [Kept]
    · simp [Kept]
@[simp] theorem leaveHead_kept (a0 : Nat) (a1 : Fetched) (s : State) : Kept s (leaveHead a0 a1 s) := by
  unfold leaveHead
  simp [Kept]
@[simp] theorem countForeign_kept (a0 : Ring) (a1 : Fetched) (s : State) : Kept s (countForeign a0 a1 s) := by
  unfold countForeign
  (repeat' split) <;> simp [Kept]
theorem admitMeter_kept (r : Ring) (d : Fetched) (s : State) : ∀ t, (admitMeter r d s = .release t ∨
    admitMeter r d s = .reject t ∨ admitMeter r d s = .hold t) → Kept s t := by
  unfold admitMeter
  dsimp only
  (repeat' split) <;> (intro t h; simp only [reduceCtorEq, Admit.release.injEq, Admit.reject.injEq, Admit.hold.injEq, or_false, false_or] at h; subst h; simp [Kept])

theorem admitHead_kept {r : Nat} {s t : State} (h : admitHead r s = some t) : Kept s t := by
  unfold admitHead at h
  dsimp only at h
  split at h
  · simp at h
  · (repeat' split at h) <;> simp only [reduceCtorEq, Option.some.injEq] at h <;> subst h <;> first
      | (have hk := admitMeter_kept _ _ _ _ (.inl (by assumption)); simp_all [Kept]; done)
      | (have hk := admitMeter_kept _ _ _ _ (.inr (.inl (by assumption))); simp_all [Kept]; done)
      | simp [Kept]

@[simp] theorem markHeld_kept (a0 : Nat) (s : State) : Kept s (markHeld a0 s) := by
  unfold markHeld
  dsimp only
  (repeat' split)
  · simp [Kept]
  · simp [Kept]
  · have hk := admitMeter_kept _ _ _ _ (.inr (.inr (by assumption)))
    simp_all [Kept]
  · simp [Kept]
@[simp] theorem pumpRing_kept (a0 : Nat) (a1 : Nat) (s : State) : Kept s (pumpRing a0 a1 s) := by
  induction a1 generalizing a0 s with
  | zero => simp [pumpRing, Kept]
  | succ n ih =>
    unfold pumpRing
    split
    · have hk := admitHead_kept (by assumption)
      simp_all [Kept]
    · simp [Kept]
@[simp] theorem pump_kept (a0 : Nat) (s : State) : Kept s (pump a0 s) := by
  unfold pump
  simp [Kept]
@[simp] theorem applyFlows_kept (s : State) : Kept s (applyFlows s) := by
  unfold applyFlows
  simp [Kept]
@[simp] theorem retryClass_kept (a0 : Nat) (s : State) : Kept s (retryClass a0 s) := by
  unfold retryClass
  simp [Kept, foldl_kept]
@[simp] theorem irisRefill_kept (s : State) : Kept s (irisRefill s) := by
  unfold irisRefill
  simp [Kept]
@[simp] theorem stageIris_kept (a0 : Nat) (a1 : IrisImage) (s : State) : Kept s (stageIris a0 a1 s) := by
  unfold stageIris
  (repeat' split) <;> simp [Kept]
@[simp] theorem descComplete_kept (a0 : Nat) (a1 : Nat) (s : State) : Kept s (descComplete a0 a1 s) := by
  unfold descComplete
  (repeat' split) <;> simp [Kept]
@[simp] theorem endWait_kept (a0 : RunOp) (a1 : Status) (a2 : List Nat) (s : State) : Kept s (endWait a0 a1 a2 s) := by
  unfold endWait
  simp [Kept]
@[simp] theorem waitPoll_kept (a0 : Nat) (s : State) : Kept s (waitPoll a0 s) := by
  unfold waitPoll
  (repeat' split) <;> (try have hk := sendReq_kept (by assumption)) <;> simp_all [Kept]
@[simp] theorem counterRead_kept (a0 : Nat) (a1 : Nat) (s : State) : Kept s (counterRead a0 a1 s) := by
  unfold counterRead
  (repeat' split) <;> simp [Kept]
@[simp] theorem waitTimeout_kept (a0 : Nat) (s : State) : Kept s (waitTimeout a0 s) := by
  unfold waitTimeout
  (repeat' split) <;> simp [Kept]
@[simp] theorem enableRing_kept (a0 : Nat) (s : State) : Kept s (enableRing a0 s) := by
  unfold enableRing
  (repeat' split) <;> simp [Kept]

/-! ### Func -/

@[simp] theorem unmask_kept (a0 : Nat) (a1 : Nat) (s : State) : Kept s (unmask a0 a1 s) := by
  unfold unmask
  simp [Kept]
@[simp] theorem flushEvents_kept (s : State) (a0 : Nat) : Kept s (flushEvents s a0) := by
  unfold flushEvents
  simp [Kept, foldl_kept]
@[simp] theorem cancelOp_kept (a0 : RunOp) (s : State) : Kept s (cancelOp a0 s) := by
  unfold cancelOp
  (repeat' split) <;> simp [Kept]
@[simp] theorem unchargeOne_kept (a0 : Nat) (a1 : Fetched) (s : State) : Kept s (unchargeOne a0 a1 s) := by
  unfold unchargeOne
  (repeat' split) <;> simp [Kept]
@[simp] theorem uncharge_kept (a0 : RunOp) (s : State) : Kept s (uncharge a0 s) := by
  unfold uncharge
  (repeat' split) <;> simp [Kept]
@[simp] theorem detachOp_kept (a0 : RunOp) (s : State) : Kept s (detachOp a0 s) := by
  unfold detachOp
  (repeat' split) <;> simp [Kept]
theorem endByReset_kept (o : RunOp) (s : State) : Kept s (endByReset o s).2 := by
  unfold endByReset
  (repeat' split) <;> simp [Kept]
@[simp] theorem abortRead_kept (a0 : Nat) (s : State) : Kept s (abortRead a0 s) := by
  unfold abortRead
  simp [Kept, foldl_kept]
theorem endDescriptors_kept (l : List Nat) (s : State) : Kept s (endDescriptors l s).1 := by
  unfold endDescriptors
  dsimp only
  refine Kept.trans (foldl_proj_kept (β := State × Nat × Nat) Prod.fst _ (fun p o => ?_) _ _) (foldl_kept _ (fun s n => ?_) _ _)
  · have hk := endByReset_kept o p.1
    (repeat' split) <;> simp_all [Kept]
  · simp [Kept]
@[simp] theorem disableRing_kept (a0 : Nat) (s : State) : Kept s (disableRing a0 s) := by
  unfold disableRing
  simp [Kept]
@[simp] theorem spendSecrets_kept (s : State) : Kept s (spendSecrets s) := by
  unfold spendSecrets
  simp [Kept]
theorem resetRing_kept (n : Nat) (s : State) : Kept s (resetRing n s).1 := by
  unfold resetRing
  have hk := endDescriptors_kept [n] (spendSecrets s)
  simp_all [Kept]
@[simp] theorem dropOwn_kept (a0 : Hdr) (s : State) : Kept s (dropOwn a0 s) := by
  unfold dropOwn
  simp [Kept]
@[simp] theorem opRingReset_kept (a0 : Hdr) (a1 a2 : Nat) (s : State) : Kept s (opRingReset a0 a1 a2 s) := by
  unfold opRingReset
  have h1 := resetRing_kept a1 s
  have h2 := resetRing_kept a1 (dropOwn a0 s)
  dsimp only
  (repeat' split) <;> simp_all [Kept]
@[simp] theorem regRingReset_kept (a0 : Requester) (a1 : Nat) (s : State) : Kept s (regRingReset a0 a1 s) := by
  unfold regRingReset
  have h1 := resetRing_kept a1 s
  (repeat' split) <;> simp_all [Kept]
@[simp] theorem finishFnReset_kept (a0 : Nat) (a1 : FnReset) (s : State) : Kept s (finishFnReset a0 a1 s) := by
  unfold finishFnReset
  simp [Kept]
@[simp] theorem fnReset_kept (a0 : Nat) (a1 : Option Nat) (s : State) : Kept s (fnReset a0 a1 s) := by
  unfold fnReset
  dsimp only
  have h1 := endDescriptors_kept ((((spendSecrets s).rings.filter (fun e => e.2.owner == a0)).map (·.1))) (spendSecrets s)
  (repeat' split) <;> simp_all [Kept, foldl_kept]
@[simp] theorem opFnReset_kept (a0 : Hdr) (a1 : Nat) (a2 : Nat) (s : State) : Kept s (opFnReset a0 a1 a2 s) := by
  unfold opFnReset
  (repeat' split) <;> simp [Kept]
@[simp] theorem fenceEnd_kept (a0 : Nat) (s : State) : Kept s (fenceEnd a0 s) := by
  unfold fenceEnd
  (try dsimp only)
  (repeat' split) <;> simp_all [Kept]
@[simp] theorem endChannelOps_kept (a0 : Nat) (a1 : Status) (s : State) : Kept s (endChannelOps a0 a1 s) := by
  unfold endChannelOps
  simp [Kept, foldl_kept]
@[simp] theorem dropChannelWork_kept (a0 : Nat) (a1 : Status) (s : State) : Kept s (dropChannelWork a0 a1 s) := by
  unfold dropChannelWork
  (repeat' split) <;> simp [Kept]
@[simp] theorem clearParts_kept (a0 : Nat) (s : State) : Kept s (clearParts a0 s) := by
  unfold clearParts
  simp [Kept]
@[simp] theorem wipeChan_kept (a0 : Nat) (a1 : Status) (s : State) : Kept s (wipeChan a0 a1 s) := by
  unfold wipeChan
  simp [Kept]
@[simp] theorem beginChanReset_kept (a0 : Nat) (s : State) : Kept s (beginChanReset a0 s) := by
  unfold beginChanReset
  simp [Kept]
@[simp] theorem opChanReset_kept (a0 : Hdr) (a1 : Nat) (a2 : Nat) (s : State) : Kept s (opChanReset a0 a1 a2 s) := by
  unfold opChanReset
  (repeat' split) <;> simp [Kept]
@[simp] theorem gateBoundary_kept (a0 : Nat) (s : State) : Kept s (gateBoundary a0 s) := by
  unfold gateBoundary
  simp [Kept]
@[simp] theorem setComposition_kept (a0 : Nat) (a1 : BitVec 8) (a2 : Bool) (s : State) : Kept s (setComposition a0 a1 a2 s) := by
  unfold setComposition
  (repeat' split) <;> simp [Kept]

/-! ### Link -/

@[simp] theorem reqFailed_kept (a0 : ReqKind) (a1 : Status) (s : State) : Kept s (reqFailed a0 a1 s) := by
  unfold reqFailed
  (repeat' split) <;> simp [Kept]
@[simp] theorem waitsLost_kept (a0 : Nat) (s : State) : Kept s (waitsLost a0 s) := by
  unfold waitsLost
  simp [Kept, foldl_kept]
@[simp] theorem peerDownEffects_kept (a0 : Nat) (s : State) : Kept s (peerDownEffects a0 s) := by
  unfold peerDownEffects
  (repeat' split) <;> simp [Kept, foldl_kept]
@[simp] theorem reportPeer_kept (a0 a1 a2 a3 : Nat) (s : State) : Kept s (reportPeer a0 a1 a2 a3 s) := by
  unfold reportPeer
  dsimp only
  have hk : Kept s ((report a0 a1 a2 a3 s).2.foldl (fun s q => reqFailed q.kind .peerUnreachable s) (report a0 a1 a2 a3 s).1) :=
    (report_kept a0 a1 a2 a3 s).trans (foldl_kept _ (fun _ _ => by simp [Kept]) _ _)
  (repeat' split) <;> simp_all [Kept]
@[simp] theorem failRequest_kept (a0 : Request) (a1 : Nat) (s : State) : Kept s (failRequest a0 a1 s) := by
  unfold failRequest
  simp [Kept]
@[simp] theorem unreach_kept (a0 : Nat) (a1 : Pkt) (s : State) : Kept s (unreach a0 a1 s) := by
  unfold unreach
  (repeat' split) <;> simp [Kept]
@[simp] theorem mirrorAckTimeout_kept (a0 : Nat) (s : State) : Kept s (mirrorAckTimeout a0 s) := by
  unfold mirrorAckTimeout
  (repeat' split) <;> simp [Kept]
@[simp] theorem readDone_kept (a0 : Request) (a1 : Pkt) (a2 : ReadData) (s : State) : Kept s (readDone a0 a1 a2 s) := by
  unfold readDone
  (repeat' split) <;> simp [Kept]
@[simp] theorem takeResponse_kept (a0 : Pkt) (a1 : Request → State → State) (s : State) (h : ∀ r s, Kept s (a1 r s)) :
    Kept s (takeResponse a0 a1 s) := by
  unfold takeResponse
  have hk := takeRsp_kept a0 s
  split <;> simp_all [Kept]
@[simp] theorem writeDone_kept (a0 : Request) (a1 : Status) (s : State) : Kept s (writeDone a0 a1 s) := by
  unfold writeDone
  (repeat' split) <;> simp [Kept]
@[simp] theorem writeAck_kept (a0 : Pkt) (a1 : Nat) (s : State) : Kept s (writeAck a0 a1 s) := by
  unfold writeAck
  (repeat' split) <;> simp [Kept]
@[simp] theorem poolDone_kept (a0 : Pkt) (a1 : Nat) (a2 : Nat) (a3 : Request) (s : State) : Kept s (poolDone a0 a1 a2 a3 s) := by
  unfold poolDone
  (repeat' split) <;> simp [Kept]
@[simp] theorem ctrAnswer_kept (a0 : Pkt) (a1 : Nat) (s : State) : Kept s (ctrAnswer a0 a1 s) := by
  unfold ctrAnswer
  (repeat' split) <;> simp [Kept]
@[simp] theorem ctrDone_kept (a0 : Nat) (a1 : Nat) (a2 : Request) (s : State) : Kept s (ctrDone a0 a1 a2 s) := by
  unfold ctrDone
  (repeat' split) <;> simp [Kept]
@[simp] theorem protDenied_kept (a0 : Nat) (s : State) : Kept s (protDenied a0 s) := by
  unfold protDenied
  (repeat' split) <;> simp [Kept]
@[simp] theorem plainArrive_kept (a0 : Instr) (a1 : Pkt) (a2 : Nat) (s : State) : Kept s (plainArrive a0 a1 a2 s) := by
  unfold plainArrive
  (repeat' split) <;> simp [Kept]
@[simp] theorem linkEvent_kept (a0 : Event) (s : State) : Kept s (linkEvent a0 s) := by
  unfold linkEvent
  simp [Kept]
@[simp] theorem lockLanes_kept (a0 : Nat) (a1 : BitVec 4) (s : State) : Kept s (lockLanes a0 a1 s) := by
  unfold lockLanes
  simp [Kept, foldl_kept]
@[simp] theorem alignDone_kept (a0 : Nat) (a1 : BitVec 4) (s : State) : Kept s (alignDone a0 a1 s) := by
  unfold alignDone
  simp [Kept]
@[simp] theorem resend_kept (a0 : Nat) (a1 : List SentFlit) (s : State) : Kept s (resend a0 a1 s) := by
  unfold resend
  simp [Kept, foldl_kept]
@[simp] theorem configDone_kept (a0 : Nat) (a1 : Nat) (a2 : Nat) (a3 : BitVec 4) (a4 : Nat) (a5 : List Nat) (a6 : Nat) (s : State) : Kept s (configDone a0 a1 a2 a3 a4 a5 a6 s) := by
  unfold configDone
  simp [Kept]
@[simp] theorem linkMessage_kept (a0 : Nat) (a1 : LinkMsg) (s : State) : Kept s (linkMessage a0 a1 s) := by
  unfold linkMessage
  (repeat' split) <;> simp [Kept]
@[simp] theorem laneLockLoss_kept (a0 : Nat) (s : State) : Kept s (laneLockLoss a0 s) := by
  unfold laneLockLoss
  (repeat' split) <;> simp [Kept]
@[simp] theorem fecLimit_kept (a0 : Nat) (s : State) : Kept s (fecLimit a0 s) := by
  unfold fecLimit
  (try dsimp only)
  (repeat' split) <;> simp_all [Kept]
@[simp] theorem toDown_kept (a0 : Nat) (s : State) : Kept s (toDown a0 s) := by
  unfold toDown
  simp [Kept, foldl_kept]
@[simp] theorem linkDownTimeout_kept (a0 : Nat) (s : State) : Kept s (linkDownTimeout a0 s) := by
  unfold linkDownTimeout
  (repeat' split) <;> simp [Kept]
@[simp] theorem setPortCtl_kept (a0 : Nat) (a1 : Nat) (s : State) : Kept s (setPortCtl a0 a1 s) := by
  unfold setPortCtl
  simp [Kept]
@[simp] theorem enablePort_kept (a0 : Nat) (s : State) : Kept s (enablePort a0 s) := by
  unfold enablePort
  simp [Kept]
@[simp] theorem disablePort_kept (a0 : Nat) (s : State) : Kept s (disablePort a0 s) := by
  unfold disablePort
  simp [Kept]
@[simp] theorem sendAck_kept (a0 : Nat) (a1 : Bool) (s : State) : Kept s (sendAck a0 a1 s) := by
  unfold sendAck
  simp [Kept]
@[simp] theorem replayFrom_kept (a0 : Nat) (s : State) : Kept s (replayFrom a0 s) := by
  unfold replayFrom
  simp [Kept]
@[simp] theorem takeAck_kept (a0 : Nat) (a1 : Nat) (a2 : Bool) (a3 : Bool) (s : State) : Kept s (takeAck a0 a1 a2 a3 s) := by
  unfold takeAck
  (repeat' split) <;> simp [Kept]
@[simp] theorem discardFlit_kept (a0 : Nat) (a1 : Bool) (s : State) : Kept s (discardFlit a0 a1 s) := by
  unfold discardFlit
  simp [Kept]
theorem flitReceive_kept (a0 : Nat) (a1 : List Byte) (s : State) : Kept s (flitReceive a0 a1 s).2 := by
  unfold flitReceive
  dsimp only
  (repeat' split) <;> simp [Kept]
@[simp] theorem sendFlits_kept (a0 : Nat) (a1 : Nat) (a2 : Bool) (a3 : List (List Byte)) (s : State) : Kept s (sendFlits a0 a1 a2 a3 s) := by
  induction a3 generalizing a0 a1 a2 s with
  | nil => simp [sendFlits, Kept]
  | cons x xs ih =>
    unfold sendFlits
    (try dsimp only)
    simp_all [Kept]
@[simp] theorem sendNext_kept (a0 : Nat) (s : State) (a1 : Nat) : Kept s (sendNext a0 s a1) := by
  unfold sendNext
  (try dsimp only)
  (repeat' split) <;> simp_all [Kept]
@[simp] theorem transmit_kept (s : State) : Kept s (transmit s) := by
  unfold transmit
  simp [Kept, foldl_kept]

/-! ### Security -/

@[simp] theorem goOffline_kept (s : State) : Kept s (goOffline s) := by
  unfold goOffline
  simp [Kept]
@[simp] theorem zeroise_kept (s : State) : Kept s (zeroise s) := by
  unfold zeroise
  simp [Kept]
@[simp] theorem enclaveError_kept (a0 : Nat) (s : State) : Kept s (enclaveError a0 s) := by
  unfold enclaveError
  simp [Kept]
@[simp] theorem reseed_kept (s : State) : Kept s (reseed s) := by
  unfold reseed
  simp [Kept]
@[simp] theorem drbgDraw_kept (n : Nat) (s : State) : Kept s (drbgDraw n s).2 := by
  unfold drbgDraw
  dsimp only
  split <;> simp [Kept]
@[simp] theorem loadStorage_kept (a0 : Nat) (s : State) : Kept s (loadStorage a0 s) := by
  have hk := drbgDraw_kept 32 s
  unfold loadStorage
  simp_all [Kept]
@[simp] theorem evidenceGet_kept (a0 : Hdr) (a1 : List Byte) (a2 a3 : Nat) (a4 : Bool) (a5 : Nat) (s : State) :
    Kept s (evidenceGet a0 a1 a2 a3 a4 a5 s) := by
  have hk := drbgDraw_kept 64 s
  unfold evidenceGet
  dsimp only
  (repeat' split) <;> simp_all [Kept]
@[simp] theorem storeKey_kept (a0 : Blob) (a1 : List Byte) (s : State) : Kept s (storeKey a0 a1 s) := by
  unfold storeKey
  (repeat' split) <;> simp [Kept]
theorem releaseKey_kept (b : Blob) (s : State) : Kept s (releaseKey b s).2 := by
  unfold releaseKey
  dsimp only
  (repeat' split) <;> simp [Kept]
@[simp] theorem keyRelease_kept (a0 a1 : Nat) (a2 : Hdr) (a3 a4 : Nat) (a5 : Blob) (a6 : Nat) (s : State) :
    Kept s (keyRelease a0 a1 a2 a3 a4 a5 a6 s) := by
  have hk := releaseKey_kept a5 s
  unfold keyRelease
  dsimp only
  split <;> simp_all [Kept]
@[simp] theorem preempted_kept (a0 : Nat) (a1 : Nat) (a2 : Bool) (s : State) : Kept s (preempted a0 a1 a2 s) := by
  unfold preempted
  simp [Kept]
@[simp] theorem traceEvents_kept (a0 : State) (s : State) : Kept s (traceEvents a0 s) := by
  unfold traceEvents
  simp [Kept]
@[simp] theorem openDebug_kept (a0 : Hdr) (a1 : Token) (a2 : Nat) (s : State) : Kept s (openDebug a0 a1 a2 s) := by
  unfold openDebug
  simp [Kept, foldl_kept]
@[simp] theorem startRestart_kept (a0 : Nat) (s : State) : Kept s (startRestart a0 s) := by
  unfold startRestart
  simp [Kept]
@[simp] theorem fwReady_kept (a0 : Hdr) (a1 : Nat) (a2 : List (Nat × Nat)) (s : State) : Kept s (fwReady a0 a1 a2 s) := by
  unfold fwReady
  simp [Kept]
@[simp] theorem fwStage_kept (a0 : Hdr) (a1 : Nat) (a2 : Nat) (a3 : FwImage) (a4 : Nat) (s : State) : Kept s (fwStage a0 a1 a2 a3 a4 s) := by
  unfold fwStage
  (repeat' split) <;> simp [Kept]
@[simp] theorem fwActivate_kept (a0 : Hdr) (a1 : Nat) (s : State) : Kept s (fwActivate a0 a1 s) := by
  unfold fwActivate
  (repeat' split) <;> simp [Kept]

/-! ### Mgmt -/

@[simp] theorem addLock_kept (a0 : Nat) (s : State) : Kept s (addLock a0 s) := by
  unfold addLock
  (repeat' split) <;> simp [Kept]
@[simp] theorem clearLocks_kept (a0 : Nat) (s : State) : Kept s (clearLocks a0 s) := by
  unfold clearLocks
  simp [Kept]
@[simp] theorem stageWrite_kept (a0 : Requester) (a1 : Nat) (a2 : Nat) (a3 : Word) (s : State) : Kept s (stageWrite a0 a1 a2 a3 s) := by
  unfold stageWrite
  (try dsimp only)
  (repeat' split) <;> simp_all [Kept]
@[simp] theorem applied_kept (a0 : Requester) (a1 : Nat) (a2 : Bool) (s : State) : Kept s (applied a0 a1 a2 s) := by
  unfold applied
  simp [Kept]
@[simp] theorem newBuddy_kept (a0 : Nat) (a1 : State) (s : State) : Kept s (newBuddy a0 a1 s) := by
  unfold newBuddy
  simp [Kept]
@[simp] theorem clearMonitors_kept (a0 : State) (s : State) : Kept s (clearMonitors a0 s) := by
  unfold clearMonitors
  simp [Kept]
@[simp] theorem committed_kept (a0 : Nat) (a1 : State) (s : State) : Kept s (committed a0 a1 s) := by
  unfold committed
  (repeat' split) <;> simp [Kept]
@[simp] theorem lockScope_kept (a0 : Requester) (a1 : Nat) (a2 : Bool) (s : State) : Kept s (lockScope a0 a1 a2 s) := by
  unfold lockScope
  (repeat' split) <;> simp [Kept]
theorem commitNow_kept (r : Requester) (n : Nat) (o : Option Role) (s : State) : Kept s (commitNow r n o s).2.2 := by
  unfold commitNow
  split <;> simp [Kept]
@[simp] theorem noteCommit_kept (a0 : Status) (a1 : Nat) (s : State) : Kept s (noteCommit a0 a1 s) := by
  unfold noteCommit
  simp [Kept]
@[simp] theorem cfgEnded_kept (a0 : Status) (a1 : Nat) (s : State) : Kept s (cfgEnded a0 a1 s) := by
  unfold cfgEnded
  simp [Kept]
@[simp] theorem startCommit_kept (a0 : Requester) (a1 : Nat) (s : State) : Kept s (startCommit a0 a1 s) := by
  unfold startCommit
  have hk := commitNow_kept a0 a1 none (takeEntry s)
  dsimp only
  (repeat' split) <;> simp_all [Kept]
@[simp] theorem requestCommit_kept (a0 : Requester) (a1 : Nat) (s : State) : Kept s (requestCommit a0 a1 s) := by
  unfold requestCommit
  (repeat' split) <;> simp [Kept]
@[simp] theorem nextCommits_kept (a0 : Nat) (s : State) : Kept s (nextCommits a0 s) := by
  induction a0 generalizing s with
  | zero => simp [nextCommits, Kept]
  | succ n ih =>
    unfold nextCommits
    (try dsimp only)
    (repeat' split) <;> simp_all [Kept]
@[simp] theorem endCommit_kept (a0 : CfgRun) (s : State) : Kept s (endCommit a0 s) := by
  unfold endCommit
  simp [Kept, foldl_kept]
@[simp] theorem unlockScope_kept (a0 : Requester) (a1 : Nat) (s : State) : Kept s (unlockScope a0 a1 s) := by
  unfold unlockScope
  simp [Kept]
@[simp] theorem discardScope_kept (a0 : Requester) (a1 : Nat) (s : State) : Kept s (discardScope a0 a1 s) := by
  unfold discardScope
  simp [Kept]
@[simp] theorem relieve_kept (s : State) : Kept s (relieve s) := by
  unfold relieve
  (repeat' split) <;> simp [Kept]
@[simp] theorem watchdogExpiry_kept (s : State) : Kept s (watchdogExpiry s) := by
  unfold watchdogExpiry
  (repeat' split) <;> simp [Kept]
@[simp] theorem runImage_kept (s : State) : Kept s (runImage s) := by
  unfold runImage
  (repeat' split) <;> simp [Kept]
@[simp] theorem restartDone_kept (a0 : Nat) (s : State) : Kept s (restartDone a0 s) := by
  unfold restartDone
  (repeat' split) <;> simp [Kept]
@[simp] theorem failWaits_kept (a0 : Nat) (s : State) : Kept s (failWaits a0 s) := by
  unfold failWaits
  dsimp only
  refine Kept.trans (foldl_kept _ (fun s a => ?_) _ _) (foldl_kept _ (fun s a => ?_) _ _) <;> (repeat' split) <;> simp [Kept]
@[simp] theorem reportFailed_kept (a0 : Nat) (a1 : Nat) (s : State) : Kept s (reportFailed a0 a1 s) := by
  unfold reportFailed
  simp [Kept]
@[simp] theorem channelFault_kept (a0 : Nat) (a1 : Nat) (s : State) : Kept s (channelFault a0 a1 s) := by
  unfold channelFault
  (repeat' split) <;> simp [Kept]
@[simp] theorem enterUnassigned_kept (a0 : Nat) (s : State) : Kept s (enterUnassigned a0 s) := by
  unfold enterUnassigned
  simp [Kept]
@[simp] theorem selfTestFailed_kept (a0 : Nat) (s : State) : Kept s (selfTestFailed a0 s) := by
  unfold selfTestFailed
  simp [Kept]
@[simp] theorem wmDefault_kept (a0 : Nat) (a1 : Nat) (a2 : Nat) (a3 : Nat) (s : State) : Kept s (wmDefault a0 a1 a2 a3 s) := by
  unfold wmDefault
  simp [Kept]
@[simp] theorem wmDefaults_kept (a0 : Nat) (a1 : Role) (s : State) : Kept s (wmDefaults a0 a1 s) := by
  unfold wmDefaults
  simp [Kept]
@[simp] theorem clearWl_kept (a0 : Nat) (s : State) : Kept s (clearWl a0 s) := by
  unfold clearWl
  simp [Kept]
@[simp] theorem takeRole_kept (a0 : Nat) (a1 : Role) (s : State) : Kept s (takeRole a0 a1 s) := by
  unfold takeRole
  (repeat' split) <;> simp [Kept]
@[simp] theorem assignRole_kept (a0 : Nat) (a1 : RoleSwitch) (s : State) : Kept s (assignRole a0 a1 s) := by
  unfold assignRole
  have hk := commitNow_kept (.fn 0) (a0 + 1) (some a1.role) (wmDefaults a0 a1.role (s.modChan a0 (fun c => { c with switch := none })))
  dsimp only
  (repeat' split) <;> simp_all [Kept]
@[simp] theorem channelResetDone_kept (a0 : Nat) (a1 : Bool) (s : State) : Kept s (channelResetDone a0 a1 s) := by
  unfold channelResetDone
  (try dsimp only)
  (repeat' split) <;> simp_all [Kept]
@[simp] theorem beginZero_kept (a0 : Nat) (s : State) : Kept s (beginZero a0 s) := by
  unfold beginZero
  simp [Kept]
@[simp] theorem drainNext_kept (a0 : Nat) (s : State) : Kept s (drainNext a0 s) := by
  unfold drainNext
  (repeat' split) <;> simp [Kept]
@[simp] theorem beginSwitch_kept (a0 : Hdr) (a1 : Nat) (a2 : Role) (a3 : Nat) (a4 : Nat) (s : State) : Kept s (beginSwitch a0 a1 a2 a3 a4 s) := by
  unfold beginSwitch
  simp [Kept]
@[simp] theorem roleSet_kept (a0 : Hdr) (a1 : Nat) (a2 : Nat) (a3 : Nat) (a4 : Nat) (s : State) : Kept s (roleSet a0 a1 a2 a3 a4 s) := by
  unfold roleSet
  (repeat' split) <;> simp [Kept]
@[simp] theorem peerClear_kept (a0 : Nat) (s : State) : Kept s (peerClear a0 s) := by
  unfold peerClear
  simp [Kept]
@[simp] theorem countSample_kept (a0 : Nat) (a1 : Int) (s : State) : Kept s (countSample a0 a1 s) := by
  simp [countSample, Kept]
@[simp] theorem spectrumSample_kept (a0 : Nat) (a1 : Int) (s : State) : Kept s (spectrumSample a0 a1 s) := by
  unfold spectrumSample
  simp [Kept]
@[simp] theorem spectrumSnapshot_kept (a0 : Hdr) (a1 : BitVec 128) (a2 : Nat) (a3 : Bool) (a4 : Nat) (s : State) : Kept s (spectrumSnapshot a0 a1 a2 a3 a4 s) := by
  unfold spectrumSnapshot
  (try dsimp only)
  (repeat' split) <;> simp_all [Kept]

/-! ### Power -/

@[simp] theorem warmDone_kept (s : State) : Kept s (warmDone s) := by
  unfold warmDone
  (repeat' split) <;> simp [Kept]
@[simp] theorem warmParts_kept (s : State) : Kept s (warmParts s) := by
  unfold warmParts
  simp [Kept]
@[simp] theorem warmReset_kept (s : State) : Kept s (warmReset s) := by
  unfold warmReset
  (repeat' split) <;> simp [Kept, foldl_kept]
@[simp] theorem warmRise_kept (s : State) : Kept s (warmRise s) := by
  unfold warmRise
  (repeat' split) <;> simp [Kept]
@[simp] theorem bootFirmware_kept (a0 : BootInput) (s : State) : Kept s (bootFirmware a0 s) := by
  unfold bootFirmware
  (try dsimp only)
  (repeat' split) <;> simp_all [Kept]
@[simp] theorem bootChan_kept (a0 : BitVec 8) (a1 : BitVec 9) (s : State) (a2 : Nat) : Kept s (bootChan a0 a1 s a2) := by
  unfold bootChan
  (repeat' split) <;> simp [Kept]
@[simp] theorem portsUp_kept (a0 : BootInput) (s : State) : Kept s (portsUp a0 s) := by
  simp [portsUp, Kept]
@[simp] theorem pollRail_kept (s : State) (a0 : Nat × RailReading) : Kept s (pollRail s a0) := by
  unfold pollRail
  simp [Kept]
@[simp] theorem pmbusPoll_kept (a0 : List RailReading) (s : State) : Kept s (pmbusPoll a0 s) := by
  unfold pmbusPoll
  simp [Kept, foldl_kept]
@[simp] theorem avsAdjust_kept (a0 : Bool) (s : State) : Kept s (avsAdjust a0 s) := by
  unfold avsAdjust
  (repeat' split) <;> simp [Kept]
@[simp] theorem refreshAlerts_kept (s : State) : Kept s (refreshAlerts s) := by
  unfold refreshAlerts
  simp [Kept, foldl_kept]
@[simp] theorem thermalSample_kept (a0 : List Int) (s : State) : Kept s (thermalSample a0 s) := by
  unfold thermalSample
  simp [Kept]
@[simp] theorem powerControl_kept (a0 : Nat) (s : State) : Kept s (powerControl a0 s) := by
  unfold powerControl
  simp [Kept]
@[simp] theorem clearAlerts_kept (a0 : BitVec 6) (s : State) : Kept s (clearAlerts a0 s) := by
  unfold clearAlerts
  simp [Kept]
@[simp] theorem bmcWrite_kept (a0 : Nat) (a1 : Option (BitVec 32)) (s : State) : Kept s (bmcWrite a0 a1 s) := by
  unfold bmcWrite
  (repeat' split) <;> simp [Kept]
@[simp] theorem tickTimer_kept (s : State) : Kept s (tickTimer s) := by
  simp [tickTimer, Kept]
@[simp] theorem tick_kept (s : State) : Kept s (tick s) := by
  unfold tick
  (repeat' split) <;> simp [Kept, foldl_kept]

/-! ### RegWrite -/

@[simp] theorem okReg_kept (a0 : Requester) (s : State) : Kept s (okReg a0 s) := by
  unfold okReg
  simp [Kept]
@[simp] theorem badReg_kept (a0 : Requester) (s : State) : Kept s (badReg a0 s) := by
  unfold badReg
  simp [Kept]
@[simp] theorem writeRingOwner_kept (a0 : Requester) (a1 : Nat) (a2 : Nat) (a3 : Nat) (s : State) : Kept s (writeRingOwner a0 a1 a2 a3 s) := by
  unfold writeRingOwner
  simp [Kept]
@[simp] theorem writeRingCtl_kept (a0 : Requester) (a1 : Nat) (a2 : Nat) (a3 : Nat) (s : State) : Kept s (writeRingCtl a0 a1 a2 a3 s) := by
  unfold writeRingCtl
  simp [Kept]
@[simp] theorem writeRingBase_kept (a0 : Requester) (a1 : Bool) (a2 : Nat) (a3 : Nat) (a4 : Nat) (s : State) : Kept s (writeRingBase a0 a1 a2 a3 a4 s) := by
  unfold writeRingBase
  (repeat' split) <;> simp [Kept]
@[simp] theorem writeFnBind_kept (a0 : Requester) (a1 : Bool) (a2 : Nat) (a3 : Nat) (a4 : Nat) (s : State) : Kept s (writeFnBind a0 a1 a2 a3 a4 s) := by
  unfold writeFnBind
  (repeat' split) <;> simp [Kept]
@[simp] theorem writeFnDb_kept (a0 : Requester) (a1 : Nat) (a2 : Nat) (a3 : Nat) (s : State) : Kept s (writeFnDb a0 a1 a2 a3 s) := by
  unfold writeFnDb
  simp [Kept]
@[simp] theorem writeFnEvring_kept (a0 : Requester) (a1 : Nat) (a2 : Nat) (a3 : Nat) (s : State) : Kept s (writeFnEvring a0 a1 a2 a3 s) := by
  unfold writeFnEvring
  simp [Kept]
@[simp] theorem writeVec_kept (a0 : Requester) (a1 : Nat) (a2 : Nat) (a3 : Nat) (s : State) : Kept s (writeVec a0 a1 a2 a3 s) := by
  unfold writeVec
  simp [Kept]
@[simp] theorem writePortOf_kept (a0 : Nat) (s : State) (a1 : Nat) : Kept s (writePortOf a0 s a1) := by
  unfold writePortOf
  (repeat' split) <;> simp [Kept]
@[simp] theorem writePorts_kept (a0 : Requester) (a1 : Nat) (a2 : Nat) (a3 : Nat) (s : State) : Kept s (writePorts a0 a1 a2 a3 s) := by
  unfold writePorts
  simp [Kept, foldl_kept]
@[simp] theorem writeSub_kept (a0 : Requester) (a1 : Nat) (a2 : Nat) (a3 : RegRow) (a4 : Nat) (a5 : Nat) (a6 : Nat) (a7 : Nat) (s : State) : Kept s (writeSub a0 a1 a2 a3 a4 a5 a6 a7 s) := by
  unfold writeSub
  (repeat' split) <;> simp [Kept]
@[simp] theorem writeWlHead_kept (a0 : Requester) (a1 : Nat) (a2 : Nat) (a3 : Nat) (s : State) : Kept s (writeWlHead a0 a1 a2 a3 s) := by
  unfold writeWlHead
  (repeat' split) <;> simp [Kept]
@[simp] theorem clearLateWb_kept (a0 : Nat) (s : State) : Kept s (clearLateWb a0 s) := by
  unfold clearLateWb
  simp [Kept]
@[simp] theorem writeCommit_kept (a0 : Requester) (a1 : Nat) (s : State) : Kept s (writeCommit a0 a1 s) := by
  unfold writeCommit
  simp [Kept]
@[simp] theorem ownPort_kept (a0 : Requester) (a1 : Nat) (a2 : Nat) (a3 : Nat) (a4 : Nat) (s : State) : Kept s (ownPort a0 a1 a2 a3 a4 s) := by
  unfold ownPort
  simp [Kept]
@[simp] theorem ownChanAt_kept (a : Nat) (a0 : Requester) (a1 : Nat) (a2 : RegRow) (a3 a4 a5 a6 : Nat) (s : State) :
    Kept s (ownChanAt a a0 a1 a2 a3 a4 a5 a6 s) := by
  unfold ownChanAt
  (repeat' split) <;> simp [Kept]
@[simp] theorem ownChan_kept (a0 : Requester) (a1 : Nat) (a2 : RegRow) (a3 a4 a5 a6 : Nat) (s : State) :
    Kept s (ownChan a0 a1 a2 a3 a4 a5 a6 s) := ownChanAt_kept ..
@[simp] theorem stageOrHold_kept (a0 : Requester) (a1 : Nat) (a2 : Nat) (a3 : Word) (s : State) : Kept s (stageOrHold a0 a1 a2 a3 s) := by
  unfold stageOrHold
  (repeat' split) <;> simp [Kept]
@[simp] theorem regWrite_kept (a0 : Requester) (a1 : Nat) (a2 : Nat) (a3 : Word) (s : State) : Kept s (regWrite a0 a1 a2 a3 s) := by
  unfold regWrite
  (try dsimp only)
  (repeat' split) <;> simp_all [Kept]

/-! ### Wire -/

@[simp] theorem retag_kept (a0 : Pkt) (a1 : State) (s : State) : Kept s (retag a0 a1 s) := by
  unfold retag
  simp [Kept]
@[simp] theorem regPacket_kept (a0 : Pkt) (a1 : Requester → State → State) (s : State) (h2 : ∀ x0 s, Kept s (a1 x0 s)) : Kept s (regPacket a0 a1 s) := by
  unfold regPacket
  (repeat' split) <;> simp_all [Kept]
@[simp] theorem regRead_kept (a0 : Nat) (a1 : Nat) (a2 : Requester) (s : State) : Kept s (regRead a0 a1 a2 s) := by
  unfold regRead
  simp [Kept]
@[simp] theorem poolOpPacket_kept (a0 : Pkt) (a1 : List Byte) (s : State) : Kept s (poolOpPacket a0 a1 s) := by
  unfold poolOpPacket
  (repeat' split) <;> simp [Kept]
@[simp] theorem readRspPacket_kept (a0 : Pkt) (a1 : List Byte) (s : State) : Kept s (readRspPacket a0 a1 s) := by
  unfold readRspPacket
  (repeat' split) <;> simp [Kept]
@[simp] theorem openPacket_kept (a0 : Pkt) (a1 : Nat) (a2 : Nat) (a3 : Nat) (a4 : List Byte) (s : State) : Kept s (openPacket a0 a1 a2 a3 a4 s) := by
  unfold openPacket
  simp [Kept]
@[simp] theorem takePacket_kept (a0 : Nat) (a1 : Nat) (a2 : List Byte) (s : State) : Kept s (takePacket a0 a1 a2 s) := by
  unfold takePacket
  simp [Kept]
@[simp] theorem flitArrives_kept (a0 : Nat) (a1 : List Byte) (s : State) : Kept s (flitArrives a0 a1 s) := by
  unfold flitArrives
  have hk := flitReceive_kept a0 a1 s
  split <;> simp_all [Kept]

end Sys2Proof.Machine
end

