-- ==== Sys2Proof/Laws/KeptExec.lean ====
section
/-! SUPPORT. Every command answers a next state, and all but those that burn a fuse or move PORST_N keep what `Kept` names: one lemma
per command. -/

namespace Sys2Proof.Machine

open Sys2Proof

/-- What `whenUp` of an operation that keeps answers. -/
theorem whenUp_goes {f : State → State} (h : ∀ s, Kept s (f s)) (s : State) : ∃ t, whenUp f s = .next t ∧ Kept s t := by
  refine ⟨_, rfl, ?_⟩
  split
  · exact h s
  · exact ⟨rfl, rfl, rfl⟩

/-- What the acceptance of a descriptor answers. -/
theorem accept_goes {op : Nat} {d : Hdr} {f : Nat → Nat → State → State} (h : ∀ a b s, Kept s (f a b s)) (s : State) :
    ∃ t, accept op d f s = .next t ∧ Kept s t := by
  refine whenUp_goes (fun s => ?_) s
  (repeat' split) <;> first | exact h _ _ _ | simp [Kept]

/-- What a descriptor that names a session answers. -/
theorem onSession_goes {op : Nat} {d : Hdr} {q : Handle} {f : Nat → Nat → State → State} (h : ∀ a b s, Kept s (f a b s)) (s : State) :
    ∃ t, onSession op d q f s = .next t ∧ Kept s t := by
  refine accept_goes (fun a b s => ?_) s
  (repeat' split) <;> first | exact h _ _ _ | simp [Kept]

theorem exceptionComplete_kept (id : Nat) (s : State) : Kept s (exceptionComplete id s) := by
  unfold exceptionComplete
  dsimp only
  (repeat' split) <;> simp [Kept, endCommit, foldl_kept]

theorem exec_opNop_goes {d} (s : State) : ∃ t, exec (.opNop d) s = .next t ∧ Kept s t := by
  show ∃ t, execOpNop d s = .next t ∧ _
  unfold execOpNop
  refine accept_goes (fun fn ch s => ?_) s
  simp [Kept]

theorem exec_opBufRegister_goes {d index base length} (s : State) : ∃ t, exec (.opBufRegister d index base length) s = .next t ∧ Kept s t := by
  show ∃ t, execOpBufRegister d index base length s = .next t ∧ _
  unfold execOpBufRegister
  refine accept_goes (fun fn ch s => ?_) s
  (repeat' split) <;> simp [Kept]

theorem exec_opBufUnregister_goes {d index} (s : State) : ∃ t, exec (.opBufUnregister d index) s = .next t ∧ Kept s t := by
  show ∃ t, execOpBufUnregister d index s = .next t ∧ _
  unfold execOpBufUnregister
  refine accept_goes (fun fn ch s => ?_) s
  (repeat' split) <;> simp [Kept]

theorem exec_opSessionOpen_goes {d owner profile tokenizer grammarSlot grammarEn addr len img} (s : State) : ∃ t, exec (.opSessionOpen d owner profile tokenizer grammarSlot grammarEn addr len img) s = .next t ∧ Kept s t := by
  show ∃ t, execOpSessionOpen d owner profile tokenizer grammarSlot grammarEn addr len img s = .next t ∧ _
  unfold execOpSessionOpen
  refine accept_goes (fun fn ch s => ?_) s
  split
  · simp [Kept]
  · unfold withEntry
    dsimp only
    (repeat' split) <;> simp [Kept]

theorem exec_opSessionClose_goes {d h} (s : State) : ∃ t, exec (.opSessionClose d h) s = .next t ∧ Kept s t := by
  show ∃ t, execOpSessionClose d h s = .next t ∧ _
  unfold execOpSessionClose
  refine onSession_goes (fun fn ch s => ?_) s
  simp [Kept]

theorem exec_opSessionPark_goes {d h} (s : State) : ∃ t, exec (.opSessionPark d h) s = .next t ∧ Kept s t := by
  show ∃ t, execOpSessionPark d h s = .next t ∧ _
  unfold execOpSessionPark
  refine onSession_goes (fun fn ch s => ?_) s
  simp [Kept]

theorem exec_opSessionRevive_goes {d h} (s : State) : ∃ t, exec (.opSessionRevive d h) s = .next t ∧ Kept s t := by
  show ∃ t, execOpSessionRevive d h s = .next t ∧ _
  unfold execOpSessionRevive
  refine onSession_goes (fun fn ch s => ?_) s
  simp [Kept]

theorem exec_opSessionFork_goes {d h} (s : State) : ∃ t, exec (.opSessionFork d h) s = .next t ∧ Kept s t := by
  show ∃ t, execOpSessionFork d h s = .next t ∧ _
  unfold execOpSessionFork
  refine onSession_goes (fun fn ch s => ?_) s
  simp [Kept]

theorem exec_opSessionResume_goes {d h toolTag genLimit feedCut useDefault} (s : State) : ∃ t, exec (.opSessionResume d h toolTag genLimit feedCut useDefault) s = .next t ∧ Kept s t := by
  show ∃ t, execOpSessionResume d h toolTag genLimit feedCut useDefault s = .next t ∧ _
  unfold execOpSessionResume
  refine onSession_goes (fun fn ch s => ?_) s
  simp [Kept]

theorem exec_opSessionSet_goes {d h addr len img rebind grammarSlot grammarEn} (s : State) : ∃ t, exec (.opSessionSet d h addr len img rebind grammarSlot grammarEn) s = .next t ∧ Kept s t := by
  show ∃ t, execOpSessionSet d h addr len img rebind grammarSlot grammarEn s = .next t ∧ _
  unfold execOpSessionSet
  refine onSession_goes (fun fn ch s => ?_) s
  (repeat' split) <;> simp [Kept]

theorem exec_opSessionQuery_goes {d h addr} (s : State) : ∃ t, exec (.opSessionQuery d h addr) s = .next t ∧ Kept s t := by
  show ∃ t, execOpSessionQuery d h addr s = .next t ∧ _
  unfold execOpSessionQuery
  refine onSession_goes (fun fn ch s => ?_) s
  (repeat' split) <;> simp [Kept]

theorem exec_opKvPrefetch_goes {d h firstLayer layerCount} (s : State) : ∃ t, exec (.opKvPrefetch d h firstLayer layerCount) s = .next t ∧ Kept s t := by
  show ∃ t, execOpKvPrefetch d h firstLayer layerCount s = .next t ∧ _
  unfold execOpKvPrefetch
  refine onSession_goes (fun fn ch s => ?_) s
  simp [Kept]

theorem exec_opProfileSet_goes {d profile rec} (s : State) : ∃ t, exec (.opProfileSet d profile rec) s = .next t ∧ Kept s t := by
  show ∃ t, execOpProfileSet d profile rec s = .next t ∧ _
  unfold execOpProfileSet
  refine accept_goes (fun fn ch s => ?_) s
  (repeat' split) <;> simp [Kept]

theorem exec_opKvAppend_goes {d a} (s : State) : ∃ t, exec (.opKvAppend d a) s = .next t ∧ Kept s t := by
  show ∃ t, execOpKvAppend d a s = .next t ∧ _
  unfold execOpKvAppend
  refine onSession_goes (fun fn ch s => ?_) s
  (repeat' split) <;> simp [Kept]

theorem exec_opAttnPrefill_goes {d a} (s : State) : ∃ t, exec (.opAttnPrefill d a) s = .next t ∧ Kept s t := by
  show ∃ t, execOpAttnPrefill d a s = .next t ∧ _
  unfold execOpAttnPrefill
  refine onSession_goes (fun fn ch s => ?_) s
  (repeat' split) <;> simp [Kept]

theorem exec_opAttnMerge_goes {d a} (s : State) : ∃ t, exec (.opAttnMerge d a) s = .next t ∧ Kept s t := by
  show ∃ t, execOpAttnMerge d a s = .next t ∧ _
  unfold execOpAttnMerge
  refine accept_goes (fun fn ch s => ?_) s
  (repeat' split) <;> simp [Kept]

theorem exec_opStep_goes {d a} (s : State) : ∃ t, exec (.opStep d a) s = .next t ∧ Kept s t := by
  show ∃ t, execOpStep d a s = .next t ∧ _
  unfold execOpStep
  refine accept_goes (fun fn ch s => ?_) s
  (repeat' split) <;> simp [Kept]

theorem exec_opTextIn_goes {d a} (s : State) : ∃ t, exec (.opTextIn d a) s = .next t ∧ Kept s t := by
  show ∃ t, execOpTextIn d a s = .next t ∧ _
  unfold execOpTextIn
  refine onSession_goes (fun fn ch s => ?_) s
  (repeat' split) <;> simp [Kept]

theorem exec_opTokenizerLoad_goes {d a} (s : State) : ∃ t, exec (.opTokenizerLoad d a) s = .next t ∧ Kept s t := by
  show ∃ t, execOpTokenizerLoad d a s = .next t ∧ _
  unfold execOpTokenizerLoad
  refine accept_goes (fun fn ch s => ?_) s
  (repeat' split) <;> simp [Kept]

theorem exec_tokenizerUnload_goes {d a} (s : State) : ∃ t, exec (.tokenizerUnload d a) s = .next t ∧ Kept s t := by
  show ∃ t, execTokenizerUnload d a s = .next t ∧ _
  unfold execTokenizerUnload
  refine accept_goes (fun fn ch s => ?_) s
  (repeat' split) <;> simp [Kept]

theorem exec_opSessionDraft_goes {d a} (s : State) : ∃ t, exec (.opSessionDraft d a) s = .next t ∧ Kept s t := by
  show ∃ t, execOpSessionDraft d a s = .next t ∧ _
  unfold execOpSessionDraft
  refine accept_goes (fun fn ch s => ?_) s
  dsimp only
  (repeat' split) <;> simp_all [Kept]

theorem exec_opGrammarLoad_goes {d a} (s : State) : ∃ t, exec (.opGrammarLoad d a) s = .next t ∧ Kept s t := by
  show ∃ t, execOpGrammarLoad d a s = .next t ∧ _
  unfold execOpGrammarLoad
  refine accept_goes (fun fn ch s => ?_) s
  (repeat' split) <;> simp [Kept, foldl_kept]

theorem exec_grammarUnload_goes {d a} (s : State) : ∃ t, exec (.grammarUnload d a) s = .next t ∧ Kept s t := by
  show ∃ t, execGrammarUnload d a s = .next t ∧ _
  unfold execGrammarUnload
  refine accept_goes (fun fn ch s => ?_) s
  (repeat' split) <;> simp [Kept]

theorem exec_opModelLoad_goes {d a} (s : State) : ∃ t, exec (.opModelLoad d a) s = .next t ∧ Kept s t := by
  show ∃ t, execOpModelLoad d a s = .next t ∧ _
  unfold execOpModelLoad
  refine accept_goes (fun fn ch s => ?_) s
  (repeat' split) <;> simp [Kept]

theorem exec_modelUnload_goes {d a} (s : State) : ∃ t, exec (.modelUnload d a) s = .next t ∧ Kept s t := by
  show ∃ t, execModelUnload d a s = .next t ∧ _
  unfold execModelUnload
  refine accept_goes (fun fn ch s => ?_) s
  (repeat' split) <;> simp [Kept]

theorem exec_opModelRun_goes {d a} (s : State) : ∃ t, exec (.opModelRun d a) s = .next t ∧ Kept s t := by
  show ∃ t, execOpModelRun d a s = .next t ∧ _
  unfold execOpModelRun
  refine accept_goes (fun fn ch s => ?_) s
  (repeat' split) <;> simp [Kept]

theorem exec_opMirrorSnapshot_goes {d} (s : State) : ∃ t, exec (.opMirrorSnapshot d) s = .next t ∧ Kept s t := by
  show ∃ t, execOpMirrorSnapshot d s = .next t ∧ _
  unfold execOpMirrorSnapshot
  refine accept_goes (fun fn ch s => ?_) s
  simp [Kept]

theorem exec_opMirrorRestore_goes {d a} (s : State) : ∃ t, exec (.opMirrorRestore d a) s = .next t ∧ Kept s t := by
  show ∃ t, execOpMirrorRestore d a s = .next t ∧ _
  unfold execOpMirrorRestore
  refine accept_goes (fun fn ch s => ?_) s
  (repeat' split) <;> simp [Kept]

theorem exec_opMirrorRollback_goes {d a} (s : State) : ∃ t, exec (.opMirrorRollback d a) s = .next t ∧ Kept s t := by
  show ∃ t, execOpMirrorRollback d a s = .next t ∧ _
  unfold execOpMirrorRollback
  refine accept_goes (fun fn ch s => ?_) s
  dsimp only
  split
  · simp [Kept]
  · split
    · simp [Kept]
    · refine Kept.trans (foldl_proj_kept (β := State × List Nat) Prod.fst
        (fun p n => ((rollChannel n ((rollGen n a.gen s).getD 0) a p.1).1, p.2 ++ (rollChannel n ((rollGen n a.gen s).getD 0) a p.1).2))
        (fun p n => rollChannel_kept _ _ _ _) (maskChans a.channels) (s, [])) ?_
      simp [Kept]

theorem exec_sessionRollback_goes {d a} (s : State) : ∃ t, exec (.sessionRollback d a) s = .next t ∧ Kept s t := by
  show ∃ t, execSessionRollback d a s = .next t ∧ _
  unfold execSessionRollback
  refine accept_goes (fun fn ch s => ?_) s
  (repeat' split)
  · simp [Kept]
  · (rename_i n _ _; exact (rollSession_kept n a.handle.index a s).trans (by simp [Kept]))
  · simp [Kept]

theorem exec_opPartitionSet_goes {d partition img} (s : State) : ∃ t, exec (.opPartitionSet d partition img) s = .next t ∧ Kept s t := by
  show ∃ t, execOpPartitionSet d partition img s = .next t ∧ _
  unfold execOpPartitionSet
  refine accept_goes (fun fn ch s => ?_) s
  (repeat' split) <;> simp [Kept]

theorem exec_opExtentSet_goes {d partition slot img} (s : State) : ∃ t, exec (.opExtentSet d partition slot img) s = .next t ∧ Kept s t := by
  show ∃ t, execOpExtentSet d partition slot img s = .next t ∧ _
  unfold execOpExtentSet
  refine accept_goes (fun fn ch s => ?_) s
  (repeat' split) <;> simp [Kept]

theorem exec_opExtentRevoke_goes {d partition slot} (s : State) : ∃ t, exec (.opExtentRevoke d partition slot) s = .next t ∧ Kept s t := by
  show ∃ t, execOpExtentRevoke d partition slot s = .next t ∧ _
  unfold execOpExtentRevoke
  refine accept_goes (fun fn ch s => ?_) s
  dsimp only
  (repeat' split) <;> simp_all [Kept]

theorem exec_opRebuild_goes {d partition slot source srcOff srcLen} (s : State) : ∃ t, exec (.opRebuild d partition slot source srcOff srcLen) s = .next t ∧ Kept s t := by
  show ∃ t, execOpRebuild d partition slot source srcOff srcLen s = .next t ∧ _
  unfold execOpRebuild
  refine accept_goes (fun fn ch s => ?_) s
  dsimp only
  (repeat' split) <;> simp_all [Kept]

theorem exec_opPoolOp_goes {d op targetFid targetChannel resultAddr b} (s : State) : ∃ t, exec (.opPoolOp d op targetFid targetChannel resultAddr b) s = .next t ∧ Kept s t := by
  show ∃ t, execOpPoolOp d op targetFid targetChannel resultAddr b s = .next t ∧ _
  unfold execOpPoolOp
  refine accept_goes (fun fn ch s => ?_) s
  (repeat' split) <;> first
    | (have hk := sendReq_kept (by assumption); simp_all [Kept]; done)
    | simp [Kept]

theorem exec_opWaitCount_goes {d fabricId ring n timeout} (s : State) : ∃ t, exec (.opWaitCount d fabricId ring n timeout) s = .next t ∧ Kept s t := by
  show ∃ t, execOpWaitCount d fabricId ring n timeout s = .next t ∧ _
  unfold execOpWaitCount
  refine accept_goes (fun fn ch s => ?_) s
  (repeat' split) <;> simp [Kept]

theorem exec_opLensCreate_goes {d hdr} (s : State) : ∃ t, exec (.opLensCreate d hdr) s = .next t ∧ Kept s t := by
  show ∃ t, execOpLensCreate d hdr s = .next t ∧ _
  unfold execOpLensCreate
  refine accept_goes (fun fn ch s => ?_) s
  (repeat' split) <;> simp [Kept]

theorem exec_lensDestroy_goes {d} (s : State) : ∃ t, exec (.lensDestroy d) s = .next t ∧ Kept s t := by
  show ∃ t, execLensDestroy d s = .next t ∧ _
  unfold execLensDestroy
  refine accept_goes (fun fn ch s => ?_) s
  (repeat' split) <;> simp [Kept]

theorem exec_opLensQuery_goes {d count k beam vecAddr outAddr vecs} (s : State) : ∃ t, exec (.opLensQuery d count k beam vecAddr outAddr vecs) s = .next t ∧ Kept s t := by
  show ∃ t, execOpLensQuery d count k beam vecAddr outAddr vecs s = .next t ∧ _
  unfold execOpLensQuery
  refine accept_goes (fun fn ch s => ?_) s
  (repeat' split) <;> simp [Kept]

theorem exec_opLensInsert_goes {d count idAddr vecAddr ids vecs} (s : State) : ∃ t, exec (.opLensInsert d count idAddr vecAddr ids vecs) s = .next t ∧ Kept s t := by
  show ∃ t, execOpLensInsert d count idAddr vecAddr ids vecs s = .next t ∧ _
  unfold execOpLensInsert
  refine accept_goes (fun fn ch s => ?_) s
  (repeat' split) <;> simp [Kept]

theorem exec_opLensDelete_goes {d count idAddr ids} (s : State) : ∃ t, exec (.opLensDelete d count idAddr ids) s = .next t ∧ Kept s t := by
  show ∃ t, execOpLensDelete d count idAddr ids s = .next t ∧ _
  unfold execOpLensDelete
  refine accept_goes (fun fn ch s => ?_) s
  (repeat' split) <;> simp [Kept]

theorem exec_opLensConsolidate_goes {d} (s : State) : ∃ t, exec (.opLensConsolidate d) s = .next t ∧ Kept s t := by
  show ∃ t, execOpLensConsolidate d s = .next t ∧ _
  unfold execOpLensConsolidate
  refine accept_goes (fun fn ch s => ?_) s
  simp [Kept]

theorem exec_opMergeTopk_goes {d lists kIn kOut inAddr outAddr data} (s : State) : ∃ t, exec (.opMergeTopk d lists kIn kOut inAddr outAddr data) s = .next t ∧ Kept s t := by
  show ∃ t, execOpMergeTopk d lists kIn kOut inAddr outAddr data s = .next t ∧ _
  unfold execOpMergeTopk
  refine accept_goes (fun fn ch s => ?_) s
  (repeat' split) <;> simp [Kept]

theorem exec_ringReset_goes {by_ ring} (s : State) : ∃ t, exec (.ringReset by_ ring) s = .next t ∧ Kept s t := by
  show ∃ t, execRingReset by_ ring s = .next t ∧ _
  unfold execRingReset
  split
  · exact accept_goes (fun _ _ s => opRingReset_kept ..) s
  · exact whenUp_goes (fun s => regRingReset_kept ..) s
  · exact whenUp_goes (fun s => ⟨rfl, rfl, rfl⟩) s
  · exact whenUp_goes (fun s => ⟨rfl, rfl, rfl⟩) s

theorem exec_functionReset_goes {by_ fn} (s : State) : ∃ t, exec (.functionReset by_ fn) s = .next t ∧ Kept s t := by
  show ∃ t, execFunctionReset by_ fn s = .next t ∧ _
  unfold execFunctionReset
  split
  · exact accept_goes (fun _ _ s => opFnReset_kept ..) s
  · exact whenUp_goes (fun s => ⟨rfl, rfl, rfl⟩) s
  · exact whenUp_goes (fun s => ⟨rfl, rfl, rfl⟩) s
  · exact whenUp_goes (fun s => by split <;> simp [Kept]) s

theorem exec_channelReset_goes {by_ channel} (s : State) : ∃ t, exec (.channelReset by_ channel) s = .next t ∧ Kept s t := by
  show ∃ t, execChannelReset by_ channel s = .next t ∧ _
  unfold execChannelReset
  split
  · exact accept_goes (fun _ _ s => opChanReset_kept ..) s
  · exact whenUp_goes (fun s => ⟨rfl, rfl, rfl⟩) s
  · exact whenUp_goes (fun s => ⟨rfl, rfl, rfl⟩) s
  · exact whenUp_goes (fun s => ⟨rfl, rfl, rfl⟩) s

theorem exec_warmDeviceReset_goes {by_} (s : State) : ∃ t, exec (.warmDeviceReset by_) s = .next t ∧ Kept s t := by
  show ∃ t, execWarmDeviceReset by_ s = .next t ∧ _
  unfold execWarmDeviceReset
  split
  · exact accept_goes (fun fn _ s => by split <;> simp [Kept]) s
  · exact whenUp_goes (fun s => ⟨rfl, rfl, rfl⟩) s
  · refine ⟨_, rfl, ?_⟩
    split <;> simp [Kept]
  · exact whenUp_goes (fun s => ⟨rfl, rfl, rfl⟩) s

theorem exec_opIrisSet_goes {d index img} (s : State) : ∃ t, exec (.opIrisSet d index img) s = .next t ∧ Kept s t := by
  show ∃ t, execOpIrisSet d index img s = .next t ∧ _
  unfold execOpIrisSet
  refine accept_goes (fun fn ch s => ?_) s
  (repeat' split) <;> simp [Kept]

theorem exec_opApertureSet_goes {d port enable count base listAddr entries} (s : State) : ∃ t, exec (.opApertureSet d port enable count base listAddr entries) s = .next t ∧ Kept s t := by
  show ∃ t, execOpApertureSet d port enable count base listAddr entries s = .next t ∧ _
  unfold execOpApertureSet
  refine accept_goes (fun fn ch s => ?_) s
  (repeat' split) <;> simp [Kept]

theorem exec_opCompositionSet_goes {d id channels clear} (s : State) : ∃ t, exec (.opCompositionSet d id channels clear) s = .next t ∧ Kept s t := by
  show ∃ t, execOpCompositionSet d id channels clear s = .next t ∧ _
  unfold execOpCompositionSet
  refine accept_goes (fun fn ch s => ?_) s
  (repeat' split) <;> simp [Kept]

theorem exec_opCompositionRead_goes {d outAddr} (s : State) : ∃ t, exec (.opCompositionRead d outAddr) s = .next t ∧ Kept s t := by
  show ∃ t, execOpCompositionRead d outAddr s = .next t ∧ _
  unfold execOpCompositionRead
  refine accept_goes (fun fn ch s => ?_) s
  (repeat' split) <;> simp [Kept]

theorem exec_opEvidenceGet_goes {d nonce outAddr outCap kem} (s : State) : ∃ t, exec (.opEvidenceGet d nonce outAddr outCap kem) s = .next t ∧ Kept s t := by
  show ∃ t, execOpEvidenceGet d nonce outAddr outCap kem s = .next t ∧ _
  unfold execOpEvidenceGet
  refine accept_goes (fun fn ch s => ?_) s
  simp [Kept]

theorem exec_opKeyRelease_goes {d blobAddr blobLen blob} (s : State) : ∃ t, exec (.opKeyRelease d blobAddr blobLen blob) s = .next t ∧ Kept s t := by
  show ∃ t, execOpKeyRelease d blobAddr blobLen blob s = .next t ∧ _
  unfold execOpKeyRelease
  refine accept_goes (fun fn ch s => ?_) s
  simp [Kept]

theorem exec_keyErase_goes {d slot} (s : State) : ∃ t, exec (.keyErase d slot) s = .next t ∧ Kept s t := by
  show ∃ t, execKeyErase d slot s = .next t ∧ _
  unfold execKeyErase
  refine accept_goes (fun fn ch s => ?_) s
  (repeat' split) <;> simp [Kept]

theorem exec_opGroupKey_goes {d blobAddr blobLen blob} (s : State) : ∃ t, exec (.opGroupKey d blobAddr blobLen blob) s = .next t ∧ Kept s t := by
  show ∃ t, execOpGroupKey d blobAddr blobLen blob s = .next t ∧ _
  unfold execOpGroupKey
  refine accept_goes (fun fn ch s => ?_) s
  simp [Kept]

theorem exec_groupKeyErase_goes {d index} (s : State) : ∃ t, exec (.groupKeyErase d index) s = .next t ∧ Kept s t := by
  show ∃ t, execGroupKeyErase d index s = .next t ∧ _
  unfold execGroupKeyErase
  refine accept_goes (fun fn ch s => ?_) s
  (repeat' split) <;> simp [Kept]

theorem exec_debugChallenge_goes {d addr} (s : State) : ∃ t, exec (.debugChallenge d addr) s = .next t ∧ Kept s t := by
  show ∃ t, execDebugChallenge d addr s = .next t ∧ _
  unfold execDebugChallenge
  refine accept_goes (fun fn ch s => ?_) s
  (repeat' split) <;> simp [Kept]

theorem exec_fwStage_goes {d addr len img} (s : State) : ∃ t, exec (.fwStage d addr len img) s = .next t ∧ Kept s t := by
  show ∃ t, execFwStage d addr len img s = .next t ∧ _
  unfold execFwStage
  refine accept_goes (fun fn ch s => ?_) s
  simp [Kept]

theorem exec_fwActivate_goes {d} (s : State) : ∃ t, exec (.fwActivate d) s = .next t ∧ Kept s t := by
  show ∃ t, execFwActivate d s = .next t ∧ _
  unfold execFwActivate
  refine accept_goes (fun fn ch s => ?_) s
  simp [Kept]

theorem exec_opRoleSet_goes {d channel role drainTmo} (s : State) : ∃ t, exec (.opRoleSet d channel role drainTmo) s = .next t ∧ Kept s t := by
  show ∃ t, execOpRoleSet d channel role drainTmo s = .next t ∧ _
  unfold execOpRoleSet
  refine accept_goes (fun fn ch s => ?_) s
  simp [Kept]

theorem exec_opSpectrumSnapshot_goes {d mask outAddr clear} (s : State) : ∃ t, exec (.opSpectrumSnapshot d mask outAddr clear) s = .next t ∧ Kept s t := by
  show ∃ t, execOpSpectrumSnapshot d mask outAddr clear s = .next t ∧ _
  unfold execOpSpectrumSnapshot
  refine accept_goes (fun fn ch s => ?_) s
  simp [Kept]

theorem exec_cfgCommit_goes {r scope} (s : State) : ∃ t, exec (.cfgCommit r scope) s = .next t ∧ Kept s t := by
  show ∃ t, execCfgCommit r scope s = .next t ∧ _
  unfold execCfgCommit
  refine whenUp_goes (fun s => ?_) s
  (repeat' split) <;> simp [Kept]

theorem exec_cfgUnlock_goes {r scope} (s : State) : ∃ t, exec (.cfgUnlock r scope) s = .next t ∧ Kept s t := by
  show ∃ t, execCfgUnlock r scope s = .next t ∧ _
  unfold execCfgUnlock
  refine whenUp_goes (fun s => ?_) s
  (repeat' split) <;> simp [Kept]

theorem exec_cfgDiscard_goes {r scope} (s : State) : ∃ t, exec (.cfgDiscard r scope) s = .next t ∧ Kept s t := by
  show ∃ t, execCfgDiscard r scope s = .next t ∧ _
  unfold execCfgDiscard
  refine whenUp_goes (fun s => ?_) s
  (repeat' split) <;> simp [Kept]

theorem exec_ringEnable_goes {r ring} (s : State) : ∃ t, exec (.ringEnable r ring) s = .next t ∧ Kept s t := by
  show ∃ t, execRingEnable r ring s = .next t ∧ _
  unfold execRingEnable
  refine whenUp_goes (fun s => ?_) s
  (repeat' split) <;> simp [Kept]

theorem exec_prtWdogKick_goes {r} (s : State) : ∃ t, exec (.prtWdogKick r) s = .next t ∧ Kept s t := by
  show ∃ t, execPrtWdogKick r s = .next t ∧ _
  unfold execPrtWdogKick
  refine whenUp_goes (fun s => ?_) s
  (repeat' split) <;> simp [Kept]

theorem exec_prtPeerClear_goes {r} (s : State) : ∃ t, exec (.prtPeerClear r) s = .next t ∧ Kept s t := by
  show ∃ t, execPrtPeerClear r s = .next t ∧ _
  unfold execPrtPeerClear
  refine whenUp_goes (fun s => ?_) s
  (repeat' split) <;> simp [Kept]

theorem exec_portEnable_goes {r port} (s : State) : ∃ t, exec (.portEnable r port) s = .next t ∧ Kept s t := by
  show ∃ t, execPortEnable r port s = .next t ∧ _
  unfold execPortEnable
  refine whenUp_goes (fun s => ?_) s
  (repeat' split) <;> simp [Kept]

theorem exec_portDisable_goes {r port} (s : State) : ∃ t, exec (.portDisable r port) s = .next t ∧ Kept s t := by
  show ∃ t, execPortDisable r port s = .next t ∧ _
  unfold execPortDisable
  refine whenUp_goes (fun s => ?_) s
  (repeat' split) <;> simp [Kept]

theorem exec_rewiden_goes {r port} (s : State) : ∃ t, exec (.rewiden r port) s = .next t ∧ Kept s t := by
  show ∃ t, execRewiden r port s = .next t ∧ _
  unfold execRewiden
  refine whenUp_goes (fun s => ?_) s
  (repeat' split) <;> simp [Kept]

theorem exec_wlHeadWrite_goes {r channel sub value} (s : State) : ∃ t, exec (.wlHeadWrite r channel sub value) s = .next t ∧ Kept s t := by
  show ∃ t, execWlHeadWrite r channel sub value s = .next t ∧ _
  unfold execWlHeadWrite
  refine whenUp_goes (fun s => ?_) s
  (repeat' split) <;> simp [Kept]

theorem exec_vecUnmask_goes {r} (s : State) : ∃ t, exec (.vecUnmask r) s = .next t ∧ Kept s t := by
  show ∃ t, execVecUnmask r s = .next t ∧ _
  unfold execVecUnmask
  refine whenUp_goes (fun s => ?_) s
  simp [Kept]

theorem exec_alertStatusClear_goes {r mask} (s : State) : ∃ t, exec (.alertStatusClear r mask) s = .next t ∧ Kept s t := by
  show ∃ t, execAlertStatusClear r mask s = .next t ∧ _
  unfold execAlertStatusClear
  refine whenUp_goes (fun s => ?_) s
  (repeat' split) <;> simp [Kept]

theorem exec_poolLateWbClear_goes {r channel} (s : State) : ∃ t, exec (.poolLateWbClear r channel) s = .next t ∧ Kept s t := by
  show ∃ t, execPoolLateWbClear r channel s = .next t ∧ _
  unfold execPoolLateWbClear
  refine whenUp_goes (fun s => ?_) s
  (repeat' split) <;> simp [Kept]

theorem exec_regWrite_goes {r addr size value} (s : State) : ∃ t, exec (.regWrite r addr size value) s = .next t ∧ Kept s t := by
  show ∃ t, execRegWrite r addr size value s = .next t ∧ _
  unfold execRegWrite
  refine whenUp_goes (fun s => ?_) s
  simp [Kept]

theorem exec_notifyDb_goes {p fn line word value} (s : State) : ∃ t, exec (.notifyDb p fn line word value) s = .next t ∧ Kept s t := by
  show ∃ t, execNotifyDb p fn line word value s = .next t ∧ _
  unfold execNotifyDb
  refine whenUp_goes (fun s => ?_) s
  simp [Kept]

theorem exec_dbPoll_goes {words} (s : State) : ∃ t, exec (.dbPoll words) s = .next t ∧ Kept s t := by
  show ∃ t, execDbPoll words s = .next t ∧ _
  unfold execDbPoll
  refine whenUp_goes (fun s => ?_) s
  simp [Kept, foldl_kept]

theorem exec_descFetch_goes {ring ds} (s : State) : ∃ t, exec (.descFetch ring ds) s = .next t ∧ Kept s t := by
  show ∃ t, execDescFetch ring ds s = .next t ∧ _
  unfold execDescFetch
  refine whenUp_goes (fun s => ?_) s
  simp [Kept]

theorem exec_descAdmit_goes {ring} (s : State) : ∃ t, exec (.descAdmit ring) s = .next t ∧ Kept s t := by
  show ∃ t, execDescAdmit ring s = .next t ∧ _
  unfold execDescAdmit
  refine whenUp_goes (fun s => ?_) s
  simp [Kept]

theorem exec_irisRefill_goes (s : State) : ∃ t, exec (.irisRefill) s = .next t ∧ Kept s t := by
  show ∃ t, execIrisRefill s = .next t ∧ _
  unfold execIrisRefill
  refine whenUp_goes (fun s => ?_) s
  exact irisRefill_kept s

theorem exec_descComplete_goes {ring tag} (s : State) : ∃ t, exec (.descComplete ring tag) s = .next t ∧ Kept s t := by
  show ∃ t, execDescComplete ring tag s = .next t ∧ _
  unfold execDescComplete
  refine whenUp_goes (fun s => ?_) s
  simp [Kept]

theorem exec_intrTimer_goes {fn vector} (s : State) : ∃ t, exec (.intrTimer fn vector) s = .next t ∧ Kept s t := by
  show ∃ t, execIntrTimer fn vector s = .next t ∧ _
  unfold execIntrTimer
  refine whenUp_goes (fun s => ?_) s
  simp [Kept]

theorem exec_coalescePeriod_goes (s : State) : ∃ t, exec (.coalescePeriod) s = .next t ∧ Kept s t := by
  show ∃ t, execCoalescePeriod s = .next t ∧ _
  unfold execCoalescePeriod
  refine whenUp_goes (fun s => ?_) s
  simp [Kept, foldl_kept]

theorem exec_partnerDetect_goes {port lanes} (s : State) : ∃ t, exec (.partnerDetect port lanes) s = .next t ∧ Kept s t := by
  show ∃ t, execPartnerDetect port lanes s = .next t ∧ _
  unfold execPartnerDetect
  refine whenUp_goes (fun s => ?_) s
  simp [Kept]

theorem exec_signalDone_goes {port lanes} (s : State) : ∃ t, exec (.signalDone port lanes) s = .next t ∧ Kept s t := by
  show ∃ t, execSignalDone port lanes s = .next t ∧ _
  unfold execSignalDone
  refine whenUp_goes (fun s => ?_) s
  simp [Kept]

theorem exec_equalizeDone_goes {port lanes} (s : State) : ∃ t, exec (.equalizeDone port lanes) s = .next t ∧ Kept s t := by
  show ∃ t, execEqualizeDone port lanes s = .next t ∧ _
  unfold execEqualizeDone
  refine whenUp_goes (fun s => ?_) s
  simp [Kept]

theorem exec_alignDone_goes {port lanes} (s : State) : ∃ t, exec (.alignDone port lanes) s = .next t ∧ Kept s t := by
  show ∃ t, execAlignDone port lanes s = .next t ∧ _
  unfold execAlignDone
  refine whenUp_goes (fun s => ?_) s
  simp [Kept]

theorem exec_linkMessage_goes {port m} (s : State) : ∃ t, exec (.linkMessage port m) s = .next t ∧ Kept s t := by
  show ∃ t, execLinkMessage port m s = .next t ∧ _
  unfold execLinkMessage
  refine whenUp_goes (fun s => ?_) s
  simp [Kept]

theorem exec_trainingLimitExpiry_goes {port} (s : State) : ∃ t, exec (.trainingLimitExpiry port) s = .next t ∧ Kept s t := by
  show ∃ t, execTrainingLimitExpiry port s = .next t ∧ _
  unfold execTrainingLimitExpiry
  refine whenUp_goes (fun s => ?_) s
  simp [Kept]

theorem exec_laneLockLoss_goes {lane} (s : State) : ∃ t, exec (.laneLockLoss lane) s = .next t ∧ Kept s t := by
  show ∃ t, execLaneLockLoss lane s = .next t ∧ _
  unfold execLaneLockLoss
  refine whenUp_goes (fun s => ?_) s
  simp [Kept]

theorem exec_fecUncorrLimit_goes {lane} (s : State) : ∃ t, exec (.fecUncorrLimit lane) s = .next t ∧ Kept s t := by
  show ∃ t, execFecUncorrLimit lane s = .next t ∧ _
  unfold execFecUncorrLimit
  refine whenUp_goes (fun s => ?_) s
  simp [Kept]

theorem exec_linkDownTimeout_goes {port} (s : State) : ∃ t, exec (.linkDownTimeout port) s = .next t ∧ Kept s t := by
  show ∃ t, execLinkDownTimeout port s = .next t ∧ _
  unfold execLinkDownTimeout
  refine whenUp_goes (fun s => ?_) s
  simp [Kept]

theorem exec_downRetry_goes {port} (s : State) : ∃ t, exec (.downRetry port) s = .next t ∧ Kept s t := by
  show ∃ t, execDownRetry port s = .next t ∧ _
  unfold execDownRetry
  refine whenUp_goes (fun s => ?_) s
  simp [Kept]

theorem exec_flitReceive_goes {port flit} (s : State) : ∃ t, exec (.flitReceive port flit) s = .next t ∧ Kept s t := by
  show ∃ t, execFlitReceive port flit s = .next t ∧ _
  unfold execFlitReceive
  refine whenUp_goes (fun s => ?_) s
  simp [Kept]

theorem exec_replayTimeout_goes {port} (s : State) : ∃ t, exec (.replayTimeout port) s = .next t ∧ Kept s t := by
  show ∃ t, execReplayTimeout port s = .next t ∧ _
  unfold execReplayTimeout
  refine whenUp_goes (fun s => ?_) s
  (repeat' split) <;> simp [Kept]

theorem exec_ackTimer_goes {port} (s : State) : ∃ t, exec (.ackTimer port) s = .next t ∧ Kept s t := by
  show ∃ t, execAckTimer port s = .next t ∧ _
  unfold execAckTimer
  refine whenUp_goes (fun s => ?_) s
  simp [Kept]

theorem exec_readReq_goes {p addr bytes} (s : State) : ∃ t, exec (.readReq p addr bytes) s = .next t ∧ Kept s t := by
  show ∃ t, execReadReq p addr bytes s = .next t ∧ _
  unfold execReadReq
  refine whenUp_goes (fun s => ?_) s
  simp [Kept]

theorem exec_readRsp_goes {p data} (s : State) : ∃ t, exec (.readRsp p data) s = .next t ∧ Kept s t := by
  show ∃ t, execReadRsp p data s = .next t ∧ _
  unfold execReadRsp
  refine whenUp_goes (fun s => ?_) s
  simp [Kept]

theorem exec_write_goes {p addr data} (s : State) : ∃ t, exec (.write p addr data) s = .next t ∧ Kept s t := by
  show ∃ t, execWrite p addr data s = .next t ∧ _
  unfold execWrite
  refine whenUp_goes (fun s => ?_) s
  simp [Kept]

theorem exec_writeBulk_goes {p addr data} (s : State) : ∃ t, exec (.writeBulk p addr data) s = .next t ∧ Kept s t := by
  show ∃ t, execWriteBulk p addr data s = .next t ∧ _
  unfold execWriteBulk
  refine whenUp_goes (fun s => ?_) s
  simp [Kept]

theorem exec_writeAck_goes {p addr} (s : State) : ∃ t, exec (.writeAck p addr) s = .next t ∧ Kept s t := by
  show ∃ t, execWriteAck p addr s = .next t ∧ _
  unfold execWriteAck
  refine whenUp_goes (fun s => ?_) s
  simp [Kept]

theorem exec_poolRsp_goes {p done result} (s : State) : ∃ t, exec (.poolRsp p done result) s = .next t ∧ Kept s t := by
  show ∃ t, execPoolRsp p done result s = .next t ∧ _
  unfold execPoolRsp
  refine whenUp_goes (fun s => ?_) s
  simp [Kept]

theorem exec_segAttn_goes {p g} (s : State) : ∃ t, exec (.segAttn p g) s = .next t ∧ Kept s t := by
  show ∃ t, execSegAttn p g s = .next t ∧ _
  unfold execSegAttn
  refine whenUp_goes (fun s => ?_) s
  (repeat' split) <;> simp [Kept]

theorem exec_segSample_goes {p g} (s : State) : ∃ t, exec (.segSample p g) s = .next t ∧ Kept s t := by
  show ∃ t, execSegSample p g s = .next t ∧ _
  unfold execSegSample
  refine whenUp_goes (fun s => ?_) s
  (repeat' split) <;> simp [Kept]

theorem exec_regRsp_goes {p value} (s : State) : ∃ t, exec (.regRsp p value) s = .next t ∧ Kept s t := by
  show ∃ t, execRegRsp p value s = .next t ∧ _
  unfold execRegRsp
  refine whenUp_goes (fun s => ?_) s
  simp [Kept]

theorem exec_ctrRead_goes {p ring} (s : State) : ∃ t, exec (.ctrRead p ring) s = .next t ∧ Kept s t := by
  show ∃ t, execCtrRead p ring s = .next t ∧ _
  unfold execCtrRead
  refine whenUp_goes (fun s => ?_) s
  simp [Kept]

theorem exec_ctrRsp_goes {p ring value} (s : State) : ∃ t, exec (.ctrRsp p ring value) s = .next t ∧ Kept s t := by
  show ∃ t, execCtrRsp p ring value s = .next t ∧ _
  unfold execCtrRsp
  refine whenUp_goes (fun s => ?_) s
  simp [Kept]

theorem exec_unreach_goes {port lost} (s : State) : ∃ t, exec (.unreach port lost) s = .next t ∧ Kept s t := by
  show ∃ t, execUnreach port lost s = .next t ∧ _
  unfold execUnreach
  refine whenUp_goes (fun s => ?_) s
  simp [Kept]

theorem exec_reqTimeout_goes {unit req} (s : State) : ∃ t, exec (.reqTimeout unit req) s = .next t ∧ Kept s t := by
  show ∃ t, execReqTimeout unit req s = .next t ∧ _
  unfold execReqTimeout
  refine whenUp_goes (fun s => ?_) s
  (repeat' split) <;> simp [Kept]

theorem exec_fill_goes {p b} (s : State) : ∃ t, exec (.fill p b) s = .next t ∧ Kept s t := by
  show ∃ t, execFill p b s = .next t ∧ _
  unfold execFill
  refine whenUp_goes (fun s => ?_) s
  (repeat' split) <;> simp [Kept]

theorem exec_copy_goes {p b} (s : State) : ∃ t, exec (.copy p b) s = .next t ∧ Kept s t := by
  show ∃ t, execCopy p b s = .next t ∧ _
  unfold execCopy
  refine whenUp_goes (fun s => ?_) s
  (repeat' split) <;> simp [Kept]

theorem exec_compare_goes {p b} (s : State) : ∃ t, exec (.compare p b) s = .next t ∧ Kept s t := by
  show ∃ t, execCompare p b s = .next t ∧ _
  unfold execCompare
  refine whenUp_goes (fun s => ?_) s
  (repeat' split) <;> simp [Kept]

theorem exec_reduce_goes {p b} (s : State) : ∃ t, exec (.reduce p b) s = .next t ∧ Kept s t := by
  show ∃ t, execReduce p b s = .next t ∧ _
  unfold execReduce
  refine whenUp_goes (fun s => ?_) s
  (repeat' split) <;> simp [Kept]

theorem exec_atomicAdd_goes {p b} (s : State) : ∃ t, exec (.atomicAdd p b) s = .next t ∧ Kept s t := by
  show ∃ t, execAtomicAdd p b s = .next t ∧ _
  unfold execAtomicAdd
  refine whenUp_goes (fun s => ?_) s
  (repeat' split) <;> simp [Kept]

theorem exec_cas_goes {p b} (s : State) : ∃ t, exec (.cas p b) s = .next t ∧ Kept s t := by
  show ∃ t, execCas p b s = .next t ∧ _
  unfold execCas
  refine whenUp_goes (fun s => ?_) s
  (repeat' split) <;> simp [Kept]

theorem exec_acquireS_goes {p b} (s : State) : ∃ t, exec (.acquireS p b) s = .next t ∧ Kept s t := by
  show ∃ t, execAcquireS p b s = .next t ∧ _
  unfold execAcquireS
  refine whenUp_goes (fun s => ?_) s
  (repeat' split) <;> simp [Kept]

theorem exec_acquireM_goes {p b} (s : State) : ∃ t, exec (.acquireM p b) s = .next t ∧ Kept s t := by
  show ∃ t, execAcquireM p b s = .next t ∧ _
  unfold execAcquireM
  refine whenUp_goes (fun s => ?_) s
  (repeat' split) <;> simp [Kept]

theorem exec_writeback_goes {p b data} (s : State) : ∃ t, exec (.writeback p b data) s = .next t ∧ Kept s t := by
  show ∃ t, execWriteback p b data s = .next t ∧ _
  unfold execWriteback
  refine whenUp_goes (fun s => ?_) s
  (repeat' split) <;> simp [Kept]

theorem exec_release_goes {p b data} (s : State) : ∃ t, exec (.release p b data) s = .next t ∧ Kept s t := by
  show ∃ t, execRelease p b data s = .next t ∧ _
  unfold execRelease
  refine whenUp_goes (fun s => ?_) s
  (repeat' split) <;> simp [Kept]

theorem exec_renew_goes {p b} (s : State) : ∃ t, exec (.renew p b) s = .next t ∧ Kept s t := by
  show ∃ t, execRenew p b s = .next t ∧ _
  unfold execRenew
  refine whenUp_goes (fun s => ?_) s
  (repeat' split) <;> simp [Kept]

theorem exec_leaseExpiry_goes {channel lease} (s : State) : ∃ t, exec (.leaseExpiry channel lease) s = .next t ∧ Kept s t := by
  show ∃ t, execLeaseExpiry channel lease s = .next t ∧ _
  unfold execLeaseExpiry
  refine whenUp_goes (fun s => ?_) s
  (repeat' split) <;> simp [Kept]

theorem exec_recallTimeout_goes {channel lease} (s : State) : ∃ t, exec (.recallTimeout channel lease) s = .next t ∧ Kept s t := by
  show ∃ t, execRecallTimeout channel lease s = .next t ∧ _
  unfold execRecallTimeout
  refine whenUp_goes (fun s => ?_) s
  (repeat' split) <;> simp [Kept]

theorem exec_extentDrained_goes {channel partition slot} (s : State) : ∃ t, exec (.extentDrained channel partition slot) s = .next t ∧ Kept s t := by
  show ∃ t, execExtentDrained channel partition slot s = .next t ∧ _
  unfold execExtentDrained
  refine whenUp_goes (fun s => ?_) s
  simp [Kept]

theorem exec_extentZeroFillDone_goes {channel partition slot} (s : State) : ∃ t, exec (.extentZeroFillDone channel partition slot) s = .next t ∧ Kept s t := by
  show ∃ t, execExtentZeroFillDone channel partition slot s = .next t ∧ _
  unfold execExtentZeroFillDone
  refine whenUp_goes (fun s => ?_) s
  simp [Kept]

theorem exec_secondaryAckTimeout_goes {channel partition slot} (s : State) : ∃ t, exec (.secondaryAckTimeout channel partition slot) s = .next t ∧ Kept s t := by
  show ∃ t, execSecondaryAckTimeout channel partition slot s = .next t ∧ _
  unfold execSecondaryAckTimeout
  refine whenUp_goes (fun s => ?_) s
  (repeat' split) <;> simp [Kept]

theorem exec_rebuildCopy_goes {channel partition slot} (s : State) : ∃ t, exec (.rebuildCopy channel partition slot) s = .next t ∧ Kept s t := by
  show ∃ t, execRebuildCopy channel partition slot s = .next t ∧ _
  unfold execRebuildCopy
  refine whenUp_goes (fun s => ?_) s
  simp [Kept]

theorem exec_gatherExpiry_goes {channel} (s : State) : ∃ t, exec (.gatherExpiry channel) s = .next t ∧ Kept s t := by
  show ∃ t, execGatherExpiry channel s = .next t ∧ _
  unfold execGatherExpiry
  refine whenUp_goes (fun s => ?_) s
  simp [Kept]

theorem exec_workListFix_goes {channel} (s : State) : ∃ t, exec (.workListFix channel) s = .next t ∧ Kept s t := by
  show ∃ t, execWorkListFix channel s = .next t ∧ _
  unfold execWorkListFix
  refine whenUp_goes (fun s => ?_) s
  simp [Kept]

theorem exec_fixedListFix_goes {channel} (s : State) : ∃ t, exec (.fixedListFix channel) s = .next t ∧ Kept s t := by
  show ∃ t, execFixedListFix channel s = .next t ∧ _
  unfold execFixedListFix
  refine whenUp_goes (fun s => ?_) s
  (repeat' split) <;> simp [Kept]

theorem exec_workListPublish_goes {channel} (s : State) : ∃ t, exec (.workListPublish channel) s = .next t ∧ Kept s t := by
  show ∃ t, execWorkListPublish channel s = .next t ∧ _
  unfold execWorkListPublish
  refine whenUp_goes (fun s => ?_) s
  (repeat' split) <;> simp [Kept]

theorem exec_wlWaitTimeout_goes {channel} (s : State) : ∃ t, exec (.wlWaitTimeout channel) s = .next t ∧ Kept s t := by
  show ∃ t, execWlWaitTimeout channel s = .next t ∧ _
  unfold execWlWaitTimeout
  refine whenUp_goes (fun s => ?_) s
  (repeat' split) <;> simp [Kept]

theorem exec_layerTimeout_goes {channel stepNo slot} (s : State) : ∃ t, exec (.layerTimeout channel stepNo slot) s = .next t ∧ Kept s t := by
  show ∃ t, execLayerTimeout channel stepNo slot s = .next t ∧ _
  unfold execLayerTimeout
  refine whenUp_goes (fun s => ?_) s
  (repeat' split) <;> simp [Kept]

theorem exec_bucketBuild_goes {channel layer} (s : State) : ∃ t, exec (.bucketBuild channel layer) s = .next t ∧ Kept s t := by
  show ∃ t, execBucketBuild channel layer s = .next t ∧ _
  unfold execBucketBuild
  refine whenUp_goes (fun s => ?_) s
  simp [Kept]

theorem exec_attnLayerComplete_goes {channel stepNo slot} (s : State) : ∃ t, exec (.attnLayerComplete channel stepNo slot) s = .next t ∧ Kept s t := by
  show ∃ t, execAttnLayerComplete channel stepNo slot s = .next t ∧ _
  unfold execAttnLayerComplete
  refine whenUp_goes (fun s => ?_) s
  (repeat' split) <;> simp [Kept]

theorem exec_mergeTimeout_goes {channel stepNo slot} (s : State) : ∃ t, exec (.mergeTimeout channel stepNo slot) s = .next t ∧ Kept s t := by
  show ∃ t, execMergeTimeout channel stepNo slot s = .next t ∧ _
  unfold execMergeTimeout
  refine whenUp_goes (fun s => ?_) s
  (repeat' split) <;> simp [Kept]

theorem exec_sampleRow_goes {channel stepNo slot} (s : State) : ∃ t, exec (.sampleRow channel stepNo slot) s = .next t ∧ Kept s t := by
  show ∃ t, execSampleRow channel stepNo slot s = .next t ∧ _
  unfold execSampleRow
  refine whenUp_goes (fun s => ?_) s
  dsimp only
  (repeat' split) <;> simp_all [Kept]

theorem exec_outHeadRefresh_goes {channel index value} (s : State) : ∃ t, exec (.outHeadRefresh channel index value) s = .next t ∧ Kept s t := by
  show ∃ t, execOutHeadRefresh channel index value s = .next t ∧ _
  unfold execOutHeadRefresh
  refine whenUp_goes (fun s => ?_) s
  simp [Kept]

theorem exec_bulkUnitComplete_goes {channel unit poisoned} (s : State) : ∃ t, exec (.bulkUnitComplete channel unit poisoned) s = .next t ∧ Kept s t := by
  show ∃ t, execBulkUnitComplete channel unit poisoned s = .next t ∧ _
  unfold execBulkUnitComplete
  refine whenUp_goes (fun s => ?_) s
  simp [Kept]

theorem exec_preemptSaveComplete_goes {channel unit} (s : State) : ∃ t, exec (.preemptSaveComplete channel unit) s = .next t ∧ Kept s t := by
  show ∃ t, execPreemptSaveComplete channel unit s = .next t ∧ _
  unfold execPreemptSaveComplete
  refine whenUp_goes (fun s => ?_) s
  simp [Kept]

theorem exec_restoreComplete_goes {channel unit} (s : State) : ∃ t, exec (.restoreComplete channel unit) s = .next t ∧ Kept s t := by
  show ∃ t, execRestoreComplete channel unit s = .next t ∧ _
  unfold execRestoreComplete
  refine whenUp_goes (fun s => ?_) s
  simp [Kept]

theorem exec_demote_goes {channel tier} (s : State) : ∃ t, exec (.demote channel tier) s = .next t ∧ Kept s t := by
  show ∃ t, execDemote channel tier s = .next t ∧ _
  unfold execDemote
  refine whenUp_goes (fun s => ?_) s
  simp [Kept]

theorem exec_pageMoveComplete_goes {channel desc} (s : State) : ∃ t, exec (.pageMoveComplete channel desc) s = .next t ∧ Kept s t := by
  show ∃ t, execPageMoveComplete channel desc s = .next t ∧ _
  unfold execPageMoveComplete
  refine whenUp_goes (fun s => ?_) s
  simp [Kept]

theorem exec_pageEncode_goes {channel desc} (s : State) : ∃ t, exec (.pageEncode channel desc) s = .next t ∧ Kept s t := by
  show ∃ t, execPageEncode channel desc s = .next t ∧ _
  unfold execPageEncode
  refine whenUp_goes (fun s => ?_) s
  simp [Kept]

theorem exec_fetchComplete_goes {channel desc e} (s : State) : ∃ t, exec (.fetchComplete channel desc e) s = .next t ∧ Kept s t := by
  show ∃ t, execFetchComplete channel desc e s = .next t ∧ _
  unfold execFetchComplete
  refine whenUp_goes (fun s => ?_) s
  simp [Kept]

theorem exec_modelRunDispatch_goes {channel} (s : State) : ∃ t, exec (.modelRunDispatch channel) s = .next t ∧ Kept s t := by
  show ∃ t, execModelRunDispatch channel s = .next t ∧ _
  unfold execModelRunDispatch
  refine whenUp_goes (fun s => ?_) s
  dsimp only
  (repeat' split) <;> simp_all [Kept]

theorem exec_windowFill_goes {channel} (s : State) : ∃ t, exec (.windowFill channel) s = .next t ∧ Kept s t := by
  show ∃ t, execWindowFill channel s = .next t ∧ _
  unfold execWindowFill
  refine whenUp_goes (fun s => ?_) s
  simp [Kept]

theorem exec_expansionServe_goes {channel} (s : State) : ∃ t, exec (.expansionServe channel) s = .next t ∧ Kept s t := by
  show ∃ t, execExpansionServe channel s = .next t ∧ _
  unfold execExpansionServe
  refine whenUp_goes (fun s => ?_) s
  simp [Kept]

theorem exec_consolidateFree_goes {channel} (s : State) : ∃ t, exec (.consolidateFree channel) s = .next t ∧ Kept s t := by
  show ∃ t, execConsolidateFree channel s = .next t ∧ _
  unfold execConsolidateFree
  refine whenUp_goes (fun s => ?_) s
  simp [Kept]

theorem exec_waitPoll_goes {ring} (s : State) : ∃ t, exec (.waitPoll ring) s = .next t ∧ Kept s t := by
  show ∃ t, execWaitPoll ring s = .next t ∧ _
  unfold execWaitPoll
  refine whenUp_goes (fun s => ?_) s
  simp [Kept]

theorem exec_waitTimeout_goes {ring} (s : State) : ∃ t, exec (.waitTimeout ring) s = .next t ∧ Kept s t := by
  show ∃ t, execWaitTimeout ring s = .next t ∧ _
  unfold execWaitTimeout
  refine whenUp_goes (fun s => ?_) s
  simp [Kept]

theorem exec_gateBoundary_goes {port} (s : State) : ∃ t, exec (.gateBoundary port) s = .next t ∧ Kept s t := by
  show ∃ t, execGateBoundary port s = .next t ∧ _
  unfold execGateBoundary
  refine whenUp_goes (fun s => ?_) s
  simp [Kept]

theorem exec_mirrorInterval_goes (s : State) : ∃ t, exec (.mirrorInterval) s = .next t ∧ Kept s t := by
  show ∃ t, execMirrorInterval s = .next t ∧ _
  unfold execMirrorInterval
  refine whenUp_goes (fun s => ?_) s
  (repeat' split) <;> simp [Kept]

theorem exec_captureStart_goes {channel} (s : State) : ∃ t, exec (.captureStart channel) s = .next t ∧ Kept s t := by
  show ∃ t, execCaptureStart channel s = .next t ∧ _
  unfold execCaptureStart
  refine whenUp_goes (fun s => ?_) s
  simp [Kept]

theorem exec_copierCapture_goes {channel} (s : State) : ∃ t, exec (.copierCapture channel) s = .next t ∧ Kept s t := by
  show ∃ t, execCopierCapture channel s = .next t ∧ _
  unfold execCopierCapture
  refine whenUp_goes (fun s => ?_) s
  simp [Kept]

theorem exec_mirrorAckTimeout_goes {channel} (s : State) : ∃ t, exec (.mirrorAckTimeout channel) s = .next t ∧ Kept s t := by
  show ∃ t, execMirrorAckTimeout channel s = .next t ∧ _
  unfold execMirrorAckTimeout
  refine whenUp_goes (fun s => ?_) s
  simp [Kept]

theorem exec_warnMeasure_goes {condition source value} (s : State) : ∃ t, exec (.warnMeasure condition source value) s = .next t ∧ Kept s t := by
  show ∃ t, execWarnMeasure condition source value s = .next t ∧ _
  unfold execWarnMeasure
  refine whenUp_goes (fun s => ?_) s
  simp [Kept]

theorem exec_exceptionComplete_goes {id} (s : State) : ∃ t, exec (.exceptionComplete id) s = .next t ∧ Kept s t := by
  show ∃ t, execExceptionComplete id s = .next t ∧ _
  unfold execExceptionComplete
  refine whenUp_goes (fun s => ?_) s
  split
  · exact ⟨rfl, rfl, rfl⟩
  · exact exceptionComplete_kept _ _

theorem exec_watchdogExpiry_goes (s : State) : ∃ t, exec (.watchdogExpiry) s = .next t ∧ Kept s t := by
  show ∃ t, execWatchdogExpiry s = .next t ∧ _
  unfold execWatchdogExpiry
  refine whenUp_goes (fun s => ?_) s
  simp [Kept]

theorem exec_fwRestartDone_goes {duration} (s : State) : ∃ t, exec (.fwRestartDone duration) s = .next t ∧ Kept s t := by
  show ∃ t, execFwRestartDone duration s = .next t ∧ _
  unfold execFwRestartDone
  refine whenUp_goes (fun s => ?_) s
  simp [Kept]

theorem exec_fwConfirm_goes (s : State) : ∃ t, exec (.fwConfirm) s = .next t ∧ Kept s t := by
  show ∃ t, execFwConfirm s = .next t ∧ _
  unfold execFwConfirm
  refine whenUp_goes (fun s => ?_) s
  (repeat' split) <;> simp [Kept]

theorem exec_deviceFatalFault_goes {cause} (s : State) : ∃ t, exec (.deviceFatalFault cause) s = .next t ∧ Kept s t := by
  show ∃ t, execDeviceFatalFault cause s = .next t ∧ _
  unfold execDeviceFatalFault
  refine whenUp_goes (fun s => ?_) s
  simp [Kept]

theorem exec_patrolScrub_goes {channel corrected passDone} (s : State) : ∃ t, exec (.patrolScrub channel corrected passDone) s = .next t ∧ Kept s t := by
  show ∃ t, execPatrolScrub channel corrected passDone s = .next t ∧ _
  unfold execPatrolScrub
  refine whenUp_goes (fun s => ?_) s
  (repeat' split) <;> simp [Kept]

theorem exec_functionFenceEnd_goes {fn} (s : State) : ∃ t, exec (.functionFenceEnd fn) s = .next t ∧ Kept s t := by
  show ∃ t, execFunctionFenceEnd fn s = .next t ∧ _
  unfold execFunctionFenceEnd
  refine whenUp_goes (fun s => ?_) s
  (repeat' split) <;> simp [Kept]

theorem exec_spectrumSample_goes {monitor v} (s : State) : ∃ t, exec (.spectrumSample monitor v) s = .next t ∧ Kept s t := by
  show ∃ t, execSpectrumSample monitor v s = .next t ∧ _
  unfold execSpectrumSample
  refine whenUp_goes (fun s => ?_) s
  simp [Kept]

theorem exec_enclaveError_goes {cause} (s : State) : ∃ t, exec (.enclaveError cause) s = .next t ∧ Kept s t := by
  show ∃ t, execEnclaveError cause s = .next t ∧ _
  unfold execEnclaveError
  refine whenUp_goes (fun s => ?_) s
  simp [Kept]

theorem exec_warmNRise_goes (s : State) : ∃ t, exec (.warmNRise) s = .next t ∧ Kept s t := by
  show ∃ t, execWarmNRise s = .next t ∧ _
  unfold execWarmNRise
  refine ⟨_, rfl, ?_⟩
  simp [Kept]

theorem exec_pwrcapChange_goes {level} (s : State) : ∃ t, exec (.pwrcapChange level) s = .next t ∧ Kept s t := by
  show ∃ t, execPwrcapChange level s = .next t ∧ _
  unfold execPwrcapChange
  refine ⟨_, rfl, ?_⟩
  split <;> simp [Kept]

theorem exec_thermtrip_goes {sensor} (s : State) : ∃ t, exec (.thermtrip sensor) s = .next t ∧ Kept s t := by
  show ∃ t, execThermtrip sensor s = .next t ∧ _
  unfold execThermtrip
  refine ⟨_, rfl, ?_⟩
  split <;> simp [Kept]

theorem exec_pllLockLoss_goes (s : State) : ∃ t, exec (.pllLockLoss) s = .next t ∧ Kept s t := by
  show ∃ t, execPllLockLoss s = .next t ∧ _
  unfold execPllLockLoss
  refine whenUp_goes (fun s => ?_) s
  simp [Kept]

theorem exec_railFault_goes {rail} (s : State) : ∃ t, exec (.railFault rail) s = .next t ∧ Kept s t := by
  show ∃ t, execRailFault rail s = .next t ∧ _
  unfold execRailFault
  refine whenUp_goes (fun s => ?_) s
  simp [Kept]

theorem exec_pmbusPoll_goes {rs} (s : State) : ∃ t, exec (.pmbusPoll rs) s = .next t ∧ Kept s t := by
  show ∃ t, execPmbusPoll rs s = .next t ∧ _
  unfold execPmbusPoll
  refine whenUp_goes (fun s => ?_) s
  simp [Kept]

theorem exec_smb1AlertN_goes {rs} (s : State) : ∃ t, exec (.smb1AlertN rs) s = .next t ∧ Kept s t := by
  show ∃ t, execSmb1AlertN rs s = .next t ∧ _
  unfold execSmb1AlertN
  refine whenUp_goes (fun s => ?_) s
  simp [Kept]

theorem exec_avsAdjust_goes {allPass} (s : State) : ∃ t, exec (.avsAdjust allPass) s = .next t ∧ Kept s t := by
  show ∃ t, execAvsAdjust allPass s = .next t ∧ _
  unfold execAvsAdjust
  refine whenUp_goes (fun s => ?_) s
  simp [Kept]

theorem exec_thermalSample_goes {temps} (s : State) : ∃ t, exec (.thermalSample temps) s = .next t ∧ Kept s t := by
  show ∃ t, execThermalSample temps s = .next t ∧ _
  unfold execThermalSample
  refine whenUp_goes (fun s => ?_) s
  simp [Kept]

theorem exec_powerControl_goes {coreMw} (s : State) : ∃ t, exec (.powerControl coreMw) s = .next t ∧ Kept s t := by
  show ∃ t, execPowerControl coreMw s = .next t ∧ _
  unfold execPowerControl
  refine whenUp_goes (fun s => ?_) s
  simp [Kept]

theorem exec_bmcBlockWrite_goes {addr value} (s : State) : ∃ t, exec (.bmcBlockWrite addr value) s = .next t ∧ Kept s t := by
  show ∃ t, execBmcBlockWrite addr value s = .next t ∧ _
  unfold execBmcBlockWrite
  refine whenUp_goes (fun s => ?_) s
  simp [Kept]

theorem exec_bmcBlockRead_goes (s : State) : ∃ t, exec (.bmcBlockRead) s = .next t ∧ Kept s t := by
  show ∃ t, execBmcBlockRead s = .next t ∧ _
  unfold execBmcBlockRead
  refine whenUp_goes (fun s => ?_) s
  (repeat' split) <;> simp [Kept]

theorem exec_drainTmoExpiry_goes {channel} (s : State) : ∃ t, exec (.drainTmoExpiry channel) s = .next t ∧ Kept s t := by
  show ∃ t, execDrainTmoExpiry channel s = .next t ∧ _
  unfold execDrainTmoExpiry
  refine whenUp_goes (fun s => ?_) s
  (repeat' split) <;> simp [Kept]

theorem exec_scrubComplete_goes {channel tier granule} (s : State) : ∃ t, exec (.scrubComplete channel tier granule) s = .next t ∧ Kept s t := by
  show ∃ t, execScrubComplete channel tier granule s = .next t ∧ _
  unfold execScrubComplete
  refine whenUp_goes (fun s => ?_) s
  simp [Kept]

end Sys2Proof.Machine
end

