-- ==== Sys2Proof/Laws/Follow.lean ====
section
/-! SUPPORT. The commands that may burn a fuse: the queue and PORST_N stay, and the fuses only move forward. -/

namespace Sys2Proof.Machine

open Sys2Proof

theorem FusesFollow.refl (f : Fuses) : FusesFollow f f := ⟨le_refl _, le_refl _, le_refl _, fun _ => ⟨rfl, rfl, rfl, rfl, rfl⟩⟩

theorem FusesFollow.trans {f g h : Fuses} (a : FusesFollow f g) (b : FusesFollow g h) : FusesFollow f h := by
  refine ⟨a.1.trans b.1, a.2.trans b.2, a.3.trans b.3, fun hf => ?_⟩
  have h1 := a.4 hf
  have h2 := b.4 (by have := a.1; omega)
  simp_all

/-- The queue and PORST_N stay, and the fuses move forward where the lifecycle is one of R451. -/
abbrev Follows (s t : State) : Prop :=
  t.pending = s.pending ∧ t.power.porstN = s.power.porstN ∧
    (LifecycleKnown s → FusesFollow s.encl.fuses t.encl.fuses ∧ LifecycleKnown t)

theorem Follows.trans {s t u : State} (h : Follows s t) (g : Follows t u) : Follows s u :=
  ⟨g.1.trans h.1, g.2.1.trans h.2.1, fun k => ⟨(h.2.2 k).1.trans (g.2.2 (h.2.2 k).2).1, (g.2.2 (h.2.2 k).2).2⟩⟩

theorem Kept.follows {s t : State} (h : Kept s t) : Follows s t := by
  obtain ⟨h1, h2, h3⟩ := h
  refine ⟨h1, h3, fun k => ?_⟩
  unfold LifecycleKnown at *
  rw [h2]
  exact ⟨.refl _, k⟩

/-- A fold of operations that follow follows. -/
theorem foldl_follows {α : Type} (f : State → α → State) (h : ∀ s a, Follows s (f s a)) (l : List α) (s : State) :
    Follows s (l.foldl f s) := by
  induction l generalizing s with
  | nil => exact Kept.follows ⟨rfl, rfl, rfl⟩
  | cons a l ih => exact (h s a).trans (ih (f s a))

theorem traced_follows {o : RunOp} {s t : State} (h : Follows s t) : Follows s (endOp o .ok [] [] (traceEvents s t)) :=
  h.trans (Kept.follows ((traceEvents_kept s t).trans (endOp_kept o .ok [] [] _)))

theorem debugDone_follows (s : State) : Follows s (debugDone s) := by
  unfold debugDone
  split
  · exact Kept.follows ⟨rfl, rfl, rfl⟩
  · refine foldl_follows _ (fun s o => ?_) _ _
    split
    · refine traced_follows ?_
      refine ⟨by split <;> rfl, by split <;> rfl, fun k => ?_⟩
      unfold LifecycleKnown at *
      split
      · exact ⟨⟨k, le_refl _, le_refl _, fun _ => ⟨rfl, rfl, rfl, rfl, rfl⟩⟩, by simp⟩
      · exact ⟨⟨le_refl _, le_refl _, by simp, fun _ => ⟨rfl, rfl, rfl, rfl, rfl⟩⟩, k⟩
    · exact Kept.follows ⟨rfl, rfl, rfl⟩

theorem resetsEnded_follows (s : State) : Follows s (resetsEnded s) := (debugDone_follows s).trans (Kept.follows (warmDone_kept _))

theorem whenUp_follows {f : State → State} (h : ∀ s, Follows s (f s)) (s : State) : ∃ t, whenUp f s = .next t ∧ Follows s t := by
  refine ⟨_, rfl, ?_⟩
  split
  · exact h s
  · exact Kept.follows ⟨rfl, rfl, rfl⟩

theorem accept_follows {op : Nat} {d : Hdr} {f : Nat → Nat → State → State} (h : ∀ a b s, Follows s (f a b s)) (s : State) :
    ∃ t, accept op d f s = .next t ∧ Follows s t := by
  refine whenUp_follows (fun s => ?_) s
  (repeat' split)
  · exact Kept.follows (complete_kept ..)
  · exact h _ _ _
  · exact Kept.follows ⟨rfl, rfl, rfl⟩

theorem debugSubmit_follows (d : Hdr) (addr len : Nat) (t : Token) (fn : Nat) (s : State) : Follows s (debugSubmit d addr len t fn s) := by
  unfold debugSubmit
  dsimp only
  (repeat' split)
  iterate 5 exact Kept.follows (by simp [Kept])
  · refine Follows.trans ?_ (Kept.follows (complete_kept ..))
    refine ⟨rfl, rfl, fun k => ?_⟩
    rename_i hp hk
    simp only [Bool.not_eq_true', Bool.not_eq_false] at hp
    simp [tokenPermitted, hk] at hp
    refine ⟨⟨?_, le_refl _, le_refl _, fun _ => ⟨rfl, rfl, rfl, rfl, rfl⟩⟩, ?_⟩
    · simp [hp.1]
    · simp [LifecycleKnown]
  · exact Kept.follows (by simp [Kept])

theorem provision_follows (a b c e : List Byte) (s : State) : Follows s (provision a b c e s) := by
  unfold provision
  split
  · exact Kept.follows ⟨rfl, rfl, rfl⟩
  · rename_i h0
    have hk := drbgDraw_kept 64 s
    dsimp only
    refine ⟨hk.1, hk.2.2, fun _ => ?_⟩
    rw [hk.2.1]
    refine ⟨⟨?_, le_refl _, le_refl _, fun h => absurd h h0⟩, ?_⟩
    · have : s.encl.fuses.lifecycle = 0 := by simpa using h0
      simp [this]
    · simp [LifecycleKnown]

theorem exec_debugSubmit_follows {d addr len token} (s : State) : ∃ t, exec (.debugSubmit d addr len token) s = .next t ∧ Follows s t := by
  show ∃ t, execDebugSubmit d addr len token s = .next t ∧ _
  unfold execDebugSubmit
  exact accept_follows (fun _ _ _ => debugSubmit_follows ..) s

theorem exec_fwCommitSvn_follows {d} (s : State) : ∃ t, exec (.fwCommitSvn d) s = .next t ∧ Follows s t := by
  show ∃ t, execFwCommitSvn d s = .next t ∧ _
  unfold execFwCommitSvn
  refine accept_follows (fun _ _ s => ?_) s
  (repeat' split)
  · exact Kept.follows (complete_kept ..)
  · exact Kept.follows (complete_kept ..)
  · refine ⟨rfl, rfl, fun k => ⟨⟨le_refl _, le_max_left .., le_refl _, fun _ => ⟨rfl, rfl, rfl, rfl, rfl⟩⟩, k⟩⟩

theorem exec_channelFatalFault_follows {channel cause} (s : State) :
    ∃ t, exec (.channelFatalFault channel cause) s = .next t ∧ Follows s t := by
  show ∃ t, execChannelFatalFault channel cause s = .next t ∧ _
  unfold execChannelFatalFault
  refine whenUp_follows (fun s => ?_) s
  split
  · exact Follows.trans (Kept.follows (channelFault_kept ..)) (resetsEnded_follows _)
  · exact Kept.follows ⟨rfl, rfl, rfl⟩

theorem exec_channelResetDone_follows {channel ok} (s : State) : ∃ t, exec (.channelResetDone channel ok) s = .next t ∧ Follows s t := by
  show ∃ t, execChannelResetDone channel ok s = .next t ∧ _
  unfold execChannelResetDone
  exact whenUp_follows (fun _ => Follows.trans (Kept.follows (channelResetDone_kept ..)) (resetsEnded_follows _)) s

theorem exec_provisioningSequence_follows {a b c e} (s : State) :
    ∃ t, exec (.provisioningSequence a b c e) s = .next t ∧ Follows s t := by
  show ∃ t, execProvisioningSequence a b c e s = .next t ∧ _
  unfold execProvisioningSequence
  exact whenUp_follows (fun _ => provision_follows ..) s

/-- PORST_N rising leaves the queue and the fuses, and PORST_N is high after it. -/
theorem boot_leaves (b : BootInput) (s : State) :
    (boot b s).pending = s.pending ∧ (boot b s).encl.fuses = s.encl.fuses ∧ (boot b s).power.porstN = true := by
  have hf : ∀ (b : BootInput) (s : State), Kept s (bootFirmware b s) := fun b s => by
    unfold bootFirmware
    dsimp only
    split <;> simp [Kept]
  have hc : ∀ (ok : BitVec 8) (ports : BitVec 9) (s : State) (n : Nat), Kept s (bootChan ok ports s n) := fun ok ports s n => by
    unfold bootChan
    dsimp only
    split <;> simp [Kept]
  have hb : ∀ (u : State), (u.pending = s.pending ∧ u.encl.fuses = s.encl.fuses ∧ u.power.porstN = true) → ∀ t, Kept u t →
      t.pending = s.pending ∧ t.encl.fuses = s.encl.fuses ∧ t.power.porstN = true :=
    fun u h t k => ⟨k.1.trans h.1, k.2.1.trans h.2.1, k.2.2.trans h.2.2⟩
  unfold boot
  split
  · exact hb (powerUp b s) ⟨rfl, rfl, rfl⟩ _ (enclaveError_kept _ _)
  · exact hb (portsUp b (powerUp b s)) ⟨rfl, rfl, rfl⟩ _ ((hf b _).trans (foldl_kept _ (fun s n => hc _ _ s n) _ _))

end Sys2Proof.Machine
end

