-- ==== Sys2Proof/Laws/Mem.lean ====
section
/-! SUPPORT. The byte memory of a channel: what a read gives after a write, and that every write keeps the canonical form. -/

namespace Sys2Proof.Machine

open Sys2Proof

/-- The canonical form as a proposition. -/
theorem Mem.wf_iff (m : Mem) : Mem.wf m = true ↔ m.Pairwise (fun x y => x.1 < y.1) ∧ ∀ e ∈ m, e.2 ≠ 0 := by
  simp [Mem.wf]

theorem Mem.wf_nil : Mem.wf [] = true := rfl

/-- Addresses below every listed one read 0. -/
theorem Mem.read_below {m : Mem} {a : Nat} (h : ∀ e ∈ m, a < e.1) : Mem.read a m = 0 := by
  induction m with
  | nil => rfl
  | cons e m ih =>
    have h1 := h e (by simp)
    simp only [Mem.read]
    rw [if_neg (by omega), ih (fun x hx => h x (by simp [hx]))]

/-- An address listed after a write was listed before it or is the one written. -/
theorem Mem.mem_write {m : Mem} {a : Nat} {b : Byte} {e : Nat × Byte} (h : e ∈ Mem.write a b m) : e = (a, b) ∧ b ≠ 0 ∨ e ∈ m := by
  induction m with
  | nil =>
    simp only [Mem.write] at h
    split at h <;> simp_all
  | cons x m ih =>
    simp only [Mem.write] at h
    (repeat' split at h) <;> simp_all <;> rcases h with h | h <;> simp_all
    rcases ih with h | h <;> simp_all

/-- A write keeps the canonical form. -/
theorem Mem.write_wf {m : Mem} (a : Nat) (b : Byte) (h : Mem.wf m = true) : Mem.wf (Mem.write a b m) = true := by
  rw [Mem.wf_iff] at *
  refine ⟨?_, fun e he => ?_⟩
  · induction m with
    | nil => simp only [Mem.write]; split <;> simp
    | cons x m ih =>
      obtain ⟨hp, hz⟩ := h
      obtain ⟨hx, hm⟩ := List.pairwise_cons.mp hp
      simp only [Mem.write]
      (repeat' split)
      · exact hp
      · refine List.pairwise_cons.mpr ⟨fun y hy => ?_, hp⟩
        rcases List.mem_cons.mp hy with rfl | hy
        · assumption
        · exact lt_trans ‹_› (hx y hy)
      · exact hm
      · subst a
        exact List.pairwise_cons.mpr ⟨fun y hy => hx y hy, hm⟩
      · refine List.pairwise_cons.mpr ⟨fun y hy => ?_, ih ⟨hm, fun e he => hz e (by simp [he])⟩⟩
        rcases Mem.mem_write hy with ⟨rfl, -⟩ | hy
        · show x.1 < a
          omega
        · exact hx y hy
  · rcases Mem.mem_write he with ⟨rfl, hb⟩ | he
    · exact hb
    · exact h.2 e he

/-- Writing bytes keeps the canonical form. -/
theorem Mem.writeN_wf {m : Mem} (a : Nat) (bs : List Byte) (h : Mem.wf m = true) : Mem.wf (Mem.writeN a bs m) = true := by
  induction bs generalizing a m with
  | nil => exact h
  | cons b bs ih => exact ih _ (Mem.write_wf a b h)

/-- The byte written is read back. -/
theorem Mem.read_write_same {m : Mem} (a : Nat) (b : Byte) (h : Mem.wf m = true) : Mem.read a (Mem.write a b m) = b := by
  rw [Mem.wf_iff] at h
  induction m with
  | nil => simp only [Mem.write]; split <;> simp_all [Mem.read]
  | cons x m ih =>
    obtain ⟨hx, hm⟩ := List.pairwise_cons.mp h.1
    simp only [Mem.write]
    (repeat' split)
    · subst b
      exact Mem.read_below (fun e he => by
        rcases List.mem_cons.mp he with rfl | he
        · assumption
        · exact lt_trans ‹_› (hx e he))
    · simp [Mem.read]
    · subst a b
      exact Mem.read_below hx
    · simp [Mem.read]
    · simp only [Mem.read]
      rw [if_neg (by omega)]
      exact ih ⟨hm, fun e he => h.2 e (by simp [he])⟩

/-- Every other byte is as it was. -/
theorem Mem.read_write_other {m : Mem} {a k : Nat} (b : Byte) (hk : k ≠ a) (h : Mem.wf m = true) :
    Mem.read k (Mem.write a b m) = Mem.read k m := by
  rw [Mem.wf_iff] at h
  induction m with
  | nil =>
    simp only [Mem.write]
    split
    · rfl
    · simp [Mem.read, Ne.symm hk]
  | cons x m ih =>
    obtain ⟨hx, hm⟩ := List.pairwise_cons.mp h.1
    simp only [Mem.write]
    (repeat' split)
    · rfl
    · simp [Mem.read, Ne.symm hk]
    · rename_i _ ha _
      subst ha
      simp only [Mem.read]
      rw [if_neg (Ne.symm hk)]
    · rename_i _ ha _
      subst ha
      simp [Mem.read, Ne.symm hk]
    · simp only [Mem.read]
      split
      · rfl
      · exact ih ⟨hm, fun e he => h.2 e (by simp [he])⟩

/-- Bytes outside those written are as they were. -/
theorem Mem.read_writeN_other {m : Mem} {a k : Nat} (bs : List Byte) (hk : k < a ∨ a + bs.length ≤ k) (h : Mem.wf m = true) :
    Mem.read k (Mem.writeN a bs m) = Mem.read k m := by
  induction bs generalizing a m with
  | nil => rfl
  | cons b bs ih =>
    simp only [List.length_cons] at hk
    simp only [Mem.writeN]
    rw [ih (by omega) (Mem.write_wf a b h), Mem.read_write_other b (by omega) h]

/-- The bytes written are read back. -/
theorem Mem.readN_writeN_same {m : Mem} (a : Nat) (bs : List Byte) (h : Mem.wf m = true) :
    Mem.readN a bs.length (Mem.writeN a bs m) = bs := by
  induction bs generalizing a m with
  | nil => rfl
  | cons b bs ih =>
    simp only [Mem.writeN, Mem.readN, List.length_cons]
    rw [ih (a + 1) (Mem.write_wf a b h),
      Mem.read_writeN_other bs (by omega) (Mem.write_wf a b h), Mem.read_write_same a b h]

end Sys2Proof.Machine
end

