-- ==== Sys2Proof/WellFormed.lean ====
section
/-! DEFINITION. Well-formed commands: every operand fits the field that carries it (R34, R37, R41, R378, R434 and the layout of each
descriptor), and names a part that the block has (R15, R17, R368, R396, R540). Nothing here judges what an operation's own checks judge. -/

namespace Sys2Proof

/-- A value of `w` bits. -/
def fits (w n : Nat) : Bool := decide (n < 2 ^ w)

/-- A channel, a port, a lane. -/
def chanOk (n : Nat) : Bool := decide (n < 8)
def portNumOk (n : Nat) : Bool := decide (n < 9)
def laneOk (n : Nat) : Bool := decide (n < 36)

/-- The common header (R378) on one of 4,096 rings. -/
def Hdr.wf (d : Hdr) : Bool := fits 12 d.ring && fits 32 d.tag && fits 6 d.vector && fits 48 d.deadline && fits 16 d.flow

/-- A session handle (R37). -/
def Handle.wf (h : Handle) : Bool := fits 6 h.fabricId && fits 3 h.channel && fits 17 h.index && fits 6 h.epoch && fits 32 h.count

/-- Who accesses a register: a function, firmware, the BMC, an endpoint. -/
def Requester.wf : Requester → Bool
  | .fn n => fits 8 n
  | .service => true
  | .bmc => true
  | .endpoint f => fits 7 f

/-- The origin of a reset. -/
def ResetBy.wf : ResetBy → Bool
  | .desc d => d.wf
  | .reg r => r.wf
  | .pin => true
  | .adapterLoss => true

/-- A packet's header (R434): a command names a packet of a port, to a unit of the block. -/
def Pkt.wf (p : Pkt) : Bool :=
  portNumOk p.port && fits 7 p.dstFid && fits 4 p.dstUnit && fits 7 p.srcFid && fits 4 p.srcUnit && fits 16 p.req && fits 8 p.fn &&
    fits 8 p.gen && fits 16 p.status

/-- An operation block (R330): pool addresses as R329 divides them. -/
def PoolBlk.wf (b : PoolBlk) : Bool :=
  fits 2 b.elem && fits 2 b.rop && fits 6 b.dstPart && fits 55 b.dst && fits 6 b.srcPart && fits 55 b.src && fits 64 b.len

/-- A segment's header (R140, R215), whose data has the length it names. -/
def Seg.wf (g : Seg) : Bool :=
  fits 32 g.stepLo && fits 13 g.slot && fits 8 g.layer && fits 3 g.part && fits 4 g.rank && fits 32 g.offset && fits 16 g.len &&
    fits 16 g.status && decide (g.data.length ≤ 4080)

/-- A stop string's index entry (R46). -/
def StopString.wf (x : StopString) : Bool := fits 8 x.kind && fits 8 x.len

/-- The fields of a parameter image (R46, R219, R232). -/
def ParamImage.wf (g : ParamImage) : Bool :=
  fits 32 g.genLimit && fits 32 g.eosId && fits 2 g.utf8Policy && fits 8 g.stopCount && fits 2 g.stackMode && fits 3 g.parkTier &&
    fits 64 g.seed.toNat && fits 32 g.topK && fits 32 g.penWindow && fits 16 g.biasCount && fits 64 g.outAddr && fits 64 g.outHeadAddr &&
    fits 64 g.outTailAddr && fits 8 g.outExp && fits 32 g.startState && g.stops.all StopString.wf

/-- A load descriptor's fields (R197, R231, R250). -/
def LoadArgs.wf (a : LoadArgs) : Bool := fits 8 a.slot && fits 16 a.keySlot && fits 64 a.addr && fits 64 a.len

/-- The fields of OP_KV_APPEND and OP_ATTN_PREFILL (R150). -/
def AppendArgs.wf (a : AppendArgs) : Bool :=
  a.handle.wf && fits 16 a.layer && fits 16 a.tokens && fits 4 a.qFmt && fits 4 a.oFmt && fits 64 a.qAddr && fits 64 a.kAddr &&
    fits 64 a.vAddr && fits 64 a.oAddr && fits 64 a.lseAddr && fits 32 a.kbase && fits 64 a.tokAddr && a.toks.all (fits 32)

/-- The fields of OP_ATTN_MERGE (R160). -/
def MergeArgs.wf (a : MergeArgs) : Bool :=
  fits 8 a.count && fits 4 a.oFmt && fits 16 a.headDim && fits 32 a.rows && fits 64 a.inAddr && fits 64 a.stride && fits 64 a.outAddr &&
    fits 64 a.lseAddr

/-- The fields of OP_STEP and of each list entry (R177). -/
def StepArgs.wf (a : StepArgs) : Bool :=
  fits 16 a.count && fits 64 a.listAddr && fits 64 a.resultAddr &&
    a.entries.all (fun e => e.handle.wf && fits 32 e.tokens && fits 32 e.driver)

/-- The fields of OP_TEXT_IN (R201), and as many bytes as text_len names. -/
def TextArgs.wf (a : TextArgs) : Bool :=
  a.handle.wf && fits 64 a.textAddr && fits 32 a.textLen && fits 64 a.tokAddr && fits 32 a.tokCap && a.text.length == a.textLen

/-- The fields of OP_SESSION_DRAFT and of each draft entry (R225). -/
def DraftArgs.wf (a : DraftArgs) : Bool :=
  a.handle.wf && fits 64 a.addr && fits 32 a.base && fits 8 a.count && a.entries.all (fun e => fits 32 e.token && decide (e.support.length ≤ 32))

/-- The fields of OP_MODEL_RUN and of its input table (R258). -/
def RunArgs.wf (a : RunArgs) : Bool :=
  fits 6 a.profile && fits 8 a.steps && fits 4 a.tokenizer && fits 16 a.count && fits 16 a.support && fits 64 a.inAddr &&
    fits 64 a.dataAddr && fits 32 a.dataLen && fits 64 a.outAddr && fits 64 a.outLen &&
    a.inputs.all (fun x => fits 32 x.off && fits 32 x.len && fits 32 x.pos && x.context.all (fits 16))

/-- The fields of OP_MIRROR_RESTORE (R310). -/
def RestoreArgs.wf (a : RestoreArgs) : Bool :=
  fits 6 a.source && a.maxGen.all (fits 64) && fits 64 a.reportAddr && fits 32 a.reportCap &&
    a.buddies.all (fun b => fits 6 b.1 && fits 3 b.2)

/-- The fields of OP_MIRROR_ROLLBACK (R314). -/
def RollbackArgs.wf (a : RollbackArgs) : Bool := fits 64 a.gen && fits 64 a.reportAddr && fits 32 a.reportCap && a.handle.wf

/-- A buddy slot (R323). -/
def BuddySlot.wf (b : BuddySlot) : Bool := fits 6 b.fabricId && fits 3 b.channel && fits 6 b.partition && fits 6 b.slot

/-- A partition entry (R322). -/
def PartImage.wf (p : PartImage) : Bool :=
  fits 7 p.ownerFid && fits 3 p.ownerChannel && fits 3 p.poolChannel && fits 2 p.isolation && fits 8 p.ownerFn

/-- An extent slot (R323). -/
def ExtentImage.wf (x : ExtentImage) : Bool :=
  fits 55 x.pOff && fits 64 x.length && fits 3 x.tier && fits 3 x.state && fits 2 x.mirror && x.buddy.wf

/-- A descriptor as it is read from a ring (R378). -/
def Fetched.wf (f : Fetched) : Bool :=
  fits 8 f.opcode && fits 2 f.size && fits 6 f.vector && fits 32 f.tag && fits 48 f.deadline && fits 16 f.flow

/-- The contents of a LINK message (R425). -/
def LinkMsg.wf : LinkMsg → Bool
  | .config fid unit _ width credits expect =>
    fits 7 fid && fits 4 unit && (width == 1 || width == 2 || width == 4) && credits.length == 4 && credits.all (fits 12) && fits 16 expect
  | .retrain => true

/-- A well-formed command. -/
def Instr.wf : Instr → Bool
  | .opNop d => d.wf
  | .opBufRegister d i b n => d.wf && fits 16 i && fits 64 b && fits 64 n
  | .opBufUnregister d i => d.wf && fits 16 i
  | .opSessionOpen d o p t g _ a n img => d.wf && fits 8 o && fits 6 p && fits 4 t && fits 8 g && fits 64 a && fits 32 n && img.wf
  | .opSessionClose d h => d.wf && h.wf
  | .opSessionPark d h => d.wf && h.wf
  | .opSessionRevive d h => d.wf && h.wf
  | .opSessionFork d h => d.wf && h.wf
  | .opSessionResume d h t g _ _ => d.wf && h.wf && fits 64 t && fits 32 g
  | .opSessionSet d h a n img _ g _ => d.wf && h.wf && fits 64 a && fits 32 n && img.wf && fits 8 g
  | .opSessionQuery d h a => d.wf && h.wf && fits 64 a
  | .opKvPrefetch d h f n => d.wf && h.wf && fits 16 f && fits 16 n
  | .opProfileSet d p _ => d.wf && fits 6 p
  | .opKvAppend d a => d.wf && a.wf
  | .opAttnPrefill d a => d.wf && a.wf
  | .opAttnMerge d a => d.wf && a.wf
  | .opStep d a => d.wf && a.wf
  | .opTextIn d a => d.wf && a.wf
  | .opTokenizerLoad d a => d.wf && a.wf
  | .tokenizerUnload d a => d.wf && a.wf
  | .opSessionDraft d a => d.wf && a.wf
  | .opGrammarLoad d a => d.wf && a.wf
  | .grammarUnload d a => d.wf && a.wf
  | .opModelLoad d a => d.wf && a.wf
  | .modelUnload d a => d.wf && a.wf
  | .opModelRun d a => d.wf && a.wf
  | .opMirrorSnapshot d => d.wf
  | .opMirrorRestore d a => d.wf && a.wf
  | .opMirrorRollback d a => d.wf && a.wf
  | .sessionRollback d a => d.wf && a.wf
  | .opPartitionSet d p img => d.wf && fits 6 p && img.wf
  | .opExtentSet d p k img => d.wf && fits 6 p && fits 6 k && img.wf
  | .opExtentRevoke d p k => d.wf && fits 6 p && fits 6 k
  | .opRebuild d p k src o n => d.wf && fits 6 p && fits 6 k && src.wf && fits 55 o && fits 64 n
  | .opPoolOp d op f t a b => d.wf && fits 8 op && fits 7 f && fits 4 t && fits 64 a && b.wf
  | .opWaitCount d f r n t => d.wf && fits 6 f && fits 12 r && fits 64 n && fits 48 t
  | .opLensCreate d h => d.wf && fits 8 h.owner && fits 16 h.dim
  | .lensDestroy d => d.wf
  | .opLensQuery d c k b v o _ => d.wf && fits 16 c && fits 16 k && fits 16 b && fits 64 v && fits 64 o
  | .opLensInsert d c i v ids vecs => d.wf && fits 16 c && fits 64 i && fits 64 v && ids.length == c && vecs.length == c
  | .opLensDelete d c i ids => d.wf && fits 16 c && fits 64 i && ids.length == c
  | .opLensConsolidate d => d.wf
  | .opMergeTopk d l ki ko i o _ => d.wf && fits 16 l && fits 16 ki && fits 16 ko && fits 64 i && fits 64 o
  | .ringReset b r => b.wf && fits 12 r
  | .functionReset b f => b.wf && fits 8 f
  | .channelReset b n => b.wf && fits 4 n
  | .warmDeviceReset b => b.wf
  | .opIrisSet d i _ => d.wf && fits 16 i
  | .opApertureSet d p _ c b l es => d.wf && fits 4 p && fits 16 c && fits 64 b && fits 64 l && es.all (fun e => fits 32 e.duration)
  | .opCompositionSet d i _ _ => d.wf && fits 8 i
  | .opCompositionRead d o => d.wf && fits 64 o
  | .opEvidenceGet d n o c _ => d.wf && n.length == 32 && fits 64 o && fits 32 c
  | .opKeyRelease d a n _ => d.wf && fits 64 a && fits 32 n
  | .keyErase d k => d.wf && fits 16 k
  | .opGroupKey d a n _ => d.wf && fits 64 a && fits 32 n
  | .groupKeyErase d i => d.wf && fits 8 i
  | .debugChallenge d a => d.wf && fits 64 a
  | .debugSubmit d a n _ => d.wf && fits 64 a && fits 32 n
  | .fwStage d a n _ => d.wf && fits 64 a && fits 32 n
  | .fwActivate d => d.wf
  | .fwCommitSvn d => d.wf
  | .opRoleSet d n r t => d.wf && fits 8 n && fits 8 r && fits 32 t
  | .opSpectrumSnapshot d _ o _ => d.wf && fits 64 o
  | .cfgCommit r k => r.wf && fits 4 k
  | .cfgUnlock r k => r.wf && fits 4 k
  | .cfgDiscard r k => r.wf && fits 4 k
  | .ringEnable r k => r.wf && fits 12 k
  | .prtWdogKick r => r.wf
  | .prtPeerClear r => r.wf
  | .portEnable r p => r.wf && portNumOk p
  | .portDisable r p => r.wf && portNumOk p
  | .rewiden r p => r.wf && portNumOk p
  | .wlHeadWrite r n k v => r.wf && chanOk n && fits 3 k && fits 64 v
  | .vecUnmask r => r.wf
  | .alertStatusClear r _ => r.wf
  | .poolLateWbClear r n => r.wf && chanOk n
  | .regWrite r a n _ => r.wf && fits 64 a && fits 4 n
  | .notifyDb p f l w v => p.wf && fits 8 f && fits 8 l && fits 8 w && fits 64 v
  | .dbPoll ws => ws.all (fun w => fits 12 w.1 && fits 64 w.2.1 && fits 64 w.2.2)
  | .descFetch r ds => fits 12 r && ds.all Fetched.wf
  | .descAdmit r => fits 12 r
  | .irisRefill => true
  | .descComplete r t => fits 12 r && fits 32 t
  | .intrTimer f v => fits 8 f && fits 6 v
  | .coalescePeriod => true
  | .partnerDetect p _ => portNumOk p
  | .signalDone p _ => portNumOk p
  | .equalizeDone p _ => portNumOk p
  | .alignDone p _ => portNumOk p
  | .linkMessage p m => portNumOk p && m.wf
  | .trainingLimitExpiry p => portNumOk p
  | .laneLockLoss l => laneOk l
  | .fecUncorrLimit l => laneOk l
  | .linkDownTimeout p => portNumOk p
  | .downRetry p => portNumOk p
  | .flitReceive p f => portNumOk p && f.length == 256
  | .replayTimeout p => portNumOk p
  | .ackTimer p => portNumOk p
  | .readReq p _ n => p.wf && fits 13 n
  | .readRsp p _ => p.wf
  | .write p _ d => p.wf && decide (d.length ≤ 4096)
  | .writeBulk p _ d => p.wf && decide (d.length ≤ 4096)
  | .writeAck p _ => p.wf
  | .poolRsp p n _ => p.wf && fits 64 n
  | .segAttn p g => p.wf && g.wf
  | .segSample p g => p.wf && g.wf
  | .regRsp p _ => p.wf
  | .ctrRead p r => p.wf && fits 12 r
  | .ctrRsp p r v => p.wf && fits 12 r && fits 64 v
  | .unreach p l => portNumOk p && l.wf
  | .reqTimeout u r => fits 4 u && fits 16 r
  | .fill p b => p.wf && b.wf
  | .copy p b => p.wf && b.wf
  | .compare p b => p.wf && b.wf
  | .reduce p b => p.wf && b.wf
  | .atomicAdd p b => p.wf && b.wf
  | .cas p b => p.wf && b.wf
  | .acquireS p b => p.wf && b.wf
  | .acquireM p b => p.wf && b.wf
  | .writeback p b d => p.wf && b.wf && decide (d.length ≤ 4032)
  | .release p b d => p.wf && b.wf && decide (d.length ≤ 4032)
  | .renew p b => p.wf && b.wf
  | .leaseExpiry n k => chanOk n && fits 20 k
  | .recallTimeout n k => chanOk n && fits 20 k
  | .extentDrained n p k => chanOk n && fits 6 p && fits 6 k
  | .extentZeroFillDone n p k => chanOk n && fits 6 p && fits 6 k
  | .secondaryAckTimeout n p k => chanOk n && fits 6 p && fits 6 k
  | .rebuildCopy n p k => chanOk n && fits 6 p && fits 6 k
  | .gatherExpiry n => chanOk n
  | .workListFix n => chanOk n
  | .fixedListFix n => chanOk n
  | .workListPublish n => chanOk n
  | .wlWaitTimeout n => chanOk n
  | .layerTimeout n t k => chanOk n && fits 64 t && fits 13 k
  | .bucketBuild n l => chanOk n && fits 8 l
  | .attnLayerComplete n t k => chanOk n && fits 64 t && fits 13 k
  | .mergeTimeout n t k => chanOk n && fits 64 t && fits 13 k
  | .sampleRow n t k => chanOk n && fits 64 t && fits 13 k
  | .outHeadRefresh n i v => chanOk n && fits 17 i && fits 64 v
  | .bulkUnitComplete n _ _ => chanOk n
  | .preemptSaveComplete n _ => chanOk n
  | .restoreComplete n _ => chanOk n
  | .demote n t => chanOk n && fits 3 t
  | .pageMoveComplete n d => chanOk n && fits 32 d
  | .pageEncode n d => chanOk n && fits 32 d
  | .fetchComplete n d _ => chanOk n && fits 32 d
  | .modelRunDispatch n => chanOk n
  | .windowFill n => chanOk n
  | .expansionServe n => chanOk n
  | .consolidateFree n => chanOk n
  | .waitPoll r => fits 12 r
  | .waitTimeout r => fits 12 r
  | .gateBoundary p => portNumOk p
  | .mirrorInterval => true
  | .captureStart n => chanOk n
  | .copierCapture n => chanOk n
  | .mirrorAckTimeout n => chanOk n
  | .warnMeasure c x v => fits 8 c && fits 8 x && fits 64 v
  | .exceptionComplete _ => true
  | .watchdogExpiry => true
  | .fwRestartDone _ => true
  | .fwConfirm => true
  | .channelFatalFault n c => chanOk n && fits 8 c
  | .deviceFatalFault c => fits 8 c
  | .patrolScrub n c _ => chanOk n && fits 64 c
  | .channelResetDone n _ => chanOk n
  | .functionFenceEnd f => fits 8 f
  | .spectrumSample m _ => fits 7 m
  | .enclaveError c => fits 8 c
  | .porstNFall => true
  | .porstNRise b => fits 6 b.fid && fits 4 b.adp && fits 8 b.enclaveTestCause && fits 4 b.tries
  | .warmNRise => true
  | .pwrcapChange _ => true
  | .thermtrip k => decide (k < 24)
  | .pllLockLoss => true
  | .railFault r => decide (r < 9)
  | .pmbusPoll rs => rs.length == 9
  | .smb1AlertN rs => rs.length == 9
  | .avsAdjust _ => true
  | .thermalSample ts => ts.length == 24
  | .powerControl _ => true
  | .bmcBlockWrite a v => fits 20 a && v.all (fun x => fits 32 x.toNat)
  | .bmcBlockRead => true
  | .drainTmoExpiry n => chanOk n
  | .scrubComplete n t g => chanOk n && fits 3 t && fits 56 g
  | .provisioningSequence s f d o => s.length == 16 && f.length == 64 && d.length == 64 && o.length == 64

end Sys2Proof
end

