-- ==== Sys2Proof/Laws/PerInstr.lean ====
section
/-! SUPPORT. What a well-formed command's fields say of the parts it names, command by command: a descriptor's header names one of the
4,096 rings and one of the 64 vectors of its function (R368, R378, R399). -/

namespace Sys2Proof.Laws

open Sys2Proof

/-- The descriptor header of a command that is a descriptor. -/
def headerOf : Instr → Option Hdr
  | .opNop d => some d
  | .opBufRegister d _ _ _ => some d
  | .opBufUnregister d _ => some d
  | .opSessionOpen d _ _ _ _ _ _ _ _ => some d
  | .opSessionClose d _ => some d
  | .opSessionPark d _ => some d
  | .opSessionRevive d _ => some d
  | .opSessionFork d _ => some d
  | .opSessionResume d _ _ _ _ _ => some d
  | .opSessionSet d _ _ _ _ _ _ _ => some d
  | .opSessionQuery d _ _ => some d
  | .opKvPrefetch d _ _ _ => some d
  | .opProfileSet d _ _ => some d
  | .opKvAppend d _ => some d
  | .opAttnPrefill d _ => some d
  | .opAttnMerge d _ => some d
  | .opStep d _ => some d
  | .opTextIn d _ => some d
  | .opTokenizerLoad d _ => some d
  | .tokenizerUnload d _ => some d
  | .opSessionDraft d _ => some d
  | .opGrammarLoad d _ => some d
  | .grammarUnload d _ => some d
  | .opModelLoad d _ => some d
  | .modelUnload d _ => some d
  | .opModelRun d _ => some d
  | .opMirrorSnapshot d => some d
  | .opMirrorRestore d _ => some d
  | .opMirrorRollback d _ => some d
  | .sessionRollback d _ => some d
  | .opPartitionSet d _ _ => some d
  | .opExtentSet d _ _ _ => some d
  | .opExtentRevoke d _ _ => some d
  | .opRebuild d _ _ _ _ _ => some d
  | .opPoolOp d _ _ _ _ _ => some d
  | .opWaitCount d _ _ _ _ => some d
  | .opLensCreate d _ => some d
  | .lensDestroy d => some d
  | .opLensQuery d _ _ _ _ _ _ => some d
  | .opLensInsert d _ _ _ _ _ => some d
  | .opLensDelete d _ _ _ => some d
  | .opLensConsolidate d => some d
  | .opMergeTopk d _ _ _ _ _ _ => some d
  | .ringReset b _ => (match b with | .desc d => some d | .reg _ => none | .pin => none | .adapterLoss => none)
  | .functionReset b _ => (match b with | .desc d => some d | .reg _ => none | .pin => none | .adapterLoss => none)
  | .channelReset b _ => (match b with | .desc d => some d | .reg _ => none | .pin => none | .adapterLoss => none)
  | .warmDeviceReset b => (match b with | .desc d => some d | .reg _ => none | .pin => none | .adapterLoss => none)
  | .opIrisSet d _ _ => some d
  | .opApertureSet d _ _ _ _ _ _ => some d
  | .opCompositionSet d _ _ _ => some d
  | .opCompositionRead d _ => some d
  | .opEvidenceGet d _ _ _ _ => some d
  | .opKeyRelease d _ _ _ => some d
  | .keyErase d _ => some d
  | .opGroupKey d _ _ _ => some d
  | .groupKeyErase d _ => some d
  | .debugChallenge d _ => some d
  | .debugSubmit d _ _ _ => some d
  | .fwStage d _ _ _ => some d
  | .fwActivate d => some d
  | .fwCommitSvn d => some d
  | .opRoleSet d _ _ _ => some d
  | .opSpectrumSnapshot d _ _ _ => some d
  | .cfgCommit _ _ => none
  | .cfgUnlock _ _ => none
  | .cfgDiscard _ _ => none
  | .ringEnable _ _ => none
  | .prtWdogKick _ => none
  | .prtPeerClear _ => none
  | .portEnable _ _ => none
  | .portDisable _ _ => none
  | .rewiden _ _ => none
  | .wlHeadWrite _ _ _ _ => none
  | .vecUnmask _ => none
  | .alertStatusClear _ _ => none
  | .poolLateWbClear _ _ => none
  | .regWrite _ _ _ _ => none
  | .notifyDb _ _ _ _ _ => none
  | .dbPoll _ => none
  | .descFetch _ _ => none
  | .descAdmit _ => none
  | .irisRefill => none
  | .descComplete _ _ => none
  | .intrTimer _ _ => none
  | .coalescePeriod => none
  | .partnerDetect _ _ => none
  | .signalDone _ _ => none
  | .equalizeDone _ _ => none
  | .alignDone _ _ => none
  | .linkMessage _ _ => none
  | .trainingLimitExpiry _ => none
  | .laneLockLoss _ => none
  | .fecUncorrLimit _ => none
  | .linkDownTimeout _ => none
  | .downRetry _ => none
  | .flitReceive _ _ => none
  | .replayTimeout _ => none
  | .ackTimer _ => none
  | .readReq _ _ _ => none
  | .readRsp _ _ => none
  | .write _ _ _ => none
  | .writeBulk _ _ _ => none
  | .writeAck _ _ => none
  | .poolRsp _ _ _ => none
  | .segAttn _ _ => none
  | .segSample _ _ => none
  | .regRsp _ _ => none
  | .ctrRead _ _ => none
  | .ctrRsp _ _ _ => none
  | .unreach _ _ => none
  | .reqTimeout _ _ => none
  | .fill _ _ => none
  | .copy _ _ => none
  | .compare _ _ => none
  | .reduce _ _ => none
  | .atomicAdd _ _ => none
  | .cas _ _ => none
  | .acquireS _ _ => none
  | .acquireM _ _ => none
  | .writeback _ _ _ => none
  | .release _ _ _ => none
  | .renew _ _ => none
  | .leaseExpiry _ _ => none
  | .recallTimeout _ _ => none
  | .extentDrained _ _ _ => none
  | .extentZeroFillDone _ _ _ => none
  | .secondaryAckTimeout _ _ _ => none
  | .rebuildCopy _ _ _ => none
  | .gatherExpiry _ => none
  | .workListFix _ => none
  | .fixedListFix _ => none
  | .workListPublish _ => none
  | .wlWaitTimeout _ => none
  | .layerTimeout _ _ _ => none
  | .bucketBuild _ _ => none
  | .attnLayerComplete _ _ _ => none
  | .mergeTimeout _ _ _ => none
  | .sampleRow _ _ _ => none
  | .outHeadRefresh _ _ _ => none
  | .bulkUnitComplete _ _ _ => none
  | .preemptSaveComplete _ _ => none
  | .restoreComplete _ _ => none
  | .demote _ _ => none
  | .pageMoveComplete _ _ => none
  | .pageEncode _ _ => none
  | .fetchComplete _ _ _ => none
  | .modelRunDispatch _ => none
  | .windowFill _ => none
  | .expansionServe _ => none
  | .consolidateFree _ => none
  | .waitPoll _ => none
  | .waitTimeout _ => none
  | .gateBoundary _ => none
  | .mirrorInterval => none
  | .captureStart _ => none
  | .copierCapture _ => none
  | .mirrorAckTimeout _ => none
  | .warnMeasure _ _ _ => none
  | .exceptionComplete _ => none
  | .watchdogExpiry => none
  | .fwRestartDone _ => none
  | .fwConfirm => none
  | .channelFatalFault _ _ => none
  | .deviceFatalFault _ => none
  | .patrolScrub _ _ _ => none
  | .channelResetDone _ _ => none
  | .functionFenceEnd _ => none
  | .spectrumSample _ _ => none
  | .enclaveError _ => none
  | .porstNFall => none
  | .porstNRise _ => none
  | .warmNRise => none
  | .pwrcapChange _ => none
  | .thermtrip _ => none
  | .pllLockLoss => none
  | .railFault _ => none
  | .pmbusPoll _ => none
  | .smb1AlertN _ => none
  | .avsAdjust _ => none
  | .thermalSample _ => none
  | .powerControl _ => none
  | .bmcBlockWrite _ _ => none
  | .bmcBlockRead => none
  | .drainTmoExpiry _ => none
  | .scrubComplete _ _ _ => none
  | .provisioningSequence _ _ _ _ => none

/-- A well-formed header names a ring and a vector. -/
theorem header_fits (d : Hdr) (h : d.wf = true) : d.ring < 4096 ∧ d.vector < 64 := by
  simp only [Hdr.wf, fits, Bool.and_eq_true, decide_eq_true_eq] at h
  omega

/-- The header of a well-formed descriptor is well-formed. -/
theorem header_wf (i : Instr) (d : Hdr) (h : headerOf i = some d) (hw : i.wf = true) : d.wf = true := by
  cases i <;> simp only [headerOf] at h
  all_goals first
    | (cases h; done)
    | (cases h; simp only [Instr.wf, Bool.and_eq_true] at hw; simp only [hw])
    | (split at h <;> cases h; simp only [Instr.wf, ResetBy.wf, Bool.and_eq_true] at hw; simp only [hw])

namespace HeaderFits

/-- The header of a well-formed descriptor names one of the rings and one of the vectors. -/
def Statement (i : Instr) : Prop := ∀ d, headerOf i = some d → i.wf = true → d.ring < 4096 ∧ d.vector < 64

theorem opNop (d : Hdr) : Statement (.opNop d) := fun _ he hw => header_fits _ (header_wf _ _ he hw)
theorem opBufRegister (d : Hdr) (index base length : Nat) :
    Statement (.opBufRegister d index base length) := fun _ he hw => header_fits _ (header_wf _ _ he hw)
theorem opBufUnregister (d : Hdr) (index : Nat) : Statement (.opBufUnregister d index) := fun _ he hw => header_fits _ (header_wf _ _ he hw)
theorem opSessionOpen (d : Hdr) (owner profile tokenizer grammarSlot : Nat) (grammarEn : Bool) (addr len : Nat) (img : ParamImage) :
    Statement (.opSessionOpen d owner profile tokenizer grammarSlot grammarEn addr len img) := fun _ he hw => header_fits _ (header_wf _ _ he hw)
theorem opSessionClose (d : Hdr) (h : Handle) : Statement (.opSessionClose d h) := fun _ he hw => header_fits _ (header_wf _ _ he hw)
theorem opSessionPark (d : Hdr) (h : Handle) : Statement (.opSessionPark d h) := fun _ he hw => header_fits _ (header_wf _ _ he hw)
theorem opSessionRevive (d : Hdr) (h : Handle) : Statement (.opSessionRevive d h) := fun _ he hw => header_fits _ (header_wf _ _ he hw)
theorem opSessionFork (d : Hdr) (h : Handle) : Statement (.opSessionFork d h) := fun _ he hw => header_fits _ (header_wf _ _ he hw)
theorem opSessionResume (d : Hdr) (h : Handle) (toolTag genLimit : Nat) (feedCut useDefault : Bool) :
    Statement (.opSessionResume d h toolTag genLimit feedCut useDefault) := fun _ he hw => header_fits _ (header_wf _ _ he hw)
theorem opSessionSet (d : Hdr) (h : Handle) (addr len : Nat) (img : ParamImage) (rebind : Bool) (grammarSlot : Nat) (grammarEn : Bool) :
    Statement (.opSessionSet d h addr len img rebind grammarSlot grammarEn) := fun _ he hw => header_fits _ (header_wf _ _ he hw)
theorem opSessionQuery (d : Hdr) (h : Handle) (addr : Nat) :
    Statement (.opSessionQuery d h addr) := fun _ he hw => header_fits _ (header_wf _ _ he hw)
theorem opKvPrefetch (d : Hdr) (h : Handle) (firstLayer layerCount : Nat) :
    Statement (.opKvPrefetch d h firstLayer layerCount) := fun _ he hw => header_fits _ (header_wf _ _ he hw)
theorem opProfileSet (d : Hdr) (profile : Nat) (rec : Profile) :
    Statement (.opProfileSet d profile rec) := fun _ he hw => header_fits _ (header_wf _ _ he hw)
theorem opKvAppend (d : Hdr) (a : AppendArgs) : Statement (.opKvAppend d a) := fun _ he hw => header_fits _ (header_wf _ _ he hw)
theorem opAttnPrefill (d : Hdr) (a : AppendArgs) : Statement (.opAttnPrefill d a) := fun _ he hw => header_fits _ (header_wf _ _ he hw)
theorem opAttnMerge (d : Hdr) (a : MergeArgs) : Statement (.opAttnMerge d a) := fun _ he hw => header_fits _ (header_wf _ _ he hw)
theorem opStep (d : Hdr) (a : StepArgs) : Statement (.opStep d a) := fun _ he hw => header_fits _ (header_wf _ _ he hw)
theorem opTextIn (d : Hdr) (a : TextArgs) : Statement (.opTextIn d a) := fun _ he hw => header_fits _ (header_wf _ _ he hw)
theorem opTokenizerLoad (d : Hdr) (a : LoadArgs) : Statement (.opTokenizerLoad d a) := fun _ he hw => header_fits _ (header_wf _ _ he hw)
theorem tokenizerUnload (d : Hdr) (a : LoadArgs) : Statement (.tokenizerUnload d a) := fun _ he hw => header_fits _ (header_wf _ _ he hw)
theorem opSessionDraft (d : Hdr) (a : DraftArgs) : Statement (.opSessionDraft d a) := fun _ he hw => header_fits _ (header_wf _ _ he hw)
theorem opGrammarLoad (d : Hdr) (a : LoadArgs) : Statement (.opGrammarLoad d a) := fun _ he hw => header_fits _ (header_wf _ _ he hw)
theorem grammarUnload (d : Hdr) (a : LoadArgs) : Statement (.grammarUnload d a) := fun _ he hw => header_fits _ (header_wf _ _ he hw)
theorem opModelLoad (d : Hdr) (a : LoadArgs) : Statement (.opModelLoad d a) := fun _ he hw => header_fits _ (header_wf _ _ he hw)
theorem modelUnload (d : Hdr) (a : LoadArgs) : Statement (.modelUnload d a) := fun _ he hw => header_fits _ (header_wf _ _ he hw)
theorem opModelRun (d : Hdr) (a : RunArgs) : Statement (.opModelRun d a) := fun _ he hw => header_fits _ (header_wf _ _ he hw)
theorem opMirrorSnapshot (d : Hdr) : Statement (.opMirrorSnapshot d) := fun _ he hw => header_fits _ (header_wf _ _ he hw)
theorem opMirrorRestore (d : Hdr) (a : RestoreArgs) : Statement (.opMirrorRestore d a) := fun _ he hw => header_fits _ (header_wf _ _ he hw)
theorem opMirrorRollback (d : Hdr) (a : RollbackArgs) :
    Statement (.opMirrorRollback d a) := fun _ he hw => header_fits _ (header_wf _ _ he hw)
theorem sessionRollback (d : Hdr) (a : RollbackArgs) :
    Statement (.sessionRollback d a) := fun _ he hw => header_fits _ (header_wf _ _ he hw)
theorem opPartitionSet (d : Hdr) (partition : Nat) (img : PartImage) :
    Statement (.opPartitionSet d partition img) := fun _ he hw => header_fits _ (header_wf _ _ he hw)
theorem opExtentSet (d : Hdr) (partition slot : Nat) (img : ExtentImage) :
    Statement (.opExtentSet d partition slot img) := fun _ he hw => header_fits _ (header_wf _ _ he hw)
theorem opExtentRevoke (d : Hdr) (partition slot : Nat) :
    Statement (.opExtentRevoke d partition slot) := fun _ he hw => header_fits _ (header_wf _ _ he hw)
theorem opRebuild (d : Hdr) (partition slot : Nat) (source : BuddySlot) (srcOff srcLen : Nat) :
    Statement (.opRebuild d partition slot source srcOff srcLen) := fun _ he hw => header_fits _ (header_wf _ _ he hw)
theorem opPoolOp (d : Hdr) (op targetFid targetChannel resultAddr : Nat) (b : PoolBlk) :
    Statement (.opPoolOp d op targetFid targetChannel resultAddr b) := fun _ he hw => header_fits _ (header_wf _ _ he hw)
theorem opWaitCount (d : Hdr) (fabricId ring n timeout : Nat) :
    Statement (.opWaitCount d fabricId ring n timeout) := fun _ he hw => header_fits _ (header_wf _ _ he hw)
theorem opLensCreate (d : Hdr) (hdr : LensHdr) : Statement (.opLensCreate d hdr) := fun _ he hw => header_fits _ (header_wf _ _ he hw)
theorem lensDestroy (d : Hdr) : Statement (.lensDestroy d) := fun _ he hw => header_fits _ (header_wf _ _ he hw)
theorem opLensQuery (d : Hdr) (count k beam vecAddr outAddr : Nat) (vecs : List (List F32)) :
    Statement (.opLensQuery d count k beam vecAddr outAddr vecs) := fun _ he hw => header_fits _ (header_wf _ _ he hw)
theorem opLensInsert (d : Hdr) (count idAddr vecAddr : Nat) (ids : List Nat) (vecs : List (List F32)) :
    Statement (.opLensInsert d count idAddr vecAddr ids vecs) := fun _ he hw => header_fits _ (header_wf _ _ he hw)
theorem opLensDelete (d : Hdr) (count idAddr : Nat) (ids : List Nat) :
    Statement (.opLensDelete d count idAddr ids) := fun _ he hw => header_fits _ (header_wf _ _ he hw)
theorem opLensConsolidate (d : Hdr) : Statement (.opLensConsolidate d) := fun _ he hw => header_fits _ (header_wf _ _ he hw)
theorem opMergeTopk (d : Hdr) (lists kIn kOut inAddr outAddr : Nat) (data : List (List TopkEntry)) :
    Statement (.opMergeTopk d lists kIn kOut inAddr outAddr data) := fun _ he hw => header_fits _ (header_wf _ _ he hw)
theorem ringReset (by_ : ResetBy) (ring : Nat) : Statement (.ringReset by_ ring) := fun _ he hw => header_fits _ (header_wf _ _ he hw)
theorem functionReset (by_ : ResetBy) (fn : Nat) : Statement (.functionReset by_ fn) := fun _ he hw => header_fits _ (header_wf _ _ he hw)
theorem channelReset (by_ : ResetBy) (channel : Nat) :
    Statement (.channelReset by_ channel) := fun _ he hw => header_fits _ (header_wf _ _ he hw)
theorem warmDeviceReset (by_ : ResetBy) : Statement (.warmDeviceReset by_) := fun _ he hw => header_fits _ (header_wf _ _ he hw)
theorem opIrisSet (d : Hdr) (index : Nat) (img : IrisImage) :
    Statement (.opIrisSet d index img) := fun _ he hw => header_fits _ (header_wf _ _ he hw)
theorem opApertureSet (d : Hdr) (port : Nat) (enable : Bool) (count base listAddr : Nat) (entries : List GateEntry) :
    Statement (.opApertureSet d port enable count base listAddr entries) := fun _ he hw => header_fits _ (header_wf _ _ he hw)
theorem opCompositionSet (d : Hdr) (id : Nat) (channels : BitVec 8) (clear : Bool) :
    Statement (.opCompositionSet d id channels clear) := fun _ he hw => header_fits _ (header_wf _ _ he hw)
theorem opCompositionRead (d : Hdr) (outAddr : Nat) :
    Statement (.opCompositionRead d outAddr) := fun _ he hw => header_fits _ (header_wf _ _ he hw)
theorem opEvidenceGet (d : Hdr) (nonce : List Byte) (outAddr outCap : Nat) (kem : Bool) :
    Statement (.opEvidenceGet d nonce outAddr outCap kem) := fun _ he hw => header_fits _ (header_wf _ _ he hw)
theorem opKeyRelease (d : Hdr) (blobAddr blobLen : Nat) (blob : Blob) :
    Statement (.opKeyRelease d blobAddr blobLen blob) := fun _ he hw => header_fits _ (header_wf _ _ he hw)
theorem keyErase (d : Hdr) (slot : Nat) : Statement (.keyErase d slot) := fun _ he hw => header_fits _ (header_wf _ _ he hw)
theorem opGroupKey (d : Hdr) (blobAddr blobLen : Nat) (blob : Blob) :
    Statement (.opGroupKey d blobAddr blobLen blob) := fun _ he hw => header_fits _ (header_wf _ _ he hw)
theorem groupKeyErase (d : Hdr) (index : Nat) : Statement (.groupKeyErase d index) := fun _ he hw => header_fits _ (header_wf _ _ he hw)
theorem debugChallenge (d : Hdr) (addr : Nat) : Statement (.debugChallenge d addr) := fun _ he hw => header_fits _ (header_wf _ _ he hw)
theorem debugSubmit (d : Hdr) (addr len : Nat) (token : Token) :
    Statement (.debugSubmit d addr len token) := fun _ he hw => header_fits _ (header_wf _ _ he hw)
theorem fwStage (d : Hdr) (addr len : Nat) (img : FwImage) :
    Statement (.fwStage d addr len img) := fun _ he hw => header_fits _ (header_wf _ _ he hw)
theorem fwActivate (d : Hdr) : Statement (.fwActivate d) := fun _ he hw => header_fits _ (header_wf _ _ he hw)
theorem fwCommitSvn (d : Hdr) : Statement (.fwCommitSvn d) := fun _ he hw => header_fits _ (header_wf _ _ he hw)
theorem opRoleSet (d : Hdr) (channel role drainTmo : Nat) :
    Statement (.opRoleSet d channel role drainTmo) := fun _ he hw => header_fits _ (header_wf _ _ he hw)
theorem opSpectrumSnapshot (d : Hdr) (mask : BitVec 128) (outAddr : Nat) (clear : Bool) :
    Statement (.opSpectrumSnapshot d mask outAddr clear) := fun _ he hw => header_fits _ (header_wf _ _ he hw)
theorem cfgCommit (r : Requester) (scope : Nat) : Statement (.cfgCommit r scope) := fun _ he hw => header_fits _ (header_wf _ _ he hw)
theorem cfgUnlock (r : Requester) (scope : Nat) : Statement (.cfgUnlock r scope) := fun _ he hw => header_fits _ (header_wf _ _ he hw)
theorem cfgDiscard (r : Requester) (scope : Nat) : Statement (.cfgDiscard r scope) := fun _ he hw => header_fits _ (header_wf _ _ he hw)
theorem ringEnable (r : Requester) (ring : Nat) : Statement (.ringEnable r ring) := fun _ he hw => header_fits _ (header_wf _ _ he hw)
theorem prtWdogKick (r : Requester) : Statement (.prtWdogKick r) := fun _ he hw => header_fits _ (header_wf _ _ he hw)
theorem prtPeerClear (r : Requester) : Statement (.prtPeerClear r) := fun _ he hw => header_fits _ (header_wf _ _ he hw)
theorem portEnable (r : Requester) (port : Nat) : Statement (.portEnable r port) := fun _ he hw => header_fits _ (header_wf _ _ he hw)
theorem portDisable (r : Requester) (port : Nat) : Statement (.portDisable r port) := fun _ he hw => header_fits _ (header_wf _ _ he hw)
theorem rewiden (r : Requester) (port : Nat) : Statement (.rewiden r port) := fun _ he hw => header_fits _ (header_wf _ _ he hw)
theorem wlHeadWrite (r : Requester) (channel sub value : Nat) :
    Statement (.wlHeadWrite r channel sub value) := fun _ he hw => header_fits _ (header_wf _ _ he hw)
theorem vecUnmask (r : Requester) : Statement (.vecUnmask r) := fun _ he hw => header_fits _ (header_wf _ _ he hw)
theorem alertStatusClear (r : Requester) (mask : BitVec 6) :
    Statement (.alertStatusClear r mask) := fun _ he hw => header_fits _ (header_wf _ _ he hw)
theorem poolLateWbClear (r : Requester) (channel : Nat) :
    Statement (.poolLateWbClear r channel) := fun _ he hw => header_fits _ (header_wf _ _ he hw)
theorem regWrite (r : Requester) (addr size : Nat) (value : Word) :
    Statement (.regWrite r addr size value) := fun _ he hw => header_fits _ (header_wf _ _ he hw)
theorem notifyDb (p : Pkt) (fn line word value : Nat) :
    Statement (.notifyDb p fn line word value) := fun _ he hw => header_fits _ (header_wf _ _ he hw)
theorem dbPoll (words : List (Nat × Nat × Nat)) : Statement (.dbPoll words) := fun _ he hw => header_fits _ (header_wf _ _ he hw)
theorem descFetch (ring : Nat) (ds : List Fetched) : Statement (.descFetch ring ds) := fun _ he hw => header_fits _ (header_wf _ _ he hw)
theorem descAdmit (ring : Nat) : Statement (.descAdmit ring) := fun _ he hw => header_fits _ (header_wf _ _ he hw)
theorem irisRefill  : Statement (.irisRefill) := fun _ he hw => header_fits _ (header_wf _ _ he hw)
theorem descComplete (ring tag : Nat) : Statement (.descComplete ring tag) := fun _ he hw => header_fits _ (header_wf _ _ he hw)
theorem intrTimer (fn vector : Nat) : Statement (.intrTimer fn vector) := fun _ he hw => header_fits _ (header_wf _ _ he hw)
theorem coalescePeriod  : Statement (.coalescePeriod) := fun _ he hw => header_fits _ (header_wf _ _ he hw)
theorem partnerDetect (port : Nat) (lanes : BitVec 4) :
    Statement (.partnerDetect port lanes) := fun _ he hw => header_fits _ (header_wf _ _ he hw)
theorem signalDone (port : Nat) (lanes : BitVec 4) :
    Statement (.signalDone port lanes) := fun _ he hw => header_fits _ (header_wf _ _ he hw)
theorem equalizeDone (port : Nat) (lanes : BitVec 4) :
    Statement (.equalizeDone port lanes) := fun _ he hw => header_fits _ (header_wf _ _ he hw)
theorem alignDone (port : Nat) (lanes : BitVec 4) : Statement (.alignDone port lanes) := fun _ he hw => header_fits _ (header_wf _ _ he hw)
theorem linkMessage (port : Nat) (m : LinkMsg) : Statement (.linkMessage port m) := fun _ he hw => header_fits _ (header_wf _ _ he hw)
theorem trainingLimitExpiry (port : Nat) : Statement (.trainingLimitExpiry port) := fun _ he hw => header_fits _ (header_wf _ _ he hw)
theorem laneLockLoss (lane : Nat) : Statement (.laneLockLoss lane) := fun _ he hw => header_fits _ (header_wf _ _ he hw)
theorem fecUncorrLimit (lane : Nat) : Statement (.fecUncorrLimit lane) := fun _ he hw => header_fits _ (header_wf _ _ he hw)
theorem linkDownTimeout (port : Nat) : Statement (.linkDownTimeout port) := fun _ he hw => header_fits _ (header_wf _ _ he hw)
theorem downRetry (port : Nat) : Statement (.downRetry port) := fun _ he hw => header_fits _ (header_wf _ _ he hw)
theorem flitReceive (port : Nat) (flit : List Byte) :
    Statement (.flitReceive port flit) := fun _ he hw => header_fits _ (header_wf _ _ he hw)
theorem replayTimeout (port : Nat) : Statement (.replayTimeout port) := fun _ he hw => header_fits _ (header_wf _ _ he hw)
theorem ackTimer (port : Nat) : Statement (.ackTimer port) := fun _ he hw => header_fits _ (header_wf _ _ he hw)
theorem readReq (p : Pkt) (addr : Word) (bytes : Nat) :
    Statement (.readReq p addr bytes) := fun _ he hw => header_fits _ (header_wf _ _ he hw)
theorem readRsp (p : Pkt) (data : ReadData) : Statement (.readRsp p data) := fun _ he hw => header_fits _ (header_wf _ _ he hw)
theorem write (p : Pkt) (addr : Word) (data : List Byte) :
    Statement (.write p addr data) := fun _ he hw => header_fits _ (header_wf _ _ he hw)
theorem writeBulk (p : Pkt) (addr : Word) (data : List Byte) :
    Statement (.writeBulk p addr data) := fun _ he hw => header_fits _ (header_wf _ _ he hw)
theorem writeAck (p : Pkt) (addr : Word) : Statement (.writeAck p addr) := fun _ he hw => header_fits _ (header_wf _ _ he hw)
theorem poolRsp (p : Pkt) (done : Nat) (result : BitVec 128) :
    Statement (.poolRsp p done result) := fun _ he hw => header_fits _ (header_wf _ _ he hw)
theorem segAttn (p : Pkt) (g : Seg) : Statement (.segAttn p g) := fun _ he hw => header_fits _ (header_wf _ _ he hw)
theorem segSample (p : Pkt) (g : Seg) : Statement (.segSample p g) := fun _ he hw => header_fits _ (header_wf _ _ he hw)
theorem regRsp (p : Pkt) (value : Word) : Statement (.regRsp p value) := fun _ he hw => header_fits _ (header_wf _ _ he hw)
theorem ctrRead (p : Pkt) (ring : Nat) : Statement (.ctrRead p ring) := fun _ he hw => header_fits _ (header_wf _ _ he hw)
theorem ctrRsp (p : Pkt) (ring value : Nat) : Statement (.ctrRsp p ring value) := fun _ he hw => header_fits _ (header_wf _ _ he hw)
theorem unreach (port : Nat) (lost : Pkt) : Statement (.unreach port lost) := fun _ he hw => header_fits _ (header_wf _ _ he hw)
theorem reqTimeout (unit req : Nat) : Statement (.reqTimeout unit req) := fun _ he hw => header_fits _ (header_wf _ _ he hw)
theorem fill (p : Pkt) (b : PoolBlk) : Statement (.fill p b) := fun _ he hw => header_fits _ (header_wf _ _ he hw)
theorem copy (p : Pkt) (b : PoolBlk) : Statement (.copy p b) := fun _ he hw => header_fits _ (header_wf _ _ he hw)
theorem compare (p : Pkt) (b : PoolBlk) : Statement (.compare p b) := fun _ he hw => header_fits _ (header_wf _ _ he hw)
theorem reduce (p : Pkt) (b : PoolBlk) : Statement (.reduce p b) := fun _ he hw => header_fits _ (header_wf _ _ he hw)
theorem atomicAdd (p : Pkt) (b : PoolBlk) : Statement (.atomicAdd p b) := fun _ he hw => header_fits _ (header_wf _ _ he hw)
theorem cas (p : Pkt) (b : PoolBlk) : Statement (.cas p b) := fun _ he hw => header_fits _ (header_wf _ _ he hw)
theorem acquireS (p : Pkt) (b : PoolBlk) : Statement (.acquireS p b) := fun _ he hw => header_fits _ (header_wf _ _ he hw)
theorem acquireM (p : Pkt) (b : PoolBlk) : Statement (.acquireM p b) := fun _ he hw => header_fits _ (header_wf _ _ he hw)
theorem writeback (p : Pkt) (b : PoolBlk) (data : List Byte) :
    Statement (.writeback p b data) := fun _ he hw => header_fits _ (header_wf _ _ he hw)
theorem release (p : Pkt) (b : PoolBlk) (data : List Byte) :
    Statement (.release p b data) := fun _ he hw => header_fits _ (header_wf _ _ he hw)
theorem renew (p : Pkt) (b : PoolBlk) : Statement (.renew p b) := fun _ he hw => header_fits _ (header_wf _ _ he hw)
theorem leaseExpiry (channel lease : Nat) : Statement (.leaseExpiry channel lease) := fun _ he hw => header_fits _ (header_wf _ _ he hw)
theorem recallTimeout (channel lease : Nat) : Statement (.recallTimeout channel lease) := fun _ he hw => header_fits _ (header_wf _ _ he hw)
theorem extentDrained (channel partition slot : Nat) :
    Statement (.extentDrained channel partition slot) := fun _ he hw => header_fits _ (header_wf _ _ he hw)
theorem extentZeroFillDone (channel partition slot : Nat) :
    Statement (.extentZeroFillDone channel partition slot) := fun _ he hw => header_fits _ (header_wf _ _ he hw)
theorem secondaryAckTimeout (channel partition slot : Nat) :
    Statement (.secondaryAckTimeout channel partition slot) := fun _ he hw => header_fits _ (header_wf _ _ he hw)
theorem rebuildCopy (channel partition slot : Nat) :
    Statement (.rebuildCopy channel partition slot) := fun _ he hw => header_fits _ (header_wf _ _ he hw)
theorem gatherExpiry (channel : Nat) : Statement (.gatherExpiry channel) := fun _ he hw => header_fits _ (header_wf _ _ he hw)
theorem workListFix (channel : Nat) : Statement (.workListFix channel) := fun _ he hw => header_fits _ (header_wf _ _ he hw)
theorem fixedListFix (channel : Nat) : Statement (.fixedListFix channel) := fun _ he hw => header_fits _ (header_wf _ _ he hw)
theorem workListPublish (channel : Nat) : Statement (.workListPublish channel) := fun _ he hw => header_fits _ (header_wf _ _ he hw)
theorem wlWaitTimeout (channel : Nat) : Statement (.wlWaitTimeout channel) := fun _ he hw => header_fits _ (header_wf _ _ he hw)
theorem layerTimeout (channel stepNo slot : Nat) :
    Statement (.layerTimeout channel stepNo slot) := fun _ he hw => header_fits _ (header_wf _ _ he hw)
theorem bucketBuild (channel layer : Nat) : Statement (.bucketBuild channel layer) := fun _ he hw => header_fits _ (header_wf _ _ he hw)
theorem attnLayerComplete (channel stepNo slot : Nat) :
    Statement (.attnLayerComplete channel stepNo slot) := fun _ he hw => header_fits _ (header_wf _ _ he hw)
theorem mergeTimeout (channel stepNo slot : Nat) :
    Statement (.mergeTimeout channel stepNo slot) := fun _ he hw => header_fits _ (header_wf _ _ he hw)
theorem sampleRow (channel stepNo slot : Nat) :
    Statement (.sampleRow channel stepNo slot) := fun _ he hw => header_fits _ (header_wf _ _ he hw)
theorem outHeadRefresh (channel index value : Nat) :
    Statement (.outHeadRefresh channel index value) := fun _ he hw => header_fits _ (header_wf _ _ he hw)
theorem bulkUnitComplete (channel unit : Nat) (poisoned : Bool) :
    Statement (.bulkUnitComplete channel unit poisoned) := fun _ he hw => header_fits _ (header_wf _ _ he hw)
theorem preemptSaveComplete (channel unit : Nat) :
    Statement (.preemptSaveComplete channel unit) := fun _ he hw => header_fits _ (header_wf _ _ he hw)
theorem restoreComplete (channel unit : Nat) :
    Statement (.restoreComplete channel unit) := fun _ he hw => header_fits _ (header_wf _ _ he hw)
theorem demote (channel tier : Nat) : Statement (.demote channel tier) := fun _ he hw => header_fits _ (header_wf _ _ he hw)
theorem pageMoveComplete (channel desc : Nat) :
    Statement (.pageMoveComplete channel desc) := fun _ he hw => header_fits _ (header_wf _ _ he hw)
theorem pageEncode (channel desc : Nat) : Statement (.pageEncode channel desc) := fun _ he hw => header_fits _ (header_wf _ _ he hw)
theorem fetchComplete (channel desc : Nat) (e : Envelope) :
    Statement (.fetchComplete channel desc e) := fun _ he hw => header_fits _ (header_wf _ _ he hw)
theorem modelRunDispatch (channel : Nat) : Statement (.modelRunDispatch channel) := fun _ he hw => header_fits _ (header_wf _ _ he hw)
theorem windowFill (channel : Nat) : Statement (.windowFill channel) := fun _ he hw => header_fits _ (header_wf _ _ he hw)
theorem expansionServe (channel : Nat) : Statement (.expansionServe channel) := fun _ he hw => header_fits _ (header_wf _ _ he hw)
theorem consolidateFree (channel : Nat) : Statement (.consolidateFree channel) := fun _ he hw => header_fits _ (header_wf _ _ he hw)
theorem waitPoll (ring : Nat) : Statement (.waitPoll ring) := fun _ he hw => header_fits _ (header_wf _ _ he hw)
theorem waitTimeout (ring : Nat) : Statement (.waitTimeout ring) := fun _ he hw => header_fits _ (header_wf _ _ he hw)
theorem gateBoundary (port : Nat) : Statement (.gateBoundary port) := fun _ he hw => header_fits _ (header_wf _ _ he hw)
theorem mirrorInterval  : Statement (.mirrorInterval) := fun _ he hw => header_fits _ (header_wf _ _ he hw)
theorem captureStart (channel : Nat) : Statement (.captureStart channel) := fun _ he hw => header_fits _ (header_wf _ _ he hw)
theorem copierCapture (channel : Nat) : Statement (.copierCapture channel) := fun _ he hw => header_fits _ (header_wf _ _ he hw)
theorem mirrorAckTimeout (channel : Nat) : Statement (.mirrorAckTimeout channel) := fun _ he hw => header_fits _ (header_wf _ _ he hw)
theorem warnMeasure (condition source value : Nat) :
    Statement (.warnMeasure condition source value) := fun _ he hw => header_fits _ (header_wf _ _ he hw)
theorem exceptionComplete (id : Nat) : Statement (.exceptionComplete id) := fun _ he hw => header_fits _ (header_wf _ _ he hw)
theorem watchdogExpiry  : Statement (.watchdogExpiry) := fun _ he hw => header_fits _ (header_wf _ _ he hw)
theorem fwRestartDone (duration : Nat) : Statement (.fwRestartDone duration) := fun _ he hw => header_fits _ (header_wf _ _ he hw)
theorem fwConfirm  : Statement (.fwConfirm) := fun _ he hw => header_fits _ (header_wf _ _ he hw)
theorem channelFatalFault (channel cause : Nat) :
    Statement (.channelFatalFault channel cause) := fun _ he hw => header_fits _ (header_wf _ _ he hw)
theorem deviceFatalFault (cause : Nat) : Statement (.deviceFatalFault cause) := fun _ he hw => header_fits _ (header_wf _ _ he hw)
theorem patrolScrub (channel corrected : Nat) (passDone : Bool) :
    Statement (.patrolScrub channel corrected passDone) := fun _ he hw => header_fits _ (header_wf _ _ he hw)
theorem channelResetDone (channel : Nat) (ok : Bool) :
    Statement (.channelResetDone channel ok) := fun _ he hw => header_fits _ (header_wf _ _ he hw)
theorem functionFenceEnd (fn : Nat) : Statement (.functionFenceEnd fn) := fun _ he hw => header_fits _ (header_wf _ _ he hw)
theorem spectrumSample (monitor : Nat) (v : Int) :
    Statement (.spectrumSample monitor v) := fun _ he hw => header_fits _ (header_wf _ _ he hw)
theorem enclaveError (cause : Nat) : Statement (.enclaveError cause) := fun _ he hw => header_fits _ (header_wf _ _ he hw)
theorem porstNFall  : Statement (.porstNFall) := fun _ he hw => header_fits _ (header_wf _ _ he hw)
theorem porstNRise (b : BootInput) : Statement (.porstNRise b) := fun _ he hw => header_fits _ (header_wf _ _ he hw)
theorem warmNRise  : Statement (.warmNRise) := fun _ he hw => header_fits _ (header_wf _ _ he hw)
theorem pwrcapChange (level : Bool) : Statement (.pwrcapChange level) := fun _ he hw => header_fits _ (header_wf _ _ he hw)
theorem thermtrip (sensor : Nat) : Statement (.thermtrip sensor) := fun _ he hw => header_fits _ (header_wf _ _ he hw)
theorem pllLockLoss  : Statement (.pllLockLoss) := fun _ he hw => header_fits _ (header_wf _ _ he hw)
theorem railFault (rail : Nat) : Statement (.railFault rail) := fun _ he hw => header_fits _ (header_wf _ _ he hw)
theorem pmbusPoll (rs : List RailReading) : Statement (.pmbusPoll rs) := fun _ he hw => header_fits _ (header_wf _ _ he hw)
theorem smb1AlertN (rs : List RailReading) : Statement (.smb1AlertN rs) := fun _ he hw => header_fits _ (header_wf _ _ he hw)
theorem avsAdjust (allPass : Bool) : Statement (.avsAdjust allPass) := fun _ he hw => header_fits _ (header_wf _ _ he hw)
theorem thermalSample (temps : List Int) : Statement (.thermalSample temps) := fun _ he hw => header_fits _ (header_wf _ _ he hw)
theorem powerControl (coreMw : Nat) : Statement (.powerControl coreMw) := fun _ he hw => header_fits _ (header_wf _ _ he hw)
theorem bmcBlockWrite (addr : Nat) (value : Option (BitVec 32)) :
    Statement (.bmcBlockWrite addr value) := fun _ he hw => header_fits _ (header_wf _ _ he hw)
theorem bmcBlockRead  : Statement (.bmcBlockRead) := fun _ he hw => header_fits _ (header_wf _ _ he hw)
theorem drainTmoExpiry (channel : Nat) : Statement (.drainTmoExpiry channel) := fun _ he hw => header_fits _ (header_wf _ _ he hw)
theorem scrubComplete (channel tier granule : Nat) :
    Statement (.scrubComplete channel tier granule) := fun _ he hw => header_fits _ (header_wf _ _ he hw)
theorem provisioningSequence (serial fwAuth dbgAuth ownAuth : List Byte) :
    Statement (.provisioningSequence serial fwAuth dbgAuth ownAuth) := fun _ he hw => header_fits _ (header_wf _ _ he hw)

end HeaderFits

end Sys2Proof.Laws
end

