-- ==== Sys2Proof/Tests/Slice0.lean ====
section
/-! SUPPORT. Tests: ill-formed commands are refused; every statement's hypotheses are met; and what single commands do, with results taken
from the spec. -/

set_option Elab.async false

namespace Sys2Proof.Tests

open Sys2Proof Sys2Proof.Machine

/-- Operands of OP_MIRROR_RESTORE and OP_MIRROR_ROLLBACK with every field 0 or empty. -/
def restore0 : RestoreArgs := ⟨0, 0, none, 0, 0, [], [], []⟩

def rollback0 : RollbackArgs := ⟨0, 0, 0, 0, default, []⟩

/-! ### Well-formed commands (R34, R37, R41, R378, R434 and the descriptor layouts) -/

theorem test_wf_hdr : ([
    { (default : Hdr) with ring := 4096 },
    { (default : Hdr) with tag := 4294967296 },
    { (default : Hdr) with vector := 64 },
    { (default : Hdr) with deadline := 281474976710656 },
    { (default : Hdr) with flow := 65536 }
  ] : List Hdr).all (fun x => !x.wf) = true := by decide +kernel

theorem test_wf_handle : ([
    { (default : Handle) with fabricId := 64 },
    { (default : Handle) with channel := 8 },
    { (default : Handle) with index := 131072 },
    { (default : Handle) with epoch := 64 },
    { (default : Handle) with count := 4294967296 }
  ] : List Handle).all (fun x => !x.wf) = true := by decide +kernel

theorem test_wf_pkt : ([
    { (default : Pkt) with dstFid := 128 },
    { (default : Pkt) with dstUnit := 16 },
    { (default : Pkt) with srcFid := 128 },
    { (default : Pkt) with srcUnit := 16 },
    { (default : Pkt) with req := 65536 },
    { (default : Pkt) with fn := 256 },
    { (default : Pkt) with gen := 256 },
    { (default : Pkt) with status := 65536 },
    { (default : Pkt) with port := 9 }
  ] : List Pkt).all (fun x => !x.wf) = true := by decide +kernel

theorem test_wf_poolBlk : ([
    { (default : PoolBlk) with elem := 4 },
    { (default : PoolBlk) with rop := 4 },
    { (default : PoolBlk) with dstPart := 64 },
    { (default : PoolBlk) with dst := 36028797018963968 },
    { (default : PoolBlk) with srcPart := 64 },
    { (default : PoolBlk) with src := 36028797018963968 },
    { (default : PoolBlk) with len := 18446744073709551616 }
  ] : List PoolBlk).all (fun x => !x.wf) = true := by decide +kernel

theorem test_wf_seg : ([
    { (default : Seg) with stepLo := 4294967296 },
    { (default : Seg) with slot := 8192 },
    { (default : Seg) with layer := 256 },
    { (default : Seg) with part := 8 },
    { (default : Seg) with rank := 16 },
    { (default : Seg) with offset := 4294967296 },
    { (default : Seg) with len := 65536 },
    { (default : Seg) with status := 65536 },
    { (default : Seg) with data := List.replicate 4081 0 }
  ] : List Seg).all (fun x => !x.wf) = true := by decide +kernel

theorem test_wf_stopString : ([
    { (default : StopString) with kind := 256 },
    { (default : StopString) with len := 256 }
  ] : List StopString).all (fun x => !x.wf) = true := by decide +kernel

theorem test_wf_paramImage : ([
    { (default : ParamImage) with genLimit := 4294967296 },
    { (default : ParamImage) with eosId := 4294967296 },
    { (default : ParamImage) with utf8Policy := 4 },
    { (default : ParamImage) with stopCount := 256 },
    { (default : ParamImage) with stackMode := 4 },
    { (default : ParamImage) with parkTier := 8 },
    { (default : ParamImage) with topK := 4294967296 },
    { (default : ParamImage) with penWindow := 4294967296 },
    { (default : ParamImage) with biasCount := 65536 },
    { (default : ParamImage) with outAddr := 18446744073709551616 },
    { (default : ParamImage) with outHeadAddr := 18446744073709551616 },
    { (default : ParamImage) with outTailAddr := 18446744073709551616 },
    { (default : ParamImage) with outExp := 256 },
    { (default : ParamImage) with startState := 4294967296 },
    { (default : ParamImage) with stops := [⟨256, 0, []⟩] },
    { (default : ParamImage) with stops := [⟨0, 256, []⟩] }
  ] : List ParamImage).all (fun x => !x.wf) = true := by decide +kernel

theorem test_wf_loadArgs : ([
    { (default : LoadArgs) with slot := 256 },
    { (default : LoadArgs) with keySlot := 65536 },
    { (default : LoadArgs) with addr := 18446744073709551616 },
    { (default : LoadArgs) with len := 18446744073709551616 }
  ] : List LoadArgs).all (fun x => !x.wf) = true := by decide +kernel

theorem test_wf_appendArgs : ([
    { (default : AppendArgs) with layer := 65536 },
    { (default : AppendArgs) with tokens := 65536 },
    { (default : AppendArgs) with qFmt := 16 },
    { (default : AppendArgs) with oFmt := 16 },
    { (default : AppendArgs) with qAddr := 18446744073709551616 },
    { (default : AppendArgs) with kAddr := 18446744073709551616 },
    { (default : AppendArgs) with vAddr := 18446744073709551616 },
    { (default : AppendArgs) with oAddr := 18446744073709551616 },
    { (default : AppendArgs) with lseAddr := 18446744073709551616 },
    { (default : AppendArgs) with kbase := 4294967296 },
    { (default : AppendArgs) with tokAddr := 18446744073709551616 },
    { (default : AppendArgs) with toks := [4294967296] },
    { (default : AppendArgs) with handle := { (default : Handle) with channel := 8 } }
  ] : List AppendArgs).all (fun x => !x.wf) = true := by decide +kernel

theorem test_wf_mergeArgs : ([
    { (default : MergeArgs) with count := 256 },
    { (default : MergeArgs) with oFmt := 16 },
    { (default : MergeArgs) with headDim := 65536 },
    { (default : MergeArgs) with rows := 4294967296 },
    { (default : MergeArgs) with inAddr := 18446744073709551616 },
    { (default : MergeArgs) with stride := 18446744073709551616 },
    { (default : MergeArgs) with outAddr := 18446744073709551616 },
    { (default : MergeArgs) with lseAddr := 18446744073709551616 }
  ] : List MergeArgs).all (fun x => !x.wf) = true := by decide +kernel

theorem test_wf_stepArgs : ([
    { (default : StepArgs) with count := 65536 },
    { (default : StepArgs) with listAddr := 18446744073709551616 },
    { (default : StepArgs) with resultAddr := 18446744073709551616 },
    { (default : StepArgs) with entries := [⟨default, 4294967296, 0⟩] },
    { (default : StepArgs) with entries := [⟨default, 0, 4294967296⟩] },
    { (default : StepArgs) with entries := [⟨{ (default : Handle) with epoch := 64 }, 0, 0⟩] }
  ] : List StepArgs).all (fun x => !x.wf) = true := by decide +kernel

theorem test_wf_textArgs : ([
    { (default : TextArgs) with textAddr := 18446744073709551616 },
    { (default : TextArgs) with textLen := 4294967296 },
    { (default : TextArgs) with tokAddr := 18446744073709551616 },
    { (default : TextArgs) with tokCap := 4294967296 },
    { (default : TextArgs) with textLen := 1 },
    { (default : TextArgs) with handle := { (default : Handle) with epoch := 64 } }
  ] : List TextArgs).all (fun x => !x.wf) = true := by decide +kernel

theorem test_wf_draftArgs : ([
    { (default : DraftArgs) with addr := 18446744073709551616 },
    { (default : DraftArgs) with base := 4294967296 },
    { (default : DraftArgs) with count := 256 },
    { (default : DraftArgs) with entries := [{ (default : DraftEntry) with token := 4294967296 }] },
    { (default : DraftArgs) with entries := [{ (default : DraftEntry) with support := List.replicate 33 default }] },
    { (default : DraftArgs) with handle := { (default : Handle) with epoch := 64 } }
  ] : List DraftArgs).all (fun x => !x.wf) = true := by decide +kernel

theorem test_wf_runArgs : ([
    { (default : RunArgs) with profile := 64 },
    { (default : RunArgs) with steps := 256 },
    { (default : RunArgs) with tokenizer := 16 },
    { (default : RunArgs) with count := 65536 },
    { (default : RunArgs) with support := 65536 },
    { (default : RunArgs) with inAddr := 18446744073709551616 },
    { (default : RunArgs) with dataAddr := 18446744073709551616 },
    { (default : RunArgs) with dataLen := 4294967296 },
    { (default : RunArgs) with outAddr := 18446744073709551616 },
    { (default : RunArgs) with outLen := 18446744073709551616 },
    { (default : RunArgs) with inputs := [{ (default : RunInput) with pos := 4294967296 }] },
    { (default : RunArgs) with inputs := [{ (default : RunInput) with context := some 65536 }] }
  ] : List RunArgs).all (fun x => !x.wf) = true := by decide +kernel

theorem test_wf_restoreArgs : ([
    { restore0 with source := 64 },
    { restore0 with reportAddr := 18446744073709551616 },
    { restore0 with reportCap := 4294967296 },
    { restore0 with maxGen := some 18446744073709551616 },
    { restore0 with buddies := [(64, 0)] },
    { restore0 with buddies := [(0, 8)] }
  ] : List RestoreArgs).all (fun x => !x.wf) = true := by decide +kernel

theorem test_wf_rollbackArgs : ([
    { rollback0 with gen := 18446744073709551616 },
    { rollback0 with reportAddr := 18446744073709551616 },
    { rollback0 with reportCap := 4294967296 },
    { rollback0 with handle := { (default : Handle) with epoch := 64 } }
  ] : List RollbackArgs).all (fun x => !x.wf) = true := by decide +kernel

theorem test_wf_buddySlot : ([
    { (default : BuddySlot) with fabricId := 64 },
    { (default : BuddySlot) with channel := 8 },
    { (default : BuddySlot) with partition := 64 },
    { (default : BuddySlot) with slot := 64 }
  ] : List BuddySlot).all (fun x => !x.wf) = true := by decide +kernel

theorem test_wf_partImage : ([
    { (default : PartImage) with ownerFid := 128 },
    { (default : PartImage) with ownerChannel := 8 },
    { (default : PartImage) with poolChannel := 8 },
    { (default : PartImage) with isolation := 4 },
    { (default : PartImage) with ownerFn := 256 }
  ] : List PartImage).all (fun x => !x.wf) = true := by decide +kernel

theorem test_wf_extentImage : ([
    { (default : ExtentImage) with pOff := 36028797018963968 },
    { (default : ExtentImage) with length := 18446744073709551616 },
    { (default : ExtentImage) with tier := 8 },
    { (default : ExtentImage) with state := 8 },
    { (default : ExtentImage) with mirror := 4 },
    { (default : ExtentImage) with buddy := { (default : BuddySlot) with channel := 8 } }
  ] : List ExtentImage).all (fun x => !x.wf) = true := by decide +kernel

theorem test_wf_fetched : ([
    { (default : Fetched) with opcode := 256 },
    { (default : Fetched) with size := 4 },
    { (default : Fetched) with vector := 64 },
    { (default : Fetched) with tag := 4294967296 },
    { (default : Fetched) with deadline := 281474976710656 },
    { (default : Fetched) with flow := 65536 }
  ] : List Fetched).all (fun x => !x.wf) = true := by decide +kernel

theorem test_wf_linkMsg : ([
    .config 128 0 0 4 [0, 0, 0, 0] 0,
    .config 0 16 0 4 [0, 0, 0, 0] 0,
    .config 0 0 0 3 [0, 0, 0, 0] 0,
    .config 0 0 0 4 [0, 0, 0] 0,
    .config 0 0 0 4 [0, 4096, 0, 0] 0,
    .config 0 0 0 4 [0, 0, 0, 0] 65536
  ] : List LinkMsg).all (fun x => !x.wf) = true := by decide +kernel

theorem test_wf_requester : ([
    .fn 256,
    .endpoint 128
  ] : List Requester).all (fun x => !x.wf) = true := by decide +kernel

theorem test_wf_resetBy : ([
    .desc { (default : Hdr) with ring := 4096 },
    .reg (.fn 256)
  ] : List ResetBy).all (fun x => !x.wf) = true := by decide +kernel

/-- Commands with one operand each that does not fit. -/
def ill0 : List Instr := [
  .opNop { (default : Hdr) with ring := 4096 },
  .opBufRegister { (default : Hdr) with ring := 4096 } 0 0 0,
  .opBufRegister default 65536 0 0,
  .opBufRegister default 0 18446744073709551616 0,
  .opBufRegister default 0 0 18446744073709551616,
  .opBufUnregister { (default : Hdr) with ring := 4096 } 0,
  .opBufUnregister default 65536,
  .opSessionOpen { (default : Hdr) with ring := 4096 } 0 0 0 0 false 0 0 default,
  .opSessionOpen default 256 0 0 0 false 0 0 default,
  .opSessionOpen default 0 64 0 0 false 0 0 default,
  .opSessionOpen default 0 0 16 0 false 0 0 default,
  .opSessionOpen default 0 0 0 256 false 0 0 default,
  .opSessionOpen default 0 0 0 0 false 18446744073709551616 0 default,
  .opSessionOpen default 0 0 0 0 false 0 4294967296 default,
  .opSessionOpen default 0 0 0 0 false 0 0 { (default : ParamImage) with utf8Policy := 4 },
  .opSessionClose { (default : Hdr) with ring := 4096 } default,
  .opSessionClose default { (default : Handle) with index := 131072 },
  .opSessionPark { (default : Hdr) with ring := 4096 } default,
  .opSessionPark default { (default : Handle) with index := 131072 },
  .opSessionRevive { (default : Hdr) with ring := 4096 } default,
  .opSessionRevive default { (default : Handle) with index := 131072 },
  .opSessionFork { (default : Hdr) with ring := 4096 } default,
  .opSessionFork default { (default : Handle) with index := 131072 },
  .opSessionResume { (default : Hdr) with ring := 4096 } default 0 0 false false,
  .opSessionResume default { (default : Handle) with index := 131072 } 0 0 false false,
  .opSessionResume default default 18446744073709551616 0 false false,
  .opSessionResume default default 0 4294967296 false false,
  .opSessionSet { (default : Hdr) with ring := 4096 } default 0 0 default false 0 false,
  .opSessionSet default { (default : Handle) with index := 131072 } 0 0 default false 0 false,
  .opSessionSet default default 18446744073709551616 0 default false 0 false,
  .opSessionSet default default 0 4294967296 default false 0 false,
  .opSessionSet default default 0 0 { (default : ParamImage) with utf8Policy := 4 } false 0 false,
  .opSessionSet default default 0 0 default false 256 false,
  .opSessionQuery { (default : Hdr) with ring := 4096 } default 0,
  .opSessionQuery default { (default : Handle) with index := 131072 } 0,
  .opSessionQuery default default 18446744073709551616,
  .opKvPrefetch { (default : Hdr) with ring := 4096 } default 0 0,
  .opKvPrefetch default { (default : Handle) with index := 131072 } 0 0,
  .opKvPrefetch default default 65536 0,
  .opKvPrefetch default default 0 65536,
  .opProfileSet { (default : Hdr) with ring := 4096 } 0 default,
  .opProfileSet default 64 default,
  .opKvAppend { (default : Hdr) with ring := 4096 } default,
  .opKvAppend default { (default : AppendArgs) with layer := 65536 },
  .opAttnPrefill { (default : Hdr) with ring := 4096 } default,
  .opAttnPrefill default { (default : AppendArgs) with layer := 65536 },
  .opAttnMerge { (default : Hdr) with ring := 4096 } default,
  .opAttnMerge default { (default : MergeArgs) with count := 256 }]

/-- Commands with one operand each that does not fit. -/
def ill1 : List Instr := [
  .opStep { (default : Hdr) with ring := 4096 } default,
  .opStep default { (default : StepArgs) with count := 65536 },
  .opTextIn { (default : Hdr) with ring := 4096 } default,
  .opTextIn default { (default : TextArgs) with tokCap := 4294967296 },
  .opTokenizerLoad { (default : Hdr) with ring := 4096 } default,
  .opTokenizerLoad default { (default : LoadArgs) with slot := 256 },
  .tokenizerUnload { (default : Hdr) with ring := 4096 } default,
  .tokenizerUnload default { (default : LoadArgs) with slot := 256 },
  .opSessionDraft { (default : Hdr) with ring := 4096 } default,
  .opSessionDraft default { (default : DraftArgs) with count := 256 },
  .opGrammarLoad { (default : Hdr) with ring := 4096 } default,
  .opGrammarLoad default { (default : LoadArgs) with slot := 256 },
  .grammarUnload { (default : Hdr) with ring := 4096 } default,
  .grammarUnload default { (default : LoadArgs) with slot := 256 },
  .opModelLoad { (default : Hdr) with ring := 4096 } default,
  .opModelLoad default { (default : LoadArgs) with slot := 256 },
  .modelUnload { (default : Hdr) with ring := 4096 } default,
  .modelUnload default { (default : LoadArgs) with slot := 256 },
  .opModelRun { (default : Hdr) with ring := 4096 } default,
  .opModelRun default { (default : RunArgs) with steps := 256 },
  .opMirrorSnapshot { (default : Hdr) with ring := 4096 },
  .opMirrorRestore { (default : Hdr) with ring := 4096 } restore0,
  .opMirrorRestore default { restore0 with source := 64 },
  .opMirrorRollback { (default : Hdr) with ring := 4096 } rollback0,
  .opMirrorRollback default { rollback0 with reportCap := 4294967296 },
  .sessionRollback { (default : Hdr) with ring := 4096 } rollback0,
  .sessionRollback default { rollback0 with reportCap := 4294967296 },
  .opPartitionSet { (default : Hdr) with ring := 4096 } 0 default,
  .opPartitionSet default 64 default,
  .opPartitionSet default 0 { (default : PartImage) with isolation := 4 },
  .opExtentSet { (default : Hdr) with ring := 4096 } 0 0 default,
  .opExtentSet default 64 0 default,
  .opExtentSet default 0 64 default,
  .opExtentSet default 0 0 { (default : ExtentImage) with state := 8 },
  .opExtentRevoke { (default : Hdr) with ring := 4096 } 0 0,
  .opExtentRevoke default 64 0,
  .opExtentRevoke default 0 64,
  .opRebuild { (default : Hdr) with ring := 4096 } 0 0 default 0 0,
  .opRebuild default 64 0 default 0 0,
  .opRebuild default 0 64 default 0 0,
  .opRebuild default 0 0 { (default : BuddySlot) with slot := 64 } 0 0,
  .opRebuild default 0 0 default 36028797018963968 0,
  .opRebuild default 0 0 default 0 18446744073709551616,
  .opPoolOp { (default : Hdr) with ring := 4096 } 0 0 0 0 default,
  .opPoolOp default 256 0 0 0 default,
  .opPoolOp default 0 128 0 0 default,
  .opPoolOp default 0 0 16 0 default,
  .opPoolOp default 0 0 0 18446744073709551616 default]

/-- Commands with one operand each that does not fit. -/
def ill2 : List Instr := [
  .opPoolOp default 0 0 0 0 { (default : PoolBlk) with rop := 4 },
  .opWaitCount { (default : Hdr) with ring := 4096 } 0 0 0 0,
  .opWaitCount default 64 0 0 0,
  .opWaitCount default 0 4096 0 0,
  .opWaitCount default 0 0 18446744073709551616 0,
  .opWaitCount default 0 0 0 281474976710656,
  .opLensCreate { (default : Hdr) with ring := 4096 } default,
  .opLensCreate default { (default : LensHdr) with owner := 256 },
  .opLensCreate default { (default : LensHdr) with dim := 65536 },
  .lensDestroy { (default : Hdr) with ring := 4096 },
  .opLensQuery { (default : Hdr) with ring := 4096 } 0 0 0 0 0 [],
  .opLensQuery default 65536 0 0 0 0 [],
  .opLensQuery default 0 65536 0 0 0 [],
  .opLensQuery default 0 0 65536 0 0 [],
  .opLensQuery default 0 0 0 18446744073709551616 0 [],
  .opLensQuery default 0 0 0 0 18446744073709551616 [],
  .opLensInsert { (default : Hdr) with ring := 4096 } 0 0 0 [] [],
  .opLensInsert default 65536 0 0 [] [],
  .opLensInsert default 0 18446744073709551616 0 [] [],
  .opLensInsert default 0 0 18446744073709551616 [] [],
  .opLensInsert default 0 0 0 [0] [],
  .opLensInsert default 0 0 0 [] [[]],
  .opLensDelete { (default : Hdr) with ring := 4096 } 0 0 [],
  .opLensDelete default 65536 0 [],
  .opLensDelete default 0 18446744073709551616 [],
  .opLensDelete default 0 0 [0],
  .opLensConsolidate { (default : Hdr) with ring := 4096 },
  .opMergeTopk { (default : Hdr) with ring := 4096 } 0 0 0 0 0 [],
  .opMergeTopk default 65536 0 0 0 0 [],
  .opMergeTopk default 0 65536 0 0 0 [],
  .opMergeTopk default 0 0 65536 0 0 [],
  .opMergeTopk default 0 0 0 18446744073709551616 0 [],
  .opMergeTopk default 0 0 0 0 18446744073709551616 [],
  .ringReset (.desc { (default : Hdr) with tag := 4294967296 }) 0,
  .ringReset .pin 4096,
  .functionReset (.desc { (default : Hdr) with tag := 4294967296 }) 0,
  .functionReset .pin 256,
  .channelReset (.desc { (default : Hdr) with tag := 4294967296 }) 0,
  .channelReset .pin 16,
  .warmDeviceReset (.desc { (default : Hdr) with tag := 4294967296 }),
  .opIrisSet { (default : Hdr) with ring := 4096 } 0 .reserved,
  .opIrisSet default 65536 .reserved,
  .opApertureSet { (default : Hdr) with ring := 4096 } 0 false 0 0 0 [],
  .opApertureSet default 16 false 0 0 0 [],
  .opApertureSet default 0 false 65536 0 0 [],
  .opApertureSet default 0 false 0 18446744073709551616 0 [],
  .opApertureSet default 0 false 0 0 18446744073709551616 [],
  .opApertureSet default 0 false 0 0 0 [{ (default : GateEntry) with duration := 4294967296 }]]

/-- Commands with one operand each that does not fit. -/
def ill3 : List Instr := [
  .opCompositionSet { (default : Hdr) with ring := 4096 } 0 0 false,
  .opCompositionSet default 256 0 false,
  .opCompositionRead { (default : Hdr) with ring := 4096 } 0,
  .opCompositionRead default 18446744073709551616,
  .opEvidenceGet { (default : Hdr) with ring := 4096 } (List.replicate 32 0) 0 0 false,
  .opEvidenceGet default [] 0 0 false,
  .opEvidenceGet default (List.replicate 32 0) 18446744073709551616 0 false,
  .opEvidenceGet default (List.replicate 32 0) 0 4294967296 false,
  .opKeyRelease { (default : Hdr) with ring := 4096 } 0 0 default,
  .opKeyRelease default 18446744073709551616 0 default,
  .opKeyRelease default 0 4294967296 default,
  .keyErase { (default : Hdr) with ring := 4096 } 0,
  .keyErase default 65536,
  .opGroupKey { (default : Hdr) with ring := 4096 } 0 0 default,
  .opGroupKey default 18446744073709551616 0 default,
  .opGroupKey default 0 4294967296 default,
  .groupKeyErase { (default : Hdr) with ring := 4096 } 0,
  .groupKeyErase default 256,
  .debugChallenge { (default : Hdr) with ring := 4096 } 0,
  .debugChallenge default 18446744073709551616,
  .debugSubmit { (default : Hdr) with ring := 4096 } 0 0 default,
  .debugSubmit default 18446744073709551616 0 default,
  .debugSubmit default 0 4294967296 default,
  .fwStage { (default : Hdr) with ring := 4096 } 0 0 default,
  .fwStage default 18446744073709551616 0 default,
  .fwStage default 0 4294967296 default,
  .fwActivate { (default : Hdr) with ring := 4096 },
  .fwCommitSvn { (default : Hdr) with ring := 4096 },
  .opRoleSet { (default : Hdr) with ring := 4096 } 0 0 0,
  .opRoleSet default 256 0 0,
  .opRoleSet default 0 256 0,
  .opRoleSet default 0 0 4294967296,
  .opSpectrumSnapshot { (default : Hdr) with ring := 4096 } 0 0 false,
  .opSpectrumSnapshot default 0 18446744073709551616 false,
  .cfgCommit (.fn 256) 0,
  .cfgCommit .service 16,
  .cfgUnlock (.fn 256) 0,
  .cfgUnlock .service 16,
  .cfgDiscard (.fn 256) 0,
  .cfgDiscard .service 16,
  .ringEnable (.fn 256) 0,
  .ringEnable .service 4096,
  .prtWdogKick (.fn 256),
  .prtPeerClear (.fn 256),
  .portEnable (.fn 256) 0,
  .portEnable .service 9,
  .portDisable (.fn 256) 0,
  .portDisable .service 9]

/-- Commands with one operand each that does not fit. -/
def ill4 : List Instr := [
  .rewiden (.fn 256) 0,
  .rewiden .service 9,
  .wlHeadWrite (.fn 256) 0 0 0,
  .wlHeadWrite .service 8 0 0,
  .wlHeadWrite .service 0 8 0,
  .wlHeadWrite .service 0 0 18446744073709551616,
  .vecUnmask (.fn 256),
  .alertStatusClear (.fn 256) 0,
  .poolLateWbClear (.fn 256) 0,
  .poolLateWbClear .service 8,
  .regWrite (.fn 256) 0 0 0,
  .regWrite .service 18446744073709551616 0 0,
  .regWrite .service 0 16 0,
  .notifyDb { (default : Pkt) with port := 9 } 0 0 0 0,
  .notifyDb default 256 0 0 0,
  .notifyDb default 0 256 0 0,
  .notifyDb default 0 0 256 0,
  .notifyDb default 0 0 0 18446744073709551616,
  .dbPoll [(4096, 0, 0)],
  .dbPoll [(0, 18446744073709551616, 0)],
  .dbPoll [(0, 0, 18446744073709551616)],
  .descFetch 4096 [],
  .descFetch 0 [{ (default : Fetched) with size := 4 }],
  .descAdmit 4096,
  .descComplete 4096 0,
  .descComplete 0 4294967296,
  .intrTimer 256 0,
  .intrTimer 0 64,
  .partnerDetect 9 0,
  .signalDone 9 0,
  .equalizeDone 9 0,
  .alignDone 9 0,
  .linkMessage 9 .retrain,
  .linkMessage 0 (.config 0 0 0 3 [0, 0, 0, 0] 0),
  .trainingLimitExpiry 9,
  .laneLockLoss 36,
  .fecUncorrLimit 36,
  .linkDownTimeout 9,
  .downRetry 9,
  .flitReceive 9 (List.replicate 256 0),
  .flitReceive 0 [],
  .replayTimeout 9,
  .ackTimer 9,
  .readReq { (default : Pkt) with port := 9 } 0 0,
  .readReq default 0 8192,
  .readRsp { (default : Pkt) with port := 9 } .none,
  .write { (default : Pkt) with port := 9 } 0 [],
  .write default 0 (List.replicate 4097 0)]

/-- Commands with one operand each that does not fit. -/
def ill5 : List Instr := [
  .writeBulk { (default : Pkt) with port := 9 } 0 [],
  .writeBulk default 0 (List.replicate 4097 0),
  .writeAck { (default : Pkt) with port := 9 } 0,
  .poolRsp { (default : Pkt) with port := 9 } 0 0,
  .poolRsp default 18446744073709551616 0,
  .segAttn { (default : Pkt) with port := 9 } default,
  .segAttn default { (default : Seg) with slot := 8192 },
  .segSample { (default : Pkt) with port := 9 } default,
  .segSample default { (default : Seg) with slot := 8192 },
  .regRsp { (default : Pkt) with port := 9 } 0,
  .ctrRead { (default : Pkt) with port := 9 } 0,
  .ctrRead default 4096,
  .ctrRsp { (default : Pkt) with port := 9 } 0 0,
  .ctrRsp default 4096 0,
  .ctrRsp default 0 18446744073709551616,
  .unreach 9 default,
  .unreach 0 { (default : Pkt) with port := 9 },
  .reqTimeout 16 0,
  .reqTimeout 0 65536,
  .fill { (default : Pkt) with port := 9 } default,
  .fill default { (default : PoolBlk) with rop := 4 },
  .copy { (default : Pkt) with port := 9 } default,
  .copy default { (default : PoolBlk) with rop := 4 },
  .compare { (default : Pkt) with port := 9 } default,
  .compare default { (default : PoolBlk) with rop := 4 },
  .reduce { (default : Pkt) with port := 9 } default,
  .reduce default { (default : PoolBlk) with rop := 4 },
  .atomicAdd { (default : Pkt) with port := 9 } default,
  .atomicAdd default { (default : PoolBlk) with rop := 4 },
  .cas { (default : Pkt) with port := 9 } default,
  .cas default { (default : PoolBlk) with rop := 4 },
  .acquireS { (default : Pkt) with port := 9 } default,
  .acquireS default { (default : PoolBlk) with rop := 4 },
  .acquireM { (default : Pkt) with port := 9 } default,
  .acquireM default { (default : PoolBlk) with rop := 4 },
  .writeback { (default : Pkt) with port := 9 } default [],
  .writeback default { (default : PoolBlk) with rop := 4 } [],
  .writeback default default (List.replicate 4033 0),
  .release { (default : Pkt) with port := 9 } default [],
  .release default { (default : PoolBlk) with rop := 4 } [],
  .release default default (List.replicate 4033 0),
  .renew { (default : Pkt) with port := 9 } default,
  .renew default { (default : PoolBlk) with rop := 4 },
  .leaseExpiry 8 0,
  .leaseExpiry 0 1048576,
  .recallTimeout 8 0,
  .recallTimeout 0 1048576,
  .extentDrained 8 0 0]

/-- Commands with one operand each that does not fit. -/
def ill6 : List Instr := [
  .extentDrained 0 64 0,
  .extentDrained 0 0 64,
  .extentZeroFillDone 8 0 0,
  .extentZeroFillDone 0 64 0,
  .extentZeroFillDone 0 0 64,
  .secondaryAckTimeout 8 0 0,
  .secondaryAckTimeout 0 64 0,
  .secondaryAckTimeout 0 0 64,
  .rebuildCopy 8 0 0,
  .rebuildCopy 0 64 0,
  .rebuildCopy 0 0 64,
  .gatherExpiry 8,
  .workListFix 8,
  .fixedListFix 8,
  .workListPublish 8,
  .wlWaitTimeout 8,
  .layerTimeout 8 0 0,
  .layerTimeout 0 18446744073709551616 0,
  .layerTimeout 0 0 8192,
  .bucketBuild 8 0,
  .bucketBuild 0 256,
  .attnLayerComplete 8 0 0,
  .attnLayerComplete 0 18446744073709551616 0,
  .attnLayerComplete 0 0 8192,
  .mergeTimeout 8 0 0,
  .mergeTimeout 0 18446744073709551616 0,
  .mergeTimeout 0 0 8192,
  .sampleRow 8 0 0,
  .sampleRow 0 18446744073709551616 0,
  .sampleRow 0 0 8192,
  .outHeadRefresh 8 0 0,
  .outHeadRefresh 0 131072 0,
  .outHeadRefresh 0 0 18446744073709551616,
  .bulkUnitComplete 8 0 false,
  .preemptSaveComplete 8 0,
  .restoreComplete 8 0,
  .demote 8 0,
  .demote 0 8,
  .pageMoveComplete 8 0,
  .pageMoveComplete 0 4294967296,
  .pageEncode 8 0,
  .pageEncode 0 4294967296,
  .fetchComplete 8 0 default,
  .fetchComplete 0 4294967296 default,
  .modelRunDispatch 8,
  .windowFill 8,
  .expansionServe 8,
  .consolidateFree 8]

/-- Commands with one operand each that does not fit. -/
def ill7 : List Instr := [
  .waitPoll 4096,
  .waitTimeout 4096,
  .gateBoundary 9,
  .captureStart 8,
  .copierCapture 8,
  .mirrorAckTimeout 8,
  .warnMeasure 256 0 0,
  .warnMeasure 0 256 0,
  .warnMeasure 0 0 18446744073709551616,
  .channelFatalFault 8 0,
  .channelFatalFault 0 256,
  .deviceFatalFault 256,
  .patrolScrub 8 0 false,
  .patrolScrub 0 18446744073709551616 false,
  .channelResetDone 8 false,
  .functionFenceEnd 256,
  .spectrumSample 128 0,
  .enclaveError 256,
  .porstNRise { (default : BootInput) with fid := 64 },
  .porstNRise { (default : BootInput) with adp := 16 },
  .porstNRise { (default : BootInput) with enclaveTestCause := 256 },
  .porstNRise { (default : BootInput) with tries := 16 },
  .thermtrip 24,
  .railFault 9,
  .pmbusPoll [],
  .smb1AlertN [],
  .thermalSample [],
  .bmcBlockWrite 1048576 none,
  .drainTmoExpiry 8,
  .scrubComplete 8 0 0,
  .scrubComplete 0 8 0,
  .scrubComplete 0 0 72057594037927936,
  .provisioningSequence [] (List.replicate 64 0) (List.replicate 64 0) (List.replicate 64 0),
  .provisioningSequence (List.replicate 16 0) [] (List.replicate 64 0) (List.replicate 64 0),
  .provisioningSequence (List.replicate 16 0) (List.replicate 64 0) [] (List.replicate 64 0),
  .provisioningSequence (List.replicate 16 0) (List.replicate 64 0) (List.replicate 64 0) []]

/-- A well-formed command of each constructor. -/
def well0 : List Instr := [
  .opNop default,
  .opBufRegister default 0 0 0,
  .opBufUnregister default 0,
  .opSessionOpen default 0 0 0 0 false 0 0 default,
  .opSessionClose default default,
  .opSessionPark default default,
  .opSessionRevive default default,
  .opSessionFork default default,
  .opSessionResume default default 0 0 false false,
  .opSessionSet default default 0 0 default false 0 false,
  .opSessionQuery default default 0,
  .opKvPrefetch default default 0 0,
  .opProfileSet default 0 default,
  .opKvAppend default default,
  .opAttnPrefill default default,
  .opAttnMerge default default,
  .opStep default default,
  .opTextIn default default,
  .opTokenizerLoad default default,
  .tokenizerUnload default default,
  .opSessionDraft default default,
  .opGrammarLoad default default,
  .grammarUnload default default,
  .opModelLoad default default,
  .modelUnload default default,
  .opModelRun default default,
  .opMirrorSnapshot default,
  .opMirrorRestore default restore0,
  .opMirrorRollback default rollback0,
  .sessionRollback default rollback0,
  .opPartitionSet default 0 default,
  .opExtentSet default 0 0 default,
  .opExtentRevoke default 0 0,
  .opRebuild default 0 0 default 0 0,
  .opPoolOp default 0 0 0 0 default,
  .opWaitCount default 0 0 0 0,
  .opLensCreate default default,
  .lensDestroy default,
  .opLensQuery default 0 0 0 0 0 [],
  .opLensInsert default 0 0 0 [] [],
  .opLensDelete default 0 0 [],
  .opLensConsolidate default,
  .opMergeTopk default 0 0 0 0 0 [],
  .ringReset .pin 0,
  .functionReset .pin 0,
  .channelReset .pin 0,
  .warmDeviceReset .pin,
  .opIrisSet default 0 .reserved]

/-- A well-formed command of each constructor. -/
def well1 : List Instr := [
  .opApertureSet default 0 false 0 0 0 [],
  .opCompositionSet default 0 0 false,
  .opCompositionRead default 0,
  .opEvidenceGet default (List.replicate 32 0) 0 0 false,
  .opKeyRelease default 0 0 default,
  .keyErase default 0,
  .opGroupKey default 0 0 default,
  .groupKeyErase default 0,
  .debugChallenge default 0,
  .debugSubmit default 0 0 default,
  .fwStage default 0 0 default,
  .fwActivate default,
  .fwCommitSvn default,
  .opRoleSet default 0 0 0,
  .opSpectrumSnapshot default 0 0 false,
  .cfgCommit .service 0,
  .cfgUnlock .service 0,
  .cfgDiscard .service 0,
  .ringEnable .service 0,
  .prtWdogKick .service,
  .prtPeerClear .service,
  .portEnable .service 0,
  .portDisable .service 0,
  .rewiden .service 0,
  .wlHeadWrite .service 0 0 0,
  .vecUnmask .service,
  .alertStatusClear .service 0,
  .poolLateWbClear .service 0,
  .regWrite .service 0 0 0,
  .notifyDb default 0 0 0 0,
  .dbPoll [],
  .descFetch 0 [],
  .descAdmit 0,
  .irisRefill,
  .descComplete 0 0,
  .intrTimer 0 0,
  .coalescePeriod,
  .partnerDetect 0 0,
  .signalDone 0 0,
  .equalizeDone 0 0,
  .alignDone 0 0,
  .linkMessage 0 .retrain,
  .trainingLimitExpiry 0,
  .laneLockLoss 0,
  .fecUncorrLimit 0,
  .linkDownTimeout 0,
  .downRetry 0,
  .flitReceive 0 (List.replicate 256 0)]

/-- A well-formed command of each constructor. -/
def well2 : List Instr := [
  .replayTimeout 0,
  .ackTimer 0,
  .readReq default 0 0,
  .readRsp default .none,
  .write default 0 [],
  .writeBulk default 0 [],
  .writeAck default 0,
  .poolRsp default 0 0,
  .segAttn default default,
  .segSample default default,
  .regRsp default 0,
  .ctrRead default 0,
  .ctrRsp default 0 0,
  .unreach 0 default,
  .reqTimeout 0 0,
  .fill default default,
  .copy default default,
  .compare default default,
  .reduce default default,
  .atomicAdd default default,
  .cas default default,
  .acquireS default default,
  .acquireM default default,
  .writeback default default [],
  .release default default [],
  .renew default default,
  .leaseExpiry 0 0,
  .recallTimeout 0 0,
  .extentDrained 0 0 0,
  .extentZeroFillDone 0 0 0,
  .secondaryAckTimeout 0 0 0,
  .rebuildCopy 0 0 0,
  .gatherExpiry 0,
  .workListFix 0,
  .fixedListFix 0,
  .workListPublish 0,
  .wlWaitTimeout 0,
  .layerTimeout 0 0 0,
  .bucketBuild 0 0,
  .attnLayerComplete 0 0 0,
  .mergeTimeout 0 0 0,
  .sampleRow 0 0 0,
  .outHeadRefresh 0 0 0,
  .bulkUnitComplete 0 0 false,
  .preemptSaveComplete 0 0,
  .restoreComplete 0 0,
  .demote 0 0,
  .pageMoveComplete 0 0]

/-- A well-formed command of each constructor. -/
def well3 : List Instr := [
  .pageEncode 0 0,
  .fetchComplete 0 0 default,
  .modelRunDispatch 0,
  .windowFill 0,
  .expansionServe 0,
  .consolidateFree 0,
  .waitPoll 0,
  .waitTimeout 0,
  .gateBoundary 0,
  .mirrorInterval,
  .captureStart 0,
  .copierCapture 0,
  .mirrorAckTimeout 0,
  .warnMeasure 0 0 0,
  .exceptionComplete 0,
  .watchdogExpiry,
  .fwRestartDone 0,
  .fwConfirm,
  .channelFatalFault 0 0,
  .deviceFatalFault 0,
  .patrolScrub 0 0 false,
  .channelResetDone 0 false,
  .functionFenceEnd 0,
  .spectrumSample 0 0,
  .enclaveError 0,
  .porstNFall,
  .porstNRise default,
  .warmNRise,
  .pwrcapChange false,
  .thermtrip 0,
  .pllLockLoss,
  .railFault 0,
  .pmbusPoll (List.replicate 9 default),
  .smb1AlertN (List.replicate 9 default),
  .avsAdjust false,
  .thermalSample (List.replicate 24 0),
  .powerControl 0,
  .bmcBlockWrite 0 none,
  .bmcBlockRead,
  .drainTmoExpiry 0,
  .scrubComplete 0 0 0,
  .provisioningSequence (List.replicate 16 0) (List.replicate 64 0) (List.replicate 64 0) (List.replicate 64 0)]

theorem test_ill_formed_refused : (ill0 ++ ill1 ++ ill2 ++ ill3 ++ ill4 ++ ill5 ++ ill6 ++ ill7).all (fun c => !c.wf) = true := by decide +kernel

theorem test_well_formed_taken : (well0 ++ well1 ++ well2 ++ well3).all (fun c => c.wf) = true ∧ (well0 ++ well1 ++ well2 ++ well3).length = 186 := by decide +kernel

/-! ### States for the witnesses -/

/-- The block up, with service firmware ready and the lifecycle FIELD. -/
def up0 : State :=
  { power := { porstN := true, clocks := true, pllLock := true }, encl := { state := .ready, fuses := { lifecycle := 2 } } }

/-- The last ring pair ACTIVE on the last line, with one entry read. -/
def ring0 (target owner : Nat) : Ring := { owner, line := 63, target, sqExp := 6, state := .active, sqTail := 1 }

/-- That ring for a function with an adapter and one buffer from address 0. -/
def withRing (target owner : Nat) (s : State) : State :=
  { s with rings := [(4095, ring0 target owner)]
           fns := [(owner, { enable := true, bufs := [(0, ⟨0, 0x10000000000, false⟩)] })] }

/-- A channel ACTIVE in a role. -/
def withChan (n : Nat) (role : Role) (c : Chan) (s : State) : State := s.setChan n { c with state := .active, role }

/-- A descriptor of that ring. -/
def d0 : Hdr := ⟨4095, 7, false, 63, 0, 65535⟩

/-- A ring of the port complex for F0, for F1, and a ring of channel 7 in a role for F0. -/
def pc0 : State := withRing 8 0 up0
def pc1 : State := withRing 8 1 up0
def ch7 (role : Role) (c : Chan) : State := withChan 7 role c (withRing 7 0 up0)

/-- A packet from the host adapter to the port complex, and one from a device to channel 7. -/
def pktHost : Pkt := { (default : Pkt) with port := 8, dstUnit := 8, srcFid := 0x40 }
def pkt7 : Pkt := { (default : Pkt) with port := 7, dstUnit := 7, srcFid := 63, srcUnit := 7 }

/-! ### Witnesses: the block as a whole -/

theorem witness_StepRunsTheFrontCommand : ({ up0 with pending := [.fwConfirm] } : State).pending = .fwConfirm :: [] := rfl

theorem witness_EmptyQueueLetsTimePass :
    (State.reset.pending = [] ∧ (State.reset.power.porstN && State.reset.power.clocks && State.reset.power.pllLock) = false) ∧
    (let s := { up0 with power := { up0.power with offline := true } }
     s.pending = [] ∧ (s.power.porstN && s.power.clocks && s.power.pllLock) = true ∧ s.up = false) ∧
    up0.pending = [] ∧ up0.up = true ∧ up0.power.pllLock = true ∧
      ∀ n < 8, (up0.chan n).switch = none ∧ (up0.chan n).pool.backlog = [] := by decide +kernel

theorem witness_CommandsAnswerAndKeepTheQueue : State.reset.up = false ∧ actsOnPins .fwConfirm = false := by decide +kernel

theorem witness_HeldAtResetIsKept : HeldAtReset State.reset ∧ ∃ t, step { State.reset with pending := [.porstNRise default] } = .next t :=
  ⟨fun _ => rfl, _, rfl⟩

theorem witness_FusesOnlyMoveForward :
    LifecycleKnown up0 ∧ ∃ t, step { up0 with pending := [.provisioningSequence [] [] [] []] } = .next t := ⟨show up0.encl.fuses.lifecycle ≤ 3 by decide +kernel, _, rfl⟩

theorem witness_PorstResetsAndBoots :
    up0.power.porstN = true ∧ State.reset.power.porstN = false ∧ (default : BootInput).enclaveTestCause = 0 ∧
      ({ (default : BootInput) with enclaveTestCause := 255 }).enclaveTestCause ≠ 0 := by decide +kernel

theorem witness_PinCommands : (23 : Nat) < 24 ∧ up0.power.porstN = true := by decide +kernel

/-! ### Witnesses: rings, completions and intake -/

theorem witness_NopPostsOneCompletion :
    (Accepts 0x00 d0 0 8 pc0 ∧ (pc0.ring d0.ring).usable = true ∧ d0.irq = false ∧ pc0.ops = []) ∧
      Accepts 0x00 d0 0 7 (ch7 .attn {}) := by decide +kernel

theorem witness_FailedCommonCheckOnlyCompletes :
    (pc0.up = true ∧ ringLive d0.ring pc0 = true ∧ pc0.encl.bootFailed = false) ∧
      commonCheck 0x11 d0 pc0 = some .ringTarget ∧ commonCheck 0x28 d0 pc0 = some .ringTarget ∧
      commonCheck 0x40 d0 (ch7 .model {}) = some .ringTarget ∧ commonCheck 0x52 d0 pc0 = some .notPermitted ∧
      commonCheck 0x58 d0 (ch7 .attn {}) = some .roleMismatch ∧ commonCheck 0x63 d0 pc0 = some .notPermitted ∧
      commonCheck 0x6C d0 pc1 = some .notPermitted := by decide +kernel

theorem witness_BuffersComeAndGo :
    (Accepts 0x01 d0 0 8 pc0 ∧ bufCheck 0 255 0x10000000000 0x10000000000 pc0 = none) ∧
      Accepts 0x02 d0 0 8 pc0 ∧ tget 0 (pc0.fn 0).bufs = some ⟨0, 0x10000000000, false⟩ ∧ pc0.ops = [] ∧ d0.irq = false ∧
      (pc0.ring d0.ring).usable = true := by decide +kernel

/-- The ring with three completions posted and none taken. -/
def posted3 : State := pc0.setRing 4095 { ring0 8 0 with cqPosted := 3 }

theorem witness_DoorbellsMoveTheirRing :
    Arrives pktHost posted3 ∧ pktHost.dstUnit = 8 ∧ fromFunction 255 pktHost.srcFid posted3 = false ∧
      (fromFunction 0 pktHost.srcFid posted3 = true ∧ (posted3.fn 0).resetRun = none ∧ posted3.mgmt.notifies < 1024 ∧
        ringOfLine 0 63 posted3 = some 4095) ∧
      (let r := posted3.ring 4095
       r.sqExp ≠ 0 ∧ (r.sqTail < 64 ∧ 64 ≤ r.sqHead + 2 ^ r.sqExp) ∧ (r.sqTail < 65 ∧ r.sqHead + 2 ^ r.sqExp < 65) ∧
         (r.cqHead < 3 ∧ 3 ≤ r.cqPosted) ∧ (r.cqHead < 4 ∧ r.cqPosted < 4)) ∧
      (posted3.ring 0).state ≠ .active ∧
      (let t := posted3.setRing 4095 { ring0 8 0 with sqExp := 0, cqPosted := 3 }
       (t.ring 4095).state = .active ∧ (t.ring 4095).sqExp = 0 ∧ (t.ring 4095).cqHead < 3 ∧ 3 ≤ (t.ring 4095).cqPosted) := by decide +kernel

/-- An OP_NOP as a ring holds it. -/
def nop0 : Fetched := ⟨0, 0, false, false, 63, 7, 0, 65535, 0⟩

theorem witness_DescriptorsAreFetched :
    ((pc0.ring 4095).state = .active ∧ (pc0.fn (pc0.ring 4095).owner).resetRun = none ∧ (pc0.ring 4095).sqHead < (pc0.ring 4095).sqTail ∧
      (3 ≤ ({ nop0 with size := 3 } : Fetched).size)) ∧
    (let t := pc0.setRing 4095 { ring0 8 0 with sqHead := 1, sqTail := 3 }
     (t.ring 4095).sqHead < (t.ring 4095).sqTail ∧ (t.ring 4095).sqHead % sizeEntries 1 ≠ 0) ∧
    (pc0.up = true ∧ nop0.size < 3 ∧ (pc0.ring 4095).sqHead % sizeEntries nop0.size = 0 ∧
      (pc0.ring 4095).sqHead + sizeEntries nop0.size ≤ (pc0.ring 4095).sqTail ∧
      (pc0.ring 4095).cqPosted - (pc0.ring 4095).cqHead + (pc0.ring 4095).reserved + needOf nop0.opcode ≤ 2 ^ (pc0.ring 4095).cqExp) := by
  decide +kernel

/-- The ring with an OP_NOP held, on a flow mapped to the last pair. -/
def held1 : State :=
  { pc0.setRing 4095 { ring0 8 0 with held := [nop0] } with
    flows := [(65535, ⟨4095, 0, true, 0⟩)], pairs := [(4095, { params := ⟨0, 0, 64, 64, false, false, 0⟩, c := 64000, p := 64000 })] }

theorem witness_HeadsAreAdmittedByTheirMeter :
    held1.up = true ∧ (held1.ring 4095).held = [nop0] ∧ headWaits 4095 nop0 held1 = false ∧ headCheck 4095 nop0 held1 = none ∧
      (held1.flow nop0.flow).owner = (held1.ring 4095).owner ∧ (held1.flow nop0.flow).mapped = true ∧
      (let p := held1.pair (held1.flow nop0.flow).pair
       let cost := costOf p.params.descriptors nop0
       ((min cost p.params.cbs : Nat) : Int) * 1000 ≤ p.c ∧ ((min cost p.params.pbs : Nat) : Int) * 1000 ≤ p.p) := by decide +kernel

/-- An operation that waits for its time, and a vector with a pending cause. -/
def timed0 : State :=
  { pc0 with ops := [⟨d0, 0, 0x68, 8, true, false, 0, [], .ready .ok [] []⟩], now := 9
             fns := [(0, { enable := true, vecs := [(63, ⟨false, 2, 9, 1, 0⟩), (62, ⟨true, 1, 0, 1, 0⟩)] })] }

theorem witness_TimedHostWork :
    timed0.up = true ∧ timed0.ops = [⟨d0, 0, 0x68, 8, true, false, 0, [], .ready .ok [] []⟩] ∧ d0.ring = 4095 ∧ d0.tag = 7 ∧
      (((timed0.fn 0).vec 63).mask = false ∧ ((timed0.fn 0).vec 63).pending ≠ 0 ∧
        ((timed0.fn 0).vec 63).time ≤ timed0.now - ((timed0.fn 0).vec 63).first) ∧
      ((timed0.fn 0).vec 62).mask = true ∧ fnOrF0 (.fn 0) (selOf (.fn 0) 0x060 timed0) = true ∧
      (unitMarked (timed0.fn 0).adapter 0 timed0 = false ∧ (timed0.fn 0).adapter ≠ timed0.fid ∧
        mustWait 7 0 (tagCount .write (.bytes [1])) timed0 = false) ∧ 8 ≤ (timed0.ring d0.ring).target := by decide +kernel

/-! ### Witnesses: resets, Iris, gates and waits -/

/-- The ring DISABLED, beside one of the same function on another line. -/
def off1 : State := pc0.setRing 0 { owner := 0, target := 8, cqExp := 6 }

theorem witness_RingsEnable :
    off1.up = true ∧ fnOrF0 (.fn 0) (off1.ring 0).owner = true ∧ (off1.ring 0).state = .disabled ∧ (off1.fn (off1.ring 0).owner).enable = true ∧
      (off1.fn (off1.ring 0).owner).resetRun = none ∧ off1.mgmt.resetBusy = false ∧ enableErr 0 off1 = none ∧
      enableErr 0 (off1.setRing 0 { owner := 0, target := 8, cqExp := 17 }) = some 1 ∧
      ((off1.setRing 0 { owner := 0, target := 8, sqExp := 3 }).ring 0).sqExp = 3 := by decide +kernel

theorem witness_RingResets :
    (Accepts 0x60 d0 0 8 off1 ∧ (0 : Nat) < 4096 ∧ (off1.ring 0).owner = 0 ∧ d0.ring ≠ 0 ∧ off1.ops = [] ∧ (off1.ring 0).accepted = [] ∧
      (off1.ring 0).held = []) ∧
    fnOrF0 (.fn 255) (off1.ring 0).owner = false ∧ (fnOrF0 (.fn 0) (off1.ring 0).owner = true ∧ (off1.ring 0).state = .disabled) ∧
    (off1.ring 4095).state ≠ .disabled := by decide +kernel

/-- The descriptor of an OP_RESET is the one thing its ring has accepted. -/
def reset1 : State :=
  { pc1 with rings := [(4095, { ring0 8 1 with accepted := [⟨0x60, 0, false, false, 63, 7, 0, 65535, 0⟩] })] }

theorem witness_FunctionResets :
    (Accepts 0x60 d0 1 8 reset1 ∧ (1 : Nat) < 256 ∧ reset1.ops = [] ∧ (reset1.fn 1).resetRun = none ∧ (reset1.fn 1).fence = false ∧
      reset1.rings = [(d0.ring, reset1.ring d0.ring)] ∧ (reset1.ring d0.ring).held = [] ∧
      (reset1.ring d0.ring).accepted = [⟨0x60, 0, d0.irq, false, d0.vector, d0.tag, d0.deadline, d0.flow, 0⟩] ∧ (reset1.fn 1).evValid = false) ∧
    (let s := up0.setFn 255 { enable := true, fence := true }
     s.up = true ∧ (s.fn 255).fence = true ∧ (s.fn 255).resetRun = none ∧ s.reqWait = []) := by decide +kernel

theorem witness_ChannelResets :
    (Accepts 0x60 d0 0 8 pc0 ∧ (7 : Nat) < 8 ∧ (pc0.chan 7).resetting = false ∧ pc0.loads = [] ∧ (pc0.chan 7).mirror.gen = 0) ∧
    Accepts 0x60 d0 1 8 pc1 ∧ Accepts 0x60 d0 0 8 (pc0.setChan 7 { resetting := true }) ∧
    (let s := up0.setChan 7 { resetting := true }
     s.up = true ∧ (s.chan 7).switch = none ∧ (s.chan 7).resetting = true) ∧
    (up0.chan 7).resetting = false := by decide +kernel

theorem witness_WarmResetBegins :
    Accepts 0x60 d0 0 8 pc0 ∧ pc0.mgmt.resetBusy = false ∧ Accepts 0x60 d0 1 8 pc1 ∧
      Accepts 0x60 d0 0 8 { pc0 with mgmt := { pc0.mgmt with resetBusy := true } } := by decide +kernel

theorem witness_IrisSettingsAndRefills :
    Accepts 0x61 d0 0 8 pc0 ∧ irisOk 65535 (.flow ⟨4095, 7, true, 255⟩) = true ∧
      irisOk 4095 (.pair ⟨200000, 200000, 4294967295, 1, false, false, 255⟩) = true ∧ ((71 : Nat) < 72 ∧ (200000 : Nat) ≤ 200000) ∧
      irisOk 72 (.shaper 0) = false ∧
      (up0.up = true ∧ up0.stagedFlows = [] ∧ up0.ops = [] ∧ ∀ e ∈ pc0.rings, e.2.held = []) := by decide +kernel

theorem witness_GateListsAndCompositions :
    (Accepts 0x62 d0 0 8 pc0 ∧ apertureCheck 0 7 true 1 0 [⟨64, default⟩] pc0 = none ∧
      apertureCheck 0 9 true 1 0 [⟨64, default⟩] pc0 = some .paramInvalid) ∧
    (Accepts 0x63 d0 1 8 pc1 ∧ EntryFree pc1 ∧ (63 : Nat) < 64 ∧ (64 : Nat) ≤ 64) ∧
    (Accepts 0x64 d0 0 8 pc0 ∧ rangeCheck 0 (0x10000000000 - 2048) 2048 pc0 = none) := by decide +kernel

/-- A wait on a counter of this device and one on another's. -/
def waits2 : State :=
  { pc0 with ops := [⟨{ d0 with ring := 1 }, 0, 0x55, 8, true, false, 0, [], .waitCount 0 4095 5 1⟩,
                     ⟨{ d0 with ring := 2 }, 0, 0x55, 8, true, false, 0, [], .waitCount 63 4095 5 0⟩] }

theorem witness_CountedWaits :
    (Accepts 0x55 d0 0 8 pc0 ∧ waitCheck d0 pc0.fid 4094 281474976710655 pc0 = none ∧ 0 ≤ (pc0.ring 4094).counter ∧
      (pc0.ring 4094).counter < 1) ∧
    (∃ op, waitOf 1 waits2 = some (op, 0, 4095, 5, 1) ∧ (0 : Nat) = waits2.fid) ∧ (∃ op, waitOf 2 waits2 = some (op, 63, 4095, 5, 0)) ∧
    ((63 : Nat) ≠ waits2.fid ∧ waits2.reqs.any (fun q => q.kind == .counter 2) = false ∧
      (sendReq 8 63 8 0 (.counter 2) .ctrRead 0 (.ask 4095) waits2).isOk = true) ∧
    (let s := { waits2 with peers := [(63, { down := true, units := 0x100#9 })] }
     (sendReq 8 63 8 0 (.counter 2) .ctrRead 0 (.ask 4095) s).isOk = false) ∧
    (let s := { waits2 with reqs := [{ unit := 8, req := 0, dstFid := 63, dstUnit := 8, port := 8, fn := 0, gen := 0, kind := .counter 2 }] }
     s.reqs.any (fun q => q.kind == .counter 2) = true) :=
  ⟨by decide +kernel, ⟨_, rfl, by decide +kernel⟩, ⟨_, rfl⟩, by decide +kernel, by decide +kernel, by decide +kernel⟩

/-- A list staged for the last port, from a time on. -/
def gate1 (base : Nat) : State :=
  up0.setGate 8 { staged := some { (default : GateList) with base } }

/-- A segment of the attention part of slot 0. -/
def seg16 : Seg := ⟨1, 0, 0, 4, true, 0, 0, 16, 0, List.replicate 16 0⟩

/-- FP3 with the list of R417's example in its second entry, and a segment that waits for class 6. -/
def gated : State :=
  { pc0 with gates := [(3, { running := ⟨true, 0, [⟨20000, 0x40⟩, ⟨80000, 0xBF⟩]⟩, current := 1, opens := 0xBF })]
             ports := [(3, { state := .active, credits := [18, 18, 18, 18] })]
             out := [.segment false 3 63 0 seg16], now := 20000 }

theorem witness_GateListsAndCompositions_closed :
    (0 : Nat) ≠ 2 ∧
    (turnOrder ((gated.port 3).txTurn.getD 0 0)).findSome? (fun q => (sourceNext 3 0 q gated).map (fun x => (q, x))) =
      some (8, 0, .segment false 3 63 0 seg16) ∧
    (gated.gate 3).opens.getLsbD (outClass (.segment false 3 63 0 seg16) gated) = false ∧
    openLeft (gated.gate 3).running (outClass (.segment false 3 63 0 seg16) gated) gated.now ≠ none := by
  decide +kernel

theorem witness_GateListsAndCompositions_boundary :
    (up0.up = true ∧ (up0.gate 8).running.enable = false ∧ (up0.gate 8).staged = none) ∧
    (((gate1 1).gate 8).running.enable = false ∧ ((gate1 1).gate 8).staged = some { (default : GateList) with base := 1 } ∧ (gate1 1).now < 1) ∧
    (((gate1 0).gate 8).staged = some { (default : GateList) with base := 0 } ∧ 0 ≤ (gate1 0).now ∧ (default : GateList).enable = false) := by
  decide +kernel

/-! ### Witnesses: sessions -/

/-- A profile of one layer and one KV head, and one of a model. -/
def prof1 : Profile := { (default : Profile) with layers := 1, kvHeads := 1, group := 1, maxPositions := 64, valid := true }
def prof2 : Profile := { prof1 with maxBatch := 1, maxTokens := 8, maxRows := 8, vocab := 2 }

/-- The header of a tokenizer image, a node of its trie and a slot of its hash table (R193, R194). -/
def tokHead (form vocab nodes maxLen : Nat) (secs : List (Nat × Nat)) : List Byte :=
  natLE 4 0x314B5447 ++ natLE 2 1 ++ natLE 2 form ++ natLE 4 vocab ++ natLE 4 nodes ++ natLE 4 0 ++ natLE 4 maxLen ++ natLE 4 0 ++ natLE 4 1 ++
    secs.flatMap (fun e => natLE 8 e.1 ++ natLE 8 e.2)
def node (base count byte : Nat) : Nat := base + count * 2 ^ 23 + byte * 2 ^ 32
def leafNode (byte token : Nat) : Nat := byte * 2 ^ 32 + token * 2 ^ 40 + 2 ^ 59
def hashSlot (id len heap : Nat) : Nat × Nat := (vocabHash id, id + 2 ^ 19 + len * 2 ^ 20 + heap * 2 ^ 32)

/-- A parameter image, and a tokenizer of the tokens "a" and "b". -/
def img1 : ParamImage :=
  { (default : ParamImage) with parkTier := 2, topP := 0x3F800000, repPenalty := 0x3F800000, utf8Policy := 2 }
def tokI : TokImage :=
  { (default : TokImage) with
    header := tokHead 0 2 3 1 [(256, 9216), (9472, 0), (9472, 0), (9472, 128), (9600, 24), (9664, 8388608), (8398272, 2)]
    split := List.replicate 128 0, trie := [node 1 2 0, leafNode 97 0, leafNode 98 1], slots := [hashSlot 0 1 0, hashSlot 1 1 1]
    heap := [97#8, 98#8] }

/-- The last session of channel 7 in a state, with its block and space to take. -/
def chanS (st : SessState) (e : Dir) : Chan :=
  { dirs := [(131071, { e with state := st, profile := 63, parkTier := if e.parkTier = 0 then 2 else e.parkTier })]
    sblks := [(131071, newSblk img1)], profiles := [(63, prof1), (62, prof2)], toks := [(0, { state := 2, image := some tokI })]
    t1 := { hi := 64 }, t2 := { hi := 64 } }

/-- Channel 7 serving ATTN with that session. -/
def sess (st : SessState) (e : Dir) : State := ch7 .attn (chanS st e)

/-- That session's handle. -/
def h0 : Handle := ⟨0, 7, 131071, 0, 1⟩

/-- The checks of an OPEN with no entry free are those of a full table; here one is free. -/
theorem witness_SessionsOpenAtTheLowestFreeEntry :
    (Accepts 0x10 d0 0 7 (sess .opened {}) ∧ (((sess .opened {}).chan 7).dirs.map (fun e : Nat × Dir => e.1)).Nodup) ∧
    openCheck 7 0 0 63 0 0 false 0 4096 img1 (sess .opened {}) = none ∧ EntryFree (sess .opened {}) ∧
    (((sess .opened {}).chan 7).takeBlock (wmOf 7 (sess .opened {})) 0).1.isSome = true ∧
    (((sess .opened {}).chan 7).takeBlock (wmOf 7 (sess .opened {})) 1).1.isSome = true ∧
    (let s := ch7 .attn { chanS .opened {} with t1 := {}, t2 := {} }
     openCheck 7 0 0 63 0 0 false 0 4096 img1 s = none ∧ ((s.chan 7).takeBlock (wmOf 7 s) 0).1 = none) ∧
    openCheck 7 0 0 62 0 0 false 0 4095 img1 (sess .opened {}) = some .paramInvalid ∧
    openCheck 7 0 0 63 1 0 false 0 4096 img1 (sess .opened {}) = some .paramInvalid ∧
    openCheck 7 0 0 63 0 0 false 0 0 img1 (sess .opened {}) = some .lenZero := by decide +kernel

/-- A channel whose every session is OPEN. -/
def fullDirs (n : Nat) : Tbl Dir := (List.range' 0 n).map (fun i => (i, { state := .opened }))
def sFull : State := ch7 .attn { chanS .opened {} with dirs := fullDirs 131072 }

theorem tget_range' {α : Type} (e : α) (n k i : Nat) (h : k ≤ i) (h2 : i < k + n) :
    tget i ((List.range' k n).map (fun j => (j, e))) = some e := by
  induction n generalizing k with
  | zero => omega
  | succ n ih =>
    by_cases hk : k = i
    · simp [List.range'_succ, tget, hk]
    · simp only [List.range'_succ, List.map_cons, tget, hk, if_false]
      exact ih (k + 1) (by omega) (by omega)

theorem sFull_dirs : (sFull.chan 7).dirs = fullDirs 131072 := rfl

theorem witness_SessionsOpenAtTheLowestFreeEntry_full :
    (((sFull.chan 7).dirs.map (fun e : Nat × Dir => e.1)).Nodup ∧
      (∀ i, ¬ (i < 131072 ∧ ((sFull.chan 7).dir i).state = .closed ∧ ((sFull.chan 7).dir i).count < 4294967295))) ∧
    (Accepts 0x10 d0 0 7 sFull ∧ sFull.mgmt.congested = false ∧ imageBuffer 0 0 4096 sFull = none ∧ ((sFull.chan 7).prof 63).valid = true ∧
      ((sFull.chan 7).tokImage 0).isSome = true ∧ imageOk img1 (sFull.chan 7) 0 0 0 false sFull = true) := by
  refine ⟨⟨?_, fun i h => ?_⟩, by decide +kernel⟩
  · rw [sFull_dirs, fullDirs, List.map_map]
    simpa [Function.comp_def] using List.nodup_range'
  · have : ((sFull.chan 7).dir i).state = .opened := by
      unfold Chan.dir
      rw [sFull_dirs, fullDirs, tget_range' _ _ _ _ (Nat.zero_le _) (by omega)]
      rfl
    exact absurd h.2.1 (by rw [this]; decide)

/-- The session with an open chunk; with one page mapped, shared so many times; and with no storage to take. -/
def chunked (st : SessState) : State := ch7 .attn { chanS st {} with chunks := [(131071, ⟨[(0, 1)], [], [0], 0, false⟩)] }
def shared (n : Nat) : State := ch7 .attn { chanS .stopped {} with maps := [(131071, [(0, ⟨5, false, true⟩)])], shares := [(5, n)] }
def bare (st : SessState) (e : Dir) : State := ch7 .attn { chanS st e with t1 := {}, t2 := {} }
/-- The session with an operation of the same kind queued. -/
def queued (st : SessState) (c : Instr) : State := ch7 .attn { chanS st {} with pend := [(131071, [c])] }

theorem witness_SessionsCloseForkAndResume :
    (opOf d0.ring d0.tag (sess .opened {}) = none ∧
      ∀ st ∈ [SessState.opened, .runnable, .waitingTool, .parked, .reviving, .stopped],
        OnSession 0x11 d0 h0 0 7 (sess st {}) ∧ judgeClose (((sess st {}).chan 7).dir 131071) = .act) ∧
    (OnSession 0x11 d0 h0 0 7 (sess .running {}) ∧ judgeClose (((sess .running {}).chan 7).dir 131071) = .defer ∧
      ((sess .running {}).chan 7).pendOf 131071 = []) ∧
    (OnSession 0x11 d0 h0 0 7 (queued .parking (.opSessionClose d0 h0)) ∧
      judgeClose (((queued .parking (.opSessionClose d0 h0)).chan 7).dir 131071) = .queue ∧
      (((queued .parking (.opSessionClose d0 h0)).chan 7).pendOf 131071).length = 1) ∧
    (OnSession 0x14 d0 h0 0 7 (sess .parked {}) ∧ judgeFork (((sess .parked {}).chan 7).dir 131071) = .fail .sessionNotResident) ∧
    (OnSession 0x15 d0 h0 0 7 (sess .running {}) ∧ judgeResume (((sess .running {}).chan 7).dir 131071) = .fail .sessionActive) := by
  decide +kernel

theorem witness_SessionsCloseForkAndResume_fork :
    (let s := sess .stopped { kvLen := 5 }
     let c := s.chan 7
     OnSession 0x14 d0 h0 0 7 s ∧ judgeFork (c.dir 131071) = .act ∧ tget 131071 c.chunks = none ∧ (c.prof 63).valid = true ∧
       c.descsOf 131071 = [] ∧ c.freeEntry = some 0 ∧ (forkSpace c (wmOf 7 s) 131071).1.isSome = true) ∧
    (OnSession 0x14 d0 h0 0 7 (chunked .stopped) ∧ (tget 131071 ((chunked .stopped).chan 7).chunks).isSome = true) ∧
    (OnSession 0x14 d0 h0 0 7 (shared 65535) ∧ ((shared 65535).chan 7).freeEntry = some 0 ∧
      (∃ x ∈ ((shared 65535).chan 7).descsOf 131071, 65535 ≤ ((shared 65535).chan 7).share x)) ∧
    (OnSession 0x14 d0 h0 0 7 (shared 65534) ∧ (∀ x ∈ ((shared 65534).chan 7).descsOf 131071, ((shared 65534).chan 7).share x < 65535)) ∧
    (OnSession 0x14 d0 h0 0 7 (bare .opened {}) ∧ (forkSpace ((bare .opened {}).chan 7) (wmOf 7 (bare .opened {})) 131071).1 = none) := by
  decide +kernel

/-- A full table: a session to fork in its first entry, and no entry is free. -/
def openDirs (k n : Nat) : Tbl Dir := (List.range' k n).map (fun i => (i, { state := .opened }))
def fork0 : Dir := { state := .opened, profile := 63, parkTier := 2 }
def sFullFork : State := ch7 .attn { chanS .opened {} with dirs := (0, fork0) :: openDirs 1 131071 }

theorem sFullFork_dirs : (sFullFork.chan 7).dirs = (0, fork0) :: openDirs 1 131071 := rfl

theorem sFullFork_dir (i : Nat) (h : i < 131072) : ((sFullFork.chan 7).dir i).state = .opened := by
  unfold Chan.dir
  rw [sFullFork_dirs]
  by_cases h0 : i = 0
  · simp [h0, tget, fork0]
  · rw [show ∀ (e : Dir) (t : Tbl Dir), tget i ((0, e) :: t) = tget i t from fun e t => by simp [tget, Ne.symm h0],
      openDirs, tget_range' _ _ _ _ (by omega) (by omega)]
    rfl

theorem sFullFork_used (i : Nat) (h : i < 131072) : i ∈ (sFullFork.chan 7).dirs.map (fun e => e.1) := by
  rw [sFullFork_dirs, openDirs, List.map_cons, List.map_map]
  by_cases h0 : i = 0
  · simp [h0]
  · exact List.mem_cons_of_mem _ (by simpa [Function.comp_def, List.mem_range'] using ⟨i - 1, by omega, by omega⟩)

theorem freeEntry_none (c : Chan) (h : ∀ i < 131072, i ∈ c.dirs.map (fun e => e.1) ∧ (c.dir i).state = .opened) : c.freeEntry = none := by
  unfold Chan.freeEntry
  dsimp only
  split
  · rename_i i hf
    split
    · rename_i hi
      obtain ⟨h1, -, -, -⟩ := firstFree_some hf
      exact absurd (List.mem_filter.mpr ⟨(h i hi).1, by rw [(h i hi).2]; rfl⟩) h1
    · rfl
  · rfl

theorem witness_SessionsCloseForkAndResume_full_table : (sFullFork.chan 7).freeEntry = none :=
  freeEntry_none _ (fun i hi => ⟨sFullFork_used i hi, sFullFork_dir i hi⟩)

theorem witness_SessionsCloseForkAndResume_full :
    OnSession 0x14 d0 ⟨0, 7, 0, 0, 1⟩ 0 7 sFullFork ∧ judgeFork ((sFullFork.chan 7).dir 0) = .act ∧
      (sFullFork.chan 7).freeEntry = none := by
  refine ⟨by decide +kernel, by decide +kernel, witness_SessionsCloseForkAndResume_full_table⟩

/-- The session with a tool tag, with tokens to run, and an active table with every entry taken. -/
def sTool : State := sess .waitingTool { toolTag := 9, kvLen := 5 }
def sAsqFull : State :=
  ch7 .attn { chanS .stopped { kvLen := 5 } with asq := (List.range 8192).map (fun i => (i, ⟨h0, 0, none, 0, 0, true⟩)) }

theorem witness_SessionsCloseForkAndResume_resume :
    (OnSession 0x15 d0 h0 0 7 sTool ∧ judgeResume ((sTool.chan 7).dir 131071) = .act ∧ ((sTool.chan 7).dir 131071).toolTag = 9 ∧
      ((sTool.chan 7).sblk 131071).isSome = true ∧ tget 131071 (sTool.chan 7).chunks = none ∧
      ((sTool.chan 7).dir 131071).kvLen ≠ 0 ∧ (sTool.chan 7).asq.length < 8192) ∧
    (OnSession 0x15 d0 h0 0 7 (chunked .stopped) ∧ ((((chunked .stopped).chan 7).sblk 131071).isSome = true)) ∧
    (let s := sess .opened {}
     OnSession 0x15 d0 h0 0 7 s ∧ ((s.chan 7).dir 131071).kvLen = 0 ∧ (s.chan 7).pendingOf 131071 = 0) ∧
    (OnSession 0x15 d0 h0 0 7 sAsqFull ∧ ((sAsqFull.chan 7).dir 131071).kvLen ≠ 0 ∧ 8192 ≤ (sAsqFull.chan 7).asq.length) := by decide +kernel

/-- OP_TEXT_IN of text to that session. -/
def text1 (b : List Byte) (last : Bool) : TextArgs := { (default : TextArgs) with handle := h0, textLen := b.length, text := b, last }

/-- The session RUNNABLE with one word queued. -/
def draftC : Chan :=
  { chanS .runnable { kvLen := 5, asqValid := true } with
    sblks := [(131071, { newSblk img1 with genLimitRun := 1 })], queues := [(131071, { words := [0] })] }

/-- A draft of one entry. -/
def draft1 : DraftArgs := ⟨h0, 0, 5, 1, [⟨1, [(1, 0x3F800000)]⟩]⟩

def sOpen : State := sess .opened {}
def sDraft : State := ch7 .attn draftC

/-- The session with a page at T3 to fetch. -/
def sSpilled : State :=
  ch7 .attn { chanS .opened {} with maps := [(131071, [(0, ⟨5, false, true⟩)])], pages := [(5, { residency := .spilled, loc := ⟨3, 0⟩ })] }

theorem witness_SessionsAreSetReadAndFed :
    (opOf d0.ring d0.tag sOpen = none ∧ OnSession 0x16 d0 h0 0 7 sOpen ∧ imageBuffer 0 0 4096 sOpen = none ∧ EntryFree sOpen ∧
      imageOk img1 (sOpen.chan 7) 0 0 0 false (takeEntry sOpen) = true ∧ judgeInput ((sOpen.chan 7).dir 131071) = .act ∧
      ((sOpen.chan 7).sblk 131071).isSome = true ∧ imageOk { img1 with parkTier := 5 } (sOpen.chan 7) 0 0 0 false (takeEntry sOpen) = false) ∧
    (OnSession 0x16 d0 h0 0 7 sDraft ∧ imageOk img1 (sDraft.chan 7) 0 0 0 false (takeEntry sDraft) = true ∧
      judgeInput ((sDraft.chan 7).dir 131071) = .fail .sessionActive) ∧
    (OnSession 0x17 d0 h0 0 7 sOpen ∧ rangeCheck 0 0 128 sOpen = none) ∧
    (OnSession 0x18 d0 h0 0 7 sOpen ∧ ((sOpen.chan 7).prof ((sOpen.chan 7).dir 131071).profile).layers = 1 ∧
      spilledOf (sOpen.chan 7) 131071 0 1 = []) ∧
    (OnSession 0x18 d0 h0 0 7 sSpilled ∧ spilledOf (sSpilled.chan 7) 131071 0 1 = [5]) := by decide +kernel

theorem witness_SessionsAreSetReadAndFed_text :
    (OnSession 0x30 d0 h0 0 7 sOpen ∧ textCheck 0 (text1 [] false) sOpen = none ∧ textCheck 0 (text1 [97#8] true) sOpen = none ∧
      judgeInput ((sOpen.chan 7).dir 131071) = .act ∧ ((sOpen.chan 7).tokImage 0).isSome = true ∧
      textCheck 0 { text1 [97#8] true with hostCopy := true } sOpen = some .lenZero ∧
      textCheck 0 { text1 [97#8] true with hostCopy := true, tokCap := 1, tokAddr := 4096 } sOpen = none) ∧
    (OnSession 0x30 d0 h0 0 7 sDraft ∧ judgeInput ((sDraft.chan 7).dir 131071) = .fail .sessionActive) ∧
    ((textRun tokI 0 {} [97#8] true).rejected = none ∧ (textRun tokI 0 {} [97#8] true).run.toks = [0] ∧
      (textRun tokI 2 {} [0xFF#8] true).rejected.isSome = true ∧ (textRun tokI 0 {} [97#8, 98#8] true).run.toks.length = 2) ∧
    (((sOpen.chan 7).touch 131071 none).joinQueue (wmOf 7 sOpen) 131071 [0]).1 = true ∧
    (let s := bare .opened {}
     (((s.chan 7).touch 131071 none).joinQueue (wmOf 7 s) 131071 [0]).1 = false) := by decide +kernel

def sProf : State := withChan 7 .attn (chanS .opened {}) pc0

theorem witness_SessionsAreSetReadAndFed_profile :
    Accepts 0x19 d0 0 8 sProf ∧ profileOk prof2 = true ∧ modelFieldsOk prof2 = true ∧ profileBusy 62 sProf = false ∧
      profileBusy 63 sProf = true := by decide +kernel

theorem witness_SessionsAreSetReadAndFed_draft :
    Accepts 0x38 d0 0 7 sDraft ∧ draft1.count ≠ 0 ∧ rangeCheck 0 draft1.addr 264 sDraft = none ∧ checkHandle h0 7 0 sDraft = none ∧
      draftCheck (sDraft.chan 7) draft1 = none ∧ ((sDraft.chan 7).dir 131071).asqValid = true ∧
      ((sDraft.chan 7).t1.take 0).1.isSome = true ∧ draftCheck (sDraft.chan 7) { draft1 with base := 4 } = some .draftStale := by decide +kernel

/-- An append of the only layer's first position, and a merge of two parts. -/
def append1 : AppendArgs := { (default : AppendArgs) with handle := h0, tokens := 1, toks := [0], tokAddr := 4 }
def merge1 : MergeArgs := { (default : MergeArgs) with count := 2, rows := 1, stride := 264 }

/-- The outcome of that append's reservation. -/
def reserve1 : Except (Status × Chan) (Tbl Nat × Tbl Nat × Chan) :=
  (sOpen.chan 7).reserve (wmOf 7 sOpen) 131071 [0] (layerLen (sOpen.chan 7) 131071 0) 1 (sOpen.chan 7).nextStep

/-- The session with the BULK queue full of host work. -/
def unit0 : BulkUnit := default
def sBulkFull : State := ch7 .attn { chanS .opened {} with bulk := List.replicate 9984 unit0 }

theorem witness_HostLayersAndMerges :
    (opOf d0.ring d0.tag sOpen = none ∧ judgeInput ((sOpen.chan 7).dir 131071) = .act ∧ appendOrder (sOpen.chan 7) append1 = none ∧
      (sOpen.chan 7).bulkFull = false ∧ reserve1.isOk = true) ∧
    (OnSession 0x20 d0 h0 0 7 sOpen ∧ appendCheck (sOpen.chan 7) 0 append1 false sOpen = none) ∧
    (OnSession 0x21 d0 h0 0 7 sOpen ∧ appendCheck (sOpen.chan 7) 0 append1 true sOpen = none) ∧
    appendCheck (sOpen.chan 7) 0 { append1 with layer := 1 } false sOpen = some .paramInvalid ∧
    (OnSession 0x20 d0 h0 0 7 (sess .reviving {}) ∧ appendCheck ((sess .reviving {}).chan 7) 0 append1 false (sess .reviving {}) = none ∧
      judgeInput (((sess .reviving {}).chan 7).dir 131071) = .queue) ∧
    appendOrder (sOpen.chan 7) { append1 with tokens := 65 } = some .contextLimit ∧
    (Accepts 0x22 d0 0 7 sOpen ∧ mergeCheck 0 merge1 sOpen = none ∧ mergeCheck 0 { merge1 with count := 1 } sOpen = some .paramInvalid) := by
  decide +kernel

theorem witness_HostLayersAndMerges_full :
    (OnSession 0x20 d0 h0 0 7 sBulkFull ∧ appendCheck (sBulkFull.chan 7) 0 append1 false sBulkFull = none ∧
      appendOrder (sBulkFull.chan 7) append1 = none ∧ (sBulkFull.chan 7).bulkFull = true) ∧
    (let s := bare .opened {}
     OnSession 0x20 d0 h0 0 7 s ∧ appendOrder (s.chan 7) append1 = none ∧ (s.chan 7).bulkFull = false ∧
       ((s.chan 7).reserve (wmOf 7 s) 131071 [0] (layerLen (s.chan 7) 131071 0) 1 (s.chan 7).nextStep).isOk = false) := by decide +kernel

/-- The session to park to T2; to park to T4, with the region set and not set; PARKED; and PARKED with its block at T4. -/
def sT2 : State := sess .stopped { parkTier := 2, stackMode := 2 }
def sNo4 : State := sess .stopped { parkTier := 4, stackMode := 2 }
def sT4 : State := { sNo4 with regs := [(chanBase 7 + 0x060, 0x4080)] }
def sParked : State := sess .parked { savedState := .stopped }
def sFar : State :=
  ch7 .attn { chanS .parked { savedState := .stopped, sblk := ⟨4, 0⟩ } with parkRuns := [(131071, [(⟨4, 0⟩, 0, 0), (⟨4, 64⟩, 0, 0)])] }

theorem witness_SessionsParkAndRevive_park :
    (OnSession 0x12 d0 h0 0 7 sT2 ∧ opOf d0.ring d0.tag sT2 = none ∧ judgePark ((sT2.chan 7).dir 131071) = .act ∧
      tget 131071 (sT2.chan 7).chunks = none ∧ (parkPlan 7 131071 sT2.freeIx sT2).1.isSome = true ∧
      (((parkPlan 7 131071 sT2.freeIx sT2).2).dir 131071).parkTier = 2) ∧
    (OnSession 0x12 d0 h0 0 7 sT4 ∧ (parkPlan 7 131071 sT4.freeIx sT4).1.isSome = true ∧
      (((parkPlan 7 131071 sT4.freeIx sT4).2).dir 131071).parkTier = 4) ∧
    (OnSession 0x12 d0 h0 0 7 sNo4 ∧ (parkPlan 7 131071 sNo4.freeIx sNo4).1 = none) ∧
    (OnSession 0x12 d0 h0 0 7 (chunked .stopped) ∧ (tget 131071 ((chunked .stopped).chan 7).chunks).isSome = true) ∧
    (OnSession 0x12 d0 h0 0 7 (sess .parked {}) ∧ judgePark (((sess .parked {}).chan 7).dir 131071) = .fail .sessionState) := by decide +kernel

theorem witness_SessionsParkAndRevive_revive :
    (OnSession 0x13 d0 h0 0 7 sParked ∧ ((sParked.chan 7).dir 131071).savedState = .stopped ∧ tget 131071 (sParked.chan 7).parkRuns = none ∧
      tget 131071 (sParked.chan 7).parkedMaps = none ∧ (sParked.chan 7).pendOf 131071 = [] ∧ sParked.ops = []) ∧
    (OnSession 0x13 d0 h0 0 7 sFar ∧ ((sFar.chan 7).dir 131071).state = .parked ∧ (tget 131071 (sFar.chan 7).parkRuns).isSome = true ∧
      3 ≤ ((sFar.chan 7).dir 131071).sblk.tier ∧ unitMarked (locTarget 7 ⟨4, 0⟩ sFar).1 (locTarget 7 ⟨4, 0⟩ sFar).2.1 sFar = false) ∧
    (let s := { sFar with peers := [((locTarget 7 ⟨4, 0⟩ sFar).1, { down := true, units := BitVec.ofNat 9 (2 ^ (locTarget 7 ⟨4, 0⟩ sFar).2.1) })] }
     OnSession 0x13 d0 h0 0 7 s ∧ unitMarked (locTarget 7 ⟨4, 0⟩ s).1 (locTarget 7 ⟨4, 0⟩ s).2.1 s = true ∧ s.ops = [] ∧
       ((s.chan 7).dir 131071).streaming = false) ∧
    (OnSession 0x13 d0 h0 0 7 (sess .opened {}) ∧ judgeRevive (((sess .opened {}).chan 7).dir 131071) = .fail .sessionState) ∧
    (OnSession 0x13 d0 h0 0 7 (sess .parking {}) ∧ judgeRevive (((sess .parking {}).chan 7).dir 131071) = .queue) := by decide +kernel

/-! ### Witnesses: loads, model runs and steps -/

/-- Channels that can hold tokenizers and models, and a load of the highest slot onto channel 7. -/
def sLoad (role : Role) : State :=
  { withChan 7 role (chanS .closed {}) pc0 with profiles := [(62, prof2)], regs := [(chanBase 7 + 0x070, 1)] }
def load (slot : Nat) : LoadArgs := { (default : LoadArgs) with slot, channels := 0x80#8, len := 4096 }

theorem witness_SlotsLoadAndUnload :
    loadChans (load 15) = [7] ∧ EntryFree (sLoad .attn) ∧
    (Accepts 0x31 d0 0 8 (sLoad .attn) ∧ loadCheck 0 0 (load 15) true (sLoad .attn) = none ∧ loadCheck 0 0 (load 15) false (sLoad .attn) = none ∧
      (takePrisms 1073741825 [7] (takeEntry (sLoad .attn)) []).isNone = true ∧
      (takePrisms 4096 [7] (takeEntry (sLoad .attn)) []).isSome = true ∧ unitMarked ((sLoad .attn).fn 0).adapter 0 (sLoad .attn) = false ∧
      ((sLoad .attn).fn 0).adapter ≠ (sLoad .attn).fid ∧ loadCheck 0 0 (load 16) true (sLoad .attn) = some .paramInvalid ∧
      loadCheck 0 0 (load 16) false (sLoad .attn) = some .paramInvalid) := by decide +kernel

theorem witness_SlotsLoadAndUnload_others :
    (Accepts 0x39 d0 0 8 (sLoad .attn) ∧ loadCheck 1 0 (load 63) true (sLoad .attn) = none ∧ loadCheck 1 0 (load 63) false (sLoad .attn) = none ∧
      loadCheck 1 0 (load 64) true (sLoad .attn) = some .paramInvalid) ∧
    (Accepts 0x40 d0 0 8 (sLoad .model) ∧ modelLoadCheck 0 (load 62) true (sLoad .model) = none ∧
      modelLoadCheck 0 (load 62) false (sLoad .model) = none ∧ modelLoadCheck 0 (load 64) true (sLoad .model) = some .paramInvalid) := by
  decide +kernel

/-- A model READY with one streamed layer, and a run of it. -/
def imgM : ModelImage := { (default : ModelImage) with layers := [{ (default : ModelLayer) with stream := true, wLen := 671088640 }] }
def run1 : RunArgs :=
  { (default : RunArgs) with profile := 62, steps := 1, count := 1, support := 32, dataLen := 4, outLen := 1048576, inputs := [{ (default : RunInput) with len := 1, toks := [1] }] }
def chanM (runs : List ModelRun) : Chan :=
  { chanS .closed {} with profiles := [(62, { prof2 with mPlace := 1 })], models := [(62, { state := 2, image := some imgM })], runs }
def sRun (runs : List ModelRun) : State := ch7 .model (chanM runs)

/-- That run accepted, and dispatched; and a later one of a text that proves too long. -/
def mrun (dispatched : Bool) : ModelRun := { id := 0, ring := 1, tag := 1, deadline := none, a := run1, dispatched }
def text8 : RunArgs := { run1 with text := true, inputs := [{ (default : RunInput) with len := 9, text := List.replicate 9 97#8 }] }

theorem witness_ModelRunsAreAcceptedAndDispatched :
    (Accepts 0x41 d0 0 7 (sRun []) ∧ runCheck 7 0 run1 (sRun []) = none ∧ runCheck 7 0 { run1 with count := 0 } (sRun []) = some .lenZero ∧
      ((sRun []).chan 7).runs = [] ∧ ((sRun []).chan 7).running = none) ∧
    (((sRun [mrun true]).chan 7).running = some (mrun true) ∧ (((sRun [mrun true]).chan 7).model 62).resident = false ∧
      mayReside ((sRun [mrun true]).chan 7) 62 = false ∧ layersOf ((sRun [mrun true]).chan 7) 62 = imgM.layers ∧
      (imgM.layers.map (fun l => (l.stream, l.wLen))) = [(true, 671088640)] ∧
      ((sRun [mrun true]).chan 7).window = {} ∧ ((sRun [mrun true]).chan 7).bulk = []) ∧
    (((sRun [mrun false]).chan 7).running = none ∧ nextRun ((sRun [mrun false]).chan 7).runs = some (mrun false) ∧
      lateCheck (((sRun [mrun false]).chan 7).prof 62) run1 (runTokens ((sRun [mrun false]).chan 7) run1).1 = none) ∧
    (let r := { mrun false with a := text8 }
     ((sRun [r]).chan 7).running = none ∧ nextRun ((sRun [r]).chan 7).runs = some r ∧
       lateCheck (((sRun [r]).chan 7).prof 62) text8 (runTokens ((sRun [r]).chan 7) text8).1 = some .paramInvalid) := by
  decide +kernel

/-- The session with one word queued and listed; in FIXED mode with an OP_STEP that waits. -/
def asq1 : Asq := ⟨h0, 0, none, 0, 0, true⟩
def chanQ : Chan := { chanS .runnable { kvLen := 5, asqValid := true } with asq := [(0, asq1)], queues := [(131071, { words := [0] })] }
def regsQ (fixed : Nat) : Tbl Nat :=
  [(chanBase 7 + 0x008, fixed), (chanBase 7 + 0x010, 2048 * 2 ^ 32 + 8192), (chanBase 7 + 0x100, 0x10C01)]
def sTable : State := { ch7 .attn chanQ with regs := regsQ 0 }
def step1 : StepArgs := ⟨1, 0, 0, [⟨h0, 1, 0⟩]⟩
def sFixed : State := { ch7 .attn chanQ with regs := regsQ 1, ops := [⟨d0, 0, 0x28, 7, false, false, 0, [], .stepWait 7 step1⟩] }
def noOps (s : State) : State := { s with ops := [] }

theorem witness_WorkListsAreFixed :
    (Accepts 0x28 d0 0 7 sTable ∧ fixedMode 7 sTable = false) ∧
    (Accepts 0x28 d0 0 7 (noOps sFixed) ∧ stepCheck 7 0 step1 (noOps sFixed) = none) ∧
    (mayFix 7 sTable = true ∧ gatherOver 7 sTable = true ∧ (sTable.chan 7).candidates = [asq1] ∧ (sTable.chan 7).isCandidate 131071 = true ∧
      0 < stepSeqs 7 sTable ∧ 0 < stepTokens 7 sTable ∧ (sTable.chan 7).pendingOf 131071 = 1 ∧
      (listSession 1 1 (chooseDriver (enabledSubs 7 sTable) (some asq1) []) h0 (wmOf 7 sTable) (sTable.chan 7)).isOk = true) ∧
    (mayFix 7 sFixed = true ∧ fixedMode 7 sFixed = true ∧ (waitingStep 7 sFixed).isSome = true ∧ checkHandle h0 7 0 sFixed = none ∧
      checkHandle { h0 with count := 2 } 7 0 sFixed = some .sessionStale ∧
      (listSession 1 1 0 h0 (wmOf 7 sFixed) (sFixed.chan 7)).isOk = true) ∧
    (mayFix 0 sTable = false ∧ waitingStep 7 sTable = none) := by decide +kernel

/-- A list of one sequence, fixed and not published, and published; waiting; and with no subscriber. -/
def slot1 : Slot :=
  { index := 131071, handle := h0, tokens := [0], driver := 0, kvStart := 5, deadline := none, samples := true, rows := 1, drafts := [] }
def stepOf1 (pub : Bool) (wait : Option Nat) (x : Slot) : StepRec :=
  { num := 1, fixed := false, deadline := none, slots := [x], published := pub, closed := false, waitSince := wait }
def sStep (pub : Bool) (wait : Option Nat) (x : Slot) : State :=
  { ch7 .attn { chanS .running { kvLen := 5 } with steps := [stepOf1 pub wait x] } with regs := regsQ 0 }

theorem witness_WorkListsArePublished :
    (sTable.chan 7).unpublished = none ∧
    (((sStep false none slot1).chan 7).unpublished = some (stepOf1 false none slot1) ∧ enabledSubs 7 (sStep false none slot1) = [0] ∧
      wlSpace 7 0 (listLength [slot1]) (sStep false none slot1) = true ∧ wlPad 7 0 (listLength [slot1]) (sStep false none slot1) = 0) ∧
    enabledSubs 7 { sStep false none slot1 with regs := [] } = [] ∧
    (enabledSubs 7 { sStep false none slot1 with regs := [(chanBase 7 + 0x100, 0x10001)] } = [0] ∧
      wlSpace 7 0 (listLength [slot1]) { sStep false none slot1 with regs := [(chanBase 7 + 0x100, 0x10001)] } = false) ∧
    ((sStep false (some 9) slot1).chan 7).unpublished = some (stepOf1 false (some 9) slot1) ∧
    (writePermitted (.fn 1) (chanBase 7 + 0x200) .wlHead sTable = false ∧ writePermitted (.fn 0) (chanBase 7 + 0x238) .wlHead sTable = true ∧
      wlHead 7 7 sTable ≤ 0 ∧ (tget 7 (sTable.chan 7).wlTail).getD 0 = 0) := by decide +kernel

/-- A segment of that sequence. -/
def seg1 (part len : Nat) : Seg := { (default : Seg) with stepLo := 1, part, len, data := List.replicate len 0, last := true }
def ctrl1 : Ctrl := { (default : Ctrl) with handle := h0, tokens := 1 }
def sPub (x : Slot) : State := sStep true none x
def slotQ (ph : Phase) (c : Option Ctrl) : Slot := { slot1 with phase := ph, ctrl := c }
def prof3 : Profile := { prof1 with layers := 2 }
def sTwo : State :=
  ch7 .attn { chanS .running { kvLen := 5 } with profiles := [(63, prof3)], steps := [stepOf1 true none (slotQ .tiles (some ctrl1))] }

theorem witness_SequencesRunTheirLayers :
    (Arrives pkt7 (sPub slot1) ∧ (8 : Nat) ≠ pkt7.dstUnit ∧ segSlot ((sPub slot1).chan 7) 2 0 = none ∧
      segSlot ((sPub slot1).chan 7) 1 0 = some (1, slot1)) ∧
    ((addInput prof1 slot1 (seg1 0 63)).bind (takeCtrl prof1) = none ∧ ((addInput prof1 slot1 (seg1 1 128)).bind (takeCtrl prof1)).isSome = true) ∧
    (slotsIn ((sPub (slotQ .ready (some ctrl1))).chan 7) .held = [] ∧
      buildSlots ((sPub (slotQ .ready (some ctrl1))).chan 7) 0 = [(1, 0, slotQ .ready (some ctrl1))]) ∧
    ((sTwo.chan 7).slotOf 1 0 = some (slotQ .tiles (some ctrl1)) ∧ ctrl1.merges = false ∧ ctrl1.isPartial = false ∧
      ((sTwo.chan 7).prof ((sTwo.chan 7).dir 131071).profile).layers = 2 ∧ (sTwo.chan 7).slotOf 1 1 = none) ∧
    ((sPub slot1).chan 7).stepOf 1 = some (stepOf1 true none slot1) := by decide +kernel

theorem witness_SequencesRunTheirLayers_segments :
    (Arrives pktHost up0 ∧ pktHost.dstUnit = 8) ∧
    (segSlot ((sPub slot1).chan 7) 1 0 = some (1, slot1) ∧ (6 : Nat) ≤ (seg1 6 16).part ∧ (5 : Nat) = (seg1 5 16).part ∧
      addShard prof1 slot1 (seg1 5 16) = none ∧ (addShard prof1 slot1 { seg1 5 16 with rank := 1 }).isSome = true ∧
      (addShard prof1 slot1 { seg1 4 16 with rank := 15 }).isSome = true ∧ (seg1 0 16).part ≠ 1) ∧
    (((sTable).chan 7).slotOf 1 0 = none ∧ ((sPub slot1).chan 7).slotOf 1 0 = some slot1 ∧ slot1.phase ≠ .tiles) ∧
    (((sPub (slotQ .merge (some ctrl1))).chan 7).slotOf 1 0 = some (slotQ .merge (some ctrl1))) := by decide +kernel

/-- The sequence with its logits begun, and ready to sample. -/
def xLogits : Slot := slotQ .logits (some ctrl1)
def sLogits : State := sPub xLogits
def sSamp : State := sPub (slotQ .sampling (some ctrl1))

theorem witness_RowsAreSampled :
    (Arrives pkt7 sLogits ∧ segSlot (sLogits.chan 7) 1 0 = some (1, xLogits) ∧ rowSize (logitFmt 7 sLogits) 2 = 16 ∧
      (addLogits 16 xLogits { seg1 1 16 with last := false }).isSome = true ∧
      ((addLogits 16 xLogits { seg1 1 16 with last := false }).map (fun y => ((tget 0 y.logits).getD {}).complete 16)) = some false) ∧
    (((sSamp.chan 7).slotOf 1 0).map (fun x => x.phase) = some .sampling ∧ ((sSamp.chan 7).tokImage 0).isSome = true ∧
      ((sSamp.chan 7).sblk 131071).isSome = true ∧ ((sSamp.chan 7).dir 131071).grammarEn = false ∧
      ((sLogits.chan 7).slotOf 1 0).map (fun x => x.phase) = some .logits) := by decide +kernel

/-! ### Witnesses: BULK units, pages and Mirror -/

/-- A host-issued append on all tiles, saving, and restoring; and a prefill over a page in a residency. -/
def unit1 : BulkUnit :=
  { id := 9, width := 1, deadline := none, acceptedAt := 0, tiles := List.range 64, work := .append 4095 7 append1 false 0 [] [] }
def pre1 : BulkUnit := { unit1 with work := .append 4095 7 append1 true 0 [] [] }
def op9 : RunOp := ⟨d0, 0, 0x20, 7, false, false, 0, [], .bulk 7 9⟩
def sUnit (u : BulkUnit) : State := { ch7 .attn { chanS .opened {} with bulk := [u] } with ops := [op9] }
def sPre (r : Residency) : State :=
  { ch7 .attn { chanS .opened {} with bulk := [pre1], maps := [(131071, [(0, ⟨5, false, true⟩)])], pages := [(5, { residency := r, loc := ⟨3, 0⟩ })] } with
    ops := [op9] }

theorem witness_BulkUnitsEnd :
    runningUnit (sOpen.chan 7) 9 = none ∧
    (runningUnit ((sPre .spilled).chan 7) 9 = some pre1 ∧ unitWaits ((sPre .spilled).chan 7) pre1.work = some (131071, [5])) ∧
    (runningUnit ((sPre .resident).chan 7) 9 = some pre1 ∧ unitWaits ((sPre .resident).chan 7) pre1.work = none) ∧
    (runningUnit ((sUnit unit1).chan 7) 9 = some unit1 ∧ opOf 4095 7 (sUnit unit1) = some op9 ∧ (sUnit unit1).ops = [op9] ∧
      checkHandle h0 7 0 (sUnit unit1) = none ∧ op9.detached = false ∧ unit1.deadline = none ∧ d0.irq = false ∧
      ((sUnit unit1).ring 4095).usable = true ∧ { sUnit unit1 with now := 1000000 }.mgmt.congested = false) ∧
    (opOf 4095 7 (sPre .lost) = some op9 ∧ checkHandle h0 7 0 (sPre .lost) = none ∧
      jobReady ((sPre .lost).chan 7) (hostJob append1 0 []) = .lost ∧ jobReady ((sPre .resident).chan 7) (hostJob append1 0 []) = .ready ∧
      checkHandle { h0 with count := 9 } 7 0 (sPre .lost) = some .sessionStale) := by decide +kernel

/-- An image on tile 63 and in save slot 7. -/
def tile1 : Nat := 41
def saved1 : BulkUnit := { unit1 with tiles := [63], saved := [7] }

theorem witness_BulkUnitsEnd_save :
    (let s := sUnit { saved1 with saving := true }
     (s.chan 7).bulk.find? (fun u => u.id == 9 && u.saving) = some { saved1 with saving := true } ∧ 9 ∉ (s.chan 7).bulkShare ∧
       saved1.saved.Nodup ∧ saved1.tiles[0]? = some 63 ∧ saved1.saved[0]? = some 7) ∧
    (let s := sUnit { saved1 with restoring := true }
     (s.chan 7).bulk.find? (fun u => u.id == 9 && u.restoring) = some { saved1 with restoring := true } ∧ saved1.tiles.Nodup) ∧
    ((sOpen.chan 7).bulk.find? (fun u => u.id == 9 && u.saving) = none ∧ (sOpen.chan 7).bulk.find? (fun u => u.id == 9 && u.restoring) = none) ∧
    (let s := ch7 .attn { chanS .opened {} with bulk := [{ saved1 with saving := true }], t0 := [(63, tile1)] }
     let u := ch7 .attn { chanS .opened {} with bulk := [{ saved1 with restoring := true }], saves := [(7, tile1)] }
     tget 63 (s.chan 7).t0 = some tile1 ∧ tget 7 (u.chan 7).saves = some tile1) := by decide +kernel

/-- The last page descriptor in a residency, moving to another granule. -/
def page1 (r : Residency) : Page := { loc := ⟨1, 0⟩, residency := r, dest := some (⟨2, 5⟩, 0), len := 512, storedLen := 2 }
def sPage (r : Residency) : State :=
  { ch7 .attn { chanS .opened {} with pages := [(16777215, page1 r)], t2 := { hi := 64, runs := [(5, 0)], scrub := [5] } } with
    regs := [(chanBase 7 + 0x048, 64)] }

/-- An envelope of no image. -/
def env1 : Envelope := default

theorem witness_PagesMove :
    (1 ∉ ((sPage .moving).chan 7).demoting ∧ (((sPage .moving).chan 7).tier 1).use ≤ (wmOf 7 (sPage .moving)).h1 ∧
      (((sPage .moving).chan 7).tier 2).use ≤ (wmOf 7 (sPage .moving)).h2 ∧ spillTier 7 (sPage .moving) = 0) ∧
    (((sPage .moving).chan 7).page 16777215 = page1 .moving ∧ ((sPage .spilling).chan 7).page 16777215 = page1 .spilling ∧
      ((sPage .fetching).chan 7).page 16777215 = page1 .fetching ∧ ((sPage .moving).chan 7).doomed = [] ∧
      (page1 .moving).residency ≠ .resident ∧ (page1 .fetching).dest = some (⟨2, 5⟩, 0)) ∧
    (((sPage .resident).chan 7).page 16777215 = page1 .resident ∧ (page1 .resident).residency ≠ .moving ∧ (page1 .resident).residency ≠ .fetching) ∧
    openEnvelope ((sPage .fetching).chan 7) (pageExpect (sPage .fetching).fid 7 (page1 .fetching)) env1 = .error 1 ∧
    (5 ∈ ((sPage .moving).chan 7).t2.scrub ∧ 4 ∉ ((sPage .moving).chan 7).t2.scrub) := by decide +kernel

/-- An envelope is accepted where its tag verifies: with the key of slot 0 loaded, one of 224 bytes in MODE_C verifies or not as the
cipher says. -/
def envC : Envelope := { env1 with magic := 0x31564E45, mode := 2, codec := 0, keySlot := 0, keyGen := 0, bodyLen := 224, body := List.replicate 224 0 }
def sEnv : Chan := { chanS .opened {} with keys := [(0, { loaded := true, key := 3 })] }

theorem witness_PagesMove_accepted (x : Expect) (p : List Byte) (hm : x.mode = 2) (hc : x.codec = 0) (hs : x.slot = 0)
    (hl : x.stored = framed 2 224) (h : Config.gcmOpen 3 envC.nonce (envHeader envC ++ x.binding) envC.body envC.tag = some p) :
    openEnvelope sEnv x envC = .ok p := by
  have hk : tget 0 sEnv.keys = some { loaded := true, key := 3 } := rfl
  have h1 : envC.magic = 0x31564E45 := rfl
  have h2 : envC.mode = 2 := rfl
  have h3 : envC.codec = 0 := rfl
  have h4 : envC.keySlot = 0 := rfl
  have h5 : envC.keyGen = 0 := rfl
  have h6 : envC.bodyLen = 224 := rfl
  have h7 : envC.body.length = 224 := by decide +kernel
  simp [openEnvelope, hk, h1, h2, h3, h4, h5, h6, h7, hm, hc, hs, hl, h]

/-- Tier 1 above its high watermark with nothing to demote, and with a page to demote. -/
def sHot : State := { ch7 .attn { chanS .opened {} with t1 := { hi := 64, runs := [(0, 5)] } } with regs := [(chanBase 7 + 0x040, 1)] }
def sHotPage : State :=
  { ch7 .attn { chanS .opened {} with t1 := { hi := 64, runs := [(0, 5)] }, pages := [(16777215, { loc := ⟨1, 0⟩, residency := .resident })] } with regs := [(chanBase 7 + 0x040, 1)] }

/-- A channel as a demotion of T1 finds it. -/
def demoting1 (s : State) : Chan := ({ s.chan 7 with demoting := 1 :: (s.chan 7).demoting.erase 1 } : Chan).withRegions 7 s

theorem witness_PagesMove_demote :
    ((wmOf 7 sHot).h1 < (sHot.chan 7).t1.use ∧ (wmOf 7 sHot).l1 < (demoting1 sHot).t1.use - (demoting1 sHot).leaving 1 ∧
      (demoting1 sHot).admitJobs.mayStart (deviceDl 7 sHot) = true ∧ (demoting1 sHot).demoteNext 1 sHot.freeIx false = none) ∧
    ((wmOf 7 sHotPage).h1 < (sHotPage.chan 7).t1.use ∧ (wmOf 7 sHotPage).l1 < (demoting1 sHotPage).t1.use - (demoting1 sHotPage).leaving 1 ∧
      (demoting1 sHotPage).admitJobs.mayStart (deviceDl 7 sHotPage) = true ∧
      (demoting1 sHotPage).demoteNext 1 sHotPage.freeIx false = some 16777215 ∧
      ((demoting1 sHotPage).t2.take ((sHotPage.chan 7).page 16777215).sizeClass).1.isSome = true) := by
  decide +kernel

/-- A sealed page at T1 to encode, its work started; whether its coded form is the shorter is the device's. -/
def profE : Profile := { prof1 with kvCodec := 1 }
def sEnc : State :=
  ch7 .attn { chanS .opened {} with
    profiles := [(63, profE)], maps := [(131071, [(0, ⟨5, false, true⟩)])], pages := [(5, { loc := ⟨1, 0⟩, fill := 128, residency := .resident })], shares := [(5, 1)]
    cond := [⟨.encode 5, 0, 1, 1⟩] }

theorem witness_PagesMove_encode :
    ((sEnc.chan 7).admitJobs.started (.encode 5) = true ∧ (sEnc.chan 7).beingWritten 5 = false ∧
      (sEnc.chan 7).toEncode ((sEnc.chan 7).pageProf 5) 5 = true ∧ ((sEnc.chan 7).page 5).loc.tier = 1 ∧ ((sEnc.chan 7).t1.take 0).1.isSome = true) ∧
    (sOpen.chan 7).admitJobs.started (.encode 5) = false := by decide +kernel

/-- Channel 7 serving a role with a buddy enabled, for the port complex. -/
def sBudR (r : Role) (c : Chan) (m : MirrorDev) : State :=
  { withChan 7 r c pc0 with regs := [(chanBase 7 + 0x080, 0x10000 + 7 * 64 + 1)], mirrorDev := m }
def sBud (c : Chan) (m : MirrorDev) : State := sBudR .attn c m
def sent1 : SentRec := { (default : SentRec) with gen := 5 }

theorem witness_GenerationsStartAndEnd :
    (Accepts 0x48 d0 0 8 (sBud {} { openGen := some 5 }) ∧ (sBud {} { openGen := some 5 }).mirrorDev.openGen = some 5) ∧
    (Accepts 0x48 d0 0 8 pc0 ∧ pc0.mirrorDev.openGen = none ∧ pc0.ops = [] ∧ parties pc0 = [] ∧ partsOf pc0.mirrorDev.nextGen pc0 = []) ∧
    (Accepts 0x48 d0 0 8 (sBud {} {}) ∧ parties (sBud {} {}) = [7] ∧ (sBud {} {}).mirrorDev.openGen = none ∧ (sBud {} {}).mirrorDev.again = false) ∧
    (pc0.chan 7).mirror.awaits pc0.mirrorDev = false ∧
    (((sBud { mirror := { gen := 5, sent := [sent1] } } { openGen := some 5 }).chan 7).mirror.awaits { openGen := some 5 } = true ∧
      ((sBud { mirror := { gen := 5 } } { openGen := some 5, manifestOut := true }).chan 7).mirror.awaits { openGen := some 5, manifestOut := true } = true) := by
  decide +kernel

/-- A channel of a role in the open generation before its capture; with a step of its epoch unfinished; and with an index written. -/
def party5 (r : Role) : Chan := { role := r, mirror := { gen := 5 } }
def busy5 : Chan := { party5 .attn with steps := [{ (default : StepRec) with num := 0 }] }
def write5 : Chan := (party5 .search).modLens (fun x => { x with writes := [default] })

theorem witness_GenerationsStartAndEnd_capture :
    ((party5 .attn).mirror.gen = 5 ∧ (party5 .attn).mirror.capturing = false ∧ (party5 .attn).mirror.ended = false ∧ (party5 .attn).epochEnded = true) ∧
    (busy5.role = .attn ∧ busy5.mirror.gen = 5 ∧ busy5.epochEnded = false) ∧
    ((party5 .search).role = .search ∧ (party5 .search).lens.writes = [] ∧ write5.role = .search ∧ write5.lens.writes ≠ []) := by decide +kernel

theorem witness_GenerationsStartAndEnd_unprotected :
    let s := sBud { mirror := { gen := 5, sent := [sent1] } } { openGen := some 5 }
    s.mirrorDev.openGen = some 5 ∧ (s.chan 7).mirror.gen = 5 ∧ (s.chan 7).mirror.sent = [sent1] := by decide +kernel

/-- Channel 7 capturing generation 5 with a session to capture, captured, or none left; and a unit of an index. -/
def capC (todo : List Nat) (last : Nat) : Chan :=
  { chanS .opened {} with mirror := { gen := 5, capturing := true, todo, captures := [(131071, { lastGen := last, isNew := true, forkedFrom := some 3 })] } }
def sCap (todo : List Nat) (last : Nat) : State := sBud (capC todo last) { openGen := some 5 }
def sCapL : State := sBudR .search (capC [9] 0) { openGen := some 5 }
def sCapBusy : State := sBud { capC [131071] 0 with cond := [⟨.move 5, 0, 1, 192⟩], pages := [(5, { residency := .moving })] } { openGen := some 5 }

theorem witness_CopiesAndWarnings :
    (pc0.up = true ∧ (pc0.chan 7).mirror.gen = 0) ∧
    (let c := ((sCap [] 0).modChan 7 Chan.admitJobs).chan 7
     c.mirror.gen = 5 ∧ c.mirror.capturing = true ∧ c.mirror.ended = false ∧ c.mirror.todo = []) ∧
    (let c := ((sCap [131071] 5).modChan 7 Chan.admitJobs).chan 7
     c.mirror.gen = 5 ∧ c.mirror.todo = [131071] ∧ c.mayStart c.mirror.deadline = true ∧ c.role ≠ .search ∧ (c.capture 131071).lastGen = 5) ∧
    (let c := ((sCap [131071] 4).modChan 7 Chan.admitJobs).chan 7
     c.mayStart c.mirror.deadline = true ∧ (c.capture 131071).lastGen = 4 ∧ (c.captureImage 131071).dir.state = .opened) ∧
    (let c := (sCapL.modChan 7 Chan.admitJobs).chan 7
     c.mirror.todo = [9] ∧ c.mayStart c.mirror.deadline = true ∧ c.role = .search) ∧
    (let c := (sCapBusy.modChan 7 Chan.admitJobs).chan 7
     c.mirror.gen = 5 ∧ c.mirror.capturing = true ∧ c.mirror.todo = [131071] ∧ c.mayStart c.mirror.deadline = false) ∧
    ((chanS .closed {}).captureImage 131071).dir.state = .closed := by decide +kernel

theorem witness_CopiesAndWarnings_record :
    ((sCap [] 0).chan 7).mirror.noBuddy = false ∧ ((sCap [] 0).chan 7).mirror.gen ≠ 0 ∧ buddyOf 7 (sCap [] 0) = (1, 7) ∧
      unitMarked 1 7 (sCap [] 0) = false ∧ (1 : Nat) ≠ (sCap [] 0).fid ∧ (((sCap [] 0).chan 7).seal 1).isSome = true := by decide +kernel

theorem witness_CopiesAndWarnings_warn :
    warnHit 1 4294967295 pc0 = true ∧ warnHit 5 1 pc0 = false ∧ (5, 0) ∉ pc0.mirrorDev.warned ∧
      (let s := { pc0 with mirrorDev := { warned := [(5, 0)] } }
       warnHit 5 1 s = false ∧ (5, 0) ∈ s.mirrorDev.warned ∧ s.mirrorDev.belowSince = []) := by decide +kernel

/-- A group key held; the records of a session and of an index of one segment; a manifest that gives them; and a RESTORE with it. -/
def sKey (s : State) : State := { s with encl := { s.encl with groupCur := some (9, []) } }
def recs1 : List (Nat × StoredRec) := [(7, .dir 131071 { state := .stopped, parkTier := 2 }), (7, .sblk 131071 (newSblk img1))]
def recs2 : List (Nat × StoredRec) := recs1 ++ [(7, .dir 131070 { state := .opened }), (7, .sblk 131070 (newSblk img1))]
def recsL : List (Nat × StoredRec) := [(7, .lhdr ([1#8] ++ List.replicate 4095 0 ++ [1#8] ++ List.replicate 7 0 ++ [1#8] ++ List.replicate 7 0))]
def stored1 : StoredSession := ⟨h0, { state := .stopped, parkTier := 2 }, newSblk img1, [], [], []⟩
def manifest1 : Manifest := ⟨0, [], 0, 5, 9, [], [], [], [], true, [], true, recs1⟩
def restore1 (cap : Nat) (m : Manifest) : RestoreArgs := { restore0 with channels := 0x80#8, reportCap := cap, manifests := [m] }
def sRest : State := sKey (withChan 7 .attn { chanS .closed {} with dirs := [] } pc1)
def sRestL : State := sKey (withChan 7 .search { t1 := {}, t2 := {} } pc1)

theorem witness_RestoresAndRollbacks :
    (Accepts 0x49 d0 1 8 sRest ∧ restoreCheck restore0 sRest = some .lenZero) ∧
    (restoreCheck (restore1 1 manifest1) sRest = none ∧ reportCheck 1 0 1 sRest = none ∧ EntryFree sRest ∧ reportCheck 1 0 0 sRest = some .paramInvalid) ∧
    selectGeneration { restore1 1 manifest1 with manifests := [] } = none ∧
    (maskChans 0x80#8 = [7] ∧ genHeld manifest1 (takeEntry sRest) = true ∧ genHeld { manifest1 with keyGen := 8 } (takeEntry sRest) = false) ∧
    (storedFor manifest1 [7] (takeEntry sRest) = [(7, stored1)] ∧ (rebuildNew 7 stored1 (takeEntry sRest)).isOk = true ∧
      manifest1.tagsOk = true ∧ indexesFor manifest1 [7] = []) ∧
    (storedFor { manifest1 with records := recs2 } [7] (takeEntry sRest)).length = 2 := by decide +kernel

/-- A manifest that verifies is selected: with no shard to read, its signature decides. -/
theorem witness_RestoresAndRollbacks_selected (h : Config.edVerify [] 2 [] [] = true) : selectGeneration (restore1 1 manifest1) = some manifest1 := by
  have e : maskChans 0x80#8 = [7] := by decide
  simp [selectGeneration, candidates, restore1, restore0, manifest1, insertManifest, shardEntry, h, e]

theorem witness_RestoresAndRollbacks_noRoom :
    (let s := takeEntry (sKey (withChan 7 .attn { chanS .closed {} with dirs := [], t1 := {}, t2 := {} } pc1))
     restoreCheck (restore1 1 manifest1) s = none ∧ genHeld manifest1 s = true ∧ (rebuildAll (storedFor manifest1 [7] s) [] [] s).isOk = false) ∧
    (let m := { manifest1 with records := recsL }
     let s := takeEntry sRestL
     restoreCheck (restore1 1 m) s = none ∧ genHeld m s = true ∧ storedFor m [7] s = [] ∧ (indexesFor m [7]).length = 1 ∧
       (rebuildIndexes (indexesFor m [7]) s).isNone = true) := by decide +kernel

/-- Channel 7 with a last generation, a session since, and one stored, changed since or not. -/
def rollC (st : SessState) (changed : Bool) : Chan :=
  { chanS st { owner := 1, kvLen := 3 } with mirror := { doneGen := 5, captures := [(131071, { isNew := changed, changed, doneLen := 3 })] } }
def sRoll (c : Chan) : State := { withChan 7 .attn c pc1 with regs := [(chanBase 7 + 0x080, 0x10000 + 7 * 64 + 1)] }
def sRollS (st : SessState) (changed : Bool) : State := sRoll (rollC st changed)
def roll1 (cap : Nat) (rs : List (Nat × StoredRec)) : RollbackArgs := { rollback0 with channels := 0x80#8, reportCap := cap, handle := h0, records := rs }

theorem witness_RestoresAndRollbacks_rollback :
    (let s := sRollS .stopped true
     Accepts 0x4A d0 1 8 s ∧ rollbackCheck 1 rollback0 s = some .lenZero ∧ rollbackCheck 1 (roll1 1 []) s = none ∧ rollGen 7 0 s = some 5 ∧
       rollCount 7 5 (roll1 1 []) s = 1 ∧ rollCount 7 5 (roll1 1 recs2) s = 2 ∧ storedOf 7 (roll1 1 recs1) s = [stored1]) ∧
    (let s := sRollS .stopped true
     sessRollCheck 1 (roll1 1 recs1) s = none ∧ sessRollCheck 1 rollback0 s = some .paramInvalid ∧ handleOf 7 131071 s = h0) ∧
    (sRestL.chan 7).role = .search := by decide +kernel

theorem witness_RestoresAndRollbacks_one :
    sameSession 7 { stored1 with oldHandle := { h0 with count := 9 } } (sRollS .stopped true) = false ∧
    (sameSession 7 stored1 (sRollS .stopped false) = true ∧ changedAfter 7 131071 5 (sRollS .stopped false) = false) ∧
    (let s := sRollS .parked true
     sameSession 7 stored1 s = true ∧ changedAfter 7 131071 5 s = true ∧ bothResident 7 stored1 s = false) ∧
    (let s := sRollS .stopped true
     sameSession 7 stored1 s = true ∧ changedAfter 7 131071 5 s = true ∧ bothResident 7 stored1 s = true ∧ (reload 7 131071 stored1 s).isOk = true ∧
       (rebuildNew 7 stored1 s).isOk = true) ∧
    (let s := sRoll { rollC .stopped true with t1 := {}, t2 := {} }
     let x := { stored1 with queue := [0] }
     bothResident 7 x s = true ∧ (reload 7 131071 x s).isOk = false ∧ (rebuildNew 7 x s).isOk = false) := by decide +kernel

/-! ### Witnesses: the pool -/

theorem witness_MemoryStaysCanonical : MemoryCanonical State.reset ∧ ∃ t, step { State.reset with pending := [.porstNRise default] } = .next t :=
  ⟨fun _ => rfl, _, rfl⟩

theorem witness_MisroutedPacketsAreCounted :
    up0.up = true ∧ (pkt7.dstUnit ≠ ({ pkt7 with port := 6 } : Pkt).port) ∧ (({ pkt7 with dstFid := 63 } : Pkt).dstFid ≠ up0.fid) := by
  decide +kernel

/-- A pool of one extent at the partition's highest slot, owned by the device 63, channel 7. -/
def ext1 : Extent := { length := 16384, loc := ⟨1, 0⟩, granules := 1, state := 1 }
def key1 : Nat := 64 * 63 + 63
def part1 : Partition := { ownerFid := 63, ownerChannel := 7, poolChannel := 7, valid := true, leaseEn := true, ownerFn := 1, extents := 1 }
def poolC (x : Extent) (leases : Tbl Lease) : Chan :=
  { t1 := { hi := 64, runs := [(0, 0)] }, pool := { extents := [(key1, x)], leases }, mem := [(0, 5)] }
def sPool (x : Extent) (leases : Tbl Lease) : State := { withChan 7 .pool (poolC x leases) pc1 with parts := [(63, part1)] }
def p0 : State := sPool ext1 []

/-- The address of a byte of that extent, and an operation block on its first bytes. -/
def at1 (off : Nat) : Word := BitVec.ofNat 64 (63 + off * 256)
def blk1 (len : Nat) : PoolBlk := { noBlk with dstPart := 63, srcPart := 63, len }

/-- The request a command brings. -/
def reqOf (c : Instr) : PoolReq := (poolReqOf c).getD (blkReq pkt7 0 noBlk [])

theorem witness_PoolAccessesReadAndWrite :
    Arrives pkt7 p0 ∧ Mem.wf (p0.chan 7).mem = true ∧ (p0.chan 7).extent key1 = some ext1 ∧ (p0.chan 7).pool.waits.length < 256 ∧
      (p0.chan 7).pool.backlog = [] ∧ (p0.chan 7).pool.poison = [] ∧ pkt7.poison = false ∧ ext1.mirror ≠ 1 ∧
    ((checkReq (reqOf (.readReq pkt7 (at1 0) 4096)) p0).toOption = some [key1] ∧ reqBlockers (p0.chan 7) (reqOf (.readReq pkt7 (at1 0) 4096)) [key1] = []) ∧
    ((checkReq (reqOf (.write pkt7 (at1 16383) [9])) p0).toOption = some [key1] ∧ (reqOf (.write pkt7 (at1 16383) [9])).op = 33) ∧
    ((checkReq (blkReq pkt7 0 (blk1 16384) []) p0).toOption = some [key1] ∧ blkOk (blkReq pkt7 0 (blk1 16384) []) = true) ∧
    ((checkReq (blkReq pkt7 0 (blk1 0) []) p0).toOption = some [key1] ∧ blkOk (blkReq pkt7 0 (blk1 0) []) = true ∧ (blkReq pkt7 0 (blk1 0) []).len = 0) ∧
    ((checkReq (blkReq pkt7 1 (blk1 1) []) p0).toOption = some [key1, key1] ∧ blkOk (blkReq pkt7 1 (blk1 1) []) = true ∧
      (blkReq pkt7 1 (blk1 1) []).src = some (63, 0)) := by decide +kernel

theorem witness_PoolAccessesReadAndWrite_ops :
    ((checkReq (blkReq pkt7 2 (blk1 1) []) p0).toOption = some [key1, key1] ∧ blkOk (blkReq pkt7 2 (blk1 1) []) = true) ∧
    ((checkReq (blkReq pkt7 3 { blk1 4 with scalar := true } []) p0).toOption = some [key1, key1] ∧
      blkOk (blkReq pkt7 3 { blk1 4 with scalar := true } []) = true) ∧
    ((checkReq (blkReq pkt7 4 (blk1 0) []) p0).toOption = some [key1] ∧ blkOk (blkReq pkt7 4 (blk1 0) []) = true) ∧
    ((checkReq (blkReq pkt7 5 { blk1 0 with wide := true } []) p0).toOption = some [key1] ∧
      blkOk (blkReq pkt7 5 { blk1 0 with wide := true } []) = true ∧ (blkReq pkt7 5 { blk1 0 with wide := true } []).len = 16) := by
  decide +kernel

/-- A lease of that extent's last line; 256 operations in flight; a mirrored extent; and a poisoned line. -/
def lease1 (st : Nat) : Lease := ⟨63, 63, 63, 63, st, true, false, 100⟩
def pFull : State := p0.modChan 7 (fun c => { c with pool := { c.pool with waits := List.replicate 256 (.recall 0 (.readReq pkt7 (at1 0) 1)) } })
def pMir : State := sPool { ext1 with mirror := 1, mirrorOk := true, buddy := ⟨1, 7, 63, 63⟩ } []
def pBad : State := p0.modChan 7 (fun c => { c with pool := { c.pool with poison := [0] } })

theorem witness_PoolAccessesReadAndWrite_waits :
    (Arrives pkt7 pFull ∧ ¬ (pFull.chan 7).pool.waits.length < 256) ∧
    (let s := sPool ext1 [(0, lease1 2)]
     let r := reqOf (.readReq pkt7 (at1 16383) 1)
     (checkReq r s).toOption = some [key1] ∧ reqBlockers (s.chan 7) r [key1] = [0]) ∧
    (let r := reqOf (.write pkt7 (at1 0) [9])
     (checkReq r pMir).toOption = some [key1] ∧ unitMarked 1 7 pMir = false ∧ (1 : Nat) ≠ pMir.fid ∧ r.op = 33 ∧ (pMir.chan 7).pool.poison = []) ∧
    ((checkReq (reqOf (.readReq pkt7 (at1 0) 1)) pBad).toOption = some [key1] ∧ badOff (pBad.chan 7) 0 1 true = some 0 ∧
      (checkReq (reqOf (.write pkt7 (at1 0) [9])) pBad).toOption = some [key1] ∧ badOff (pBad.chan 7) 0 1 false = some 0 ∧ ext1.at 0 = 0) := by
  decide +kernel

theorem witness_PoolAccessesAreRefused :
    (Arrives pktHost p0 ∧ (blkReq pktHost 0 (blk1 0) []).p.dstUnit = 8) ∧
    (Arrives pkt7 p0 ∧ (reqOf (.readReq pkt7 (at1 0) 4097)).len = 4097 ∧ (reqOf (.write pkt7 (at1 0) [])).len = 0) ∧
    blkOk (blkReq pkt7 0 (blk1 15) []) = false ∧
    (let s := p0.setChan 7 { (p0.chan 7) with state := .failed }
     let r := blkReq pkt7 0 (blk1 16) []
     blkOk r = true ∧ (s.chan 7).state = .failed ∧ Arrives pkt7 s) ∧
    (isPool 7 sOpen = false ∧ (sOpen.chan 7).state ≠ .failed ∧ Arrives pkt7 sOpen) ∧
    (isPool 7 p0 = true ∧ (p0.chan 7).slotFor 63 0 16385 = none ∧ (p0.part 0).valid = false) := by decide +kernel

theorem witness_PoolAccessesAreRefused_slots :
    (let r := blkReq { pkt7 with srcUnit := 6 } 0 (blk1 16) []
     (p0.part 63).valid = true ∧ (p0.part 63).poolChannel = 7 ∧ (p0.chan 7).slotFor r.part r.off r.len = some (key1, ext1) ∧ fromPrimary r ext1 = false ∧
       r.p.srcUnit ≠ (p0.part 63).ownerChannel ∧ (p0.part 63).ownerFid < 64) ∧
    (let r := blkReq pkt7 0 (blk1 16) []
     let s := sPool { ext1 with state := 2 } []
     let u := sPool { ext1 with mirror := 2 } []
     isPool 7 s = true ∧ (s.chan 7).slotFor r.part r.off r.len = some (key1, { ext1 with state := 2 }) ∧ r.p.srcFid = (s.part 63).ownerFid ∧
       r.p.srcUnit = (s.part 63).ownerChannel ∧ (u.chan 7).slotFor r.part r.off r.len = some (key1, { ext1 with mirror := 2 }) ∧
       fromPrimary r { ext1 with mirror := 2 } = false) := by decide +kernel

def blkL : PoolBlk := { blk1 256 with dst := 16128 }
def noLease : State := { p0 with parts := [(63, { part1 with leaseEn := false })] }

theorem witness_LeasesAreTakenAndEnded :
    ((checkReq (blkReq pkt7 16 blkL []) p0).toOption = some [key1] ∧ (checkReq (blkReq pkt7 17 blkL []) noLease).toOption = some [key1] ∧
      blkOk (blkReq pkt7 17 blkL []) = true ∧ lineOf ext1 16128 = 63 ∧ (noLease.part 63).leaseEn = false ∧ (p0.part 63).leaseEn = true ∧
      reqBlockers (p0.chan 7) (blkReq pkt7 16 blkL []) [key1] = [] ∧ (badOff (p0.chan 7) 16128 256 true).isSome = false ∧
      leaseOn (p0.chan 7) key1 63 = none ∧ firstFree ((p0.chan 7).pool.leases.map (fun e => e.1)) 0 1 = some 0) ∧
    (let s := p0.modChan 7 (fun c => { c with pool := { c.pool with poison := [63] } })
     (checkReq (blkReq pkt7 16 blkL []) s).toOption = some [key1] ∧ (badOff (s.chan 7) 16128 256 true).isSome = true) ∧
    (let s := sPool ext1 [(0, lease1 2)]
     (s.chan 7).pool.leases = [(0, lease1 2)] ∧ leaseOn (s.chan 7) key1 63 = some (0, lease1 2) ∧ (s.chan 7).pool.waits = [] ∧
      reqBlockers (s.chan 7) (blkReq pkt7 16 blkL []) [key1] = [] ∧
      (checkReq (blkReq pkt7 18 blkL (List.replicate 256 1)) s).toOption = some [key1] ∧ (blkReq pkt7 18 blkL []).data.length ≠ 256 ∧
      (checkReq (blkReq pkt7 19 blkL (List.replicate 256 1)) s).toOption = some [key1] ∧
      (checkReq (blkReq pkt7 20 blkL []) s).toOption = some [key1]) ∧
    (tget 0 (p0.chan 7).pool.leases = none ∧ (lease1 2).dirty = true ∧ (lease1 1).dirty = false ∧ (lease1 3).dirty = true ∧
      (lease1 2).state ≠ 3 ∧ (lease1 3).state = 3 ∧ ext1.base % 256 = 0 ∧ 64 * (lease1 2).partition + (lease1 2).slot = key1) := by
  decide +kernel

/-- Every entry of the directory is taken by a lease of another extent. -/
def otherLease : Lease := ⟨0, 0, 0, 63, 1, false, false, 100⟩
def allLeases (n : Nat) : Tbl Lease := (List.range' 0 n).map (fun i => (i, otherLease))
def pTaken : State := sPool ext1 (allLeases 262144)

theorem pTaken_leases : (pTaken.chan 7).pool.leases = allLeases 262144 := rfl

theorem witness_LeasesAreTakenAndEnded_full :
    (checkReq (blkReq pkt7 16 blkL []) pTaken).toOption = some [key1] ∧ leaseOn (pTaken.chan 7) key1 63 = none ∧
      ∃ id, firstFree ((pTaken.chan 7).pool.leases.map (fun e => e.1)) 0 ((pTaken.chan 7).pool.leases.length + 1) = some id ∧ 262144 ≤ id := by
  refine ⟨by decide +kernel, ?_, ?_⟩
  · unfold leaseOn
    rw [pTaken_leases, List.find?_eq_none]
    intro e he
    simp only [allLeases, List.mem_map] at he
    obtain ⟨i, -, rfl⟩ := he
    simp [otherLease, key1]
  · obtain ⟨k, h1, h2, -⟩ := firstFree_full ((pTaken.chan 7).pool.leases.map (fun e => e.1))
    refine ⟨k, by simpa using h1, ?_⟩
    rw [pTaken_leases] at h2
    simp only [allLeases, List.map_map, Function.comp_def, List.map_id', List.mem_range'] at h2
    by_contra hk
    exact h2 ⟨k, by omega, by omega⟩

def partI : PartImage := { (default : PartImage) with poolChannel := 7, valid := true }
def extI (st : Nat) : ExtentImage := { (default : ExtentImage) with length := 16384, tier := 1, state := st }
def pF0 : State := { withChan 7 .pool (poolC ext1 []) pc1 with parts := [(63, part1)] }
def free1 : State := { withChan 7 .pool { t1 := { hi := 64 } } pc1 with parts := [(63, part1)] }
def bud1 : BuddySlot := ⟨1, 7, 63, 63⟩

theorem witness_PartitionsExtentsAndPoolOperations :
    (Accepts 0x50 d0 1 8 pF0 ∧ partitionCheck 0 partI pF0 = none ∧ partitionCheck 63 partI pF0 = some .extentState ∧ partI.isolation = 0) ∧
    (Accepts 0x51 d0 1 8 free1 ∧ extentCheck 63 63 (extI 1) free1 = none ∧ promotes (((free1.chan 7).extent key1).getD {}) (extI 1) = false ∧
      (extentNew 63 63 (extI 1) free1).1.isSome = true ∧ extentCheck 63 63 (extI 0) free1 = none ∧ extentCheck 63 64 (extI 1) free1 = some .paramInvalid) ∧
    (let s := { withChan 7 .pool { t1 := {} } pc1 with parts := [(63, part1)] }
     extentCheck 63 63 (extI 1) s = none ∧ (extentNew 63 63 (extI 1) s).1 = none ∧ (s.chan 7).extent key1 = none ∧ Accepts 0x52 d0 1 8 s) ∧
    (let s := sPool { ext1 with mirror := 2 } []
     extentCheck 63 63 (extI 1) s = none ∧ promotes { ext1 with mirror := 2 } (extI 1) = true) ∧
    (Accepts 0x52 d0 1 8 p0 ∧ ext1.state = 1 ∧ (sPool { ext1 with state := 3 } []).up = true) ∧
    (Accepts 0x53 d0 1 8 p0 ∧ ext1.mirror = 0 ∧ bud1.fabricId ≠ p0.fid ∧ ¬ (ext1.pOff = 1)) ∧
    (let b : BuddySlot := ⟨p0.fid, 7, 63, 63⟩
     (p0.chan b.channel).extent (64 * b.partition + b.slot) = some ext1) := by decide +kernel

/-- The extent while it is revoked, before and after its recalls; as a rebuild's target and source; one write held for its secondary. -/
def revoking (recalls : Bool) (leases : Tbl Lease) : State := sPool { ext1 with state := 2, recallsSent := recalls } leases
def target1 (mark : Nat) : State := sPool { ext1 with mirror := 3, mark } []
def source1 : State := sPool { ext1 with mirror := 1, mirrorOk := true, filling := true, buddy := bud1 } []
def held2 : State :=
  p0.modChan 7 (fun c => { c with pool := { c.pool with waits := [.secondary key1 [key1] (.write pkt7 (at1 0) [9]) .ok 1 0 []] } })
def revoke1 : RunOp := ⟨d0, 1, 0x52, 8, true, false, 0, [], .revoke 7 63 63 0⟩

theorem witness_PartitionsExtentsAndPoolOperations_extents :
    (((revoking false [(0, lease1 2)]).chan 7).extent key1 = some { ext1 with state := 2 } ∧ ext1.inflight = 0 ∧
      slotLeases ((revoking false [(0, lease1 2)]).chan 7) key1 = [0]) ∧
    (((revoking true []).chan 7).extent key1 = some { ext1 with state := 2, recallsSent := true } ∧ slotLeases ((revoking true []).chan 7) key1 = [] ∧
      ({ revoking true [] with ops := [revoke1] }.ops.find? (fun o => match o.kind with | .revoke c a b _ => c == 7 && a == 63 && b == 63 | _ => false)) =
        some revoke1) ∧
    (((target1 0).chan 7).extent key1 = some { ext1 with mirror := 3 } ∧ 0 + 256 < ext1.length) ∧
    (((target1 16128).chan 7).extent key1 = some { ext1 with mirror := 3, mark := 16128 } ∧ ext1.length ≤ 16128 + 256) ∧
    ((source1.chan 7).extent key1 = some { ext1 with mirror := 1, mirrorOk := true, filling := true, buddy := bud1 } ∧
      blockers (source1.chan 7) key1 0 256 true = [] ∧ bud1.fabricId ≠ source1.fid ∧ unitMarked 1 7 source1 = false) ∧
    ((held2.chan 7).pool.waits = [.secondary key1 [key1] (.write pkt7 (at1 0) [9]) .ok 1 0 []] ∧ (p0.chan 7).pool.waits = []) := by decide +kernel

/-- A pool operation of another unit that waits for its one packet, and a request given up. -/
def poolRun (k : ReqKind) : State :=
  { pc1 with ops := [⟨d0, 1, 0x54, 8, true, false, 0, [], .poolOp 8 63 0⟩]
             reqs := [{ unit := 8, req := 5, dstFid := 63, dstUnit := 7, port := 8, fn := 1, gen := 0, kind := k, left := [5] }] }
def pktRsp : Pkt := { pktHost with srcFid := 63, srcUnit := 7, req := 5, fn := 1 }

theorem witness_PartitionsExtentsAndPoolOperations_operations :
    (Accepts 0x54 d0 0 7 sOpen ∧ rangeCheck 0 0 32 sOpen = none ∧ rangeCheck 0 0x10000000000 32 sOpen ≠ none ∧ unitMarked 63 7 sOpen = false ∧ (63 : Nat) ≠ sOpen.fid) ∧
    unitMarked 63 7 { sOpen with peers := [(63, { down := true, units := 0x1FF#9 })] } = true ∧
    (let s := sOpen.setChan 6 { state := .failed }
     Accepts 0x54 d0 0 7 s ∧ unitMarked s.fid 6 s = false ∧ (s.chan 6).state = .failed) ∧
    (Arrives pktRsp (poolRun .stale) ∧ matchReq pktRsp (poolRun .stale) = (poolRun .stale).reqs[0]? ∧ ((poolRun .stale).fn 1).resetGen = 0) ∧
    (matchReq pktRsp (poolRun (.poolOp 4095 7)) = (poolRun (.poolOp 4095 7)).reqs[0]? ∧
      (opOf 4095 7 (poolRun (.poolOp 4095 7))).map (·.kind) = some (.poolOp 8 63 0)) := by decide +kernel

/-! ### Witnesses: Lens -/

/-- An index of the largest degree, and SEARCH channels without and with it. -/
def hdr1 : LensHdr := ⟨0, 9, 0, 4, 64, 16, 64, 2, 65536⟩
def lensC (x : Lens) : Chan := { t1 := { hi := 64 }, lens := x }
def sLens (x : Lens) : State := withChan 7 .search (lensC x) (withRing 7 2 up0)
def sLens0 (x : Lens) : State := withChan 7 .search (lensC x) (withRing 7 0 up0)
def lens1 : Lens := { hdr := some hdr1, segments := [(0, (⟨1, 0⟩, ⟨1, 1⟩))], states := [(65534, 1), (65535, 2)], live := 1, tombs := 1 }
def vec1 : List F32 := [0x3F800000, 0, 0, 0]
def busyL : State := { sLens0 lens1 with ops := [⟨{ d0 with tag := 8 }, 2, 0x59, 7, true, false, 0, [], .lensQuery 7⟩] }
def query1 (n : Nat) : Instr := .opLensQuery d0 n 1024 1024 0 0 [vec1]
def declaring1 (x : Lens) : State := withChan 7 .search { lensC x with mirror := { gen := 5 } } (withRing 7 2 up0)

theorem witness_IndexesAreCreatedSearchedAndMerged :
    (Accepts 0x58 d0 0 7 (sLens0 {}) ∧ ((sLens0 {}).chan 7).lens.hdr = none ∧ hdrOk hdr1 = true ∧ hdrOk { hdr1 with degree := 65 } = false) ∧
    (Accepts 0x58 d0 0 7 (sLens0 lens1) ∧ ((sLens0 lens1).chan 7).lens.hdr = some hdr1 ∧ lensBusy 7 (sLens0 lens1) = false ∧ lensBusy 7 busyL = true ∧
      Accepts 0x58 d0 0 7 busyL) ∧
    (Accepts 0x59 d0 2 7 (sLens lens1) ∧ queryCheck 2 7 1 1024 1024 0 0 (sLens lens1) = none ∧ queryCheck 2 7 1 1025 1024 0 0 (sLens lens1) = some .paramInvalid ∧
      badVector vec1 = false ∧ ((sLens lens1).chan 7).lens.entry = [] ∧ ((sLens lens1).chan 7).lens.queries = [] ∧
      ((sLens lens1).chan 7).lens.waiting = [] ∧ opOf d0.ring d0.tag (sLens lens1) = none) ∧
    ((opOf 4095 8 busyL).isSome = true ∧ [[0x7F800000]].any badVector = true) ∧
    (Accepts 0x5D d0 2 7 (sLens lens1) ∧ rangesCheck 2 [(0, 64 * 1024 * 16), (0, 1024 * 16)] (sLens lens1) = none ∧
      rangesCheck 2 [(0x10000000000, 64 * 1024 * 16), (0, 1024 * 16)] (sLens lens1) ≠ none) := by decide +kernel

/-- All query slots taken; a query in expansion, going on and ending with its batch. -/
def q1 : LensQuery := { (default : LensQuery) with id := 5, ring := 4095, tag := 7, vec := vec1, k := 1, beam := 1, expanding := some 65534 }
def full1 : State := sLens { lens1 with queries := List.replicate 4096 q1 }
def expand1 (cand : List (F32 × Nat)) : State :=
  { sLens { lens1 with queries := [{ q1 with cand }], table := [(65534, [5])], batches := [{ ring := 4095, tag := 7, k := 1, left := 1, outAddr := 0 }] } with
    ops := [⟨d0, 2, 0x59, 7, true, false, 0, [], .lensQuery 7⟩] }

theorem witness_IndexesAreCreatedSearchedAndMerged_queries :
    (let u := full1.modChan 7 (fun c => c.modLens (fun x => { x with waiting := [⟨query1 1, none⟩] }))
     queryCheck 2 7 1 1 1 0 0 full1 = none ∧ slotsFree (u.chan 7) < 1 ∧ (u.chan 7).lens.waiting.find? LensHeld.isQuery = some ⟨query1 1, none⟩ ∧
       lensNext (u.chan 7) = none ∧ (full1.chan 7).lens.writes = []) ∧
    (let u := (sLens lens1).modChan 7 (fun c => c.modLens (fun x => { x with waiting := [⟨query1 1, none⟩] }))
     1 ≤ slotsFree (u.chan 7) ∧ (u.chan 7).lens.waiting.find? LensHeld.isQuery = some ⟨query1 1, none⟩) ∧
    ((sLens lens1).up = true ∧ ((sLens lens1).chan 7).lens.table = [] ∧ ((sLens lens1).chan 7).lens.waiting = [] ∧ ((sLens lens1).chan 7).lens.writes = []) ∧
    (let x := ((expand1 []).chan 7).lens
     serveNext x = some (65534, [q1.id]) ∧ x.queries.find? (fun y => y.id == 5) = some q1 ∧
       nextExpand { expandQuery x hdr1 65534 q1 with sticky := 0 } = none ∧ q1.insertOf = none ∧
       x.batches.find? (fun b => b.ring == 4095 && b.tag == 7) = some { ring := 4095, tag := 7, k := 1, left := 1, outAddr := 0 } ∧
       (opOf 4095 7 (expand1 [])).isSome = true) ∧
    (let x := ((expand1 [(0, 65533)]).chan 7).lens
     let q := { q1 with cand := [((0 : F32), 65533)] }
     serveNext x = some (65534, [q.id]) ∧ x.queries.find? (fun y => y.id == 5) = some q ∧
       (nextExpand { expandQuery x hdr1 65534 q with sticky := 0 }).isSome = true) := by decide +kernel

def free2 (waitFor : Option (List Nat)) (qs : List LensQuery) : State :=
  { sLens { lens1 with writes := [⟨1, 4095, 7, none, [], 0, 3, [], true, [65535], waitFor⟩], queries := qs } with
    ops := [⟨d0, 2, 0x5C, 7, true, false, 0, [], .lensWrite 7⟩] }
def bulkL : State := withChan 7 .search { lensC lens1 with bulk := List.replicate 9984 unit0 } (withRing 7 2 up0)

theorem witness_IndexesAreWritten :
    (((sLens lens1).chan 7).lens.hdr = some hdr1 ∧ declaring ((sLens lens1).chan 7) = false ∧ Accepts 0x5A d0 2 7 (sLens lens1) ∧
      insertCheck 2 7 1 0 0 (sLens lens1) = none ∧ insertCheck 2 7 0 0 0 (sLens lens1) = some .lenZero ∧ ((sLens lens1).chan 7).bulkFull = false ∧
      lens1.stateOf 65534 = 1 ∧ lens1.stateOf 0 = 0 ∧ 65535 < hdr1.capacity ∧ slotsFree ((sLens lens1).chan 7) ≠ 0 ∧
      badVector vec1 = false ∧ (tget 0 lens1.segments).isSome = true ∧ opOf d0.ring d0.tag (sLens lens1) = none ∧ lens1.entry = [] ∧ lens1.writes = []) ∧
    (insertCheck 2 7 1 0 0 bulkL = none ∧ (bulkL.chan 7).bulkFull = true ∧ Accepts 0x5C d0 2 7 bulkL) ∧
    (let u := (declaring1 lens1).modChan 7 (fun c => c.modLens (fun x => { x with waiting := [⟨.opLensConsolidate d0, none⟩] }))
     lensNext (u.chan 7) = none) := by decide +kernel

theorem witness_IndexesAreWritten_frees :
    (Accepts 0x5B d0 2 7 (sLens lens1) ∧ rangeCheck 2 0 4 (sLens lens1) = none ∧ rangeCheck 2 0x10000000000 4 (sLens lens1) ≠ none ∧
      lens1.stateOf 65535 ≠ 1 ∧ lens1.stateOf 65534 = 1) ∧
    (Accepts 0x5B d0 2 7 (sLens {}) ∧ ((sLens {}).chan 7).lens.hdr = none) ∧
    (Accepts 0x5C d0 2 7 (sLens lens1) ∧ lens1.writes = [] ∧ lens1.waiting = []) ∧
    (((free2 (some []) []).chan 7).lens.writes.any (fun w => w.consolidate) = true) ∧
    (((free2 (some []) []).chan 7).lens.writes.find? (fun w => w.consolidate && w.stage == 3) = some ⟨1, 4095, 7, none, [], 0, 3, [], true, [65535], some []⟩ ∧
      (opOf 4095 7 (free2 (some []) [])).isSome = true ∧ ((free2 (some [5]) [q1]).chan 7).lens.queries.any (fun y => y.id == 5) = true) := by
  decide +kernel

/-! ### Witnesses: keys, debug and firmware -/

/-- A full KEM slot, and a blob for it. -/
def kem1 : KemSlot := { full := true, useCount := 9, digest := [1] }
def blob1 (kind : Nat) : Blob := { (default : Blob) with kind, kemSlot := 15, kemCount := 9, evDigest := [1] }
def sKem (fn : Nat) : State := { withRing 8 fn up0 with encl := { up0.encl with kem := [(15, kem1)], runningSvn := 3 } }
def inMfg : State := { withRing 8 0 up0 with encl := { up0.encl with fuses := {} } }

theorem witness_KeysAreReleasedAndErased :
    (Accepts 0x69 d0 0 8 (sKem 0) ∧ releaseCheck 1 0 0 1724 (blob1 1) (sKem 0) = none ∧ releaseCheck 1 0 0 1723 (blob1 1) (sKem 0) = some .paramInvalid ∧
      (kemSlot 15 (sKem 0)).full = true ∧ (kemSlot 15 (sKem 0)).useCount = (blob1 1).kemCount ∧ (kemSlot 15 (sKem 0)).digest = (blob1 1).evDigest ∧
      (kemSlot 14 (sKem 0)).full = false ∧ releaseCheck 1 0 0 1724 { blob1 1 with kemSlot := 14 } (sKem 0) = none ∧
      releaseCheck 1 0 0 1724 { blob1 1 with evDigest := [2] } (sKem 0) = none) ∧
    (Accepts 0x6A d0 1 8 (sKem 1) ∧ releaseCheck 2 1 0 1724 (blob1 2) (sKem 1) = none ∧ (sKem 1).encl.groupCur = none ∧
      keysAllowed (sKem 1) = true) ∧
    (keysAllowed (sKem 0) = true ∧ Accepts 0x69 d0 0 8 inMfg ∧ keysAllowed inMfg = false) ∧
    (Accepts 0x68 d0 0 8 (sKem 0) ∧ rangeCheck 0 0 4096 (sKem 0) = none ∧ rangeCheck 0 0x10000000000 4096 (sKem 0) ≠ none ∧
      inMfg.encl.fuses.lifecycle = 0 ∧ (sKem 0).encl.fuses.lifecycle ≠ 0 ∧ (evidenceRecord [] none (sKem 0)).length ≤ 4096 ∧
      1 < (evidenceRecord [] none (sKem 0)).length ∧
      (evidenceRecord [] (some ((sKem 0).freeIx, kemPick (sKem 0) + 16 * kemUse (kemPick (sKem 0)) (sKem 0))) (sKem 0)).length ≤ 4096) := by
  decide +kernel

/-- A nonce given out, and tokens with it. -/
def sNonce : State := { withRing 8 0 up0 with encl := { up0.encl with nonce := some [7], fuses := { lifecycle := 1 } } }
def token1 (kind : Nat) (n : List Byte) : Token := { (default : Token) with kind, nonce := n, authority := 0 }

theorem witness_DebugProvisioningAndErrors :
    (Accepts 0x6B d0 0 8 sNonce ∧ rangeCheck 0 0 32 sNonce = none ∧ rangeCheck 0 0 235 sNonce = none ∧
      rangeCheck 0 0x10000000000 32 sNonce ≠ none) ∧
    ((token1 2 []).nonce = [] ∧ sNonce.encl.nonce ≠ some []) ∧
    (sNonce.encl.nonce = some (token1 2 [7]).nonce ∧ (token1 2 [7]).serial = sNonce.encl.fuses.serial ∧
      tokenPermitted (token1 2 [7]) sNonce.encl.fuses = true ∧ tokenPermitted (token1 4 [7]) sNonce.encl.fuses = false) ∧
    (up0.encl.fuses.lifecycle ≠ 0 ∧ State.reset.encl.fuses.lifecycle = 0 ∧ inMfg.encl.fuses.lifecycle = 0 ∧ inMfg.up = true) := by decide +kernel

/-- Firmware images in both slots; an update in progress; and a restart under way. -/
def fw1 : FwImage := { (default : FwImage) with magic := 0x31574653, version := 1, svn := 64, codeLen := 1, code := [0] }
def sFw : State := { pc1 with encl := { up0.encl with slotA := some fw1, slotB := some fw1, bootConfirmed := true, runningSvn := 64 } }
def fwBusy1 : State := { sFw with ops := [⟨d0, 1, 0x6C, 8, true, false, 0, [], .ready .ok [] []⟩] }
def restart1 (cause : Nat) : State := { sFw with mgmt := { restarting := true, restartCause := cause, crashDump := true } }

theorem witness_FirmwareIsUpdatedAndRestarted :
    (commonCheck 0x6C d0 { withRing 8 0 up0 with encl := sFw.encl } = none ∧ ringLive d0.ring { withRing 8 0 up0 with encl := sFw.encl } = true) ∧
    (fwRuns sFw = false ∧ fwRuns fwBusy1 = true ∧ slotImage true sFw = some fw1 ∧ slotImage true { sFw with encl := up0.encl } = none ∧
      rangeCheck 0 0 33554432 { withRing 8 0 up0 with encl := sFw.encl } = none) ∧
    (sFw.encl.state = .ready ∧ sFw.mgmt.restarting = false ∧ sFw.now ≤ sFw.encl.startedAt + 2000000000 ∧
      ({ sFw with now := 2000000001 } : State).encl.startedAt + 2000000000 < ({ sFw with now := 2000000001 } : State).now) ∧
    (({ sFw with mgmt := { restarts := [1, 2, 3] } } : State).mgmt.restarts.filter (fun t => decide (0 ≤ t + 10000000000))).length = 3 ∧
    ((restart1 1).mgmt.restartCause = 1 ∧ (restart1 2).mgmt.restartCause = 2 ∧ slotImage (restart1 2).encl.bootActive (restart1 2) = some fw1) := by
  decide +kernel

/-! ### Witnesses: roles, commits and monitors -/

/-- A channel switching: at its drain, zeroing for no role, and zeroing for a role with a staged value that fails and with none. -/
def switching (r : Role) (zeroing : Bool) (st : Tbl Nat) : State :=
  { pc0 with staged := st, chans := [(7, { state := .draining, role := .attn, switch := some ⟨d0, r, 1, zeroing⟩ })] }
def vOf (s : State) (r : Role) : State := wmDefaults 7 r ((enterUnassigned 7 s).modChan 7 (fun c => { c with switch := none }))

def sRole (runs : List ModelRun) : State := withChan 7 .model (chanM runs) pc0
def sKeeps : State := withChan 7 .pool { pool := { extents := [(0, { state := 1 })] } } pc0

theorem witness_RolesAreSwitched :
    (Accepts 0x70 d0 0 8 (sRole []) ∧ roleCheck 7 4 (sRole []) = none ∧ roleOfCode 4 = some .model ∧ ((sRole []).chan 7).resetting = false ∧
      ((sRole []).chan 7).switch = none ∧ ((sRole []).chan 7).state = .active ∧ ((sRole []).chan 7).role = .model ∧
      roleCheck 7 5 (sRole []) = some .paramInvalid ∧ roleOfCode 5 = none) ∧
    (roleCheck 7 0 (sRole [mrun true]) = none ∧ EntryFree (sRole [mrun true]) ∧ ((sRole [mrun true]).chan 7).runs ≠ [] ∧ roleOfCode 0 = some .none) ∧
    (Accepts 0x70 d0 0 8 (switching .none false []) ∧ ((switching .none false []).chan 7).switch.isSome = true) ∧
    ((sKeeps.chan 7).role = .pool ∧ (∃ e ∈ (sKeeps.chan 7).pool.extents, e.2.state ≠ 0) ∧ sKeeps.encl.fuses.lifecycle ≠ 3 ∧ sKeeps.mgmt.congested = false ∧
      ((sKeeps.modChan 7 (fun c => { c with state := .failed })).chan 7).state = .failed) := by decide +kernel

theorem witness_RolesAreSwitched_ends :
    ((pc0.chan 7).switch = none ∧ ((switching .none false []).chan 7).switch = some ⟨d0, .none, 1, false⟩ ∧
      ((switching .none true []).chan 7).switch = some ⟨d0, .none, 1, true⟩ ∧ ((switching .model true []).chan 7).switch = some ⟨d0, .model, 1, true⟩) ∧
    (let s := switching .model true []
     s.mgmt.congested = false ∧ commitCheck (.fn 0) 8 (some .model) (vOf s .model) = none ∧
       { s with mgmt := { s.mgmt with congested := true } }.mgmt.congested = true) ∧
    (let s := switching .attn true [(chanBase 7 + 0x080, 0x10041)]
     commitCheck (.fn 0) 8 (some .attn) (vOf s .attn) ≠ none) := by decide +kernel

/-- A staged value of a channel's scope, and a commit that is busy. -/
def sStaged (v : Nat) : State := { withChan 7 .attn {} pc0 with staged := [(chanBase 7 + 0x080, v)] }
def sBusy : State := { pc0 with mgmt := { exq := [5], nextEx := 6, cfgBusy := some ⟨8, 5, .ok, 0⟩ } }
def congest (s : State) : State := { s with mgmt := { s.mgmt with congested := true } }

theorem witness_RegistersAreCommitted :
    ((Requester.fn 2 ≠ .fn 0 ∧ Requester.fn 2 ≠ .fn 1) ∧ sBusy.mgmt.cfgBusy = some ⟨8, 5, .ok, 0⟩ ∧ pc0.mgmt.cfgBusy = none ∧
      (congest pc0).mgmt.congested = true ∧ pc0.mgmt.congested = false ∧ pc0.encl.state ≠ .noFirmware) ∧
    (idleScope 8 pc0 = true ∧ idleScope 8 (sStaged 0) = false ∧ commitCheck (.fn 0) 8 none (takeEntry (sStaged 0)) = none ∧
      commits (.fn 0) 8 false (chanBase 7 + 0x080) = true ∧
      (sStaged 0).staged.filter (fun e => e.1 == chanBase 7 + 0x080) = [(chanBase 7 + 0x080, 0)] ∧
      commitCheck (.fn 0) 8 none (takeEntry (sStaged 0x10041)) ≠ none) ∧
    (sBusy.mgmt.exq.contains 5 = true ∧ sBusy.mgmt.exq.contains 4 = false ∧ sBusy.mgmt.restarting = false ∧ sBusy.encl.state ≠ .noFirmware ∧
      sBusy.mgmt.heldWrites = [] ∧ sBusy.mgmt.heldCommits = [] ∧
      ({ sBusy with mgmt := { sBusy.mgmt with heldWrites := [(.fn 0, 0x0F0, 8, 1)] } } : State).mgmt.heldCommits = [] ∧
      ({ sBusy with mgmt := { sBusy.mgmt with cfgBusy := none } } : State).mgmt.exq.contains 5 = true) := by decide +kernel

/-- The last monitor on a probe, with samples already taken. -/
def sMon : State := { pc0 with regs := [(0x70008 + 4294967296 * 127, 1)], monitors := [(127, { count := 1, min := 0, max := 0, last := some 0 })] }

def sMonP (v : Nat) : State := { pc0 with regs := [(0x70008 + 4294967296 * 127, v)] }
def sMonTr : State := { sMonP 33 with encl := { pc0.encl with traceOpen := true } }

theorem witness_MonitorsSampleAndReport :
    monProbe 127 pc0 = 0 ∧ monProbe 127 sMon ≠ 0 ∧ monRaw 127 sMon = false ∧ (sMon.monitor 127).count ≠ 0 ∧ (sMonP 1 |>.monitor 127).count = 0 ∧
    (monProbe 127 (sMonP 4) = 4 ∧ monProbe 127 (sMonP 6) = 6 ∧ monProbe 127 (sMonP 7) = 7 ∧ monProbe 127 (sMonP 15) = 15) ∧
    (monRaw 127 (sMonP 33) = true ∧ monSuspended 127 (sMonP 33) = false ∧ monSuspended 127 sMonTr = true) ∧
    (Accepts 0x71 d0 0 8 pc0 ∧ rangeCheck 0 0 (320 * 128) pc0 = none ∧ rangeCheck 0 0x10000000000 320 pc0 ≠ none) := by decide +kernel

/-! ### Witnesses: faults, requests and ports -/

/-- A channel that drains for an OP_ROLE_SET, and one that is FAILED. -/
def sDrain : State :=
  { pc0 with ops := [⟨d0, 0, 0x70, 8, true, false, 0, [], .roleSet 7⟩]
             chans := [(7, { state := .draining, role := .attn, switch := some ⟨d0, .none, 0, false⟩ })] }
def sFailed : State := up0.setChan 7 { state := .failed, role := .attn }

def sReset7 : State := up0.setChan 7 { state := .failed, role := .attn, resetting := true, failedOnce := true }

theorem witness_FaultsTakeChannelsAndTheDevice :
    ((8 : Nat) ≤ 8 ∧ (sOpen.chan 7).state ≠ .failed ∧ (sOpen.chan 7).failedOnce = false) ∧
    ((sReset7.chan 7).resetting = true ∧ (sReset7.chan 7).failedOnce = true) ∧
    ((sDrain.chan 7).state = .draining ∧ sDrain.ops = [⟨d0, 0, 0x70, 8, true, false, 0, [], .roleSet 7⟩] ∧ (sDrain.ring d0.ring).usable = true ∧
      sDrain.loads = [] ∧ (sDrain.chan 7).mirror.gen = 0 ∧ (sDrain.chan 7).pool.waits = [] ∧ (sDrain.chan 7).pool.backlog = []) ∧
    ((sFailed.chan 7).state = .failed ∧ (sFailed.chan 7).resetting = false) := by
  decide +kernel

/-- A read of a counter that waits, of the present generation and of an older one, for one packet or two. -/
def ctrReq (gen : Nat) (left : List Nat) : Request :=
  { unit := 8, req := 5, dstFid := 63, dstUnit := 7, port := 8, fn := 0, gen, kind := .counter 2, left }
def sCtr (gen : Nat) (left : List Nat) : State :=
  { pc0 with ops := [⟨{ d0 with ring := 2 }, 0, 0x55, 8, true, false, 0, [], .waitCount 63 4095 5 0⟩], reqs := [ctrReq gen left] }
def pktCtr : Pkt := { pktHost with srcFid := 63, srcUnit := 7, req := 5 }
def sDown : State := { pc1 with peers := [(63, { down := true })], sel := [(.fn 1, 0x118, 63)] }
def sCq : State := pc0.setRing 4095 { ring0 8 0 with cqExp := 6, cqBase := 4096 }

theorem witness_RequestsAreAnsweredOrFail :
    (Arrives pktCtr pc0 ∧ matchReq pktCtr pc0 = none ∧ pktCtr.fn = 0 ∧ pktCtr.status = 0) ∧
    (({ pktCtr with fn := 1, gen := 1 } : Pkt).fn ≠ 0 ∧ ({ pktCtr with fn := 1, gen := 1 } : Pkt).gen ≠ (pc0.fn 1).resetGen % 256) ∧
    (let p := { pktHost with srcFid := (pc0.fn 0).adapter, status := 9 }
     Arrives p sCq ∧ matchReq p sCq = none ∧ p.status ≠ 0 ∧ p.dstUnit = 8 ∧ ringOfCq p.srcFid 4096 sCq = some 4095) ∧
    (matchReq pktCtr (sCtr 0 [5]) = some (ctrReq 0 [5]) ∧ (ctrReq 0 [5]).gen = ((sCtr 0 [5]).fn 0).resetGen % 256 ∧ (ctrReq 0 [5]).left.erase 5 = [] ∧
      (waitOf 2 (sCtr 0 [5])).isSome = true ∧ (sCtr 0 [5]).reqWait = [] ∧ matchReq pktRsp (poolRun .stale) = (poolRun .stale).reqs[0]?) ∧
    (matchReq pktCtr (sCtr 0 [5, 6]) = some (ctrReq 0 [5, 6]) ∧ (ctrReq 0 [5, 6]).left.erase 5 ≠ [] ∧
      matchReq { pktCtr with status := 9 } (sCtr 0 [5, 6]) = some (ctrReq 0 [5, 6])) ∧
    (matchReq pktCtr (sCtr 1 [5]) = some (ctrReq 1 [5]) ∧ (ctrReq 1 [5]).gen ≠ ((sCtr 1 [5]).fn 0).resetGen % 256) := by decide +kernel

theorem witness_RequestsAreAnsweredOrFail_ends :
    (pktCtr.dstUnit = 8 ∧ (4095 : Nat) < 4096 ∧ Arrives pkt7 up0 ∧ pkt7.dstUnit ≠ 8) ∧
    (((sCtr 0 [5]).reqs.find? (fun r => r.unit == 8 && r.left.contains 5)).isSome = true ∧
      pc0.reqs.find? (fun r => r.unit == 8 && r.left.contains 5) = none) ∧
    (let lost := { pktHost with srcFid := 0, srcUnit := 8, req := 5, dstFid := 63, dstUnit := 7 }
     (sCtr 0 [5]).fid = 0 ∧ pktHost.srcFid ≠ (sCtr 0 [5]).fid ∧ ((sCtr 0 [5]).reqs.find? (fun r => r.unit == lost.srcUnit && r.left.contains lost.req &&
       r.dstFid == lost.dstFid && r.dstUnit == lost.dstUnit)).isSome = true) ∧
    (((sCtr 0 [5]).peer 79).down = false ∧ (sDown.peer 63).down = true ∧ selOf (.fn 1) 0x118 sDown = 63 ∧
      selOf (.fn 1) 0x118 pc1 = 0 ∧ (pc1.peer 0).down = false) := by decide +kernel

/-- The last fabric port of a channel in a state of training. -/
def port1 (st : PortState) (p : Port) : State := { up0 with ports := [(7, { p with state := st })] }

theorem witness_PortsTrain :
    (((port1 .signal { good := 0xF }).port 7).state = .signal ∧ (0xF#4).getLsbD 3 = true ∧ ((port1 .detect {}).port 7).state = .detect) ∧
    (((port1 .align {}).port 7).state = .align ∧ ((port1 .retrain {}).port 7).state = .retrain ∧ ((port1 .down {}).port 7).state = .down ∧
      ((port1 .equalize {}).port 7).state = .equalize) ∧
    (((port1 .config { good := 0xF }).port 7).state = .config ∧ widthOf (0xF &&& 0xF) (min (widestOf 7 (port1 .config {})) 4) = 4 ∧
      widthOf (0 &&& 0xF) (min (widestOf 7 (port1 .config {})) 4) = 0 ∧
      ((port1 .config { wasActive := true, partnerFid := 5, partnerUnit := 7 }).port 7).wasActive = true ∧
      ((port1 .config { partnerKnown := true, partnerFid := 5 }).port 7).partnerFid ≠ 6) ∧
    (((port1 .active {}).port 7).state = .active ∧ ((port1 .disabled {}).port 7).state = .disabled ∧ peersOf 7 (port1 .detect {}) = [] ∧
      peersOf 7 { port1 .detect {} with reqs := [{ ctrReq 0 [5] with port := 7 }] } = [(63, 7)]) := by
  decide +kernel

/-- A flit of no content with a first byte, a sequence number, an acknowledgement and credits, its CRC right. -/
def flitHdr (b0 seq ack cr : Nat) : List Byte := natLE 2 b0 ++ natLE 2 seq ++ natLE 2 ack ++ natLE 2 cr
def flit1 (b0 seq ack cr : Nat) : List Byte :=
  flitHdr b0 seq ack cr ++ natLE 8 (crc64 (flitHdr b0 seq ack cr ++ List.replicate 240 0)).toNat ++ List.replicate 240 0

theorem length_natLE (n v : Nat) : (natLE n v).length = n := by
  induction n generalizing v with
  | zero => rfl
  | succ n ih => simp [natLE, ih]

theorem leNat_natLE (n v : Nat) : leNat (natLE n v) = v % 256 ^ n := by
  induction n generalizing v with
  | zero => simp [natLE, leNat, Nat.mod_one]
  | succ n ih =>
    have e : 256 ^ (n + 1) = 256 * 256 ^ n := by rw [Nat.pow_succ, Nat.mul_comm]
    have f : (BitVec.ofNat 8 (v % 256)).toNat = v % 256 := by simp
    rw [natLE, leNat, ih, f, e, Nat.mod_mul]

theorem flitGood_flit1 (b0 seq ack cr : Nat) : flitGood (flit1 b0 seq ack cr) = true := by
  have h8 : (flitHdr b0 seq ack cr).length = 8 := by simp [flitHdr, length_natLE]
  have hc : (flitHdr b0 seq ack cr ++ natLE 8 (crc64 (flitHdr b0 seq ack cr ++ List.replicate 240 0)).toNat).length = 16 := by
    rw [List.length_append, h8, length_natLE]
  have e1 : (flit1 b0 seq ack cr).take 8 = flitHdr b0 seq ack cr := by rw [flit1, List.append_assoc, List.take_left' h8]
  have e2 : (flit1 b0 seq ack cr).drop 16 = List.replicate 240 0 := by rw [flit1, List.drop_left' hc]
  have e3 : ((flit1 b0 seq ack cr).drop 8).take 8 = natLE 8 (crc64 (flitHdr b0 seq ack cr ++ List.replicate 240 0)).toNat := by
    rw [flit1, List.append_assoc, List.drop_left' h8, List.take_left' (length_natLE _ _)]
  have hl : (flit1 b0 seq ack cr).length = 256 := by rw [flit1, List.length_append, hc, List.length_replicate]
  rw [flitGood, e1, e2, e3, hl, leNat_natLE, Nat.mod_eq_of_lt (lt_of_lt_of_eq (BitVec.isLt _) (by norm_num))]
  simp

/-- The first byte, sequence number, acknowledgement and credits that a flit's receiver reads. -/
def flitRead (f : List Byte) : Nat × Nat × Nat × Nat :=
  (leNat (f.take 1), leNat ((f.drop 2).take 2), leNat ((f.drop 4).take 2), leNat ((f.drop 6).take 2))

/-- Flits good or not; reserved, IDLE without and with a NAK, DATA alone and as the last of its packet; at the number expected, before it and
past it; on a port at its last number. -/
theorem witness_FlitsAreTakenAndReplayed :
    (∀ b0 seq ack cr, flitGood (flit1 b0 seq ack cr) = true) ∧ flitGood [] = false ∧
    (flitRead (flitHdr 2 0 0 0) = (2, 0, 0, 0) ∧ flitRead (flitHdr 0 0 0 0x5003) = (0, 0, 0, 0x5003) ∧ flitRead (flitHdr 0 0 0 0x8000) = (0, 0, 0, 0x8000) ∧
      flitRead (flitHdr 1 65535 0 0) = (1, 65535, 0, 0) ∧ flitRead (flitHdr 0x31 65535 0 0) = (0x31, 65535, 0, 0) ∧
      (0x31 / 32 % 2 = 1 ∧ 1 / 32 % 2 = 0) ∧ (65534 + 65536 - 65535) % 65536 ≥ 32768 ∧ (0 + 65536 - 65535) % 65536 < 32768) :=
  ⟨fun _ _ _ _ => flitGood_flit1 _ _ _ _, by decide +kernel, by decide +kernel⟩

theorem witness_FlitsAreTakenAndReplayed_ports :
    (let p := (port1 .active { rxSeq := 65535, unacked := 62 }).port 7
     p.state = .active ∧ p.rxSeq = 65535 ∧ p.unacked < 63 ∧ p.nakSent = false ∧ p.replayBuf = []) ∧
    ((port1 .active { unacked := 63, nakSent := true }).port 7).nakSent = true ∧
    (let p := (port1 .active { replayBuf := [⟨1, 0, true, true, []⟩] }).port 7
     p.replayBuf ≠ [] ∧ p.replays + 1 < fieldOf (eff 0x40010 up0) 0 7) ∧
    (let p := (port1 .active { replayBuf := [⟨1, 0, true, true, []⟩], replays := 7 }).port 7
     fieldOf (eff 0x40010 up0) 0 7 ≤ p.replays + 1) ∧
    (((port1 .active {}).port 7).unacked = 0 ∧ (∀ v ∈ ((port1 .active {}).port 7).owed, v = 0) ∧
      (∃ v ∈ ((port1 .active { owed := [0, 0, 0, 1] }).port 7).owed, v ≠ 0)) := by decide +kernel

/-! ### Witnesses: registers and power -/

theorem witness_TableModeHoldsTheDeviceCount :
    sTable.up = true ∧ (sTable.chan 7).state = .active ∧ (sTable.chan 7).role = .attn ∧ fixedMode 7 sTable = false ∧
      16 < (17#64).toNat % 128 := by decide +kernel

def lockAll : State := { up0 with locks := [0] }

def cfgBusy0 : State := { up0 with mgmt := { cfgBusy := some ⟨0, 5, .ok, 0⟩ } }

theorem witness_RegistersAreWritten :
    (addrMapped 0x01800000 = false ∧ addrMapped 0x017FFFF8 = true ∧ (0x148 + 4) % 8 ≠ 0 ∧ regRow 0x00FFFFF8 = none ∧ addrMapped 0x00FFFFF8 = true) ∧
    ((regRow 0x148).map (fun r => r.writers != .none) = some true ∧ (regRow 0x000).map (fun r => r.writers) = some .none ∧
      (regRow 0x148).map (fun r => writePermitted (.fn 2) 0x148 r.writers up0) = some false) ∧
    ((regRow 0x108).map (fun r => (r.cls, writePermitted (.fn 0) 0x108 r.writers up0)) = some (.rw, true) ∧
      (regRow 0x108).map (fun r => (rowOk r (rowMask r (mergeWrite (eff 0x108 up0) 0x108 8 10000)), devicesBad 0x108 10000 up0)) = some (true, false) ∧
      (regRow 0x108).map (fun r => rowOk r (rowMask r (mergeWrite (eff 0x108 up0) 0x108 8 9))) = some false) ∧
    ((regRow 0x118).map (fun r => (r.cls, writePermitted (.fn 2) 0x118 r.writers up0)) = some (.sel, true) ∧
      (regRow 0x118).map (fun r => rowOk r (rowMask r (mergeWrite 0 0x118 8 79))) = some true ∧
      (regRow 0x118).map (fun r => rowOk r (rowMask r (mergeWrite 0 0x118 8 80))) = some false) ∧
    ((regRow 0x0F0).map (fun r => (r.cls, writePermitted (.fn 0) 0x0F0 r.writers up0)) = some (.recommit, true) ∧ regScope 0x0F0 = 0 ∧
      isLocked 0x0F0 up0 = false ∧ isLocked 0x0F0 lockAll = true ∧ up0.mgmt.cfgBusy = none ∧ cfgBusy0.mgmt.cfgBusy = some ⟨0, 5, .ok, 0⟩ ∧
      up0.locks = [] ∧ 0 ∈ lockAll.locks) := by decide +kernel

/-- The core rail's regulator addressed, with a setpoint commanded just now, and one commanded 1 ms before whose reading is due. -/
def sRail (at_ : Nat) : State :=
  { up0 with regs := [(0x30050, 0x40)], now := 50000, power := { up0.power with avsAt := some at_, avsMv := 600 } }
def sAvs : State := { sRail 0 with now := 1000000, power := { (sRail 0).power with avsPending := true } }

theorem witness_PowerIsWatchedAndLimited :
    (∀ k < 9, railAddr k up0 = 0) ∧
    (railAddr 0 (sRail 0) ≠ 0 ∧ (sRail 0).power.avsPending = false ∧ 0 + 50000 ≤ (sRail 0).now ∧ (sRail 1).now < 1 + 50000 ∧
      avsNext false 600 ≠ 600 ∧ 600 ≤ (sRail 0).power.avsMv ∧ (sRail 0).power.avsMv ≤ 800) ∧
    (railAddr 0 sAvs ≠ 0 ∧ sAvs.power.avsPending = true ∧ sAvs.power.avsAt = some 0 ∧ 0 + 1000000 ≤ sAvs.now ∧
      3 * sAvs.power.avsMv < 100 * ((619 - sAvs.power.avsMv) + (sAvs.power.avsMv - 619)) ∧
      ¬ 3 * sAvs.power.avsMv < 100 * ((618 - sAvs.power.avsMv) + (sAvs.power.avsMv - 618))) ∧
    (thermThrottle up0 ≤ 130000 ∧ (0 : Int) < thermThrottle up0 - 2000 ∧ thermThrottle up0 - 2000 ≤ thermThrottle up0 - 1 ∧
      thermAlert up0 ≤ 130000) ∧
    up0.power.bmcAddr < 0x10000 := by decide +kernel

/-! ### What single commands do -/

/-- A field of the state that a command leaves. -/
def field {α : Type} (f : State → α) (c : Instr) (s : State) : Option α := match exec c s with | .next t => some (f t) | _ => none

/-- The table gives no row any bits. -/
theorem test_no_word_spells_a_command : decodeTableWord 8 0 = none ∧ (up0.withFetchWord 8 0).pending = [] := by decide +kernel

/-- The example of 00_scope.md: 0x0004_1000 as bytes, and the field that holds 4,096. -/
theorem test_little_endian : natLE 4 0x00041000 = [0x00#8, 0x10, 0x04, 0x00] ∧ leNat [0x00#8, 0x10, 0x04, 0x00] % 65536 = 4096 := by
  decide +kernel

/-- The example after R176: 103 entries and 3,649 tokens are 17,984 B. -/
theorem test_list_length : listLength ({ slot1 with tokens := List.replicate 3547 0 } :: List.replicate 102 slot1) = 17984 := by decide +kernel

/-- The pad of that example: 8,576 B before the end of a ring of 2^20 bytes with its tail at 1,040,000. -/
theorem test_list_pad :
    wlPad 7 0 17984 { ch7 .attn { wlTail := [(0, 1040000)] } with regs := [(chanBase 7 + 0x100, 0x11401), (chanBase 7 + 0x200, 1000000)] } = 8576 := by
  decide +kernel

/-- The example after R103: the map entry of row 3, layer 5, head 2 with 32 layers and 8 KV heads is 810. -/
theorem test_map_entry : ({ prof1 with layers := 32, kvHeads := 8 } : Profile).entry 3 5 2 = 810 := by decide +kernel

/-- The example after R289: the envelope of a stream of 92,128 B in MODE_C takes 92,928 B. -/
theorem test_envelope_length : framed 0 92128 = 92928 := by decide +kernel

/-! #### Text in: the example after R214 -/

/-- Classes: 1 letter, 2 space; U+0301 has combining class 230 and composes; é is e and U+0301, quick check NO; a boundary between a letter
and a space; the trie of caf, é (bytes C3 A9), " au" and " lait". -/
def tokCafe : TokImage :=
  { (default : TokImage) with
    header := tokHead 1 80000 13 5 []
    index := [(3, 1)]
    leaves := [(0x20, 2)] ++ (List.range' 0x61 26).map (fun c => (c, 1)) ++ [(0xE9, 1 + 16384), (256 + 1, 1 + 230 * 16 + 4096)]
    decomp := [0xE9 + 2 * 2 ^ 21], cpHeap := [0x65, 0x301], comp := [0x65 + 0x301 * 2 ^ 21 + 0xE9 * 2 ^ 42]
    split := [0#8, 0, 0, 0, 16] ++ List.replicate 123 0
    trie := [node 1 3 0, node 4 2 0x20, node 6 1 0x63, node 7 1 0xC3, node 8 1 0x61, node 9 1 0x6C, node 10 1 0x61, leafNode 0xA9 2311,
             leafNode 0x75 1905, node 11 1 0x61, leafNode 0x66 71204, node 12 1 0x69, leafNode 0x74 40377] }

def cafe1 : TextOutcome := textRun tokCafe 0 {} [0x63#8, 0x61, 0x66, 0x65, 0xCC] false

theorem test_text_first_buffer :
    cafe1.run.toks = [] ∧ heldWord cafe1.run.carry = 0x0305 ∧ cafe1.run.carry.utf8 = [0xCC#8] ∧ cafe1.run.carry.pend = [0x65] ∧
      cafe1.run.carry.piece = [0x63#8, 0x61, 0x66] ∧ cafe1.run.carry.inCount = 5 ∧ cafe1.run.carry.runLen = 3 := by decide +kernel

theorem test_text_second_buffer :
    let o := textRun tokCafe 0 cafe1.run.carry [0x81#8, 0x20, 0x61, 0x75, 0x20, 0x6C, 0x61, 0x69, 0x74] true
    o.run.toks = [71204, 2311, 1905, 40377] ∧ o.invalid = 0 ∧ heldWord o.run.carry = 0 ∧ o.run.carry.inCount = 14 := by decide +kernel

/-! #### Tokens out: the example after R242 -/

def imgStop : ParamImage := { img1 with utf8Policy := 0, stopCount := 1, stops := [⟨0, 3, [0x23#8, 0x23, 0x23]⟩] }
def tokOut : TokImage :=
  { (default : TokImage) with
    header := tokHead 0 80000 1 5 [(0, 0), (0, 0), (0, 0), (0, 0), (0, 0), (0, 8388608), (0, 11)]
    slots := [hashSlot 912 4 5, hashSlot 30577 2 9, hashSlot 48101 5 0]
    heap := [0x20#8, 0x63, 0x61, 0x66, 0xC3, 0xA9, 0x20, 0x23, 0x23, 0x23, 0x21] }
def out0 : SampleOut := ⟨{ newSblk imgStop with genLimitRun := 100 }, [], 0, 0, 0, 0, [], 0⟩
def out1 : SampleOut := emitToken tokOut none out0 48101
def out2 : SampleOut := emitToken tokOut none { out1 with text := [] } 912
def out3 : SampleOut := emitToken tokOut none { out2 with text := [] } 30577

theorem test_text_out_holds_bytes :
    out1.text = [0x20#8, 0x63, 0x61, 0x66] ∧ out1.blk.matcher.dtUtf8 = [0xC3#8] ∧ out2.text = [0xC3#8, 0xA9, 0x20] ∧ out2.blk.matcher.depth = 2 := by
  decide +kernel

theorem test_stop_string_ends_the_session :
    out3.text = [] ∧ out3.stop = 1 ∧ out3.stopIndex = 0 ∧ out3.cutOff = 1 ∧ out3.blk.cutPending = true := by decide +kernel

/-! #### Rings: the example after R395 -/

/-- Ring pair 1,027 of F7 on line 3 for channel 2, with what the example says of its indexes. -/
def ring7 (tail head posted : Nat) : State :=
  { withChan 2 .attn {} up0 with
    rings := [(1027, { owner := 7, line := 3, target := 2, sqExp := 6, cqExp := 7, state := .active, sqTail := tail, sqHead := head,
                       cqPosted := posted, cqHead := 377 })]
    fns := [(7, { enable := true })] }

theorem test_poll_takes_the_tail : field (fun t => (t.ring 1027).sqTail) (.dbPoll [(1027, 194, 377)]) (ring7 190 190 377) = some 194 := by decide +kernel

theorem test_nop_completes_at_entry_377 :
    field (fun t => t.out.take 1) (.opNop { d0 with ring := 1027 }) (ring7 194 194 377) =
      some [.completion 1027 121 true 7 .ok 0 194 0 []] := by decide +kernel

theorem test_full_channel_status : field (fun t => (t.ring 1027).cqPosted) (.opNop { d0 with ring := 1027 }) (ring7 194 194 377) = some 378 := by
  decide +kernel

/-! #### Iris: the example after R413 -/

theorem test_text_costs_its_bytes : costOf false { nop0 with opcode := 0x30, rangeBytes := 1048576 } = 1048640 := by decide +kernel

/-- The flow of the example, with a descriptor held and both buckets full. -/
def iris1 : State :=
  { pc0.setRing 4095 { ring0 8 0 with held := [{ nop0 with rangeBytes := 1048576, flow := 0x123 }] } with
    flows := [(0x123, ⟨17, 0, true, 0⟩)]
    pairs := [(17, { params := ⟨10000, 40000, 4194304, 524288, false, false, 0⟩, c := 4194304000, p := 524288000 })] }

theorem test_release_takes_the_cost_from_both_buckets :
    field (fun t => ((t.pair 17).c, (t.pair 17).p)) (.descAdmit 4095) iris1 = some (3145664000, -524352000) := by decide +kernel

/-! #### Registers: the example after R544 -/

def regs2 : State := { withChan 2 .attn {} pc0 with regs := [(0x01200040, 0x0001110000012480)], locks := [3, 19] }

theorem test_locked_write_is_dropped : field (fun t => t.staged) (.regWrite (.fn 0) 0x01200040 8 0x0001110000012000) regs2 = some [] := by decide +kernel

theorem test_staged_write : field (fun t => tget 0x01200040 t.staged) (.regWrite (.fn 0) 0x01200040 8 0x0001110000012000)
    { regs2 with locks := [] } = some (some 0x0001110000012000) := by decide +kernel

theorem test_commit_applies : field (fun t => (tget 0x01200040 t.regs, t.mgmt.cfgBusy.isSome)) (.cfgCommit (.fn 0) 3)
    { regs2 with locks := [], staged := [(0x01200040, 0x0001110000012000)] } = some (some 0x0001110000012000, true) := by decide +kernel

/-! #### Sessions, the pool, ports and pins -/

/-- R57 and R37: the lowest free entry is 0; its handle holds the channel in bits 57..55, the index in 54..38, the count in 31..0. -/
theorem test_open_gives_the_handle_of_entry_0 :
    field (fun t => (((t.chan 7).dir 0).state, t.out.head?)) (.opSessionOpen d0 0 63 0 0 false 0 4096 img1) sOpen =
      some (.opened, some (.completion 4095 0 true 7 .ok 0x10 0 0 [7 * 2 ^ 55 + 1])) := by decide +kernel

/-- R39, R60: a CLOSE raises the count, so that the handle is stale. -/
theorem test_close_makes_the_handle_stale :
    (field (fun t => checkHandle h0 7 0 t) (.opSessionClose d0 h0) sOpen) = some (some .sessionStale) := by decide +kernel

/-- R329, R333: a read answers the bytes of the range. -/
theorem test_pool_read : field (fun t => t.out.head?) (.readReq pkt7 (at1 0) 2) p0 =
    some (some (.packet .readRsp 7 63 7 0 0 0 .ok 63 (.bytes [5, 0]))) := by decide +kernel

theorem test_pool_write : field (fun t => (t.chan 7).mem) (.write pkt7 (at1 1) [9, 0, 8]) p0 = some [(0, 5), (1, 9), (3, 8)] := by decide +kernel

/-- R332: an atomic add of INT64 wraps. -/
theorem test_atomic_add_wraps : field (fun t => (t.chan 7).mem) (.atomicAdd pkt7 { blk1 8 with elem := 3, operand := 0xFFFFFFFFFFFFFFFF }) p0 = some [(0, 4)] := by
  decide +kernel

theorem test_cas_that_differs_changes_nothing :
    field (fun t => (t.chan 7).mem) (.cas pkt7 { blk1 8 with operand := 6, operand2 := 7 }) p0 = some [(0, 5)] := by decide +kernel

theorem test_copy_reads_its_source_first : field (fun t => (t.chan 7).mem) (.copy pkt7 { blk1 2 with dst := 1, src := 0 }) p0 =
    some [(0, 5), (1, 5)] := by decide +kernel

/-- R338: an acquire for writing leaves the line MODIFIED, from an owner with leases enabled. -/
theorem test_acquire_m : field (fun t => (t.chan 7).pool.leases.map (fun e => (e.2.line, e.2.state))) (.acquireM pkt7 blkL) p0 = some [(63, 2)] := by
  decide +kernel

/-- R424: a partner takes a port from DETECT to SIGNAL. -/
theorem test_partner_detect : field (fun t => (t.port 7).state) (.partnerDetect 7 0xF) (port1 .detect {}) = some .signal := by decide +kernel

/-- R429: a flit whose CRC is wrong is counted. -/
theorem test_bad_flit_is_counted : field (fun t => (t.port 7).crcErr) (.flitReceive 7 []) (port1 .active {}) = some 1 := by decide +kernel

/-- R501: the setpoint moves by 5 mV and not below 0.60 V. -/
theorem test_avs_steps : avsNext true 750 = 745 ∧ avsNext false 750 = 755 ∧ avsNext true 600 = 600 ∧ avsNext false 800 = 800 := by decide +kernel

/-- R511: PORST_N low holds the block. -/
theorem test_porst_holds : field (fun t => t.up) .porstNFall up0 = some false := by decide +kernel

/-- R451, R472: provisioning takes MANUFACTURING to PROVISIONED. -/
theorem test_provisioning : field (fun t => t.encl.fuses.lifecycle) (.provisioningSequence [1] [] [] []) inMfg = some 1 := by decide +kernel

/-- R24: a fatal fault takes a channel to FAILED and empties it. -/
theorem test_channel_fault : field (fun t => ((t.chan 7).state, (t.chan 7).mem)) (.channelFatalFault 7 3) p0 = some (.failed, []) := by decide +kernel

/-- A step takes the front command and leaves the rest. -/
theorem test_step_takes_the_front :
    (match step { up0 with pending := [.portEnable (.fn 0) 7, .fwConfirm] } with
      | .next t => some (t.pending, (t.port 7).state)
      | _ => none) = some ([.fwConfirm], .detect) := by decide +kernel

/-- The list of R417's example. -/
def fp3 (opens : BitVec 8) : Gate := { running := ⟨true, 0, [⟨20000, 0x40⟩, ⟨80000, 0xBF⟩]⟩, opens := opens }

/-- R417: 12 ns before the end of its entry a segment of 18 flits does not fit, one of 5 flits does, and the longer one begins at the next
cycle. -/
theorem test_gate_example :
    mayBegin (fp3 0x40) 6 19988 (128 * 18) = none ∧ mayBegin (fp3 0x40) 6 19988 (128 * 5) = some false ∧
    mayBegin (fp3 0xBF) 6 20000 (128 * 5) = none ∧ mayBegin (fp3 0x40) 6 100000 (128 * 18) = some false := by decide +kernel

/-- R416: a packet longer than every window of its class begins with a window and overruns it. -/
theorem test_gate_overrun :
    let g : Gate := { running := ⟨true, 0, [⟨64, 0x40⟩, ⟨80000, 0xBF⟩]⟩, opens := 0x40 }
    mayBegin g 6 80064 (512 * 18) = some true ∧ mayBegin g 6 80065 (512 * 18) = none ∧ mayBegin g 0 80065 1 = none := by decide +kernel

end Sys2Proof.Tests
end

section
/-! Register writes: what the answer to an access leaves, what REG_WRITE does in each case of R530 to R535, and the settlement of O59. -/

namespace Sys2Proof.Machine

open Sys2Proof

/-! ### Answers leave everything but what has left the block -/

theorem answerReg_host (r : Requester) (st : Status) (p : Payload) (s : State) : HostSide s (answerReg r st p s) := by
  cases r <;> rfl

@[simp] theorem answerReg_regs (r : Requester) (st : Status) (p : Payload) (s : State) : (answerReg r st p s).regs = s.regs := by
  rw [answerReg_host r st p s]
@[simp] theorem answerReg_staged (r : Requester) (st : Status) (p : Payload) (s : State) : (answerReg r st p s).staged = s.staged := by
  rw [answerReg_host r st p s]
@[simp] theorem answerReg_chans (r : Requester) (st : Status) (p : Payload) (s : State) : (answerReg r st p s).chans = s.chans := by
  rw [answerReg_host r st p s]
@[simp] theorem answerReg_mgmt (r : Requester) (st : Status) (p : Payload) (s : State) : (answerReg r st p s).mgmt = s.mgmt := by
  rw [answerReg_host r st p s]
@[simp] theorem answerReg_power (r : Requester) (st : Status) (p : Payload) (s : State) : (answerReg r st p s).power = s.power := by
  rw [answerReg_host r st p s]
@[simp] theorem answerReg_chan (r : Requester) (st : Status) (p : Payload) (s : State) (n : Nat) : (answerReg r st p s).chan n = s.chan n :=
  (answerReg_host r st p s).chan n

/-- A refusal is counted, and changes no register and no channel (R530). -/
theorem denyReg_counts (r : Requester) (s : State) :
    (denyReg r s).mgmt.regDeny = wrap64 (s.mgmt.regDeny + 1) ∧ (denyReg r s).regs = s.regs ∧ (denyReg r s).chans = s.chans := by
  simp [denyReg]

@[simp] theorem setEff_regs (k v : Nat) (s : State) : (setEff k v s).regs = tset k v s.regs := rfl
@[simp] theorem setEff_staged (k v : Nat) (s : State) : (setEff k v s).staged = s.staged := rfl
@[simp] theorem setEff_chans (k v : Nat) (s : State) : (setEff k v s).chans = s.chans := rfl

/-! ### The cases of a register write -/

/-- The access names 4 or 8 bytes of the register map, aligned to their size (R530). -/
def InMap (a size : Nat) : Prop := addrMapped a = true ∧ (size = 4 ∨ size = 8) ∧ a % size = 0

theorem inMap_iff (a size : Nat) :
    InMap a size ↔ (!addrMapped a || !(size == 4 || size == 8) || a % size != 0) = false := by
  simp [InMap, and_assoc, or_iff_not_imp_left]

/-- The access reaches a register that some requester writes, and this one may (R532). -/
def MayWrite (r : Requester) (a size : Nat) (row : RegRow) (s : State) : Prop :=
  InMap a size ∧ regRow (a / 8 * 8) = some row ∧ row.writers ≠ .none ∧ writePermitted r (a / 8 * 8) row.writers s = true

/-- A register's value after an access: the bytes that the access names replaced, and the bits that the register does not have 0 (R530). -/
abbrev written (row : RegRow) (old a size : Nat) (value : Word) : Nat := rowMask row (mergeWrite old a size value.toNat)

section
variable {r : Requester} {a size : Nat} {value : Word} {row : RegRow} {s : State}

theorem exec_regWrite_up (h : s.up = true) : exec (.regWrite r a size value) s = .next (regWrite r a size value s) := whenUp_next h

theorem regWrite_outside (h : ¬InMap a size) : regWrite r a size value s = badReg r s := by
  rw [inMap_iff, Bool.not_eq_false] at h
  simp only [regWrite, h, if_true]

theorem regWrite_reserved (h : InMap a size) (hrow : regRow (a / 8 * 8) = none) : regWrite r a size value s = okReg r s := by
  rw [inMap_iff] at h
  simp only [regWrite, h, hrow, Bool.false_eq_true, if_false]

theorem regWrite_readOnly (h : InMap a size) (hrow : regRow (a / 8 * 8) = some row) (hw : row.writers = .none) :
    regWrite r a size value s = okReg r s := by
  rw [inMap_iff] at h
  simp only [regWrite, h, hrow, hw, Bool.false_eq_true, if_false, if_true]

theorem regWrite_denied (h : InMap a size) (hrow : regRow (a / 8 * 8) = some row) (hw : row.writers ≠ .none)
    (hp : writePermitted r (a / 8 * 8) row.writers s = false) : regWrite r a size value s = denyReg r s := by
  rw [inMap_iff] at h
  simp only [regWrite, h, hrow, hw, hp, Bool.false_eq_true, Bool.not_false, if_false, if_true]

/-- A setting of access RW takes its value when every field is in range (R530, R537). -/
theorem regWrite_rw (h : MayWrite r a size row s) (hc : row.cls = .rw) :
    regWrite r a size value s =
      if rowOk row (written row (eff (a / 8 * 8) s) a size value) = true ∧
          devicesBad (a / 8 * 8) (written row (eff (a / 8 * 8) s) a size value) s = false
      then okReg r (setEff (a / 8 * 8) (written row (eff (a / 8 * 8) s) a size value) s) else badReg r s := by
  obtain ⟨hin, hrow, hw, hp⟩ := h
  rw [inMap_iff] at hin
  simp only [regWrite, hin, hrow, hw, hp, hc, written, Bool.false_eq_true, Bool.not_true, if_false]
  generalize rowMask row _ = w
  cases rowOk row w <;> cases devicesBad (a / 8 * 8) w s <;> rfl

/-- A selector takes its value, in the requester's own copy, when it is in range (R531). -/
theorem regWrite_sel (h : MayWrite r a size row s) (hc : row.cls = .sel) :
    regWrite r a size value s =
      if rowOk row (written row (selOf r (a / 8 * 8) s) a size value) = true
      then okReg r (setSel r (a / 8 * 8) (written row (selOf r (a / 8 * 8) s) a size value) s) else badReg r s := by
  obtain ⟨hin, hrow, hw, hp⟩ := h
  rw [inMap_iff] at hin
  simp only [regWrite, hin, hrow, hw, hp, hc, Bool.false_eq_true, Bool.not_true, if_false]

theorem regWrite_committed (h : MayWrite r a size row s) (hc : row.cls = .recommit ∨ row.cls = .role) :
    regWrite r a size value s = okReg r (stageOrHold r a size value s) := by
  obtain ⟨hin, hrow, hw, hp⟩ := h
  rw [inMap_iff] at hin
  obtain hc | hc := hc <;> simp only [regWrite, hin, hrow, hw, hp, hc, Bool.false_eq_true, Bool.not_true, if_false]

theorem regWrite_own (h : MayWrite r a size row s) (hc : row.cls = .own) {n : Nat} (hn : addrChan (a / 8 * 8) = some n) :
    regWrite r a size value s = ownChan r n row (a / 8 * 8) a size value.toNat s := by
  obtain ⟨hin, hrow, hw, hp⟩ := h
  rw [inMap_iff] at hin
  simp only [regWrite, hin, hrow, hw, hp, hc, hn, Bool.false_eq_true, Bool.not_true, if_false]

/-! ### Staging (R534, R535) -/

/-- While its scope is being committed, the write is held. -/
theorem stageOrHold_busy {run : CfgRun} (hb : s.mgmt.cfgBusy = some run) (hs : run.scope = regScope (a / 8 * 8)) :
    stageOrHold r a size value s = { s with mgmt := { s.mgmt with heldWrites := s.mgmt.heldWrites ++ [(r, a, size, value)] } } := by
  simp only [stageOrHold, hb, hs, if_true]

theorem stageOrHold_free (hb : ∀ run, s.mgmt.cfgBusy = some run → run.scope ≠ regScope (a / 8 * 8)) :
    stageOrHold r a size value s = stageWrite r a size value s := by
  unfold stageOrHold
  split
  · rename_i run hrun
    rw [if_neg (hb run hrun)]
  · rfl

theorem stageWrite_locked (hl : isLocked (a / 8 * 8) s = true) : stageWrite r a size value s = s := by
  unfold stageWrite
  dsimp only
  split
  · rfl
  · rw [if_pos hl]

theorem stageWrite_unlocked (hrow : regRow (a / 8 * 8) = some row) (hl : isLocked (a / 8 * 8) s = false) :
    stageWrite r a size value s =
      { s with staged := tset (keyOf r (a / 8 * 8) s) (written row (stagedOf (keyOf r (a / 8 * 8) s) s) a size value)
                          s.staged } := by
  simp only [stageWrite, hrow, hl, Bool.false_eq_true, if_false]

end

/-! ### What REG_WRITE does, by the class of the register -/

section
variable {r : Requester} {a size : Nat} {value : Word} {row : RegRow} {s : State} (hup : s.up = true)
include hup

theorem exec_regWrite_rw_ok (h : MayWrite r a size row s) (hc : row.cls = .rw)
    (hok : rowOk row (written row (eff (a / 8 * 8) s) a size value) = true)
    (hd : devicesBad (a / 8 * 8) (written row (eff (a / 8 * 8) s) a size value) s = false) :
    ∃ t, exec (.regWrite r a size value) s = .next t ∧
      tget (a / 8 * 8) t.regs = some (written row (eff (a / 8 * 8) s) a size value) ∧
      (∀ k, k ≠ a / 8 * 8 → tget k t.regs = tget k s.regs) ∧ t.staged = s.staged ∧ t.chans = s.chans := by
  rw [exec_regWrite_up hup, regWrite_rw h hc, if_pos ⟨hok, hd⟩]
  exact ⟨_, rfl, by simp [okReg], fun k hk => by simp [okReg, tget_tset_other _ _ _ _ hk], by simp [okReg], by simp [okReg]⟩

theorem exec_regWrite_rw_bad (h : MayWrite r a size row s) (hc : row.cls = .rw)
    (hbad : rowOk row (written row (eff (a / 8 * 8) s) a size value) = false ∨
      devicesBad (a / 8 * 8) (written row (eff (a / 8 * 8) s) a size value) s = true) :
    exec (.regWrite r a size value) s = .next (answerReg r .paramInvalid .empty s) := by
  rw [exec_regWrite_up hup, regWrite_rw h hc, if_neg]
  · rfl
  · rintro ⟨hok, hd⟩
    obtain hbad | hbad := hbad
    · simp [hok] at hbad
    · simp [hd] at hbad

theorem exec_regWrite_held (h : MayWrite r a size row s) (hc : row.cls = .recommit ∨ row.cls = .role) {run : CfgRun}
    (hb : s.mgmt.cfgBusy = some run) (hs : run.scope = regScope (a / 8 * 8)) :
    exec (.regWrite r a size value) s = .next (answerReg r .ok .empty
      { s with mgmt := { s.mgmt with heldWrites := s.mgmt.heldWrites ++ [(r, a, size, value)] } }) := by
  rw [exec_regWrite_up hup, regWrite_committed h hc, stageOrHold_busy hb hs, okReg]

theorem exec_regWrite_locked (h : MayWrite r a size row s) (hc : row.cls = .recommit ∨ row.cls = .role)
    (hb : ∀ run, s.mgmt.cfgBusy = some run → run.scope ≠ regScope (a / 8 * 8)) (hl : isLocked (a / 8 * 8) s = true) :
    exec (.regWrite r a size value) s = .next (answerReg r .ok .empty s) := by
  rw [exec_regWrite_up hup, regWrite_committed h hc, stageOrHold_free hb, stageWrite_locked hl, okReg]

theorem exec_regWrite_staged (h : MayWrite r a size row s) (hc : row.cls = .recommit ∨ row.cls = .role)
    (hb : ∀ run, s.mgmt.cfgBusy = some run → run.scope ≠ regScope (a / 8 * 8)) (hl : isLocked (a / 8 * 8) s = false) :
    ∃ t, exec (.regWrite r a size value) s = .next t ∧ t.regs = s.regs ∧ t.chans = s.chans ∧
      tget (keyOf r (a / 8 * 8) s) t.staged =
        some (written row (stagedOf (keyOf r (a / 8 * 8) s) s) a size value) ∧
      (∀ k, k ≠ keyOf r (a / 8 * 8) s → tget k t.staged = tget k s.staged) := by
  rw [exec_regWrite_up hup, regWrite_committed h hc, stageOrHold_free hb, stageWrite_unlocked h.2.1 hl]
  exact ⟨_, rfl, by simp [okReg], by simp [okReg], by simp [okReg], fun k hk => by simp [okReg, tget_tset_other _ _ _ _ hk]⟩

end

/-! ### Registers at their addresses -/

theorem addrChan_chanBase {n o : Nat} (hn : n < 8) (ho : o < 0x100000) : addrChan (chanBase n + o) = some n := by
  unfold addrChan chanBase
  rw [if_pos (by omega), Option.some.injEq]
  omega

theorem regRow_of_addrChan {a n : Nat} (h : addrChan a = some n) : regRow a = tget (a - chanBase n) chanRegs := by
  simp only [regRow, h]

theorem regRow_chanBase {n o : Nat} (hn : n < 8) (ho : o < 0x100000) : regRow (chanBase n + o) = tget o chanRegs := by
  rw [regRow_of_addrChan (addrChan_chanBase hn ho), Nat.add_sub_cancel_left]

theorem inMap_chanBase {n o : Nat} (hn : n < 8) (ho : o < 0x100000) (h8 : o % 8 = 0) : InMap (chanBase n + o) 8 := by
  refine ⟨decide_eq_true ?_, .inr rfl, ?_⟩ <;> unfold chanBase <;> omega

theorem chanBase_aligned {n o : Nat} (h8 : o % 8 = 0) : (chanBase n + o) / 8 * 8 = chanBase n + o := by
  unfold chanBase
  omega

/-- POOL_LATE_WB, of each channel, is F0's (R532). -/
theorem mayWrite_lateWb {n : Nat} (hn : n < 8) (s : State) : MayWrite (.fn 0) (chanBase n + 0x20010) 8 ⟨.own, .f0, []⟩ s := by
  refine ⟨inMap_chanBase hn (by decide) rfl, ?_, by decide, rfl⟩
  rw [chanBase_aligned rfl, regRow_chanBase hn (by decide)]
  decide

/-- PRT_GPIO_OUT is F0's, and takes effect at once (R538). -/
theorem mayWrite_gpioOut (s : State) : MayWrite (.fn 0) 0x148 8 ⟨.rw, .f0, [⟨0, 16, 0, 65535, 0⟩]⟩ s :=
  ⟨⟨by decide, .inr rfl, rfl⟩, by decide, by decide, rfl⟩

/-- PRT_EXQ_THRESH is F0's, and takes effect by a commit of scope 0 (R538, R534). -/
theorem mayWrite_exqThresh (s : State) :
    MayWrite (.fn 0) 0x0F0 8 ⟨.recommit, .f0, [⟨0, 12, 64, 4032, 3072⟩, ⟨16, 12, 0, 4031, 1024⟩]⟩ s :=
  ⟨⟨by decide, .inr rfl, rfl⟩, by decide, by decide, rfl⟩

theorem rowMask_pair (c : RegClass) (w : Writers) (f g : RField) (v : Nat) :
    rowMask ⟨c, w, [f, g]⟩ v = fieldOf v f.lo f.w * 2 ^ f.lo + fieldOf v g.lo g.w * 2 ^ g.lo := by
  simp [rowMask]

theorem rowMask_exqThresh (v : Nat) :
    rowMask ⟨.recommit, .f0, [⟨0, 12, 64, 4032, 3072⟩, ⟨16, 12, 0, 4031, 1024⟩]⟩ v = v % 4096 + v / 65536 % 4096 * 65536 := by
  rw [rowMask_pair]
  simp [fieldOf]

theorem isLocked_exqThresh (s : State) : isLocked 0x0F0 s = s.locks.contains 0 := by
  have hlock : lockOf 0x0F0 = 0 := by decide
  have hclass : (regClassOf 0x0F0 == some .role) = false := by decide
  simp [isLocked, hlock, hclass]

theorem mergeWrite_eight (old a v : Nat) : mergeWrite old a 8 v = v := if_pos rfl

/-- A register that no selector indexes is reached by its address (R531). -/
theorem keyOf_of_not_selected {r : Requester} {a : Nat} {s : State} (h : selectorFor a = none) : keyOf r a s = a := by
  simp only [keyOf, h]

/-- A write of all 8 bytes clears the bits that are 1 in it (R533). -/
theorem lateWritten_eight (a c : Nat) (value : Word) :
    BitVec.ofNat 64 (lateWritten a 8 value.toNat c) = BitVec.ofNat 64 c &&& ~~~value := by
  simp only [lateWritten, mergeWrite_eight, BitVec.ofNat_toNat, BitVec.setWidth_eq]

section
variable {value : Word} {s : State} (hup : s.up = true)
include hup

/-- Each 1 that F0 writes clears its bit of a channel's late write-back counter (R10, R533). -/
theorem exec_regWrite_lateWb {n : Nat} (hn : n < 8) :
    ∃ t, exec (.regWrite (.fn 0) (chanBase n + 0x20010) 8 value) s = .next t ∧
      BitVec.ofNat 64 (t.chan n).pool.lateWb = BitVec.ofNat 64 (s.chan n).pool.lateWb &&& ~~~value ∧
      (∀ k, k ≠ n → t.chan k = s.chan k) ∧ t.regs = s.regs := by
  have hchan : addrChan ((chanBase n + 0x20010) / 8 * 8) = some n := by
    rw [chanBase_aligned rfl, addrChan_chanBase hn (by decide)]
  rw [exec_regWrite_up hup, regWrite_own (mayWrite_lateWb hn s) rfl hchan]
  simp only [ownChan, chanBase_aligned (n := n) (o := 0x20010) rfl, Nat.add_sub_cancel_left]
  refine ⟨_, rfl, ?_, fun k hk => ?_, ?_⟩
  · simp [ownChanAt, okReg, lateWritten_eight]
  · simp [ownChanAt, okReg, State.modChan_chan_other _ _ _ _ hk]
  · simp [ownChanAt, okReg]

theorem exec_regWrite_gpioOut :
    ∃ t, exec (.regWrite (.fn 0) 0x148 8 value) s = .next t ∧ tget 0x148 t.regs = some (value.toNat % 65536) ∧
      (∀ k, k ≠ 0x148 → tget k t.regs = tget k s.regs) ∧ t.chans = s.chans ∧ t.staged = s.staged := by
  have hrange : value.toNat % 65536 ≤ 65535 := by omega
  obtain ⟨t, hnext, hget, hother, hstaged, hchans⟩ := exec_regWrite_rw_ok (value := value) hup (mayWrite_gpioOut s) rfl
    (by simp [rowOk, rowMask, mergeWrite, fieldOf, hrange]) rfl
  exact ⟨t, hnext, by simpa [rowMask, mergeWrite, fieldOf] using hget, hother, hchans, hstaged⟩

theorem exec_regWrite_exqThresh_staged (hl : s.locks = []) (hb : s.mgmt.cfgBusy = none) :
    ∃ t, exec (.regWrite (.fn 0) 0x0F0 8 value) s = .next t ∧ t.regs = s.regs ∧
      tget 0x0F0 t.staged = some (value.toNat % 4096 + value.toNat / 65536 % 4096 * 65536) ∧
      (∀ k, k ≠ 0x0F0 → tget k t.staged = tget k s.staged) := by
  obtain ⟨t, hnext, hregs, -, hget, hother⟩ := exec_regWrite_staged (value := value) hup (mayWrite_exqThresh s) (.inl rfl)
    (by simp [hb]) (by rw [show 0x0F0 / 8 * 8 = 0x0F0 from rfl, isLocked_exqThresh, hl]; rfl)
  rw [show 0x0F0 / 8 * 8 = 0x0F0 from rfl, keyOf_of_not_selected (by decide)] at hget hother
  rw [written, mergeWrite_eight, rowMask_exqThresh] at hget
  exact ⟨t, hnext, hregs, hget, hother⟩

theorem exec_regWrite_exqThresh_locked (hl : 0 ∈ s.locks) (hb : s.mgmt.cfgBusy = none) :
    exec (.regWrite (.fn 0) 0x0F0 8 value) s = .next (answerReg (.fn 0) .ok .empty s) :=
  exec_regWrite_locked hup (mayWrite_exqThresh s) (.inl rfl) (by simp [hb])
    (by rw [show 0x0F0 / 8 * 8 = 0x0F0 from rfl, isLocked_exqThresh]; simpa using hl)

theorem exec_regWrite_exqThresh_held {run : CfgRun} (hb : s.mgmt.cfgBusy = some run) (hs : run.scope = 0) :
    ∃ t, exec (.regWrite (.fn 0) 0x0F0 8 value) s = .next t ∧ t.staged = s.staged ∧
      t.mgmt.heldWrites = s.mgmt.heldWrites ++ [(Requester.fn 0, 0x0F0, 8, value)] := by
  have hscope : run.scope = regScope (0x0F0 / 8 * 8) := by rw [hs]; decide
  rw [exec_regWrite_held hup (mayWrite_exqThresh s) (.inl rfl) hb hscope]
  exact ⟨_, rfl, by simp, by simp⟩

/-! ### The commands that act on one register -/

theorem exec_prtWdogKick_up (r : Requester) :
    exec (.prtWdogKick r) s = .next (if r = .service then { s with mgmt := { s.mgmt with kickedAt := s.now } } else denyReg r s) := by
  rw [show exec (.prtWdogKick r) s = execPrtWdogKick r s from rfl, execPrtWdogKick, whenUp_next hup]

theorem exec_poolLateWbClear_up (r : Requester) (n : Nat) :
    exec (.poolLateWbClear r n) s = .next (if 8 ≤ n then s else if r = .fn 0 then okReg r (clearLateWb n s) else denyReg r s) := by
  rw [show exec (.poolLateWbClear r n) s = execPoolLateWbClear r n s from rfl, execPoolLateWbClear, whenUp_next hup]

theorem exec_alertStatusClear_up (r : Requester) (m : BitVec 6) :
    exec (.alertStatusClear r m) s =
      .next (if r = .fn 0 ∨ r = .bmc then answerReg r .ok .empty (clearAlerts m s) else denyReg r s) := by
  rw [show exec (.alertStatusClear r m) s = execAlertStatusClear r m s from rfl, execAlertStatusClear, whenUp_next hup]

end

/-- Clearing a channel's late write-back counter leaves its memory and every other channel (R533). -/
theorem clearLateWb_clears (n : Nat) (s : State) :
    ((clearLateWb n s).chan n).pool.lateWb = 0 ∧ ((clearLateWb n s).chan n).mem = (s.chan n).mem ∧
      (∀ k, k ≠ n → (clearLateWb n s).chan k = s.chan k) ∧ (clearLateWb n s).regs = s.regs :=
  ⟨by simp [clearLateWb], by simp [clearLateWb], fun _ hk => State.modChan_chan_other _ _ _ _ hk, rfl⟩

/-- Settles O59: the cases of R530 by the class of the register, then the registers named by their addresses. -/
theorem registersAreWritten : Obligations.RegistersAreWritten := by
  intro r value s hup
  refine ⟨fun a size h => ?outside, fun a size row hm hsize ha hrow hw hp => ?denied, fun a size hm hsize ha =>
      ⟨fun hrow => ?reserved, fun row hrow => ⟨fun hw => ?readOnly, fun hw hp => ?byClass⟩⟩, ?lateWb, ?named, exec_prtWdogKick_up hup r,
    fun n => ⟨fun hn => ?noChannel, fun hn hr => ?clearDenied, fun hn hr => ?cleared⟩,
    fun m => ⟨fun hf hb => ?alertDenied, fun hr => ?alertCleared⟩⟩
  case outside =>
    have hout : ¬InMap a size := by
      rintro ⟨hm, hsize, ha⟩
      obtain h | ⟨h4, h8⟩ | h := h
      · simp [hm] at h
      · exact hsize.elim h4 h8
      · exact h ha
    rw [exec_regWrite_up hup, regWrite_outside hout, badReg]
  case denied =>
    rw [exec_regWrite_up hup, regWrite_denied ⟨hm, hsize, ha⟩ hrow hw hp]
    exact ⟨rfl, denyReg_counts r s⟩
  case reserved => rw [exec_regWrite_up hup, regWrite_reserved ⟨hm, hsize, ha⟩ hrow, okReg]
  case readOnly => rw [exec_regWrite_up hup, regWrite_readOnly ⟨hm, hsize, ha⟩ hrow hw, okReg]
  case byClass =>
    have h : MayWrite r a size row s := ⟨⟨hm, hsize, ha⟩, hrow, hw, hp⟩
    refine ⟨fun hc => ⟨exec_regWrite_rw_ok hup h hc, exec_regWrite_rw_bad hup h hc⟩, fun hc => ⟨fun hok => ?_, fun hok => ?_⟩,
      fun hc => ⟨fun run => exec_regWrite_held hup h hc,
        fun hb => ⟨exec_regWrite_locked hup h hc hb, exec_regWrite_staged hup h hc hb⟩⟩⟩
    · rw [exec_regWrite_up hup, regWrite_sel h hc, if_pos hok, okReg]
    · rw [exec_regWrite_up hup, regWrite_sel h hc, if_neg (by simp [hok]), badReg]
  case lateWb =>
    rintro n hn rfl
    exact exec_regWrite_lateWb hup hn
  case named =>
    rintro rfl
    exact ⟨exec_regWrite_gpioOut hup, exec_regWrite_exqThresh_staged hup, exec_regWrite_exqThresh_locked hup,
      fun run => exec_regWrite_exqThresh_held hup⟩
  case noChannel => rw [exec_poolLateWbClear_up hup, if_pos hn]
  case clearDenied => rw [exec_poolLateWbClear_up hup, if_neg (by omega), if_neg hr]
  case cleared =>
    obtain ⟨hwb, hmem, hother, hregs⟩ := clearLateWb_clears n s
    rw [exec_poolLateWbClear_up hup, if_neg (by omega), if_pos hr]
    exact ⟨_, rfl, by simp [okReg, hwb], by simp [okReg, hmem], fun k hk => by simp [okReg, hother k hk], by simp [okReg, hregs]⟩
  case alertDenied => rw [exec_alertStatusClear_up hup, if_neg (by simp [hf, hb])]
  case alertCleared =>
    rw [exec_alertStatusClear_up hup, if_pos hr]
    exact ⟨_, rfl, by simp [clearAlerts], by simp [clearAlerts]⟩

end Sys2Proof.Machine
end

section
/-! What every command answers: a command that does not move PORST_N keeps the queue, and one that is not of the pins acts on an up block alone. The
settlement of O3 and O41. -/

namespace Sys2Proof.Machine

open Sys2Proof

/-! ### Every command answers a next state -/

theorem follows_of_kept {o : Host.Outcome State Fault Refusal} {s : State} (h : ∃ t, o = .next t ∧ Kept s t) :
    ∃ t, o = .next t ∧ Follows s t :=
  h.imp fun _ => And.imp_right Kept.follows

/-- Every command but those that move PORST_N answers a next state with the queue and PORST_N as before, its fuses moved forward at most. -/
theorem exec_follows (c : Instr) (s : State) (hfall : c ≠ .porstNFall) (hrise : ∀ b, c ≠ .porstNRise b) :
    ∃ t, exec c s = .next t ∧ Follows s t := by
  cases c with
  | opNop => exact follows_of_kept (exec_opNop_goes s)
  | opBufRegister => exact follows_of_kept (exec_opBufRegister_goes s)
  | opBufUnregister => exact follows_of_kept (exec_opBufUnregister_goes s)
  | opSessionOpen => exact follows_of_kept (exec_opSessionOpen_goes s)
  | opSessionClose => exact follows_of_kept (exec_opSessionClose_goes s)
  | opSessionPark => exact follows_of_kept (exec_opSessionPark_goes s)
  | opSessionRevive => exact follows_of_kept (exec_opSessionRevive_goes s)
  | opSessionFork => exact follows_of_kept (exec_opSessionFork_goes s)
  | opSessionResume => exact follows_of_kept (exec_opSessionResume_goes s)
  | opSessionSet => exact follows_of_kept (exec_opSessionSet_goes s)
  | opSessionQuery => exact follows_of_kept (exec_opSessionQuery_goes s)
  | opKvPrefetch => exact follows_of_kept (exec_opKvPrefetch_goes s)
  | opProfileSet => exact follows_of_kept (exec_opProfileSet_goes s)
  | opKvAppend => exact follows_of_kept (exec_opKvAppend_goes s)
  | opAttnPrefill => exact follows_of_kept (exec_opAttnPrefill_goes s)
  | opAttnMerge => exact follows_of_kept (exec_opAttnMerge_goes s)
  | opStep => exact follows_of_kept (exec_opStep_goes s)
  | opTextIn => exact follows_of_kept (exec_opTextIn_goes s)
  | opTokenizerLoad => exact follows_of_kept (exec_opTokenizerLoad_goes s)
  | tokenizerUnload => exact follows_of_kept (exec_tokenizerUnload_goes s)
  | opSessionDraft => exact follows_of_kept (exec_opSessionDraft_goes s)
  | opGrammarLoad => exact follows_of_kept (exec_opGrammarLoad_goes s)
  | grammarUnload => exact follows_of_kept (exec_grammarUnload_goes s)
  | opModelLoad => exact follows_of_kept (exec_opModelLoad_goes s)
  | modelUnload => exact follows_of_kept (exec_modelUnload_goes s)
  | opModelRun => exact follows_of_kept (exec_opModelRun_goes s)
  | opMirrorSnapshot => exact follows_of_kept (exec_opMirrorSnapshot_goes s)
  | opMirrorRestore => exact follows_of_kept (exec_opMirrorRestore_goes s)
  | opMirrorRollback => exact follows_of_kept (exec_opMirrorRollback_goes s)
  | sessionRollback => exact follows_of_kept (exec_sessionRollback_goes s)
  | opPartitionSet => exact follows_of_kept (exec_opPartitionSet_goes s)
  | opExtentSet => exact follows_of_kept (exec_opExtentSet_goes s)
  | opExtentRevoke => exact follows_of_kept (exec_opExtentRevoke_goes s)
  | opRebuild => exact follows_of_kept (exec_opRebuild_goes s)
  | opPoolOp => exact follows_of_kept (exec_opPoolOp_goes s)
  | opWaitCount => exact follows_of_kept (exec_opWaitCount_goes s)
  | opLensCreate => exact follows_of_kept (exec_opLensCreate_goes s)
  | lensDestroy => exact follows_of_kept (exec_lensDestroy_goes s)
  | opLensQuery => exact follows_of_kept (exec_opLensQuery_goes s)
  | opLensInsert => exact follows_of_kept (exec_opLensInsert_goes s)
  | opLensDelete => exact follows_of_kept (exec_opLensDelete_goes s)
  | opLensConsolidate => exact follows_of_kept (exec_opLensConsolidate_goes s)
  | opMergeTopk => exact follows_of_kept (exec_opMergeTopk_goes s)
  | ringReset => exact follows_of_kept (exec_ringReset_goes s)
  | functionReset => exact follows_of_kept (exec_functionReset_goes s)
  | channelReset => exact follows_of_kept (exec_channelReset_goes s)
  | warmDeviceReset => exact follows_of_kept (exec_warmDeviceReset_goes s)
  | opIrisSet => exact follows_of_kept (exec_opIrisSet_goes s)
  | opApertureSet => exact follows_of_kept (exec_opApertureSet_goes s)
  | opCompositionSet => exact follows_of_kept (exec_opCompositionSet_goes s)
  | opCompositionRead => exact follows_of_kept (exec_opCompositionRead_goes s)
  | opEvidenceGet => exact follows_of_kept (exec_opEvidenceGet_goes s)
  | opKeyRelease => exact follows_of_kept (exec_opKeyRelease_goes s)
  | keyErase => exact follows_of_kept (exec_keyErase_goes s)
  | opGroupKey => exact follows_of_kept (exec_opGroupKey_goes s)
  | groupKeyErase => exact follows_of_kept (exec_groupKeyErase_goes s)
  | debugChallenge => exact follows_of_kept (exec_debugChallenge_goes s)
  | debugSubmit => exact exec_debugSubmit_follows s
  | fwStage => exact follows_of_kept (exec_fwStage_goes s)
  | fwActivate => exact follows_of_kept (exec_fwActivate_goes s)
  | fwCommitSvn => exact exec_fwCommitSvn_follows s
  | opRoleSet => exact follows_of_kept (exec_opRoleSet_goes s)
  | opSpectrumSnapshot => exact follows_of_kept (exec_opSpectrumSnapshot_goes s)
  | cfgCommit => exact follows_of_kept (exec_cfgCommit_goes s)
  | cfgUnlock => exact follows_of_kept (exec_cfgUnlock_goes s)
  | cfgDiscard => exact follows_of_kept (exec_cfgDiscard_goes s)
  | ringEnable => exact follows_of_kept (exec_ringEnable_goes s)
  | prtWdogKick => exact follows_of_kept (exec_prtWdogKick_goes s)
  | prtPeerClear => exact follows_of_kept (exec_prtPeerClear_goes s)
  | portEnable => exact follows_of_kept (exec_portEnable_goes s)
  | portDisable => exact follows_of_kept (exec_portDisable_goes s)
  | rewiden => exact follows_of_kept (exec_rewiden_goes s)
  | wlHeadWrite => exact follows_of_kept (exec_wlHeadWrite_goes s)
  | vecUnmask => exact follows_of_kept (exec_vecUnmask_goes s)
  | alertStatusClear => exact follows_of_kept (exec_alertStatusClear_goes s)
  | poolLateWbClear => exact follows_of_kept (exec_poolLateWbClear_goes s)
  | regWrite => exact follows_of_kept (exec_regWrite_goes s)
  | notifyDb => exact follows_of_kept (exec_notifyDb_goes s)
  | dbPoll => exact follows_of_kept (exec_dbPoll_goes s)
  | descFetch => exact follows_of_kept (exec_descFetch_goes s)
  | descAdmit => exact follows_of_kept (exec_descAdmit_goes s)
  | irisRefill => exact follows_of_kept (exec_irisRefill_goes s)
  | descComplete => exact follows_of_kept (exec_descComplete_goes s)
  | intrTimer => exact follows_of_kept (exec_intrTimer_goes s)
  | coalescePeriod => exact follows_of_kept (exec_coalescePeriod_goes s)
  | partnerDetect => exact follows_of_kept (exec_partnerDetect_goes s)
  | signalDone => exact follows_of_kept (exec_signalDone_goes s)
  | equalizeDone => exact follows_of_kept (exec_equalizeDone_goes s)
  | alignDone => exact follows_of_kept (exec_alignDone_goes s)
  | linkMessage => exact follows_of_kept (exec_linkMessage_goes s)
  | trainingLimitExpiry => exact follows_of_kept (exec_trainingLimitExpiry_goes s)
  | laneLockLoss => exact follows_of_kept (exec_laneLockLoss_goes s)
  | fecUncorrLimit => exact follows_of_kept (exec_fecUncorrLimit_goes s)
  | linkDownTimeout => exact follows_of_kept (exec_linkDownTimeout_goes s)
  | downRetry => exact follows_of_kept (exec_downRetry_goes s)
  | flitReceive => exact follows_of_kept (exec_flitReceive_goes s)
  | replayTimeout => exact follows_of_kept (exec_replayTimeout_goes s)
  | ackTimer => exact follows_of_kept (exec_ackTimer_goes s)
  | readReq => exact follows_of_kept (exec_readReq_goes s)
  | readRsp => exact follows_of_kept (exec_readRsp_goes s)
  | write => exact follows_of_kept (exec_write_goes s)
  | writeBulk => exact follows_of_kept (exec_writeBulk_goes s)
  | writeAck => exact follows_of_kept (exec_writeAck_goes s)
  | poolRsp => exact follows_of_kept (exec_poolRsp_goes s)
  | segAttn => exact follows_of_kept (exec_segAttn_goes s)
  | segSample => exact follows_of_kept (exec_segSample_goes s)
  | regRsp => exact follows_of_kept (exec_regRsp_goes s)
  | ctrRead => exact follows_of_kept (exec_ctrRead_goes s)
  | ctrRsp => exact follows_of_kept (exec_ctrRsp_goes s)
  | unreach => exact follows_of_kept (exec_unreach_goes s)
  | reqTimeout => exact follows_of_kept (exec_reqTimeout_goes s)
  | fill => exact follows_of_kept (exec_fill_goes s)
  | copy => exact follows_of_kept (exec_copy_goes s)
  | compare => exact follows_of_kept (exec_compare_goes s)
  | reduce => exact follows_of_kept (exec_reduce_goes s)
  | atomicAdd => exact follows_of_kept (exec_atomicAdd_goes s)
  | cas => exact follows_of_kept (exec_cas_goes s)
  | acquireS => exact follows_of_kept (exec_acquireS_goes s)
  | acquireM => exact follows_of_kept (exec_acquireM_goes s)
  | writeback => exact follows_of_kept (exec_writeback_goes s)
  | release => exact follows_of_kept (exec_release_goes s)
  | renew => exact follows_of_kept (exec_renew_goes s)
  | leaseExpiry => exact follows_of_kept (exec_leaseExpiry_goes s)
  | recallTimeout => exact follows_of_kept (exec_recallTimeout_goes s)
  | extentDrained => exact follows_of_kept (exec_extentDrained_goes s)
  | extentZeroFillDone => exact follows_of_kept (exec_extentZeroFillDone_goes s)
  | secondaryAckTimeout => exact follows_of_kept (exec_secondaryAckTimeout_goes s)
  | rebuildCopy => exact follows_of_kept (exec_rebuildCopy_goes s)
  | gatherExpiry => exact follows_of_kept (exec_gatherExpiry_goes s)
  | workListFix => exact follows_of_kept (exec_workListFix_goes s)
  | fixedListFix => exact follows_of_kept (exec_fixedListFix_goes s)
  | workListPublish => exact follows_of_kept (exec_workListPublish_goes s)
  | wlWaitTimeout => exact follows_of_kept (exec_wlWaitTimeout_goes s)
  | layerTimeout => exact follows_of_kept (exec_layerTimeout_goes s)
  | bucketBuild => exact follows_of_kept (exec_bucketBuild_goes s)
  | attnLayerComplete => exact follows_of_kept (exec_attnLayerComplete_goes s)
  | mergeTimeout => exact follows_of_kept (exec_mergeTimeout_goes s)
  | sampleRow => exact follows_of_kept (exec_sampleRow_goes s)
  | outHeadRefresh => exact follows_of_kept (exec_outHeadRefresh_goes s)
  | bulkUnitComplete => exact follows_of_kept (exec_bulkUnitComplete_goes s)
  | preemptSaveComplete => exact follows_of_kept (exec_preemptSaveComplete_goes s)
  | restoreComplete => exact follows_of_kept (exec_restoreComplete_goes s)
  | demote => exact follows_of_kept (exec_demote_goes s)
  | pageMoveComplete => exact follows_of_kept (exec_pageMoveComplete_goes s)
  | pageEncode => exact follows_of_kept (exec_pageEncode_goes s)
  | fetchComplete => exact follows_of_kept (exec_fetchComplete_goes s)
  | modelRunDispatch => exact follows_of_kept (exec_modelRunDispatch_goes s)
  | windowFill => exact follows_of_kept (exec_windowFill_goes s)
  | expansionServe => exact follows_of_kept (exec_expansionServe_goes s)
  | consolidateFree => exact follows_of_kept (exec_consolidateFree_goes s)
  | waitPoll => exact follows_of_kept (exec_waitPoll_goes s)
  | waitTimeout => exact follows_of_kept (exec_waitTimeout_goes s)
  | gateBoundary => exact follows_of_kept (exec_gateBoundary_goes s)
  | mirrorInterval => exact follows_of_kept (exec_mirrorInterval_goes s)
  | captureStart => exact follows_of_kept (exec_captureStart_goes s)
  | copierCapture => exact follows_of_kept (exec_copierCapture_goes s)
  | mirrorAckTimeout => exact follows_of_kept (exec_mirrorAckTimeout_goes s)
  | warnMeasure => exact follows_of_kept (exec_warnMeasure_goes s)
  | exceptionComplete => exact follows_of_kept (exec_exceptionComplete_goes s)
  | watchdogExpiry => exact follows_of_kept (exec_watchdogExpiry_goes s)
  | fwRestartDone => exact follows_of_kept (exec_fwRestartDone_goes s)
  | fwConfirm => exact follows_of_kept (exec_fwConfirm_goes s)
  | channelFatalFault => exact exec_channelFatalFault_follows s
  | deviceFatalFault => exact follows_of_kept (exec_deviceFatalFault_goes s)
  | patrolScrub => exact follows_of_kept (exec_patrolScrub_goes s)
  | channelResetDone => exact exec_channelResetDone_follows s
  | functionFenceEnd => exact follows_of_kept (exec_functionFenceEnd_goes s)
  | spectrumSample => exact follows_of_kept (exec_spectrumSample_goes s)
  | enclaveError => exact follows_of_kept (exec_enclaveError_goes s)
  | porstNFall => exact absurd rfl hfall
  | porstNRise b => exact absurd rfl (hrise b)
  | warmNRise => exact follows_of_kept (exec_warmNRise_goes s)
  | pwrcapChange => exact follows_of_kept (exec_pwrcapChange_goes s)
  | thermtrip => exact follows_of_kept (exec_thermtrip_goes s)
  | pllLockLoss => exact follows_of_kept (exec_pllLockLoss_goes s)
  | railFault => exact follows_of_kept (exec_railFault_goes s)
  | pmbusPoll => exact follows_of_kept (exec_pmbusPoll_goes s)
  | smb1AlertN => exact follows_of_kept (exec_smb1AlertN_goes s)
  | avsAdjust => exact follows_of_kept (exec_avsAdjust_goes s)
  | thermalSample => exact follows_of_kept (exec_thermalSample_goes s)
  | powerControl => exact follows_of_kept (exec_powerControl_goes s)
  | bmcBlockWrite => exact follows_of_kept (exec_bmcBlockWrite_goes s)
  | bmcBlockRead => exact follows_of_kept (exec_bmcBlockRead_goes s)
  | drainTmoExpiry => exact follows_of_kept (exec_drainTmoExpiry_goes s)
  | scrubComplete => exact follows_of_kept (exec_scrubComplete_goes s)
  | provisioningSequence => exact exec_provisioningSequence_follows s

/-- Every command answers a next state with the queue as before. -/
theorem exec_keepsQueue (c : Instr) (s : State) : ∃ t, exec c s = .next t ∧ t.pending = s.pending := by
  by_cases hfall : c = .porstNFall
  · subst hfall
    exact ⟨powerOff s, rfl, rfl⟩
  by_cases hrise : ∃ b, c = .porstNRise b
  · obtain ⟨b, rfl⟩ := hrise
    refine ⟨if s.power.porstN then s else boot b s, rfl, ?_⟩
    split
    · rfl
    · exact (boot_leaves b s).1
  · obtain ⟨t, hnext, hqueue, -⟩ := exec_follows c s hfall (not_exists.mp hrise)
    exact ⟨t, hnext, hqueue⟩

/-! ### Every command but those of the pins is gated by `State.up` -/

/-- A command that is not of the pins acts on an up block alone (R24, R509, R513). -/
theorem exec_gated (c : Instr) (hc : actsOnPins c = false) : ∃ f : State → State, exec c = whenUp f := by
  cases c with
  | ringReset by_ => cases by_ <;> exact ⟨_, rfl⟩
  | functionReset by_ => cases by_ <;> exact ⟨_, rfl⟩
  | channelReset by_ => cases by_ <;> exact ⟨_, rfl⟩
  | warmDeviceReset by_ =>
    cases by_ with
    | pin => cases hc
    | _ => exact ⟨_, rfl⟩
  | porstNFall | porstNRise | warmNRise | pwrcapChange | thermtrip => cases hc
  | _ => exact ⟨_, rfl⟩

theorem exec_down (c : Instr) {s : State} (hup : s.up = false) (hc : actsOnPins c = false) : exec c s = .next s := by
  obtain ⟨f, hf⟩ := exec_gated c hc
  rw [hf, whenUp_down hup]

/-- Settles O3: the queue by the law of each command, and no effect while the block is not up because every command but those of the pins is
gated. -/
theorem commandsAnswerAndKeepTheQueue : Obligations.CommandsAnswerAndKeepTheQueue :=
  fun c s => ⟨exec_keepsQueue c s, exec_down c⟩

/-! ### Packets that do not reach their unit (R16, R434, R436) -/

section
variable {p : Pkt} {f : State → State} {s : State}

theorem arrive_misrouted (hunit : p.dstUnit ≤ 8) (h : p.dstUnit ≠ p.port ∨ p.dstFid ≠ s.fid) :
    arrive p f s = s.modPort p.port (fun q => { q with misroute := wrap64 (q.misroute + 1) }) := by
  rw [arrive, if_neg (Nat.not_lt.mpr hunit), if_pos h.symm]

theorem arrive_reserved (hunit : 8 < p.dstUnit) : arrive p f s = badPacket p.port s := if_pos hunit

end

/-- Settles O41: every command that brings a packet acts through `arrive`. -/
theorem misroutedPacketsAreCounted : Obligations.MisroutedPacketsAreCounted := by
  intro p s hup c hc
  have harrive : ∃ f, exec c = whenUp (arrive p f) := by
    rcases hc with ⟨_, _, rfl⟩ | ⟨_, _, rfl⟩ | ⟨_, _, rfl⟩ | ⟨_, rfl⟩ | ⟨_, rfl⟩ | ⟨_, _, rfl⟩ | ⟨_, rfl⟩ | ⟨_, rfl⟩ | ⟨_, rfl⟩ |
      ⟨_, rfl⟩ | ⟨_, _, rfl⟩ | ⟨_, rfl⟩ | ⟨_, rfl⟩ | ⟨_, rfl⟩ | ⟨_, rfl⟩ | ⟨_, rfl⟩ | ⟨_, rfl⟩ | ⟨_, rfl⟩ | ⟨_, rfl⟩ |
      ⟨_, _, rfl⟩ | ⟨_, _, rfl⟩ | ⟨_, rfl⟩ <;> exact ⟨_, rfl⟩
  obtain ⟨f, hf⟩ := harrive
  rw [hf, whenUp_next hup]
  exact ⟨fun hunit h => by rw [arrive_misrouted hunit h], fun hunit => by rw [arrive_reserved hunit]⟩

end Sys2Proof.Machine
end

section
/-! What the end of everything outstanding for a channel leaves, and what a fault of a channel does (R22 to R24, R489). The settlement
of O54. -/

namespace Sys2Proof.Machine

open Sys2Proof

/-! ### What has left the block stays, and no operation becomes outstanding -/

/-- Between two states nothing that has left the block is taken back, and no operation becomes outstanding. -/
structure WindsDown (s t : State) : Prop where
  out : s.out <:+ t.out
  ops : t.ops.Sublist s.ops

theorem WindsDown.of_eq {s t : State} (hout : t.out = s.out) (hops : t.ops = s.ops) : WindsDown s t :=
  ⟨hout ▸ List.suffix_rfl, hops ▸ .refl _⟩

theorem WindsDown.refl (s : State) : WindsDown s s := .of_eq rfl rfl

theorem WindsDown.trans {s t u : State} (h : WindsDown s t) (g : WindsDown t u) : WindsDown s u :=
  ⟨h.out.trans g.out, g.ops.trans h.ops⟩

theorem WindsDown.ite {s t u : State} {c : Prop} [Decidable c] (h : WindsDown s t) (g : WindsDown s u) :
    WindsDown s (if c then t else u) := by
  split
  · exact h
  · exact g

theorem foldl_windsDown {α : Type} {f : State → α → State} {l : List α} {s : State} (h : ∀ s a, WindsDown s (f s a)) :
    WindsDown s (l.foldl f s) :=
  List.foldlRecOn l f (.refl s) fun u hu a _ => hu.trans (h u a)

theorem emit_windsDown (s : State) (o : Out) : WindsDown s (s.emit o) := ⟨List.suffix_cons o s.out, .refl _⟩

theorem setFn_windsDown (s : State) (n : Nat) (f : Fn) : WindsDown s (s.setFn n f) := .of_eq rfl rfl

theorem setRing_windsDown (s : State) (n : Nat) (r : Ring) : WindsDown s (s.setRing n r) := .of_eq rfl rfl

theorem setMirrorDev_windsDown (s : State) (m : MirrorDev) : WindsDown s { s with mirrorDev := m } := .of_eq rfl rfl

theorem dropReqs_windsDown (f : ReqKind → Bool) (s : State) : WindsDown s (dropReqs f s) := .of_eq rfl rfl

theorem trySend_windsDown (fn vec : Nat) (s : State) : WindsDown s (trySend fn vec s) :=
  .ite (.refl s) (.ite ((setFn_windsDown _ _ _).trans (emit_windsDown _ _)) (.refl s))

theorem onCause_windsDown (fn vec : Nat) (s : State) : WindsDown s (onCause fn vec s) :=
  (setFn_windsDown _ _ _).trans (trySend_windsDown _ _ _)

theorem writeEvent_windsDown (fn : Nat) (h : HeldEvent) (s : State) : WindsDown s (writeEvent fn h s) :=
  ((emit_windsDown _ _).trans (setRing_windsDown _ _ _)).trans (onCause_windsDown _ _ _)

theorem postEvent_windsDown (fn : Nat) (h : HeldEvent) (s : State) : WindsDown s (postEvent fn h s) :=
  .ite (setFn_windsDown _ _ _) (.ite (writeEvent_windsDown _ _ _) (.ite (setFn_windsDown _ _ _) (setFn_windsDown _ _ _)))

theorem raiseEventN_windsDown (fn : Nat) (ev : Event) (src n : Nat) (s : State) : WindsDown s (raiseEventN fn ev src n s) :=
  .ite (.ite ((setFn_windsDown _ _ _).trans (postEvent_windsDown _ _ _)) (setFn_windsDown _ _ _)) (postEvent_windsDown _ _ _)

theorem raiseEvent_windsDown (fn : Nat) (ev : Event) (src : Nat) (s : State) : WindsDown s (raiseEvent fn ev src s) :=
  raiseEventN_windsDown _ _ _ _ _

theorem postCompletion_windsDown (d : Hdr) (op : Nat) (st : Status) (res : List Nat) (s : State) :
    WindsDown s (postCompletion d op st res [] s) :=
  .ite (.ite (((emit_windsDown _ _).trans (setRing_windsDown _ _ _)).trans (onCause_windsDown _ _ _))
    ((emit_windsDown _ _).trans (setRing_windsDown _ _ _))) (setRing_windsDown _ _ _)

/-- A completion ring that is usable receives the entry (R385). -/
theorem postCompletion_posts (d : Hdr) (op : Nat) (st : Status) (res : List Nat) {s : State} (hop : op ≠ 0x41)
    (hring : (s.ring d.ring).usable = true) :
    ∃ slot ph h, Out.completion d.ring slot ph d.tag st op h 0 res ∈ (postCompletion d op st res [] s).out := by
  have husable (l : List Fetched) : ({ s.ring d.ring with accepted := l } : Ring).usable = true := hring
  have hext : ¬(op = 0x41 ∧ st = .ok) := fun h => hop h.1
  simp only [postCompletion, List.foldl_nil, husable, hext, if_true, if_false]
  split
  · exact ⟨_, _, _, (onCause_windsDown _ _ _).out.subset List.mem_cons_self⟩
  · exact ⟨_, _, _, List.mem_cons_self⟩

/-! ### The end of an operation -/

theorem dropOp_windsDown (op : RunOp) (s : State) : WindsDown s (dropOp op s) := ⟨List.suffix_rfl, List.erase_sublist⟩

/-- After its operation is dropped, the end of an operation only winds down. -/
theorem finishOp_windsDown_dropOp (op : RunOp) (st : Status) (res : List Nat) (s : State) :
    WindsDown (dropOp op s) (finishOp op st res [] s) :=
  .ite (.ite ((setFn_windsDown _ _ _).trans (raiseEvent_windsDown _ _ _ _)) (setFn_windsDown _ _ _))
    (postCompletion_windsDown _ _ _ _ _)

theorem finishOp_windsDown (op : RunOp) (st : Status) (res : List Nat) (s : State) : WindsDown s (finishOp op st res [] s) :=
  (dropOp_windsDown op s).trans (finishOp_windsDown_dropOp op st res s)

theorem reached_windsDown {op : RunOp} {s t : State} {st : Status} {r : List Nat} (h : reached op s = some (st, r, t)) :
    WindsDown s t := by
  unfold reached at h
  (repeat' split at h) <;> simp only [reduceCtorEq, Option.some.injEq, Prod.mk.injEq] at h <;> obtain ⟨-, -, rfl⟩ := h
  · exact .refl _
  · exact setFn_windsDown _ _ _

theorem firstReached_windsDown {l : List RunOp} {op : RunOp} {s t : State} {st : Status} {r : List Nat}
    (h : firstReached l s = some (op, st, r, t)) : WindsDown s t := by
  induction l with
  | nil => cases h
  | cons o l ih =>
    unfold firstReached at h
    split at h
    · rename_i hreached
      cases h
      exact reached_windsDown hreached
    · exact ih h

theorem settle_windsDown (n : Nat) (s : State) : WindsDown s (settle n s) := by
  induction n generalizing s with
  | zero => exact .refl s
  | succ n ih =>
    unfold settle
    split
    · exact .refl s
    · rename_i hreached
      exact ((firstReached_windsDown hreached).trans (finishOp_windsDown _ _ _ _)).trans (ih _)

theorem endOp_eq_settle (op : RunOp) (st : Status) (res : List Nat) (s : State) :
    endOp op st res [] s = settle (finishOp op st res [] s).ops.length (finishOp op st res [] s) := if_neg (by simp)

theorem endOp_windsDown_dropOp (op : RunOp) (st : Status) (res : List Nat) (s : State) :
    WindsDown (dropOp op s) (endOp op st res [] s) := by
  rw [endOp_eq_settle]
  exact (finishOp_windsDown_dropOp op st res s).trans (settle_windsDown _ _)

theorem endOp_windsDown (op : RunOp) (st : Status) (res : List Nat) (s : State) : WindsDown s (endOp op st res [] s) :=
  (dropOp_windsDown op s).trans (endOp_windsDown_dropOp op st res s)

theorem complete_windsDown (d : Hdr) (op : Nat) (st : Status) (res : List Nat) (s : State) :
    WindsDown s (complete d op st res [] s) := by
  have heq : complete d op st res [] s =
      settle (postCompletion d op st res [] s).ops.length (postCompletion d op st res [] s) := if_neg (by simp)
  rw [heq]
  exact (postCompletion_windsDown d op st res s).trans (settle_windsDown _ _)

/-! ### The end of many operations -/

theorem foldl_endOp_ops (l : List RunOp) (st : Status) (s : State) :
    (l.foldl (fun s op => endOp op st [] [] s) s).ops.Sublist (s.ops.diff l) := by
  induction l generalizing s with
  | nil => exact .refl _
  | cons op l ih =>
    rw [List.diff_cons]
    exact (ih _).trans ((endOp_windsDown_dropOp op st [] s).ops.diff_right)

theorem endOps_windsDown (p : RunOp → Bool) (st : Status) (s : State) : WindsDown s (endOps p st s) :=
  foldl_windsDown fun s op => endOp_windsDown op st [] s

/-- No operation that the test selects stays outstanding. -/
theorem endOps_ends {p : RunOp → Bool} {st : Status} {s : State} {o : RunOp} (ho : o ∈ (endOps p st s).ops) : p o = false := by
  by_contra hp
  rw [Bool.not_eq_false] at hp
  have hmem := (foldl_endOp_ops _ st s).subset ho
  rw [← List.count_pos_iff, List.count_diff, List.count_filter hp] at hmem
  omega

/-- The one outstanding operation, when the test selects it, completes on its ring (R379). -/
theorem endOps_completes {p : RunOp → Bool} {st : Status} {s : State} {op : RunOp} (hops : s.ops = [op]) (hp : p op = true)
    (hdet : op.detached = false) (hcode : op.opcode ≠ 0x41) (hring : (s.ring op.hdr.ring).usable = true) :
    ∃ slot ph h, Out.completion op.hdr.ring slot ph op.hdr.tag st op.opcode h 0 [] ∈ (endOps p st s).out := by
  have hend : endOps p st s = endOp op st [] [] s := by simp [endOps, hops, hp]
  have hfinish : finishOp op st [] [] s = postCompletion op.hdr op.opcode st [] [] (dropOp op s) := by simp [finishOp, hdet]
  obtain ⟨slot, ph, h, hposted⟩ := postCompletion_posts op.hdr op.opcode st [] (s := dropOp op s) hcode hring
  rw [hend, endOp_eq_settle, hfinish]
  exact ⟨slot, ph, h, (settle_windsDown _ _).out.subset hposted⟩

theorem endChannelOps_windsDown_endOps (n : Nat) (st : Status) (s : State) :
    WindsDown (endOps (opOn n) st s) (endChannelOps n st s) :=
  foldl_windsDown fun _ e => foldl_windsDown fun s d => complete_windsDown (hdrOf e.1 d) d.opcode st [] s

theorem endChannelOps_windsDown (n : Nat) (st : Status) (s : State) : WindsDown s (endChannelOps n st s) :=
  (endOps_windsDown _ _ _).trans (endChannelOps_windsDown_endOps n st s)

theorem abandonGen_windsDown (s : State) : WindsDown s (abandonGen s) := by
  unfold abandonGen
  split
  · exact .refl s
  · rename_i g _
    have hchans : WindsDown s ((List.range 8).foldl
        (fun s n => if (s.chan n).mirror.gen = g then s.modChan n Chan.abandonGen else s) s) :=
      foldl_windsDown fun s n => .ite (.of_eq rfl rfl) (.refl s)
    refine WindsDown.trans ?_ (foldl_windsDown fun s o => endOp_windsDown o .mirrorAbandoned [g] s)
    exact (hchans.trans (setMirrorDev_windsDown _ _)).trans (dropReqs_windsDown _ _)

theorem loadEnd_windsDown (l : Load) (chs : List Nat) {st : Status} (hst : st ≠ .ok) (s : State) : WindsDown s (loadEnd l chs st s) := by
  have hundo (u : State) (hu : WindsDown s u) : WindsDown s (chs.foldl (fun s n => undoLoad l n s) u) :=
    hu.trans (foldl_windsDown fun _ _ => .of_eq rfl rfl)
  simp only [loadEnd, hst, if_false]
  split
  · refine WindsDown.trans ?_ (endOp_windsDown _ _ _ _)
    exact hundo _ (.of_eq rfl rfl)
  · exact hundo _ (.of_eq rfl rfl)

theorem abortLoads_windsDown (n : Nat) {st : Status} (hst : st ≠ .ok) (s : State) : WindsDown s (abortLoads n st s) :=
  foldl_windsDown fun s _ => loadEnd_windsDown _ _ hst s

/-! ### The accesses that wait at a channel -/

/-- Between two states only packets have left the block. -/
def Emits (s t : State) : Prop := ∃ l, t = { s with out := l ++ s.out }

theorem Emits.refl (s : State) : Emits s s := ⟨[], rfl⟩

theorem Emits.trans {s t u : State} (h : Emits s t) (g : Emits t u) : Emits s u := by
  obtain ⟨l, rfl⟩ := h
  obtain ⟨m, rfl⟩ := g
  exact ⟨m ++ l, by simp⟩

theorem Emits.windsDown {s t : State} (h : Emits s t) : WindsDown s t := by
  obtain ⟨l, rfl⟩ := h
  exact ⟨List.suffix_append l s.out, .refl _⟩

theorem Emits.host {s t : State} (h : Emits s t) : HostSide s t := by
  obtain ⟨l, rfl⟩ := h
  rfl

theorem Emits.ring {s t : State} (h : Emits s t) (n : Nat) : t.ring n = s.ring n := by
  obtain ⟨l, rfl⟩ := h
  rfl

theorem Emits.ops {s t : State} (h : Emits s t) : t.ops = s.ops := by
  obtain ⟨l, rfl⟩ := h
  rfl

theorem foldl_emits {α : Type} {f : State → α → State} {l : List α} {s : State} (h : ∀ s a, Emits s (f s a)) :
    Emits s (l.foldl f s) :=
  List.foldlRecOn l f (.refl s) fun u hu a _ => hu.trans (h u a)

theorem emit_emits (s : State) (o : Out) : Emits s (s.emit o) := ⟨[o], rfl⟩

theorem answer_emits (r : PoolReq) (st : Status) (done result : Nat) (data : List Byte) (s : State) :
    Emits s (answer r st done result data s) := by
  unfold answer
  split
  · exact emit_emits _ _
  · split
    · split
      · exact emit_emits _ _
      · exact .refl s
    · exact emit_emits _ _

theorem failWaits_emits (n : Nat) (s : State) : Emits s (failWaits n s) := by
  have hanswer (cmd : Instr) (s : State) :
      Emits s (match poolReqOf cmd with | some r => answer r .channelFailed 0 0 [] s | none => s) := by
    split
    · exact answer_emits _ _ _ _ _ _
    · exact .refl s
  refine Emits.trans (foldl_emits fun s cmd => hanswer cmd s) (foldl_emits fun s w => ?_)
  split
  · exact hanswer _ s
  · exact hanswer _ s

theorem failWaits_of_none {n : Nat} {s : State} (hwaits : (s.chan n).pool.waits = []) (hbacklog : (s.chan n).pool.backlog = []) :
    failWaits n s = s := by
  simp [failWaits, hwaits, hbacklog]

/-! ### What a channel keeps of its record -/

theorem HostSide.chans {s t : State} (h : HostSide s t) : t.chans = s.chans := by rw [h]

theorem HostSide.loads {s t : State} (h : HostSide s t) : t.loads = s.loads := by rw [h]

/-- Channel `n` has its role and its count of corrections as before. -/
def KeepsRecord (n : Nat) (s t : State) : Prop := (t.chan n).role = (s.chan n).role ∧ (t.chan n).eccCorr = (s.chan n).eccCorr

section
variable {n : Nat} {s t u : State}

theorem KeepsRecord.of_chans (h : t.chans = s.chans) : KeepsRecord n s t := by
  simp only [KeepsRecord, State.chan, h, and_self]

theorem KeepsRecord.refl : KeepsRecord n s s := ⟨rfl, rfl⟩

theorem KeepsRecord.trans (h : KeepsRecord n s t) (g : KeepsRecord n t u) : KeepsRecord n s u :=
  ⟨g.1.trans h.1, g.2.trans h.2⟩

theorem HostSide.keepsRecord (h : HostSide s t) : KeepsRecord n s t := .of_chans h.chans

theorem foldl_keepsRecord {α : Type} {f : State → α → State} {l : List α} (h : ∀ s a, KeepsRecord n s (f s a)) :
    KeepsRecord n s (l.foldl f s) :=
  List.foldlRecOn l f .refl fun u hu a _ => hu.trans (h u a)

theorem setMirrorDev_keepsRecord (m : MirrorDev) : KeepsRecord n s { s with mirrorDev := m } := .of_chans rfl

theorem dropReqs_keepsRecord (f : ReqKind → Bool) : KeepsRecord n s (dropReqs f s) := .of_chans rfl

/-- A change of a channel that leaves its role and count leaves those of every channel. -/
theorem setChan_keepsRecord {k : Nat} {c : Chan} (hrole : c.role = (s.chan k).role) (hecc : c.eccCorr = (s.chan k).eccCorr) :
    KeepsRecord n s (s.setChan k c) := by
  by_cases hn : n = k
  · subst hn
    simp [KeepsRecord, hrole, hecc]
  · simp [KeepsRecord, State.setChan_chan_other _ _ _ _ hn]

end

theorem Chan.freeLoc_record (c : Chan) (l : Loc) : (c.freeLoc l).role = c.role ∧ (c.freeLoc l).eccCorr = c.eccCorr := by
  unfold Chan.freeLoc Chan.setTier
  dsimp only
  (repeat' split) <;> exact ⟨rfl, rfl⟩

theorem Chan.abandonGen_record (c : Chan) : c.abandonGen.role = c.role ∧ c.abandonGen.eccCorr = c.eccCorr :=
  List.foldlRecOn (motive := fun d : Chan => d.role = c.role ∧ d.eccCorr = c.eccCorr) c.mirror.heldRuns (fun c r => c.freeLoc r.2)
    ⟨rfl, rfl⟩ fun d hd r _ => ⟨(d.freeLoc_record r.2).1.trans hd.1, (d.freeLoc_record r.2).2.trans hd.2⟩

theorem abandonGen_keepsRecord (n : Nat) (s : State) : KeepsRecord n s (abandonGen s) := by
  unfold abandonGen
  split
  · exact .refl
  · rename_i g _
    have hchans : KeepsRecord n s ((List.range 8).foldl
        (fun s n => if (s.chan n).mirror.gen = g then s.modChan n Chan.abandonGen else s) s) := by
      refine foldl_keepsRecord fun s k => ?_
      split
      · exact setChan_keepsRecord (Chan.abandonGen_record _).1 (Chan.abandonGen_record _).2
      · exact .refl
    refine KeepsRecord.trans ?_ (foldl_keepsRecord fun s o => (endOp_host o .mirrorAbandoned [g] [] s).keepsRecord)
    exact (hchans.trans (setMirrorDev_keepsRecord _)).trans (dropReqs_keepsRecord _)

theorem setSlotState_record (kind slot st : Nat) (c : Chan) :
    (setSlotState kind slot st c).role = c.role ∧ (setSlotState kind slot st c).eccCorr = c.eccCorr := by
  unfold setSlotState
  (repeat' split) <;> exact ⟨rfl, rfl⟩

theorem undoLoad_keepsRecord (n : Nat) (l : Load) (k : Nat) (s : State) : KeepsRecord n s (undoLoad l k s) := by
  unfold undoLoad
  dsimp only
  apply setChan_keepsRecord
  · rw [(setSlotState_record ..).1]
    split <;> rfl
  · rw [(setSlotState_record ..).2]
    split <;> rfl

theorem loadEnd_keepsRecord (n : Nat) (l : Load) (chs : List Nat) {st : Status} (hst : st ≠ .ok) (s : State) :
    KeepsRecord n s (loadEnd l chs st s) := by
  have hundo (u : State) (hu : KeepsRecord n s u) : KeepsRecord n s (chs.foldl (fun s n => undoLoad l n s) u) :=
    hu.trans (foldl_keepsRecord fun s k => undoLoad_keepsRecord n l k s)
  simp only [loadEnd, hst, if_false]
  split
  · refine KeepsRecord.trans ?_ (endOp_host _ _ _ _ _).keepsRecord
    exact hundo _ (.of_chans rfl)
  · exact hundo _ (.of_chans rfl)

/-! ### The end of everything outstanding for a channel (R22, R489) -/

/-- A channel's waiting accesses, its role switch, its reset, its loads, its part of an open generation and its descriptors end with
ST_CHANNEL_FAILED: what a fault does before the channel is FAILED. -/
def faultEnds (n : Nat) (s : State) : State :=
  dropChannelWork n .channelFailed
    (endOps (fun o => o.kind == .reset 3 n) .channelFailed
      (endOps (fun o => o.kind == .roleSet n) .channelFailed (failWaits n s)))

/-- The state of a channel fault before its report and its error log. -/
def faulted (n cause : Nat) (s : State) : State := clearParts n ((faultEnds n s).modChan n (failedChan cause))

theorem channelFault_of_failed {n cause : Nat} {s : State} (hstate : (s.chan n).state = .failed) (hreset : (s.chan n).resetting = false) :
    channelFault n cause s = s := if_pos ⟨hstate, by simp [hreset]⟩

theorem channelFault_eq {n cause : Nat} {s : State} (h : (s.chan n).state ≠ .failed ∨ (s.chan n).resetting = true) :
    channelFault n cause s =
      errorLog (if (s.chan n).failedOnce = true then faulted n cause s else reportFailed n cause (faulted n cause s)) :=
  if_neg fun hf => h.elim (· hf.1) fun hr => by simp [hr] at hf

theorem dropChannelWork_eq (n : Nat) (st : Status) (s : State) :
    dropChannelWork n st s =
      dropReqs (reqOn n) (endChannelOps n st (abortLoads n st (if (s.chan n).mirror.gen ≠ 0 then abandonGen s else s))) := rfl

theorem dropChannelWork_windsDown (n : Nat) {st : Status} (hst : st ≠ .ok) (s : State) : WindsDown s (dropChannelWork n st s) := by
  rw [dropChannelWork_eq]
  exact (((WindsDown.ite (abandonGen_windsDown s) (.refl s)).trans (abortLoads_windsDown n hst _)).trans
    (endChannelOps_windsDown n st _)).trans (dropReqs_windsDown _ _)

/-- No descriptor for the channel stays outstanding. -/
theorem dropChannelWork_ends {n : Nat} {st : Status} {s : State} {o : RunOp} (ho : o ∈ (dropChannelWork n st s).ops) :
    opOn n o = false := by
  rw [dropChannelWork_eq] at ho
  exact endOps_ends ((endChannelOps_windsDown_endOps n st _).ops.subset ho)

theorem dropChannelWork_keepsRecord (n : Nat) {st : Status} (hst : st ≠ .ok) (s : State) : KeepsRecord n s (dropChannelWork n st s) := by
  have hgen : KeepsRecord n s (if (s.chan n).mirror.gen ≠ 0 then abandonGen s else s) := by
    split
    · exact abandonGen_keepsRecord n s
    · exact .refl
  have hloads (u : State) : KeepsRecord n u (abortLoads n st u) := foldl_keepsRecord fun s _ => loadEnd_keepsRecord n _ _ hst s
  rw [dropChannelWork_eq]
  exact ((hgen.trans (hloads _)).trans (endChannelOps_host n st _).keepsRecord).trans (dropReqs_keepsRecord _)

/-- Without a load and without an open generation of the channel, the end of its work leaves every channel. -/
theorem dropChannelWork_chans {n : Nat} {st : Status} {s : State} (hloads : s.loads = []) (hgen : (s.chan n).mirror.gen = 0) :
    (dropChannelWork n st s).chans = s.chans := by
  have hidle : abortLoads n st s = s := by simp [abortLoads, hloads]
  rw [dropChannelWork_eq, if_neg (not_not.mpr hgen), hidle]
  exact (endChannelOps_host n st s).chans

theorem faultEnds_windsDown_switch (n : Nat) (s : State) :
    WindsDown (endOps (fun o => o.kind == .roleSet n) .channelFailed (failWaits n s)) (faultEnds n s) :=
  (endOps_windsDown _ _ _).trans (dropChannelWork_windsDown n (by decide) _)

theorem faultEnds_windsDown (n : Nat) (s : State) : WindsDown s (faultEnds n s) :=
  ((failWaits_emits n s).windsDown.trans (endOps_windsDown _ _ _)).trans (faultEnds_windsDown_switch n s)

/-- No operation for the channel, no switch and no reset of it stays outstanding. -/
theorem faultEnds_ends {n : Nat} {s : State} {o : RunOp} (ho : o ∈ (faultEnds n s).ops) :
    o.target ≠ n ∧ o.kind ≠ .roleSet n ∧ o.kind ≠ .reset 3 n := by
  have hon := dropChannelWork_ends ho
  have hreset := endOps_ends ((dropChannelWork_windsDown n (by decide) _).ops.subset ho)
  have hswitch := endOps_ends ((faultEnds_windsDown_switch n s).ops.subset ho)
  refine ⟨?_, by simpa using hswitch, by simpa using hreset⟩
  simp only [opOn, Bool.or_eq_false_iff] at hon
  simpa using hon.1

theorem faultEnds_keepsRecord (n : Nat) (s : State) : KeepsRecord n s (faultEnds n s) :=
  (((failWaits_emits n s).host.trans (endOps_host _ _ _)).trans (endOps_host _ _ _)).keepsRecord.trans
    (dropChannelWork_keepsRecord n (by decide) _)

/-- A channel that takes part in no load and no generation, and at which no access waits, fails alone. -/
theorem faultEnds_chans {n : Nat} {s : State} (hloads : s.loads = []) (hgen : (s.chan n).mirror.gen = 0)
    (hwaits : (s.chan n).pool.waits = []) (hbacklog : (s.chan n).pool.backlog = []) : (faultEnds n s).chans = s.chans := by
  have hends := (endOps_host (fun o => o.kind == .roleSet n) .channelFailed s).trans
    (endOps_host (fun o => o.kind == .reset 3 n) .channelFailed _)
  rw [faultEnds, failWaits_of_none hwaits hbacklog, dropChannelWork_chans (hends.loads.trans hloads) (by rw [hends.chan, hgen]),
    hends.chans]

/-! ### The FAILED channel -/

@[simp] theorem clearParts_chan (n k : Nat) (s : State) : (clearParts n s).chan k = s.chan k := rfl
@[simp] theorem clearParts_out (n : Nat) (s : State) : (clearParts n s).out = s.out := rfl
@[simp] theorem clearParts_ops (n : Nat) (s : State) : (clearParts n s).ops = s.ops := rfl

theorem failedChan_role (cause : Nat) (c : Chan) : (failedChan cause c).role = c.role := rfl
theorem failedChan_eccCorr (cause : Nat) (c : Chan) : (failedChan cause c).eccCorr = c.eccCorr := rfl

theorem faulted_windsDown_ends (n cause : Nat) (s : State) : WindsDown (faultEnds n s) (faulted n cause s) :=
  .of_eq (by simp [faulted]) (by simp [faulted])

theorem faulted_chan_same (n cause : Nat) (s : State) : (faulted n cause s).chan n = failedChan cause ((faultEnds n s).chan n) := by
  simp [faulted]

theorem faulted_chan_other {n k : Nat} (cause : Nat) (s : State) (hk : k ≠ n) : (faulted n cause s).chan k = (faultEnds n s).chan k := by
  simp [faulted, State.modChan_chan_other _ _ _ _ hk]

/-! ### Reports and what waits for the ends of resets -/

@[simp] theorem raiseEvent_chans (fn : Nat) (ev : Event) (src : Nat) (s : State) : (raiseEvent fn ev src s).chans = s.chans := by
  rw [raiseEvent_host fn ev src s]
@[simp] theorem raiseEvent_regs (fn : Nat) (ev : Event) (src : Nat) (s : State) : (raiseEvent fn ev src s).regs = s.regs := by
  rw [raiseEvent_host fn ev src s]

@[simp] theorem reportFailed_chans (n cause : Nat) (s : State) : (reportFailed n cause s).chans = s.chans := by
  simp [reportFailed, setAlert]

theorem reportFailed_windsDown (n cause : Nat) (s : State) : WindsDown s (reportFailed n cause s) := by
  have halert : WindsDown s (setAlert 2 s) := .of_eq rfl rfl
  exact (halert.trans (raiseEvent_windsDown _ _ _ _)).trans (raiseEvent_windsDown _ _ _ _)

theorem setMgmt_windsDown (s : State) (m : Mgmt) : WindsDown s { s with mgmt := m } := .of_eq rfl rfl

@[simp] theorem enterCongested_chans (s : State) : (enterCongested s).chans = s.chans := by
  unfold enterCongested
  split <;> simp
@[simp] theorem enterCongested_regs (s : State) : (enterCongested s).regs = s.regs := by
  unfold enterCongested
  split <;> simp

theorem enterCongested_windsDown (s : State) : WindsDown s (enterCongested s) :=
  .ite (.refl s) ((setMgmt_windsDown _ _).trans (raiseEvent_windsDown _ _ _ _))

@[simp] theorem errorLog_chans (s : State) : (errorLog s).chans = s.chans := by
  unfold errorLog takeEntry
  dsimp only
  (repeat' split) <;> simp
@[simp] theorem errorLog_regs (s : State) : (errorLog s).regs = s.regs := by
  unfold errorLog takeEntry
  dsimp only
  (repeat' split) <;> simp

theorem errorLog_windsDown (s : State) : WindsDown s (errorLog s) :=
  .ite (.ite ((setMgmt_windsDown _ _).trans (enterCongested_windsDown _)) (setMgmt_windsDown _ _)) (setMgmt_windsDown _ _)

@[simp] theorem traceEvents_chans (before s : State) : (traceEvents before s).chans = s.chans := by
  unfold traceEvents preempted
  dsimp only
  (repeat' split) <;> simp

theorem preemptedIf_windsDown (c : Prop) [Decidable c] (holder claimant : Nat) (start : Bool) (s : State) :
    WindsDown s (if c then preempted holder claimant start s else s) := .ite (raiseEvent_windsDown _ _ _ _) (.refl s)

theorem traceEvents_windsDown (before s : State) : WindsDown s (traceEvents before s) := by
  unfold traceEvents
  dsimp only
  refine WindsDown.trans ?_ (preemptedIf_windsDown _ _ _ _ _)
  exact preemptedIf_windsDown _ _ _ _ _

/-- An unlock that waited for channel resets opens and its operation ends: no channel changes (R472). -/
theorem debugDone_chans (s : State) : (debugDone s).chans = s.chans := by
  unfold debugDone
  split
  · rfl
  · refine List.foldlRecOn (motive := fun u : State => u.chans = s.chans) _ _ rfl fun u hu o _ => ?_
    split
    · rw [endOp_host, traceEvents_chans]
      split <;> exact hu
    · exact hu

theorem debugDone_windsDown (s : State) : WindsDown s (debugDone s) := by
  unfold debugDone
  refine .ite (.refl s) (foldl_windsDown fun u o => ?_)
  split
  · refine WindsDown.trans ?_ ((traceEvents_windsDown _ _).trans (endOp_windsDown _ _ _ _))
    exact .ite (.of_eq rfl rfl) (.of_eq rfl rfl)
  · exact .refl u

theorem warmDone_chans (s : State) : (warmDone s).chans = s.chans := by
  unfold warmDone
  (repeat' split) <;> rfl

theorem warmDone_windsDown (s : State) : WindsDown s (warmDone s) :=
  .ite (.ite (.of_eq rfl rfl) (.of_eq rfl rfl)) (.refl s)

theorem resetsEnded_chan (s : State) (n : Nat) : (resetsEnded s).chan n = s.chan n := by
  simp only [State.chan, resetsEnded, warmDone_chans, debugDone_chans]

theorem resetsEnded_windsDown (s : State) : WindsDown s (resetsEnded s) := (debugDone_windsDown s).trans (warmDone_windsDown _)

/-! ### The commands of a fault -/

theorem exec_channelFatalFault_up {s : State} (hup : s.up = true) (n cause : Nat) :
    exec (.channelFatalFault n cause) s = .next (if n < 8 then resetsEnded (channelFault n (cause % 256) s) else s) := whenUp_next hup

theorem exec_patrolScrub_up {s : State} (hup : s.up = true) (n corrected : Nat) (done : Bool) :
    exec (.patrolScrub n corrected done) s = .next (if n < 8 then
      (if corrected = 0 then s.modChan n (patrolScrub corrected done) else errorLog (s.modChan n (patrolScrub corrected done)))
      else s) := whenUp_next hup

section
variable {n cause : Nat} {s : State} (h : (s.chan n).state ≠ .failed ∨ (s.chan n).resetting = true)
include h

theorem channelFault_chan (k : Nat) : (channelFault n cause s).chan k = (faulted n cause s).chan k := by
  have hchans : (channelFault n cause s).chans = (faulted n cause s).chans := by
    rw [channelFault_eq h, errorLog_chans]
    split
    · rfl
    · exact reportFailed_chans _ _ _
  simp only [State.chan, hchans]

theorem channelFault_windsDown_ends : WindsDown (faultEnds n s) (channelFault n cause s) := by
  rw [channelFault_eq h]
  refine WindsDown.trans ?_ (errorLog_windsDown _)
  exact .ite (faulted_windsDown_ends n cause s) ((faulted_windsDown_ends n cause s).trans (reportFailed_windsDown _ _ _))

/-- The channel after the fault, and once what waits for the ends of resets has ended. -/
theorem failedChannel : (resetsEnded (channelFault n cause s)).chan n = failedChan cause ((faultEnds n s).chan n) := by
  rw [resetsEnded_chan, channelFault_chan h, faulted_chan_same]

theorem failedChannel_windsDown_ends : WindsDown (faultEnds n s) (resetsEnded (channelFault n cause s)) :=
  (channelFault_windsDown_ends h).trans (resetsEnded_windsDown _)

theorem failedChannel_noOps {o : RunOp} (ho : o ∈ (resetsEnded (channelFault n cause s)).ops) :
    o.target ≠ n ∧ o.kind ≠ .roleSet n ∧ o.kind ≠ .reset 3 n :=
  faultEnds_ends ((failedChannel_windsDown_ends h).ops.subset ho)

end

/-- The OP_ROLE_SET of a channel, when it alone is outstanding, completes with ST_CHANNEL_FAILED (R22). -/
theorem failedChannel_endsSwitch {n cause tm : Nat} {d : Hdr} {s : State} (hstate : (s.chan n).state ≠ .failed)
    (hops : s.ops = [⟨d, 0, 0x70, 8, true, false, tm, [], .roleSet n⟩]) (hring : (s.ring d.ring).usable = true) :
    (resetsEnded (channelFault n cause s)).ops = [] ∧
      ∃ slot ph h, Out.completion d.ring slot ph d.tag .channelFailed 0x70 h 0 [] ∈ (resetsEnded (channelFault n cause s)).out := by
  have hends := failedChannel_windsDown_ends (cause := cause) (.inl hstate)
  constructor
  · refine List.eq_nil_iff_forall_not_mem.mpr fun o ho => ?_
    obtain ⟨-, hkind, -⟩ := failedChannel_noOps (.inl hstate) ho
    have hmem := (faultEnds_windsDown n s).ops.subset (hends.ops.subset ho)
    rw [hops, List.mem_singleton] at hmem
    exact hkind (hmem ▸ rfl)
  · have hwaits := failWaits_emits n s
    obtain ⟨slot, ph, h, hposted⟩ := endOps_completes (p := fun o => o.kind == .roleSet n) (st := .channelFailed)
      (hwaits.ops.trans hops) (by simp) rfl (by simp) (by rwa [hwaits.ring])
    exact ⟨slot, ph, h, ((faultEnds_windsDown_switch n s).trans hends).out.subset hposted⟩

/-- A scrub changes no channel but by the counters of its own, and without a correction it leaves no error log (R486, R487). -/
theorem exec_patrolScrub_leaves {n : Nat} {s : State} (hup : s.up = true) (corrected : Nat) (done : Bool) (hn : n < 8) :
    ∃ t, exec (.patrolScrub n corrected done) s = .next t ∧ t.chans = (s.modChan n (patrolScrub corrected done)).chans ∧
      t.regs = s.regs ∧ (corrected = 0 → t.mgmt = s.mgmt) := by
  rw [exec_patrolScrub_up hup, if_pos hn]
  refine ⟨_, rfl, ?_⟩
  split
  · exact ⟨rfl, rfl, fun _ => rfl⟩
  · exact ⟨errorLog_chans _, by simp, fun h => absurd h ‹_›⟩

/-- Settles O54: the end of everything outstanding for the channel, then the FAILED channel, its report and its error log. -/
theorem faultsTakeChannelsAndTheDevice : Obligations.FaultsTakeChannelsAndTheDevice := by
  intro n cause s hup
  refine ⟨fun hn => ?noChannel, fun hn h => ?fails, fun d tm hn hstate hops hring => ?switching, fun hn hstate hreset => ?failedAlready,
    ⟨whenUp_next hup, by simp [State.up]⟩, fun corrected done => ⟨fun hn => ?noScrub, fun hn => ?scrub⟩⟩
  case noChannel => rw [exec_channelFatalFault_up hup, if_neg (Nat.not_lt.mpr hn)]
  case fails =>
    obtain ⟨hrole, hecc⟩ := faultEnds_keepsRecord n s
    rw [exec_channelFatalFault_up hup, if_pos hn]
    refine ⟨faulted n (cause % 256) s, _, rfl, by rw [channelFault_eq h], ?_⟩
    rw [failedChannel h]
    exact ⟨rfl, rfl, rfl, rfl, (failedChan_role _ _).trans hrole, rfl, rfl, rfl, rfl, (failedChan_eccCorr _ _).trans hecc,
      fun o ho => failedChannel_noOps h ho⟩
  case switching =>
    have hnot : (s.chan n).state ≠ .failed := by simp [hstate]
    obtain ⟨hnone, slot, ph, h, hposted⟩ := failedChannel_endsSwitch (cause := cause % 256) hnot hops hring
    rw [exec_channelFatalFault_up hup, if_pos hn]
    refine ⟨_, slot, ph, h, rfl, hnone, ?_, ?_, hposted, fun hloads hgen hwaits hbacklog k hk => ?_⟩
    · rw [failedChannel (.inl hnot)]
      rfl
    · rw [failedChannel (.inl hnot), failedChan_role]
      exact (faultEnds_keepsRecord n s).1
    · rw [resetsEnded_chan, channelFault_chan (.inl hnot), faulted_chan_other _ _ hk, State.chan,
        faultEnds_chans hloads hgen hwaits hbacklog, State.chan]
  case failedAlready => rw [exec_channelFatalFault_up hup, if_pos hn, channelFault_of_failed hstate hreset]
  case noScrub => rw [exec_patrolScrub_up hup, if_neg (Nat.not_lt.mpr hn)]
  case scrub =>
    obtain ⟨t, hnext, hchans, hregs, hmgmt⟩ := exec_patrolScrub_leaves hup corrected done hn
    have hchan (k : Nat) : t.chan k = (s.modChan n (patrolScrub corrected done)).chan k := by simp only [State.chan, hchans]
    have hsame : t.chan n = patrolScrub corrected done (s.chan n) := by rw [hchan, State.modChan_chan_same]
    refine ⟨t, hnext, by rw [hsame, patrolScrub], by rw [hsame, patrolScrub], by rw [hsame, patrolScrub], by rw [hsame, patrolScrub],
      fun k hk => ?_, hregs, hmgmt⟩
    rw [hchan, State.modChan_chan_other _ _ _ _ hk]

end Sys2Proof.Machine
end

section
/-! What allocation, freeing and Mirror's copies leave of a channel: every session's record, block, queue, map and place in the active table. -/

namespace Sys2Proof.Machine

open Sys2Proof

/-! ### Tables -/

@[simp] theorem tget_tdel_same {α : Type} (k : Nat) (t : Tbl α) : tget k (tdel k t) = none := by
  induction t with
  | nil => rfl
  | cons e r ih =>
    obtain ⟨j, w⟩ := e
    by_cases h : j = k
    · subst h
      simpa [tdel] using ih
    · simpa [tdel, tget, h] using ih

theorem tget_map {α β : Type} (f : Nat → α → β) (k : Nat) (t : Tbl α) :
    tget k (t.map fun e => (e.1, f e.1 e.2)) = (tget k t).map (f k) := by
  induction t with
  | nil => rfl
  | cons e r ih =>
    obtain ⟨j, w⟩ := e
    by_cases h : j = k
    · subst h
      simp [tget]
    · simpa [tget, h] using ih

theorem tget_eq_none_iff {α : Type} {k : Nat} {t : Tbl α} : tget k t = none ↔ k ∉ t.map (·.1) := by
  induction t with
  | nil => simp [tget]
  | cons e r ih =>
    obtain ⟨j, w⟩ := e
    by_cases h : j = k
    · simp [tget, h]
    · simpa [tget, h, Ne.symm h] using ih

/-! ### The records of a channel under an update of another -/

@[simp] theorem Chan.setDir_dir_same (c : Chan) (i : Nat) (e : Dir) : (c.setDir i e).dir i = e := by simp [Chan.setDir, Chan.dir]
theorem Chan.setDir_dir_other (c : Chan) {i k : Nat} (e : Dir) (h : k ≠ i) : (c.setDir i e).dir k = c.dir k := by
  simp [Chan.setDir, Chan.dir, tget_tset_other _ _ _ _ h]
@[simp] theorem Chan.modDir_dir_same (c : Chan) (i : Nat) (f : Dir → Dir) : (c.modDir i f).dir i = f (c.dir i) := by simp [Chan.modDir]
theorem Chan.modDir_dir_other (c : Chan) {i k : Nat} (f : Dir → Dir) (h : k ≠ i) : (c.modDir i f).dir k = c.dir k :=
  c.setDir_dir_other _ h
@[simp] theorem Chan.setSblk_sblk_same (c : Chan) (i : Nat) (b : SBlk) : (c.setSblk i b).sblk i = some b := by simp [Chan.setSblk, Chan.sblk]
@[simp] theorem Chan.setQueue_queue_same (c : Chan) (i : Nat) (q : InQueue) : (c.setQueue i q).queue i = q := by
  simp [Chan.setQueue, Chan.queue]

theorem Chan.dir_congr {c d : Chan} (h : d.dirs = c.dirs) (i : Nat) : d.dir i = c.dir i := by rw [Chan.dir, h, Chan.dir]

/-! ### Allocation, freeing and Mirror's copies -/

/-- Two channels differ at most in their allocators and poisoned granules, their pages with the runs and descriptors that wait for a step's
end, the leaves of their maps, and Mirror's tables. -/
def KvSide (c d : Chan) : Prop :=
  d = { c with t1 := d.t1, t2 := d.t2, t3 := d.t3, t4 := d.t4, bad := d.bad, pages := d.pages, shares := d.shares, deferred := d.deferred
               doomed := d.doomed, leaves := d.leaves, mirror := d.mirror }

theorem KvSide.refl (c : Chan) : KvSide c c := rfl

theorem KvSide.trans {c d e : Chan} (h : KvSide c d) (g : KvSide d e) : KvSide c e := by
  unfold KvSide at *
  rw [g, h]

theorem KvSide.ite {p : Prop} [Decidable p] {c d e : Chan} (h : KvSide c d) (g : KvSide c e) : KvSide c (if p then d else e) := by
  split
  · exact h
  · exact g

theorem foldl_kvSide {α : Type} {f : Chan → α → Chan} {l : List α} {c : Chan} (h : ∀ c a, KvSide c (f c a)) : KvSide c (l.foldl f c) :=
  List.foldlRecOn l f (.refl c) fun d hd a _ => hd.trans (h d a)

section
variable {c d : Chan} (h : KvSide c d)
include h

theorem KvSide.dirs : d.dirs = c.dirs := by rw [h]
theorem KvSide.dir (i : Nat) : d.dir i = c.dir i := Chan.dir_congr h.dirs i
theorem KvSide.sblk (i : Nat) : d.sblk i = c.sblk i := by rw [h]; rfl
theorem KvSide.queue (i : Nat) : d.queue i = c.queue i := by rw [h]; rfl
theorem KvSide.asq : d.asq = c.asq := by rw [h]
theorem KvSide.epoch : d.epoch = c.epoch := by rw [h]

end

theorem Chan.setTier_kvSide (c : Chan) (t : Nat) (a : Alloc) : KvSide c (c.setTier t a) := by
  unfold Chan.setTier
  (repeat' split) <;> rfl

theorem setBad_kvSide (c : Chan) (b : List Loc) : KvSide c { c with bad := b } := rfl

theorem setT1_kvSide (c : Chan) (a : Alloc) : KvSide c { c with t1 := a } := rfl

theorem Chan.freeLoc_kvSide (c : Chan) (l : Loc) : KvSide c (c.freeLoc l) := by
  unfold Chan.freeLoc
  dsimp only
  split
  · split <;> rfl
  · split
    · rfl
    · exact (setBad_kvSide c _).trans (Chan.setTier_kvSide _ _ _)

theorem Chan.takeT2_kvSide (c : Chan) (w : Wm) (p : Bool) (k : Nat) : KvSide c (c.takeT2 w p k).2 := by
  unfold Chan.takeT2
  split <;> rfl

theorem Chan.takePlaced_kvSide (c : Chan) (w : Wm) (code k : Nat) : KvSide c (c.takePlaced w code k).2 := by
  unfold Chan.takePlaced
  dsimp only
  rw [apply_ite Prod.snd]
  refine .ite ?_ (c.takeT2_kvSide _ _ _)
  split
  · rfl
  · exact (setT1_kvSide c _).trans (Chan.takeT2_kvSide _ _ _ _)

theorem Chan.takeMany_kvSide (c : Chan) (w : Wm) (code k n : Nat) : KvSide c (c.takeMany w code k n).2 := by
  induction n generalizing c with
  | zero => rfl
  | succ n ih =>
    have hone := c.takePlaced_kvSide w code k
    unfold Chan.takeMany
    split
    · rename_i heq
      simpa [heq] using hone
    · rename_i c' heq
      have hrest := ih c'
      simp only [heq] at hone
      split <;> (rename_i hmany; rw [hmany] at hrest; exact hone.trans hrest)

theorem Chan.takeBlock_kvSide (c : Chan) (w : Wm) (code : Nat) : KvSide c (c.takeBlock w code).2 := by
  have hblock := c.takePlaced_kvSide w code 1
  unfold Chan.takeBlock
  split
  · rfl
  · rename_i c' heq
    have hroot := c'.takePlaced_kvSide w code 1
    simp only [heq] at hblock
    split
    · rfl
    · rename_i heq'
      simp only [heq'] at hroot
      exact hblock.trans hroot

theorem Chan.freeRunOf_kvSide (c : Chan) (d : Nat) (l : Loc) (k : Nat) : KvSide c (c.freeRunOf d l k) := by
  unfold Chan.freeRunOf
  split
  · rfl
  · exact c.freeLoc_kvSide l

theorem Chan.setPage_kvSide (c : Chan) (d : Nat) (p : Page) : KvSide c (c.setPage d p) := rfl

theorem Chan.modPage_kvSide (c : Chan) (d : Nat) (f : Page → Page) : KvSide c (c.modPage d f) := rfl

theorem Chan.freeRuns_kvSide (c : Chan) (d : Nat) : KvSide c (c.freeRuns d) := by
  have hrun (c : Chan) (r : Option (Loc × Nat)) :
      KvSide c (match r with | some (l, k) => c.freeRunOf d l k | none => c) := by
    split
    · exact c.freeRunOf_kvSide d _ _
    · rfl
  exact ((c.freeRunOf_kvSide d _ _).trans (hrun _ _)).trans (hrun _ _)

theorem Chan.freePage_kvSide (c : Chan) (d : Nat) : KvSide c (c.freePage d) := by
  unfold Chan.freePage
  dsimp only
  split
  · split
    · rfl
    · exact (c.freeRuns_kvSide d).trans rfl
  · exact (c.freeRuns_kvSide d).trans rfl

theorem Chan.unshare_kvSide (c : Chan) (d : Nat) : KvSide c (c.unshare d) := .ite (c.freePage_kvSide d) rfl

theorem Chan.freeOf_kvSide (c : Chan) (i : Nat) (l : Loc) : KvSide c (c.freeOf i l) := .ite rfl (c.freeLoc_kvSide l)

theorem Chan.endRef_kvSide (c : Chan) (i d : Nat) : KvSide c (c.endRef i d) := by
  have hrun (c : Chan) (r : Option (Loc × Nat)) :
      KvSide c (match r with | some (l, k) => c.freeRunOf d l k | none => c) := by
    split
    · exact c.freeRunOf_kvSide d _ _
    · rfl
  refine .ite ?_ (c.unshare_kvSide d)
  exact (((c.freeOf_kvSide i _).trans (hrun _ _)).trans (hrun _ _)).trans rfl

theorem Chan.setCapture_kvSide (c : Chan) (i : Nat) (x : Capture) : KvSide c (c.setCapture i x) := rfl

theorem Chan.touch_kvSide (c : Chan) (i : Nat) (step : Option Nat) : KvSide c (c.touch i step) := by
  unfold Chan.touch
  dsimp only
  split
  · refine KvSide.trans ?_ (Chan.setCapture_kvSide _ _ _)
    exact .ite rfl rfl
  · rfl

end Sys2Proof.Machine
end

section
/-! A session operation from its acceptance on (R38, R50, R51), and the opening of sessions (R42, R57). The settlement of O24. -/

namespace Sys2Proof.Machine

open Sys2Proof

/-! ### Operations outstanding -/

theorem opOf_congr {s t : State} (h : t.ops = s.ops) (ring tag : Nat) : opOf ring tag t = opOf ring tag s := by rw [opOf, h, opOf]

@[simp] theorem opOf_modChan (ring tag n : Nat) (f : Chan → Chan) (s : State) : opOf ring tag (s.modChan n f) = opOf ring tag s := rfl

/-- A descriptor that is not outstanding does not become so where operations only end. -/
theorem WindsDown.opOf_none {s t : State} (h : WindsDown s t) {ring tag : Nat} (hnone : opOf ring tag s = none) : opOf ring tag t = none :=
  List.find?_eq_none.mpr fun o ho => List.find?_eq_none.mp hnone o (h.ops.subset ho)

/-- A descriptor that is not outstanding completes itself. -/
theorem done_of_none {d : Hdr} {s : State} (h : opOf d.ring d.tag s = none) (op : Nat) (st : Status) (res : List Nat)
    (w : List (Nat × Payload)) : done d op st res w s = complete d op st res w s := by
  simp only [done, h]

/-! ### The table of R50 -/

/-- A session holds an operation of an opcode pending. -/
def Chan.holdsKind (c : Chan) (i op : Nat) : Bool := 
  (c.pendOf i).any fun cmd => match sessHdr cmd with | some x => x.2 == op | none => false

section
variable {area : List Nat} {cmd : Instr} {d : Hdr} {op ch i fn : Nat} {f : State → State} {s : State}

@[simp] theorem onVerdict_act : onVerdict .act cmd d op ch i fn f s = f s := rfl

variable (hop : opOf d.ring d.tag s = none)
include hop

theorem onVerdictWith_fail (st : Status) :
    onVerdictWith area (.fail st) cmd d op ch i fn f s = complete d op st area [] s := done_of_none hop op st area []

/-- An operation that R50 holds waits as the last of its session, unless one of its kind does already (R51). -/
theorem holdPending_of_none :
    holdPending cmd d op ch i fn area s =
      if (s.chan ch).holdsKind i op = true then complete d op .sessionBusy area [] s
      else addOp op d fn ch [] false (.pendingOp ch i) (s.modChan ch (fun c => c.setPend i ((s.chan ch).pendOf i ++ [cmd]))) := by
  simp only [holdPending, done_of_none hop, opOf_modChan, hop]
  rfl

end

/-- A command that is judged by R50 does what `Judged` says of it. -/
theorem judged_of_exec {op : Nat} {cmd : Instr} {v : Verdict} {d : Hdr} {h : Handle} {fn ch : Nat} {f : State → State} {s : State}
    (hop : opOf d.ring d.tag s = none)
    (hexec : OnSession op d h fn ch s → exec cmd s = .next (onVerdict v cmd d op ch h.index fn f s)) : Judged op cmd v d h fn ch s := by
  intro g
  rw [hexec g]
  refine ⟨fun st hv => ?fails, fun hv => ?waits⟩
  case fails => rw [hv, onVerdict, onVerdictWith_fail hop]
  case waits =>
    have hheld : onVerdict v cmd d op ch h.index fn f s = holdPending cmd d op ch h.index fn [] s := by
      obtain rfl | rfl := hv <;> rfl
    rw [hheld, holdPending_of_none hop]
    exact ⟨fun hb => congrArg _ (if_pos hb), fun hb => congrArg _ (if_neg (Bool.eq_false_iff.mp hb))⟩

/-! ### An entry of the exception queue -/

theorem HostSide.withMgmt {s t : State} {m : Mgmt} (h : HostSide { s with mgmt := m } t) : HostSide { s with mgmt := t.mgmt } t := by
  unfold HostSide at *
  rw [h]

theorem enterCongested_host (s : State) : HostSide { s with mgmt := (enterCongested s).mgmt } (enterCongested s) := by
  unfold enterCongested
  split
  · rfl
  · exact (raiseEvent_host _ _ _ _).withMgmt

/-- An entry taken changes the queue's state and, where the threshold is reached, what its event changes. -/
theorem takeEntry_host (s : State) : HostSide { s with mgmt := (takeEntry s).mgmt } (takeEntry s) := by
  unfold takeEntry
  dsimp only
  split
  · exact enterCongested_host _
  · rfl

@[simp] theorem takeEntry_chan (n : Nat) (s : State) : (takeEntry s).chan n = s.chan n := (takeEntry_host s).chan n

@[simp] theorem takeEntry_wmOf (n : Nat) (s : State) : wmOf n (takeEntry s) = wmOf n s := by
  rw [takeEntry_host s]
  rfl

theorem takeEntry_windsDown (s : State) : WindsDown s (takeEntry s) :=
  .ite ((setMgmt_windsDown _ _).trans (enterCongested_windsDown _)) (setMgmt_windsDown _ _)

/-! ### The lowest free entry (R42) -/

/-- An entry that is CLOSED and not retired. -/
def FreeEntry (c : Chan) (i : Nat) : Prop := i < 131072 ∧ (c.dir i).state = .closed ∧ (c.dir i).count < 4294967295

/-- The entries listed that an OPEN passes over. -/
def Chan.usedEntries (c : Chan) : List Nat :=
  (c.dirs.map (·.1)).filter (fun i => (c.dir i).state != .closed || decide (4294967295 ≤ (c.dir i).count))

theorem Chan.not_mem_usedEntries {c : Chan} {i : Nat} :
    i ∉ c.usedEntries ↔ (c.dir i).state = .closed ∧ (c.dir i).count < 4294967295 := by
  by_cases hi : i ∈ c.dirs.map (·.1)
  · rw [usedEntries, List.mem_filter]
    simp [hi]
  · have hdir : c.dir i = {} := by rw [Chan.dir, tget_eq_none_iff.mpr hi, Option.getD_none]
    refine iff_of_true (fun h => hi (List.mem_filter.mp h).1) ?_
    rw [hdir]
    decide

/-- The search finds the first entry past those it passes over, which may lie past the table. -/
theorem Chan.freeEntry_eq (c : Chan) :
    ∃ k, c.freeEntry = (if k < 131072 then some k else none) ∧ k ∉ c.usedEntries ∧ ∀ j < k, j ∈ c.usedEntries := by
  obtain ⟨k, hk, -, -⟩ := firstFree_full c.usedEntries
  obtain ⟨hfree, -, -, hbefore⟩ := firstFree_some hk
  refine ⟨k, ?_, hfree, fun j hj => hbefore j (Nat.zero_le j) hj⟩
  unfold usedEntries at hk
  simp only [freeEntry, hk]

theorem Chan.freeEntry_some {c : Chan} {i : Nat} (h : c.freeEntry = some i) : FreeEntry c i ∧ ∀ j < i, ¬FreeEntry c j := by
  obtain ⟨k, hk, hfree, hbefore⟩ := c.freeEntry_eq
  obtain ⟨hlt, rfl⟩ : k < 131072 ∧ k = i := by simpa [h] using hk.symm
  exact ⟨⟨hlt, not_mem_usedEntries.mp hfree⟩, fun j hj hf => not_mem_usedEntries.mpr hf.2 (hbefore j hj)⟩

theorem Chan.freeEntry_none_iff {c : Chan} : c.freeEntry = none ↔ ∀ i, ¬FreeEntry c i := by
  constructor
  · intro h i hi
    obtain ⟨k, hk, -, hbefore⟩ := c.freeEntry_eq
    have hlarge : 131072 ≤ k := by simpa [h] using hk.symm
    exact not_mem_usedEntries.mpr hi.2 (hbefore i (Nat.lt_of_lt_of_le hi.1 hlarge))
  · intro h
    by_contra hsome
    obtain ⟨i, hi⟩ := Option.ne_none_iff_exists'.mp hsome
    exact h i (freeEntry_some hi).1

/-! ### The checks of an OPEN (R57) -/

theorem rangeCheck_cases (fn a n : Nat) (s : State) :
    rangeCheck fn a n s = none ∨ rangeCheck fn a n s = some .bufInvalid ∨ rangeCheck fn a n s = some .lenExceedsBuffer := by
  unfold rangeCheck
  (repeat' split) <;> simp

theorem imageBuffer_ne_tableFull (fn addr len : Nat) (s : State) : imageBuffer fn addr len s ≠ some .sessionTableFull := by
  unfold imageBuffer
  obtain h | h | h := rangeCheck_cases fn addr len s <;> rw [h] <;> dsimp only <;> split_ifs <;> decide

section
variable {ch fn owner profile tok gslot addr len : Nat} {gen : Bool} {img : ParamImage} {s : State}

theorem openCheck_none_freeEntry (h : openCheck ch fn owner profile tok gslot gen addr len img s = none) :
    ∃ i, (s.chan ch).freeEntry = some i := by
  cases hbuf : imageBuffer fn addr len s with
  | some st =>
    simp only [openCheck, hbuf] at h
    split_ifs at h
  | none =>
    simp only [openCheck, hbuf] at h
    split_ifs at h with _ _ _ _ _ hfull
    exact Option.ne_none_iff_exists'.mp (by simpa using hfull)

theorem openCheck_tableFull_freeEntry (h : openCheck ch fn owner profile tok gslot gen addr len img s = some .sessionTableFull) :
    (s.chan ch).freeEntry = none := by
  by_contra hfree
  have hisNone : (s.chan ch).freeEntry.isNone = false := by simpa [Option.isNone_eq_false_iff, Option.isSome_iff_ne_none] using hfree
  refine absurd h ?_
  cases hbuf : imageBuffer fn addr len s with
  | some st =>
    have hst : st ≠ .sessionTableFull := fun he => imageBuffer_ne_tableFull fn addr len s (he ▸ hbuf)
    simp only [openCheck, hbuf]
    split_ifs <;> simp [hst]
  | none =>
    simp only [openCheck, hbuf, hisNone, Bool.false_eq_true, if_false]
    split_ifs <;> simp

theorem openCheck_tableFull (howner : owner = fn ∨ fn = 0) (hcong : s.mgmt.congested = false) (hbuf : imageBuffer fn addr len s = none)
    (hprof : ((s.chan ch).prof profile).valid = true) (htok : ((s.chan ch).tokImage tok).isSome = true)
    (himg : imageOk img (s.chan ch) owner tok gslot gen s = true) (hfull : (s.chan ch).freeEntry = none) :
    openCheck ch fn owner profile tok gslot gen addr len img s = some .sessionTableFull := by
  have hperm : ¬(owner ≠ fn ∧ fn ≠ 0) := by tauto
  have htok' : ((s.chan ch).tokImage tok).isNone = false := by simpa using htok
  simp [openCheck, hperm, hcong, hbuf, hprof, htok', himg, hfull]

end

/-! ### The session an OPEN creates -/

theorem Chan.bindSlots_dirs (c : Chan) (e : Dir) : (c.bindSlots e).dirs = c.dirs := by
  unfold Chan.bindSlots
  split <;> rfl

theorem Chan.bindSlots_sblks (c : Chan) (e : Dir) : (c.bindSlots e).sblks = c.sblks := by
  unfold Chan.bindSlots
  split <;> rfl

theorem KvSide.openDir {c d : Chan} (h : KvSide c d) (i owner profile tok gslot : Nat) (gen : Bool) (img : ParamImage) :
    openDir d i owner profile tok gslot gen img = openDir c i owner profile tok gslot gen img := by
  simp only [Machine.openDir, h.epoch, h.dir]

section
variable (i owner profile tok gslot : Nat) (gen : Bool) (img : ParamImage) (b r : Loc) (c : Chan)

theorem openSession_dirs :
    (openSession i owner profile tok gslot gen img b r c).dirs =
      (c.setDir i { openDir c i owner profile tok gslot gen img with sblk := b, pmap := r }).dirs := Chan.bindSlots_dirs _ _

theorem openSession_sblk : (openSession i owner profile tok gslot gen img b r c).sblk i = some (newSblk img) := by
  rw [Chan.sblk, openSession, Chan.bindSlots_sblks]
  exact tget_tset_same _ _ _

theorem openSession_dir_same :
    (openSession i owner profile tok gslot gen img b r c).dir i =
      { openDir c i owner profile tok gslot gen img with sblk := b, pmap := r } := by
  rw [Chan.dir_congr (openSession_dirs ..), Chan.setDir_dir_same]

theorem openSession_dir_other {k : Nat} (h : k ≠ i) : (openSession i owner profile tok gslot gen img b r c).dir k = c.dir k := by
  rw [Chan.dir_congr (openSession_dirs ..), Chan.setDir_dir_other _ _ h]

end

/-! ### OP_SESSION_OPEN -/

section
variable {d : Hdr} {owner profile tok gslot addr len fn ch : Nat} {gen : Bool} {img : ParamImage} {s : State} (hacc : Accepts 0x10 d fn ch s)
include hacc

theorem exec_opSessionOpen_refused {st : Status} (h : openCheck ch fn owner profile tok gslot gen addr len img s = some st) :
    exec (.opSessionOpen d owner profile tok gslot gen addr len img) s = .next (complete d 0x10 st [] [] s) := by
  change execOpSessionOpen d owner profile tok gslot gen addr len img s = _
  rw [execOpSessionOpen, accept_next hacc, h]

theorem exec_opSessionOpen_passed (h : openCheck ch fn owner profile tok gslot gen addr len img s = none) (hentry : EntryFree s) {i : Nat}
    (hi : (s.chan ch).freeEntry = some i) :
    exec (.opSessionOpen d owner profile tok gslot gen addr len img) s = .next
      (match (s.chan ch).takeBlock (wmOf ch s) ((if img.pin then 2 else 0) + ((s.chan ch).prof profile).kvPlace) with
       | (none, c) => complete d 0x10 .noSpace [] [] ((takeEntry s).setChan ch c)
       | (some (b, r), c) =>
         complete d 0x10 .ok [handleWord (handleOf ch i ((takeEntry s).setChan ch (openSession i owner profile tok gslot gen img b r c)))] []
           ((takeEntry s).setChan ch (openSession i owner profile tok gslot gen img b r c))) := by
  change execOpSessionOpen d owner profile tok gslot gen addr len img s = _
  rw [execOpSessionOpen, accept_next hacc, h]
  dsimp only
  rw [withEntry_next hentry]
  simp only [takeEntry_chan, takeEntry_wmOf, hi] <;> rfl

end

/-- Settles O24: the search of R42 finds the lowest free entry, and the checks of R57 come before it. -/
theorem sessionsOpenAtTheLowestFreeEntry : Obligations.SessionsOpenAtTheLowestFreeEntry := by
  intro d owner profile tok gslot addr len fn ch gen img s hacc c free
  have hnone : c.freeEntry = none ↔ ∀ i, ¬free i := Chan.freeEntry_none_iff
  refine ⟨fun st h => exec_opSessionOpen_refused hacc h, fun hfull h => ?_, fun hfull howner hcong hbuf hprof htok himg => ?_,
    fun h => hnone.mp (openCheck_tableFull_freeEntry h), fun h hentry c' => ?_⟩
  · obtain ⟨i, hi⟩ := openCheck_none_freeEntry h
    exact absurd (hi.symm.trans (hnone.mpr hfull)) (by simp)
  · exact exec_opSessionOpen_refused hacc (openCheck_tableFull howner hcong hbuf hprof htok himg (hnone.mpr hfull))
  · obtain ⟨i, hi⟩ := openCheck_none_freeEntry h
    obtain ⟨hfree, hlowest⟩ := Chan.freeEntry_some hi
    have hexec := exec_opSessionOpen_passed hacc h hentry hi
    refine ⟨fun b r htake => ?_, fun htake => ?_⟩
    · rw [show (s.chan ch).takeBlock _ _ = _ from htake] at hexec
      have hkv : KvSide c c' := by
        simpa only [htake] using c.takeBlock_kvSide (wmOf ch s) ((if img.pin then 2 else 0) + (c.prof profile).kvPlace)
      have hdir := openSession_dir_same i owner profile tok gslot gen img b r c'
      rw [hkv.openDir] at hdir
      refine ⟨i, (takeEntry s).setChan ch (openSession i owner profile tok gslot gen img b r c'), hfree, hlowest, hexec, by simp, ?_⟩
      simp only [State.setChan_chan_same, hdir]
      exact ⟨trivial, rfl, rfl, rfl, openSession_sblk .., fun k hk => by rw [openSession_dir_other _ _ _ _ _ _ _ _ _ _ hk, hkv.dir]⟩
    · rwa [show (s.chan ch).takeBlock _ _ = _ from htake] at hexec

end Sys2Proof.Machine
end

section
/-! Close, fork and resume (R55, R56, R58, R60, R61). The settlement of O25. -/

namespace Sys2Proof.Machine

open Sys2Proof

/-! ### What ends with a descriptor -/

theorem done_host (d : Hdr) (op : Nat) (st : Status) (res : List Nat) (w : List (Nat × Payload)) (s : State) :
    HostSide s (done d op st res w s) := by
  unfold done
  split
  · split
    · exact endOp_host _ _ _ _ _
    · exact complete_host _ _ _ _ _ _
  · exact complete_host _ _ _ _ _ _

theorem done_windsDown (d : Hdr) (op : Nat) (st : Status) (res : List Nat) (s : State) : WindsDown s (done d op st res [] s) := by
  unfold done
  split
  · exact .ite (endOp_windsDown _ _ _ _) (complete_windsDown _ _ _ _ _)
  · exact complete_windsDown _ _ _ _ _

theorem Chan.setPend_dir_other (c : Chan) {i k : Nat} (l : List Instr) (h : k ≠ i) : (c.setPend i l).dir k = c.dir k :=
  Chan.modDir_dir_other _ _ h

theorem Chan.setPend_dir_same (c : Chan) (i : Nat) (l : List Instr) : (c.setPend i l).dir i = pendBits l (c.dir i) :=
  Chan.modDir_dir_same _ _ _

theorem endPending_chan (ch i : Nat) (st : Status) (s : State) (k : Nat) :
    (endPending ch i st s).chan k = (s.modChan ch (fun c => c.setPend i [])).chan k := by
  refine HostSide.chan (foldl_host _ (fun s c => ?_) _ _) k
  split
  · exact done_host _ _ _ _ _ _
  · rfl

theorem endPending_windsDown (ch i : Nat) (st : Status) (s : State) : WindsDown s (endPending ch i st s) := by
  refine WindsDown.trans (t := s.modChan ch (fun c => c.setPend i [])) (.of_eq rfl rfl) (foldl_windsDown fun s c => ?_)
  split
  · exact done_windsDown _ _ _ _ _
  · exact .refl s

/-! ### The active sequence table -/

theorem Chan.dropDraft_dirs (c : Chan) (i : Nat) : (c.dropDraft i).dirs = c.dirs := by
  unfold Chan.dropDraft
  split
  · exact (c.freeLoc_kvSide _).dirs
  · rfl

theorem Chan.leaveAsq_dir_other (c : Chan) {i k : Nat} (h : k ≠ i) : (c.leaveAsq i).dir k = c.dir k := by
  unfold Chan.leaveAsq
  dsimp only
  split
  · exact (Chan.setDir_dir_other _ _ h).trans (Chan.dir_congr (c.dropDraft_dirs i) k)
  · rfl

/-- A session that leaves the table has no place in it; the rest of its record stays. -/
theorem Chan.leaveAsq_dir_same (c : Chan) (i : Nat) :
    ∃ k, (c.leaveAsq i).dir i = { c.dir i with asqIndex := k, asqValid := false } := by
  unfold Chan.leaveAsq
  dsimp only
  split
  · exact ⟨0, Chan.setDir_dir_same _ _ _⟩
  · rename_i h
    refine ⟨(c.dir i).asqIndex, ?_⟩
    rw [Bool.not_eq_true] at h
    rw [← h]

/-- A table with room takes a session at an entry of its own. -/
theorem Chan.enterAsq_room (c : Chan) (h : Handle) (now : Nat) (hroom : c.asq.length < 8192) :
    ∃ k d, k < 8192 ∧ c.enterAsq h now = some d ∧ d.sblks = c.sblks ∧
      d.dirs = (c.setDir h.index { c.dir h.index with asqIndex := k, asqValid := true }).dirs := by
  obtain ⟨k, hk, -, hle⟩ := firstFree_full (c.asq.map (·.1))
  rw [List.length_map] at hk hle
  have hlt : k < 8192 := by omega
  unfold Chan.enterAsq
  rw [hk]
  dsimp only
  rw [if_neg (Nat.not_le.mpr hlt)]
  exact ⟨k, _, hlt, rfl, rfl, rfl⟩

/-! ### Close (R58) -/

theorem Chan.unbindSlots_dirs (c : Chan) (e : Dir) : (c.unbindSlots e).dirs = c.dirs := by
  unfold Chan.unbindSlots
  dsimp only
  split <;> rfl

theorem foldl_freeLoc_kvSide {α : Type} (l : List α) (f : α → Loc) (c : Chan) : KvSide c (l.foldl (fun c x => c.freeLoc (f x)) c) :=
  foldl_kvSide fun c x => c.freeLoc_kvSide (f x)

/-- The runs and references of a session are freed in seven steps, none of which reaches the directory. -/
theorem Chan.freeSession_dirs (c : Chan) (i : Nat) : (c.freeSession i).dirs = c.dirs := by
  unfold Chan.freeSession
  extract_lets e refs leaves queue runs parked moved block
  have hrefs : KvSide c refs := foldl_kvSide fun c x => c.endRef_kvSide i x
  have hleaves : KvSide refs leaves := foldl_freeLoc_kvSide _ _ _
  have hqueue : KvSide leaves queue := .ite (.refl _) (foldl_kvSide fun c l => c.freeOf_kvSide i l)
  have hruns : KvSide queue runs := foldl_freeLoc_kvSide _ _ _
  have hparked : KvSide runs parked := by
    unfold parked
    split
    · exact foldl_kvSide fun c x => .ite (.refl c) (.ite (c.unshare_kvSide _) (c.freeLoc_kvSide _))
    · exact .refl _
  have hmoved : KvSide parked moved := by
    unfold moved
    split
    · exact (foldl_freeLoc_kvSide _ _ _).trans (foldl_freeLoc_kvSide _ _ _)
    · exact .refl _
  have hblock : KvSide moved block := .ite (.refl _) ((Chan.freeLoc_kvSide _ _).trans (Chan.freeLoc_kvSide _ _))
  have hall : KvSide c block := (((((hrefs.trans hleaves).trans hqueue).trans hruns).trans hparked).trans hmoved).trans hblock
  clear_value block
  exact hall.dirs

theorem Chan.freeSession_sblk (c : Chan) (i : Nat) : (c.freeSession i).sblk i = none := by
  unfold Chan.freeSession Chan.sblk
  dsimp only
  exact tget_tdel_same _ _

/-- A session that has left the table, its slots and what it held given back. -/
def Chan.freed (c : Chan) (i : Nat) : Chan :=
  (((c.touch i none).leaveAsq i).unbindSlots (((c.touch i none).leaveAsq i).dir i)).freeSession i

/-- What the captures say of a closed session. -/
def Chan.noteClosed (c : Chan) (i : Nat) : Chan :=
  let x := c.capture i
  let c := c.setCapture i { x with closedSince := true, sentLen := if x.cbw.isSome then x.sentLen else 0 }
  { c with mirror := { c.mirror with captures := c.mirror.captures.map (fun (y : Nat × Capture) =>
    if y.2.forkedFrom = some i then (y.1, { y.2 with forkedFrom := none, sentLen := 0 }) else y) } }

theorem Chan.closeSession_eq (c : Chan) (i : Nat) :
    c.closeSession i = ((c.freed i).noteClosed i).setDir i
      { count := (((c.touch i none).leaveAsq i).dir i).count + 1, epoch := (((c.touch i none).leaveAsq i).dir i).epoch } := rfl

theorem Chan.noteClosed_dirs (c : Chan) (i : Nat) : (c.noteClosed i).dirs = c.dirs := rfl
theorem Chan.noteClosed_sblk (c : Chan) (i k : Nat) : (c.noteClosed i).sblk k = c.sblk k := rfl

theorem Chan.freed_dirs (c : Chan) (i : Nat) : (c.freed i).dirs = ((c.touch i none).leaveAsq i).dirs :=
  (Chan.freeSession_dirs _ _).trans (Chan.unbindSlots_dirs _ _)

theorem Chan.closeSession_dir_same (c : Chan) (i : Nat) :
    (c.closeSession i).dir i = { count := (c.dir i).count + 1, epoch := (c.dir i).epoch } := by
  obtain ⟨k, hleave⟩ := (c.touch i none).leaveAsq_dir_same i
  rw [(c.touch_kvSide i none).dir] at hleave
  rw [Chan.closeSession_eq, Chan.setDir_dir_same, hleave]

theorem Chan.closeSession_dir_other (c : Chan) {i k : Nat} (h : k ≠ i) : (c.closeSession i).dir k = c.dir k := by
  rw [Chan.closeSession_eq, Chan.setDir_dir_other _ _ h, Chan.dir_congr (Chan.noteClosed_dirs _ _), Chan.dir_congr (Chan.freed_dirs _ _),
    Chan.leaveAsq_dir_other _ h, (c.touch_kvSide i none).dir]

theorem Chan.setDir_sblk (c : Chan) (i : Nat) (e : Dir) (k : Nat) : (c.setDir i e).sblk k = c.sblk k := rfl

theorem Chan.closeSession_sblk (c : Chan) (i : Nat) : (c.closeSession i).sblk i = none := by
  rw [Chan.closeSession_eq, Chan.setDir_sblk, Chan.noteClosed_sblk, Chan.freed, Chan.freeSession_sblk]

/-- A read of a session's revive. -/
def reviveReq (ch i : Nat) : ReqKind → Bool
  | .revive c j _ => c == ch && j == i
  | _ => false

/-- What a CLOSE ends before it takes effect: the revive that moves the session, and what is queued for it (R50, R58). -/
def closeEnds (ch i : Nat) (s : State) : State :=
  if ((s.chan ch).dir i).state = .reviving ∨ ((s.chan ch).dir i).streaming then
    endPending ch i .sessionStale (match reviveOp ch i s with
      | some op => endOp op .sessionStale [] [] s
      | none => s)
  else s

/-- The state in which a CLOSE completes. -/
def closed (ch i : Nat) (s : State) : State := (dropReqs (reviveReq ch i) (closeEnds ch i s)).modChan ch (fun c => c.closeSession i)

theorem closeNow_eq (d : Hdr) (ch i : Nat) (s : State) : closeNow d ch i s = done d 0x11 .ok [] [] (closed ch i s) := rfl

theorem closeEnds_idle {ch i : Nat} {s : State} (hstate : ((s.chan ch).dir i).state ≠ .reviving)
    (hstream : ((s.chan ch).dir i).streaming = false) : closeEnds ch i s = s := if_neg (by simp [hstate, hstream])

section
variable (ch i : Nat) (s : State)

/-- The end of a session's revive. -/
theorem endRevive_leaves (st : Status) :
    HostSide s (match reviveOp ch i s with | some op => endOp op st [] [] s | none => s) ∧
      WindsDown s (match reviveOp ch i s with | some op => endOp op st [] [] s | none => s) := by
  split
  · exact ⟨endOp_host _ _ _ _ _, endOp_windsDown _ _ _ _⟩
  · exact ⟨.refl s, .refl s⟩

theorem closeEnds_windsDown : WindsDown s (closeEnds ch i s) :=
  .ite ((endRevive_leaves ch i s .sessionStale).2.trans (endPending_windsDown _ _ _ _)) (.refl s)

/-- At most the pending operations of the session have gone from the channels. -/
theorem closeEnds_chans :
    (∀ k, (closeEnds ch i s).chan k = s.chan k) ∨ ∀ k, (closeEnds ch i s).chan k = (s.modChan ch (fun c => c.setPend i [])).chan k := by
  unfold closeEnds
  split
  · refine .inr fun k => ?_
    have hchan := (endRevive_leaves ch i s .sessionStale).1.chan
    rw [endPending_chan]
    by_cases hk : k = ch
    · subst hk
      rw [State.modChan_chan_same, State.modChan_chan_same, hchan]
    · rw [State.modChan_chan_other _ _ _ _ hk, State.modChan_chan_other _ _ _ _ hk, hchan]
  · exact .inl fun k => rfl

theorem closeEnds_chan_other {k : Nat} (hk : k ≠ ch) : (closeEnds ch i s).chan k = s.chan k := by
  obtain h | h := closeEnds_chans ch i s
  · exact h k
  · rw [h, State.modChan_chan_other _ _ _ _ hk]

theorem closeEnds_dir_other {k : Nat} (hk : k ≠ i) : ((closeEnds ch i s).chan ch).dir k = (s.chan ch).dir k := by
  obtain h | h := closeEnds_chans ch i s
  · rw [h]
  · rw [h, State.modChan_chan_same, Chan.setPend_dir_other _ _ hk]

theorem closeEnds_count :
    (((closeEnds ch i s).chan ch).dir i).count = ((s.chan ch).dir i).count ∧
      (((closeEnds ch i s).chan ch).dir i).epoch = ((s.chan ch).dir i).epoch := by
  obtain h | h := closeEnds_chans ch i s
  · rw [h]
    exact ⟨rfl, rfl⟩
  · rw [h, State.modChan_chan_same, Chan.setPend_dir_same]
    exact ⟨rfl, rfl⟩

theorem closed_windsDown : WindsDown s (closed ch i s) := by
  unfold closed
  have hends := closeEnds_windsDown ch i s
  generalize closeEnds ch i s = t at hends
  exact hends.trans ((dropReqs_windsDown (reviveReq ch i) t).trans (.of_eq rfl rfl))

theorem closed_chan_same : (closed ch i s).chan ch = ((closeEnds ch i s).chan ch).closeSession i := State.modChan_chan_same _ _ _

theorem closed_chan_other {k : Nat} (hk : k ≠ ch) : (closed ch i s).chan k = s.chan k :=
  (State.modChan_chan_other _ _ _ _ hk).trans (closeEnds_chan_other ch i s hk)

end

/-! ### Fork (R60, R61) -/

theorem forkSpace_kvSide (c : Chan) (w : Wm) (i : Nat) : KvSide c (forkSpace c w i).2 := by
  have hblock := c.takeBlock_kvSide w (c.placement i)
  unfold forkSpace
  dsimp only
  split
  · rfl
  · rename_i c1 heq1
    have hleaves := c1.takeMany_kvSide w (c.placement i) 0 (c.leavesOf i).length
    simp only [heq1] at hblock
    split
    · rfl
    · rename_i c2 heq2
      have hqueue := c2.takeMany_kvSide w (c.placement i) 0 (queueGranules (c.queue i).words.length)
      simp only [heq2] at hleaves
      split
      · rfl
      · rename_i c3 heq3
        simp only [heq3] at hqueue
        exact (hblock.trans hleaves).trans hqueue

/-- The record of a fork's child. -/
def forkDir (c : Chan) (i j fn : Nat) (b r : Loc) : Dir :=
  { c.dir i with epoch := c.epoch, count := (c.dir j).count, state := .opened, savedState := .closed, parkPend := false
                 closePend := false, forkPend := false, resumePend := false, streaming := false, owner := fn, lastStep := 0
                 sblk := b, pmap := r, toolTag := 0, deadline := 0, asqIndex := 0, asqValid := false }

theorem forkChild_dirs (c : Chan) (i j fn : Nat) (b r : Loc) (ls : Tbl Loc) (qs : List Loc) :
    (forkChild c i j fn b r ls qs).dirs = (c.setDir j (forkDir c i j fn b r)).dirs := by
  unfold forkChild
  extract_lets _ e shared placed mapped leaved blocked queued _ noted
  have hshared : KvSide c shared := foldl_kvSide fun c d => rfl
  have hplaced : placed.dirs = tset j e c.dirs := congrArg (tset j e) hshared.dirs
  have hleaved : leaved.dirs = placed.dirs := rfl
  have hblocked : blocked.dirs = leaved.dirs := by
    unfold blocked
    split <;> rfl
  have hqueued : queued.dirs = blocked.dirs := by
    unfold queued
    split <;> rfl
  have hnoted : noted.dirs = queued.dirs := rfl
  rw [Chan.bindSlots_dirs, hnoted, hqueued, hblocked, hleaved, hplaced]
  rfl

/-! ### Resume (R55, R56) -/

theorem resumeZero_stops {i : Nat} {c : Chan} {b : SBlk} (hb : c.sblk i = some b) :
    ((resumeZero i c).dir i).state = .stopped ∧ (resumeZero i c).sblk i = some { b with stopReason := 4, stopIndex := 0 } := by
  have hb' := ((c.touch_kvSide i none).sblk i).trans hb
  simp only [resumeZero, hb', Chan.modDir_dir_same, true_and]
  exact Chan.setSblk_sblk_same _ _ _

/-- With a block, and room in the table, a session runs. -/
theorem resumeRun_runs {ch i limit deadline : Nat} {feed : Bool} {s : State} {b : SBlk} (hb : (s.chan ch).sblk i = some b)
    (hroom : (s.chan ch).asq.length < 8192) :
    ∃ u b', resumeRun ch i limit deadline feed s = some u ∧ u.ops = s.ops ∧
      ((u.chan ch).dir i).state = .runnable ∧ ((u.chan ch).dir i).asqValid = true ∧ ((u.chan ch).dir i).asqIndex < 8192 ∧
      ((u.chan ch).dir i).deadline = deadline ∧ (u.chan ch).sblk i = some b' ∧ b'.genLimitRun = limit ∧ b'.genCount = 0 ∧
      (∀ k, k ≠ i → (u.chan ch).dir k = (s.chan ch).dir k) := by
  have htouch := (s.chan ch).touch_kvSide i none
  have hb' := (htouch.sblk i).trans hb
  unfold resumeRun
  simp only [hb']
  generalize (s.chan ch).touch i none = c at htouch
  generalize resumeCut feed (c.dir i) _ = r
  obtain ⟨e, b1⟩ := r
  obtain ⟨k, x, hk, henter, hsblks, hdirs⟩ := ((c.setSblk i { b1 with genLimitRun := limit, genCount := 0 }).setDir i
    { e with state := .runnable, toolTag := 0, deadline := deadline }).enterAsq_room (handleOf ch i s) s.now
      (by simpa [Chan.setDir, Chan.setSblk, htouch.asq] using hroom)
  have hdir := Chan.dir_congr hdirs i
  rw [show (handleOf ch i s).index = i from rfl, Chan.setDir_dir_same, Chan.setDir_dir_same] at hdir
  refine ⟨s.setChan ch x, { b1 with genLimitRun := limit, genCount := 0 }, by rw [henter]; rfl, rfl, ?_⟩
  rw [State.setChan_chan_same, hdir, Chan.sblk, hsblks]
  refine ⟨rfl, rfl, hk, rfl, tget_tset_same _ _ _, rfl, rfl, fun j hj => ?_⟩
  rw [Chan.dir_congr hdirs j]
  exact (Chan.setDir_dir_other _ _ hj).trans ((Chan.setDir_dir_other _ _ hj).trans (htouch.dir j))

/-! ### The commands -/

section
variable {d : Hdr} {h : Handle} {fn ch : Nat} {s : State}

theorem exec_opSessionClose (g : OnSession 0x11 d h fn ch s) :
    exec (.opSessionClose d h) s = .next (onVerdict (judgeClose ((s.chan ch).dir h.index)) (.opSessionClose d h) d 0x11 ch h.index fn
      (closeNow d ch h.index) s) := by
  change execOpSessionClose d h s = _
  rw [execOpSessionClose, onSession_next g, sessClose]

theorem exec_opSessionFork (g : OnSession 0x14 d h fn ch s) :
    exec (.opSessionFork d h) s = .next (onVerdict (judgeFork ((s.chan ch).dir h.index)) (.opSessionFork d h) d 0x14 ch h.index fn
      (forkNow d ch h.index fn) s) := by
  change execOpSessionFork d h s = _
  rw [execOpSessionFork, onSession_next g, sessFork]

theorem exec_opSessionResume (g : OnSession 0x15 d h fn ch s) (tag limit : Nat) (feed dflt : Bool) :
    exec (.opSessionResume d h tag limit feed dflt) s = .next (onVerdict (judgeResume ((s.chan ch).dir h.index))
      (.opSessionResume d h tag limit feed dflt) d 0x15 ch h.index fn (resumeNow d ch h.index tag limit feed dflt) s) := by
  change execOpSessionResume d h tag limit feed dflt s = _
  rw [execOpSessionResume, onSession_next g, sessResume]

theorem forkNow_complete (hop : opOf d.ring d.tag s = none) (i : Nat) :
    forkNow d ch i fn s =
      if (tget i (s.chan ch).chunks).isSome then complete d 0x14 .prefillOpen [] [] s
      else if !((s.chan ch).prof ((s.chan ch).dir i).profile).valid then complete d 0x14 .paramInvalid [] [] s
      else match (s.chan ch).freeEntry with
        | none => complete d 0x14 .sessionTableFull [] [] s
        | some j =>
          if ((s.chan ch).descsOf i).any (fun x => decide (65535 ≤ (s.chan ch).share x)) then complete d 0x14 .forkLimit [] [] s
          else match forkSpace (s.chan ch) (wmOf ch s) i with
            | (none, c) => complete d 0x14 .noSpace [] [] (s.setChan ch c)
            | (some (b, r, ls, qs), c) =>
              complete d 0x14 .ok [handleWord (handleOf ch j (s.setChan ch (forkChild (c.dropDraft i) i j fn b r ls qs)))] []
                (s.setChan ch (forkChild (c.dropDraft i) i j fn b r ls qs)) := by
  have hdone (st : Status) (res : List Nat) (u : State) (hu : u.ops = s.ops) : done d 0x14 st res [] u = complete d 0x14 st res [] u :=
    done_of_none ((opOf_congr hu _ _).trans hop) _ _ _ _
  unfold forkNow
  simp only [hdone _ _ s rfl, hdone _ _ (s.setChan _ _) rfl] <;> rfl

end

/-- With a block, its limit stands in for the one of the operands where they ask for it. -/
theorem resumeNow_block {d : Hdr} {ch i : Nat} {s : State} {b : SBlk} (hb : (s.chan ch).sblk i = some b) (tag limit : Nat)
    (feed dflt : Bool) :
    resumeNow d ch i tag limit feed dflt s =
      if (tget i (s.chan ch).chunks).isSome then done d 0x15 .prefillOpen [] [] s
      else if ((s.chan ch).dir i).state = .waitingTool ∧ tag ≠ ((s.chan ch).dir i).toolTag then done d 0x15 .toolTagMismatch [] [] s
      else if (if dflt then b.img.genLimit else limit) = 0 then done d 0x15 .ok [] [] (s.modChan ch (resumeZero i))
      else if ((s.chan ch).dir i).kvLen = 0 ∧ (s.chan ch).pendingOf i = 0 then done d 0x15 .sessionEmpty [] [] s
      else if 8192 ≤ (s.chan ch).asq.length then done d 0x15 .activeTableFull [] [] s
      else match resumeRun ch i (if dflt then b.img.genLimit else limit) d.deadline feed s with
        | some s => done d 0x15 .ok [] [] s
        | none => done d 0x15 .activeTableFull [] [] s := by
  unfold resumeNow
  simp only [hb] <;> rfl

/-- Settles O25: each command is `onVerdict` of its verdict, and what it does at once is one of the functions above, with
the descriptor's own completion since no operation of its tag is outstanding. -/
theorem sessionsCloseForkAndResume : Obligations.SessionsCloseForkAndResume := by
  intro d h fn ch s hop c i
  have hdone {u : State} (hu : u.ops = s.ops) (op : Nat) (st : Status) (res : List Nat) :
      done d op st res [] u = complete d op st res [] u := done_of_none ((opOf_congr hu _ _).trans hop) _ _ _ _
  have hshut (hopen : tget i c.chunks = none) : ¬ (tget i c.chunks).isSome = true := by
    rw [hopen]
    exact Bool.false_ne_true
  refine ⟨judged_of_exec hop exec_opSessionClose, judged_of_exec hop exec_opSessionFork,
    fun tag limit feed dflt => judged_of_exec hop fun g => exec_opSessionResume g tag limit feed dflt, ?close, ?fork, ?resume⟩
  case close =>
    intro g hact
    have hends : opOf d.ring d.tag (closed ch i s) = none := (closed_windsDown ch i s).opOf_none hop
    refine ⟨closed ch i s, ?_, ?_, ?_, fun j hj => ?_, fun k hk => closed_chan_other ch i s hk, fun hstate hstream => ?_⟩
    · rw [exec_opSessionClose g, hact, onVerdict_act, closeNow_eq, done_of_none hends]
    · rw [closed_chan_same, Chan.closeSession_dir_same, (closeEnds_count ch i s).1, (closeEnds_count ch i s).2]
    · rw [closed_chan_same, Chan.closeSession_sblk]
    · rw [closed_chan_same, Chan.closeSession_dir_other _ hj, closeEnds_dir_other ch i s hj]
    · rw [closed, closeEnds_idle hstate hstream]
      rfl
  case fork =>
    intro g hact
    rw [exec_opSessionFork g, hact, onVerdict_act, forkNow_complete hop]
    refine ⟨fun hopen => by rw [if_pos hopen], fun hopen hprof => ?_⟩
    have hshares (hlow : ∀ x ∈ c.descsOf i, c.share x < 65535) : (c.descsOf i).any (fun x => decide (65535 ≤ c.share x)) = false := by
      simpa using hlow
    rw [if_neg (hshut hopen), if_neg (by rw [hprof]; exact Bool.false_ne_true)]
    refine ⟨fun hfull => by rw [hfull], fun j hfree hlimit => ?_, fun j c' hfree hlow hspace => ?_, fun j b r ls qs c' hfree hlow hspace => ?_⟩
    · rw [hfree]
      exact congrArg _ (if_pos (by simpa using hlimit))
    · rw [hfree]
      dsimp only
      rw [hshares hlow, hspace]
      rfl
    · have hdirs : (c'.dropDraft i).dirs = c.dirs := by
        have hside := forkSpace_kvSide c (wmOf ch s) i
        rw [hspace] at hside
        exact (c'.dropDraft_dirs i).trans hside.dirs
      have hchild := forkChild_dirs (c'.dropDraft i) i j fn b r ls qs
      refine ⟨s.setChan ch (forkChild (c'.dropDraft i) i j fn b r ls qs), ?_, ?_⟩
      · rw [hfree]
        dsimp only
        rw [hshares hlow, hspace]
        rfl
      · rw [State.setChan_chan_same, Chan.dir_congr hchild, Chan.setDir_dir_same, forkDir, Chan.dir_congr hdirs i, Chan.dir_congr hdirs j]
        refine ⟨rfl, rfl, rfl, rfl, rfl, fun k hk => ?_, fun k hk => State.setChan_chan_other _ _ _ _ hk⟩
        rw [Chan.dir_congr hchild, Chan.setDir_dir_other _ _ hk, Chan.dir_congr hdirs]
  case resume =>
    intro tag limit feed dflt b g hact hb n
    rw [exec_opSessionResume g, hact, onVerdict_act, resumeNow_block hb]
    refine ⟨fun hopen => ?_, fun hopen htool hne => ?_, fun hopen htag => ?_⟩
    · rw [if_pos hopen, hdone rfl]
    · rw [if_neg (hshut hopen), if_pos ⟨htool, hne⟩, hdone rfl]
    · rw [if_neg (hshut hopen), if_neg (fun hx => hx.2 (htag hx.1))]
      refine ⟨fun hn => ?_, fun hn hsome hroom => ?_, fun hn h0 hp => ?_, fun hn hsome hfull => ?_⟩
      · obtain ⟨hstate, hblk⟩ := resumeZero_stops hb
        refine ⟨s.modChan ch (resumeZero i), { b with stopReason := 4, stopIndex := 0 }, by rw [if_pos hn, hdone (u := s.modChan ch _) rfl], ?_⟩
        rw [State.modChan_chan_same]
        exact ⟨hstate, hblk, rfl⟩
      · obtain ⟨u, b', hrun, hops, hruns⟩ := resumeRun_runs (i := h.index) (deadline := d.deadline) (feed := feed)
          (limit := if dflt then b.img.genLimit else limit) hb hroom
        refine ⟨u, b', ?_, hruns⟩
        rw [if_neg hn, if_neg (fun hx => hsome.elim (· hx.1) (· hx.2)), if_neg (Nat.not_le.mpr hroom), hrun]
        exact congrArg _ (hdone hops _ _ _)
      · rw [if_neg hn, if_pos ⟨h0, hp⟩, hdone rfl]
      · rw [if_neg hn, if_neg (fun hx => hsome.elim (· hx.1) (· hx.2)), if_pos hfull, hdone rfl]

end Sys2Proof.Machine
end

section
/-! Sessions set, read and fed; profiles (R46, R97, R104, R203, R204, R226, R392). The settlement of O26. -/

namespace Sys2Proof.Machine

open Sys2Proof

/-! ### Set (R46) -/

theorem Chan.repin_kvSide (c : Chan) (i : Nat) (pin : Bool) : KvSide c (c.repin i pin) :=
  foldl_kvSide fun c d => .ite (c.modPage_kvSide d _) (.refl c)

/-- The counts of the grammar slots follow a session that is bound to another slot. -/
def Chan.rebindGrammar (rebind : Bool) (e : Dir) (slot : Nat) (en : Bool) (c : Chan) : Chan :=
  if rebind then
    let c := if e.grammarEn then { c with grams := tmod e.grammarSlot (fun t => { t with sessions := t.sessions - 1 }) c.grams } else c
    if en then { c with grams := tmod slot (fun t => { t with sessions := t.sessions + 1 }) c.grams } else c
  else c

theorem Chan.rebindGrammar_keeps (rebind : Bool) (e : Dir) (slot : Nat) (en : Bool) (c : Chan) :
    (c.rebindGrammar rebind e slot en).dirs = c.dirs ∧ (c.rebindGrammar rebind e slot en).sblks = c.sblks := by
  unfold Chan.rebindGrammar
  split
  · dsimp only
    split <;> split <;> exact ⟨rfl, rfl⟩
  · exact ⟨rfl, rfl⟩

/-- What a SET leaves of a session with a block: the block and the record it asks for. -/
theorem setSession_sets {i slot : Nat} {g : ParamImage} {rebind en : Bool} {c : Chan} {b : SBlk} (hb : c.sblk i = some b) :
    let slot' := if rebind then slot else (c.dir i).grammarSlot
    let en' := if rebind then en else (c.dir i).grammarEn
    ((setSession i g rebind slot en c).sblk i = some (setSblkImage b g (slot' != (c.dir i).grammarSlot))) ∧
      (setSession i g rebind slot en c).dir i = ({ c.dir i with grammarSlot := slot', grammarEn := en' } : Dir).withImage g ∧
      ∀ k, k ≠ i → (setSession i g rebind slot en c).dir k = c.dir k := by
  intro slot' en'
  have htouch := c.touch_kvSide i none
  have hb' := (htouch.sblk i).trans hb
  have hset : setSession i g rebind slot en c =
      (let x := ((c.touch i none).setSblk i (setSblkImage b g (slot' != (c.dir i).grammarSlot))).rebindGrammar rebind (c.dir i) slot' en'
       if (c.dir i).pin != g.pin then x.repin i g.pin else x).setDir i
        (({ c.dir i with grammarSlot := slot', grammarEn := en' } : Dir).withImage g) := by
    unfold setSession
    simp only [hb', htouch.dir i]
    rfl
  obtain ⟨hdirs, hsblks⟩ := Chan.rebindGrammar_keeps rebind (c.dir i) slot' en'
    ((c.touch i none).setSblk i (setSblkImage b g (slot' != (c.dir i).grammarSlot)))
  rw [hset]
  generalize ((c.touch i none).setSblk i _).rebindGrammar rebind (c.dir i) slot' en' = x at hdirs hsblks
  have hpin : KvSide x (if (c.dir i).pin != g.pin then x.repin i g.pin else x) := .ite (x.repin_kvSide i g.pin) (.refl x)
  refine ⟨?_, Chan.setDir_dir_same _ _ _, fun k hk => ?_⟩
  · rw [Chan.setDir_sblk]
    refine (hpin.sblk i).trans ?_
    rw [Chan.sblk, hsblks]
    exact Chan.setSblk_sblk_same _ _ _
  · refine (Chan.setDir_dir_other _ _ hk).trans ((hpin.dir k).trans ((Chan.dir_congr hdirs k).trans (htouch.dir k)))

section
variable {d : Hdr} {h : Handle} {fn ch : Nat} {s : State}

/-- A SET whose buffer and image pass is judged on the state that has taken its entry. -/
theorem exec_opSessionSet (g : OnSession 0x16 d h fn ch s) {addr len : Nat} (hbuf : imageBuffer fn addr len s = none)
    (hentry : EntryFree s) (img : ParamImage) (rebind : Bool) (slot : Nat) (en : Bool) :
    exec (.opSessionSet d h addr len img rebind slot en) s = .next
      (if !imageOk img (s.chan ch) ((s.chan ch).dir h.index).owner ((s.chan ch).dir h.index).tokenizer
          (if rebind then slot else ((s.chan ch).dir h.index).grammarSlot) (if rebind then en else ((s.chan ch).dir h.index).grammarEn)
          (takeEntry s) then complete d 0x16 .paramInvalid [] [] (takeEntry s)
       else onVerdict (judgeInput ((s.chan ch).dir h.index)) (.opSessionSet d h addr len img rebind slot en) d 0x16 ch h.index fn
         (setNow d ch h.index img rebind slot en) (takeEntry s)) := by
  change execOpSessionSet d h addr len img rebind slot en s = _
  rw [execOpSessionSet, onSession_next g, hbuf]
  dsimp only
  rw [withEntry_next hentry]
  simp only [takeEntry_chan, sessSet]

end

/-! ### Query (R392) -/

theorem asqWords_length (c : Chan) (i : Nat) : (asqWords c i).length = 4 := by
  unfold asqWords
  split <;> rfl

theorem queryWords_length (c : Chan) (i : Nat) : (queryWords c i).length = 16 := by
  rw [queryWords, List.length_append, List.length_append, asqWords_length]
  rfl

/-! ### Text in (R203, R204, R206) -/

/-- A queue that grows: its words in order after those it held; nothing else of the session's record moves. -/
theorem Chan.joinQueue_joins {c c' : Chan} {w : Wm} {i : Nat} {ws : List Nat} (h : c.joinQueue w i ws = (true, c')) :
    (c'.queue i).words = (c.queue i).words ++ ws := by
  have hmany := c.takeMany_kvSide w (c.placement i) 0 (queueNeed (c.queue i) ws.length - (c.queue i).granules.length)
  unfold Chan.joinQueue at h
  dsimp only at h
  split at h
  · cases h
  · split at h
    · cases h
    · rename_i ls x htake
      rw [htake] at hmany
      obtain rfl : (if ws.isEmpty then x else x.setQueue i ((c.queue i).join ws ls)) = c' := congrArg Prod.snd h
      split
      · rename_i hnil
        rw [hmany.queue, List.isEmpty_iff.mp hnil, List.append_nil]
      · rw [Chan.setQueue_queue_same]
        rfl

/-- The channel's counters of a text that ran. -/
def Chan.countText (c : Chan) (o : TextOutcome) : Chan :=
  { c with prismInvalid := wrap64 (c.prismInvalid + o.invalid), normFlush := wrap64 (c.normFlush + o.run.flushes) }

/-- What becomes of a text that ran: refused, longer than the host's buffer, without space, or joined. -/
def endText (d : Hdr) (a : TextArgs) (ch i : Nat) (b : SBlk) (o : TextOutcome) (s : State) : State :=
  let c := (s.chan ch).countText o
  let n := o.run.toks.length
  match o.rejected with
  | some off => done d 0x30 .textInvalid [0, 0, int32 off, heldWord b.carry] [] (s.setChan ch c)
  | none =>
    if a.hostCopy ∧ a.tokCap < n then done d 0x30 .lenExceedsBuffer [n, o.invalid, 0, heldWord b.carry] [] (s.setChan ch c)
    else match (c.touch i none).joinQueue (wmOf ch s) i o.run.toks with
      | (false, f) => done d 0x30 .noSpace [0, o.invalid, 0, heldWord b.carry] [] (s.setChan ch (c.withFails f))
      | (true, c) => done d 0x30 .ok [n, o.invalid, 0, heldWord o.run.carry]
          (if a.hostCopy then [(a.tokAddr, .bytes (o.run.toks.flatMap (natLE 4)))] else [])
          (s.setChan ch (c.setSblk i { b with carry := o.run.carry }))

section
variable {d : Hdr} {a : TextArgs} {fn ch i : Nat} {b : SBlk} {o : TextOutcome} {s : State}

theorem endText_rejected {off : Int} (h : o.rejected = some off) :
    endText d a ch i b o s =
      done d 0x30 .textInvalid [0, 0, int32 off, heldWord b.carry] [] (s.setChan ch ((s.chan ch).countText o)) := by
  rw [endText, h]

variable (hok : o.rejected = none)
include hok

theorem endText_tooLong (hcap : a.hostCopy = true ∧ a.tokCap < o.run.toks.length) :
    endText d a ch i b o s =
      done d 0x30 .lenExceedsBuffer [o.run.toks.length, o.invalid, 0, heldWord b.carry] [] (s.setChan ch ((s.chan ch).countText o)) := by
  rw [endText, hok]
  exact if_pos hcap

variable (hcap : ¬ (a.hostCopy = true ∧ a.tokCap < o.run.toks.length)) {c : Chan}
include hcap

theorem endText_noSpace (hjoin : (((s.chan ch).countText o).touch i none).joinQueue (wmOf ch s) i o.run.toks = (false, c)) :
    endText d a ch i b o s =
      done d 0x30 .noSpace [0, o.invalid, 0, heldWord b.carry] [] (s.setChan ch (((s.chan ch).countText o).withFails c)) := by
  rw [endText, hok]
  exact (if_neg hcap).trans (by rw [hjoin])

theorem endText_joined (hjoin : (((s.chan ch).countText o).touch i none).joinQueue (wmOf ch s) i o.run.toks = (true, c)) :
    endText d a ch i b o s =
      done d 0x30 .ok [o.run.toks.length, o.invalid, 0, heldWord o.run.carry]
        (if a.hostCopy then [(a.tokAddr, .bytes (o.run.toks.flatMap (natLE 4)))] else [])
        (s.setChan ch (c.setSblk i { b with carry := o.run.carry })) := by
  rw [endText, hok]
  exact (if_neg hcap).trans (by rw [hjoin])

end

section
variable {d : Hdr} {a : TextArgs} {fn ch : Nat} {s : State}

theorem textNow_run {i : Nat} {t : TokImage} {b : SBlk} (ht : (s.chan ch).tokImage ((s.chan ch).dir i).tokenizer = some t)
    (hb : (s.chan ch).sblk i = some b) :
    textNow d a ch i s =
      if a.textLen = 0 ∧ !a.last then done d 0x30 .ok [0, 0, 0, heldWord b.carry] [] s
      else endText d a ch i b (textRun t ((s.chan ch).dir i).utf8Policy b.carry a.text a.last) s := by
  unfold textNow
  dsimp only
  rw [ht, hb]
  rfl

/-- An OP_TEXT_IN without effect reports the carry it found. -/
theorem unheardArea_block {c : Chan} {i : Nat} {b : SBlk} (hb : c.sblk i = some b) : unheardArea c i = [0, 0, 0, heldWord b.carry] := by
  rw [unheardArea, hb]

theorem exec_opTextIn_refused (g : OnSession 0x30 d a.handle fn ch s) {st : Status} (h : textCheck fn a s = some st) :
    exec (.opTextIn d a) s = .next (complete d 0x30 st (unheardArea (s.chan ch) a.handle.index) [] s) := by
  change execOpTextIn d a s = _
  rw [execOpTextIn, onSession_next g, h]

theorem exec_opTextIn_passed (g : OnSession 0x30 d a.handle fn ch s) (h : textCheck fn a s = none) :
    exec (.opTextIn d a) s = .next (onVerdictWith (unheardArea (s.chan ch) a.handle.index)
      (judgeInput ((s.chan ch).dir a.handle.index)) (.opTextIn d a) d 0x30 ch a.handle.index fn (textNow d a ch a.handle.index) s) := by
  change execOpTextIn d a s = _
  rw [execOpTextIn, onSession_next g, h]
  rfl

end

/-! ### Drafts (R226) -/

/-- A draft that passes its checks comes to a session that holds none, with as many entries as it says. -/
theorem draftCheck_none {c : Chan} {a : DraftArgs} (h : draftCheck c a = none) :
    c.draftOf a.handle.index = none ∧ a.entries.length = a.count := by
  unfold draftCheck at h
  dsimp only at h
  split_ifs at h with hrun hstate hdraft hstale hbad
  exact ⟨Option.not_isSome_iff_eq_none.mp hdraft, by_contra fun hne => hbad (.inr (.inl hne))⟩

/-- A channel whose session holds a draft. -/
def Chan.withDraft (c : Chan) (i : Nat) (t : Alloc) (x : Draft) : Chan :=
  { c with t1 := t, drafts := tset (c.dir i).asqIndex x c.drafts }

theorem Chan.withDraft_draftOf {c : Chan} {i : Nat} (h : (c.dir i).asqValid = true) (t : Alloc) (x : Draft) :
    (c.withDraft i t x).draftOf i = some x := by
  have hdir : (c.withDraft i t x).dir i = c.dir i := rfl
  rw [Chan.draftOf, hdir]
  simp only [h, if_true]
  exact tget_tset_same _ _ _

theorem Chan.withDraft_pendingOf {c : Chan} {i : Nat} (h : (c.dir i).asqValid = true) (hnone : c.draftOf i = none) (t : Alloc) (x : Draft) :
    (c.withDraft i t x).pendingOf i = c.pendingOf i + x.entries.length := by
  have hqueue : (c.withDraft i t x).queue i = c.queue i := rfl
  have hdir : (c.withDraft i t x).dir i = c.dir i := rfl
  rw [Chan.pendingOf, Chan.pendingOf, Chan.withDraft_draftOf h, hnone, hqueue, hdir]
  dsimp only
  omega

theorem exec_opSessionDraft {d : Hdr} {a : DraftArgs} {fn ch : Nat} {s : State} (hacc : Accepts 0x38 d fn ch s) (hcount : a.count ≠ 0)
    (hrange : rangeCheck fn a.addr (264 * a.count) s = none) (hhandle : checkHandle a.handle ch fn s = none) :
    (∀ st, draftCheck (s.chan ch) a = some st → exec (.opSessionDraft d a) s = .next (complete d 0x38 st [] [] s)) ∧
    (∀ g t, draftCheck (s.chan ch) a = none → (s.chan ch).t1.take 0 = (some g, t) →
      exec (.opSessionDraft d a) s =
        .next (complete d 0x38 .ok [] [] (s.setChan ch ((s.chan ch).withDraft a.handle.index t ⟨g, a.base, a.entries⟩)))) := by
  change (∀ st, _ → execOpSessionDraft d a s = _) ∧ ∀ g t, _ → _ → execOpSessionDraft d a s = _
  rw [execOpSessionDraft, accept_next hacc, if_neg hcount, hrange]
  dsimp only
  rw [hhandle]
  refine ⟨fun st h => by rw [h], fun g t h htake => ?_⟩
  rw [h]
  dsimp only
  rw [htake]
  rfl

/-! ### Profiles (R104) -/

theorem exec_opProfileSet {d : Hdr} {fn ch n : Nat} {rec : Profile} {s : State} (hacc : Accepts 0x19 d fn ch s) (hn : n < 64)
    (hrec : profileOk rec = true) (hfields : modelFieldsOk rec = true) :
    exec (.opProfileSet d n rec) s = .next
      (if profileBusy n s then complete d 0x19 .profileBusy [] [] s else complete d 0x19 .ok [] [] (setProfile n rec s)) := by
  change execOpProfileSet d n rec s = _
  rw [execOpProfileSet, accept_next hacc, if_neg]
  rintro (hlt | hbad | hbad)
  · omega
  · simp [hrec] at hbad
  · simp [hfields] at hbad

/-- Settles O26: a SET and an OP_TEXT_IN take effect by `onVerdict`, the other commands at once. -/
theorem sessionsAreSetReadAndFed : Obligations.SessionsAreSetReadAndFed := by
  intro d h fn ch s hop c i
  have hdone {u : State} (hu : opOf d.ring d.tag u = none) (op : Nat) (st : Status) (res : List Nat) (w : List (Nat × Payload)) :
      done d op st res w u = complete d op st res w u := done_of_none hu _ _ _ _
  refine ⟨?set, ?query, ?prefetch, ?text, ?draft, ?profile⟩
  case set =>
    intro addr len img rebind gs ge g hbuf hentry slot en
    have hentryOp : opOf d.ring d.tag (takeEntry s) = none := (takeEntry_windsDown s).opOf_none hop
    rw [exec_opSessionSet g hbuf hentry]
    refine ⟨fun hbad => congrArg _ (if_pos (by rw [hbad]; rfl)), fun hgood => ?_⟩
    have himage : imageOk img ((takeEntry s).chan ch) (c.dir i).owner (c.dir i).tokenizer slot en (takeEntry s) = true := by
      rw [takeEntry_chan, hgood]
    rw [if_neg (by rw [hgood]; exact Bool.false_ne_true)]
    refine ⟨fun st hfail => by rw [hfail, onVerdict, onVerdictWith_fail hentryOp], fun b hact hb => ?_⟩
    obtain ⟨hblk, hdir, hother⟩ := setSession_sets (i := i) (slot := gs) (g := img) (rebind := rebind) (en := ge) (c := c) hb
    refine ⟨(takeEntry s).modChan ch (setSession i img rebind gs ge), ?_, ?_⟩
    · rw [hact, onVerdict_act, setNow, takeEntry_chan]
      rw [if_neg (by rw [hgood]; exact Bool.false_ne_true), hdone (u := (takeEntry s).modChan ch _) hentryOp]
    · rw [State.modChan_chan_same, takeEntry_chan]
      exact ⟨hblk, hdir, hother⟩
  case query =>
    intro addr g hrange
    refine ⟨?_, queryWords_length c i⟩
    change execOpSessionQuery d h addr s = _
    rw [execOpSessionQuery, onSession_next g, hrange]
  case prefetch =>
    intro first n g x
    change (_ → _ → execOpKvPrefetch d h first n s = _ ∧ (_ → execOpKvPrefetch d h first n s = _)) ∧
      (_ → execOpKvPrefetch d h first n s = _)
    rw [execOpKvPrefetch, onSession_next g]
    refine ⟨fun hfirst hlast => ?_, fun hout => congrArg _ (if_pos hout)⟩
    have hin : ¬ (x.layers ≤ first ∨ x.layers < first + n) := by omega
    refine ⟨congrArg _ (if_neg hin), fun hnone => congrArg _ ((if_neg hin).trans ?_)⟩
    rw [show spilledOf (s.chan ch) h.index first n = [] from hnone]
    rfl
  case text =>
    intro a b g hh hb carried
    subst hh
    have harea := unheardArea_block hb
    refine ⟨fun st hbad => by rw [exec_opTextIn_refused g hbad, harea], fun st hpass hfail => ?_, fun t hpass hact ht => ?_⟩
    · rw [exec_opTextIn_passed g hpass, hfail, harea, onVerdictWith_fail hop]
    · rw [exec_opTextIn_passed g hpass, hact, onVerdictWith, textNow_run ht hb]
      refine ⟨fun h0 hlast => ?_, fun hsome => ?_⟩
      · rw [if_pos ⟨h0, by rw [hlast]; rfl⟩, hdone hop]
      · rw [if_neg (fun hx => hsome.elim (· hx.1) (fun hlast => by rw [hlast] at hx; exact Bool.false_ne_true hx.2))]
        intro o c1 n
        have htouch := c1.touch_kvSide i none
        refine ⟨fun off hoff => ?_, fun hok hcopy hcap => ?_, fun hok hcap => ⟨fun c' hjoin => ?_, fun c' hjoin => ?_⟩⟩
        · rw [endText_rejected hoff, hdone (u := s.setChan ch _) hop]
          rfl
        · rw [endText_tooLong hok ⟨hcopy, hcap⟩, hdone (u := s.setChan ch _) hop]
          rfl
        · rw [endText_noSpace hok (fun hx => Nat.not_lt.mpr (hcap hx.1) hx.2) hjoin, hdone (u := s.setChan ch _) hop]
          rfl
        · refine ⟨s.setChan ch (c'.setSblk i { b with carry := o.run.carry }), ?_, ?_⟩
          · rw [endText_joined hok (fun hx => Nat.not_lt.mpr (hcap hx.1) hx.2) hjoin, hdone (u := s.setChan ch _) hop]
          · rw [State.setChan_chan_same]
            exact ⟨(Chan.joinQueue_joins hjoin).trans (congrArg (·.words ++ _) (htouch.queue i)), Chan.setSblk_sblk_same _ _ _⟩
  case draft =>
    intro a hacc hh hcount hrange hhandle
    subst hh
    obtain ⟨hrefused, htaken⟩ := exec_opSessionDraft hacc hcount hrange hhandle
    refine ⟨hrefused, fun g t hpass hvalid htake => ⟨_, htaken g t hpass htake, ?_⟩⟩
    obtain ⟨hnone, hlen⟩ := draftCheck_none hpass
    rw [State.setChan_chan_same, Chan.withDraft_draftOf hvalid, Chan.withDraft_pendingOf hvalid hnone, hlen]
    exact ⟨rfl, rfl⟩
  case profile =>
    intro n rec hacc hn hrec hfields
    rw [exec_opProfileSet hacc hn hrec hfields]
    exact ⟨fun hbusy => congrArg _ (if_pos hbusy),
      fun hfree => ⟨congrArg _ (if_neg (by rw [hfree]; exact Bool.false_ne_true)), tget_tset_same _ _ _⟩⟩

end Sys2Proof.Machine
end

section
/-! Host-issued layers and merges (R149 to R151, R160). The settlement of O27. -/

namespace Sys2Proof.Machine

open Sys2Proof

/-! ### Reservation (R81) -/

theorem setLeaves_kvSide (c : Chan) (t : Tbl (Tbl Loc)) : KvSide c { c with leaves := t } := rfl

theorem setShares_kvSide (c : Chan) (t : Tbl Nat) : KvSide c { c with shares := t } := rfl

theorem Chan.needLeaf_kvSide (c : Chan) (w : Wm) (code i e : Nat) : KvSide c (c.needLeaf w code i e).2 := by
  have htake := c.takePlaced_kvSide w code 0
  unfold Chan.needLeaf
  split
  · exact .refl c
  · split <;> rename_i htaken <;> rw [htaken] at htake
    · exact htake.trans (setLeaves_kvSide _ _)
    · exact htake

section
variable {w : Wm} {i : Nat}

theorem reservePage_kvSide {c c' : Chan} {e step n : Nat} (h : c.reservePage w i e step = .ok (n, c')) : KvSide c c' := by
  have hleaf := c.needLeaf_kvSide w (c.placement i) i e
  unfold Chan.reservePage at h
  dsimp only at h
  split at h
  · cases h
  · rename_i c1 hleafed
    rw [hleafed] at hleaf
    have htake := c1.takePlaced_kvSide w (c1.placement i) (c.prof (c.dir i).profile).rawClass
    split at h
    · cases h
    · split at h
      · cases h
      · rename_i l c2 htaken
        rw [htaken] at htake
        cases h
        exact (hleaf.trans htake).trans ((c2.setPage_kvSide _ _).trans (setShares_kvSide _ _))

theorem reserveNew_kvSide {step : Nat} {es : List Nat} {c c' : Chan} {acc new : Tbl Nat}
    (h : Chan.reserveNew w i step es c acc = .ok (new, c')) : KvSide c c' := by
  induction es generalizing c acc with
  | nil =>
    cases h
    exact .refl _
  | cons e r ih =>
    unfold Chan.reserveNew at h
    split at h
    · cases h
    · rename_i hpage
      exact (reservePage_kvSide hpage).trans (ih h)

theorem reserveCopy_kvSide {step : Nat} {es : List Nat} {c c' : Chan} {acc copies : Tbl Nat}
    (h : Chan.reserveCopy w i step es c acc = .ok (copies, c')) : KvSide c c' := by
  induction es generalizing c acc with
  | nil =>
    cases h
    exact .refl _
  | cons e r ih =>
    unfold Chan.reserveCopy at h
    dsimp only at h
    split at h
    case h_1 => exact ih h
    case h_2 d hd =>
      split at h
      · split at h
        · cases h
        · rename_i hpage
          exact (reservePage_kvSide hpage).trans (ih h)
      · split at h
        · exact ih h
        · have htake := c.takePlaced_kvSide w (c.placement i) (c.prof (c.dir i).profile).rawClass
          split at h
          · cases h
          · rename_i l c1 htaken
            rw [htaken] at htake
            exact htake.trans ((c1.modPage_kvSide d _).trans (ih h))

theorem reserve_kvSide {ls : List Nat} {len t step : Nat} {c c' : Chan} {new copies : Tbl Nat}
    (h : c.reserve w i ls len t step = .ok (new, copies, c')) : KvSide c c' := by
  unfold Chan.reserve at h
  dsimp only at h
  split at h
  · cases h
  · rename_i c1 hnew
    split at h
    · cases h
    · rename_i hcopy
      cases h
      exact (reserveNew_kvSide hnew).trans (reserveCopy_kvSide hcopy)

end

/-! ### The BULK queue (R184, R186) -/

/-- Two channels alike but for their units, and what the tiles hold. -/
def TileSide (c d : Chan) : Prop :=
  d = { c with bulk := d.bulk, nextUnit := d.nextUnit, claim := d.claim, bulkShare := d.bulkShare, t0 := d.t0, nextT0 := d.nextT0 }

theorem TileSide.refl (c : Chan) : TileSide c c := rfl

theorem TileSide.trans {c d e : Chan} (h : TileSide c d) (g : TileSide d e) : TileSide c e := by
  unfold TileSide at *
  rw [g, h]

theorem TileSide.dirs {c d : Chan} (h : TileSide c d) : d.dirs = c.dirs := by rw [h]

theorem Chan.modUnit_tileSide (c : Chan) (id : Nat) (f : BulkUnit → BulkUnit) : TileSide c (c.modUnit id f) := rfl
theorem Chan.useTiles_tileSide (c : Chan) (ts : List Nat) : TileSide c (c.useTiles ts) := rfl

theorem Chan.preempt_tileSide (c : Chan) (u : BulkUnit) : TileSide c (c.preempt u) := by
  unfold Chan.preempt
  split
  · exact c.modUnit_tileSide _ _
  · exact .refl c

theorem Chan.startUnits_tileSide (l : List Nat) (c : Chan) : TileSide c (Chan.startUnits l c) := by
  induction l generalizing c with
  | nil => exact .refl c
  | cons id r ih =>
    unfold Chan.startUnits
    split
    · exact ih c
    · split
      · exact ih c
      · split
        · exact .refl c
        · refine .trans ?_ (ih _)
          split
          · exact (c.modUnit_tileSide _ _).trans (Chan.useTiles_tileSide _ _)
          · exact c.modUnit_tileSide _ _

theorem Chan.dispatch_tileSide (c : Chan) (minTiles : Nat) : TileSide c (c.dispatch minTiles) := by
  unfold Chan.dispatch
  extract_lets d shared out claimed
  have hclaimed : TileSide shared claimed := by
    unfold claimed
    split
    · exact List.foldlRecOn out Chan.preempt (.refl shared) fun c hc u _ => hc.trans (c.preempt_tileSide u)
    · exact .refl shared
  have hshared : TileSide c shared := rfl
  exact (hshared.trans hclaimed).trans (Chan.startUnits_tileSide _ _)

theorem Chan.pushUnit_tileSide (c : Chan) (width : Nat) (dl : Option Nat) (now minTiles : Nat) (work : BulkWork) :
    TileSide c (c.pushUnit width dl now minTiles work) := by
  unfold Chan.pushUnit
  extract_lets u queued
  have hqueued : TileSide c queued := rfl
  split
  · exact hqueued.trans (queued.dispatch_tileSide minTiles)
  · exact hqueued

theorem openChunk_dirs (c : Chan) (a : AppendArgs) : (openChunk c a).dirs = c.dirs := rfl

/-! ### The commands -/

/-- An append or a prefill: its checks, then the table of R50. -/
def runAppend (cmd : Instr) (d : Hdr) (a : AppendArgs) (pre : Bool) (op ch fn : Nat) (s : State) : State :=
  match appendCheck (s.chan ch) fn a pre s with
  | some st => complete d op st [] [] s
  | none => sessAppend cmd d a pre op ch fn s

section
variable {d : Hdr} {fn ch op : Nat} {s : State} {a : AppendArgs} {pre : Bool} {cmd : Instr}

theorem exec_append (g : OnSession (if pre then 0x21 else 0x20) d a.handle fn ch s) :
    exec (if pre then .opAttnPrefill d a else .opKvAppend d a) s =
      .next (runAppend (if pre then .opAttnPrefill d a else .opKvAppend d a) d a pre (if pre then 0x21 else 0x20) ch fn s) := by
  cases pre
  case false =>
    change execOpKvAppend d a s = _
    rw [execOpKvAppend, onSession_next (op := 0x20) g]
    rfl
  case true =>
    change execOpAttnPrefill d a s = _
    rw [execOpAttnPrefill, onSession_next (op := 0x21) g]
    rfl

theorem runAppend_refused {st : Status} (h : appendCheck (s.chan ch) fn a pre s = some st) :
    runAppend cmd d a pre op ch fn s = complete d op st [] [] s := by
  rw [runAppend, h]

theorem runAppend_passed (h : appendCheck (s.chan ch) fn a pre s = none) :
    runAppend cmd d a pre op ch fn s =
      onVerdict (judgeInput ((s.chan ch).dir a.handle.index)) cmd d op ch a.handle.index fn (appendNow d a pre op ch fn) s := by
  rw [runAppend, h, sessAppend]

theorem appendNow_disordered {st : Status} (h : appendOrder (s.chan ch) a = some st) :
    appendNow d a pre op ch fn s = done d op st [] [] s := by
  unfold appendNow
  dsimp only
  rw [h]

variable (horder : appendOrder (s.chan ch) a = none)
include horder

theorem appendNow_full (hfull : (s.chan ch).bulkFull = true) : appendNow d a pre op ch fn s = done d op .bulkQueueFull [] [] s := by
  unfold appendNow
  dsimp only
  rw [horder]
  exact if_pos hfull

variable (hfull : (s.chan ch).bulkFull = false)
include hfull

theorem appendNow_noPage {st : Status} {f : Chan}
    (h : (s.chan ch).reserve (wmOf ch s) a.handle.index [a.layer] (layerLen (s.chan ch) a.handle.index a.layer) a.tokens
      (s.chan ch).nextStep = .error (st, f)) :
    appendNow d a pre op ch fn s = done d op st [] [] (s.setChan ch f) := by
  unfold appendNow
  dsimp only
  rw [horder]
  exact (if_neg (by rw [hfull]; exact Bool.false_ne_true)).trans (by rw [h])

/-- The channel with the unit of an append on its queue. -/
def queuedAppend (d : Hdr) (a : AppendArgs) (pre : Bool) (ch start : Nat) (new copies : Tbl Nat) (c : Chan) (s : State) : Chan :=
  (openChunk (c.touch a.handle.index none) a).pushUnit (openWidth s.freeIx) (deadlineOf d s) s.now (bulkMinTiles ch s)
    (.append d.ring d.tag a pre start new copies)

omit horder hfull in
theorem queuedAppend_dir (d : Hdr) (a : AppendArgs) (pre : Bool) (ch start : Nat) (new copies : Tbl Nat) (c : Chan) (s : State) (k : Nat) :
    (queuedAppend d a pre ch start new copies c s).dir k = c.dir k :=
  (Chan.dir_congr (Chan.pushUnit_tileSide _ _ _ _ _ _).dirs k).trans
    ((Chan.dir_congr (openChunk_dirs _ a) k).trans ((c.touch_kvSide _ _).dir k))

theorem appendNow_queued (hop : opOf d.ring d.tag s = none) {new copies : Tbl Nat} {c : Chan}
    (h : (s.chan ch).reserve (wmOf ch s) a.handle.index [a.layer] (layerLen (s.chan ch) a.handle.index a.layer) a.tokens
      (s.chan ch).nextStep = .ok (new, copies, c)) :
    appendNow d a pre op ch fn s =
      addOp op d fn ch (appendRanges ((s.chan ch).prof ((s.chan ch).dir a.handle.index).profile) a pre) false (.bulk ch c.nextUnit)
        (s.setChan ch (queuedAppend d a pre ch (layerLen (s.chan ch) a.handle.index a.layer) new copies c s)).advanceFree := by
  unfold appendNow
  dsimp only
  rw [horder]
  refine (if_neg (by rw [hfull]; exact Bool.false_ne_true)).trans ?_
  rw [h]
  dsimp only
  rw [show opOf d.ring d.tag (s.setChan ch _).advanceFree = none from hop]
  rfl

end

/-- Settles O27: both commands of a layer are `runAppend`, and what R50 accepts is one of the cases of `appendNow`. -/
theorem hostLayersAndMerges : Obligations.HostLayersAndMerges := by
  intro d fn ch s hop c
  refine ⟨fun a pre => ?layer, fun a hacc => ?merge⟩
  case layer =>
    intro op cmd i
    refine ⟨fun st g hbad => by rw [exec_append g, runAppend_refused hbad],
      fun hpass => judged_of_exec hop fun g => by rw [exec_append g, runAppend_passed hpass], fun g hpass hact => ?_⟩
    have hexec : exec cmd s = .next (appendNow d a pre op ch fn s) := by
      rw [exec_append g, runAppend_passed hpass, hact, onVerdict_act]
    have hdone {u : State} (hu : opOf d.ring d.tag u = none) (st : Status) : done d op st [] [] u = complete d op st [] [] u :=
      done_of_none hu _ _ _ _
    rw [hexec]
    refine ⟨fun st hbad => by rw [appendNow_disordered hbad, hdone hop], fun horder hfull => by rw [appendNow_full horder hfull, hdone hop],
      fun horder hfull => ⟨fun st f hres => ?_,
        fun new copies c' hres => ⟨_, congrArg _ (appendNow_queued horder hfull hop hres), rfl, ?_, rfl⟩⟩⟩
    · rw [appendNow_noPage horder hfull hres, hdone (u := s.setChan ch f) hop]
    · refine (congrArg (Chan.dir · i) (State.setChan_chan_same s ch _)).trans ?_
      exact (queuedAppend_dir _ _ _ _ _ _ _ _ _ i).trans ((reserve_kvSide hres).dir i)
  case merge =>
    change (_ → execOpAttnMerge d a s = _) ∧ ∀ st, _ → execOpAttnMerge d a s = _
    rw [execOpAttnMerge, accept_next hacc]
    exact ⟨fun hpass => by rw [hpass], fun st hbad => by rw [hbad]⟩

end Sys2Proof.Machine
end

section
/-! Park and revive (R64 to R67). The settlement of O28. -/

namespace Sys2Proof.Machine

open Sys2Proof

/-- A descriptor that is not outstanding is held as a new operation. -/
theorem hold_new {op fn ch : Nat} {d : Hdr} {k : RunKind} {s : State} (hop : opOf d.ring d.tag s = none) :
    hold op d fn ch k s = addOp op d fn ch [] true k s := by
  simp only [hold, hop]

/-! ### Park (R64, R66) -/

theorem Chan.leaveAsq_pendOf (c : Chan) (i : Nat) : (c.leaveAsq i).pendOf i = c.pendOf i := by
  have hdraft : (c.dropDraft i).pend = c.pend := by
    unfold Chan.dropDraft
    split
    · exact congrArg (·.pend) (c.freeLoc_kvSide _)
    · rfl
  unfold Chan.leaveAsq
  extract_lets e dropped
  split
  · exact congrArg (fun t => (tget i t).getD []) hdraft
  · rfl

theorem parkSwitch_kvSide (i d : Nat) (q : Loc × Nat × Nat) (c : Chan) : KvSide c (parkSwitch i d q c) := by
  unfold parkSwitch
  exact (c.freeOf_kvSide i _).trans (Chan.modPage_kvSide _ _ _)

/-- A session that parks keeps the state it had, and has left the table. -/
theorem parkEnter_dir (i : Nat) (c : Chan) :
    ∃ k, (parkEnter i c).dir i =
      { c.dir i with asqIndex := k, asqValid := false, savedState := (c.dir i).state, state := .parking } := by
  obtain ⟨k, hleave⟩ := (c.touch i none).leaveAsq_dir_same i
  rw [(c.touch_kvSide i none).dir] at hleave
  refine ⟨k, ?_⟩
  unfold parkEnter
  rw [Chan.modDir_dir_same, hleave]

/-- The end of a park, of the session's record: PARKED, its block and map at their runs. -/
theorem parkEnd_dir (i tier : Nat) (runs : List (Loc × Nat × Nat)) (c : Chan) :
    ∃ b r, (parkEnd i tier runs c).dir i = { c.dir i with state := .parked, sblk := b, pmap := r } := by
  unfold parkEnd
  extract_lets pm pages leaves q emptied queued e blocks loc parked
  have hpages : KvSide c pages := foldl_kvSide fun c m => .ite rfl (.refl c)
  have hleaves : KvSide pages leaves := foldl_kvSide fun c l => c.freeOf_kvSide i l.2
  have hemptied : KvSide leaves emptied := foldl_kvSide fun c l => c.freeOf_kvSide i l
  have hqueued : queued.dirs = emptied.dirs := by
    unfold queued
    split <;> rfl
  have hdir : queued.dir i = c.dir i := (Chan.dir_congr hqueued i).trans (((hpages.trans hleaves).trans hemptied).dir i)
  have hparked : parked.dir i = { queued.dir i with state := .parked, sblk := loc 0, pmap := loc 1 } := Chan.setDir_dir_same blocks i _
  rw [hdir] at hparked
  clear_value parked
  exact ⟨loc 0, loc 1, hparked⟩

/-- The channel after a park to T2. -/
def parkedAtT2 (i : Nat) (plan : Tbl (Loc × Nat × Nat)) (runs : List (Loc × Nat × Nat)) (c : Chan) : Chan :=
  parkEnd i 2 runs (plan.foldl (fun c q => match c.pageAt i q.1 with | some d => parkSwitch i d q.2 c | none => c) (parkEnter i c))

theorem parkedAtT2_dir (i : Nat) (plan : Tbl (Loc × Nat × Nat)) (runs : List (Loc × Nat × Nat)) (c : Chan) :
    ((parkedAtT2 i plan runs c).dir i).state = .parked ∧ ((parkedAtT2 i plan runs c).dir i).savedState = (c.dir i).state ∧
      ((parkedAtT2 i plan runs c).dir i).asqValid = false := by
  have hpages (c : Chan) :
      KvSide c (plan.foldl (fun c q => match c.pageAt i q.1 with | some d => parkSwitch i d q.2 c | none => c) c) :=
    foldl_kvSide fun c q => by
      split
      · exact parkSwitch_kvSide i _ _ c
      · exact .refl c
  obtain ⟨k, henter⟩ := parkEnter_dir i c
  obtain ⟨b, r, hend⟩ := parkEnd_dir i 2 runs
    (plan.foldl (fun c q => match c.pageAt i q.1 with | some d => parkSwitch i d q.2 c | none => c) (parkEnter i c))
  rw [(hpages _).dir, henter] at hend
  rw [parkedAtT2, hend]
  exact ⟨rfl, rfl, rfl⟩

section
variable {d : Hdr} {fn ch i : Nat} {s : State} (hopen : tget i (s.chan ch).chunks = none) {c : Chan}
include hopen

theorem parkNow_noSpace (hplan : parkPlan ch i s.freeIx s = (none, c)) :
    parkNow d ch i fn s = done d 0x12 .noSpace [] [] (s.setChan ch c) := by
  unfold parkNow
  exact (if_neg (by rw [hopen]; exact Bool.false_ne_true)).trans (by rw [hplan])

variable {plan : Tbl (Loc × Nat × Nat)} {runs : List (Loc × Nat × Nat)} (hplan : parkPlan ch i s.freeIx s = (some (plan, runs), c))
include hplan

theorem parkNow_t2 (hop : opOf d.ring d.tag s = none) (htier : (c.dir i).parkTier = 2) :
    parkNow d ch i fn s =
      complete d 0x12 .ok [] [] ({ s with freeIx := s.freeIx + 16777216 + 65537 }.setChan ch (parkedAtT2 i plan runs c)) := by
  unfold parkNow
  refine (if_neg (by rw [hopen]; exact Bool.false_ne_true)).trans ?_
  rw [hplan]
  refine (if_pos htier).trans (done_of_none ?_ _ _ _ _)
  exact hop

theorem parkNow_goes (hop : opOf d.ring d.tag s = none) (htier : (c.dir i).parkTier ≠ 2) :
    parkNow d ch i fn s = parkGo noPend ch i (addOp 0x12 d fn ch [] true (.park ch i)
      ({ s with freeIx := s.freeIx + 16777216 + 65537 }.setChan ch { parkEnter i c with
        moves := tset i ⟨plan.map (fun e : Nat × (Loc × Nat × Nat) => e.1), none, 0, plan, runs, 0⟩ (parkEnter i c).moves })) := by
  unfold parkNow
  refine (if_neg (by rw [hopen]; exact Bool.false_ne_true)).trans ?_
  rw [hplan]
  refine (if_neg htier).trans (congrArg (parkGo noPend ch i) (hold_new ?_))
  exact hop

end

/-! ### Revive (R67) -/

/-- The channel when a REVIVE begins. -/
def reviving (i : Nat) (c : Chan) : Chan :=
  let c := (c.touch i none).modDir i (fun e => { e with state := .reviving })
  { c with moves := tset i ⟨[], none, 0, [], [], 0⟩ c.moves }

/-- The state when a REVIVE begins: its operation is outstanding, and the session REVIVING. -/
def reviveBegun (d : Hdr) (ch i fn : Nat) (s : State) : State :=
  (addOp 0x13 d fn ch [] true (.revive ch i) s).modChan ch (reviving i)

section
variable (i : Nat) (c : Chan)

theorem reviving_dir : (reviving i c).dir i = { c.dir i with state := .reviving } := by
  have hmod : (reviving i c).dir i = { (c.touch i none).dir i with state := .reviving } :=
    Chan.modDir_dir_same (c.touch i none) i (fun e => { e with state := .reviving })
  rw [hmod, (c.touch_kvSide i none).dir]

theorem reviving_keeps :
    (reviving i c).state = c.state ∧ (reviving i c).parkRuns = c.parkRuns ∧ (reviving i c).parkedMaps = c.parkedMaps ∧
      (reviving i c).pend = c.pend := by
  have htouch := c.touch_kvSide i none
  unfold reviving
  generalize c.touch i none = t at htouch
  rw [htouch]
  exact ⟨rfl, rfl, rfl, rfl⟩

end

section
variable {d : Hdr} {ch i fn : Nat} {s : State}

theorem reviveBegun_chan : (reviveBegun d ch i fn s).chan ch = reviving i (s.chan ch) := State.modChan_chan_same _ _ _

theorem reviveBegun_state (k : Nat) : ((reviveBegun d ch i fn s).chan k).state = (s.chan k).state := by
  by_cases hk : k = ch
  · subst hk
    rw [reviveBegun_chan, (reviving_keeps i _).1]
  · exact congrArg Chan.state (State.modChan_chan_other _ _ _ _ hk)

theorem reviveBegun_locTarget (l : Loc) : locTarget ch l (reviveBegun d ch i fn s) = locTarget ch l s := rfl

theorem reviveBegun_unitMarked (fid unit : Nat) : unitMarked fid unit (reviveBegun d ch i fn s) = unitMarked fid unit s := rfl

end

/-- A unit cannot be reached: it is marked, or a FAILED channel of this device (R489, R491). -/
def Unreached (fid unit : Nat) (s : State) : Prop :=
  unitMarked fid unit s = true ∨ (fid = s.fid ∧ unit < 8 ∧ (s.chan unit).state = .failed)

section
variable {u fid unit fn : Nat} {k : ReqKind} {op : PktOp} {a : Nat} {p : Payload} {s : State}

theorem sendReq_reached (h : ¬ Unreached fid unit s) : ∃ t, sendReq u fid unit fn k op a p s = .ok t := by
  unfold sendReq
  dsimp only
  rw [if_neg (fun hmarked => h (.inl hmarked)), if_neg (fun hfailed => h (.inr hfailed))]
  split
  · exact ⟨_, rfl⟩
  · exact ⟨_, rfl⟩

theorem sendReq_unreached (h : Unreached fid unit s) : ∃ e, sendReq u fid unit fn k op a p s = .error e := by
  unfold sendReq
  dsimp only
  by_cases hmarked : unitMarked fid unit s = true
  · exact ⟨_, if_pos hmarked⟩
  · rw [if_neg hmarked, if_pos (h.resolve_left hmarked)]
    exact ⟨_, rfl⟩

end

/-- The one outstanding operation completes its descriptor. -/
theorem endOp_eq_complete {op : RunOp} (hop : op.detached = false) (st : Status) (res : List Nat) (s : State) :
    endOp op st res [] s = complete op.hdr op.opcode st res [] (dropOp op s) := by
  have hcomplete : complete op.hdr op.opcode st res [] (dropOp op s) =
      settle (postCompletion op.hdr op.opcode st res [] (dropOp op s)).ops.length
        (postCompletion op.hdr op.opcode st res [] (dropOp op s)) := if_neg (by simp)
  have hfinish : finishOp op st res [] s = postCompletion op.hdr op.opcode st res [] (dropOp op s) := by simp [finishOp, hop]
  rw [endOp_eq_settle, hcomplete, hfinish]

/-- With nothing pending the end of a state of a session runs nothing. -/
theorem hooks_pend_idle {ch i : Nat} {s : State} (h : (s.chan ch).pendOf i = []) : hooks.pend ch i s = s := by
  change runPending 4 i ch s = s
  rw [runPending, h]
  rfl

/-- The operation of a REVIVE. -/
def reviveRun (d : Hdr) (ch i fn : Nat) (s : State) : RunOp := ⟨d, fn, 0x13, ch, true, false, s.now, [], .revive ch i⟩

section
variable {d : Hdr} {ch i fn : Nat} {s t : State}

theorem reviveOp_alone (hops : t.ops = [reviveRun d ch i fn s]) : reviveOp ch i t = some (reviveRun d ch i fn s) := by
  rw [reviveOp, hops]
  simp [reviveRun]

/-- A REVIVE that ends alone leaves nothing outstanding. -/
theorem endRevive_alone (hops : t.ops = [reviveRun d ch i fn s]) (hpend : (t.chan ch).pendOf i = []) (st : Status) (res : List Nat) :
    hooks.pend ch i (endOp (reviveRun d ch i fn s) st res [] t) = complete d 0x13 st res [] (dropOp (reviveRun d ch i fn s) t) ∧
      (dropOp (reviveRun d ch i fn s) t).ops = [] := by
  have hchan := (endOp_host (reviveRun d ch i fn s) st res [] t).chan ch
  refine ⟨(hooks_pend_idle (by rw [hchan, hpend])).trans (endOp_eq_complete rfl st res t), ?_⟩
  rw [dropOp, hops]
  simp

/-- A revive of a session that does not stream stops, and its REVIVE completes with the place of the map's first entry. -/
theorem reviveStop_alone (hops : t.ops = [reviveRun d ch i fn s]) (hpend : (t.chan ch).pendOf i = [])
    (hstream : ((t.chan ch).dir i).streaming = false) (st : Status) :
    ∃ u, reviveStop hooks ch i 0 st t = complete d 0x13 st [0] [] u ∧ ((u.chan ch).dir i).state = .parked ∧ u.ops = [] := by
  unfold reviveStop
  extract_lets c dr x pm t1 c1 dr1 saved left cut ended t2
  have ht1 : t1 = t := if_neg (by rw [hstream]; exact Bool.false_ne_true)
  have hchan : t2.chan ch = ended := State.setChan_chan_same _ _ _
  have hstate : (ended.dir i).state = .parked := congrArg Dir.state (Chan.modDir_dir_same cut i _)
  have hidle : ended.pendOf i = [] := by
    have hleft : ended.pendOf i = c1.pendOf i := Chan.leaveAsq_pendOf c1 i
    rw [hleft, show c1 = t.chan ch from congrArg (State.chan · ch) ht1, hpend]
  have hops2 : t2.ops = [reviveRun d ch i fn s] := (congrArg State.ops ht1).trans hops
  have hplace : x.layerOf 0 + x.headOf 0 * 65536 + x.rowOf 0 * 4294967296 = 0 := by
    simp [Profile.layerOf, Profile.headOf, Profile.rowOf]
  clear_value ended t2 x
  obtain ⟨hend, hnone⟩ := endRevive_alone hops2 (by rw [hchan, hidle]) st [0]
  refine ⟨dropOp (reviveRun d ch i fn s) t2, ?_, ?_, hnone⟩
  · rw [reviveOp_alone hops2, hplace]
    exact hend
  · exact (congrArg (fun c => (c.dir i).state) hchan).trans hstate

/-- A revive with no page left to move ends, and its REVIVE completes. -/
theorem reviveEnd_alone (hops : t.ops = [reviveRun d ch i fn s]) :
    ∃ u, reviveEnd ch i t = complete d 0x13 .ok [] [] u ∧ ((u.chan ch).dir i).state = ((t.chan ch).dir i).state ∧
      ((u.chan ch).dir i).streaming = false ∧ u.ops = [] := by
  unfold reviveEnd
  extract_lets c cleared ended
  have hchan : ended.chan ch = cleared.modDir i (fun e => { e with streaming := false }) := State.setChan_chan_same _ _ _
  have hdir : (ended.chan ch).dir i = { (t.chan ch).dir i with streaming := false } := by
    rw [hchan, Chan.modDir_dir_same]
    rfl
  have hops2 : ended.ops = [reviveRun d ch i fn s] := hops
  clear_value ended
  refine ⟨dropOp (reviveRun d ch i fn s) ended, ?_, ?_⟩
  · rw [reviveOp_alone hops2]
    exact endOp_eq_complete rfl .ok [] ended
  · rw [show (dropOp (reviveRun d ch i fn s) ended).chan ch = ended.chan ch from rfl, hdir]
    refine ⟨rfl, rfl, ?_⟩
    rw [dropOp, hops2]
    simp

end

/-! The stages of a REVIVE: the block, the map, the pages. -/

/-- A REVIVE once it has begun. -/
def reviveFrom (k : Hooks) (ch i : Nat) (s : State) : State :=
  let c := s.chan ch
  let e := c.dir i
  if (tget i c.parkRuns).isSome ∧ 3 ≤ e.sblk.tier then
    reviveRead k ch i 0 0 ((((tget i c.parkRuns).getD []).head?.map (fun r => parkedBytes 3 e.stackMode r.2)).getD 0) e.sblk s
  else match badParkRun c i with
    | some l => reviveStop k ch i 0 .reviveFailed (memPoison ch 2 (l.granule * 16384) 1 s)
    | none => reviveMapped k ch i s

section
variable {k : Hooks} {d : Hdr} {ch i fn : Nat} {s : State}

theorem reviveNow_begun (hop : opOf d.ring d.tag s = none) :
    reviveNow k d ch i fn s = reviveFrom k ch i (reviveBegun d ch i fn s) := by
  unfold reviveNow
  rw [hold_new hop]
  rfl

theorem reviveFrom_stored (hruns : (tget i (s.chan ch).parkRuns).isSome = true) (htier : 3 ≤ ((s.chan ch).dir i).sblk.tier) :
    ∃ len, reviveFrom k ch i s = reviveRead k ch i 0 0 len ((s.chan ch).dir i).sblk s := ⟨_, if_pos ⟨hruns, htier⟩⟩

theorem reviveFrom_mapped (hruns : tget i (s.chan ch).parkRuns = none) : reviveFrom k ch i s = reviveMapped k ch i s := by
  have hbad : badParkRun (s.chan ch) i = none := by simp [badParkRun, hruns]
  refine (if_neg (fun h => ?_)).trans (by rw [hbad])
  rw [hruns] at h
  exact Bool.false_ne_true h.1

variable {e stage len : Nat} {l : Loc}

theorem reviveRead_reached (h : ¬ Unreached (locTarget ch l s).1 (locTarget ch l s).2.1 s) : ReqSide s (reviveRead k ch i e stage len l s) := by
  unfold reviveRead
  generalize locTarget ch l s = at_ at h ⊢
  obtain ⟨fid, unit, addr⟩ := at_
  obtain ⟨t, ht⟩ := sendReq_reached (u := ch) (fn := 0) (k := .revive ch i stage) (op := .readReqBulk) (a := addr) (p := .ask len) h
  dsimp only at ht ⊢
  rw [ht]
  exact sendReq_req ht

theorem reviveRead_unreached (h : Unreached (locTarget ch l s).1 (locTarget ch l s).2.1 s) :
    reviveRead k ch i e stage len l s = reviveStop k ch i e .reviveFailed s := by
  unfold reviveRead
  generalize locTarget ch l s = at_ at h ⊢
  obtain ⟨fid, unit, addr⟩ := at_
  obtain ⟨x, hx⟩ := sendReq_unreached (u := ch) (fn := 0) (k := .revive ch i stage) (op := .readReqBulk) (a := addr) (p := .ask len) h
  dsimp only at hx ⊢
  rw [hx]

/-- Without a block to read or a parked map, the map of the session is resident, and no page is left to move. -/
theorem reviveMapped_empty (hruns : tget i (s.chan ch).parkRuns = none) (hmaps : tget i (s.chan ch).parkedMaps = none) :
    ∃ c, reviveMapped k ch i s = revivePages k ch i 2 (s.setChan ch c) ∧ tget i c.moves = some ⟨[], none, 0, [], [], 3⟩ ∧
      c.dir i = (s.chan ch).dir i ∧ c.pend = (s.chan ch).pend := by
  have hparked : (s.chan ch).parkedMap i = [] := by rw [Chan.parkedMap, hmaps, Option.getD_none]
  have hkept : (reviveKept i (s.chan ch)).parkedMap i = [] := by
    have h : (reviveKept i (s.chan ch)).parkedMap i = ((s.chan ch).parkedMap i).filter (fun q => q.2.valid && !q.2.kept) :=
      congrArg (Option.getD · []) (tget_tset_same _ _ _)
    rw [h, hparked, List.filter_nil]
  have horder (x : Profile) : reviveOrder x ((reviveKept i (s.chan ch)).parkedMap i) = [] := by
    rw [hkept]
    simp [reviveOrder]
  refine ⟨{ reviveKept i (s.chan ch) with moves := tset i ⟨[], none, 0, [], [], 3⟩ (reviveKept i (s.chan ch)).moves }, ?_,
    tget_tset_same _ _ _, rfl, rfl⟩
  unfold reviveMapped
  extract_lets c load
  have hload : load = (some c, c) := if_neg (by rw [show tget i c.parkRuns = none from hruns]; exact Bool.false_ne_true)
  rw [hload]
  dsimp only
  rw [horder]
  rfl

section
variable {n : Nat} {m : Move} (hmoves : tget i (s.chan ch).moves = some m) (htodo : m.todo = [])
include hmoves htodo

/-- Where no page of layer 0 is left, layer 0 is resident. -/
theorem revivePages_layer0 (hstage : m.stage = 3) :
    revivePages k ch i (n + 1) s = revivePages k ch i n (k.pend ch i (layer0Resident ch i
      (s.modChan ch (fun c => { c with moves := tset i { m with stage := 4 } c.moves })))) := by
  rw [revivePages, hmoves]
  dsimp only
  rw [htodo, hstage]
  refine if_pos ?_
  rfl

theorem revivePages_done (hstage : m.stage ≠ 3) : revivePages k ch i (n + 1) s = reviveEnd ch i s := by
  rw [revivePages, hmoves]
  dsimp only
  rw [htodo]
  exact if_neg (by simp [hstage])

end

theorem layer0Resident_eq (h : ((s.chan ch).dir i).savedState ≠ .runnable) :
    layer0Resident ch i s =
      s.setChan ch ((s.chan ch).setDir i { (s.chan ch).dir i with state := ((s.chan ch).dir i).savedState, streaming := true }) := by
  unfold layer0Resident
  dsimp only
  rw [if_neg h]

/-- With no page to move, the session takes its saved state, and then the revive ends. -/
theorem revivePages_empty (hmoves : tget i (s.chan ch).moves = some ⟨[], none, 0, [], [], 3⟩)
    (hsaved : ((s.chan ch).dir i).savedState ≠ .runnable) (hpend : (s.chan ch).pendOf i = []) :
    ∃ t, revivePages hooks ch i 2 s = reviveEnd ch i t ∧ t.ops = s.ops ∧
      ((t.chan ch).dir i).state = ((s.chan ch).dir i).savedState := by
  let c : Chan := { s.chan ch with moves := tset i ⟨[], none, 0, [], [], 4⟩ (s.chan ch).moves }
  let r : Chan := c.setDir i { c.dir i with state := (c.dir i).savedState, streaming := true }
  have hlayer0 : layer0Resident ch i (s.modChan ch (fun c => { c with moves := tset i ⟨[], none, 0, [], [], 4⟩ c.moves })) =
      (s.setChan ch c).setChan ch r := by
    have hc : (s.setChan ch c).chan ch = c := State.setChan_chan_same _ _ _
    change layer0Resident ch i (s.setChan ch c) = _
    rw [layer0Resident_eq (by rw [hc]; exact hsaved), hc]
  have hr : ((s.setChan ch c).setChan ch r).chan ch = r := State.setChan_chan_same _ _ _
  refine ⟨(s.setChan ch c).setChan ch r, ?_, rfl, ?_⟩
  · rw [revivePages_layer0 hmoves rfl rfl, hlayer0, hooks_pend_idle (by rw [hr]; exact hpend)]
    exact revivePages_done (by rw [hr]; exact tget_tset_same _ _ _) rfl (by decide)
  · rw [hr, Chan.setDir_dir_same]
    rfl

end

section
variable {d : Hdr} {h : Handle} {fn ch : Nat} {s : State}

theorem exec_opSessionPark (g : OnSession 0x12 d h fn ch s) :
    exec (.opSessionPark d h) s = .next (onVerdict (judgePark ((s.chan ch).dir h.index)) (.opSessionPark d h) d 0x12 ch h.index fn
      (parkNow d ch h.index fn) s) := by
  change execOpSessionPark d h s = _
  rw [execOpSessionPark, onSession_next g, sessPark]

theorem exec_opSessionRevive (g : OnSession 0x13 d h fn ch s) :
    exec (.opSessionRevive d h) s = .next (onVerdict (judgeRevive ((s.chan ch).dir h.index)) (.opSessionRevive d h) d 0x13 ch h.index fn
      (reviveNow hooks d ch h.index fn) s) := by
  change execOpSessionRevive d h s = _
  rw [execOpSessionRevive, onSession_next g, sessRevive]

end

/-- Settles O28: a park acts on the channel that its plan leaves, and a revive on the state in which it has begun, where its
operation stands behind those that were outstanding. -/
theorem sessionsParkAndRevive : Obligations.SessionsParkAndRevive := by
  intro d h fn ch s hop c i
  have hdone {u : State} (hu : u.ops = s.ops) (st : Status) : done d 0x12 st [] [] u = complete d 0x12 st [] [] u :=
    done_of_none ((opOf_congr hu _ _).trans hop) _ _ _ _
  refine ⟨judged_of_exec hop exec_opSessionPark, judged_of_exec hop exec_opSessionRevive, fun g hact => ?park, fun g hparked => ?revive⟩
  case park =>
    rw [exec_opSessionPark g, hact, onVerdict_act]
    refine ⟨fun hopen => congrArg _ ((if_pos hopen).trans (hdone rfl _)), fun hopen c' => ⟨fun hplan => ?_, fun plan runs hplan => ?_⟩⟩
    · rw [parkNow_noSpace hopen hplan, hdone (u := s.setChan ch c') rfl]
    · refine ⟨fun htier => ?_, fun htier => ⟨congrArg _ (parkNow_goes hopen hplan hop htier), ?_⟩⟩
      · refine ⟨{ s with freeIx := s.freeIx + 16777216 + 65537 }.setChan ch (parkedAtT2 i plan runs c'), ?_, ?_⟩
        · rw [parkNow_t2 hopen hplan hop htier]
        · rw [State.setChan_chan_same]
          exact parkedAtT2_dir i plan runs c'
      · obtain ⟨k, henter⟩ := parkEnter_dir i c'
        rw [henter]
  case revive =>
    have hact : judgeRevive (c.dir i) = .act := by rw [judgeRevive, hparked]
    rw [exec_opSessionRevive g, hact, onVerdict_act, reviveNow_begun hop]
    obtain ⟨-, hparkRuns, hparkedMaps, hpendKept⟩ := reviving_keeps i c
    have hdir : ((reviveBegun d ch i fn s).chan ch).dir i = { c.dir i with state := .reviving } :=
      (congrArg (Chan.dir · i) reviveBegun_chan).trans (reviving_dir i c)
    have hpend (hidle : c.pendOf i = []) : ((reviveBegun d ch i fn s).chan ch).pendOf i = [] := by
      rw [reviveBegun_chan, Chan.pendOf, hpendKept]
      exact hidle
    have hops : (reviveBegun d ch i fn s).ops = s.ops ++ [reviveRun d ch i fn s] := rfl
    have halone (hnone : s.ops = []) : (reviveBegun d ch i fn s).ops = [reviveRun d ch i fn s] := by rw [hops, hnone, List.nil_append]
    refine ⟨fun hruns htier => ?_, fun hsaved hruns hmaps hidle hnone => ?_⟩
    · intro at_ unreached
      have hunreached : Unreached (locTarget ch (c.dir i).sblk (reviveBegun d ch i fn s)).1
          (locTarget ch (c.dir i).sblk (reviveBegun d ch i fn s)).2.1 (reviveBegun d ch i fn s) ↔ unreached := by
        rw [reviveBegun_locTarget, Unreached, reviveBegun_unitMarked, reviveBegun_state]
        rfl
      obtain ⟨len, hread⟩ := reviveFrom_stored (k := hooks) (ch := ch) (i := i) (s := reviveBegun d ch i fn s)
        (by rw [reviveBegun_chan, hparkRuns]; exact hruns) (by rw [hdir]; exact htier)
      have hsblk : (((reviveBegun d ch i fn s).chan ch).dir i).sblk = (c.dir i).sblk := by rw [hdir]
      rw [hread, hsblk]
      refine ⟨fun hreach => ?_, fun hfail hnone hidle hstream => ?_⟩
      · have hsent := reviveRead_reached (k := hooks) (i := i) (e := 0) (stage := 0) (len := len) (fun hx => hreach (hunreached.mp hx))
        refine ⟨_, rfl, ?_, ?_⟩
        · rw [hsent.host.chan, hdir]
        · rw [hsent]
          exact hops
      · rw [reviveRead_unreached (hunreached.mpr hfail)]
        obtain ⟨u, hstop, hstate, hend⟩ := reviveStop_alone (halone hnone) (hpend hidle) (by rw [hdir]; exact hstream) .reviveFailed
        exact ⟨u, congrArg _ hstop, hstate, hend⟩
    · obtain ⟨x, hmapped, hmoves, hxdir, hxpend⟩ := reviveMapped_empty (k := hooks) (i := i) (s := reviveBegun d ch i fn s)
        (by rw [reviveBegun_chan, hparkRuns]; exact hruns) (by rw [reviveBegun_chan, hparkedMaps]; exact hmaps)
      have hchan : ((reviveBegun d ch i fn s).setChan ch x).chan ch = x := State.setChan_chan_same _ _ _
      obtain ⟨t, hpages, htops, htstate⟩ := revivePages_empty (i := i) (s := (reviveBegun d ch i fn s).setChan ch x)
        (by rw [hchan]; exact hmoves) (by rw [hchan, hxdir, hdir]; intro hrun; rw [hrun] at hsaved; simp at hsaved)
        (by rw [hchan, Chan.pendOf, hxpend]; exact hpend hidle)
      obtain ⟨u, hend, hstate, hstream, hops'⟩ := reviveEnd_alone (i := i) (t := t) (htops.trans (halone hnone))
      refine ⟨u, congrArg _ (((reviveFrom_mapped ?_).trans (hmapped.trans hpages)).trans hend), ?_, hstream, hops'⟩
      · rw [reviveBegun_chan, hparkRuns]
        exact hruns
      · rw [hstate, htstate, hchan, hxdir, hdir]

end Sys2Proof.Machine
end

section
/-! The beginning of a warm device reset (R39, R401, R402). The settlement of O20. -/

namespace Sys2Proof.Machine

open Sys2Proof

theorem warmRing_disabled (n : Nat) (r : Ring) : (warmRing n r).state = .disabled := by
  unfold warmRing
  split <;> rfl

/-- Every ring pair is DISABLED, whether the reset changed its record or none was listed. -/
theorem warmParts_ring_disabled (s : State) (n : Nat) : ((warmParts s).ring n).state = .disabled := by
  have hring : (warmParts s).ring n = ((tget n s.rings).map (warmRing n)).getD (ringDefault n) :=
    congrArg (Option.getD · (ringDefault n)) (tget_map warmRing n s.rings)
  rw [hring]
  cases tget n s.rings with
  | none => rfl
  | some r => exact warmRing_disabled n r

/-- F0 keeps its binding and stays enabled. -/
theorem warmParts_fn_zero (s : State) : (warmParts s).fn 0 = warmF0 (s.fn 0) := State.setFn_fn_same _ _ _

/-- The locks of F0 and of the port complex are gone. -/
theorem warmParts_zero_not_locked (s : State) : 0 ∉ (warmParts s).locks := by
  have hlocks : (warmParts s).locks = s.locks.filter (fun k => k != 0 && k != 16) := rfl
  rw [hlocks, List.mem_filter]
  simp

/-- A warm reset asked for while one runs joins it (R402). -/
theorem warmReset_joins {s : State} (hbusy : s.mgmt.resetBusy = true) : warmReset s = s := if_pos hbusy

/-- A warm reset that begins resets each channel, or goes on with the reset of it that is under way. -/
theorem warmReset_begins {s : State} (hfree : s.mgmt.resetBusy = false) :
    warmReset s = (List.range 8).foldl (fun s n =>
        if (s.chan n).resetting then s.modChan n (fun c => { c with epoch := (c.epoch + 1) % 64 }) else beginChanReset n s)
      { warmParts s with mgmt := { s.mgmt with resetBusy := true } } :=
  if_neg (by rw [hfree]; exact Bool.false_ne_true)

theorem exec_warmDeviceReset {d : Hdr} {fn target : Nat} {s : State} (hacc : Accepts 0x60 d fn target s) :
    exec (.warmDeviceReset (.desc d)) s = .next (if fn ≠ 0 then complete d 0x60 .notPermitted [] [] s else warmReset s) := by
  change execWarmDeviceReset (.desc d) s = _
  rw [execWarmDeviceReset, accept_next hacc]

/-- Settles O20: what the reset does besides the channels is read off `warmParts`, part by part. -/
theorem warmResetBegins : Obligations.WarmResetBegins := by
  intro d fn target s hacc
  rw [exec_warmDeviceReset hacc]
  refine ⟨fun hfn => congrArg _ (if_pos hfn), fun hfn hfree => ⟨?begins, warmParts_ring_disabled s, rfl, rfl, rfl,
    warmParts_zero_not_locked s, rfl, ?adapter, ?enable⟩, fun hfn hbusy => ?joins⟩
  case begins => rw [if_neg (not_not.mpr hfn), warmReset_begins hfree]
  case adapter => rw [warmParts_fn_zero, warmF0]
  case enable => rw [warmParts_fn_zero, warmF0]
  case joins => rw [if_neg (not_not.mpr hfn), warmReset_joins hbusy]

end Sys2Proof.Machine
end

section
/-! Page moves, fetches, encodings and scrubs (R84, R93 to R95, R97, R98, R281, R468). The settlement of O36. -/

namespace Sys2Proof.Machine

open Sys2Proof

/-! ### The pages of a channel -/

@[simp] theorem Chan.setPage_page_same (c : Chan) (d : Nat) (p : Page) : (c.setPage d p).page d = p := by simp [Chan.setPage, Chan.page]

theorem Chan.setPage_page_other (c : Chan) {d e : Nat} (p : Page) (h : e ≠ d) : (c.setPage d p).page e = c.page e := by
  simp [Chan.setPage, Chan.page, tget_tset_other _ _ _ _ h]

@[simp] theorem Chan.modPage_page_same (c : Chan) (d : Nat) (f : Page → Page) : (c.modPage d f).page d = f (c.page d) :=
  c.setPage_page_same d _

theorem Chan.modPage_page_other (c : Chan) {d e : Nat} (f : Page → Page) (h : e ≠ d) : (c.modPage d f).page e = c.page e :=
  c.setPage_page_other _ h

/-! ### Runs and condenser work -/

/-- Two channels differ at most in their allocators, the poisoned granules, the runs that wait for a step's end and the condenser's work. -/
def RunSide (c d : Chan) : Prop :=
  d = { c with t1 := d.t1, t2 := d.t2, t3 := d.t3, t4 := d.t4, bad := d.bad, deferred := d.deferred, cond := d.cond }

theorem RunSide.refl (c : Chan) : RunSide c c := rfl

theorem RunSide.trans {c d e : Chan} (h : RunSide c d) (g : RunSide d e) : RunSide c e := by
  unfold RunSide at *
  rw [g, h]

theorem RunSide.page {c d : Chan} (h : RunSide c d) (e : Nat) : d.page e = c.page e := by rw [h]; rfl

theorem RunSide.pages {c d : Chan} (h : RunSide c d) : d.pages = c.pages := by rw [h]

theorem RunSide.beingWritten {c d : Chan} (h : RunSide c d) (e : Nat) : d.beingWritten e = c.beingWritten e := by rw [h]; rfl

theorem RunSide.toEncode {c d : Chan} (h : RunSide c d) (x : Profile) (e : Nat) : d.toEncode x e = c.toEncode x e := by rw [h]; rfl

theorem RunSide.pageProf {c d : Chan} (h : RunSide c d) (e : Nat) : d.pageProf e = c.pageProf e := by rw [h]; rfl

theorem setCond_runSide (c : Chan) (l : List CondJob) : RunSide c { c with cond := l } := rfl

theorem setBad_runSide (c : Chan) (l : List Loc) : RunSide c { c with bad := l } := rfl

theorem Chan.setTier_runSide (c : Chan) (t : Nat) (a : Alloc) : RunSide c (c.setTier t a) := by
  unfold Chan.setTier
  (repeat' split) <;> rfl

theorem Chan.freeLoc_runSide (c : Chan) (l : Loc) : RunSide c (c.freeLoc l) := by
  unfold Chan.freeLoc
  dsimp only
  split
  · split <;> rfl
  · split
    · rfl
    · exact (setBad_runSide c _).trans (Chan.setTier_runSide _ _ _)

theorem Chan.freeRunOf_runSide (c : Chan) (d : Nat) (l : Loc) (k : Nat) : RunSide c (c.freeRunOf d l k) := by
  unfold Chan.freeRunOf
  split
  · rfl
  · exact c.freeLoc_runSide l

theorem Chan.takeT2_runSide (c : Chan) (w : Wm) (pinned : Bool) (k : Nat) : RunSide c (c.takeT2 w pinned k).2 := by
  unfold Chan.takeT2
  split <;> rfl

theorem Chan.withRegions_runSide (c : Chan) (n : Nat) (s : State) : RunSide c (c.withRegions n s) := rfl

theorem Chan.admitJobs_cond (c : Chan) : ∃ l, c.admitJobs = { c with cond := l } := by
  have hstart (c : Chan) (w : CondWork) : ∃ l, c.startJob w = { c with cond := l } := ⟨_, rfl⟩
  refine List.foldlRecOn (motive := fun d : Chan => ∃ l, d = { c with cond := l }) _ _ ⟨_, rfl⟩ fun d hd j _ => ?_
  obtain ⟨l, rfl⟩ := hd
  split
  · obtain ⟨m, hm⟩ := hstart { c with cond := l } j.work
    exact ⟨m, hm⟩
  · exact ⟨l, rfl⟩

theorem Chan.admitJobs_runSide (c : Chan) : RunSide c c.admitJobs := by
  obtain ⟨l, h⟩ := c.admitJobs_cond
  rw [h]
  rfl

theorem Chan.pushJob_runSide (c : Chan) (w : CondWork) (blocks deadline : Nat) : RunSide c (c.pushJob w blocks deadline) := by
  unfold Chan.pushJob
  split
  · rfl
  · exact (setCond_runSide c _).trans (Chan.admitJobs_runSide _)

theorem Chan.endJob_cond (c : Chan) (w : CondWork) : ∃ l, c.endJob w = { c with cond := l } := by
  obtain ⟨l, h⟩ := Chan.admitJobs_cond { c with cond := c.cond.filter (fun j => j.work != w) }
  exact ⟨l, h⟩

/-! ### The choice of a page to demote (R93) -/

/-- The least of the candidates seen so far: the fold of `Chan.demoteNext`. -/
def leastStep (b : Option (Nat × Nat)) (p : Nat × Page) : Option (Nat × Nat) :=
  match b with
  | none => some (p.1, p.2.lastStep)
  | some q => if p.2.lastStep < q.2 then some (p.1, p.2.lastStep) else some q

/-- `q` names a page of the list whose last_step is least in it. -/
def IsLeast (l : List (Nat × Page)) (q : Nat × Nat) : Prop :=
  (∃ p, (q.1, p) ∈ l ∧ p.lastStep = q.2) ∧ ∀ r ∈ l, q.2 ≤ r.2.lastStep

theorem leastStep_isLeast {l : List (Nat × Page)} {b : Option (Nat × Nat)} (hb : ∀ q, b = some q → IsLeast l q) (hnone : b = none → l = [])
    (p : Nat × Page) : ∃ q, leastStep b p = some q ∧ IsLeast (l ++ [p]) q := by
  cases b with
  | none =>
    refine ⟨_, rfl, ⟨p.2, ?_, rfl⟩, fun r hr => ?_⟩
    · simp
    · rw [hnone rfl, List.nil_append, List.mem_singleton] at hr
      rw [hr]
  | some q =>
    obtain ⟨⟨x, hx, hstep⟩, hleast⟩ := hb q rfl
    by_cases hlt : p.2.lastStep < q.2
    · refine ⟨_, if_pos hlt, ⟨p.2, by simp, rfl⟩, fun r hr => ?_⟩
      obtain hr | hr := List.mem_append.mp hr
      · exact hlt.le.trans (hleast r hr)
      · rw [List.mem_singleton.mp hr]
    · refine ⟨_, if_neg hlt, ⟨x, List.mem_append_left _ hx, hstep⟩, fun r hr => ?_⟩
      obtain hr | hr := List.mem_append.mp hr
      · exact hleast r hr
      · rw [List.mem_singleton.mp hr]
        exact not_lt.mp hlt

theorem foldl_leastStep (m : List (Nat × Page)) {l : List (Nat × Page)} {b : Option (Nat × Nat)} (hb : ∀ q, b = some q → IsLeast l q)
    (hnone : b = none → l = []) {q : Nat × Nat} (h : m.foldl leastStep b = some q) : IsLeast (l ++ m) q := by
  induction m generalizing l b with
  | nil =>
    rw [List.append_nil]
    exact hb q h
  | cons p m ih =>
    obtain ⟨r, hr, hleast⟩ := leastStep_isLeast hb hnone p
    rw [List.append_cons]
    refine ih (fun x hx => ?_) (fun hx => ?_) h
    · rw [hr, Option.some.injEq] at hx
      exact hx ▸ hleast
    · rw [hr] at hx
      exact absurd hx (Option.some_ne_none _)

theorem Chan.demoteNext_least {c : Chan} {tier ix e : Nat} {spill : Bool} (h : c.demoteNext tier ix spill = some e) :
    ∃ q, (e, q) ∈ c.pages ∧ c.eligible tier ix spill e q = true ∧
      ∀ r ∈ c.pages, c.eligible tier ix spill r.1 r.2 = true → q.lastStep ≤ r.2.lastStep := by
  obtain ⟨⟨f, n⟩, hfold, rfl⟩ := Option.map_eq_some_iff.mp h
  obtain ⟨⟨q, hq, rfl⟩, hleast⟩ := foldl_leastStep _ (l := []) (by simp) (fun _ => rfl) hfold
  rw [List.nil_append] at hq hleast
  obtain ⟨hmem, helig⟩ := List.mem_filter.mp hq
  exact ⟨q, hmem, helig, fun r hr hre => hleast r (List.mem_filter.mpr ⟨hr, hre⟩)⟩

/-! ### Demotion (R93 to R95) -/

/-- A page as its copy to a run of T2 begins: MOVING, with the run as its destination. -/
def MovesToT2 (p q : Page) : Prop := ∃ m, q = { p with residency := .moving, dest := some (⟨2, m⟩, p.sizeClass) }

/-- The channel with the copy of page `d` to run `g` of T2 begun, the allocator then being `a`. -/
def beginMove (d g : Nat) (a : Alloc) (dl : Nat) (c : Chan) : Chan :=
  (({ c with t2 := a } : Chan).modPage d (fun p => { p with residency := .moving, dest := some (⟨2, g⟩, p.sizeClass) })).pushJob (.move d)
    (rawBlocks (c.page d).len) dl

theorem beginMove_page_same (d g : Nat) (a : Alloc) (dl : Nat) (c : Chan) : MovesToT2 (c.page d) ((beginMove d g a dl c).page d) := by
  refine ⟨g, (Chan.pushJob_runSide _ _ _ _).page d |>.trans ?_⟩
  exact Chan.modPage_page_same _ _ _

theorem beginMove_page_other (d g : Nat) (a : Alloc) (dl : Nat) (c : Chan) {e : Nat} (h : e ≠ d) :
    (beginMove d g a dl c).page e = c.page e :=
  ((Chan.pushJob_runSide _ _ _ _).page e).trans (Chan.modPage_page_other _ _ h)

/-- A page that moves stays so while another, or its own, copy begins. -/
theorem MovesToT2.beginMove {p : Page} {c : Chan} {e : Nat} (h : MovesToT2 p (c.page e)) (d g : Nat) (a : Alloc) (dl : Nat) :
    MovesToT2 p ((beginMove d g a dl c).page e) := by
  by_cases hd : e = d
  · subst hd
    obtain ⟨m, hm⟩ := h
    obtain ⟨k, hk⟩ := beginMove_page_same e g a dl c
    exact ⟨k, by rw [hk, hm]⟩
  · rwa [beginMove_page_other _ _ _ _ _ hd]

/-- The channel once a demotion of a tier goes on, and once that of T1 stops with no page it may take. -/
def markDemoting (tier : Nat) (c : Chan) : Chan := { c with demoting := tier :: c.demoting.erase tier }
def stallDemotion (c : Chan) : Chan := { c with demoting := c.demoting.erase 1, stalled := wrap64 (c.stalled + 1) }

section
variable {ch low n : Nat} {s : State}

/-- One turn of a demotion of T1. -/
theorem demoteRun_t1 : demoteRun ch 1 low (n + 1) s =
    (let g := (s.chan ch).withRegions ch s
     if g.t1.use - g.leaving 1 ≤ low then s.modChan ch (fun c => { c with demoting := c.demoting.erase 1 })
     else if !(g.admitJobs.mayStart (deviceDl ch s)) then s
     else match g.demoteNext 1 s.freeIx false with
       | none => s.modChan ch stallDemotion
       | some d => match g.t2.take (g.page d).sizeClass with
         | (none, a) => s.setChan ch { g with t2 := a }
         | (some m, a) => demoteRun ch 1 low n (s.setChan ch (beginMove d m a (deviceDl ch s) g))) := rfl

section
variable {g : Chan} (hg : (s.chan ch).withRegions ch s = g) (hlow : low < g.t1.use - g.leaving 1)
  (hmay : g.admitJobs.mayStart (deviceDl ch s) = true)
include hg hlow hmay

theorem demoteRun_stalls (hnone : g.demoteNext 1 s.freeIx false = none) :
    demoteRun ch 1 low (n + 1) s = s.modChan ch stallDemotion := by
  rw [demoteRun_t1, hg]
  dsimp only
  rw [if_neg (not_le.mpr hlow), hmay, hnone]
  rfl

theorem demoteRun_begins {d m : Nat} {a : Alloc} (hnext : g.demoteNext 1 s.freeIx false = some d)
    (htake : g.t2.take (g.page d).sizeClass = (some m, a)) :
    demoteRun ch 1 low (n + 1) s = demoteRun ch 1 low n (s.setChan ch (beginMove d m a (deviceDl ch s) g)) := by
  rw [demoteRun_t1, hg]
  dsimp only
  rw [if_neg (not_le.mpr hlow), hmay, hnext]
  dsimp only
  rw [htake]
  rfl

end

/-- A page that moves to T2 does so through the rest of the demotion. -/
theorem demoteRun_movesToT2 {p : Page} {e : Nat} (h : MovesToT2 p ((s.chan ch).page e)) :
    MovesToT2 p (((demoteRun ch 1 low n s).chan ch).page e) := by
  induction n generalizing s with
  | zero => exact h
  | succ n ih =>
    rw [demoteRun_t1]
    dsimp only
    split
    · rwa [State.modChan_chan_same]
    · split
      · exact h
      · split
        · rwa [State.modChan_chan_same]
        · split
          · rwa [State.setChan_chan_same]
          · refine ih ?_
            rw [State.setChan_chan_same]
            refine MovesToT2.beginMove ?_ _ _ _ _
            rwa [(Chan.withRegions_runSide _ _ _).page]

end

/-- Register fields, and the extents that bound T3, are as before when a channel's own pages and counts change. -/
theorem setChan_withRegions {ch : Nat} {c : Chan} {s : State} (h : c.pool = (s.chan ch).pool) (g : Chan) (n : Nat) :
    g.withRegions n (s.setChan ch c) = g.withRegions n s := by
  have hpool (k : Nat) : ((s.setChan ch c).chan k).pool = (s.chan k).pool := by
    by_cases hk : k = ch
    · rw [hk, State.setChan_chan_same, h]
    · rw [State.setChan_chan_other _ _ _ _ hk]
  have hbounds (t : Nat) : regionBounds n t (s.setChan ch c) = regionBounds n t s := by
    unfold regionBounds
    simp only [hpool]
    rfl
  unfold Chan.withRegions
  rw [hbounds, hbounds]

/-- A demotion of a tier goes on: its use is above the high watermark, or it began and has not stopped. -/
def Demotes (ch tier : Nat) (s : State) : Prop :=
  (tier = 1 ∨ (tier = 2 ∧ spillTier ch s ≠ 0)) ∧
    ((if tier = 1 then (wmOf ch s).h1 else (wmOf ch s).h2) < ((s.chan ch).tier tier).use ∨ tier ∈ (s.chan ch).demoting)

section
variable {ch tier : Nat} {s : State}

theorem exec_demote (hup : s.up = true) : exec (.demote ch tier) s = .next (demoteStart ch tier s) := whenUp_next hup

theorem demoteStart_idle (h : ¬Demotes ch tier s) : demoteStart ch tier s = s :=
  if_neg (by rwa [Demotes, ← List.contains_iff_mem] at h)

theorem markDemoting_withRegions :
    ((s.modChan ch (markDemoting tier)).chan ch).withRegions ch (s.modChan ch (markDemoting tier)) =
      (markDemoting tier (s.chan ch)).withRegions ch s := by
  rw [State.modChan_chan_same]
  exact setChan_withRegions (c := markDemoting tier (s.chan ch)) rfl _ _

theorem demoteStart_chan (h : Demotes ch 1 s) :
    ∃ n, ∀ k, (demoteStart ch 1 s).chan k = (demoteRun ch 1 (wmOf ch s).l1 (n + 1) (s.modChan ch (markDemoting 1))).chan k := by
  have hstart : demoteStart ch 1 s =
      { demoteRun ch 1 (wmOf ch s).l1 (((s.modChan ch (markDemoting 1)).chan ch).pages.length + 1) (s.modChan ch (markDemoting 1)) with
        freeIx := s.freeIx + 524288 } := if_pos (by rwa [Demotes, ← List.contains_iff_mem] at h)
  exact ⟨_, fun k => by rw [hstart]; rfl⟩

variable {g : Chan} (hg : (markDemoting 1 (s.chan ch)).withRegions ch s = g) (hgoes : Demotes ch 1 s)
  (hlow : (wmOf ch s).l1 < g.t1.use - g.leaving 1) (hmay : g.admitJobs.mayStart (deviceDl ch s) = true)
include hg hgoes hlow hmay

theorem demoteStart_stalls (hnone : g.demoteNext 1 s.freeIx false = none) :
    (demoteStart ch 1 s).chan ch = stallDemotion (markDemoting 1 (s.chan ch)) := by
  obtain ⟨n, hrun⟩ := demoteStart_chan hgoes
  rw [hrun, demoteRun_stalls (markDemoting_withRegions.trans hg) hlow hmay hnone, State.modChan_chan_same, State.modChan_chan_same]

theorem demoteStart_begins {d m : Nat} {a : Alloc} (hnext : g.demoteNext 1 s.freeIx false = some d)
    (htake : g.t2.take (g.page d).sizeClass = (some m, a)) :
    MovesToT2 ((s.chan ch).page d) (((demoteStart ch 1 s).chan ch).page d) := by
  obtain ⟨n, hrun⟩ := demoteStart_chan hgoes
  rw [hrun, demoteRun_begins (markDemoting_withRegions.trans hg) hlow hmay hnext htake]
  refine demoteRun_movesToT2 ?_
  rw [State.setChan_chan_same]
  have hbegun := beginMove_page_same d m a (deviceDl ch (s.modChan ch (markDemoting 1))) g
  rwa [show g.page d = (s.chan ch).page d by rw [← hg]; rfl] at hbegun

end

/-! ### The end of a move (R95) -/

section
variable {d : Nat} {c : Chan}

theorem moveDone_doomed (h : c.doomed.any (fun e => e.1 == d) = true) : moveDone d c = c := if_pos h

theorem moveDone_idle (h : (c.page d).dest = none ∨ ((c.page d).residency ≠ .moving ∧ (c.page d).residency ≠ .spilling)) :
    moveDone d c = c := by
  unfold moveDone
  dsimp only
  split
  · rfl
  · split
    · rename_i hm hdest
      simp [hm, hdest] at h
    · rename_i hm hdest
      simp [hm, hdest] at h
    · rfl

/-- The page as its copy is written: RESIDENT at its new place, or SPILLED there. -/
def movedPage (l : Loc) (k : Nat) (p : Page) : Page :=
  if p.residency = .moving then { p with loc := l, sizeClass := k, residency := .resident, dest := none }
  else pageOut p l p.destForm.1 p.destForm.2 1

theorem moveDone_written {l : Loc} {k : Nat} (hlive : c.doomed.any (fun e => e.1 == d) = false) (hdest : (c.page d).dest = some (l, k))
    (hres : (c.page d).residency = .moving ∨ (c.page d).residency = .spilling) :
    moveDone d c = Chan.admitJobs ((c.freeRunOf d (c.page d).loc (c.page d).sizeClass).setPage d (movedPage l k (c.page d))) := by
  have hpage := (c.freeRunOf_runSide d (c.page d).loc (c.page d).sizeClass).page d
  unfold moveDone movedPage
  obtain hm | hm := hres
  · simp only [hlive, hdest, hm, Bool.false_eq_true, if_false, if_true, Chan.modPage, hpage]
  · simp only [hlive, hdest, hm, Bool.false_eq_true, if_false, Chan.modPage, hpage, reduceCtorEq]

end

/-! ### Encoding (R84) -/

/-- A page as coded under a profile to the length of free value `ix`, in a run at `l`. -/
def codedPage (x : Profile) (ix : Nat) (l : Loc) (p : Page) : Page :=
  { p with loc := l, sizeClass := classFor (codedBytes ix), codec := x.kvCodec, storedLen := (codedBytes ix + 255) / 256, len := codedBytes ix }

/-- The run a coded page takes: of T1 where it stands there, else of T2. -/
def encodeRun (ix : Nat) (w : Wm) (p : Page) (c : Chan) : Option Loc × Chan :=
  if p.loc.tier = 1 then
    let q := c.t1.take (classFor (codedBytes ix))
    (q.1.map (fun g => ⟨1, g⟩), { c with t1 := q.2 })
  else c.takeT2 w p.pin (classFor (codedBytes ix))

theorem encodeRun_runSide (ix : Nat) (w : Wm) (p : Page) (c : Chan) : RunSide c (encodeRun ix w p c).2 := by
  unfold encodeRun
  split
  · rfl
  · exact c.takeT2_runSide _ _ _

theorem Chan.takeT2_loc {c : Chan} {w : Wm} {pinned : Bool} {k : Nat} {l : Loc} (h : (c.takeT2 w pinned k).1 = some l) :
    ∃ g, l = ⟨2, g⟩ := by
  unfold Chan.takeT2 at h
  split at h
  · exact absurd h.symm (Option.some_ne_none _)
  · obtain ⟨g, -, rfl⟩ := Option.map_eq_some_iff.mp h
    exact ⟨g, rfl⟩

theorem encodeRun_loc {ix : Nat} {w : Wm} {p : Page} {c : Chan} {l : Loc} (h : (encodeRun ix w p c).1 = some l) :
    ∃ g, l = ⟨if p.loc.tier = 1 then 1 else 2, g⟩ := by
  unfold encodeRun at h
  split at h
  · rename_i htier
    obtain ⟨g, -, rfl⟩ := Option.map_eq_some_iff.mp h
    exact ⟨g, by rw [if_pos htier]⟩
  · rename_i htier
    rw [if_neg htier]
    exact Chan.takeT2_loc h

theorem encodeRun_t1 {ix g : Nat} {w : Wm} {p : Page} {c : Chan} {a : Alloc} (htier : p.loc.tier = 1)
    (htake : c.t1.take (classFor (codedBytes ix)) = (some g, a)) : encodeRun ix w p c = (some ⟨1, g⟩, { c with t1 := a }) := by
  unfold encodeRun
  rw [if_pos htier, htake]
  rfl

section
variable {d ix : Nat} {w : Wm} {c : Chan}

/-- The turn of a page's encoding has come: it has started, no step writes the page and no copy of it is in flight. -/
def EncodeTurn (d : Nat) (c : Chan) : Prop :=
  c.admitJobs.started (.encode d) = true ∧ c.beingWritten d = false ∧ (c.page d).residency ≠ .moving ∧ (c.page d).residency ≠ .spilling

/-- Encoding the page pays: it is a sealed RAW one whose result is shorter. -/
abbrev EncodePays (d ix : Nat) (c : Chan) : Prop := c.toEncode (c.pageProf d) d = true ∧ codedBytes ix < (c.pageProf d).rawBytes

theorem Chan.toEncode_resident {x : Profile} (h : c.toEncode x d = true) : (c.page d).residency = .resident := by
  simp only [Chan.toEncode, Bool.and_eq_true, beq_iff_eq] at h
  exact h.1.1.1

theorem encodePage_waits (h : ¬EncodeTurn d c) : encodePage d ix w c = c.admitJobs := by
  have hside := c.admitJobs_runSide
  refine if_pos ?_
  rw [hside.beingWritten, hside.page]
  by_contra hall
  obtain ⟨hstart, hwrite, hmove, hspill⟩ := by simpa only [not_or] using hall
  exact h ⟨by simpa using hstart, by simpa using hwrite, hmove, hspill⟩

/-- The channel once the turn of a page's encoding is taken. -/
def turnTaken (d : Nat) (c : Chan) : Chan := c.admitJobs.endJob (.encode d)

theorem turnTaken_runSide : RunSide c (turnTaken d c) := by
  obtain ⟨l, h⟩ := c.admitJobs.endJob_cond (.encode d)
  rw [turnTaken, h]
  exact c.admitJobs_runSide.trans rfl

theorem turnTaken_t1 : (turnTaken d c).t1 = c.t1 := by
  obtain ⟨l, h⟩ := c.admitJobs.endJob_cond (.encode d)
  obtain ⟨m, hm⟩ := c.admitJobs_cond
  rw [turnTaken, h, hm]

/-- The page coded into the run that was found for it; unchanged where none was. -/
def encodeInto (d ix : Nat) (c : Chan) : Option Loc × Chan → Chan
  | (some l, r) => (r.freeRunOf d (c.page d).loc (c.page d).sizeClass).modPage d (codedPage (c.pageProf d) ix l)
  | (none, r) => r

theorem encodePage_turn (h : EncodeTurn d c) :
    encodePage d ix w c =
      if EncodePays d ix c then encodeInto d ix c (encodeRun ix w (c.page d) (turnTaken d c)) else turnTaken d c := by
  obtain ⟨hstart, hwrite, hmove, hspill⟩ := h
  have hside := c.admitJobs_runSide
  have hpays : EncodePays d ix c ↔ (turnTaken d c).toEncode (c.pageProf d) d = true ∧ codedBytes ix < (c.pageProf d).rawBytes := by
    rw [turnTaken_runSide.toEncode, EncodePays]
  unfold encodePage
  dsimp only
  rw [hside.beingWritten, hside.page, hside.pageProf, if_neg (by simp [hstart, hwrite, hmove, hspill]), if_congr hpays rfl rfl]
  rfl

/-- An encoding leaves its page as it is, or coded in a run of its tier; it leaves every other page. -/
theorem encodePage_cases (d ix : Nat) (w : Wm) (c : Chan) :
    RunSide c (encodePage d ix w c) ∨
      (EncodeTurn d c ∧ EncodePays d ix c) ∧ ∃ g r, RunSide c r ∧
        encodePage d ix w c = r.modPage d (codedPage (c.pageProf d) ix ⟨if (c.page d).loc.tier = 1 then 1 else 2, g⟩) := by
  by_cases hturn : EncodeTurn d c
  case neg =>
    rw [encodePage_waits hturn]
    exact .inl c.admitJobs_runSide
  rw [encodePage_turn hturn]
  split
  case isFalse => exact .inl turnTaken_runSide
  case isTrue hpays =>
    have hrun := turnTaken_runSide.trans (encodeRun_runSide ix w (c.page d) (turnTaken d c))
    rcases heq : encodeRun ix w (c.page d) (turnTaken d c) with ⟨_ | l, r⟩ <;> rw [heq] at hrun
    · exact .inl hrun
    · obtain ⟨g, rfl⟩ := encodeRun_loc (congrArg Prod.fst heq)
      exact .inr ⟨⟨hturn, hpays⟩, g, _, hrun.trans (r.freeRunOf_runSide _ _ _), rfl⟩

/-- A page of T1 whose run is found is coded there. -/
theorem encodePage_t1 {g : Nat} {a : Alloc} (hturn : EncodeTurn d c) (hpays : EncodePays d ix c) (htier : (c.page d).loc.tier = 1)
    (htake : c.t1.take (classFor (codedBytes ix)) = (some g, a)) :
    (encodePage d ix w c).page d = codedPage (c.pageProf d) ix ⟨1, g⟩ (c.page d) := by
  have hrun := encodeRun_t1 (w := w) (c := turnTaken d c) htier (by rw [turnTaken_t1]; exact htake)
  have hside := (turnTaken_runSide.trans (encodeRun_runSide ix w (c.page d) (turnTaken d c))).trans
    (Chan.freeRunOf_runSide _ d (c.page d).loc (c.page d).sizeClass)
  rw [encodePage_turn hturn, if_pos hpays, hrun, encodeInto, Chan.modPage_page_same]
  rw [hrun] at hside
  rw [hside.page]

end

/-! ### The end of a fetch (R97, R98, R281) -/

theorem memPoison_chan (ch tier addr n : Nat) (s : State) :
    ∃ k at_, (memPoison ch tier addr n s).chan ch = { s.chan ch with poisonCount := k, poisonEventAt := at_ } := by
  unfold memPoison
  extract_lets c count due
  split
  · exact ⟨_, _, ((raiseEventN_host _ _ _ _ _).chan ch).trans (State.setChan_chan_same _ _ _)⟩
  · exact ⟨_, _, State.setChan_chan_same _ _ _⟩

/-- The channel with a FETCHING page LOST: the run reserved for it is freed. -/
def lostPage (d : Nat) (l : Loc) (c : Chan) : Chan :=
  (c.freeLoc l).modPage d (fun p => { p with residency := .lost, dest := none, k := [], v := [] })

theorem lostPage_page (d : Nat) (l : Loc) (c : Chan) : ((lostPage d l c).page d).residency = .lost ∧ ((lostPage d l c).page d).dest = none := by
  rw [lostPage, Chan.modPage_page_same]
  exact ⟨rfl, rfl⟩

theorem lostPage_rejects (d : Nat) (l : Loc) (c : Chan) :
    ((lostPage d l c).cdnHdrErr, (lostPage d l c).cdnCrcErr, (lostPage d l c).cdnTagErr) = (c.cdnHdrErr, c.cdnCrcErr, c.cdnTagErr) := by
  have h := c.freeLoc_runSide l
  unfold lostPage Chan.modPage Chan.setPage
  rw [h]

section
variable {ch d : Nat} {e : Envelope} {s : State}

theorem exec_fetchComplete (hup : s.up = true) : exec (.fetchComplete ch d e) s = .next (wakeHeld ch (fetchDone ch d false e s)) :=
  whenUp_next (f := fun s => wakeHeld ch (fetchDone ch d false e s)) hup

theorem fetchDone_idle (poison : Bool) (h : ((s.chan ch).page d).residency ≠ .fetching ∨ ((s.chan ch).page d).dest = none) :
    (fetchDone ch d poison e s).chan ch = s.chan ch := by
  unfold fetchDone
  dsimp only
  split
  · rename_i hres hdest
    simp [hres, hdest] at h
  · rfl

variable {l : Loc} {k : Nat} (hres : ((s.chan ch).page d).residency = .fetching) (hdest : ((s.chan ch).page d).dest = some (l, k))
include hres hdest

theorem fetchDone_poisoned :
    ∃ k at_, (fetchDone ch d true e s).chan ch = { lostPage d l (s.chan ch) with poisonCount := k, poisonEventAt := at_ } := by
  unfold fetchDone
  simp only [hres, hdest, if_true]
  obtain ⟨k, at_, h⟩ := memPoison_chan ch ((s.chan ch).page d).loc.tier (locGranule ((s.chan ch).page d).loc * 16384) 1
    ((answerReqs (fun k => k == .fetch ch d) s).setChan ch (lostPage d l (s.chan ch)))
  rw [State.setChan_chan_same] at h
  exact ⟨k, at_, h⟩

theorem fetchDone_rejected {x : Nat} (hopen : openEnvelope (s.chan ch) (pageExpect s.fid ch ((s.chan ch).page d)) e = .error x) :
    (fetchDone ch d false e s).chan ch = lostPage d l ((s.chan ch).countReject x) := by
  unfold fetchDone
  simp only [hres, hdest, Bool.false_eq_true, if_false]
  rw [show (answerReqs (fun k => k == .fetch ch d) s).fid = s.fid from rfl, hopen]
  exact State.setChan_chan_same _ _ _

theorem fetchDone_accepted {b : List Byte} (hopen : openEnvelope (s.chan ch) (pageExpect s.fid ch ((s.chan ch).page d)) e = .ok b) :
    ((fetchDone ch d false e s).chan ch).page d = { pageFrom ((s.chan ch).pageProf d) ((s.chan ch).page d) l b s.freeIx with
      lastStep := max ((s.chan ch).page d).lastStep ((s.chan ch).nextStep - 1) } := by
  unfold fetchDone
  simp only [hres, hdest, Bool.false_eq_true, if_false]
  rw [show (answerReqs (fun k => k == .fetch ch d) s).fid = s.fid from rfl, hopen]
  dsimp only
  rw [State.advanceFree_chan, State.setChan_chan_same]
  split
  · exact ((Chan.pushJob_runSide _ _ _ _).page d).trans (Chan.setPage_page_same _ _ _)
  · exact Chan.setPage_page_same _ _ _

end

/-! ### The commands -/

section
variable {ch : Nat} {s : State}

theorem exec_pageMoveComplete (hup : s.up = true) (d : Nat) :
    exec (.pageMoveComplete ch d) s = .next ((answerReqs (fun k => k == .spillWrite ch d) s).modChan ch (moveDone d)) :=
  whenUp_next (f := fun s => (answerReqs (fun k => k == .spillWrite ch d) s).modChan ch (moveDone d)) hup

theorem exec_pageEncode (hup : s.up = true) (d : Nat) :
    exec (.pageEncode ch d) s = .next (s.modChan ch (encodePage d s.freeIx (wmOf ch s))).advanceFree :=
  whenUp_next (f := fun s => (s.modChan ch (encodePage d s.freeIx (wmOf ch s))).advanceFree) hup

/-- The channel with a freed run of T2 scrubbed. -/
def scrubDone (tier g : Nat) (c : Chan) : Chan := if tier = 2 ∧ c.t2.scrub.contains g then { c with t2 := c.t2.release g } else c

theorem exec_scrubComplete (hup : s.up = true) (tier g : Nat) : exec (.scrubComplete ch tier g) s = .next (s.modChan ch (scrubDone tier g)) :=
  whenUp_next (f := fun s => s.modChan ch (scrubDone tier g)) hup

end

/-- Settles O36: each command by the cases of the function it applies to the channel. -/
theorem pagesMove : Obligations.PagesMove := by
  intro ch d s hup c p
  refine ⟨fun tier h => ?idle, fun tier ix spill e h => Chan.demoteNext_least h, fun hgoes => ?demote, fun h => ?stale,
    fun l k hlive hdest hres => ?moved, ?encode,
    fun e => ⟨exec_fetchComplete hup, fun poison => ⟨fetchDone_idle poison, fun l k hres hdest => ?fetch⟩⟩, fun tier g => ?scrub⟩
  case idle =>
    rw [exec_demote hup, demoteStart_idle]
    rintro ⟨htier, huse⟩
    have hspill : tier = 2 → spillTier ch s ≠ 0 := by omega
    obtain h | h | ⟨h, h0⟩ | ⟨hnot, hle⟩ := h
    · omega
    · omega
    · exact hspill h h0
    · exact huse.elim (fun hlt => absurd hlt (not_lt.mpr hle)) hnot
  case demote =>
    intro g hlow hmay
    refine ⟨fun hnone => ⟨_, exec_demote hup, ?_⟩, fun e n a hnext htake => ?_⟩
    · rw [demoteStart_stalls (g := g) rfl ⟨.inl rfl, hgoes⟩ hlow hmay hnone]
      exact ⟨rfl, rfl⟩
    · obtain ⟨m, hm⟩ := demoteStart_begins (g := g) rfl ⟨.inl rfl, hgoes⟩ hlow hmay hnext htake
      exact ⟨_, m, exec_demote hup, hm⟩
  case stale =>
    refine ⟨_, exec_pageMoveComplete hup d, (State.modChan_chan_same _ _ _).trans ?_⟩
    exact h.elim moveDone_doomed moveDone_idle
  case moved =>
    have hdone : moveDone d c = _ := moveDone_written hlive hdest hres
    have hchan : ((answerReqs (fun k => k == .spillWrite ch d) s).modChan ch (moveDone d)).chan ch = _ :=
      (State.modChan_chan_same _ _ _).trans hdone
    refine ⟨_, exec_pageMoveComplete hup d, fun e he => ?_, ?_⟩
    · rw [hchan, (Chan.admitJobs_runSide _).page, Chan.setPage_page_other _ _ he, (c.freeRunOf_runSide _ _ _).page]
    · rw [hchan, (Chan.admitJobs_runSide _).page, Chan.setPage_page_same]
      rfl
  case encode =>
    have hchan : (s.modChan ch (encodePage d s.freeIx (wmOf ch s))).advanceFree.chan ch = encodePage d s.freeIx (wmOf ch s) c :=
      State.modChan_chan_same _ _ _
    refine ⟨_, exec_pageEncode hup d, rfl, ?_⟩
    rw [hchan]
    refine ⟨fun e he => ?_, fun h => ?_, ?_, fun g a hstart hwrite hcode htier hlen htake => ?_⟩
    · obtain hside | ⟨-, g, r, hside, heq⟩ := encodePage_cases d s.freeIx (wmOf ch s) c
      · exact hside.page e
      · rw [heq, Chan.modPage_page_other _ _ he, hside.page]
    · obtain hside | ⟨⟨⟨hstart, hwrite, -⟩, hcode, hlen⟩, -⟩ := encodePage_cases d s.freeIx (wmOf ch s) c
      · exact hside.page d
      · simp only [hstart, hwrite, hcode, Bool.true_eq_false, Bool.false_eq_true, false_or] at h
        omega
    · obtain hside | ⟨-, g, r, hside, heq⟩ := encodePage_cases d s.freeIx (wmOf ch s) c
      · exact .inl (hside.page d)
      · refine .inr ⟨g, ?_⟩
        rw [heq, Chan.modPage_page_same, hside.page]
        rfl
    · have hres : (c.page d).residency = .resident := Chan.toEncode_resident hcode
      have hturn : EncodeTurn d c := ⟨hstart, hwrite, by rw [hres]; decide, by rw [hres]; decide⟩
      rw [encodePage_t1 hturn ⟨hcode, hlen⟩ htier htake]
      exact ⟨rfl, rfl⟩
  case fetch =>
    refine ⟨fun hpoison => ?_, fun hpoison x hopen => ?_, fun hpoison b hopen => ?_⟩ <;> subst hpoison
    · obtain ⟨k, at_, h⟩ := fetchDone_poisoned (e := e) hres hdest
      rw [h]
      exact lostPage_page d l c
    · rw [fetchDone_rejected hres hdest hopen]
      exact ⟨(lostPage_page _ _ _).1, (lostPage_page _ _ _).2, lostPage_rejects _ _ _⟩
    · rw [fetchDone_accepted hres hdest hopen]
      exact ⟨rfl, rfl, rfl, rfl⟩
  case scrub =>
    refine ⟨_, exec_scrubComplete hup tier g, rfl, ?_⟩
    rw [State.modChan_chan_same]
    exact if_congr (by rw [List.contains_iff_mem]) rfl rfl

end Sys2Proof.Machine
end

section
/-! The ends of BULK units, their saves and restores (R97, R98, R124, R186, R188, R488). The settlement of O35. -/

namespace Sys2Proof.Machine

open Sys2Proof

/-! ### Images moved between tables (R188) -/

theorem tget_tdel_other {α : Type} {j k : Nat} (t : Tbl α) (h : j ≠ k) : tget j (tdel k t) = tget j t := by
  induction t with
  | nil => rfl
  | cons e r ih =>
    obtain ⟨i, w⟩ := e
    by_cases hi : i = k
    · simpa [tdel, tget, hi, Ne.symm h] using ih
    · by_cases hj : i = j
      · simp [tdel, tget, hj, h]
      · simpa [tdel, tget, hi, hj] using ih

/-- What stands under a number is replaced: by an image, or by none. -/
def putImage (k : Nat) (v : Option Nat) (t : Tbl Nat) : Tbl Nat := match v with | some x => tset k x t | none => tdel k t

theorem tget_putImage_same (k : Nat) (v : Option Nat) (t : Tbl Nat) : tget k (putImage k v t) = v := by
  cases v with
  | none => exact tget_tdel_same k t
  | some x => exact tget_tset_same k x t

theorem tget_putImage_other {j k : Nat} (v : Option Nat) (t : Tbl Nat) (h : j ≠ k) : tget j (putImage k v t) = tget j t := by
  cases v with
  | none => exact tget_tdel_other t h
  | some x => exact tget_tset_other k j x t h

/-- Images put one after another, each under the second number of its pair. -/
def putImages (v : Nat → Option Nat) (l : List (Nat × Nat)) (t : Tbl Nat) : Tbl Nat := l.foldl (fun m e => putImage e.2 (v e.1) m) t

theorem tget_putImages_other {v : Nat → Option Nat} {l : List (Nat × Nat)} {k : Nat} (h : k ∉ l.map Prod.snd) (t : Tbl Nat) :
    tget k (putImages v l t) = tget k t := by
  induction l generalizing t with
  | nil => rfl
  | cons e l ih =>
    rw [List.map_cons, List.mem_cons, not_or] at h
    exact (ih h.2 _).trans (tget_putImage_other _ _ h.1)

/-- Where no two images go to one number, each stands there afterwards. -/
theorem tget_putImages_mem {v : Nat → Option Nat} {l : List (Nat × Nat)} {e : Nat × Nat} (hnodup : (l.map Prod.snd).Nodup) (he : e ∈ l)
    (t : Tbl Nat) : tget e.2 (putImages v l t) = v e.1 := by
  induction l generalizing t with
  | nil => cases he
  | cons f l ih =>
    rw [List.map_cons, List.nodup_cons] at hnodup
    obtain rfl | hmem := List.mem_cons.mp he
    · exact (tget_putImages_other hnodup.1 _).trans (tget_putImage_same _ _ _)
    · exact ih hnodup.2 hmem _

theorem map_snd_zip_sublist (l m : List Nat) : ((l.zip m).map Prod.snd).Sublist m := by
  induction l generalizing m with
  | nil => simp
  | cons a l ih =>
    cases m with
    | nil => simp
    | cons b m => exact (ih m).cons_cons b

/-- Each image of a list goes to the number at its place in a list of distinct numbers. -/
theorem tget_putImages_zip {v : Nat → Option Nat} {froms tos : List Nat} (hnodup : tos.Nodup) {k a b : Nat} (ha : froms[k]? = some a)
    (hb : tos[k]? = some b) (t : Tbl Nat) : tget b (putImages v (froms.zip tos) t) = v a :=
  tget_putImages_mem (e := (a, b)) (hnodup.sublist (map_snd_zip_sublist _ _))
    (List.mem_of_getElem? (List.getElem?_zip_eq_some.mpr ⟨ha, hb⟩)) t

theorem Chan.restoreTiles_eq (c : Chan) (ts slots : List Nat) :
    c.restoreTiles ts slots = { c with t0 := putImages (tget · c.saves) (slots.zip ts) c.t0 } := by
  rw [← List.zip_swap ts slots, putImages, List.foldl_map]
  rfl

theorem tget_foldl_tdel {ks : List Nat} {k : Nat} (h : k ∈ ks) (t : Tbl Nat) : tget k (ks.foldl (fun m k => tdel k m) t) = none := by
  have hgone (ks : List Nat) (t : Tbl Nat) (hnone : tget k t = none) : tget k (ks.foldl (fun m k => tdel k m) t) = none :=
    List.foldlRecOn (motive := fun m => tget k m = none) ks _ hnone fun m hm j _ => by
      by_cases hj : k = j
      · rw [hj, tget_tdel_same]
      · rw [tget_tdel_other _ hj, hm]
  induction ks generalizing t with
  | nil => cases h
  | cons j ks ih =>
    obtain rfl | hmem := List.mem_cons.mp h
    · exact hgone ks _ (tget_tdel_same _ _)
    · exact ih hmem _

/-! ### The units that starts and dispatch leave (R186) -/

theorem TileSide.saves {c d : Chan} (h : TileSide c d) : d.saves = c.saves := by rw [h]

/-- A start changes units of its list alone, and of each neither its name nor whether it is being saved. -/
structure StartSide (l : List Nat) (f : BulkUnit → BulkUnit) : Prop where
  id : ∀ v, (f v).id = v.id
  saving : ∀ v, (f v).saving = v.saving
  other : ∀ v, v.id ∉ l → f v = v

theorem Chan.startUnits_bulk (l : List Nat) (c : Chan) : ∃ f, StartSide l f ∧ (Chan.startUnits l c).bulk = c.bulk.map f := by
  have hkeep (l : List Nat) : StartSide l id := ⟨fun _ => rfl, fun _ => rfl, fun _ _ => rfl⟩
  induction l generalizing c with
  | nil => exact ⟨_, hkeep _, (List.map_id _).symm⟩
  | cons i r ih =>
    have hrest (c : Chan) : ∃ f, StartSide (i :: r) f ∧ (Chan.startUnits r c).bulk = c.bulk.map f := by
      obtain ⟨f, hf, heq⟩ := ih c
      exact ⟨f, ⟨hf.id, hf.saving, fun v hv => hf.other v fun h => hv (List.mem_cons_of_mem _ h)⟩, heq⟩
    unfold Chan.startUnits
    split
    · exact hrest c
    · split
      · exact hrest c
      · split
        · exact ⟨_, hkeep _, (List.map_id _).symm⟩
        · rename_i u _ _ _
          extract_lets ts started
          obtain ⟨f, hf, heq⟩ := ih (if u.saved.isEmpty then started.useTiles ts else started)
          have hbulk : (if u.saved.isEmpty = true then started.useTiles ts else started).bulk = started.bulk := by split <;> rfl
          rw [hbulk] at heq
          refine ⟨_, ⟨fun v => (hf.id _).trans (by split <;> rfl), fun v => (hf.saving _).trans (by split <;> rfl), fun v hv => ?_⟩,
            heq.trans List.map_map⟩
          rw [List.mem_cons, not_or] at hv
          rw [if_neg hv.1, hf.other v hv.2]

/-- The names of a channel's units. -/
def Chan.unitIds (c : Chan) : List Nat := c.bulk.map (fun v => v.id)

theorem Chan.modUnit_unitIds (c : Chan) (i : Nat) {f : BulkUnit → BulkUnit} (h : ∀ v, (f v).id = v.id) :
    (c.modUnit i f).unitIds = c.unitIds := by
  unfold Chan.unitIds Chan.modUnit
  rw [List.map_map]
  refine List.map_congr_left fun v _ => ?_
  rw [Function.comp_apply]
  split
  · exact h v
  · rfl

theorem Chan.preempt_unitIds (c : Chan) (u : BulkUnit) : (c.preempt u).unitIds = c.unitIds := by
  unfold Chan.preempt
  split
  · exact c.modUnit_unitIds _ fun _ => rfl
  · rfl

theorem Chan.startUnits_unitIds (l : List Nat) (c : Chan) : (Chan.startUnits l c).unitIds = c.unitIds := by
  obtain ⟨f, hf, heq⟩ := Chan.startUnits_bulk l c
  rw [Chan.unitIds, heq, List.map_map]
  exact List.map_congr_left fun v _ => hf.id v

theorem Chan.dispatch_unitIds (c : Chan) (minTiles : Nat) : (c.dispatch minTiles).unitIds = c.unitIds := by
  unfold Chan.dispatch
  extract_lets d shared out claimed
  have hclaimed : claimed.unitIds = c.unitIds := by
    unfold claimed
    split
    · exact List.foldlRecOn (motive := fun q => Chan.unitIds q = c.unitIds) out Chan.preempt rfl fun q hq u _ => (q.preempt_unitIds u).trans hq
    · rfl
  exact (Chan.startUnits_unitIds _ _).trans hclaimed

/-! ### Saves and restores (R124, R188) -/

section
variable {unit : Nat} {c : Chan} {u : BulkUnit}

theorem saveDone_idle (h : c.bulk.find? (fun u => u.id == unit && u.saving) = none) : saveDone unit c = c := by
  unfold saveDone
  rw [h]

/-- The units once the images of one stand in its slots. -/
def savedUnit (unit : Nat) (v : BulkUnit) : BulkUnit := if v.id = unit then { v with saving := false, tiles := [] } else v

theorem saveDone_eq (h : c.bulk.find? (fun u => u.id == unit && u.saving) = some u) :
    saveDone unit c = Chan.startUnits c.bulkShare { c.saveTiles u.tiles u.saved with bulk := c.bulk.map (savedUnit unit) } := by
  unfold saveDone
  rw [h]
  rfl

theorem saveDone_bulk (h : c.bulk.find? (fun u => u.id == unit && u.saving) = some u) :
    ∃ f, StartSide c.bulkShare f ∧ (saveDone unit c).bulk = c.bulk.map (fun v => f (savedUnit unit v)) := by
  rw [saveDone_eq h]
  obtain ⟨f, hf, heq⟩ := Chan.startUnits_bulk c.bulkShare { c.saveTiles u.tiles u.saved with bulk := c.bulk.map (savedUnit unit) }
  exact ⟨f, hf, heq.trans List.map_map⟩

/-- The unit saved is no longer leaving tiles, and holds none unless it is started again. -/
theorem saveDone_unit (h : c.bulk.find? (fun u => u.id == unit && u.saving) = some u) {v : BulkUnit} (hv : v ∈ (saveDone unit c).bulk)
    (hid : v.id = unit) : v.saving = false ∧ (unit ∉ c.bulkShare → v.tiles = []) := by
  obtain ⟨f, hf, heq⟩ := saveDone_bulk h
  rw [heq] at hv
  obtain ⟨w, -, rfl⟩ := List.mem_map.mp hv
  have hw : w.id = unit := by
    rw [hf.id, savedUnit] at hid
    split at hid
    · assumption
    · exact hid
  have hsaved : savedUnit unit w = { w with saving := false, tiles := [] } := if_pos hw
  rw [hf.saving, hsaved]
  refine ⟨rfl, fun hout => ?_⟩
  rw [hf.other _ (by rw [show ({ w with saving := false, tiles := [] } : BulkUnit).id = unit from hw]; exact hout)]

/-- A unit that is neither the one saved nor in the share is as before. -/
theorem saveDone_other (h : c.bulk.find? (fun u => u.id == unit && u.saving) = some u) {v : BulkUnit} (hv : v ∈ c.bulk) (hid : v.id ≠ unit)
    (hout : v.id ∉ c.bulkShare) : v ∈ (saveDone unit c).bulk := by
  obtain ⟨f, hf, heq⟩ := saveDone_bulk h
  rw [heq]
  refine List.mem_map.mpr ⟨v, hv, ?_⟩
  rw [show savedUnit unit v = v from if_neg hid, hf.other v hout]

theorem saveDone_saves (h : c.bulk.find? (fun u => u.id == unit && u.saving) = some u) :
    (saveDone unit c).saves = putImages (tget · c.t0) (u.tiles.zip u.saved) c.saves := by
  rw [saveDone_eq h, (Chan.startUnits_tileSide _ _).saves]
  rfl

theorem restoreDone_idle (h : c.bulk.find? (fun u => u.id == unit && u.restoring) = none) : restoreDone unit c = c := by
  unfold restoreDone
  rw [h]

theorem restoreDone_eq (h : c.bulk.find? (fun u => u.id == unit && u.restoring) = some u) :
    restoreDone unit c = { c with
      t0 := putImages (tget · c.saves) (u.saved.zip u.tiles) c.t0
      bulk := c.bulk.map (fun v => if v.id = unit then { v with restoring := false, saved := [] } else v)
      saves := u.saved.foldl (fun m k => tdel k m) c.saves } := by
  unfold restoreDone
  rw [h]
  dsimp only
  rw [Chan.restoreTiles_eq]
  rfl

end

theorem exec_preemptSaveComplete {ch unit : Nat} {s : State} (hup : s.up = true) :
    exec (.preemptSaveComplete ch unit) s = .next (s.modChan ch (saveDone unit)) :=
  whenUp_next (f := fun s => s.modChan ch (saveDone unit)) hup

theorem exec_restoreComplete {ch unit : Nat} {s : State} (hup : s.up = true) :
    exec (.restoreComplete ch unit) s = .next (s.modChan ch (restoreDone unit)) :=
  whenUp_next (f := fun s => s.modChan ch (restoreDone unit)) hup

/-! ### What a layer's storing leaves of a channel's sessions and units -/

/-- Every session has its state as before, and the BULK queue is the same. -/
structure KeepsSessions (c d : Chan) : Prop where
  bulk : d.bulk = c.bulk
  state : ∀ k, (d.dir k).state = (c.dir k).state

section
variable {c d e : Chan}

theorem KeepsSessions.of_eq (hbulk : d.bulk = c.bulk) (hdirs : d.dirs = c.dirs) : KeepsSessions c d :=
  ⟨hbulk, fun k => by rw [Chan.dir_congr hdirs k]⟩

theorem KeepsSessions.refl (c : Chan) : KeepsSessions c c := .of_eq rfl rfl

theorem KeepsSessions.trans (h : KeepsSessions c d) (g : KeepsSessions d e) : KeepsSessions c e :=
  ⟨g.bulk.trans h.bulk, fun k => (g.state k).trans (h.state k)⟩

theorem KvSide.sessions (h : KvSide c d) : KeepsSessions c d := .of_eq (by rw [h]) h.dirs

theorem RunSide.sessions (h : RunSide c d) : KeepsSessions c d := .of_eq (by rw [h]) (by rw [h])

theorem foldl_keepsSessions {α : Type} {f : Chan → α → Chan} {l : List α} (h : ∀ c a, KeepsSessions c (f c a)) :
    KeepsSessions c (l.foldl f c) :=
  List.foldlRecOn l f (.refl c) fun d hd a _ => hd.trans (h d a)

end

theorem Chan.setDir_keepsSessions (c : Chan) (i : Nat) {e : Dir} (h : e.state = (c.dir i).state) : KeepsSessions c (c.setDir i e) := by
  refine ⟨rfl, fun k => ?_⟩
  by_cases hk : k = i
  · rw [hk, Chan.setDir_dir_same, h]
  · rw [c.setDir_dir_other e hk]

theorem Chan.setMap_keepsSessions (c : Chan) (i : Nat) (m : Tbl MapEntry) : KeepsSessions c (c.setMap i m) := .of_eq rfl rfl

theorem Chan.modPage_keepsSessions (c : Chan) (d : Nat) (f : Page → Page) : KeepsSessions c (c.modPage d f) := .of_eq rfl rfl

theorem Chan.decodeInto_kvSide (c : Chan) (x : Profile) (d : Nat) (l : Loc) (k : Nat) : KvSide c (c.decodeInto x d l k) := by
  unfold Chan.decodeInto
  extract_lets p freed dest
  have hdest : KvSide freed dest := by
    unfold dest
    split
    · exact freed.freeRunOf_kvSide d _ _
    · exact .refl freed
  exact ((c.freeRunOf_kvSide d _ _).trans hdest).trans (dest.modPage_kvSide _ _)

theorem Chan.copyLast_keepsSessions (c : Chan) (i e : Nat) (copies : Tbl Nat) : KeepsSessions c (c.copyLast i e copies) := by
  unfold Chan.copyLast
  split
  · rename_i d n _ _
    extract_lets p x q copied mapped
    split
    · split
      · exact (c.decodeInto_kvSide _ _ _ _).sessions
      · exact .refl c
    · split
      · exact KeepsSessions.trans (d := mapped) (.of_eq rfl rfl) (mapped.unshare_kvSide d).sessions
      · split
        · exact (c.freePage_kvSide n).sessions
        · refine (KvSide.trans ?_ (Chan.decodeInto_kvSide _ _ _ _ _)).sessions
          rfl
  · exact .refl c

theorem Chan.writeRows_keepsSessions (c : Chan) (i e pos : Nat) (ks vs : List (List Byte)) (new : Tbl Nat) :
    KeepsSessions c (c.writeRows i e pos ks vs new) := by
  unfold Chan.writeRows
  extract_lets x off d?
  clear_value d?
  cases d? with
  | none => exact .refl c
  | some d => exact c.modPage_keepsSessions _ _

theorem Chan.writeLayer_keepsSessions (c : Chan) (i l pos : Nat) (ks vs : List (List Byte)) (new : Tbl Nat) :
    KeepsSessions c (c.writeLayer i l pos ks vs new) :=
  foldl_keepsSessions fun _ _ => foldl_keepsSessions fun c _ => c.writeRows_keepsSessions _ _ _ _ _ _

theorem Chan.setFill_keepsSessions (c : Chan) (i e len step : Nat) (new : Tbl Nat) : KeepsSessions c (c.setFill i e len step new) := by
  unfold Chan.setFill
  extract_lets x fill mapped
  have hmapped : KeepsSessions c mapped := by
    unfold mapped
    split
    · exact c.setMap_keepsSessions _ _
    · exact .refl c
  split
  · exact hmapped.trans (mapped.modPage_keepsSessions _ _)
  · exact hmapped

theorem Chan.commitLayers_keepsSessions (c : Chan) (i : Nat) (ls : List Nat) (len t step : Nat) (new : Tbl Nat) :
    KeepsSessions c (c.commitLayers i ls len t step new) :=
  foldl_keepsSessions fun c _ => c.setFill_keepsSessions _ _ _ _ _

theorem storeLayer_keepsSessions (i l start t step : Nat) (k v : List Byte) (new copies : Tbl Nat) (c : Chan) :
    KeepsSessions c (storeLayer i l start t step k v new copies c) :=
  (((foldl_keepsSessions fun c _ => c.copyLast_keepsSessions _ _ _).trans (Chan.writeLayer_keepsSessions _ _ _ _ _ _ _)).trans
    (Chan.commitLayers_keepsSessions _ _ _ _ _ _ _)).trans (Chan.setDir_keepsSessions _ _ rfl)

theorem closeChunk_keepsSessions (i : Nat) (c : Chan) : KeepsSessions c (closeChunk i c) := by
  unfold closeChunk
  split
  · rename_i k b _ _
    extract_lets e x len longer hist held
    have hlonger : KeepsSessions c longer := c.setDir_keepsSessions i rfl
    split
    · have hheld : KeepsSessions (longer.setSblk i hist) held :=
        Chan.setDir_keepsSessions _ i (congrArg Dir.state (c.setDir_dir_same i { e with kvLen := len })).symm
      have hsblk : KeepsSessions longer (longer.setSblk i hist) := .of_eq rfl rfl
      have hended : KeepsSessions held { held with chunks := tdel i held.chunks } := .of_eq rfl rfl
      exact ((hlonger.trans hsblk).trans hheld).trans hended
    · exact hlonger
  · exact .refl c

theorem appendStored_keepsSessions (a : AppendArgs) (start step : Nat) (new copies : Tbl Nat) (c : Chan) :
    KeepsSessions c (appendStored a start step new copies c) := by
  unfold appendStored
  extract_lets i stored chunked
  have hstored : KeepsSessions c stored := (c.touch_kvSide i none).sessions.trans (storeLayer_keepsSessions _ _ _ _ _ _ _ _ _ _)
  have hchunked : KeepsSessions c chunked := by
    unfold chunked
    split
    · exact hstored.trans (.of_eq rfl rfl)
    · exact hstored
  split
  · exact hchunked.trans (closeChunk_keepsSessions i _)
  · exact hchunked

theorem Chan.queueEncodes_keepsSessions (c : Chan) (i : Nat) (es : List Nat) (deadline : Nat) :
    KeepsSessions c (c.queueEncodes i es deadline) := by
  refine foldl_keepsSessions fun c e => ?_
  split
  · split
    · exact (c.pushJob_runSide _ _ _).sessions
    · exact .refl c
  · exact .refl c

theorem scorePages_keepsSessions (c : Chan) (j : AttnJob) (step ix : Nat) : KeepsSessions c (scorePages c j step ix) :=
  foldl_keepsSessions fun c _ => c.modPage_keepsSessions _ _

theorem Chan.unreserve_kvSide (c : Chan) (ds : Tbl Nat) : KvSide c (c.unreserve ds) := by
  refine foldl_kvSide fun c e => .ite (c.freePage_kvSide _) ?_
  split
  · exact (c.freeLoc_kvSide _).trans (Chan.modPage_kvSide _ _ _)
  · exact .refl c

theorem appendCancel_keepsSessions (a : AppendArgs) (start : Nat) (new copies : Tbl Nat) (c : Chan) :
    KeepsSessions c (appendCancel a start new copies c) := by
  have hfreed := ((c.unreserve_kvSide new).trans (Chan.unreserve_kvSide _ copies)).sessions
  unfold appendCancel
  extract_lets freed i
  split
  · split
    · exact hfreed.trans (.of_eq rfl rfl)
    · exact hfreed.trans (.of_eq rfl rfl)
  · exact hfreed

/-! ### The end of a host-issued layer (R97, R98, R149, R488) -/

/-- An append, or a prefill whose layer reads no LOST page. -/
theorem notLost {pre : Bool} {c : Chan} {j : AttnJob} (h : pre = true → jobReady c j ≠ .lost) : (pre && jobReady c j == .lost) = false := by
  cases pre with
  | false => rfl
  | true => exact beq_false_of_ne (h rfl)

theorem addSticky_keepsSessions (ch n : Nat) (s : State) : KeepsSessions (s.chan ch) ((addSticky ch n s).chan ch) := by
  unfold addSticky
  rw [State.advanceFree_chan, State.modChan_chan_same]
  exact .of_eq rfl rfl

theorem addSticky_chan_other {ch k : Nat} (n : Nat) (s : State) (h : k ≠ ch) : (addSticky ch n s).chan k = s.chan k := by
  unfold addSticky
  rw [State.advanceFree_chan, State.modChan_chan_other _ _ _ _ h]

section
variable {ch ring tag : Nat} {a : AppendArgs} {pre p : Bool} {start : Nat} {new copies : Tbl Nat} {s : State} {op : RunOp}

/-- The channel as a layer's positions are stored, and its pages' scores taken where it is a prefill's. -/
def layerStored (ch : Nat) (a : AppendArgs) (pre : Bool) (start : Nat) (new copies : Tbl Nat) (s : State) : Chan :=
  let c := appendStored a start (s.chan ch).nextStep new copies (s.chan ch)
  let c := c.queueEncodes a.handle.index (touchedEntries (c.prof (c.dir a.handle.index).profile) [a.layer] start a.tokens) (deviceDl ch s)
  if pre then scorePages c (hostJob a start []) c.nextStep (s.freeIx + 2) else c

/-- The results a layer writes to host memory: none but a prefill's, taken from its pages before their scores. -/
def layerWrites (ch : Nat) (a : AppendArgs) (pre : Bool) (start : Nat) (new copies : Tbl Nat) (s : State) : List (Nat × Payload) :=
  if pre then hostWrites (layerStored ch a false start new copies s) a start s.freeIx else []

/-- The state in which a layer's operation ends with ST_OK. -/
def layerDoneAt (ch : Nat) (a : AppendArgs) (pre : Bool) (start : Nat) (new copies : Tbl Nat) (s : State) : State :=
  let c := layerStored ch a pre start new copies s
  let t := ({ s with freeIx := s.freeIx + 2 + c.pages.length + 16777216 }).setChan ch c
  if pre then addSticky ch (attnBlocks (c.prof (c.dir a.handle.index).profile) a.tokens (start + a.tokens)) t else t

theorem layerStored_keepsSessions : KeepsSessions (s.chan ch) (layerStored ch a pre start new copies s) := by
  unfold layerStored
  extract_lets stored queued
  have hqueued : KeepsSessions (s.chan ch) queued :=
    (appendStored_keepsSessions _ _ _ _ _ _).trans (stored.queueEncodes_keepsSessions _ _ _)
  split
  · exact hqueued.trans (scorePages_keepsSessions _ _ _ _)
  · exact hqueued

/-- Nothing changes in the block but the layer's channel and the count of free values. -/
theorem layerDoneAt_frame : layerDoneAt ch a pre start new copies s =
    { s with chans := (layerDoneAt ch a pre start new copies s).chans, freeIx := (layerDoneAt ch a pre start new copies s).freeIx } := by
  cases pre <;> rfl

theorem layerDoneAt_chan_other {n : Nat} (h : n ≠ ch) : (layerDoneAt ch a pre start new copies s).chan n = s.chan n := by
  unfold layerDoneAt
  extract_lets c t
  have ht : t.chan n = s.chan n := State.setChan_chan_other _ _ _ _ h
  split
  · exact (addSticky_chan_other _ _ h).trans ht
  · exact ht

theorem layerDoneAt_keepsSessions : KeepsSessions (s.chan ch) ((layerDoneAt ch a pre start new copies s).chan ch) := by
  unfold layerDoneAt
  extract_lets c t
  have ht : KeepsSessions (s.chan ch) (t.chan ch) := by
    rw [show t.chan ch = c from State.setChan_chan_same _ _ _]
    exact layerStored_keepsSessions
  split
  · exact ht.trans (addSticky_keepsSessions _ _ _)
  · exact ht

theorem layerWrites_prefill : ∃ o, (layerWrites ch a true start new copies s).head? = some (a.oAddr, .bytes o) ∧
    (layerWrites ch a true start new copies s).length = if a.isPartial then 2 else 1 := by
  unfold layerWrites hostWrites
  cases a.isPartial <;> exact ⟨_, rfl, rfl⟩

variable (hop : opOf ring tag s = some op)
include hop

theorem layerEnds_stale {st : Status} (h : checkHandle a.handle ch op.fn s = some st) :
    appendUnitDone ch ring tag a pre start new copies p s =
      endOp op .sessionStale [] [] (s.setChan ch (((s.chan ch).unreserve new).unreserve copies)) := by
  unfold appendUnitDone
  simp only [hop, h]
  rfl

variable (hlive : checkHandle a.handle ch op.fn s = none)
include hlive

/-- That this end is one with ST_PAGE_LOST is the model's choice (log entry 100). -/
theorem layerEnds_lost (h : jobReady (s.chan ch) (hostJob a start new) = .lost) :
    appendUnitDone ch ring tag a true start new copies p s =
      endOp op .pageLost [] [] (s.setChan ch (appendCancel a start new copies (s.chan ch))) := by
  unfold appendUnitDone
  simp only [hop, hlive, h]
  rfl

variable (hready : pre = true → jobReady (s.chan ch) (hostJob a start new) ≠ .lost)
include hready

theorem layerEnds_poisoned : appendUnitDone ch ring tag a pre start new copies true s =
    endOp op .poisoned [] [] (s.setChan ch (appendCancel a start new copies (s.chan ch))) := by
  unfold appendUnitDone
  simp only [hop, hlive, notLost hready]
  rfl

theorem layerEnds_ok : appendUnitDone ch ring tag a pre start new copies false s =
    endOp op .ok [] (layerWrites ch a pre start new copies s) (layerDoneAt ch a pre start new copies s) := by
  unfold appendUnitDone
  simp only [hop, hlive, notLost hready]
  cases pre <;> rfl

end

/-! ### What an event leaves of the outstanding operations and of the rings (R389) -/

/-- The operations outstanding are the same, and each ring but for the count of its entries. -/
structure KeepsPosting (s t : State) : Prop where
  ops : t.ops = s.ops
  ring : ∀ n, ∃ k, t.ring n = { s.ring n with cqPosted := k }

section
variable {s t u : State}

theorem KeepsPosting.of_eq (hops : t.ops = s.ops) (hrings : t.rings = s.rings) : KeepsPosting s t :=
  ⟨hops, fun n => ⟨(s.ring n).cqPosted, by rw [State.ring, hrings]; rfl⟩⟩

theorem KeepsPosting.refl (s : State) : KeepsPosting s s := .of_eq rfl rfl

theorem KeepsPosting.trans (h : KeepsPosting s t) (g : KeepsPosting t u) : KeepsPosting s u := by
  refine ⟨g.ops.trans h.ops, fun n => ?_⟩
  obtain ⟨j, hj⟩ := h.ring n
  obtain ⟨k, hk⟩ := g.ring n
  exact ⟨k, by rw [hk, hj]⟩

theorem KeepsPosting.usable (h : KeepsPosting s t) (n : Nat) : (t.ring n).usable = (s.ring n).usable := by
  obtain ⟨k, hk⟩ := h.ring n
  rw [hk]
  rfl

theorem KeepsPosting.sqHead (h : KeepsPosting s t) (n : Nat) : (t.ring n).sqHead = (s.ring n).sqHead := by
  obtain ⟨k, hk⟩ := h.ring n
  rw [hk]

end

theorem setFn_keepsPosting (s : State) (n : Nat) (f : Fn) : KeepsPosting s (s.setFn n f) := .of_eq rfl rfl

theorem setChan_keepsPosting (s : State) (n : Nat) (c : Chan) : KeepsPosting s (s.setChan n c) := .of_eq rfl rfl

theorem trySend_keepsPosting (fn vec : Nat) (s : State) : KeepsPosting s (trySend fn vec s) := by
  unfold trySend
  extract_lets f v
  split
  · exact .refl s
  · split
    · exact .of_eq rfl rfl
    · exact .refl s

theorem onCause_keepsPosting (fn vec : Nat) (s : State) : KeepsPosting s (onCause fn vec s) :=
  (setFn_keepsPosting s _ _).trans (trySend_keepsPosting _ _ _)

theorem writeEvent_keepsPosting (fn : Nat) (h : HeldEvent) (s : State) : KeepsPosting s (writeEvent fn h s) := by
  unfold writeEvent
  extract_lets f r posted
  refine KeepsPosting.trans ?_ (onCause_keepsPosting _ _ _)
  refine ⟨rfl, fun n => ?_⟩
  by_cases hn : n = f.evRing
  · subst hn
    exact ⟨wrap64 (r.cqPosted + 1), State.setRing_ring_same _ _ _⟩
  · exact ⟨(s.ring n).cqPosted, State.setRing_ring_other _ _ _ _ hn⟩

theorem postEvent_keepsPosting (fn : Nat) (h : HeldEvent) (s : State) : KeepsPosting s (postEvent fn h s) := by
  unfold postEvent
  extract_lets f l
  split
  · exact setFn_keepsPosting _ _ _
  · split
    · exact writeEvent_keepsPosting _ _ _
    · split
      · exact setFn_keepsPosting _ _ _
      · exact setFn_keepsPosting _ _ _

theorem raiseEventN_keepsPosting (fn : Nat) (ev : Event) (src n : Nat) (s : State) : KeepsPosting s (raiseEventN fn ev src n s) := by
  unfold raiseEventN
  extract_lets h f
  split
  · split
    · exact (setFn_keepsPosting _ _ _).trans (postEvent_keepsPosting _ _ _)
    · exact setFn_keepsPosting _ _ _
  · exact postEvent_keepsPosting _ _ _

theorem memPoison_keepsPosting (ch tier addr n : Nat) (s : State) : KeepsPosting s (memPoison ch tier addr n s) := by
  unfold memPoison
  extract_lets c count due
  split
  · exact (setChan_keepsPosting _ _ _).trans (raiseEventN_keepsPosting _ _ _ _ _)
  · exact setChan_keepsPosting _ _ _

theorem HostSide.fid {s t : State} (h : HostSide s t) : t.fid = s.fid := by
  rw [h]
  rfl

theorem memPoison_fid (ch tier addr n : Nat) (s : State) : (memPoison ch tier addr n s).fid = s.fid := by
  unfold memPoison
  extract_lets c count due
  split
  · exact (raiseEventN_host _ _ _ _ _).fid
  · rfl

/-! ### The end of a unit (R186, R488) -/

/-- The state as a unit leaves the queue. -/
def unitLeft (ch unit : Nat) (s : State) : State := s.modChan ch (fun c => { c with bulk := c.bulk.filter (fun v => v.id != unit) })

/-- The state as a unit's input is found poisoned, or not: the granule at a free address of T1 or T2 is bad from then on. -/
def inputPoisoned (ch : Nat) (p : Bool) (s : State) : State :=
  if p then
    let tier := 1 + Config.openNat s.freeIx % 2
    let addr := Config.openNat (s.freeIx + 1)
    memPoison ch tier addr 1 (s.modChan ch (fun c => { c with bad := ⟨tier, addr / 16384⟩ :: c.bad })).advanceFree.advanceFree
  else s

section
variable {ch unit : Nat} {p : Bool} {s : State} {u : BulkUnit}

theorem exec_bulkUnitComplete (hup : s.up = true) : exec (.bulkUnitComplete ch unit p) s = .next (bulkUnitComplete ch unit p s) :=
  whenUp_next hup

theorem bulkUnitComplete_absent (h : runningUnit (s.chan ch) unit = none) : bulkUnitComplete ch unit p s = s := by
  unfold bulkUnitComplete
  rw [h]

variable (hrun : runningUnit (s.chan ch) unit = some u)
include hrun

theorem bulkUnitComplete_waits {i : Nat} {ds : List Nat} (h : unitWaits (s.chan ch) u.work = some (i, ds)) :
    bulkUnitComplete ch unit p s = startFetches ch i ds s := by
  unfold bulkUnitComplete
  rw [hrun]
  dsimp only
  rw [h]

theorem bulkUnitComplete_ends (h : unitWaits (s.chan ch) u.work = none) :
    bulkUnitComplete ch unit p s = dispatchChan ch (bulkWorkDone ch u.work p
      (inputPoisoned ch p (countMiss ch 0 0 (missed u.deadline s.now) (unitLeft ch unit s)))) := by
  unfold bulkUnitComplete
  rw [hrun]
  dsimp only
  rw [h]
  rfl

end

section
variable {ch unit : Nat} {p : Bool} {s : State}

theorem inputPoisoned_keepsPosting : KeepsPosting s (inputPoisoned ch p s) := by
  unfold inputPoisoned
  split
  · extract_lets tier addr
    refine KeepsPosting.trans ?_ (memPoison_keepsPosting _ _ _ _ _)
    exact .of_eq rfl rfl
  · exact .refl s

theorem inputPoisoned_fid : (inputPoisoned ch p s).fid = s.fid := by
  unfold inputPoisoned
  split
  · exact memPoison_fid _ _ _ _ _
  · rfl

theorem inputPoisoned_chan :
    ((inputPoisoned ch p s).chan ch).bulk = (s.chan ch).bulk ∧ ((inputPoisoned ch p s).chan ch).dirs = (s.chan ch).dirs := by
  unfold inputPoisoned
  split
  · extract_lets tier addr
    obtain ⟨k, at_, h⟩ := memPoison_chan ch tier addr 1
      (s.modChan ch (fun c => { c with bad := ⟨tier, addr / 16384⟩ :: c.bad })).advanceFree.advanceFree
    rw [h, State.advanceFree_chan, State.advanceFree_chan, State.modChan_chan_same]
    exact ⟨rfl, rfl⟩
  · exact ⟨rfl, rfl⟩

end

theorem checkHandle_congr {h : Handle} {ch fn : Nat} {s t : State} (hfid : t.fid = s.fid) (hdirs : (t.chan ch).dirs = (s.chan ch).dirs) :
    checkHandle h ch fn t = checkHandle h ch fn s := by
  unfold checkHandle
  rw [hfid, Chan.dir_congr hdirs]

/-- The one outstanding operation ends with its completion. -/
theorem endOp_alone {op : RunOp} {s : State} (hops : s.ops = [op]) (hdet : op.detached = false) (hcode : op.opcode ≠ 0x41)
    (hirq : op.hdr.irq = false) (hring : (s.ring op.hdr.ring).usable = true) (st : Status) (res : List Nat) :
    (endOp op st res [] s).ops = [] ∧ ∃ slot ph, Out.completion op.hdr.ring slot ph op.hdr.tag st op.opcode
      ((s.ring op.hdr.ring).sqHead % 4294967296) 0 res ∈ (endOp op st res [] s).out := by
  have hdropped : (dropOp op s).ops = [] := by simp [dropOp, hops]
  have hposted : (postCompletion op.hdr op.opcode st res [] (dropOp op s)).ops = [] :=
    List.sublist_nil.mp (hdropped ▸ (postCompletion_windsDown op.hdr op.opcode st res (dropOp op s)).ops)
  have hext : ¬(op.opcode = 0x41 ∧ st = .ok) := fun h => hcode h.1
  have husable (l : List Fetched) : ({ (dropOp op s).ring op.hdr.ring with accepted := l } : Ring).usable = true := hring
  rw [endOp_eq_complete hdet, complete_alone _ _ _ _ _ _ hposted fun _ => rfl]
  refine ⟨hposted, ?_⟩
  simp only [postCompletion, List.foldl_nil, husable, hext, hirq, Bool.false_eq_true, if_true, if_false]
  exact ⟨_, _, List.mem_cons_self⟩

section
variable {ch unit ring tag start : Nat} {a : AppendArgs} {new copies : Tbl Nat} {p : Bool} {s : State} {op : RunOp}

/-- An OP_KV_APPEND that is outstanding alone ends with one completion, its session in the state that it had. -/
theorem appendUnitDone_alone (hop : opOf ring tag s = some op) (hops : s.ops = [op]) (hdet : op.detached = false) (hcode : op.opcode = 0x20)
    (hirq : op.hdr.irq = false) (hring : (s.ring op.hdr.ring).usable = true) (hlive : checkHandle a.handle ch op.fn s = none) :
    let t := appendUnitDone ch ring tag a false start new copies p s
    t.ops = [] ∧ KeepsSessions (s.chan ch) (t.chan ch) ∧ ∃ slot ph, Out.completion op.hdr.ring slot ph op.hdr.tag
      (if p then Status.poisoned else Status.ok) 0x20 ((s.ring op.hdr.ring).sqHead % 4294967296) 0 [] ∈ t.out := by
  have hready : false = true → jobReady (s.chan ch) (hostJob a start new) ≠ .lost := fun h => absurd h Bool.false_ne_true
  have hends (st : Status) {w : State} (hw : w.ops = s.ops) (hrings : w.rings = s.rings) (hsess : KeepsSessions (s.chan ch) (w.chan ch)) :
      (endOp op st [] [] w).ops = [] ∧ KeepsSessions (s.chan ch) ((endOp op st [] [] w).chan ch) ∧
        ∃ slot ph, Out.completion op.hdr.ring slot ph op.hdr.tag st 0x20 ((s.ring op.hdr.ring).sqHead % 4294967296) 0 [] ∈
          (endOp op st [] [] w).out := by
    have hsame (n : Nat) : w.ring n = s.ring n := by rw [State.ring, hrings, State.ring]
    obtain ⟨hnone, slot, ph, hposted⟩ := endOp_alone (hw.trans hops) hdet (by rw [hcode]; decide) hirq (by rw [hsame]; exact hring) st []
    rw [hsame, hcode] at hposted
    exact ⟨hnone, by rwa [(endOp_host _ _ _ _ _).chan], slot, ph, hposted⟩
  intro t
  cases p with
  | true =>
    have ht : t = endOp op .poisoned [] [] (s.setChan ch (appendCancel a start new copies (s.chan ch))) := layerEnds_poisoned hop hlive hready
    rw [ht]
    exact hends .poisoned rfl rfl (by rw [State.setChan_chan_same]; exact appendCancel_keepsSessions _ _ _ _ _)
  | false =>
    have ht : t = endOp op .ok [] [] (layerDoneAt ch a false start new copies s) := layerEnds_ok hop hlive hready
    rw [ht]
    exact hends .ok rfl rfl layerDoneAt_keepsSessions

end

theorem dispatchChan_chan (ch : Nat) (s : State) : (dispatchChan ch s).chan ch = (s.chan ch).dispatch (bulkMinTiles ch s) :=
  State.modChan_chan_same _ _ _

theorem dispatchChan_unitIds (ch : Nat) (s : State) : ((dispatchChan ch s).chan ch).unitIds = (s.chan ch).unitIds := by
  rw [dispatchChan_chan, Chan.dispatch_unitIds]

theorem unitLeft_unitIds (ch unit : Nat) (s : State) : unit ∉ ((unitLeft ch unit s).chan ch).unitIds := by
  rw [unitLeft, State.modChan_chan_same]
  simp [Chan.unitIds]

/-- Settles O35: the end of a unit is that of its layer, on the state in which the unit has left the queue; a save and a restore move the
images of one unit. -/
theorem bulkUnitsEnd : Obligations.BulkUnitsEnd := by
  intro ch unit s hup c
  refine ⟨fun p hrun => ?absent, fun p u i ds hrun hwaits => ?waits, fun u hrun hwaits => ?ends,
    fun u ring tag a start new copies op p hrun hwork hop hops hdet hcode hdl hirq hring hlive _ => ?alone,
    fun ring tag a pre start new copies op p v hop => ?layer, ?save, ?restore⟩
  case absent => rw [exec_bulkUnitComplete hup, bulkUnitComplete_absent hrun]
  case waits => rw [exec_bulkUnitComplete hup, bulkUnitComplete_waits hrun hwaits]
  case ends =>
    rw [exec_bulkUnitComplete hup, bulkUnitComplete_ends hrun hwaits]
    rfl
  case alone =>
    have hwaits : unitWaits c u.work = none := by rw [hwork]; rfl
    let v := inputPoisoned ch p (unitLeft ch unit s)
    have hpost : KeepsPosting s v := (setChan_keepsPosting s ch _).trans inputPoisoned_keepsPosting
    have hbulk : (v.chan ch).bulk = ((unitLeft ch unit s).chan ch).bulk := inputPoisoned_chan.1
    have hdirs : (v.chan ch).dirs = c.dirs := inputPoisoned_chan.2.trans (by rw [unitLeft, State.modChan_chan_same])
    have hends : bulkUnitComplete ch unit p s = dispatchChan ch (appendUnitDone ch ring tag a false start new copies p v) := by
      rw [bulkUnitComplete_ends hrun hwaits, hwork, hdl]
      rfl
    obtain ⟨hnone, hsess, slot, ph, hposted⟩ := appendUnitDone_alone (ch := ch) (start := start) (a := a) (new := new) (copies := copies)
      (p := p) (s := v) ((opOf_congr hpost.ops _ _).trans hop) (hpost.ops.trans hops) hdet hcode hirq ((hpost.usable _).trans hring)
      ((checkHandle_congr (s := s) (t := v) inputPoisoned_fid hdirs).trans hlive)
    have hgone : unit ∉ ((appendUnitDone ch ring tag a false start new copies p v).chan ch).unitIds := by
      rw [Chan.unitIds, hsess.bulk, hbulk]
      exact unitLeft_unitIds ch unit s
    refine ⟨_, slot, ph, _, (exec_bulkUnitComplete hup).trans (congrArg _ hends), hnone, fun w hw hid => ?_, rfl, ?_, ?_⟩
    · refine hgone ?_
      rw [← dispatchChan_unitIds]
      exact List.mem_map.mpr ⟨w, hw, hid⟩
    · rw [← hpost.sqHead]
      exact hposted
    · rw [dispatchChan_chan, Chan.dir_congr (Chan.dispatch_tileSide _ _).dirs, hsess.state, Chan.dir_congr hdirs]
  case layer =>
    intro q job ends
    refine ⟨fun st hstale => layerEnds_stale hop hstale, fun hlive => ⟨fun hpre hlost => ?_, fun hready => ⟨fun hp => ?_, fun hp => ?_⟩⟩⟩
    · subst hpre
      exact layerEnds_lost hop hlive hlost
    · subst hp
      exact layerEnds_poisoned hop hlive hready
    · subst hp
      refine ⟨layerDoneAt ch a pre start new copies v, layerWrites ch a pre start new copies v, layerEnds_ok hop hlive hready, ?_, ?_,
        fun n hn => layerDoneAt_chan_other hn, layerDoneAt_keepsSessions.state _, fun hpre => ?_, fun hpre => ?_⟩
      · rw [layerDoneAt_frame]
      · rw [layerDoneAt_frame]
      · subst hpre
        rfl
      · subst hpre
        exact layerWrites_prefill
  case save =>
    refine ⟨_, exec_preemptSaveComplete hup, rfl, fun n hn => State.modChan_chan_other _ _ _ _ hn, ?_⟩
    rw [State.modChan_chan_same]
    refine ⟨saveDone_idle, fun u hu => ⟨fun v => saveDone_unit hu, fun v => saveDone_other hu, fun hnodup k tile slot htile hslot => ?_⟩⟩
    rw [saveDone_saves hu]
    exact tget_putImages_zip hnodup htile hslot _
  case restore =>
    refine ⟨_, exec_restoreComplete hup, rfl, fun n hn => State.modChan_chan_other _ _ _ _ hn, ?_⟩
    rw [State.modChan_chan_same]
    refine ⟨restoreDone_idle, fun u hu => ?_⟩
    rw [restoreDone_eq hu]
    exact ⟨rfl, fun slot hslot => tget_foldl_tdel hslot _,
      fun hnodup k tile slot htile hslot => tget_putImages_zip (v := (tget · c.saves)) hnodup hslot htile _⟩

end Sys2Proof.Machine
end

section
/-! The exchange of a layer: segments and their parts, the build of a lone sequence, the end of a layer on the tiles, the two timeouts, and the
cut of a part into segments (R140, R143 to R145, R158, R161, R180). The settlement of O33. -/

namespace Sys2Proof.Machine

open Sys2Proof

/-! ### Steps and slots under an update -/

theorem modAt_eq_modify {α : Type} (f : α → α) (n : Nat) (l : List α) : modAt f n l = l.modify n f := by
  induction l generalizing n with
  | nil => simp [modAt]
  | cons a r ih =>
    cases n with
    | zero => rfl
    | succ n => rw [modAt, ih, List.modify_succ_cons]

theorem Chan.stepOf_modStep (c : Chan) (num : Nat) {f : StepRec → StepRec} (hnum : ∀ st, (f st).num = st.num) :
    (c.modStep num f).stepOf num = (c.stepOf num).map f := by
  have hkey : ((fun st : StepRec => st.num == num) ∘ fun st => if st.num = num then f st else st) = fun st => st.num == num := by
    funext st
    by_cases h : st.num = num <;> simp [h, hnum]
  rw [Chan.stepOf, Chan.modStep, List.find?_map, hkey, Chan.stepOf]
  refine Option.map_congr fun st hst => if_pos ?_
  simpa using List.find?_some hst

theorem Chan.slotOf_modSlot (c : Chan) (num k : Nat) (f : Slot → Slot) : (c.modSlot num k f).slotOf num k = (c.slotOf num k).map f := by
  have hstep : (c.modSlot num k f).stepOf num = (c.stepOf num).map (fun st => { st with slots := modAt f k st.slots }) :=
    c.stepOf_modStep num fun _ => rfl
  rw [Chan.slotOf, hstep, Chan.slotOf]
  cases c.stepOf num with
  | none => rfl
  | some st => simp [modAt_eq_modify]

theorem Chan.slotOf_congr {c d : Chan} (h : d.steps = c.steps) (num k : Nat) : d.slotOf num k = c.slotOf num k := by
  rw [Chan.slotOf, Chan.stepOf, h, Chan.slotOf, Chan.stepOf]

/-! ### What a layer's storing leaves of a channel's steps -/

/-- The steps, the sessions' records and the profiles are the same. -/
structure KeepsSteps (c d : Chan) : Prop where
  steps : d.steps = c.steps
  dirs : d.dirs = c.dirs
  profiles : d.profiles = c.profiles

section
variable {c d e : Chan}

theorem KeepsSteps.refl (c : Chan) : KeepsSteps c c := ⟨rfl, rfl, rfl⟩

theorem KeepsSteps.trans (h : KeepsSteps c d) (g : KeepsSteps d e) : KeepsSteps c e :=
  ⟨g.steps.trans h.steps, g.dirs.trans h.dirs, g.profiles.trans h.profiles⟩

theorem KvSide.keepsSteps (h : KvSide c d) : KeepsSteps c d := ⟨by rw [h], h.dirs, by rw [h]⟩

theorem foldl_keepsSteps {α : Type} {f : Chan → α → Chan} {l : List α} (h : ∀ c a, KeepsSteps c (f c a)) : KeepsSteps c (l.foldl f c) :=
  List.foldlRecOn l f (.refl c) fun d hd a _ => hd.trans (h d a)

/-- The profile a session runs under is the same. -/
theorem KeepsSteps.prof (h : KeepsSteps c d) (i : Nat) : d.prof (d.dir i).profile = c.prof (c.dir i).profile := by
  rw [Chan.dir_congr h.dirs, Chan.prof, h.profiles, Chan.prof]

end

theorem Chan.copyLast_keepsSteps (c : Chan) (i e : Nat) (copies : Tbl Nat) : KeepsSteps c (c.copyLast i e copies) := by
  unfold Chan.copyLast
  split
  · rename_i d n _ _
    extract_lets p x q copied mapped
    split
    · split
      · exact (c.decodeInto_kvSide _ _ _ _).keepsSteps
      · exact .refl c
    · split
      · exact KeepsSteps.trans (d := mapped) ⟨rfl, rfl, rfl⟩ (mapped.unshare_kvSide d).keepsSteps
      · split
        · exact (c.freePage_kvSide n).keepsSteps
        · refine (KvSide.trans ?_ (Chan.decodeInto_kvSide _ _ _ _ _)).keepsSteps
          rfl
  · exact .refl c

theorem Chan.writeRows_kvSide (c : Chan) (i e pos : Nat) (ks vs : List (List Byte)) (new : Tbl Nat) :
    KvSide c (c.writeRows i e pos ks vs new) := by
  unfold Chan.writeRows
  extract_lets x off d?
  clear_value d?
  cases d? with
  | none => exact .refl c
  | some d => exact c.modPage_kvSide _ _

theorem Chan.writeLayer_kvSide (c : Chan) (i l pos : Nat) (ks vs : List (List Byte)) (new : Tbl Nat) :
    KvSide c (c.writeLayer i l pos ks vs new) :=
  foldl_kvSide fun _ _ => foldl_kvSide fun c _ => c.writeRows_kvSide _ _ _ _ _ _

theorem scorePages_kvSide (c : Chan) (j : AttnJob) (step ix : Nat) : KvSide c (scorePages c j step ix) :=
  foldl_kvSide fun c _ => c.modPage_kvSide _ _

theorem appendLayer_keepsSteps (x : Slot) (q : Ctrl) (c : Chan) : KeepsSteps c (appendLayer x q c) := by
  unfold appendLayer
  split
  · exact .refl c
  · exact (foldl_keepsSteps fun c e => c.copyLast_keepsSteps _ _ _).trans (Chan.writeLayer_kvSide _ _ _ _ _ _ _).keepsSteps

theorem addSticky_keepsSteps (ch n : Nat) (s : State) : KeepsSteps (s.chan ch) ((addSticky ch n s).chan ch) := by
  unfold addSticky
  rw [State.advanceFree_chan, State.modChan_chan_same]
  exact ⟨rfl, rfl, rfl⟩

/-! ### The cut of a part into segments (R140) -/

/-- Segment `k` of a cut that begins at an offset. -/
def segAt (g : Seg) (off : Nat) (bs : List Byte) (k : Nat) : Seg :=
  let d := (bs.drop (4080 * k)).take 4080
  { g with offset := off + 4080 * k, len := d.length, last := (bs.drop (4080 * (k + 1))).isEmpty, data := d }

/-- The rest of a cut is the cut of the rest. -/
theorem segAt_succ (g : Seg) (off : Nat) {bs : List Byte} (k : Nat) (h : 4080 ≤ bs.length) :
    segAt g (off + (bs.take 4080).length) (bs.drop 4080) k = segAt g off bs (k + 1) := by
  have hoff : off + (bs.take 4080).length + 4080 * k = off + 4080 * (k + 1) := by
    rw [List.length_take, Nat.min_eq_left h]
    omega
  simp only [segAt, hoff, List.drop_drop, Nat.mul_add, Nat.mul_one, Nat.add_comm 4080]

theorem cutSegs_getElem? (g : Seg) {n off : Nat} {bs : List Byte} (k : Nat) (h : bs.length ≤ 4080 * n) :
    (cutSegs g n off bs)[k]? = if 4080 * k < bs.length then some (segAt g off bs k) else none := by
  induction n generalizing off bs k with
  | zero => simp [cutSegs, List.eq_nil_of_length_eq_zero (Nat.le_zero.mp h)]
  | succ n ih =>
    cases bs with
    | nil => simp [cutSegs]
    | cons b r =>
      cases k with
      | zero => simp [cutSegs, segAt]
      | succ k =>
        have hrest : ((b :: r).drop 4080).length ≤ 4080 * n := by
          rw [List.length_drop]
          omega
        rw [cutSegs, List.getElem?_cons_succ, ih k hrest, List.length_drop]
        by_cases hk : 4080 * (k + 1) < (b :: r).length
        · rw [if_pos (by omega), if_pos hk, segAt_succ g off k (by omega)]
        · rw [if_neg (by omega), if_neg hk]

theorem cutSegs_data (g : Seg) {n off : Nat} {bs : List Byte} (h : bs.length ≤ 4080 * n) :
    (cutSegs g n off bs).flatMap (fun x => x.data) = bs := by
  induction n generalizing off bs with
  | zero => simp [cutSegs, List.eq_nil_of_length_eq_zero (Nat.le_zero.mp h)]
  | succ n ih =>
    cases bs with
    | nil => rfl
    | cons b r =>
      have hrest : ((b :: r).drop 4080).length ≤ 4080 * n := by
        rw [List.length_drop]
        omega
      rw [cutSegs, List.flatMap_cons, ih hrest, List.take_append_drop]

theorem cutSegs_length_eq_iff (g : Seg) {n off : Nat} {bs : List Byte} {k : Nat} (h : bs.length ≤ 4080 * n) (hk : 4080 * k < bs.length) :
    k + 1 = (cutSegs g n off bs).length ↔ bs.length ≤ 4080 * (k + 1) := by
  have hin : k < (cutSegs g n off bs).length := by
    by_contra hout
    simpa [cutSegs_getElem? g k h, hk] using List.getElem?_eq_none (Nat.le_of_not_lt hout)
  have hend : (cutSegs g n off bs).length ≤ k + 1 ↔ bs.length ≤ 4080 * (k + 1) := by
    rw [← List.getElem?_eq_none_iff, cutSegs_getElem? g (k + 1) h]
    simp
  omega

theorem pad16_length_mod (bs : List Byte) : (pad16 bs).length % 16 = 0 := by
  rw [pad16, List.length_append, List.length_replicate]
  omega

theorem pad16_take (bs : List Byte) : (pad16 bs).take bs.length = bs := List.take_left

section
variable (sample : Bool) (ch fid unit step slot at_ part rank : Nat) (st : Status) (bs : List Byte)

/-- The fields that the segments of a part share. -/
def partSeg (step slot at_ part rank : Nat) (st : Status) : Seg :=
  ⟨step % 4294967296, slot, at_, part, false, rank, 0, 0, statusCode st, []⟩

/-- The segments of a part. -/
def partSegs (step slot at_ part rank : Nat) (st : Status) (bs : List Byte) : List Seg :=
  cutSegs (partSeg step slot at_ part rank st) ((pad16 bs).length / 4080 + 1) 0 (pad16 bs)

/-- A part leaves as its segments, the first one first. -/
theorem emitPart_out (s : State) : (emitPart sample ch fid unit step slot at_ part rank st bs s).out =
    ((partSegs step slot at_ part rank st bs).map (fun g => Out.segment sample ch fid unit g)).reverse ++ s.out := by
  have hsent (gs : List Seg) (s : State) : (gs.foldl (fun s g => s.emit (.segment sample ch fid unit g)) s).out =
      (gs.map (fun g => Out.segment sample ch fid unit g)).reverse ++ s.out := by
    induction gs generalizing s with
    | nil => rfl
    | cons g r ih =>
      rw [List.foldl_cons, ih]
      simp [State.emit]
  exact hsent _ s

theorem emitPart_emits (s : State) : Emits s (emitPart sample ch fid unit step slot at_ part rank st bs s) :=
  foldl_emits fun s _ => emit_emits s _

theorem partSegs_data : (partSegs step slot at_ part rank st bs).flatMap (fun g => g.data) = pad16 bs :=
  cutSegs_data _ (by omega)

/-- Each segment of a part stands at its own multiple of 4,080 and is full, but for the last (R140). -/
theorem partSegs_segment {k : Nat} {g : Seg} (hg : (partSegs step slot at_ part rank st bs)[k]? = some g) :
    g.offset = 4080 * k ∧ g.len = g.data.length ∧ 1 ≤ g.len ∧ g.len ≤ 4080 ∧
      (g.last = true ↔ k + 1 = (partSegs step slot at_ part rank st bs).length) ∧ g.slot = slot ∧ g.layer = at_ ∧ g.part = part ∧
      g.rank = rank ∧ g.status = statusCode st := by
  have hfuel : (pad16 bs).length ≤ 4080 * ((pad16 bs).length / 4080 + 1) := by omega
  rw [partSegs, cutSegs_getElem? _ k hfuel, Option.ite_none_right_eq_some, Option.some.injEq] at hg
  obtain ⟨hk, rfl⟩ := hg
  have hlen : ((pad16 bs).drop (4080 * k)).length = (pad16 bs).length - 4080 * k := List.length_drop
  refine ⟨Nat.zero_add _, rfl, ?_, List.length_take_le _ _, ?_, rfl, rfl, rfl, rfl, rfl⟩
  · change 1 ≤ (((pad16 bs).drop (4080 * k)).take 4080).length
    rw [List.length_take]
    omega
  · rw [partSegs, cutSegs_length_eq_iff _ hfuel hk]
    simp [segAt]

end

/-! ### Segments reach their sequence (R143, R144, R158) -/

section
variable {p : Pkt} {g : Seg} {s : State} (ha : Arrives p s)
include ha

theorem exec_segAttn : exec (.segAttn p g) s = .next (if p.dstUnit = 8 then badPacket p.port s else takeSeg p.dstUnit p g s) :=
  (whenUp_next ha.1).trans (congrArg _ (arrive_next ha))

theorem exec_segSample : exec (.segSample p g) s = .next (if p.dstUnit = 8 then badPacket p.port s else takeSample p.dstUnit p g s) :=
  (whenUp_next ha.1).trans (congrArg _ (arrive_next ha))

/-- A segment for unit 8, the host port's, is a bad packet: only the channels' units take segments (R436, R440). -/
theorem exec_seg_host (h : p.dstUnit = 8) :
    exec (.segAttn p g) s = .next (badPacket p.port s) ∧ exec (.segSample p g) s = .next (badPacket p.port s) := by
  rw [exec_segAttn ha, exec_segSample ha, if_pos h, if_pos h]
  exact ⟨rfl, rfl⟩

theorem exec_segAttn_channel (h : p.dstUnit ≠ 8) : exec (.segAttn p g) s = .next (takeSeg p.dstUnit p g s) := by
  rw [exec_segAttn ha, if_neg h]

theorem exec_segSample_channel (h : p.dstUnit ≠ 8) : exec (.segSample p g) s = .next (takeSample p.dstUnit p g s) := by
  rw [exec_segSample ha, if_neg h]

end

section
variable {ch : Nat} {p : Pkt} {g : Seg} {s : State}

theorem takeSeg_absent (h : segSlot (s.chan ch) g.stepLo g.slot = none) : takeSeg ch p g s = discardSeg ch s := by
  rw [takeSeg]
  simp only [h]

theorem takeSample_absent (h : segSlot (s.chan ch) g.stepLo g.slot = none) : takeSample ch p g s = discardSeg ch s := by
  rw [takeSample]
  simp only [h]

variable {num : Nat} {x : Slot} (h : segSlot (s.chan ch) g.stepLo g.slot = some (num, x))
include h

theorem takeSeg_reserved (hpart : 6 ≤ g.part) : takeSeg ch p g s = protoFault ch num g.slot s := by
  have hshard : ¬(g.part = 4 ∨ g.part = 5) := by omega
  have hinput : 3 < g.part := by omega
  rw [takeSeg]
  simp only [h, hshard, hinput, if_true, if_false]

section
variable (hpart : g.part < 4)
include hpart

theorem takeSeg_input_bad (hbad : (addInput ((s.chan ch).prof ((s.chan ch).dir x.index).profile) x g).bind
      (takeCtrl ((s.chan ch).prof ((s.chan ch).dir x.index).profile)) = none) :
    takeSeg ch p g s = protoFault ch num g.slot s := by
  have hshard : ¬(g.part = 4 ∨ g.part = 5) := by omega
  have hinput : ¬3 < g.part := by omega
  rw [takeSeg]
  simp only [h, hshard, hinput, if_false, hbad]

theorem takeSeg_input {y : Slot} (hy : (addInput ((s.chan ch).prof ((s.chan ch).dir x.index).profile) x g).bind
      (takeCtrl ((s.chan ch).prof ((s.chan ch).dir x.index).profile)) = some y) :
    let u := s.modChan ch (fun c => c.modSlot num g.slot (fun _ => { y with requester := (p.srcFid, p.srcUnit) }))
    takeSeg ch p g s = if inputsDone ((s.chan ch).prof ((s.chan ch).dir x.index).profile) y then placeSlot ch num g.slot u else u := by
  have hshard : ¬(g.part = 4 ∨ g.part = 5) := by omega
  have hinput : ¬3 < g.part := by omega
  rw [takeSeg]
  simp only [h, hshard, hinput, if_false, hy]

end

section
variable (hpart : g.part = 4 ∨ g.part = 5)
include hpart

theorem takeSeg_shard_bad (hbad : addShard ((s.chan ch).prof ((s.chan ch).dir x.index).profile) x g = none) :
    takeSeg ch p g s = protoFault ch num g.slot s := by
  rw [takeSeg]
  simp only [h, hpart, if_true, hbad]

theorem takeSeg_shard {y : Slot} (hy : addShard ((s.chan ch).prof ((s.chan ch).dir x.index).profile) x g = some y) :
    takeSeg ch p g s = mergeSend ch num g.slot (s.modChan ch (fun c => c.modSlot num g.slot (fun _ => y))) := by
  rw [takeSeg]
  simp only [h, hpart, if_true, hy]

end

/-- Only LOGITS segments come in for sampling (R217). -/
theorem takeSample_other (hpart : g.part ≠ 1) : takeSample ch p g s = protoFault ch num g.slot s := by
  have hbad (size : Nat) : addLogits size x g = none := if_pos (.inr (.inl hpart))
  rw [takeSample]
  simp only [h, hbad]

end

/-! ### The build of a bucket (R161) -/

theorem wakeHeld_of_none {ch : Nat} {s : State} (h : slotsIn (s.chan ch) .held = []) : wakeHeld ch s = s := by
  rw [wakeHeld, h, List.foldl_nil]

/-- A build takes slots that stand in their steps. -/
theorem buildSlots_slotOf {c : Chan} {layer num k : Nat} {x : Slot} (h : (num, k, x) ∈ buildSlots c layer) : c.slotOf num k = some x := by
  have hall : (num, k, x) ∈ (slotsIn c .ready).filterMap (fun h => (c.slotOf h.1 h.2).map (fun x => (h.1, h.2, x))) := by
    unfold buildSlots at h
    extract_lets all here waiting at h
    split at h
    · exact (List.mem_filter.mp h).1
    · exact (List.mem_filter.mp (List.mem_filter.mp h).1).1
  obtain ⟨⟨a, b⟩, -, hab⟩ := List.mem_filterMap.mp hall
  obtain ⟨y, hy, heq⟩ := Option.map_eq_some_iff.mp hab
  obtain ⟨rfl, rfl, rfl⟩ := heq
  exact hy

theorem nameTiles_isSome (b : Nat) (t : Tbl Nat) (ts : List Nat) : (tget b (nameTiles t ts)).isSome = (tget b t).isSome := by
  induction t generalizing ts with
  | nil => rfl
  | cons e r ih =>
    obtain ⟨a, n⟩ := e
    by_cases hab : a = b
    · simp [nameTiles, tget, hab]
    · simp [nameTiles, tget, hab, ih]

theorem tget_foldl_tset_isSome {α : Type} (v : Nat → α) (l : List Nat) (t : Tbl α) {b : Nat} (h : b ∈ l ∨ (tget b t).isSome = true) :
    (tget b (l.foldl (fun t a => tset a (v a) t) t)).isSome = true := by
  induction l generalizing t with
  | nil => simpa using h
  | cons a r ih =>
    refine ih _ ?_
    by_cases hab : b = a
    · exact .inr (by rw [hab, tget_tset_same]; rfl)
    · rw [tget_tset_other _ _ _ _ hab]
      exact h.imp_left fun hb => (List.mem_cons.mp hb).resolve_left hab

theorem bucketOf_lt (n : Nat) : bucketOf n < 13 := by
  unfold bucketOf
  cases h : (List.range 13).find? (fun b => decide (n ≤ 256 * 2 ^ b)) with
  | none => decide
  | some b => exact List.mem_range.mp (List.mem_of_find?_eq_some h)

theorem slotCost_bucket_lt (c : Chan) (x : Slot) : (slotCost c x).1 < 13 := by
  unfold slotCost
  split
  · decide
  · exact bucketOf_lt _

/-- With one live bucket and a tile free, that bucket has tiles. -/
theorem apportion_lone {cost : Nat → Nat} {b tiles : Nat} (hb : b < 13) (hlive : 0 < cost b) (hother : ∀ a, a ≠ b → cost a = 0)
    (htiles : 0 < tiles) : (tget b (apportion cost tiles)).isSome = true := by
  have hmem : b ∈ (List.range 13).filter (fun a => decide (0 < cost a)) := by simpa using ⟨hb, hlive⟩
  have hsub : (List.range 13).filter (fun a => decide (0 < cost a)) ⊆ [b] := fun a ha => by
    rw [List.mem_singleton]
    by_contra hab
    simp [hother a hab] at ha
  have hone : ((List.range 13).filter (fun a => decide (0 < cost a))).length ≤ 1 :=
    ((List.nodup_range.filter _).subperm hsub).length_le
  unfold apportion
  extract_lets live spare total left more
  rw [if_neg (Nat.not_lt.mpr (hone.trans htiles))]
  exact tget_foldl_tset_isSome _ _ _ (.inl hmem)

/-- A lone ready sequence takes its place on the free tiles. -/
theorem buildLayer_lone {c : Chan} {layer num k : Nat} {x : Slot} (hlone : buildSlots c layer = [(num, k, x)]) (hfree : c.freeTiles ≠ []) :
    ∃ y, (buildLayer layer c).slotOf num k = some y ∧ y.phase = .tiles := by
  have hx : c.slotOf num k = some x := buildSlots_slotOf (hlone ▸ List.mem_singleton_self _)
  unfold buildLayer
  extract_lets bs xs cost tiles deal build used dealt
  have hxs : xs = [(num, k, slotCost c x)] := congrArg (List.map fun h => (h.1, h.2.1, slotCost c h.2.2)) hlone
  have hcost (b : Nat) : cost b = if (slotCost c x).1 = b then (slotCost c x).2 else 0 := by
    by_cases hb : (slotCost c x).1 = b <;> simp [cost, hxs, hb]
  have htiles : (slotCost c x).2 = 0 ∨ (tget (slotCost c x).1 deal).isSome = true := by
    refine (Nat.eq_zero_or_pos _).imp_right fun hpos => ?_
    rw [nameTiles_isSome]
    exact apportion_lone (slotCost_bucket_lt c x) (by rwa [hcost, if_pos rfl]) (fun a ha => by rw [hcost, if_neg ha.symm])
      (List.length_pos_of_ne_nil hfree)
  rw [if_neg (by simp [hxs, tiles, hfree])]
  refine ⟨{ x with phase := .tiles, build, bucket := (slotCost c x).1 }, ?_, rfl⟩
  have hdealt : dealt.slotOf num k = some { x with phase := .tiles, build, bucket := (slotCost c x).1 } := by
    simp only [dealt, hxs, List.foldl_cons, List.foldl_nil]
    rw [Chan.slotOf_modSlot, hx, Option.map_some, if_pos htiles]
  clear_value dealt used
  exact (Chan.slotOf_congr rfl _ _).trans hdealt

/-! ### The end of a layer on the tiles (R143, R145) -/

section
variable {ch num k : Nat} {x : Slot} {q : Ctrl} {s : State}

theorem layerSent_next (hx : (s.chan ch).slotOf num k = some x)
    (hlayers : x.layer + 1 < ((s.chan ch).prof ((s.chan ch).dir x.index).profile).layers) :
    layerSent ch num k s = s.modChan ch (fun c => c.modSlot num k Slot.nextLayer) := by
  rw [layerSent]
  simp only [hx, if_pos hlayers]

/-- A plain layer that ran sends its O part out of a state in which no more has left the block, and that has the steps and profiles as
before. -/
theorem layerRan_plain (hx : (s.chan ch).slotOf num k = some x) (hmerges : q.merges = false) (hpart : q.isPartial = false) :
    ∃ u y o, layerRan ch num k x q s = layerSent ch num k (sendPart ch num k x 4 o u) ∧ u.out = s.out ∧ (u.chan ch).slotOf num k = some y ∧
      y.layer = x.layer ∧ y.index = x.index ∧
      ∀ i, (u.chan ch).prof ((u.chan ch).dir i).profile = (s.chan ch).prof ((s.chan ch).dir i).profile := by
  unfold layerRan
  extract_lets stored j o lse reads scored marked u
  have hscored : KeepsSteps (s.chan ch) scored :=
    (appendLayer_keepsSteps x q _).trans (scorePages_kvSide stored j num _).keepsSteps
  have hmarked : marked.slotOf num k = some _ := (scored.slotOf_modSlot num k _).trans (by rw [Chan.slotOf_congr hscored.steps, hx]; rfl)
  have hu : KeepsSteps marked (u.chan ch) := by
    have hsticky := addSticky_keepsSteps ch (attnBlocks (marked.prof (marked.dir x.index).profile) j.t j.localLen)
      (({ s with freeIx := s.freeIx + 2 + 16777216 } : State).setChan ch marked)
    rwa [State.setChan_chan_same] at hsticky
  refine ⟨u, _, o, ?_, rfl, (Chan.slotOf_congr hu.steps _ _).trans hmarked, rfl, rfl, fun i => ?_⟩
  · simp only [hmerges, hpart, Bool.false_eq_true, if_false, Bool.false_and]
    rfl
  · exact (hu.prof i).trans (hscored.prof i)

/-- The next layer of a plain sequence follows: its O part has left, and its slot waits for inputs. -/
theorem layerRan_next (hx : (s.chan ch).slotOf num k = some x) (hmerges : q.merges = false) (hpart : q.isPartial = false)
    (hlayers : x.layer + 1 < ((s.chan ch).prof ((s.chan ch).dir x.index).profile).layers) :
    ∃ y o, ((layerRan ch num k x q s).chan ch).slotOf num k = some y ∧ y.layer = x.layer + 1 ∧ y.phase = .inputs ∧
      (layerRan ch num k x q s).out = (sendPart ch num k x 4 o s).out := by
  obtain ⟨u, y, o, hran, hout, hy, hlayer, hindex, hprof⟩ := layerRan_plain hx hmerges hpart
  have hchan : (sendPart ch num k x 4 o u).chan ch = u.chan ch := (emitPart_emits ..).host.chan ch
  have hsent : layerSent ch num k (sendPart ch num k x 4 o u) = _ :=
    layerSent_next (x := y) (by rw [hchan, hy]) (by rw [hchan, hprof, hlayer, hindex]; exact hlayers)
  refine ⟨y.nextLayer, o, ?_, congrArg (· + 1) hlayer, rfl, ?_⟩
  · rw [hran, hsent, State.modChan_chan_same, Chan.slotOf_modSlot, hchan, hy, Option.map_some]
  · rw [hran, hsent, State.modChan_out, sendPart, emitPart_out, hout, sendPart, emitPart_out]

variable (hup : s.up = true)
include hup

theorem exec_bucketBuild (layer : Nat) : exec (.bucketBuild ch layer) s = .next ((wakeHeld ch s).modChan ch (buildLayer layer)) :=
  whenUp_next (f := fun s => (wakeHeld ch s).modChan ch (buildLayer layer)) hup

/-- No layer of the slot is on the tiles. -/
theorem exec_attnLayerComplete_idle (hidle : ∀ x, (s.chan ch).slotOf num k = some x → x.phase ≠ .tiles ∨ x.ctrl = none) :
    exec (.attnLayerComplete ch num k) s = .next s := by
  change execAttnLayerComplete ch num k s = _
  rw [execAttnLayerComplete, whenUp_next hup]
  congr 1
  cases hx : (s.chan ch).slotOf num k with
  | none => rfl
  | some x =>
    dsimp only
    split
    · rename_i hphase hctrl
      rcases hidle x hx with h | h
      · exact absurd hphase h
      · rw [hctrl] at h
        cases h
    · rfl

theorem exec_attnLayerComplete (hx : (s.chan ch).slotOf num k = some x) (hphase : x.phase = .tiles) (hctrl : x.ctrl = some q) :
    exec (.attnLayerComplete ch num k) s = .next ((layerRan ch num k x q s).modChan ch dropBuilds) := by
  change execAttnLayerComplete ch num k s = _
  rw [execAttnLayerComplete, whenUp_next hup]
  simp only [hx, hphase, hctrl]

/-! ### The two timeouts (R158, R180) -/

theorem exec_layerTimeout {st : StepRec} (hst : (s.chan ch).stepOf num = some st) (hx : (s.chan ch).slotOf num k = some x) :
    exec (.layerTimeout ch num k) s = .next (if st.published ∧ (x.phase = .inputs ∨ x.phase = .logits)
      then endSeq ch num k .accelTimeout none true s else s) := by
  change execLayerTimeout ch num k s = _
  rw [execLayerTimeout, whenUp_next hup]
  simp only [hst, hx, Slot.owed, Bool.and_eq_true, Bool.or_eq_true, beq_iff_eq]

theorem exec_mergeTimeout (hx : (s.chan ch).slotOf num k = some x) :
    exec (.mergeTimeout ch num k) s = .next (if x.phase = .merge then endSeq ch num k .peerUnreachable none true s else s) := by
  change execMergeTimeout ch num k s = _
  rw [execMergeTimeout, whenUp_next hup]
  simp only [hx]

theorem exec_timeouts_absent (hx : (s.chan ch).slotOf num k = none) :
    exec (.layerTimeout ch num k) s = .next s ∧ exec (.mergeTimeout ch num k) s = .next s := by
  change execLayerTimeout ch num k s = _ ∧ execMergeTimeout ch num k s = _
  rw [execLayerTimeout, execMergeTimeout, whenUp_next hup, whenUp_next hup]
  cases hst : (s.chan ch).stepOf num <;> simp only [hx, and_self]

end

/-- Settles O33: segments by the case of their part, the build by the one bucket a lone sequence leaves live, a plain layer by its one part and
the step it keeps, and the cut of a part by the place of its segments. That a segment for no current sequence is dropped is log entry 62. -/
theorem sequencesRunTheirLayers : Obligations.SequencesRunTheirLayers := by
  intro s hup
  refine ⟨fun p g ha => ⟨exec_seg_host ha, fun hch hnone => ?absent, fun num x hch hx => ?current⟩,
    fun ch layer => ⟨exec_bucketBuild hup layer, fun num k x hheld hlone hfree => ?build⟩,
    fun ch num k hidle => exec_attnLayerComplete_idle hup hidle, fun ch num k x q hx hphase hctrl => ?layer,
    fun ch num k st x hst hx => ⟨exec_layerTimeout hup hst hx, exec_mergeTimeout hup hx⟩,
    fun ch num k hx => exec_timeouts_absent hup hx, fun sample ch fid unit step slot at_ part rank st bs => ?part⟩
  case absent =>
    rw [exec_segAttn_channel ha hch, exec_segSample_channel ha hch, takeSeg_absent hnone, takeSample_absent hnone]
    exact ⟨rfl, rfl⟩
  case current =>
    intro c pr fault
    rw [exec_segAttn_channel ha hch, exec_segSample_channel ha hch]
    exact ⟨fun hpart => congrArg _ (takeSeg_reserved hx hpart), fun hpart hbad => congrArg _ (takeSeg_input_bad hx hpart hbad),
      fun y hpart hy => congrArg _ (takeSeg_input hx hpart hy), fun hpart hbad => congrArg _ (takeSeg_shard_bad hx hpart hbad),
      fun y hpart hy => congrArg _ (takeSeg_shard hx hpart hy), fun hpart => congrArg _ (takeSample_other hx hpart)⟩
  case build =>
    rw [exec_bucketBuild hup, wakeHeld_of_none hheld]
    refine ⟨_, rfl, ?_, rfl, fun n hn => State.modChan_chan_other _ _ _ _ hn⟩
    rw [State.modChan_chan_same]
    exact buildLayer_lone hlone hfree
  case layer =>
    refine ⟨exec_attnLayerComplete hup hx hphase hctrl, fun hmerges hpart hlayers => ?_⟩
    obtain ⟨y, o, hy, hlayer, hinputs, hout⟩ := layerRan_next hx hmerges hpart hlayers
    refine ⟨_, y, o, exec_attnLayerComplete hup hx hphase hctrl, ?_, hlayer, hinputs, hout⟩
    rw [State.modChan_chan_same]
    exact (Chan.slotOf_congr rfl num k).trans hy
  case part =>
    exact ⟨partSegs step slot at_ part rank st bs, emitPart_out .., partSegs_data .., pad16_length_mod bs, pad16_take bs,
      fun k g hg => partSegs_segment _ _ _ _ _ _ _ hg⟩

end Sys2Proof.Machine
end

section
/-! What an instant with no command changes: what the ports send and their gates count, the timer, and the counters of time (R169, R401, R419,
R431, R518). The settlement of O2. -/

namespace Sys2Proof.Machine

open Sys2Proof

/-! ### What the ports send (R416, R431, R432) -/

/-- Two states differ at most in their ports, their gates and what has left the block. -/
def PortSide (s t : State) : Prop := t = { s with ports := t.ports, gates := t.gates, out := t.out }

theorem PortSide.refl (s : State) : PortSide s s := rfl

theorem PortSide.trans {s t u : State} (h : PortSide s t) (g : PortSide t u) : PortSide s u := by
  unfold PortSide at *
  rw [g, h]

theorem foldl_portSide {α : Type} {f : State → α → State} {l : List α} {s : State} (h : ∀ s a, PortSide s (f s a)) :
    PortSide s (l.foldl f s) :=
  List.foldlRecOn l f (.refl s) fun t ht a _ => ht.trans (h t a)

theorem setPort_portSide (s : State) (n : Nat) (p : Port) : PortSide s (s.setPort n p) := rfl

theorem setGate_portSide (s : State) (n : Nat) (g : Gate) : PortSide s (s.setGate n g) := rfl

theorem emit_portSide (s : State) (o : Out) : PortSide s (s.emit o) := rfl

theorem sendFlits_portSide (port vc : Nat) (sop : Bool) (bodies : List (List Byte)) (s : State) :
    PortSide s (sendFlits port vc sop bodies s) := by
  induction bodies generalizing sop s with
  | nil => exact .refl s
  | cons b bs ih => exact ((setPort_portSide s _ _).trans (emit_portSide _ _)).trans (ih _ _)

theorem sendNext_portSide (port : Nat) (s : State) (vc : Nat) : PortSide s (sendNext port s vc) := by
  unfold sendNext
  extract_lets p
  split
  · exact .refl s
  · split
    extract_lets k ps bodies f begins
    split
    · refine .trans ?_ (sendFlits_portSide _ _ _ _ _)
      refine .trans ?_ (setPort_portSide _ _ _)
      split
      · exact setGate_portSide s _ _
      · exact .refl s
    · exact setPort_portSide s _ _

theorem transmit_portSide (s : State) : PortSide s (transmit s) :=
  foldl_portSide fun _ _ => foldl_portSide fun _ _ => sendNext_portSide _ _ _

/-! ### Channels with nothing that waits for time to pass (R335, R485) -/

theorem drainNext_of_none {n : Nat} {s : State} (h : (s.chan n).switch = none) : drainNext n s = s := by rw [drainNext, h]

theorem poolDrain_of_nil {n : Nat} {s : State} (h : (s.chan n).pool.backlog = []) (k : Nat) : poolDrain k n s = s := by
  cases k with
  | zero => rfl
  | succ k => rw [poolDrain, h]

/-- No role switch is open and no pool request waits for room. -/
def Quiet (s : State) : Prop := ∀ n < 8, (s.chan n).switch = none ∧ (s.chan n).pool.backlog = []

theorem PortSide.quiet {s t : State} (h : PortSide s t) (hs : Quiet s) : Quiet t := by
  rw [h]
  exact hs

theorem foldl_drain_of_quiet {s : State} (h : Quiet s) : (List.range 8).foldl (fun s n => drainNext n (poolDrain 256 n s)) s = s := by
  refine List.foldlRecOn (motive := fun t => t = s) _ _ rfl fun t ht n hn => ?_
  obtain ⟨hswitch, hbacklog⟩ := h n (List.mem_range.mp hn)
  rw [ht, poolDrain_of_nil hbacklog, drainNext_of_none hswitch]

/-! ### An instant (R169) -/

section
variable {s : State}

/-- While the block is up PORST_N is high and its clocks run. -/
theorem State.up_powered (h : s.up = true) : s.power.porstN = true ∧ s.power.clocks = true := by
  simp only [State.up, Bool.and_eq_true] at h
  exact h.1.1

theorem tick_stopped (h : (s.power.porstN && s.power.clocks && s.power.pllLock) = false) : tick s = s := by
  have hidle : ¬(s.up && s.power.pllLock) = true := fun hup => by
    obtain ⟨hup, hlock⟩ := Bool.and_eq_true_iff.mp hup
    obtain ⟨hporst, hclocks⟩ := s.up_powered hup
    simp [hporst, hclocks, hlock] at h
  rw [tick, if_neg hidle, tickTimer, h, if_neg Bool.false_ne_true]

theorem tick_down (h : (s.power.porstN && s.power.clocks && s.power.pllLock) = true) (hup : s.up = false) :
    tick s = { s with now := wrap64 (s.now + 1) } := by
  have hidle : ¬(s.up && s.power.pllLock) = true := by simp [hup]
  rw [tick, if_neg hidle, tickTimer, if_pos h]

/-- What an instant makes of an up block once its ports have sent. -/
def instant (now : Nat) (s : State) : State :=
  { s with now := wrap64 (now + 1), comps := s.comps.map (fun e => (e.1, tickComp s e.2)), mgmt := { s.mgmt with notifies := 0 }
           power := { s.power with throttleNs := if dutyOf s < 64 then wrap64 (s.power.throttleNs + 1) else s.power.throttleNs } }

theorem tick_up (hup : s.up = true) (hlock : s.power.pllLock = true) (hquiet : Quiet s) : tick s = instant s.now (transmit s) := by
  obtain ⟨hporst, hclocks⟩ := s.up_powered hup
  have htimer : tickTimer s = { s with now := wrap64 (s.now + 1) } := if_pos (by rw [hporst, hclocks, hlock]; rfl)
  rw [tick, if_pos (by rw [hup, hlock]; rfl), foldl_drain_of_quiet ((transmit_portSide s).quiet hquiet), htimer]
  rfl

theorem PortSide.instant_eq {t : State} (h : PortSide s t) (now : Nat) :
    instant now t = { s with
      ports := t.ports, gates := t.gates, out := t.out, comps := (instant now t).comps, now := wrap64 (now + 1)
      mgmt := { s.mgmt with notifies := 0 }
      power := { s.power with throttleNs := if dutyOf s < 64 then wrap64 (s.power.throttleNs + 1) else s.power.throttleNs } } := by
  rw [h]
  rfl

end

/-- Settles O2: with no clock nothing counts; while the block is not up the timer alone does; and on a quiet block an instant is what the ports
send, which leaves all but the ports, the gates and what has left the block, then the counters of time. -/
theorem emptyQueueLetsTimePass : Obligations.EmptyQueueLetsTimePass := by
  intro s hempty
  have hstep : step s = .next (tick s) := by rw [step, hempty]
  rw [hstep]
  refine ⟨fun hstop => ?_, fun hclock hdown => ?_, fun hup hlock hquiet => ?_⟩
  · rw [tick_stopped hstop]
  · rw [tick_down hclock hdown]
  · refine ⟨_, congrArg _ (tick_up hup hlock hquiet), rfl, ?_, ?_⟩
    · rw [(transmit_portSide s).instant_eq]
    · rw [(transmit_portSide s).instant_eq]

end Sys2Proof.Machine
end

section
/-! The fixing of work lists: what the fetches and the dispatch point of a fixed step leave, lists of one sequence in TABLE and FIXED mode, and the
commands that fix (R164, R171, R172, R179). The settlement of O31. -/

namespace Sys2Proof.Machine

open Sys2Proof

/-! ### What fetches and a dispatch point leave (R97, R186) -/

/-- The outstanding operations are the same, and a channel differs at most where its pages and runs stand. -/
structure FetchSide (ch : Nat) (s t : State) : Prop where
  ops : t.ops = s.ops
  kv : KvSide (s.chan ch) (t.chan ch)

section
variable {ch : Nat} {s t u : State}

theorem FetchSide.refl : FetchSide ch s s := ⟨rfl, .refl _⟩

theorem FetchSide.trans (h : FetchSide ch s t) (g : FetchSide ch t u) : FetchSide ch s u := ⟨g.ops.trans h.ops, h.kv.trans g.kv⟩

theorem foldl_fetchSide {α : Type} {f : State → α → State} {l : List α} (h : ∀ s a, FetchSide ch s (f s a)) : FetchSide ch s (l.foldl f s) :=
  List.foldlRecOn l f .refl fun t ht a _ => ht.trans (h t a)

theorem setChan_fetchSide {c : Chan} (h : KvSide (s.chan ch) c) : FetchSide ch s (s.setChan ch c) :=
  ⟨rfl, by rwa [State.setChan_chan_same]⟩

end

theorem ReqSide.ops {s t : State} (h : ReqSide s t) : t.ops = s.ops := by rw [h]

theorem Chan.withFails_kvSide (c f : Chan) : KvSide c (c.withFails f) := rfl

theorem startFetch_fetchSide (ch i d : Nat) (s : State) : FetchSide ch s (startFetch ch i d s) := by
  have htake := (s.chan ch).takePlaced_kvSide (wmOf ch s) ((s.chan ch).placement i) (classFor ((s.chan ch).page d).len)
  unfold startFetch
  extract_lets c p
  split
  · exact .refl
  · split
    · exact setChan_fetchSide (c.withFails_kvSide _)
    · rename_i l c' htaken
      rw [htaken] at htake
      split
      split
      · exact .refl
      · rename_i t hsent
        have hreq := sendReq_req hsent
        refine ⟨hreq.ops, ?_⟩
        rw [State.setChan_chan_same]
        exact htake.trans (c'.modPage_kvSide d _)

theorem startFetches_fetchSide (ch i : Nat) (ds : List Nat) (s : State) : FetchSide ch s (startFetches ch i ds s) :=
  foldl_fetchSide fun _ _ => startFetch_fetchSide _ _ _ _

/-- A channel with one more step, which has its next number; the sessions' records are the same. -/
structure GainsStep (c d : Chan) (st : StepRec) : Prop where
  nextStep : d.nextStep = c.nextStep + 1
  steps : d.steps = c.steps ++ [st]
  dirs : d.dirs = c.dirs

section
variable {c d e : Chan} {st : StepRec}

theorem GainsStep.kvSide (h : GainsStep c d st) (g : KvSide d e) : GainsStep c e st :=
  ⟨by rw [g]; exact h.nextStep, by rw [g]; exact h.steps, g.dirs.trans h.dirs⟩

theorem GainsStep.tileSide (h : GainsStep c d st) (g : TileSide d e) : GainsStep c e st :=
  ⟨by rw [g]; exact h.nextStep, by rw [g]; exact h.steps, g.dirs.trans h.dirs⟩

end

/-! ### A step that starts (R165, R182, R186, R233) -/

theorem fetchMask_frame (i : Nat) (c : Chan) : fetchMask i c = { c with maskCache := (fetchMask i c).maskCache } := by
  unfold fetchMask
  extract_lets e
  split <;> rfl

theorem GainsStep.fetchMask {c d : Chan} {st : StepRec} (h : GainsStep c d st) (i : Nat) : GainsStep c (fetchMask i d) st := by
  rw [fetchMask_frame]
  exact ⟨h.nextStep, h.steps, h.dirs⟩

/-- A channel with a list fixed as its next step, and the mask blocks that its slots sample with at hand. -/
def fixedStep (fixed : Bool) (dl : Option Nat) (slots : List Slot) (now : Nat) (c : Chan) : Chan :=
  slots.foldl (fun c x => if x.samples then fetchMask x.index c else c)
    { c with steps := c.steps ++ [⟨c.nextStep, fixed, dl, slots, false, false, false, none, now⟩], nextStep := c.nextStep + 1 }

theorem fixedStep_gains (fixed : Bool) (dl : Option Nat) (slots : List Slot) (now : Nat) (c : Chan) :
    GainsStep c (fixedStep fixed dl slots now c) ⟨c.nextStep, fixed, dl, slots, false, false, false, none, now⟩ := by
  refine List.foldlRecOn (motive := fun d => GainsStep c d ⟨c.nextStep, fixed, dl, slots, false, false, false, none, now⟩) slots _
    ⟨rfl, rfl, rfl⟩ fun d hd x _ => ?_
  split
  · exact hd.fetchMask _
  · exact hd

section
variable {ch : Nat} {s : State}

theorem startStep_eq (fixed : Bool) (dl : Option Nat) (slots : List Slot) : startStep ch fixed dl slots s =
    dispatchChan ch (slots.foldl (fun s x => startFetches ch x.index (stepSpilled (s.chan ch) x.index) s)
      (s.setChan ch (fixedStep fixed dl slots s.now (s.chan ch)))) := rfl

theorem startStep_gains (fixed : Bool) (dl : Option Nat) (slots : List Slot) :
    (startStep ch fixed dl slots s).ops = s.ops ∧
      GainsStep (s.chan ch) ((startStep ch fixed dl slots s).chan ch)
        ⟨(s.chan ch).nextStep, fixed, dl, slots, false, false, false, none, s.now⟩ := by
  have hfetched := foldl_fetchSide (ch := ch) (s := s.setChan ch (fixedStep fixed dl slots s.now (s.chan ch))) (l := slots)
    fun s x => startFetches_fetchSide ch x.index (stepSpilled (s.chan ch) x.index) s
  have hkv := hfetched.kv
  rw [State.setChan_chan_same] at hkv
  rw [startStep_eq]
  refine ⟨hfetched.ops, ?_⟩
  rw [dispatchChan_chan]
  exact ((fixedStep_gains _ _ _ _ _).kvSide hkv).tileSide (Chan.dispatch_tileSide _ _)

/-! ### Listing one session (R81, R172, R174) -/

theorem setAsq_dir (c : Chan) (t : Tbl Asq) (i : Nat) : Chan.dir { c with asq := t } i = c.dir i := rfl

theorem listSession_runs {num t driver : Nat} {h : Handle} {w : Wm} {c c' : Chan} {x : Slot}
    (hlist : listSession num t driver h w c = .ok (x, c')) : (c'.dir h.index).state = .running := by
  unfold listSession at hlist
  dsimp only at hlist
  split at hlist
  · cases hlist
  · split at hlist
    · cases hlist
    · cases hlist
      rw [setAsq_dir, Chan.modDir_dir_same]

theorem kvSpaceEvent_zero (ch : Nat) (s : State) : kvSpaceEvent ch 0 s = s := if_pos rfl

/-! ### TABLE mode (R171, R172) -/

/-- One candidate of an empty list joins it. -/
theorem buildOne_joins {subs : List Nat} {q : Asq} {x : Slot} {c' : Chan} {left : Nat} (hcand : (s.chan ch).isCandidate q.handle.index = true)
    (hseqs : 0 < stepSeqs ch s) (hleft : 0 < left)
    (hfits : ((s.chan ch).dir q.handle.index).kvLen + min (min ((s.chan ch).pendingOf q.handle.index) 2048) left ≤
      ((s.chan ch).prof ((s.chan ch).dir q.handle.index).profile).maxPositions)
    (hlist : listSession (s.chan ch).nextStep (min (min ((s.chan ch).pendingOf q.handle.index) 2048) left) (chooseDriver subs (some q) [])
      q.handle (wmOf ch s) (s.chan ch) = .ok (x, c')) :
    buildOne ch subs q ⟨s, [], left, 0⟩ =
      ⟨s.setChan ch c', [x], left - min (min ((s.chan ch).pendingOf q.handle.index) 2048) left, 0⟩ := by
  have htaken : ¬(([] : List Slot).length = stepSeqs ch s ∨ left = 0 ∨ (!(s.chan ch).isCandidate q.handle.index) = true) := by
    simp only [List.length_nil, hcand, Bool.not_true, Bool.false_eq_true, or_false]
    omega
  unfold buildOne
  dsimp only
  rw [if_neg htaken, if_neg (Nat.not_lt.mpr hfits), hlist]
  rfl

theorem buildList_one {q : Asq} {x : Slot} {c' : Chan} {left : Nat} (hone : (s.chan ch).candidates = [q])
    (hbuilt : buildOne ch (enabledSubs ch s) q ⟨s, [], stepTokens ch s, 0⟩ = ⟨s.setChan ch c', [x], left, 0⟩) :
    buildList ch s = startStep ch false (leastDeadline [x.deadline]) [x] (s.setChan ch c') := by
  unfold buildList
  dsimp only
  rw [hone, List.foldl_cons, List.foldl_nil, hbuilt, kvSpaceEvent_zero]
  rfl

/-! ### FIXED mode (R179) -/

/-- The OP_STEP that is fixed waits for its step, of a list of one; the other operations stay. -/
def beginStep (ch num : Nat) (op : RunOp) (a : StepArgs) (o : RunOp) : RunOp :=
  if o = op then { o with begun := true, kind := .step ch num a.resultAddr [(0, 0, 0)] } else o

section
variable {op : RunOp} {a : StepArgs} {e : StepEntry}

theorem fixOne_refused {fn : Nat} {st : Status} (h : checkHandle e.handle ch fn s = some st) :
    fixOne ch fn e ⟨s, [], [], [], 0⟩ = ⟨s, [], [(statusCode st, 0xFFFF, 0)], [], 0⟩ := by
  unfold fixOne
  dsimp only
  rw [h]
  rfl

theorem fixOne_joins {fn : Nat} {x : Slot} {c' : Chan} (hcheck : checkHandle e.handle ch fn s = none)
    (hstate : ((s.chan ch).dir e.handle.index).state = .runnable) (htokens : e.tokens = min ((s.chan ch).pendingOf e.handle.index) 2048)
    (hsome : e.tokens ≠ 0)
    (hfits : ((s.chan ch).dir e.handle.index).kvLen + e.tokens ≤ ((s.chan ch).prof ((s.chan ch).dir e.handle.index).profile).maxPositions)
    (hlist : listSession (s.chan ch).nextStep e.tokens e.driver e.handle (wmOf ch s) (s.chan ch) = .ok (x, c')) :
    fixOne ch fn e ⟨s, [], [], [], 0⟩ = ⟨s.setChan ch c', [x], [(0, 0, 0)], [e.handle], 0⟩ := by
  unfold fixOne
  dsimp only
  rw [hcheck]
  dsimp only
  rw [if_neg (by simp), if_neg (not_not.mpr hstate), if_neg (by simp only [not_or, not_not]; exact ⟨htokens, hsome⟩),
    if_neg (Nat.not_lt.mpr hfits), hlist]
  rfl

variable (hone : a.entries = [e])
include hone

theorem fixStep_refused {st : Status} (h : checkHandle e.handle ch op.fn s = some st) :
    fixStep ch op a s = endOp op .ok [0] [(a.resultAddr, .words [statusCode st + 0xFFFF * 65536])] s := by
  unfold fixStep
  dsimp only
  rw [hone, List.foldl_cons, List.foldl_nil, fixOne_refused h, kvSpaceEvent_zero]
  simp only [List.isEmpty_nil, if_true, List.map_cons, List.map_nil, Nat.zero_mul, Nat.add_zero]

theorem fixStep_one {x : Slot} {c' : Chan}
    (hbuilt : fixOne ch op.fn e ⟨s, [], [], [], 0⟩ = ⟨s.setChan ch c', [x], [(0, 0, 0)], [e.handle], 0⟩) :
    fixStep ch op a s = startStep ch true (if op.hdr.deadline = 0 then none else some (op.acceptedAt + op.hdr.deadline)) [x]
      { s.setChan ch c' with ops := s.ops.map (beginStep ch (s.chan ch).nextStep op a) } := by
  unfold fixStep
  dsimp only
  rw [hone, List.foldl_cons, List.foldl_nil, hbuilt, kvSpaceEvent_zero]
  rfl

end

/-! ### The commands -/

section
variable {d : Hdr} {a : StepArgs} {fn : Nat}

theorem stepCheck_table (h : fixedMode ch s = false) : stepCheck ch fn a s = some .schedMode := by
  rw [stepCheck, h]
  rfl

variable (hacc : Accepts 0x28 d fn ch s)
include hacc

theorem exec_opStep_refused {st : Status} (h : stepCheck ch fn a s = some st) :
    exec (.opStep d a) s = .next (complete d 0x28 st [] [] s) := by
  change execOpStep d a s = _
  rw [execOpStep, accept_next hacc, h]

theorem exec_opStep_held (h : stepCheck ch fn a s = none) : exec (.opStep d a) s =
    .next (addOp 0x28 d fn ch [(a.listAddr, 16 * a.count), (a.resultAddr, 8 * a.count)] false (.stepWait ch a) s) := by
  change execOpStep d a s = _
  rw [execOpStep, accept_next hacc, h]

end

variable (hup : s.up = true)
include hup

theorem exec_workListFix : exec (.workListFix ch) s = .next (fixList ch s) := whenUp_next hup

theorem exec_workListFix_idle (h : mayFix ch s = false ∨ fixedMode ch s = true ∨ gatherOver ch s = false) :
    exec (.workListFix ch) s = .next s := by
  have hcond : (mayFix ch s && !fixedMode ch s && gatherOver ch s) = false := by
    rcases h with h | h | h <;> simp [h]
  rw [exec_workListFix hup, fixList, hcond, if_neg Bool.false_ne_true]

theorem exec_workListFix_fixes (hmay : mayFix ch s = true) (hmode : fixedMode ch s = false) (hover : gatherOver ch s = true) :
    exec (.workListFix ch) s = .next (buildList ch s) := by
  rw [exec_workListFix hup, fixList, hmay, hmode, hover]
  rfl

theorem exec_fixedListFix_idle (h : mayFix ch s = false ∨ fixedMode ch s = false ∨ waitingStep ch s = none) :
    exec (.fixedListFix ch) s = .next s := by
  change execFixedListFix ch s = _
  rw [execFixedListFix, whenUp_next hup]
  split
  · rename_i hcond hwait
    obtain ⟨hmay, hmode⟩ := Bool.and_eq_true_iff.mp hcond
    simp [hmay, hmode, hwait] at h
  · rfl

theorem exec_fixedListFix_fixes {op : RunOp} {a : StepArgs} (hmay : mayFix ch s = true) (hmode : fixedMode ch s = true)
    (hwait : waitingStep ch s = some (op, a)) : exec (.fixedListFix ch) s = .next (fixStep ch op a s) := by
  change execFixedListFix ch s = _
  rw [execFixedListFix, whenUp_next hup, hmay, hmode, hwait]
  rfl

end

/-- Settles O31: each command by its conditions, and a list of one as the step that starts on the channel its session was listed on. -/
theorem workListsAreFixed : Obligations.WorkListsAreFixed := by
  intro d a fn ch s hup c
  refine ⟨fun hacc => ⟨fun hmode => exec_opStep_refused hacc (stepCheck_table hmode), fun st hst => exec_opStep_refused hacc hst,
      exec_opStep_held hacc⟩, rfl, exec_workListFix_idle hup,
    fun hmay hmode hover => ⟨exec_workListFix_fixes hup hmay hmode hover, fun q c' x hone hcand hseqs htokens => ?listed⟩,
    exec_fixedListFix_idle hup, fun op a hmay hmode hwait => ⟨exec_fixedListFix_fixes hup hmay hmode hwait, fun e hone =>
      ⟨fun st hst => ?entryRefused, fun c' x hcheck hstate htokens hsome hfits hlist => ?entryListed⟩⟩⟩
  case listed =>
    intro n hfits hlist
    have hbuilt := buildList_one hone (buildOne_joins hcand hseqs htokens hfits hlist)
    obtain ⟨-, hgains⟩ := startStep_gains (ch := ch) (s := s.setChan ch c') false (leastDeadline [x.deadline]) [x]
    rw [← hbuilt, State.setChan_chan_same] at hgains
    refine ⟨_, _, exec_workListFix_fixes hup hmay hmode hover, hgains.nextStep, hgains.steps, rfl, rfl, rfl, rfl, ?_⟩
    rw [Chan.dir_congr hgains.dirs]
    exact listSession_runs hlist
  case entryRefused => rw [exec_fixedListFix_fixes hup hmay hmode hwait, fixStep_refused hone hst]
  case entryListed =>
    have hbuilt := fixStep_one hone (op := op) (fixOne_joins hcheck hstate htokens hsome hfits hlist)
    obtain ⟨hops, hgains⟩ := startStep_gains (ch := ch) (s := { s.setChan ch c' with ops := s.ops.map (beginStep ch c.nextStep op a) }) true
      (if op.hdr.deadline = 0 then none else some (op.acceptedAt + op.hdr.deadline)) [x]
    have hlisted : State.chan { s.setChan ch c' with ops := s.ops.map (beginStep ch c.nextStep op a) } ch = c' :=
      State.setChan_chan_same s ch c'
    rw [← hbuilt, hlisted] at hgains
    rw [← hbuilt] at hops
    exact ⟨_, _, exec_fixedListFix_fixes hup hmay hmode hwait, hgains.nextStep, hgains.steps, rfl, rfl, rfl, hops⟩

end Sys2Proof.Machine
end

section
/-! The publication of work lists: a subscriber's ring and what a list writes there, the list that waits and its timeout, and the heads that
subscribers write (R173 to R176, R543). The settlement of O32. -/

namespace Sys2Proof.Machine

open Sys2Proof

/-! ### Registers in effect -/

theorem eff_congr {s t : State} (hregs : t.regs = s.regs) (hpower : t.power = s.power) (key : Nat) : eff key t = eff key s := by
  rw [eff, State.reg, resetOf, hregs, hpower, eff, State.reg, resetOf]

@[simp] theorem eff_setEff_same (key v : Nat) (s : State) : eff key (setEff key v s) = v := by
  rw [eff, State.reg, setEff_regs, tget_tset_same, Option.getD_some]

theorem HostSide.eff {s t : State} (h : HostSide s t) (key : Nat) : Machine.eff key t = Machine.eff key s := by
  obtain ⟨-, -, hpower, -, -, hregs, -⟩ := h.parts
  exact eff_congr hregs hpower key

/-! ### A subscriber's ring (R173, R175, R176) -/

section
variable {ch k : Nat} {s u : State}

section
variable (htail : (u.chan ch).wlTail = (s.chan ch).wlTail) (hregs : u.regs = s.regs) (hpower : u.power = s.power)
include hregs hpower

theorem wlExp_congr : wlExp ch k u = wlExp ch k s := by
  rw [wlExp, wlSub, eff_congr hregs hpower, wlExp, wlSub]

include htail

theorem wlPad_congr (len : Nat) : wlPad ch k len u = wlPad ch k len s := by
  rw [wlPad, htail, wlExp_congr hregs hpower, wlPad]

end

/-- What a subscriber's ring takes up to its record: the PAD, where the record needs one (R173, R176). -/
def padOut (ch k : Nat) (st : StepRec) (s : State) : State :=
  let pad := wlPad ch k (listLength st.slots) s
  if pad = 0 then s
  else s.emit (.workList ch k ((tget k (s.chan ch).wlTail).getD 0 % 2 ^ wlExp ch k s) pad true st.num 0 0
    (.bytes (padList st.num pad st.fixed (s.fid + ch * 64))))

theorem padOut_emits (ch k : Nat) (st : StepRec) (s : State) : Emits s (padOut ch k st s) := by
  unfold padOut
  extract_lets pad
  split
  · exact .refl s
  · exact emit_emits s _

theorem padOut_out (ch k : Nat) (st : StepRec) (s : State) : (padOut ch k st s).out =
    if wlPad ch k (listLength st.slots) s = 0 then s.out
    else .workList ch k ((tget k (s.chan ch).wlTail).getD 0 % 2 ^ wlExp ch k s) (wlPad ch k (listLength st.slots) s) true st.num 0 0
      (.bytes (padList st.num (wlPad ch k (listLength st.slots) s) st.fixed (s.fid + ch * 64))) :: s.out := by
  unfold padOut
  extract_lets pad
  exact apply_ite State.out _ _ _

theorem listBytes_host {st : StepRec} (h : HostSide s u) : listBytes ch st u = listBytes ch st s := by
  rw [listBytes, h.fid, h.chan, listBytes]

section
variable (ch k : Nat) (st : StepRec) (s : State)

theorem writeList_out : (writeList ch k st s).out =
    .tailWord ch k (wrap64 ((tget k (s.chan ch).wlTail).getD 0 + wlPad ch k (listLength st.slots) s + listLength st.slots)) ::
      .workList ch k (((tget k (s.chan ch).wlTail).getD 0 + wlPad ch k (listLength st.slots) s) % 2 ^ wlExp ch k s) (listLength st.slots) false
        st.num st.slots.length (st.slots.map (fun x => x.tokens.length)).sum (.bytes (listBytes ch st s)) ::
      (padOut ch k st s).out := by
  rw [← listBytes_host (padOut_emits ch k st s).host]
  rfl

theorem writeList_wlTail : ((writeList ch k st s).chan ch).wlTail =
    tset k (wrap64 ((tget k (s.chan ch).wlTail).getD 0 + wlPad ch k (listLength st.slots) s + listLength st.slots)) (s.chan ch).wlTail := by
  unfold writeList
  simp only [State.emit_chan, State.modChan_chan_same]
  exact congrArg (fun c : Chan => tset k _ c.wlTail) ((padOut_emits ch k st s).host.chan ch)

end

/-! ### Publication (R176) -/

variable {st : StepRec}

theorem publish_alone (h : enabledSubs ch s = []) :
    publish ch st s = endAllSeqs ch st.num .accelTimeout st.slots.length
      (s.modChan ch (fun c => c.modStep st.num (fun st => { st with published := true, waitSince := none }))) := by
  unfold publish
  extract_lets subs
  exact if_pos (by rw [show subs = [] from h]; rfl)

/-- A step whose list has gone out, with the requester of each slot (R176). -/
def publishedStep (ch : Nat) (s : State) (st : StepRec) : StepRec :=
  { st with published := true, waitSince := none, slots := st.slots.map (fun x => { x with requester := (wlFid ch x.driver s, 0) }) }

theorem publish_goes (hsome : enabledSubs ch s ≠ []) (hspace : ∀ k ∈ enabledSubs ch s, wlSpace ch k (listLength st.slots) s = true) :
    publish ch st s =
      ((enabledSubs ch s).foldl (fun s k => writeList ch k st s) s).modChan ch (fun c => c.modStep st.num (publishedStep ch s)) := by
  unfold publish
  extract_lets subs
  rw [if_neg (by simpa [subs] using hsome), if_pos (List.all_eq_true.mpr hspace)]
  rfl

/-- A step whose list waits, from now on where it did not (R176). -/
def waitingList (now : Nat) (st : StepRec) : StepRec := { st with waitSince := some (st.waitSince.getD now) }

theorem publish_waits (hk : k ∈ enabledSubs ch s) (hfull : wlSpace ch k (listLength st.slots) s = false) :
    publish ch st s = s.modChan ch (fun c => c.modStep st.num (waitingList s.now)) := by
  have hlack : ¬((enabledSubs ch s).all fun k => wlSpace ch k (listLength st.slots) s) = true := fun hall => by
    rw [List.all_eq_true.mp hall k hk] at hfull
    cases hfull
  unfold publish
  extract_lets subs
  rw [if_neg (by simpa [subs] using List.ne_nil_of_mem hk), if_neg hlack]
  rfl

/-- What stands under the number of a changed step is what the change made. -/
theorem Chan.eq_of_mem_modStep {c : Chan} {num : Nat} {f : StepRec → StepRec} {y : StepRec} (hy : y ∈ (c.modStep num f).steps)
    (hnum : y.num = num) : ∃ st, y = f st := by
  obtain ⟨st, -, rfl⟩ := List.mem_map.mp hy
  split
  · exact ⟨st, rfl⟩
  · rename_i hne
    rw [if_neg hne] at hnum
    exact absurd hnum hne

theorem eq_of_mem_modChan_modStep {f : StepRec → StepRec} {y : StepRec} {num : Nat}
    (hy : y ∈ ((s.modChan ch (fun c => c.modStep num f)).chan ch).steps) (hnum : y.num = num) : ∃ st, y = f st := by
  rw [State.modChan_chan_same] at hy
  exact Chan.eq_of_mem_modStep hy hnum

/-! ### A subscriber that is disabled (R176) -/

theorem fieldOf_enable_cleared (v : Nat) : (fieldOf (v - if fieldOf v 16 1 == 1 then 65536 else 0) 16 1 == 1) = false := by
  rw [beq_eq_false_iff_ne]
  unfold fieldOf
  simp only [beq_iff_eq]
  split <;> omega

theorem dropSub_disables (ch k : Nat) (s : State) : wlEnabled ch k (dropSub ch k s) = false := by
  have hsub : wlSub ch k (dropSub ch k s) = wlSub ch k s - if wlEnabled ch k s then 65536 else 0 :=
    ((raiseEvent_host _ _ _ _).eff _).trans (eff_setEff_same _ _ _)
  rw [wlEnabled, hsub]
  exact fieldOf_enable_cleared _

/-! ### The commands -/

section
variable (hup : s.up = true)
include hup

theorem exec_workListPublish_none (h : (s.chan ch).unpublished = none) : exec (.workListPublish ch) s = .next s := by
  change execWorkListPublish ch s = _
  rw [execWorkListPublish, whenUp_next hup, h]

theorem exec_workListPublish_some (h : (s.chan ch).unpublished = some st) : exec (.workListPublish ch) s = .next (publish ch st s) := by
  change execWorkListPublish ch s = _
  rw [execWorkListPublish, whenUp_next hup, h]

theorem exec_wlWaitTimeout_none (h : (s.chan ch).unpublished = none) : exec (.wlWaitTimeout ch) s = .next s := by
  change execWlWaitTimeout ch s = _
  rw [execWlWaitTimeout, whenUp_next hup, h]

theorem exec_wlWaitTimeout_some (h : (s.chan ch).unpublished = some st) :
    exec (.wlWaitTimeout ch) s = .next (if st.waitSince.isSome then waitOver ch st s else s) := by
  change execWlWaitTimeout ch s = _
  rw [execWlWaitTimeout, whenUp_next hup, h]

theorem exec_wlHeadWrite (hch : ch < 8) (hk : k < 8) (r : Requester) (v : Nat) : exec (.wlHeadWrite r ch k v) s =
    .next (if writePermitted r (chanBase ch + 0x200 + 8 * k) .wlHead s then writeWlHead r ch k v s else denyReg r s) := by
  change execWlHeadWrite r ch k v s = _
  rw [execWlHeadWrite, whenUp_next hup, if_neg (by omega)]

end

theorem writeWlHead_outside {v : Nat} (r : Requester) (h : v < wlHead ch k s ∨ (tget k (s.chan ch).wlTail).getD 0 < v) :
    writeWlHead r ch k v s = badReg r s := if_pos h

theorem writeWlHead_within {v : Nat} (r : Requester) (hhead : wlHead ch k s ≤ v) (htail : v ≤ (tget k (s.chan ch).wlTail).getD 0) :
    writeWlHead r ch k v s = okReg r (setEff (chanBase ch + 0x200 + 8 * k) v s) := if_neg (by omega)

end

/-- Settles O32: publication by its three cases, a list's record by what its ring takes up to it, and a head write by the place of its value. -/
theorem workListsArePublished : Obligations.WorkListsArePublished := by
  intro ch s hup
  refine ⟨fun hnone => ?_, fun st hst => ?_, fun k _ => dropSub_disables ch k s, fun r k v hch hk => ?_⟩
  · exact ⟨exec_workListPublish_none hup hnone, exec_wlWaitTimeout_none hup hnone⟩
  · intro len total
    rw [exec_workListPublish_some hup hst, exec_wlWaitTimeout_some hup hst]
    refine ⟨fun halone => congrArg _ (publish_alone halone), fun hsome hspace => ⟨_, congrArg _ (publish_goes hsome hspace), rfl, ?gone⟩,
      fun k u htail hregs hpower => ?written, fun k hk hfull => ⟨_, congrArg _ (publish_waits hk hfull), rfl, ?tails, ?waits⟩,
      fun hnot => ?_, fun hwaits => by rw [if_pos hwaits]⟩
    case gone =>
      intro y hy hnum
      obtain ⟨x, rfl⟩ := eq_of_mem_modChan_modStep hy hnum
      rfl
    case written =>
      intro tail size pad record
      have hpad : wlPad ch k (listLength st.slots) u = pad := wlPad_congr htail hregs hpower _
      have hsize : 2 ^ wlExp ch k u = size := congrArg (2 ^ ·) (wlExp_congr hregs hpower)
      rw [writeList_out, writeList_wlTail, tget_tset_same, padOut_out, htail, hpad, hsize]
      exact ⟨rfl, rfl⟩
    case tails => rw [State.modChan_chan_same]; rfl
    case waits =>
      intro y hy hnum
      obtain ⟨x, rfl⟩ := eq_of_mem_modChan_modStep hy hnum
      rfl
    · rw [hnot]; rfl
  · rw [exec_wlHeadWrite hup hch hk]
    refine ⟨fun hdenied => by rw [hdenied]; rfl, fun hmay => ?_⟩
    rw [if_pos hmay]
    refine ⟨fun houtside => congrArg _ (writeWlHead_outside r houtside), fun hhead htail =>
      ⟨_, congrArg _ (writeWlHead_within r hhead htail), eff_setEff_same _ _ _, rfl, fun a ha => ?_⟩⟩
    exact tget_tset_other _ _ _ _ ha

end Sys2Proof.Machine
end

section
/-! The copier's turn, the records of a capture and their sending, and failure warnings (R185, R288, R296, R301 to R303, R307 to R309). The
settlement of O38. -/

namespace Sys2Proof.Machine

open Sys2Proof

/-! ### The copier's turn (R185, R288, R296, R303, R366) -/

section
variable {n : Nat} {s : State}

/-- A channel's jobs on the block queue have been admitted: the copier's turn begins. -/
abbrev turnBegun (n : Nat) (s : State) : State := s.modChan n Chan.admitJobs

theorem copierStep_idle
    (h : ((turnBegun n s).chan n).mirror.gen = 0 ∨ ((turnBegun n s).chan n).mirror.capturing = false ∨
      ((turnBegun n s).chan n).mirror.ended = true) : copierStep n s = turnBegun n s :=
  if_pos (by rwa [Bool.not_eq_true'])

section
variable (hgen : ((turnBegun n s).chan n).mirror.gen ≠ 0) (hcapturing : ((turnBegun n s).chan n).mirror.capturing = true)
  (hended : ((turnBegun n s).chan n).mirror.ended = false)
include hgen hcapturing hended

theorem capture_goesOn : ¬(((turnBegun n s).chan n).mirror.gen = 0 ∨ (!((turnBegun n s).chan n).mirror.capturing) = true ∨
    ((turnBegun n s).chan n).mirror.ended = true) := by
  rintro (h | h | h)
  · exact hgen h
  · rw [hcapturing] at h
    cases h
  · rw [hended] at h
    cases h

theorem copierStep_ends (htodo : ((turnBegun n s).chan n).mirror.todo = []) :
    copierStep n s = sendRecord n true ⟨.fin, 0, ((turnBegun n s).chan n).mirror.epoch, 0, 0, 0, 0⟩
      ((turnBegun n s).modChan n fun c => { c with
        mirror := { c.mirror with ended := true, capturing := false, endHeld := c.mirror.held.length } }) := by
  unfold copierStep
  dsimp only
  rw [if_neg (capture_goesOn hgen hcapturing hended), htodo]

variable {i : Nat} {r : List Nat} (htodo : ((turnBegun n s).chan n).mirror.todo = i :: r)
include htodo

theorem copierStep_waits (hmay : ((turnBegun n s).chan n).mayStart ((turnBegun n s).chan n).mirror.deadline = false) :
    copierStep n s = turnBegun n s := by
  unfold copierStep
  dsimp only
  rw [if_neg (capture_goesOn hgen hcapturing hended), htodo]
  exact if_pos (by rw [hmay]; rfl)

variable (hmay : ((turnBegun n s).chan n).mayStart ((turnBegun n s).chan n).mirror.deadline = true)
include hmay

theorem copierStep_unit (hrole : ((turnBegun n s).chan n).role = .search) : copierStep n s = copyUnit n i (turnBegun n s) := by
  unfold copierStep
  dsimp only
  rw [if_neg (capture_goesOn hgen hcapturing hended), htodo]
  dsimp only
  rw [if_neg (by rw [hmay]; exact Bool.false_ne_true), if_pos hrole]

variable (hrole : ((turnBegun n s).chan n).role ≠ .search)
include hrole

/-- One session leaves the list of a capture. -/
abbrev oneTaken (n : Nat) (r : List Nat) (s : State) : State := s.modChan n (fun c => { c with mirror := { c.mirror with todo := r } })

theorem copierStep_session :
    copierStep n s = if (((turnBegun n s).chan n).capture i).lastGen = ((turnBegun n s).chan n).mirror.gen then oneTaken n r (turnBegun n s)
      else
        let w := (captureRecords ((turnBegun n s).chan n) i).foldl (fun s x => sendRecord n true x s) (oneTaken n r (turnBegun n s))
        if (w.chan n).mirror.gen = ((turnBegun n s).chan n).mirror.gen then w.modChan n (Chan.captured i) else w := by
  unfold copierStep
  dsimp only
  rw [if_neg (capture_goesOn hgen hcapturing hended), htodo]
  dsimp only
  rw [if_neg (by rw [hmay]; exact Bool.false_ne_true), if_neg hrole]

end

theorem captureRecords_setTodo (c : Chan) (r : List Nat) (i : Nat) :
    captureRecords { c with mirror := { c.mirror with todo := r } } i = captureRecords c i := rfl

theorem exec_copierCapture (hup : s.up = true) : exec (.copierCapture n) s = .next (mirrorNext (copierStep n s)) := by
  change execCopierCapture n s = _
  rw [execCopierCapture, whenUp_next hup]

end

/-! ### The records of a capture (R294, R296) -/

theorem tailRecords_kind {x : Profile} {e : Dir} {i l k lo hi : Nat} {r : Record} (h : r ∈ tailRecords x e i l k lo hi) : r.kind = .tail := by
  induction k generalizing lo with
  | zero => cases h
  | succ k ih =>
    unfold tailRecords at h
    split at h
    · cases h
    · rcases List.mem_cons.mp h with rfl | h
      · rfl
      · exact ih h

theorem tailsOf_kind {x : Profile} {e : Dir} {i lo hi : Nat} {r : Record} (h : r ∈ tailsOf x e i lo hi) : r.kind = .tail := by
  obtain ⟨l, -, hl⟩ := List.mem_flatMap.mp h
  exact tailRecords_kind hl

section
variable {c : Chan} {i : Nat}

/-- The record of a close before what a capture sends (R296). -/
def closeRecord (i : Nat) (y : CbwImage) : List Record := if y.closedSince then [⟨.close, i, i, 0, 0, 0, recMode y.dir⟩] else []

theorem captureRecords_closed (h : (c.captureImage i).dir.state = .closed) : captureRecords c i = closeRecord i (c.captureImage i) := by
  unfold captureRecords
  dsimp only
  rw [if_pos h]
  exact List.append_nil _

/-- The record of the fork that made a new session (R296). -/
def cloneRecord (i : Nat) (y : CbwImage) : List Record :=
  match y.isNew, y.forkedFrom with
  | true, some p => [⟨.clone, i, p + i * 2 ^ 17, 0, 0, 0, recMode y.dir⟩]
  | _, _ => []

theorem cloneRecord_kind {y : CbwImage} {r : Record} (h : r ∈ cloneRecord i y) : r.kind = .clone := by
  unfold cloneRecord at h
  split at h
  · rw [List.mem_singleton.mp h]
  · cases h

/-- The records of the entries dropped, in the order of their dropping (R296). -/
def freeRecords (i : Nat) (y : CbwImage) : List Record := y.drops.reverse.map (fun k => ⟨.free, i, i + k * 2 ^ 17, 0, 0, 0, recMode y.dir⟩)

theorem freeRecords_kind {y : CbwImage} {r : Record} (h : r ∈ freeRecords i y) : r.kind = .free := by
  obtain ⟨k, -, rfl⟩ := List.mem_map.mp h
  rfl

theorem captureRecords_live (h : (c.captureImage i).dir.state ≠ .closed) :
    captureRecords c i = closeRecord i (c.captureImage i) ++ (cloneRecord i (c.captureImage i) ++
      tailsOf (c.prof (c.captureImage i).dir.profile) (c.captureImage i).dir i
        (if (c.captureImage i).closedSince then 0 else (c.capture i).sentLen) (c.captureImage i).dir.kvLen ++
      freeRecords i (c.captureImage i) ++
      [⟨.dir, i, i, 0, 64, 2, recMode (c.captureImage i).dir⟩, ⟨.sblk, i, i, 0, 32768, 2, recMode (c.captureImage i).dir⟩] ++
      if (c.captureImage i).queue.isEmpty then []
      else [⟨.queue, i, i, 0, 4 * (c.captureImage i).queue.length, 2, recMode (c.captureImage i).dir⟩]) := by
  unfold captureRecords
  dsimp only
  rw [if_neg h]
  rfl

end

/-! ### A record goes out (R301 to R303) -/

theorem Chan.seal_mirror {c d : Chan} {slot : Nat} (h : c.seal slot = some d) : d.mirror = c.mirror := by
  unfold Chan.seal at h
  dsimp only at h
  split at h
  · cases h
  · cases h
    rfl

section
variable {n : Nat} {r : Record} {s : State} {c : Chan}

theorem sealed_mirror (h : (if r.raw = 0 then some (s.chan n) else (s.chan n).seal 1) = some c) : c.mirror = (s.chan n).mirror := by
  split at h
  · cases h
    rfl
  · exact Chan.seal_mirror h

/-- A channel with one more record of its shard sent and not acknowledged. -/
def recordSent (n : Nat) (r : Record) (s : State) (c : Chan) : Chan :=
  { c with mirror := { c.mirror with
    recIndex := c.mirror.recIndex + 1, shardLen := c.mirror.shardLen + 32 + recordLen r s.freeIx
    sent := c.mirror.sent ++ [⟨(s.chan n).mirror.gen, (s.chan n).mirror.recIndex, recCode r.kind, r.session⟩] } }

theorem sendReq_error_unreached {u fid unit fn : Nat} {k : ReqKind} {op : PktOp} {a : Nat} {p : Payload} {e : Status}
    (h : sendReq u fid unit fn k op a p s = .error e) : Unreached fid unit s := by
  by_contra hreached
  obtain ⟨t, ht⟩ := sendReq_reached hreached
  rw [ht] at h
  cases h

/-- A record to the buddy of another device goes out, or waits to (R301, R303). -/
theorem sendRecord_sends (hbuddy : (s.chan n).mirror.noBuddy = false) (hgen : (s.chan n).mirror.gen ≠ 0)
    (hmarked : unitMarked (buddyOf n s).1 (buddyOf n s).2 s = false) (hfid : (buddyOf n s).1 ≠ s.fid)
    (hsealed : (if r.raw = 0 then some (s.chan n) else (s.chan n).seal 1) = some c) :
    ∃ o, ReqSide ((s.setChan n (recordSent n r s c)).advanceFree.emit o) (sendRecord n true r s) := by
  unfold sendRecord
  dsimp only
  rw [if_neg (by simp [hbuddy, hgen]), hsealed]
  dsimp only
  split
  · rename_i t hsent
    exact ⟨_, sendReq_req hsent⟩
  · rename_i st hfailed
    rcases sendReq_error_unreached hfailed with h | ⟨h, -⟩
    · exact absurd (hmarked.symm.trans h) Bool.false_ne_true
    · exact absurd h hfid

end

/-! ### What a trigger of a generation leaves (R295) -/

/-- The enclave, the ports, the registers and the warnings that stand are the same. -/
structure KeepsWarnings (s t : State) : Prop where
  encl : t.encl = s.encl
  ports : t.ports = s.ports
  regs : t.regs = s.regs
  warned : t.mirrorDev.warned = s.mirrorDev.warned

section
variable {s t u : State}

theorem KeepsWarnings.refl (s : State) : KeepsWarnings s s := ⟨rfl, rfl, rfl, rfl⟩

theorem KeepsWarnings.trans (h : KeepsWarnings s t) (g : KeepsWarnings t u) : KeepsWarnings s u :=
  ⟨g.encl.trans h.encl, g.ports.trans h.ports, g.regs.trans h.regs, g.warned.trans h.warned⟩

theorem foldl_keepsWarnings {α : Type} {f : State → α → State} {l : List α} (h : ∀ s a, KeepsWarnings s (f s a)) :
    KeepsWarnings s (l.foldl f s) :=
  List.foldlRecOn l f (.refl s) fun t ht a _ => ht.trans (h t a)

theorem HostSide.keepsWarnings (h : HostSide s t) : KeepsWarnings s t := by
  rw [h]
  exact ⟨rfl, rfl, rfl, rfl⟩

end

theorem setChan_keepsWarnings (s : State) (n : Nat) (c : Chan) : KeepsWarnings s (s.setChan n c) := ⟨rfl, rfl, rfl, rfl⟩

theorem modChan_keepsWarnings (s : State) (n : Nat) (f : Chan → Chan) : KeepsWarnings s (s.modChan n f) := setChan_keepsWarnings s n _

theorem setAlert_keepsWarnings (k : Nat) (s : State) : KeepsWarnings s (setAlert k s) := ⟨rfl, rfl, rfl, rfl⟩

theorem setMirrorDev_keepsWarnings {s : State} {m : MirrorDev} (h : m.warned = s.mirrorDev.warned) :
    KeepsWarnings s { s with mirrorDev := m } := ⟨rfl, rfl, rfl, h⟩

theorem completeGen_keepsWarnings (g : Nat) (s : State) : KeepsWarnings s (completeGen g s) := by
  unfold completeGen
  extract_lets parted dev closed
  have hparted : KeepsWarnings s parted := foldl_keepsWarnings fun s n => modChan_keepsWarnings s n _
  have hclosed : KeepsWarnings parted closed := setMirrorDev_keepsWarnings rfl
  exact (hparted.trans hclosed).trans (foldl_keepsWarnings fun s o => (endOp_host o _ _ _ s).keepsWarnings)

theorem reloadSlot1_keepsWarnings (n : Nat) (s : State) : KeepsWarnings s (reloadSlot1 n s) := by
  unfold reloadSlot1
  split
  · exact modChan_keepsWarnings s n _
  · exact .refl s

theorem renewSlot1_keepsWarnings (n : Nat) (s : State) : KeepsWarnings s (renewSlot1 n s) := by
  unfold renewSlot1
  extract_lets k
  split
  · exact .refl s
  · exact (reloadSlot1_keepsWarnings n s).trans (modChan_keepsWarnings _ n _)

theorem startGen_keepsWarnings (priority : Bool) (s : State) : KeepsWarnings s (startGen priority s) := by
  unfold startGen
  extract_lets g ns dev opened
  have hopened : KeepsWarnings s opened := setMirrorDev_keepsWarnings rfl
  split
  · exact hopened.trans (completeGen_keepsWarnings g _)
  · exact hopened.trans (foldl_keepsWarnings fun s n => (renewSlot1_keepsWarnings n s).trans (modChan_keepsWarnings _ n _))

theorem trigger_keepsWarnings (priority : Bool) (s : State) : KeepsWarnings s (trigger priority s) := by
  unfold trigger
  split
  · exact startGen_keepsWarnings priority s
  · exact setMirrorDev_keepsWarnings rfl

/-! ### Failure warnings (R307 to R309) -/

section
variable {condition source value : Nat} {s : State}

/-- Since when a condition has stayed below its threshold, where its warning stands. -/
abbrev belowEntry (condition source : Nat) (s : State) : Option (Nat × Nat × Nat) :=
  s.mirrorDev.belowSince.find? (fun e => e.1 == condition && e.2.1 == source)

/-- A condition has stayed below its threshold for 1 s (R308). -/
def warnRested (condition source : Nat) (s : State) : Bool :=
  match belowEntry condition source s with
  | some e => decide (e.2.2 + 1000000000 ≤ s.now)
  | none => false

/-- The warnings that stand at a measurement (R308). -/
def standingWarnings (condition source : Nat) (s : State) : List (Nat × Nat) :=
  if warnRested condition source s then s.mirrorDev.warned.erase (condition, source) else s.mirrorDev.warned

theorem warnRest_of_none (h : belowEntry condition source s = none) : warnRest condition source s = s := by
  unfold warnRest
  extract_lets m mine
  rw [show m.belowSince.find? mine = none from h]

theorem warnRest_eq (condition source : Nat) (s : State) : ∃ l,
    warnRest condition source s = { s with mirrorDev := { s.mirrorDev with warned := standingWarnings condition source s, belowSince := l } } := by
  unfold warnRest standingWarnings warnRested
  extract_lets m mine
  cases hbelow : belowEntry condition source s with
  | none =>
    rw [show m.belowSince.find? mine = none from hbelow]
    exact ⟨_, rfl⟩
  | some e =>
    rw [show m.belowSince.find? mine = some e from hbelow]
    by_cases hlong : e.2.2 + 1000000000 ≤ s.now
    · simp only [hlong, decide_true, if_true]
      exact ⟨_, rfl⟩
    · simp only [hlong, decide_false, if_false, Bool.false_eq_true]
      exact ⟨_, rfl⟩

theorem warnHit_congr {t : State} (hregs : t.regs = s.regs) (hpower : t.power = s.power) (condition value : Nat) :
    warnHit condition value t = warnHit condition value s := by
  unfold warnHit
  rw [eff_congr hregs hpower]

/-- A warning that goes out (R308, R309). -/
def giveWarning (condition source value : Nat) (s : State) : State :=
  let s := { s with mirrorDev := { s.mirrorDev with warned := (condition, source) :: s.mirrorDev.warned } }
  let s := raiseEvent 1 (.failureWarning condition source value) 8 (raiseEvent 0 (.failureWarning condition source value) 8 (setAlert 1 s))
  if fieldOf (eff 0x0E0 s) 32 1 = 1 ∧ !(parties s).isEmpty then trigger true s else s

theorem giveWarning_keeps (condition source value : Nat) (s : State) :
    KeepsWarnings { s with mirrorDev := { s.mirrorDev with warned := (condition, source) :: s.mirrorDev.warned } }
      (giveWarning condition source value s) := by
  unfold giveWarning
  extract_lets dev counted raised
  have hraised : KeepsWarnings counted raised :=
    ((setAlert_keepsWarnings 1 counted).trans (raiseEvent_host _ _ _ _).keepsWarnings).trans (raiseEvent_host _ _ _ _).keepsWarnings
  split
  · exact hraised.trans (trigger_keepsWarnings true raised)
  · exact hraised

theorem warnHit_warnRest (condition source c value : Nat) (s : State) : warnHit c value (warnRest condition source s) = warnHit c value s := by
  obtain ⟨l, hrest⟩ := warnRest_eq condition source s
  rw [hrest]
  exact warnHit_congr rfl rfl c value

theorem warnMeasure_hit (h : warnHit condition value s = true) : ∃ m : MirrorDev, (condition, source) ∈ m.warned ∧
    KeepsWarnings { s with mirrorDev := m } (warnMeasure condition source value s) := by
  obtain ⟨l, hrest⟩ := warnRest_eq condition source s
  have hhit := (warnHit_warnRest condition source condition value s).trans h
  unfold warnMeasure
  extract_lets rest m below cleared
  rw [if_pos hhit]
  have hframe (d : MirrorDev) : KeepsWarnings { s with mirrorDev := d } { rest with mirrorDev := d } := by
    unfold rest
    rw [hrest]
    exact .refl _
  split
  · rename_i hstands
    exact ⟨{ m with belowSince := below }, List.contains_iff_mem.mp hstands, hframe _⟩
  · exact ⟨{ m with belowSince := below, warned := (condition, source) :: m.warned }, List.mem_cons_self,
      (hframe _).trans (giveWarning_keeps condition source value cleared)⟩

theorem warnMeasure_miss (h : warnHit condition value s = false) : ∃ l,
    warnMeasure condition source value s =
      { s with mirrorDev := { s.mirrorDev with warned := standingWarnings condition source s, belowSince := l } } ∧
    ((condition, source) ∈ standingWarnings condition source s → belowEntry condition source s = none → (condition, source, s.now) ∈ l) := by
  obtain ⟨l, hrest⟩ := warnRest_eq condition source s
  have hmiss : ¬warnHit condition value (warnRest condition source s) = true := by
    rw [warnHit_warnRest, h]
    exact Bool.false_ne_true
  unfold warnMeasure
  extract_lets rest m below
  rw [if_neg hmiss]
  have hm : m = { s.mirrorDev with warned := standingWarnings condition source s, belowSince := l } := by
    unfold m rest
    rw [hrest]
  have hnow : rest.now = s.now := by
    unfold rest
    rw [hrest]
  split
  · refine ⟨(condition, source, s.now) :: m.belowSince, ?_, fun _ _ => List.mem_cons_self⟩
    rw [hnow, hm]
    unfold rest
    rw [hrest]
  · rename_i hkept
    refine ⟨l, hrest, fun hstands hnone => absurd ⟨?_, ?_⟩ hkept⟩
    · rw [hm]
      exact List.contains_iff_mem.mpr hstands
    · have hall : below = m.belowSince := by
        refine List.filter_eq_self.mpr fun e he => ?_
        unfold m rest at he
        rw [warnRest_of_none hnone] at he
        exact Bool.not_eq_true' _ ▸ Bool.eq_false_iff.mpr (List.find?_eq_none.mp hnone e he)
      rw [hall]

theorem exec_warnMeasure (hup : s.up = true) : exec (.warnMeasure condition source value) s = .next (warnMeasure condition source value s) :=
  whenUp_next hup

end

/-- Settles O38: the copier's turn by what is left to capture, a capture's records by the session's state, a record by the request that carries it,
and a measurement by its side of the threshold. -/
theorem copiesAndWarnings : Obligations.CopiesAndWarnings := by
  intro s hup
  refine ⟨fun n => ⟨exec_copierCapture hup, ?turn⟩, fun c i => ?records, fun n r c hbuddy hgen hmarked hfid hsealed => ?sent,
    fun condition source value => ⟨_, exec_warnMeasure hup, ?measured⟩⟩
  case turn =>
    intro u c m
    refine ⟨copierStep_idle, fun hgen hcapturing hended => ⟨copierStep_ends hgen hcapturing hended, fun i r htodo =>
      ⟨copierStep_waits hgen hcapturing hended htodo, copierStep_unit hgen hcapturing hended htodo, fun hmay hrole => ?_⟩⟩⟩
    intro v
    have hv : v.chan n = { c with mirror := { m with todo := r } } := State.setChan_chan_same _ _ _
    rw [copierStep_session hgen hcapturing hended htodo hmay hrole, hv, captureRecords_setTodo]
    exact ⟨fun htaken => if_pos htaken, fun hnew => if_neg hnew⟩
  case records =>
    intro y close
    refine ⟨captureRecords_closed, fun hlive => ⟨cloneRecord i y,
      tailsOf (c.prof y.dir.profile) y.dir i (if y.closedSince then 0 else (c.capture i).sentLen) y.dir.kvLen, freeRecords i y, ?_, fun _ h => cloneRecord_kind h, fun _ h => tailsOf_kind h,
      fun _ h => freeRecords_kind h⟩⟩
    rw [captureRecords_live hlive]
    simp only [List.append_assoc]
    rfl
  case sent =>
    intro t m
    obtain ⟨o, hsent⟩ := sendRecord_sends hbuddy hgen hmarked hfid hsealed
    have hchan : t.chan n = recordSent n r s c := (hsent.host.chan n).trans (State.setChan_chan_same s n _)
    have hmirror : c.mirror = m := sealed_mirror hsealed
    have hdev : t.mirrorDev = s.mirrorDev := by
      obtain ⟨-, -, -, -, -, -, -, -, -, -, -, -, -, hdev⟩ := hsent.host.parts
      exact hdev
    rw [hchan, recordSent, hmirror]
    exact ⟨rfl, rfl, rfl, hdev⟩
  case measured =>
    cases hhit : warnHit condition value s with
    | true =>
      obtain ⟨m, hmem, hkeeps⟩ := warnMeasure_hit (source := source) hhit
      refine ⟨hkeeps.encl, hkeeps.ports, hkeeps.regs, fun _ => ?_, fun h => by cases h⟩
      rw [hkeeps.warned]
      exact hmem
    | false =>
      obtain ⟨l, hmiss, hbelow⟩ := warnMeasure_miss (source := source) hhit
      rw [hmiss]
      exact ⟨rfl, rfl, rfl, fun h => absurd h Bool.false_ne_true, fun _ => ⟨rfl, rfl, rfl, hbelow⟩⟩

end Sys2Proof.Machine
end

section
/-! Slots of tokenizers, grammars and models, loaded and unloaded (R198, R199, R231, R251). The settlement of O29. -/

namespace Sys2Proof.Machine

open Sys2Proof

/-! ### The state of a slot -/

theorem slotState_setSlotState (kind slot st : Nat) (c : Chan) : slotState kind slot (setSlotState kind slot st c) = st := by
  unfold slotState setSlotState
  split
  · rw [tget_tset_same]
  · split
    · rw [tget_tset_same]
    · rw [tget_tset_same]

/-- An emptied slot is EMPTY, and so is one that no table lists. -/
theorem slotState_emptySlot (kind slot : Nat) (c : Chan) : slotState kind slot (emptySlot kind slot c) = 0 := by
  by_cases htok : kind = 0
  · rw [slotState, emptySlot, if_pos htok, if_pos htok]
    cases hslot : tget slot c.toks with
    | none => simp only [hslot]
    | some t => simp only [tget_tset_same]
  by_cases hgram : kind = 1
  · rw [slotState, emptySlot, if_neg htok, if_neg htok, if_pos hgram, if_pos hgram]
    cases hslot : tget slot c.grams with
    | none => simp only [hslot]
    | some t => simp only [dropMasks, tget_tset_same]
  · rw [slotState, emptySlot, if_neg htok, if_neg htok, if_neg hgram, if_neg hgram]
    cases hslot : tget slot c.models with
    | none => simp only [hslot]
    | some m => simp only [tget_tset_same]

/-- What a change makes true of any channel is true of each channel of a list on which it is made. -/
theorem foldl_modChan_of_mem {P : Chan → Prop} {f : Chan → Chan} (hf : ∀ c, P (f c)) {n : Nat} {cs : List Nat} (hn : n ∈ cs) (s : State) :
    P ((cs.foldl (fun s n => s.modChan n f) s).chan n) := by
  induction cs using List.reverseRecOn with
  | nil => cases hn
  | append_singleton ms m ih =>
    rw [List.foldl_append, List.foldl_cons, List.foldl_nil]
    by_cases hm : n = m
    · subst hm
      rw [State.modChan_chan_same]
      exact hf _
    · rw [State.modChan_chan_other _ _ _ _ hm]
      exact ih ((List.mem_append.mp hn).resolve_right fun h => hm (List.mem_singleton.mp h))

/-! ### A function keeps its adapter when an event is raised (R389, R400) -/

theorem setFn_adapter {n : Nat} {f : Fn} {s : State} (h : f.adapter = (s.fn n).adapter) (k : Nat) :
    ((s.setFn n f).fn k).adapter = (s.fn k).adapter := by
  by_cases hk : k = n
  · subst hk
    rw [State.setFn_fn_same, h]
  · rw [State.setFn_fn_other _ _ _ _ hk]

theorem trySend_adapter (fn vec : Nat) (s : State) (k : Nat) : ((trySend fn vec s).fn k).adapter = (s.fn k).adapter := by
  unfold trySend
  extract_lets f v
  split
  · rfl
  · split
    · exact setFn_adapter (by rfl) k
    · rfl

theorem writeEvent_adapter (fn : Nat) (h : HeldEvent) (s : State) (k : Nat) : ((writeEvent fn h s).fn k).adapter = (s.fn k).adapter :=
  (trySend_adapter _ _ _ k).trans (setFn_adapter (by rfl) k)

theorem postEvent_adapter (fn : Nat) (h : HeldEvent) (s : State) (k : Nat) : ((postEvent fn h s).fn k).adapter = (s.fn k).adapter := by
  unfold postEvent
  extract_lets f l
  split
  · exact setFn_adapter (by rfl) k
  · split
    · exact writeEvent_adapter fn h s k
    · split
      · exact setFn_adapter (by rfl) k
      · exact setFn_adapter (by rfl) k

theorem raiseEventN_adapter (fn : Nat) (ev : Event) (src n : Nat) (s : State) (k : Nat) :
    ((raiseEventN fn ev src n s).fn k).adapter = (s.fn k).adapter := by
  unfold raiseEventN
  extract_lets h f
  split
  · split
    · exact (postEvent_adapter fn h _ k).trans (setFn_adapter (by rfl) k)
    · exact setFn_adapter (by rfl) k
  · exact postEvent_adapter fn h s k

/-! ### What an accepted load starts from -/

/-- The outstanding operations, the timer, the count of loads and where reads of host memory go are the same. -/
structure KeepsLoading (s t : State) : Prop where
  ops : t.ops = s.ops
  now : t.now = s.now
  nextLoad : t.nextLoad = s.nextLoad
  fid : t.fid = s.fid
  peers : t.peers = s.peers
  adapter : ∀ k, (t.fn k).adapter = (s.fn k).adapter

/-- Reads of the host's memory leave at once or wait: its unit is not marked unreachable, and it is another device (R489, R491). -/
structure HostReached (s : State) : Prop where
  unmarked : unitMarked (s.fn 0).adapter 0 s = false
  apart : (s.fn 0).adapter ≠ s.fid

theorem HostReached.not_unreached {s : State} (h : HostReached s) : ¬ Unreached (s.fn 0).adapter 0 s := by
  rintro (hmarked | ⟨hself, -⟩)
  · exact Bool.false_ne_true (h.unmarked.symm.trans hmarked)
  · exact h.apart hself

namespace KeepsLoading

variable {s t u : State}

theorem refl (s : State) : KeepsLoading s s := ⟨rfl, rfl, rfl, rfl, rfl, fun _ => rfl⟩

theorem trans (h : KeepsLoading s t) (g : KeepsLoading t u) : KeepsLoading s u :=
  ⟨g.ops.trans h.ops, g.now.trans h.now, g.nextLoad.trans h.nextLoad, g.fid.trans h.fid, g.peers.trans h.peers,
    fun k => (g.adapter k).trans (h.adapter k)⟩

theorem hostReached (h : KeepsLoading s t) (hs : HostReached s) : HostReached t where
  unmarked := by rw [unitMarked, State.peer, h.adapter, h.peers]; exact hs.unmarked
  apart := by rw [h.adapter, h.fid]; exact hs.apart

end KeepsLoading

theorem setMgmt_keepsLoading (s : State) (m : Mgmt) : KeepsLoading s { s with mgmt := m } := ⟨rfl, rfl, rfl, rfl, rfl, fun _ => rfl⟩

theorem setChan_keepsLoading (s : State) (n : Nat) (c : Chan) : KeepsLoading s (s.setChan n c) := ⟨rfl, rfl, rfl, rfl, rfl, fun _ => rfl⟩

theorem foldl_modChan_keepsLoading (f : Chan → Chan) (cs : List Nat) (s : State) :
    KeepsLoading s (cs.foldl (fun s n => s.modChan n f) s) :=
  List.foldlRecOn cs _ (.refl s) fun t ht n _ => ht.trans (setChan_keepsLoading t n _)

theorem raiseEvent_keepsLoading (fn : Nat) (ev : Event) (src : Nat) (s : State) : KeepsLoading s (raiseEvent fn ev src s) where
  ops := (raiseEventN_keepsPosting fn ev src 1 s).ops
  now := by rw [raiseEvent_host fn ev src s]
  nextLoad := by rw [raiseEvent_host fn ev src s]
  fid := (raiseEvent_host fn ev src s).fid
  peers := by rw [raiseEvent_host fn ev src s]
  adapter := raiseEventN_adapter fn ev src 1 s

theorem enterCongested_keepsLoading (s : State) : KeepsLoading s (enterCongested s) := by
  unfold enterCongested
  split
  · exact .refl s
  · exact (setMgmt_keepsLoading s _).trans (raiseEvent_keepsLoading _ _ _ _)

theorem takeEntry_keepsLoading (s : State) : KeepsLoading s (takeEntry s) := by
  unfold takeEntry
  extract_lets m t
  split
  · exact (setMgmt_keepsLoading s _).trans (enterCongested_keepsLoading _)
  · exact setMgmt_keepsLoading s _

theorem takePrism_keepsLoading {n len b : Nat} {s t : State} (h : takePrism n len s = some (b, t)) : KeepsLoading s t := by
  obtain ⟨x, -, hx⟩ := Option.map_eq_some_iff.mp h
  cases hx
  exact setChan_keepsLoading _ n _

theorem takePrisms_keepsLoading {len : Nat} {ns : List Nat} {s t : State} {r q : Tbl Nat} (h : takePrisms len ns s r = some (q, t)) :
    KeepsLoading s t := by
  induction ns generalizing s r with
  | nil =>
    cases h
    exact .refl _
  | cons n ns ih =>
    rw [takePrisms] at h
    cases htake : takePrism n len s with
    | none => simp [htake] at h
    | some e =>
      simp only [htake] at h
      exact (takePrism_keepsLoading htake).trans (ih h)

/-! ### An accepted load (R199, R231, R251) -/

/-- The ranges that a load takes when it is accepted: a model's are taken once its image has been read. -/
abbrev takeRanges (kind : Nat) (a : LoadArgs) (s : State) : Option (Tbl Nat × State) :=
  if kind = 2 then some ([], s) else takePrisms a.len (loadChans a) s []

theorem takeRanges_keepsLoading {kind : Nat} {a : LoadArgs} {s t : State} {r : Tbl Nat} (h : takeRanges kind a s = some (r, t)) :
    KeepsLoading s t := by
  unfold takeRanges at h
  split at h
  · cases h
    exact .refl s
  · exact takePrisms_keepsLoading h

/-- Each named channel sends its read, where the host can be reached. -/
theorem loadRead_reqSide (l : Load) (addr : Nat) {s : State} (h : HostReached s) : ReqSide s (loadRead l addr s) := by
  refine List.foldlRecOn l.channels _ (rfl : ReqSide s s) fun t ht n _ => ?_
  have hreached : HostReached t := by
    rw [ht]
    exact ⟨h.unmarked, h.apart⟩
  obtain ⟨u, hsent⟩ := sendReq_reached (u := n) (fn := 0) (k := .image l.id n) (op := .readReqBulk) (a := addr) (p := .ask l.len)
    hreached.not_unreached
  simp only [hsent]
  exact ht.trans (sendReq_req hsent)

section
variable {kind fn : Nat} {d : Hdr} {a : LoadArgs} {s t : State}

/-- A load for which a channel has no room in its Prism area ends at once (log entry 46). -/
theorem loadStart_noSpace (hkind : kind ≠ 2) (hfull : takePrisms a.len (loadChans a) s [] = none) :
    loadStart kind d fn a s = complete d (loadOpcode kind) .noSpace [] [] s := by
  simp only [loadStart, if_neg hkind, hfull]

/-- The slot is LOADING on each named channel. -/
def slotsLoading (kind : Nat) (a : LoadArgs) (s : State) : State :=
  (loadChans a).foldl (fun s n => s.modChan n (setSlotState kind a.slot 1)) s

/-- The state in which a load sends its reads: its slot is LOADING, and its descriptor outstanding under the next number. -/
def loadBegun (kind : Nat) (d : Hdr) (fn : Nat) (a : LoadArgs) (l : Load) (s : State) : State :=
  let s := slotsLoading kind a s
  addOp (loadOpcode kind) d fn 8 [(a.addr, a.len)] true (.load s.nextLoad) { s with loads := s.loads ++ [l], nextLoad := s.nextLoad + 1 }

/-- A load that has its ranges begins, and reads. -/
theorem loadStart_reads {r : Tbl Nat} (htake : takeRanges kind a s = some (r, t)) :
    ∃ l, loadStart kind d fn a s = loadRead l a.addr (loadBegun kind d fn a l t) := by
  unfold loadStart
  extract_lets cs prior
  rw [show (if kind = 2 then some ([], s) else takePrisms a.len cs s []) = some (r, t) from htake]
  exact ⟨_, rfl⟩

theorem slotsLoading_slotState (n : Nat) (hn : n ∈ loadChans a) : slotState kind a.slot ((slotsLoading kind a s).chan n) = 1 :=
  foldl_modChan_of_mem (P := (slotState kind a.slot · = 1)) (slotState_setSlotState kind a.slot 1) hn s

theorem slotsLoading_keepsLoading : KeepsLoading s (slotsLoading kind a s) := foldl_modChan_keepsLoading _ _ s

/-- What a load that has its ranges leaves: what it began with, since its reads add only requests. -/
theorem loadStart_takes {r : Tbl Nat} (htake : takeRanges kind a s = some (r, t)) (hhost : HostReached s) :
    (∀ n ∈ loadChans a, slotState kind a.slot ((loadStart kind d fn a s).chan n) = 1) ∧
      (loadStart kind d fn a s).ops =
        s.ops ++ [⟨d, fn, loadOpcode kind, 8, true, false, s.now, [(a.addr, a.len)], .load s.nextLoad⟩] ∧
      (loadStart kind d fn a s).nextLoad = s.nextLoad + 1 := by
  obtain ⟨l, hreads⟩ := loadStart_reads (d := d) (fn := fn) htake
  have hkeeps : KeepsLoading s (slotsLoading kind a t) := (takeRanges_keepsLoading htake).trans slotsLoading_keepsLoading
  have hreached := hkeeps.hostReached hhost
  have hbegun : HostReached (loadBegun kind d fn a l t) := ⟨hreached.unmarked, hreached.apart⟩
  rw [hreads, loadRead_reqSide l a.addr hbegun]
  refine ⟨slotsLoading_slotState, ?_, congrArg (· + 1) hkeeps.nextLoad⟩
  rw [← hkeeps.ops, ← hkeeps.now, ← hkeeps.nextLoad]
  rfl

end

/-! ### The commands -/

section
variable {d : Hdr} {a : LoadArgs} {fn target : Nat} {s : State}

theorem exec_tokenizerUnload (hacc : Accepts 0x31 d fn target s) :
    exec (.tokenizerUnload d a) s =
      .next ((loadCheck 0 fn a true s).elim (unloadNow 0 d a s) fun st => complete d 0x31 st [] [] s) := by
  change execTokenizerUnload d a s = _
  rw [execTokenizerUnload, accept_next hacc]
  cases loadCheck 0 fn a true s <;> rfl

theorem exec_grammarUnload (hacc : Accepts 0x39 d fn target s) :
    exec (.grammarUnload d a) s =
      .next ((loadCheck 1 fn a true s).elim (unloadNow 1 d a s) fun st => complete d 0x39 st [] [] s) := by
  change execGrammarUnload d a s = _
  rw [execGrammarUnload, accept_next hacc]
  cases loadCheck 1 fn a true s <;> rfl

theorem exec_modelUnload (hacc : Accepts 0x40 d fn target s) :
    exec (.modelUnload d a) s =
      .next ((modelLoadCheck fn a true s).elim (unloadNow 2 d a s) fun st => complete d 0x40 st [] [] s) := by
  change execModelUnload d a s = _
  rw [execModelUnload, accept_next hacc]
  cases modelLoadCheck fn a true s <;> rfl

theorem exec_opTokenizerLoad (hacc : Accepts 0x31 d fn target s) :
    exec (.opTokenizerLoad d a) s =
      .next ((loadCheck 0 fn a false s).elim (withEntry 0x31 d (loadStart 0 d fn a) s) fun st => complete d 0x31 st [] [] s) := by
  change execOpTokenizerLoad d a s = _
  rw [execOpTokenizerLoad, accept_next hacc]
  cases loadCheck 0 fn a false s <;> rfl

/-- The masks of the slot leave the cache before the load begins (R233). -/
theorem exec_opGrammarLoad (hacc : Accepts 0x39 d fn target s) :
    exec (.opGrammarLoad d a) s =
      .next ((loadCheck 1 fn a false s).elim
        (withEntry 0x39 d (fun s => loadStart 1 d fn a ((loadChans a).foldl (fun s n => s.modChan n (dropMasks a.slot)) s)) s)
        fun st => complete d 0x39 st [] [] s) := by
  change execOpGrammarLoad d a s = _
  rw [execOpGrammarLoad, accept_next hacc]
  cases loadCheck 1 fn a false s <;> rfl

theorem exec_opModelLoad (hacc : Accepts 0x40 d fn target s) :
    exec (.opModelLoad d a) s =
      .next ((modelLoadCheck fn a false s).elim (withEntry 0x40 d (loadStart 2 d fn a) s) fun st => complete d 0x40 st [] [] s) := by
  change execOpModelLoad d a s = _
  rw [execOpModelLoad, accept_next hacc]
  cases modelLoadCheck fn a false s <;> rfl

end

/-- Settles O29: each pair of commands is its check, then `unloadNow` or, with an entry taken, `loadStart`. -/
theorem slotsLoadAndUnload : Obligations.SlotsLoadAndUnload := by
  intro d a fn target s cs answers
  have hanswers (k op : Nat) (check : Bool → Option Status) (before : State → State) {load unload : Instr} (hop : loadOpcode k = op)
      (hunload : exec unload s = .next ((check true).elim (unloadNow k d a s) fun st => complete d op st [] [] s))
      (hload : exec load s = .next ((check false).elim (withEntry op d (fun s => loadStart k d fn a (before s)) s)
        fun st => complete d op st [] [] s))
      (hbefore : KeepsLoading s (before (takeEntry s))) : answers k op load unload check (before (takeEntry s)) := by
    subst hop
    refine ⟨fun st hbad => ?_, fun hpass => ?_, fun st hbad => ?_, fun hpass hentry => ?_⟩
    · rw [hunload, hbad, Option.elim_some]
    · rw [hunload, hpass, Option.elim_none, unloadNow]
    · rw [hload, hbad, Option.elim_some]
    · rw [hload, hpass, Option.elim_none, withEntry_next hentry]
      refine ⟨fun hkind hfull => by rw [loadStart_noSpace hkind hfull], fun r v htake hmarked hfid => ⟨_, rfl, ?_⟩⟩
      rw [← hbefore.ops, ← hbefore.now, ← hbefore.nextLoad]
      exact loadStart_takes htake (hbefore.hostReached ⟨hmarked, hfid⟩)
  have hentry := takeEntry_keepsLoading s
  refine ⟨fun hacc => ?tokenizer, fun hacc => ?grammar, fun hacc => ?model, fun k n _ hn => ?empty⟩
  case tokenizer => exact hanswers 0 0x31 (fun un => loadCheck 0 fn a un s) id rfl (exec_tokenizerUnload hacc) (exec_opTokenizerLoad hacc) hentry
  case grammar =>
    exact hanswers 1 0x39 (fun un => loadCheck 1 fn a un s) (fun s => cs.foldl (fun s n => s.modChan n (dropMasks a.slot)) s) rfl
      (exec_grammarUnload hacc) (exec_opGrammarLoad hacc) (hentry.trans (foldl_modChan_keepsLoading _ cs _))
  case model => exact hanswers 2 0x40 (fun un => modelLoadCheck fn a un s) id rfl (exec_modelUnload hacc) (exec_opModelLoad hacc) hentry
  case empty => exact foldl_modChan_of_mem (P := (slotState k a.slot · = 0)) (slotState_emptySlot k a.slot) hn s

end Sys2Proof.Machine
end

section
/-! Logits that come in, rows that are sampled, tokens that go out, and the output ring's head (R217, R221, R236, R241). The settlement of O34. -/

namespace Sys2Proof.Machine

open Sys2Proof

/-! ### A LOGITS segment at its sequence (R217) -/

/-- The vocabulary of the tokenizer that a slot's session runs under. -/
def logitVocab (c : Chan) (x : Slot) : Nat :=
  match c.tokImage (c.dir x.index).tokenizer with | some t => t.vocabSize | none => 0

/-- Bytes of a row of a slot's logits. -/
def logitSize (ch : Nat) (s : State) (x : Slot) : Nat := rowSize (logitFmt ch s) (logitVocab (s.chan ch) x)

section
variable {ch num : Nat} {p : Pkt} {g : Seg} {x : Slot} {s : State} (h : segSlot (s.chan ch) g.stepLo g.slot = some (num, x))
include h

/-- A segment that does not fit its row ends the step. -/
theorem takeSample_bad (hbad : addLogits (logitSize ch s x) x g = none) : takeSample ch p g s = protoFault ch num g.slot s := by
  rw [takeSample]
  simp only [h]
  split
  · rfl
  · next hy => cases hy.symm.trans hbad

/-- One that fits joins its row; the step ends where it makes a row whole that holds a NaN or +infinity. -/
theorem takeSample_joins {y : Slot} (hy : addLogits (logitSize ch s x) x g = some y) :
    let size := logitSize ch s x
    let all := (List.range y.rows).all (fun r => ((tget r y.logits).getD {}).complete size)
    let u := s.modChan ch (fun c => c.modSlot num g.slot (fun _ =>
      { y with requester := (p.srcFid, p.srcUnit), phase := if all then .sampling else .logits }))
    let row := (tget g.layer y.logits).getD {}
    takeSample ch p g s = if row.complete size && (logitRow (logitFmt ch s) (logitVocab (s.chan ch) x) row.data).any badLogit
      then endSeq ch num g.slot .logitsInvalid none true u else u := by
  rw [takeSample]
  simp only [h]
  split
  · next hbad => cases hbad.symm.trans hy
  · next z hz =>
    obtain rfl : z = y := Option.some.inj (hz.symm.trans hy)
    rfl

end

/-! ### The sampling of a slot (R221) -/

section
variable {ch num k : Nat} {x : Slot} {s : State} (hup : s.up = true)
include hup

/-- The slot is not there, or it is not sampling. -/
theorem exec_sampleRow_idle (hidle : ∀ x, (s.chan ch).slotOf num k = some x → x.phase ≠ .sampling) :
    exec (.sampleRow ch num k) s = .next s := by
  change execSampleRow ch num k s = _
  rw [execSampleRow, whenUp_next hup]
  congr 1
  dsimp only
  cases hx : (s.chan ch).slotOf num k with
  | none => rfl
  | some x =>
    dsimp only
    split
    · next hphase _ _ => exact absurd hphase (hidle x hx)
    · rfl

theorem exec_sampleRow {t : TokImage} {b : SBlk} (hx : (s.chan ch).slotOf num k = some x) (hphase : x.phase = .sampling)
    (ht : (s.chan ch).tokImage ((s.chan ch).dir x.index).tokenizer = some t) (hb : (s.chan ch).sblk x.index = some b) :
    let e := (s.chan ch).dir x.index
    exec (.sampleRow ch num k) s = .next (endSeq ch num k .ok (some (sampleSlot num (logitFmt ch s) x t
      (if e.grammarEn then (s.chan ch).gramImage e.grammarSlot else none) e b)) true s) := by
  change execSampleRow ch num k s = _
  rw [execSampleRow, whenUp_next hup]
  simp only [hx, hphase, ht, hb]

end

/-! ### An emitted token (R53, R236) -/

section
variable (t : TokImage) (gr : Option GramImage) {o : SampleOut} (tok : Nat)

theorem emitToken_ended (h : o.stop ≠ 0) : emitToken t gr o tok = o := if_pos h

variable (h : o.stop = 0)
include h

theorem emitToken_toks : (emitToken t gr o tok).toks.map (fun e => e.1) = o.toks.map (fun e => e.1) ++ [tok] := by
  rw [emitToken, if_neg (not_not_intro h)]
  exact List.map_append

theorem emitToken_genCount : (emitToken t gr o tok).blk.genCount = o.blk.genCount + 1 := by
  rw [emitToken, if_neg (not_not_intro h)]

end

/-! ### The output ring's head (R241) -/

theorem exec_outHeadRefresh {s : State} (hup : s.up = true) (ch i v : Nat) :
    exec (.outHeadRefresh ch i v) s = .next (s.modChan ch (takeHead i v)) :=
  whenUp_next (f := fun s => s.modChan ch (takeHead i v)) hup

/-- Settles O34: a LOGITS segment by whether it fits its row, a slot by whether it is sampling, a token by whether an end reason came before it,
and a head word as a change of its channel alone. -/
theorem rowsAreSampled : Obligations.RowsAreSampled := by
  intro s hup
  refine ⟨fun p g num x ha hch hx => ?segment, fun ch num k hidle => exec_sampleRow_idle hup hidle,
    fun ch num k x t b hx hphase ht hb => exec_sampleRow hup hx hphase ht hb, fun t gr o tok hstop => emitToken_ended t gr tok hstop,
    fun t gr o tok hstop => ⟨emitToken_toks t gr tok hstop, emitToken_genCount t gr tok hstop⟩, fun ch i v => ?head⟩
  case segment =>
    intro ch c vocab fmt size
    rw [exec_segSample_channel ha hch]
    exact ⟨fun hbad => congrArg _ (takeSample_bad hx hbad), fun y hy => congrArg _ (takeSample_joins hx hy)⟩
  case head =>
    exact ⟨_, exec_outHeadRefresh hup ch i v, State.modChan_chan_same _ _ _, rfl, fun k hk => State.modChan_chan_other _ _ _ _ hk⟩

end Sys2Proof.Machine
end

section
/-! Model runs: the order in which they are dispatched, the run that takes the window, and the weight streamer (R259, R262, R263).
The settlement of O30. -/

namespace Sys2Proof.Machine

open Sys2Proof

/-! ### The order of runs (R262) -/

/-- What runs are ordered by: the deadline, none being later than any, then the number taken at acceptance. -/
def runKey (r : ModelRun) : WithTop Nat ×ₗ Nat := toLex (r.deadline, r.id)

theorem dlLt_iff (a b : WithTop Nat) : dlLt a b = true ↔ a < b := by
  cases a with
  | top => simp [dlLt]
  | coe x =>
    cases b with
    | top => exact iff_of_true rfl (WithTop.coe_lt_top x)
    | coe y => exact decide_eq_true_iff.trans WithTop.coe_lt_coe.symm

theorem runBefore_iff (a b : ModelRun) : runBefore a b = true ↔ runKey a ≤ runKey b := by
  rw [runKey, runKey, Prod.Lex.toLex_le_toLex, ← dlLt_iff, runBefore, Bool.or_eq_true, Bool.and_eq_true, beq_iff_eq, decide_eq_true_iff]
  rfl

/-- The fold of `nextRun` keeps a least run of those it has seen. -/
theorem foldl_runBefore_least (l : List ModelRun) (r : ModelRun) :
    let m := l.foldl (fun b q => if runBefore b q then b else q) r
    m ∈ r :: l ∧ ∀ q ∈ r :: l, runKey m ≤ runKey q := by
  induction l generalizing r with
  | nil => simp
  | cons p l ih =>
    rw [List.foldl_cons]
    by_cases h : runBefore r p = true
    · obtain ⟨hmem, hleast⟩ := ih r
      have hp := (hleast r List.mem_cons_self).trans ((runBefore_iff r p).mp h)
      rw [if_pos h]
      grind
    · obtain ⟨hmem, hleast⟩ := ih p
      have hr := (hleast p List.mem_cons_self).trans (not_le.mp (mt (runBefore_iff r p).mpr h)).le
      rw [if_neg h]
      grind

theorem nextRun_first {rs : List ModelRun} {r : ModelRun} (h : nextRun rs = some r) : r ∈ rs ∧ ∀ q ∈ rs, runBefore r q = true := by
  cases rs with
  | nil => cases h
  | cons p rs =>
    obtain rfl := Option.some.inj h
    obtain ⟨hmem, hleast⟩ := foldl_runBefore_least rs p
    exact ⟨hmem, fun q hq => (runBefore_iff _ q).mpr (hleast q hq)⟩

/-! ### A unit joins the queue (R184, R186) -/

/-- The work on the BULK queue, in the order of its acceptance. -/
def Chan.works (c : Chan) : List BulkWork := c.bulk.map (fun u => u.work)

theorem Chan.modUnit_works (c : Chan) (id : Nat) {f : BulkUnit → BulkUnit} (hf : ∀ u, (f u).work = u.work) :
    (c.modUnit id f).works = c.works := by
  rw [Chan.works, Chan.modUnit, List.map_map]
  refine List.map_congr_left fun u _ => ?_
  rw [Function.comp_apply, apply_ite BulkUnit.work, hf, ite_self]

theorem Chan.preempt_works (c : Chan) (u : BulkUnit) : (c.preempt u).works = c.works := by
  unfold Chan.preempt
  split
  · exact c.modUnit_works _ fun _ => rfl
  · rfl

theorem Chan.startUnits_works (l : List Nat) (c : Chan) : (Chan.startUnits l c).works = c.works := by
  induction l generalizing c with
  | nil => rfl
  | cons id r ih =>
    unfold Chan.startUnits
    split
    · exact ih c
    · split
      · exact ih c
      · split
        · rfl
        · refine (ih _).trans ?_
          split <;> exact c.modUnit_works _ fun _ => rfl

theorem Chan.dispatch_works (c : Chan) (minTiles : Nat) : (c.dispatch minTiles).works = c.works := by
  unfold Chan.dispatch
  extract_lets d shared out claimed
  have hshared : shared.works = c.works := rfl
  have hclaimed : claimed.works = c.works := by
    unfold claimed
    split
    · exact List.foldlRecOn (motive := fun e => e.works = c.works) out Chan.preempt hshared fun e he u _ => (e.preempt_works u).trans he
    · exact hshared
  exact (Chan.startUnits_works _ _).trans hclaimed

theorem Chan.pushUnit_works (c : Chan) (width : Nat) (dl : Option Nat) (now minTiles : Nat) (work : BulkWork) :
    (c.pushUnit width dl now minTiles work).works = c.works ++ [work] := by
  unfold Chan.pushUnit
  extract_lets u queued
  have hqueued : queued.works = c.works ++ [work] := List.map_append
  split
  · exact (queued.dispatch_works minTiles).trans hqueued
  · exact hqueued

theorem TileSide.running {c d : Chan} (h : TileSide c d) : d.running = c.running := by rw [h]; rfl
theorem TileSide.window {c d : Chan} (h : TileSide c d) : d.window = c.window := by rw [h]

/-! ### The next layer of the run in hand (R262) -/

theorem pushLayer_idle {ch : Nat} {s : State} (h : (s.chan ch).running = none) : pushLayer ch s = s := by
  rw [pushLayer]
  simp only [h]

/-- A layer whose weights are at hand goes to the tiles. -/
theorem pushLayer_ready {ch : Nat} {s : State} {r : ModelRun} {l : ModelLayer} (hrun : (s.chan ch).running = some r)
    (hlayer : (layersOf (s.chan ch) r.a.profile)[r.layer]? = some l) (hready : layerReady (s.chan ch) r l = true)
    (hbulk : (s.chan ch).bulk = []) :
    pushLayer ch s =
      s.setChan ch ((s.chan ch).pushUnit l.width r.deadline s.now (bulkMinTiles ch s) (.modelLayer r.id r.layer)) := by
  rw [pushLayer]
  simp [hrun, hlayer, hready, hbulk]

/-- The most that it does: one unit joins the channel's queue. -/
theorem pushLayer_cases (ch : Nat) (s : State) :
    pushLayer ch s = s ∨ ∃ width dl work, pushLayer ch s = s.setChan ch ((s.chan ch).pushUnit width dl s.now (bulkMinTiles ch s) work) := by
  unfold pushLayer
  extract_lets c
  split
  · exact .inl rfl
  · split
    · exact .inl rfl
    · split
      · exact .inr ⟨_, _, _, rfl⟩
      · exact .inl rfl

theorem pushLayer_tileSide (ch : Nat) (s : State) : TileSide (s.chan ch) ((pushLayer ch s).chan ch) := by
  rcases pushLayer_cases ch s with h | ⟨width, dl, work, h⟩
  · rw [h]
    exact .refl _
  · rw [h, State.setChan_chan_same]
    exact Chan.pushUnit_tileSide _ _ _ _ _ _

theorem pushLayer_ops (ch : Nat) (s : State) : (pushLayer ch s).ops = s.ops := by
  rcases pushLayer_cases ch s with h | ⟨_, _, _, h⟩ <;> rw [h]
  rfl

theorem pushLayer_out (ch : Nat) (s : State) : (pushLayer ch s).out = s.out := by
  rcases pushLayer_cases ch s with h | ⟨_, _, _, h⟩ <;> rw [h]
  rfl

/-! ### The run that takes the window (R262) -/

/-- A run as it takes the window: its inputs as tokens, with the lengths of its contexts before it. -/
def takenRun (ix : Nat) (r : ModelRun) (is : List RunInput) (c : Chan) : ModelRun :=
  { r with dispatched := true, a := { r.a with inputs := is }, ix := ix, rows := is.map (fun i => i.toks)
           saved := (is.filterMap (fun i => i.context.map (fun k => (k, i.pos)))).map (fun e => (e.1, ctxLen (c.model r.a.profile) e.1)) }

theorem takeWindow_runs (ix : Nat) (r : ModelRun) (is : List RunInput) (c : Chan) :
    (takeWindow ix r is c).runs = c.runs.map (fun q => if q.id = r.id then takenRun ix r is c else q) := rfl

/-- Where no run held the window, the one that takes it holds it. -/
theorem takeWindow_running {ix : Nat} {r : ModelRun} {is : List RunInput} {c : Chan} (hnone : c.running = none) (hr : r ∈ c.runs) :
    (takeWindow ix r is c).running = some (takenRun ix r is c) := by
  have hfound : (takeWindow ix r is c).running.isSome = true := by
    rw [Chan.running, takeWindow_runs, List.find?_isSome]
    exact ⟨takenRun ix r is c, List.mem_map.mpr ⟨r, hr, if_pos rfl⟩, rfl⟩
  obtain ⟨x, hx⟩ := Option.isSome_iff_exists.mp hfound
  have hmem := List.mem_of_find?_eq_some hx
  rw [takeWindow_runs] at hmem
  obtain ⟨q, hq, rfl⟩ := List.mem_map.mp hmem
  by_cases hid : q.id = r.id
  · rw [hx, if_pos hid]
  · have hdispatched := List.find?_some hx
    rw [if_neg hid] at hdispatched
    exact absurd hdispatched (List.find?_eq_none.mp hnone q hq)

/-- The channel that a dispatch acts on: the run's text is tokenized, and what that counts is counted. -/
def tokenized (r : ModelRun) (c : Chan) : Chan := countText (runTokens c r.a).2.1 (runTokens c r.a).2.2 c

@[simp] theorem countText_prof (invalid flushes : Nat) (c : Chan) (p : Nat) : (countText invalid flushes c).prof p = c.prof p := rfl

/-! ### The streamer (R263) -/

theorem fillWindow_idle {c : Chan} (h : c.running = none) : fillWindow c = c := by
  unfold fillWindow
  simp only [h]

/-- The first layer of a model that does not stay in the window goes to buffer A. -/
theorem fillWindow_first {c : Chan} {r : ModelRun} {l : ModelLayer} (hrun : c.running = some r)
    (hresident : (c.model r.a.profile).resident = false) (hstay : mayReside c r.a.profile = false)
    (hlayers : layersOf c r.a.profile = [l]) (hstream : l.stream = true) (hlen : l.wLen ≤ 671088640) (hsteps : r.a.steps = 1)
    (hwindow : c.window = {}) :
    fillWindow c = { c with window := { bufA := some (winKey 0 0), next := 1, buf := 1 } } := by
  unfold fillWindow
  simp [hrun, hresident, hstay, hlayers, hstream, hlen, hsteps, hwindow]

/-! ### The commands -/

section
variable {d : Hdr} {a : RunArgs} {fn ch : Nat} {s : State}

theorem exec_opModelRun (hacc : Accepts 0x41 d fn ch s) :
    exec (.opModelRun d a) s = .next ((runCheck ch fn a s).elim
      (addOp 0x41 d fn ch [(a.inAddr, 16 * a.count), (a.dataAddr, a.dataLen), (a.outAddr, a.outLen)] false (.bulk ch (s.chan ch).nextUnit)
        (s.setChan ch (runAccept d a ch s)))
      fun st => complete d 0x41 st [] [] s) := by
  change execOpModelRun d a s = _
  rw [execOpModelRun, accept_next hacc]
  cases runCheck ch fn a s <;> rfl

theorem runAccept_args : (runAccept d a ch s).runs.map (fun r => r.a) = (s.chan ch).runs.map (fun r => r.a) ++ [a] := List.map_append

variable (hup : s.up = true)
include hup

theorem exec_modelRunDispatch_held {r : ModelRun} (h : (s.chan ch).running = some r) : exec (.modelRunDispatch ch) s = .next s := by
  change execModelRunDispatch ch s = _
  rw [execModelRunDispatch, whenUp_next hup]
  simp only [h]

theorem exec_modelRunDispatch_empty (h : (s.chan ch).runs = []) : exec (.modelRunDispatch ch) s = .next s := by
  change execModelRunDispatch ch s = _
  rw [execModelRunDispatch, whenUp_next hup]
  simp only [h, Chan.running, List.find?_nil, nextRun]

theorem exec_modelRunDispatch {r : ModelRun} (hfree : (s.chan ch).running = none) (hnext : nextRun (s.chan ch).runs = some r) :
    exec (.modelRunDispatch ch) s =
      .next ((lateCheck ((s.chan ch).prof r.a.profile) r.a (runTokens (s.chan ch) r.a).1).elim
        (pushLayer ch (s.setChan ch (takeWindow s.freeIx r (runTokens (s.chan ch) r.a).1 (tokenized r (s.chan ch)))).advanceFree)
        fun st => endRun ch r st (s.setChan ch (tokenized r (s.chan ch)))) := by
  change execModelRunDispatch ch s = _
  rw [execModelRunDispatch, whenUp_next hup]
  cases hlate : lateCheck ((s.chan ch).prof r.a.profile) r.a (runTokens (s.chan ch) r.a).1 <;>
    simp only [hfree, hnext, countText_prof, hlate] <;> rfl

theorem exec_windowFill : exec (.windowFill ch) s = .next (pushLayer ch (s.modChan ch fillWindow)) :=
  whenUp_next (f := fun s => pushLayer ch (s.modChan ch fillWindow)) hup

end

/-- Settles O30: a run by its checks, a dispatch by whether the window is free and the text in its limits, and a fill as the streamer's
copy followed by the layer that it makes ready. -/
theorem modelRunsAreAcceptedAndDispatched : Obligations.ModelRunsAreAcceptedAndDispatched := by
  intro d a fn ch s hup
  refine ⟨fun hacc => ⟨fun hpass => ⟨?accepted, runAccept_args⟩, fun st hbad => ?refused⟩, fun r => exec_modelRunDispatch_held hup,
    exec_modelRunDispatch_empty hup, fun r hfree hnext => ?dispatched, fun hfree => ?idle, exec_windowFill hup,
    fun r l hrun hresident hstay hlayers hstream hlen hsteps hpass hlayer hwindow hbulk => ?first⟩
  case accepted => rw [exec_opModelRun hacc, hpass, Option.elim_none]
  case refused => rw [exec_opModelRun hacc, hbad, Option.elim_some]
  case dispatched =>
    obtain ⟨hmem, hleast⟩ := nextRun_first hnext
    refine ⟨hmem, fun q hq => .inr (hleast q hq), fun st hlate => ?late, fun hintime => ?taken⟩
    case late =>
      rw [exec_modelRunDispatch hup hfree hnext, hlate]
      rfl
    case taken =>
      rw [exec_modelRunDispatch hup hfree hnext, hintime, Option.elim_none]
      set c := takeWindow s.freeIx r (runTokens (s.chan ch) r.a).1 (tokenized r (s.chan ch))
      have hside := pushLayer_tileSide ch (s.setChan ch c).advanceFree
      rw [State.advanceFree_chan, State.setChan_chan_same] at hside
      exact ⟨_, _, rfl, hside.running.trans (takeWindow_running hfree hmem), rfl, rfl, congrArg Window.owner hside.window,
        pushLayer_ops _ _, pushLayer_out _ _⟩
  case idle =>
    have hfill := fillWindow_idle hfree
    have hchan : (s.modChan ch fillWindow).chan ch = s.chan ch := by rw [State.modChan_chan_same, hfill]
    refine ⟨_, exec_windowFill hup, ?_⟩
    rw [pushLayer_idle (by rw [hchan, hfree])]
    exact ⟨hchan, rfl, rfl⟩
  case first =>
    have hchan : (s.modChan ch fillWindow).chan ch = _ :=
      (State.modChan_chan_same _ _ _).trans (fillWindow_first hrun hresident hstay hlayers hstream hlen hsteps hwindow)
    refine ⟨_, exec_windowFill hup, ?_⟩
    rw [pushLayer_ready (r := r) (l := l) (by rw [hchan]; exact hrun) (by rw [hchan, hlayer]; exact congrArg (·[0]?) hlayers)
      (by simp [layerReady, hchan, hpass, hlayer]) (by rw [hchan]; exact hbulk), State.setChan_chan_same, hlayer, hchan]
    refine ⟨congrArg Window.bufA (Chan.pushUnit_tileSide _ _ _ _ _ _).window, (Chan.pushUnit_works _ _ _ _ _ _).trans ?_⟩
    rw [Chan.works, hbulk]
    rfl

end Sys2Proof.Machine
end

section
/-! Generations of Mirror: a trigger and who takes part, the start of a capture, and the generation that a lost acknowledgement abandons (R295, R303,
R306, R366). The settlement of O37. -/

namespace Sys2Proof.Machine

open Sys2Proof

/-! ### Channels changed one after another -/

section
variable {f : State → Nat → State} (hother : ∀ s n k, k ≠ n → (f s n).chan k = s.chan k) {l : List Nat} {n : Nat}
include hother

theorem foldl_chan_notMem (hn : n ∉ l) (s : State) : (l.foldl f s).chan n = s.chan n := by
  induction l generalizing s with
  | nil => rfl
  | cons k l ih =>
    obtain ⟨hk, hl⟩ := not_or.mp (List.mem_cons.not.mp hn)
    exact (ih hl _).trans (hother s k n hk)

/-- A channel of the list is what its own turn made of it, in a state that had it as before. -/
theorem foldl_chan_mem (hl : l.Nodup) (hn : n ∈ l) (s : State) : ∃ t, t.chan n = s.chan n ∧ (l.foldl f s).chan n = (f t n).chan n := by
  induction l generalizing s with
  | nil => cases hn
  | cons k l ih =>
    obtain ⟨hk, hl⟩ := List.nodup_cons.mp hl
    rcases List.mem_cons.mp hn with rfl | hmem
    · exact ⟨s, rfl, foldl_chan_notMem hother hk _⟩
    · obtain ⟨t, ht, hturn⟩ := ih hl hmem (f s k)
      exact ⟨t, ht.trans (hother s k n (fun h => hk (h ▸ hmem))), hturn⟩

end

/-! ### A participant takes part (R295, R306) -/

theorem Chan.markFull_nextStep (c : Chan) : c.markFull.nextStep = c.nextStep := by
  unfold Chan.markFull
  split
  · exact List.foldlRecOn (motive := fun d : Chan => d.nextStep = c.nextStep) _ _ rfl fun _ h _ _ => h
  · rfl

theorem Chan.startGen_mirror (g : Nat) (c : Chan) :
    (c.startGen g).mirror.gen = g ∧ (c.startGen g).mirror.epoch = c.nextStep - 1 ∧ (c.startGen g).mirror.capturing = false :=
  ⟨rfl, congrArg (· - 1) c.markFull_nextStep, rfl⟩

theorem reloadSlot1_chans (n : Nat) (s : State) : reloadSlot1 n s = { s with chans := (reloadSlot1 n s).chans } := by
  unfold reloadSlot1
  split <;> rfl

theorem reloadSlot1_chan_other {n k : Nat} (s : State) (h : k ≠ n) : (reloadSlot1 n s).chan k = s.chan k := by
  unfold reloadSlot1
  split
  · exact State.modChan_chan_other _ _ _ _ h
  · rfl

theorem reloadSlot1_nextStep (n : Nat) (s : State) : ((reloadSlot1 n s).chan n).nextStep = (s.chan n).nextStep := by
  unfold reloadSlot1
  split
  · rw [State.modChan_chan_same]
  · rfl

theorem renewSlot1_chans (n : Nat) (s : State) : renewSlot1 n s = { s with chans := (renewSlot1 n s).chans } := by
  unfold renewSlot1
  extract_lets k
  split
  · rfl
  · rw [reloadSlot1_chans]
    rfl

theorem renewSlot1_chan_other {n k : Nat} (s : State) (h : k ≠ n) : (renewSlot1 n s).chan k = s.chan k := by
  unfold renewSlot1
  extract_lets key
  split
  · rfl
  · exact (State.modChan_chan_other _ _ _ _ h).trans (reloadSlot1_chan_other s h)

theorem renewSlot1_nextStep (n : Nat) (s : State) : ((renewSlot1 n s).chan n).nextStep = (s.chan n).nextStep := by
  unfold renewSlot1
  extract_lets key
  split
  · rfl
  · rw [State.modChan_chan_same]
    exact reloadSlot1_nextStep n s

/-- Channel `n` takes part in generation `g`, with slot 1 under the current key generation. -/
def takesPart (g : Nat) (s : State) (n : Nat) : State := (renewSlot1 n s).modChan n (Chan.startGen g)

theorem takesPart_chans (g : Nat) (s : State) (n : Nat) : takesPart g s n = { s with chans := (takesPart g s n).chans } := by
  unfold takesPart
  rw [renewSlot1_chans]
  rfl

theorem takesPart_chan_other (g : Nat) (s : State) (n k : Nat) (h : k ≠ n) : (takesPart g s n).chan k = s.chan k :=
  (State.modChan_chan_other _ _ _ _ h).trans (renewSlot1_chan_other s h)

theorem takesPart_chan_same (g : Nat) (s : State) (n : Nat) :
    ((takesPart g s n).chan n).mirror.gen = g ∧ ((takesPart g s n).chan n).mirror.epoch = (s.chan n).nextStep - 1 ∧
      ((takesPart g s n).chan n).mirror.capturing = false := by
  unfold takesPart
  rw [State.modChan_chan_same, ← renewSlot1_nextStep n s]
  exact Chan.startGen_mirror g _

theorem foldl_takesPart_chans (g : Nat) (l : List Nat) (s : State) :
    l.foldl (takesPart g) s = { s with chans := (l.foldl (takesPart g) s).chans } :=
  List.foldlRecOn (motive := fun t : State => t = { s with chans := t.chans }) l (takesPart g) rfl fun t ht n _ => by
    rw [takesPart_chans, ht]

/-! ### A generation starts (R295) -/

theorem parties_nodup (s : State) : (parties s).Nodup := (List.nodup_range.filter _).filter _

/-- The device's record of a generation that has just started. -/
def genOpened (priority : Bool) (s : State) : State :=
  { s with mirrorDev := { s.mirrorDev with openGen := some s.mirrorDev.nextGen, nextGen := s.mirrorDev.nextGen + 1, again := false
                                           priority := priority, manifestOut := false } }

/-- From `s` to `t` the next generation has started, and every participant takes part in it. -/
structure GenStarted (s t : State) : Prop where
  openGen : t.mirrorDev.openGen = some s.mirrorDev.nextGen
  nextGen : t.mirrorDev.nextGen = s.mirrorDev.nextGen + 1
  again : t.mirrorDev.again = false
  takesPart : ∀ n ∈ parties s, (t.chan n).mirror.gen = s.mirrorDev.nextGen ∧ (t.chan n).mirror.epoch = (s.chan n).nextStep - 1 ∧
    (t.chan n).mirror.capturing = false
  others : ∀ n, n ∉ parties s → t.chan n = s.chan n
  ops : t.ops = s.ops

section
variable {s : State} (priority : Bool)

theorem startGen_alone (h : parties s = []) : startGen priority s = completeGen s.mirrorDev.nextGen (genOpened priority s) :=
  if_pos (by rw [h]; rfl)

theorem startGen_parties (h : parties s ≠ []) :
    startGen priority s = (parties s).foldl (takesPart s.mirrorDev.nextGen) (genOpened priority s) :=
  if_neg (by simpa using h)

theorem startGen_started (h : parties s ≠ []) : GenStarted s (startGen priority s) := by
  have hother := takesPart_chan_other s.mirrorDev.nextGen
  rw [startGen_parties priority h]
  have hchans := foldl_takesPart_chans s.mirrorDev.nextGen (parties s) (genOpened priority s)
  have hdev := congrArg State.mirrorDev hchans
  refine ⟨by rw [hdev]; rfl, by rw [hdev]; rfl, by rw [hdev]; rfl, fun n hn => ?_, fun n hn => foldl_chan_notMem hother hn _,
    by rw [congrArg State.ops hchans]; rfl⟩
  obtain ⟨t, ht, hturn⟩ := foldl_chan_mem hother (parties_nodup s) hn (genOpened priority s)
  rw [hturn, show s.chan n = t.chan n from ht.symm]
  exact takesPart_chan_same _ t n

end

/-! ### A generation is complete (R305) -/

theorem foldl_modChan_chans (f : Chan → Chan) (l : List Nat) (s : State) :
    l.foldl (fun s n => s.modChan n f) s = { s with chans := (l.foldl (fun s n => s.modChan n f) s).chans } :=
  List.foldlRecOn (motive := fun t : State => t = { s with chans := t.chans }) l _ rfl fun t ht n _ => by
    rw [ht]
    rfl

/-- The operations that a test selects have all ended once each has been ended in its turn. -/
theorem foldl_endOp_ends {p : RunOp → Bool} {st : Status} {res : List Nat} {s : State} {o : RunOp}
    (ho : o ∈ ((s.ops.filter p).foldl (fun s op => endOp op st res [] s) s).ops) : p o = false := by
  have hrest (l : List RunOp) (s : State) : (l.foldl (fun s op => endOp op st res [] s) s).ops.Sublist (s.ops.diff l) := by
    induction l generalizing s with
    | nil => exact .refl _
    | cons op l ih =>
      rw [List.diff_cons]
      exact (ih _).trans (endOp_windsDown_dropOp op st res s).ops.diff_right
  by_contra hp
  rw [Bool.not_eq_false] at hp
  have hmem := (hrest _ s).subset ho
  rw [← List.count_pos_iff, List.count_diff, List.count_filter hp] at hmem
  omega

section
variable {g : Nat} {s : State}

/-- The generation is complete on its participants and on the device; its snapshots have yet to complete. -/
def genClosed (g : Nat) (s : State) : State :=
  let s := (partsOf g s).foldl (fun s n => s.modChan n Chan.completeGen) s
  { s with mirrorDev := { s.mirrorDev with openGen := none, manifestOut := false, priority := false } }

theorem completeGen_eq (g : Nat) (s : State) :
    completeGen g s =
      ((genClosed g s).ops.filter (fun o => o.kind == .snapshot g)).foldl (fun s o => endOp o .ok [g] [] s) (genClosed g s) := rfl

theorem genClosed_mirrorDev (g : Nat) (s : State) :
    (genClosed g s).mirrorDev = { s.mirrorDev with openGen := none, manifestOut := false, priority := false } := by
  unfold genClosed
  rw [foldl_modChan_chans]

theorem completeGen_mirrorDev (g : Nat) (s : State) :
    (completeGen g s).mirrorDev = { s.mirrorDev with openGen := none, manifestOut := false, priority := false } := by
  rw [completeGen_eq, ← genClosed_mirrorDev]
  obtain ⟨-, -, -, -, -, -, -, -, -, -, -, -, -, hdev⟩ :=
    (foldl_host _ (fun s o => endOp_host o .ok [g] [] s) ((genClosed g s).ops.filter (fun o => o.kind == .snapshot g)) (genClosed g s)).parts
  exact hdev

theorem completeGen_ends {o : RunOp} (ho : o ∈ (completeGen g s).ops) : o.kind ≠ .snapshot g := by
  rw [completeGen_eq] at ho
  exact beq_eq_false_iff_ne.mp (foldl_endOp_ends ho)

/-- With no participant and one snapshot outstanding, the end of a generation is the completion of that snapshot. -/
theorem completeGen_one {op : RunOp} (hparts : partsOf g s = []) (hops : s.ops.filter (fun o => o.kind == .snapshot g) = [op]) :
    completeGen g s =
      endOp op .ok [g] [] { s with mirrorDev := { s.mirrorDev with openGen := none, manifestOut := false, priority := false } } := by
  have hclosed : genClosed g s = { s with mirrorDev := { s.mirrorDev with openGen := none, manifestOut := false, priority := false } } := by
    unfold genClosed
    rw [hparts]
    rfl
  rw [completeGen_eq, hclosed, hops]
  rfl

end

/-! ### A trigger (R295) -/

/-- From `s` to `t` a generation has been asked for, to start when the open one ends. -/
structure GenAsked (s t : State) : Prop where
  again : t.mirrorDev.again = true
  openGen : t.mirrorDev.openGen = s.mirrorDev.openGen
  nextGen : t.mirrorDev.nextGen = s.mirrorDev.nextGen
  chans : t.chans = s.chans
  ops : t.ops = s.ops

section
variable {s : State} (priority : Bool)

theorem trigger_closed (h : s.mirrorDev.openGen = none) : trigger priority s = startGen priority s := by
  rw [trigger, h]

theorem trigger_open (h : s.mirrorDev.openGen.isSome = true) : GenAsked s (trigger priority s) := by
  obtain ⟨g, hg⟩ := Option.isSome_iff_exists.mp h
  unfold trigger
  rw [hg]
  exact ⟨rfl, rfl, rfl, rfl, rfl⟩

theorem trigger_ops (h : s.mirrorDev.openGen.isSome = true ∨ parties s ≠ []) : (trigger priority s).ops = s.ops := by
  cases hopen : s.mirrorDev.openGen with
  | some g => exact (trigger_open priority (by rw [hopen]; rfl)).ops
  | none =>
    rw [trigger_closed priority hopen]
    exact (startGen_started priority (h.resolve_left (by rw [hopen]; exact Bool.false_ne_true))).ops

theorem mirrorNext_none (h : s.mirrorDev.openGen.isSome = true ∨ s.mirrorDev.again = false) : mirrorNext s = s := by
  refine if_neg fun hnext => ?_
  obtain ⟨hnone, hagain⟩ := (Bool.and_eq_true _ _).mp hnext
  rcases h with h | h
  · rw [Option.isNone_iff_eq_none.mp hnone] at h
    cases h
  · exact Bool.false_ne_true (h.symm.trans hagain)

end

/-! ### The start of a capture (R184, R295, R306, R366) -/

/-- The copies of a channel have a deadline, from the start of their capture on. -/
def Chan.withDeadline (dl : Nat) (c : Chan) : Chan :=
  if c.mirror.capturing then c else { c with mirror := { c.mirror with deadline := dl } }

section
variable {dl : Nat} {c : Chan}

theorem Chan.withDeadline_cases (dl : Nat) (c : Chan) : ∃ d, c.withDeadline dl = { c with mirror := { c.mirror with deadline := d } } := by
  unfold Chan.withDeadline
  split
  · exact ⟨c.mirror.deadline, rfl⟩
  · exact ⟨dl, rfl⟩

/-- A deadline set leaves what the start of a capture looks at. -/
theorem Chan.withDeadline_keeps (dl : Nat) (c : Chan) :
    (c.withDeadline dl).role = c.role ∧ (c.withDeadline dl).lens = c.lens ∧ (c.withDeadline dl).epochEnded = c.epochEnded ∧
      (c.withDeadline dl).mirror.gen = c.mirror.gen ∧ (c.withDeadline dl).mirror.capturing = c.mirror.capturing ∧
      (c.withDeadline dl).mirror.ended = c.mirror.ended ∧ (c.withDeadline dl).mirror.full = c.mirror.full := by
  obtain ⟨d, hd⟩ := c.withDeadline_cases dl
  rw [hd]
  exact ⟨rfl, rfl, rfl, rfl, rfl, rfl, rfl⟩

/-- A capture begun, of sessions or of an index. -/
def Chan.beginCapture (epoch : Nat) (todo : List Nat) (c : Chan) : Chan :=
  { c with mirror := { c.mirror with epoch := epoch, capturing := true, todo := todo } }

theorem captureStart_session (h : c.role ≠ .search) :
    captureStart dl c = if c.mirror.gen ≠ 0 ∧ !c.mirror.capturing ∧ !c.mirror.ended ∧ c.epochEnded then
        (c.withDeadline dl).beginCapture (c.withDeadline dl).mirror.epoch (c.withDeadline dl).captureList
      else c.withDeadline dl := by
  obtain ⟨hrole, -, hepoch, hgen, hcapturing, hended, -⟩ := c.withDeadline_keeps dl
  rw [← hgen, ← hcapturing, ← hended, ← hepoch]
  exact if_neg (fun hsearch => h (hrole.symm.trans hsearch))

theorem captureStart_index (h : c.role = .search) :
    captureStart dl c = if c.mirror.gen ≠ 0 ∧ !c.mirror.capturing ∧ !c.mirror.ended ∧ c.lens.writes.isEmpty then
        ((c.withDeadline dl).modLens (fun x => { x with dirty := [], copied := [] })).beginCapture c.lens.epoch
          (if c.mirror.full then allUnits (c.withDeadline dl) else c.lens.dirty.reverse)
      else c.withDeadline dl := by
  obtain ⟨hrole, hlens, -, hgen, hcapturing, hended, hfull⟩ := c.withDeadline_keeps dl
  rw [← hgen, ← hcapturing, ← hended, ← hfull, ← hlens]
  exact if_pos (hrole.trans h)

/-- A channel that is not in a generation, captures already, has ended its shard, or still has work of the epoch, begins no capture. -/
theorem captureStart_waits (h : c.mirror.gen = 0 ∨ c.mirror.capturing = true ∨ c.mirror.ended = true ∨
    (c.role ≠ .search ∧ c.epochEnded = false) ∨ (c.role = .search ∧ c.lens.writes ≠ [])) : captureStart dl c = c.withDeadline dl := by
  by_cases hrole : c.role = .search
  · rw [captureStart_index hrole]
    refine if_neg fun ⟨hgen, hcapturing, hended, hwrites⟩ => ?_
    simp_all
  · rw [captureStart_session hrole]
    refine if_neg fun ⟨hgen, hcapturing, hended, hepoch⟩ => ?_
    simp_all

variable (hgen : c.mirror.gen ≠ 0) (hcapturing : c.mirror.capturing = false) (hended : c.mirror.ended = false)
include hgen hcapturing hended

theorem captureStart_begins (hrole : c.role ≠ .search) (hepoch : c.epochEnded = true) :
    captureStart dl c = (c.withDeadline dl).beginCapture (c.withDeadline dl).mirror.epoch (c.withDeadline dl).captureList := by
  rw [captureStart_session hrole]
  exact if_pos ⟨hgen, by rw [hcapturing]; rfl, by rw [hended]; rfl, hepoch⟩

theorem captureStart_declares (hrole : c.role = .search) (hwrites : c.lens.writes = []) :
    captureStart dl c = ((c.withDeadline dl).modLens (fun x => { x with dirty := [], copied := [] })).beginCapture c.lens.epoch
      (if c.mirror.full then allUnits (c.withDeadline dl) else c.lens.dirty.reverse) := by
  rw [captureStart_index hrole]
  exact if_pos ⟨hgen, by rw [hcapturing]; rfl, by rw [hended]; rfl, by rw [hwrites]; rfl⟩

end

/-! ### A generation is abandoned (R303) -/

theorem Chan.abandonGen_mirror (c : Chan) : c.abandonGen.mirror.gen = 0 ∧ c.abandonGen.mirror.capturing = false ∧
    c.abandonGen.mirror.sent = c.mirror.sent.filter (fun r => r.gen != c.mirror.gen) := ⟨rfl, rfl, rfl⟩

/-- A channel leaves generation `g` where it is in it. -/
def leavesGen (g : Nat) (s : State) (n : Nat) : State := if (s.chan n).mirror.gen = g then s.modChan n Chan.abandonGen else s

theorem leavesGen_chan_other (g : Nat) (s : State) (n k : Nat) (h : k ≠ n) : (leavesGen g s n).chan k = s.chan k := by
  unfold leavesGen
  split
  · exact State.modChan_chan_other _ _ _ _ h
  · rfl

/-- Every channel and the device have left generation `g`; its requests are still awaited, and its snapshots have yet to complete. -/
def genLeft (g : Nat) (s : State) : State :=
  let s := (List.range 8).foldl (leavesGen g) s
  { s with mirrorDev := { s.mirrorDev with openGen := none, manifestOut := false, priority := false } }

section
variable {g n : Nat} {s : State}

theorem abandonGen_host (hopen : s.mirrorDev.openGen = some g) : HostSide (genLeft g s) (abandonGen s) := by
  have hleave : leavesGen g = fun s n => if (s.chan n).mirror.gen = g then s.modChan n Chan.abandonGen else s := rfl
  unfold abandonGen genLeft
  rw [hopen, hleave]
  exact (dropReqs_req _ _).host.trans (foldl_host _ (fun s o => endOp_host o .mirrorAbandoned [g] [] s) _ _)

theorem abandonGen_openGen (s : State) : (abandonGen s).mirrorDev.openGen = none := by
  cases hopen : s.mirrorDev.openGen with
  | none =>
    unfold abandonGen
    rw [hopen]
    exact hopen
  | some g =>
    obtain ⟨-, -, -, -, -, -, -, -, -, -, -, -, -, hdev⟩ := (abandonGen_host hopen).parts
    rw [hdev]
    rfl

theorem abandonGen_chan (hopen : s.mirrorDev.openGen = some g) :
    (abandonGen s).chan n = ((List.range 8).foldl (leavesGen g) s).chan n := by
  rw [(abandonGen_host hopen).chan, genLeft, State.chan, State.chan]

/-- Every channel that was in the open generation has left it. -/
theorem abandonGen_chan_party (hopen : s.mirrorDev.openGen = some g) (hn : n < 8) (hgen : (s.chan n).mirror.gen = g) :
    (abandonGen s).chan n = (s.chan n).abandonGen := by
  obtain ⟨t, ht, hturn⟩ := foldl_chan_mem (leavesGen_chan_other g) List.nodup_range (List.mem_range.mpr hn) s
  rw [abandonGen_chan hopen, hturn, leavesGen, if_pos (by rw [ht, hgen]), State.modChan_chan_same, ht]

/-- The next generation of a channel that has lost its buddy's answer is full, and with a buddy that is down it sends nothing. -/
def Chan.nextFull (down : Bool) (c : Chan) : Chan :=
  { c with mirror := { c.mirror with full := true, noBuddy := c.mirror.noBuddy || down } }

/-- What an unprotected channel leaves, up to its events. -/
theorem unprotected_host (n : Nat) (st : Status) (s : State) :
    ∃ down, HostSide ((abandonGen s).modChan n (Chan.nextFull down)) (unprotected n st s) :=
  ⟨_, (raiseEvent_host _ _ _ _).trans (raiseEvent_host _ _ _ _)⟩

theorem unprotected_openGen (n : Nat) (st : Status) (s : State) : (unprotected n st s).mirrorDev.openGen = none := by
  obtain ⟨down, hhost⟩ := unprotected_host n st s
  obtain ⟨-, -, -, -, -, -, -, -, -, -, -, -, -, hdev⟩ := hhost.parts
  rw [hdev]
  exact abandonGen_openGen s

theorem unprotected_full (n : Nat) (st : Status) (s : State) : ((unprotected n st s).chan n).mirror.full = true := by
  obtain ⟨down, hhost⟩ := unprotected_host n st s
  rw [hhost.chan, State.modChan_chan_same]
  rfl

theorem unprotected_chan_mirror (n : Nat) (st : Status) (s : State) (m : Nat) :
    ((unprotected n st s).chan m).mirror.gen = ((abandonGen s).chan m).mirror.gen ∧
      ((unprotected n st s).chan m).mirror.capturing = ((abandonGen s).chan m).mirror.capturing ∧
      ((unprotected n st s).chan m).mirror.sent = ((abandonGen s).chan m).mirror.sent := by
  obtain ⟨down, hhost⟩ := unprotected_host n st s
  rw [hhost.chan]
  by_cases hm : m = n
  · subst hm
    rw [State.modChan_chan_same]
    exact ⟨rfl, rfl, rfl⟩
  · rw [State.modChan_chan_other _ _ _ _ hm]
    exact ⟨rfl, rfl, rfl⟩

theorem unprotected_abandons {m : Nat} {st : Status} (hopen : s.mirrorDev.openGen = some g) (hm : m < 8) (hgen : (s.chan m).mirror.gen = g) :
    ((unprotected n st s).chan m).mirror.gen = 0 ∧ ((unprotected n st s).chan m).mirror.capturing = false ∧
      ∀ r ∈ ((unprotected n st s).chan m).mirror.sent, r.gen ≠ g := by
  obtain ⟨hgen', hcapturing, hsent⟩ := unprotected_chan_mirror n st s m
  rw [abandonGen_chan_party hopen hm hgen] at hgen' hcapturing hsent
  refine ⟨hgen', hcapturing, fun r hr => ?_⟩
  rw [hsent, (Chan.abandonGen_mirror _).2.2, hgen] at hr
  exact bne_iff_ne.mp (List.mem_filter.mp hr).2

end

/-! ### The commands -/

section
variable {s : State}

theorem exec_opMirrorSnapshot {d : Hdr} {fn target : Nat} (hacc : Accepts 0x48 d fn target s) :
    exec (.opMirrorSnapshot d) s = .next (trigger false (addOp 0x48 d fn target [] true (.snapshot s.mirrorDev.nextGen) s)) := by
  change execOpMirrorSnapshot d s = _
  rw [execOpMirrorSnapshot, accept_next hacc]

variable (hup : s.up = true)
include hup

theorem exec_mirrorInterval : exec .mirrorInterval s = .next (if (parties s).isEmpty then s else trigger false s) := by
  change execMirrorInterval s = _
  rw [execMirrorInterval, whenUp_next hup]

theorem exec_captureStart (n : Nat) :
    exec (.captureStart n) s = .next (lensPump n ((mirrorNext s).modChan n (captureStart (deviceDl n s)))) := by
  change execCaptureStart n s = _
  rw [execCaptureStart, whenUp_next hup]

theorem exec_mirrorAckTimeout (n : Nat) : exec (.mirrorAckTimeout n) s = .next (mirrorAckTimeout n s) := by
  change execMirrorAckTimeout n s = _
  rw [execMirrorAckTimeout, whenUp_next hup]

end

/-- Settles O37: a trigger by whether a generation is open and who takes part, a capture by the role of its channel, and a lost acknowledgement by
what abandoning the generation leaves of its participants. That a generation with no participant is complete at once is the model's choice (log
entry 22). -/
theorem generationsStartAndEnd : Obligations.GenerationsStartAndEnd := by
  intro d fn target s hup g starts asks
  have hasks {u t : State} (hu : u.mirrorDev = s.mirrorDev) (hc : u.chans = s.chans) (h : GenAsked u t) : asks t :=
    ⟨h.again, h.openGen.trans (congrArg _ hu), h.nextGen.trans (congrArg _ hu), h.chans.trans hc⟩
  refine ⟨fun hacc => ⟨_, exec_opMirrorSnapshot hacc, ?snapshot⟩, fun hnone => ?nobody, fun hsome => ⟨trigger false s, ?interval⟩,
    exec_captureStart hup, mirrorNext_none, fun c dl => ⟨captureStart_waits, fun hgen hcapturing hended =>
      ⟨captureStart_begins hgen hcapturing hended, fun hrole hwrites => ?declares⟩⟩, fun n hquiet => ?quiet, fun n hawaits => ?timeout,
    fun n st u => ⟨unprotected_openGen n st u, unprotected_full n st u, fun k hopen m hm hgen => unprotected_abandons hopen hm hgen⟩⟩
  case snapshot =>
    set op : RunOp := ⟨d, fn, 0x48, target, true, false, s.now, [], .snapshot g⟩
    set u := addOp 0x48 d fn target [] true (.snapshot s.mirrorDev.nextGen) s
    refine ⟨fun h => trigger_ops false h, fun hopen => hasks (u := u) rfl rfl (trigger_open false hopen), fun hclosed hsome => ?_,
      fun hclosed hnone => ?_, fun hclosed hnone hparts hnew => ?_⟩ <;> rw [trigger_closed (s := u) false hclosed]
    · obtain ⟨hopenGen, hnextGen, hagain, hparty, hothers, -⟩ := startGen_started false (s := u) hsome
      exact ⟨hopenGen, hnextGen, hagain, hparty, hothers⟩
    · rw [startGen_alone false (s := u) hnone]
      refine ⟨?_, ?_, fun o ho => completeGen_ends ho⟩ <;> rw [completeGen_mirrorDev]
      rfl
    · have hfilter : u.ops.filter (fun o => o.kind == .snapshot g) = [op] := by
        have hold : s.ops.filter (fun o => o.kind == .snapshot g) = [] :=
          List.filter_eq_nil_iff.mpr fun o ho => by simpa using hnew o ho
        have hone : [op].filter (fun o => o.kind == .snapshot g) = [op] := List.filter_cons_of_pos (beq_self_eq_true _)
        rw [show u.ops = s.ops ++ [op] from rfl, List.filter_append, hold, hone, List.nil_append]
      rw [startGen_alone false (s := u) hnone]
      exact completeGen_one hparts hfilter
  case nobody => rw [exec_mirrorInterval hup, hnone]; rfl
  case interval =>
    refine ⟨by rw [exec_mirrorInterval hup, if_neg (by simpa using hsome)], trigger_ops false (.inr hsome),
      fun hopen => hasks rfl rfl (trigger_open false hopen), fun hclosed => ?_⟩
    rw [trigger_closed false hclosed]
    obtain ⟨hopenGen, hnextGen, hagain, hparty, hothers, -⟩ := startGen_started false hsome
    exact ⟨hopenGen, hnextGen, hagain, hparty, hothers⟩
  case declares =>
    rw [captureStart_declares hgen hcapturing hended hrole hwrites]
    exact ⟨rfl, rfl, rfl, rfl⟩
  case quiet => rw [exec_mirrorAckTimeout hup, mirrorAckTimeout, if_neg (by rw [hquiet]; exact Bool.false_ne_true)]
  case timeout =>
    rw [exec_mirrorAckTimeout hup, mirrorAckTimeout, if_pos hawaits]

end Sys2Proof.Machine
end

section
/-! Restores and rollbacks: a session rebuilt at a free entry, what a restore applies, and what a rollback makes of each session (R310 to R316, R366,
R454). The settlement of O39. -/

namespace Sys2Proof.Machine

open Sys2Proof

/-! ### What allocation and parking leave of the directory -/

theorem Chan.takeIn_kvSide (c : Chan) (t base k : Nat) : KvSide c (c.takeIn t base k).2 := c.setTier_kvSide t _

theorem Chan.takeRuns_kvSide (c : Chan) (tier base mode : Nat) (fs : List (Nat × Nat)) : KvSide c (c.takeRuns tier base mode fs).2 := by
  induction fs generalizing c with
  | nil => exact .refl c
  | cons f r ih =>
    have hone := c.takeIn_kvSide tier base (classFor (parkedBytes tier mode f))
    unfold Chan.takeRuns
    split <;> rename_i htaken <;> rw [htaken] at hone
    · exact hone
    · rename_i c'
      have hrest := ih c'
      split <;> rename_i hmore <;> rw [hmore] at hrest <;> exact hone.trans hrest

theorem Chan.abandonCopy_kvSide (c : Chan) (d : Nat) : KvSide c (c.abandonCopy d) := by
  unfold Chan.abandonCopy
  extract_lets p
  split
  · exact .refl c
  · exact (c.freeRunOf_kvSide d _ _).trans (Chan.modPage_kvSide _ _ _)

section
variable {w : Wm} {tier base ix : Nat} {x : Profile}

theorem parkOne_kvSide (p : Page) (e : Nat) (c : Chan) : KvSide c (parkOne w tier base ix x p e c).2.2 := by
  unfold parkOne
  split
  · split
    · exact .refl c
    · have htake := c.takeT2_kvSide w p.pin p.sizeClass
      split <;> rename_i htaken <;> rw [htaken] at htake <;> exact htake
  · split
    · exact .refl c
    · extract_lets pl
      split
      · exact .refl c
      · have htake := c.takeIn_kvSide tier base (classFor (framed p.mode pl.2))
        split <;> rename_i htaken <;> rw [htaken] at htake <;> exact htake

theorem parkPages_kvSide (es : List (Nat × Nat)) (c : Chan) (acc : Tbl (Loc × Nat × Nat)) :
    KvSide c (parkPages w tier base ix x es c acc).2 := by
  induction es generalizing c acc with
  | nil => exact .refl c
  | cons e r ih =>
    have hone := parkOne_kvSide (w := w) (tier := tier) (base := base) (ix := ix) (x := x) (c.page e.2) e.1 c
    unfold parkPages
    split <;> rename_i hparked <;> rw [hparked] at hone
    · exact hone
    · exact hone.trans (ih _ _)
    · exact hone.trans (ih _ _)

end

theorem Chan.withRegions_kvSide (c : Chan) (n : Nat) (s : State) : KvSide c (c.withRegions n s) := rfl

theorem parkPlan_kvSide (n i ix : Nat) (s : State) : KvSide (s.chan n) (parkPlan n i ix s).2 := by
  unfold parkPlan
  extract_lets c0 e x base es c
  have hregions : KvSide (s.chan n) c0 := Chan.withRegions_kvSide _ n s
  have hcopies : KvSide c0 c := foldl_kvSide fun c q => c.abandonCopy_kvSide q.2
  have hpages := parkPages_kvSide (w := wmOf n s) (tier := e.parkTier) (base := base) (ix := ix) (x := x) es c []
  split <;> rename_i hplanned <;> rw [hplanned] at hpages
  · exact hregions.trans (c0.withFails_kvSide _)
  · rename_i c'
    have hruns := c'.takeRuns_kvSide e.parkTier base e.stackMode
      (parkStateForms e.parkTier e.stackMode (parkLeaves x e.kvLen) (c'.queue i).granules.length (ix + 16777216))
    split <;> rename_i htaken <;> rw [htaken] at hruns
    · exact hregions.trans (c0.withFails_kvSide _)
    · exact ((hregions.trans hcopies).trans hpages).trans hruns

/-- Every page of a plan stands at its park tier. -/
def pagesParked (i : Nat) (plan : Tbl (Loc × Nat × Nat)) (c : Chan) : Chan :=
  plan.foldl (fun c q => match c.pageAt i q.1 with | some d => parkSwitch i d q.2 c | none => c) c

theorem pagesParked_kvSide (i : Nat) (plan : Tbl (Loc × Nat × Nat)) (c : Chan) : KvSide c (pagesParked i plan c) :=
  foldl_kvSide fun c q => by
    split
    · exact parkSwitch_kvSide i _ _ c
    · exact .refl c

theorem Chan.seal_dirs {c d : Chan} {slot : Nat} (h : c.seal slot = some d) : d.dirs = c.dirs := by
  unfold Chan.seal at h
  extract_lets k at h
  split at h
  · cases h
  · cases h
    rfl

theorem parkWrites_dirs (n i : Nat) (plan : Tbl (Loc × Nat × Nat)) (runs : List (Loc × Nat × Nat)) (s : State) :
    ((parkWrites n i plan runs s).chan n).dirs = (s.chan n).dirs := by
  unfold parkWrites
  extract_lets mode ws
  refine List.foldlRecOn (motive := fun t : State => (t.chan n).dirs = (s.chan n).dirs) ws _ rfl fun t ht w _ => ?_
  split
  · exact ht
  · rename_i c hsealed
    extract_lets target
    split
    · rename_i u hsent
      rw [State.advanceFree_chan, (sendReq_req hsent).host.chan, State.setChan_chan_same, Chan.seal_dirs hsealed, ht]
    · exact ht

/-! ### A session rebuilt (R42, R313) -/

/-- The entry of a session rebuilt at `i`: its mapped state, and the count and the epoch that the channel had for it. -/
structure Rebuilt (i : Nat) (x : StoredSession) (c d : Chan) : Prop where
  state : (d.dir i).state = mappedState x.dir
  count : (d.dir i).count = (c.dir i).count
  epoch : (d.dir i).epoch = c.epoch

section
variable {i : Nat} {x : StoredSession} {c d e : Chan}

theorem Rebuilt.of_dirs (h : Rebuilt i x c d) (hdirs : e.dirs = d.dirs) : Rebuilt i x c e := by
  have hdir := Chan.dir_congr hdirs i
  exact ⟨by rw [hdir, h.state], by rw [hdir, h.count], by rw [hdir, h.epoch]⟩

theorem Rebuilt.modDir (h : Rebuilt i x c d) {f : Dir → Dir} (hstate : (f (d.dir i)).state = mappedState x.dir)
    (hcount : (f (d.dir i)).count = (d.dir i).count) (hepoch : (f (d.dir i)).epoch = (d.dir i).epoch) : Rebuilt i x c (d.modDir i f) := by
  refine ⟨?_, ?_, ?_⟩ <;> rw [Chan.modDir_dir_same]
  · exact hstate
  · exact hcount.trans h.count
  · exact hepoch.trans h.epoch

theorem Rebuilt.countPages (h : Rebuilt i x c d) : Rebuilt i x c (d.countPages i) := h.modDir h.state rfl rfl

/-- The end of a park leaves a session PARKED, which is what a session captured parked is rebuilt in. -/
theorem Rebuilt.parkEnd (h : Rebuilt i x c d) (hparked : capturedParked x.dir = true) (tier : Nat) (runs : List (Loc × Nat × Nat)) :
    Rebuilt i x c (parkEnd i tier runs d) := by
  obtain ⟨b, r, hend⟩ := parkEnd_dir i tier runs d
  have hmapped : mappedState x.dir = .parked := if_pos hparked
  exact ⟨by rw [hend, hmapped], by rw [hend]; exact h.count, by rw [hend]; exact h.epoch⟩

/-- A session rebuilt goes straight to its park tier once its park is planned (R313). -/
theorem Rebuilt.park {n ix tier : Nat} {u : State} {plan : Tbl (Loc × Nat × Nat)} {runs : List (Loc × Nat × Nat)}
    (h : Rebuilt i x c (u.chan n)) (hparked : capturedParked x.dir = true) (hplan : parkPlan n i ix u = (some (plan, runs), e)) :
    Rebuilt i x c ((Machine.parkEnd i tier runs (pagesParked i plan e)).countPages i) := by
  have hplanned := parkPlan_kvSide n i ix u
  rw [hplan] at hplanned
  exact ((h.of_dirs ((pagesParked_kvSide i plan e).dirs.trans hplanned.dirs)).parkEnd hparked tier runs).countPages

theorem rebuildDir_rebuilt (i : Nat) (x : StoredSession) (c : Chan) : Rebuilt i x c (rebuildDir i x c) := by
  unfold rebuildDir
  extract_lets _ e _ b entered _ _
  have hdir : entered.dir i = e := Chan.setDir_dir_same c i e
  refine Rebuilt.of_dirs (d := entered) ⟨?_, ?_, ?_⟩ (Chan.bindSlots_dirs _ e) <;> rw [hdir]

theorem Chan.queueEncodes_dirs (c : Chan) (i : Nat) (es : List Nat) (deadline : Nat) : (c.queueEncodes i es deadline).dirs = c.dirs := by
  unfold Chan.queueEncodes
  extract_lets x
  refine List.foldlRecOn (motive := fun d : Chan => d.dirs = c.dirs) es _ rfl fun d hd e _ => ?_
  split
  · split
    · rw [d.pushJob_runSide, hd]
    · exact hd
  · exact hd

variable {w : Wm} {straight : Bool}

theorem rebuildPage_dirs {q : Nat × List (List Byte) × List (List Byte)} (h : rebuildPage w straight i q c = .ok d) : d.dirs = c.dirs := by
  unfold rebuildPage at h
  extract_lets e x lf run at h
  have hleaf : KvSide c lf.2 := by
    unfold lf
    split
    · exact .refl c
    · exact c.needLeaf_kvSide w _ i q.1
  split at h
  · cases h
  · split at h
    · cases h
    · have hrun : KvSide lf.2 run.2 := by
        unfold run
        split
        · exact .refl _
        · exact Chan.takePlaced_kvSide _ w _ _
      clear_value run
      split at h
      · cases h
      · cases h
        exact (hleaf.trans hrun).dirs

theorem rebuildPages_dirs {qs : List (Nat × List (List Byte) × List (List Byte))} (h : rebuildPages w straight i qs c = .ok d) :
    d.dirs = c.dirs := by
  induction qs generalizing c with
  | nil =>
    cases h
    rfl
  | cons q r ih =>
    unfold rebuildPages at h
    split at h
    · cases h
    · rename_i hpage
      exact (ih h).trans (rebuildPage_dirs hpage)

theorem rebuildQueue_dirs {ws : List Nat} (h : rebuildQueue w i ws c = .ok d) : d.dirs = c.dirs := by
  have htake := c.takeMany_kvSide w (c.placement i) 0 (queueGranules ws.length)
  unfold rebuildQueue at h
  split at h <;> rename_i htaken <;> rw [htaken] at htake
  · cases h
  · cases h
    rw [← htake.dirs]
    split <;> rfl

end

section
variable {n i : Nat} {x : StoredSession} {s t : State}

theorem rebuildAt_rebuilt (h : rebuildAt n i x s = .ok t) : Rebuilt i x (s.chan n) (t.chan n) := by
  unfold rebuildAt at h
  extract_lets w entered straight at h
  have hentered : Rebuilt i x (s.chan n) entered := rebuildDir_rebuilt i x _
  split at h
  · cases h
  rename_i queued hqueue
  have hqueued := hentered.of_dirs (rebuildQueue_dirs hqueue)
  split at h
  · rename_i hparked
    split at h
    · cases h
    rename_i paged hpages
    have hpaged := hqueued.of_dirs (rebuildPages_dirs hpages)
    extract_lets u taken at h
    split at h
    · cases h
    rename_i plan runs c hplan
    extract_lets tier moved parked at h
    have hrebuilt : Rebuilt i x (s.chan n) (parked.chan n) := by
      unfold parked
      rw [State.setChan_chan_same]
      refine Rebuilt.park ?_ hparked hplan
      rwa [State.setChan_chan_same]
    rw [← Except.ok.inj h]
    split
    · exact hrebuilt
    · exact hrebuilt.of_dirs (parkWrites_dirs n i plan runs parked)
  · have hblock := queued.takeBlock_kvSide w (queued.placement i)
    split at h <;> rename_i htaken <;> rw [htaken] at hblock
    · cases h
    rename_i b r c
    extract_lets placed at h
    have hroom := hqueued.of_dirs hblock.dirs
    have hplaced : Rebuilt i x (s.chan n) placed := hroom.modDir hroom.state rfl rfl
    split at h
    · cases h
    rename_i paged hpages
    rw [← Except.ok.inj h, State.setChan_chan_same]
    exact (hplaced.of_dirs (rebuildPages_dirs hpages)).countPages.of_dirs (Chan.queueEncodes_dirs _ _ _ _)

theorem rebuildNew_some (h : rebuildNew n x s = .ok (i, t)) : (s.chan n).freeEntry = some i ∧ rebuildAt n i x s = .ok t := by
  unfold rebuildNew at h
  split at h
  · cases h
  · rename_i j hfree
    cases hat : rebuildAt n j x s with
    | error f =>
      rw [hat] at h
      cases h
    | ok u =>
      rw [hat] at h
      cases h
      exact ⟨hfree, hat⟩

end

/-! ### Sessions rebuilt one after another (R313, R316) -/

section
variable {xs : List (Nat × StoredSession)} {built : List (Nat × Nat)} {s t : State}

theorem rebuildAll_length {rep rep' : List Nat} (h : rebuildAll xs built rep s = .ok (rep', t)) : rep'.length = rep.length + 4 * xs.length := by
  induction xs generalizing built rep s with
  | nil =>
    cases h
    rfl
  | cons e r ih =>
    unfold rebuildAll at h
    split at h
    · cases h
    · rw [ih h, List.length_append, List.length_cons, show (reportLive _ _ _ _ _ _).length = 4 from rfl]
      omega

theorem rebuildAll_one {n i : Nat} {x : StoredSession} (h : rebuildNew n x s = .ok (i, t)) :
    rebuildAll [(n, x)] [] [] s = .ok (reportLive n i (handleWord x.oldHandle) 0 x.dir.lastStep t, t) := by
  unfold rebuildAll
  rw [h]
  rfl

end

/-! ### A restore (R310 to R313, R316, R454) -/

/-- A restore that has its entry: the generation it selects is applied, if there is one. -/
def restoreFound (d : Hdr) (a : RestoreArgs) (s : State) : State :=
  match selectGeneration a with
  | none => complete d 0x49 .restoreNone [] [] s
  | some m => applyRestore d a m s

/-- The named channels have slot 1 under the current key generation again. -/
abbrev slotsReloaded (a : RestoreArgs) (s : State) : State := (maskChans a.channels).foldl (fun s n => reloadSlot1 n s) s

section
variable {d : Hdr} {a : RestoreArgs} {s : State}

theorem exec_opMirrorRestore {fn target : Nat} (hacc : Accepts 0x49 d fn target s) :
    exec (.opMirrorRestore d a) s =
      .next ((restoreCheck a s).elim
        ((reportCheck fn a.reportAddr a.reportCap s).elim (withEntry 0x49 d (restoreFound d a) s) fun st => complete d 0x49 st [] [] s)
        fun st => complete d 0x49 st [] [] s) := by
  change execOpMirrorRestore d a s = _
  rw [execOpMirrorRestore, accept_next hacc]
  cases restoreCheck a s with
  | some st => rfl
  | none => cases reportCheck fn a.reportAddr a.reportCap s <;> rfl

variable {m : Manifest}

theorem applyRestore_keyNotHeld (h : genHeld m s = false) : applyRestore d a m s = complete d 0x49 .keyNotReleased [] [] s := by
  unfold applyRestore
  exact if_pos (by rw [h]; rfl)

variable (hheld : genHeld m s = true)
include hheld

theorem applyRestore_noReport (h : a.reportCap < (storedFor m (maskChans a.channels) s).length) :
    applyRestore d a m s = complete d 0x49 .lenExceedsBuffer [(storedFor m (maskChans a.channels) s).length] [] s := by
  unfold applyRestore
  exact (if_neg (by rw [hheld]; exact Bool.false_ne_true)).trans (if_pos h)

variable (hroom : (storedFor m (maskChans a.channels) s).length ≤ a.reportCap)
include hroom

theorem applyRestore_tagsBad (h : m.tagsOk = false) : applyRestore d a m s = complete d 0x49 .restoreNone [] [] (slotsReloaded a s) := by
  unfold applyRestore
  exact (if_neg (by rw [hheld]; exact Bool.false_ne_true)).trans ((if_neg (Nat.not_lt.mpr hroom)).trans (if_pos (by rw [h]; rfl)))

variable (htags : m.tagsOk = true)
include htags

/-- With its report and tags in order, a restore is what its rebuilding comes to. -/
theorem applyRestore_checked :
    applyRestore d a m s = match rebuildAll (storedFor m (maskChans a.channels) s) [] [] s with
      | .ok (rep, t) =>
        (rebuildIndexes (indexesFor m (maskChans a.channels)) t).elim
          (complete d 0x49 .noSpace [] [] (slotsReloaded a (undoRestore
            ((maskChans a.channels).flatMap (fun n => (t.chan n).liveSessions.map (fun i => (n, i))))
            ((maskChans a.channels).filter (fun n => searchSource a n)) t)))
          fun u => complete d 0x49 .ok [m.generation, (storedFor m (maskChans a.channels) s).length] [(a.reportAddr, .words rep)]
            (slotsReloaded a u)
      | .error (built, n, f, t) =>
        complete d 0x49 .noSpace [] [] (slotsReloaded a (undoRestore built [] (t.modChan n (fun c => c.withFails f)))) := by
  unfold applyRestore
  dsimp only
  rw [if_neg (by rw [hheld]; exact Bool.false_ne_true), if_neg (Nat.not_lt.mpr hroom), if_neg (by rw [htags]; exact Bool.false_ne_true)]
  cases rebuildAll (storedFor m (maskChans a.channels) s) [] [] s with
  | error e => rfl
  | ok r =>
    obtain ⟨rep, t⟩ := r
    dsimp only
    cases rebuildIndexes (indexesFor m (maskChans a.channels)) t <;> rfl

section
variable {rep : List Nat} {t : State} (hall : rebuildAll (storedFor m (maskChans a.channels) s) [] [] s = .ok (rep, t))
include hall

theorem applyRestore_rebuilt {u : State} (hindexes : rebuildIndexes (indexesFor m (maskChans a.channels)) t = some u) :
    applyRestore d a m s = complete d 0x49 .ok [m.generation, (storedFor m (maskChans a.channels) s).length]
      [(a.reportAddr, .words rep)] (slotsReloaded a u) := by
  rw [applyRestore_checked hheld hroom htags, hall]
  dsimp only
  rw [hindexes, Option.elim_some]

theorem applyRestore_noIndexRoom (hindexes : rebuildIndexes (indexesFor m (maskChans a.channels)) t = none) :
    applyRestore d a m s = complete d 0x49 .noSpace [] [] (slotsReloaded a (undoRestore
      ((maskChans a.channels).flatMap (fun n => (t.chan n).liveSessions.map (fun i => (n, i))))
      ((maskChans a.channels).filter (fun n => searchSource a n)) t)) := by
  rw [applyRestore_checked hheld hroom htags, hall]
  dsimp only
  rw [hindexes, Option.elim_none]

end

theorem applyRestore_noRoom {built : List (Nat × Nat)} {n : Nat} {f : Chan} {t : State}
    (hall : rebuildAll (storedFor m (maskChans a.channels) s) [] [] s = .error (built, n, f, t)) :
    applyRestore d a m s =
      complete d 0x49 .noSpace [] [] (slotsReloaded a (undoRestore built [] (t.modChan n (fun c => c.withFails f)))) := by
  rw [applyRestore_checked hheld hroom htags, hall]

end

/-! ### A rollback (R314 to R316, R366) -/

/-- The rollback of channels one after another, each to its own generation, with the report so far. -/
def rollChannels (gen : Nat → Nat) (a : RollbackArgs) (ns : List Nat) (s : State) : State × List Nat :=
  ns.foldl (fun p n => ((rollChannel n (gen n) a p.1).1, p.2 ++ (rollChannel n (gen n) a p.1).2)) (s, [])

/-- The generation that a rollback takes a channel back to. -/
def rollTarget (a : RollbackArgs) (s : State) (n : Nat) : Nat := (rollGen n a.gen s).getD 0

/-- The report entries that a rollback needs. -/
def rollNeed (a : RollbackArgs) (s : State) : Nat := ((maskChans a.channels).map (fun n => rollCount n (rollTarget a s n) a s)).sum

/-- A rollback that has passed its checks. -/
def rollNow (d : Hdr) (a : RollbackArgs) (s : State) : State :=
  if a.reportCap < rollNeed a s then complete d 0x4A .lenExceedsBuffer [rollNeed a s] [] s
  else
    let r := rollChannels (rollTarget a s) a (maskChans a.channels) s
    complete d 0x4A .ok [((maskChans a.channels).head?.map (rollTarget a s)).getD 0, r.2.length / 4] [(a.reportAddr, .words r.2)] (mirrorNext r.1)

section
variable {d : Hdr} {a : RollbackArgs} {fn : Nat} {s : State}

theorem exec_opMirrorRollback {target : Nat} (hacc : Accepts 0x4A d fn target s) :
    exec (.opMirrorRollback d a) s = .next ((rollbackCheck fn a s).elim (rollNow d a s) fun st => complete d 0x4A st [] [] s) := by
  change execOpMirrorRollback d a s = _
  rw [execOpMirrorRollback, accept_next hacc]
  cases rollbackCheck fn a s with
  | some st => rfl
  | none =>
    rw [Option.elim_none, rollNow, rollNeed, rollChannels]
    cases maskChans a.channels <;> rfl

theorem rollbackCheck_none (h : rollbackCheck fn a s = none) {n : Nat} (hn : n ∈ maskChans a.channels) : (rollGen n a.gen s).isSome = true := by
  unfold rollbackCheck at h
  extract_lets ns at h
  split at h
  · cases h
  split at h
  · cases h
  split at h
  · cases h
  split at h
  · cases h
  rename_i hall
  by_contra hnone
  exact hall (List.any_eq_true.mpr ⟨n, hn, Option.isNone_iff_eq_none.mpr (Option.not_isSome_iff_eq_none.mp hnone)⟩)

theorem rollChannel_index {n g : Nat} (h : (s.chan n).role = .search) : rollChannel n g a s = (rollIndex n a s, []) := if_pos h

/-! ### One session of a rollback (R314, R315) -/

section
variable {n g : Nat} {x : StoredSession}

theorem rollOne_other (h : sameSession n x s = false) : rollOne n g x s = rollRebuild n x s := if_pos (by rw [h]; rfl)

variable (hsame : sameSession n x s = true)
include hsame

theorem rollOne_unchanged (h : changedAfter n x.oldHandle.index g s = false) : rollOne n g x s = (s, []) :=
  (if_neg (by rw [hsame]; exact Bool.false_ne_true)).trans (if_pos (by rw [h]; rfl))

variable (hchanged : changedAfter n x.oldHandle.index g s = true)
include hchanged

theorem rollOne_changed :
    rollOne n g x s = if bothResident n x s then
        match reload n x.oldHandle.index x s with
        | .ok v => (v, reportLive n x.oldHandle.index (handleWord x.oldHandle) 1 x.dir.lastStep v)
        | .error f => (closeQuiet n x.oldHandle.index (s.modChan n (fun c => c.withFails f)),
            reportWords (handleWord x.oldHandle) 0 0 0 2 x.dir.lastStep)
      else rollRebuild n x (closeQuiet n x.oldHandle.index s) :=
  (if_neg (by rw [hsame]; exact Bool.false_ne_true)).trans (if_neg (by rw [hchanged]; exact Bool.false_ne_true))

end

theorem closeQuiet_closed (n i : Nat) (s : State) : (((closeQuiet n i s).chan n).dir i).state = .closed := by
  unfold closeQuiet
  rw [State.modChan_chan_same, Chan.closeSession_dir_same]

theorem sessRollCheck_none (h : sessRollCheck fn a s = none) : ∃ n g, maskChans a.channels = [n] ∧ rollGen n a.gen s = some g := by
  unfold sessRollCheck at h
  split at h
  · rename_i n hone
    split at h
    · cases h
    split at h
    · cases h
    split at h
    · cases h
    split at h
    · cases h
    rename_i hsome
    obtain ⟨g, hg⟩ := Option.ne_none_iff_exists'.mp (fun hnone => hsome (Option.isNone_iff_eq_none.mpr hnone))
    exact ⟨n, g, hone, hg⟩
  · cases h

/-- A SESSION_ROLLBACK that has passed its checks. -/
theorem exec_sessionRollback {target n : Nat} (hacc : Accepts 0x4A d fn target s) (hcheck : sessRollCheck fn a s = none)
    (hone : maskChans a.channels = [n]) :
    exec (.sessionRollback d a) s = .next (complete d 0x4A .ok [(rollGen n a.gen s).getD 0, 1]
      [(a.reportAddr, .words (rollSession n a.handle.index a s).2)] (rollSession n a.handle.index a s).1) := by
  change execSessionRollback d a s = _
  rw [execSessionRollback, accept_next hacc, hcheck, hone]

theorem exec_sessionRollback_refused {target : Nat} {st : Status} (hacc : Accepts 0x4A d fn target s) (hcheck : sessRollCheck fn a s = some st) :
    exec (.sessionRollback d a) s = .next (complete d 0x4A st [] [] s) := by
  change execSessionRollback d a s = _
  rw [execSessionRollback, accept_next hacc, hcheck]

end

/-- Settles O39: a restore by its checks, the generation it selects and the room for what it rebuilds; a rebuilt session by what its queue, pages and
park leave of its entry; a rollback by its checks and, session by session, by whether the session is the one stored. That a session for which room
runs out stays closed and the others go on is the model's choice (log entry 23), as is the order of a restore's checks (log entry 52). -/
theorem restoresAndRollbacks : Obligations.RestoresAndRollbacks := by
  intro d fn target s
  refine ⟨fun a hacc => ⟨fun st hbad => ?restoreRefused, fun hpass => ⟨fun st hbad => ?reportRefused, fun hreport hentry =>
      ⟨fun hnone => ?noGeneration, fun m hfound => ?restored⟩⟩⟩, fun n x i v hbuilt => ?rebuilt,
    fun a hacc => ⟨fun st hbad => ?rollRefused, fun hpass => ?rolled⟩, fun n g a => rollChannel_index, fun n g x => ?one,
    fun n i => closeQuiet_closed n i s, fun a hacc => ⟨fun st => exec_sessionRollback_refused hacc, fun hpass => ?session⟩⟩
  case restoreRefused => rw [exec_opMirrorRestore hacc, hbad, Option.elim_some]
  case reportRefused => rw [exec_opMirrorRestore hacc, hpass, hbad, Option.elim_none, Option.elim_some]
  case noGeneration =>
    rw [exec_opMirrorRestore hacc, hpass, hreport, Option.elim_none, Option.elim_none, withEntry_next hentry, restoreFound, hnone]
  case restored =>
    intro u ns xs done
    have hexec : exec (.opMirrorRestore d a) s = .next (applyRestore d a m u) := by
      rw [exec_opMirrorRestore hacc, hpass, hreport, Option.elim_none, Option.elim_none, withEntry_next hentry,
        restoreFound, hfound]
    refine ⟨fun hheld => by rw [hexec, applyRestore_keyNotHeld hheld], fun hheld => ⟨fun hfew => by rw [hexec, applyRestore_noReport hheld hfew],
      fun hroom => ⟨fun htags => ?_, fun htags => ?_⟩⟩⟩
    · exact hexec.trans (congrArg _ (applyRestore_tagsBad hheld hroom htags))
    · exact ⟨fun rep v w hall hindexes => ⟨hexec.trans (congrArg _ (applyRestore_rebuilt hheld hroom htags hall hindexes)),
          (rebuildAll_length hall).trans (Nat.zero_add _)⟩,
        fun rep v hall hindexes => hexec.trans (congrArg _ (applyRestore_noIndexRoom hheld hroom htags hall hindexes)),
        fun built n f v hall => hexec.trans (congrArg _ (applyRestore_noRoom hheld hroom htags hall)),
        fun n x i v hone hnew => (congrArg (rebuildAll · [] [] u) hone).trans (rebuildAll_one hnew)⟩
  case rebuilt =>
    obtain ⟨hfree, hat⟩ := rebuildNew_some hbuilt
    have h := rebuildAt_rebuilt hat
    exact ⟨hfree, h.state, h.count, h.epoch⟩
  case rollRefused => rw [exec_opMirrorRollback hacc, hbad, Option.elim_some]
  case rolled =>
    intro ns gen need r
    have hexec : exec (.opMirrorRollback d a) s = .next (rollNow d a s) := by rw [exec_opMirrorRollback hacc, hpass, Option.elim_none]
    exact ⟨fun n hn => rollbackCheck_none hpass hn, fun hfew => hexec.trans (congrArg _ (if_pos hfew)),
      fun hroom => hexec.trans (congrArg _ (if_neg (Nat.not_lt.mpr hroom)))⟩
  case one =>
    intro i
    refine ⟨rollOne_other, rollOne_unchanged, fun hsame hchanged hmoved => ?_, fun hsame hchanged hresident => ⟨fun v hv => ?_, fun f hf => ?_⟩,
      fun j v hv => ?_, fun f hf => ?_⟩
    · rw [rollOne_changed hsame hchanged, hmoved]
      rfl
    · rw [rollOne_changed hsame hchanged, if_pos hresident, hv]
    · rw [rollOne_changed hsame hchanged, if_pos hresident, hf]
    · rw [rollRebuild, hv]
    · rw [rollRebuild, hf]
  case session =>
    obtain ⟨n, g, hone, hgen⟩ := sessRollCheck_none hpass
    refine ⟨n, g, hone, hgen, ?_⟩
    rw [exec_sessionRollback hacc hpass hone, hgen]
    rfl

end Sys2Proof.Machine
end

section
/-! The block as a whole: what a step runs, what reset leaves, and what every step keeps of a block held in reset and of the fuses (R401, R449, R451,
R511, R513). The settlement of O1, O4, O5 and O6. -/

namespace Sys2Proof.Machine

open Sys2Proof

/-! ### Held in reset -/

theorem powerOff_idem (s : State) : powerOff (powerOff s) = powerOff s := rfl

/-- The levels of WARM_N and PWRCAP stay as they are at power-on (R513). -/
theorem powerOff_withLevels {s : State} (h : powerOff s = s) (warm cap : Bool) :
    powerOff { s with power := { s.power with warmN := warm, pwrcap := cap } } =
      { s with power := { s.power with warmN := warm, pwrcap := cap } } := by
  rw [← h]
  rfl

theorem HeldAtReset.withQueue {s : State} (h : HeldAtReset s) (queue : List Instr) : HeldAtReset { s with pending := queue } := by
  intro hlow
  change s.power.porstN = false at hlow
  rw [← h hlow]
  rfl

theorem down_of_porstN {s : State} (h : s.power.porstN = false) : s.up = false := by simp [State.up, h]

/-- A command of the pins but PORST_N itself leaves a block at its reset value there: it moves a pin's level at most (R511, R513). -/
theorem exec_pin_held {c : Instr} {s t : State} (hheld : powerOff s = s) (hc : actsOnPins c = true) (hfall : c ≠ .porstNFall)
    (hrise : ∀ b, c ≠ .porstNRise b) (hexec : exec c s = .next t) : powerOff t = t := by
  have hlow : s.power.porstN = false := by rw [← hheld]; rfl
  have hfree : s.power.warmHeld = false := by rw [← hheld]; rfl
  have hdown := down_of_porstN hlow
  have hlevels (warm cap : Bool) := powerOff_withLevels hheld warm cap
  cases c with
  | warmDeviceReset by_ =>
    cases by_ with
    | pin =>
      have hnext : exec (.warmDeviceReset .pin) s = .next { s with power := { s.power with warmN := false } } := by
        show Host.Outcome.next (if s.up then _ else _) = _
        rw [hdown]
        rfl
      cases hnext.symm.trans hexec
      exact hlevels false s.power.pwrcap
    | _ => cases hc
  | warmNRise =>
    have hnext : exec .warmNRise s = .next { s with power := { s.power with warmN := true } } := by
      show Host.Outcome.next (warmRise s) = _
      rw [warmRise, hfree]
      rfl
    cases hnext.symm.trans hexec
    exact hlevels true s.power.pwrcap
  | pwrcapChange level =>
    have hnext : exec (.pwrcapChange level) s = .next { s with power := { s.power with pwrcap := level } } := by
      show Host.Outcome.next (if level && s.up then _ else _) = _
      rw [hdown, Bool.and_false]
      rfl
    cases hnext.symm.trans hexec
    exact hlevels s.power.warmN level
  | thermtrip sensor =>
    have hnext : exec (.thermtrip sensor) s = .next s := by
      show Host.Outcome.next (if s.power.porstN = true ∧ sensor < 24 then _ else _) = _
      rw [if_neg (by simp [hlow])]
    cases hnext.symm.trans hexec
    exact hheld
  | porstNFall => exact absurd rfl hfall
  | porstNRise b => exact absurd rfl (hrise b)
  | _ => cases hc

/-- A command leaves a block held in reset at its reset value, or raises PORST_N. -/
theorem exec_heldAtReset {c : Instr} {s t : State} (hs : HeldAtReset s) (hexec : exec c s = .next t) : HeldAtReset t := by
  by_cases hfall : c = .porstNFall
  · subst hfall
    cases hexec
    exact fun _ => powerOff_idem s
  by_cases hrise : ∃ b, c = .porstNRise b
  · obtain ⟨b, rfl⟩ := hrise
    have hnext : exec (.porstNRise b) s = .next (if s.power.porstN then s else boot b s) := rfl
    cases hnext.symm.trans hexec
    split
    · exact hs
    · exact fun hlow => absurd ((boot_leaves b s).2.2.symm.trans hlow) (by decide)
  · rw [not_exists] at hrise
    intro hlow
    obtain ⟨u, hnext, -, hporst, -⟩ := exec_follows c s hfall hrise
    cases hnext.symm.trans hexec
    have hlow' : s.power.porstN = false := hporst.symm.trans hlow
    cases hc : actsOnPins c with
    | true => exact exec_pin_held (hs hlow') hc hfall hrise hexec
    | false =>
      cases (exec_down c (down_of_porstN hlow') hc).symm.trans hexec
      exact hs hlow

/-- Settles O5: an instant changes nothing while PORST_N is low, and the command in front leaves what it finds at its reset value. -/
theorem heldAtResetIsKept : Obligations.HeldAtResetIsKept := by
  intro s t hs hstep
  unfold step at hstep
  split at hstep
  next c rest _ => exact exec_heldAtReset (hs.withQueue rest) hstep
  next =>
    cases hstep
    intro hlow
    have hkeeps := (tick_kept s).2.2
    have hlow' := hkeeps.symm.trans hlow
    rw [tick, down_of_porstN hlow', Bool.false_and, if_neg Bool.false_ne_true, tickTimer, hlow']
    exact hs hlow'

/-! ### The fuses -/

/-- A command moves the fuses forward at most (R449, R451). -/
theorem exec_fuses {c : Instr} {s t : State} (hs : LifecycleKnown s) (hexec : exec c s = .next t) :
    FusesFollow s.encl.fuses t.encl.fuses ∧ LifecycleKnown t := by
  by_cases hfall : c = .porstNFall
  · subst hfall
    cases hexec
    exact ⟨.refl _, hs⟩
  by_cases hrise : ∃ b, c = .porstNRise b
  · obtain ⟨b, rfl⟩ := hrise
    have hnext : exec (.porstNRise b) s = .next (if s.power.porstN then s else boot b s) := rfl
    cases hnext.symm.trans hexec
    split
    · exact ⟨.refl _, hs⟩
    · rw [LifecycleKnown, (boot_leaves b s).2.1]
      exact ⟨.refl _, hs⟩
  · obtain ⟨u, hnext, -, -, hfuses⟩ := exec_follows c s hfall (not_exists.mp hrise)
    cases hnext.symm.trans hexec
    exact hfuses hs

/-- Settles O6: an instant leaves the fuses, and the command in front moves them forward at most. -/
theorem fusesOnlyMoveForward : Obligations.FusesOnlyMoveForward := by
  intro s t hs hstep
  unfold step at hstep
  split at hstep
  next c rest _ => exact exec_fuses (s := { s with pending := rest }) hs hstep
  next =>
    cases hstep
    rw [LifecycleKnown, (tick_kept s).2.1]
    exact ⟨.refl _, hs⟩

/-! ### Steps and reset -/

/-- Settles O1: a step is the command at the front of the queue, by definition of `step`. -/
theorem stepRunsTheFrontCommand : Obligations.StepRunsTheFrontCommand := by
  intro s c rest hqueue
  simp only [step, hqueue]

/-- Settles O4: the state at reset has every table empty, and each part its default. -/
theorem resetState : Obligations.ResetState :=
  ⟨⟨fun _ => rfl, Nat.zero_le 3⟩, rfl, rfl, rfl, rfl, rfl, rfl, rfl, rfl, fun _ => ⟨rfl, rfl, rfl, rfl, rfl⟩, fun _ => ⟨rfl, rfl⟩,
    fun _ => rfl, fun _ => rfl⟩

end Sys2Proof.Machine
end

section
/-! The pins and power-on (R401, R458, R511 to R513, R515, R518). The settlement of O7 and O8. -/

namespace Sys2Proof.Machine

open Sys2Proof

/-! ### An error log -/

/-- An error log changes management's state and, where the threshold is reached, what its event changes (R475). -/
theorem errorLog_host (s : State) : HostSide { s with mgmt := (errorLog s).mgmt } (errorLog s) := by
  unfold errorLog
  split
  · exact takeEntry_host s
  · rfl

theorem HostSide.ports {s t : State} (h : HostSide s t) : t.ports = s.ports := by rw [h]

theorem HostSide.power {s t : State} (h : HostSide s t) : t.power = s.power := by rw [h]

theorem HostSide.regs {s t : State} (h : HostSide s t) : t.regs = s.regs := by rw [h]

/-! ### What the boot of firmware and channels leaves -/

/-- Two states have the same ports and, but for alert causes, the same levels and clocks. -/
structure KeepsPins (s t : State) : Prop where
  ports : t.ports = s.ports
  power : t.power = { s.power with alert := t.power.alert }

theorem KeepsPins.of_eq {s t : State} (hports : t.ports = s.ports) (hpower : t.power = s.power) : KeepsPins s t :=
  ⟨hports, by rw [hpower]⟩

theorem KeepsPins.refl (s : State) : KeepsPins s s := .of_eq rfl rfl

theorem KeepsPins.trans {s t u : State} (h : KeepsPins s t) (g : KeepsPins t u) : KeepsPins s u := by
  refine ⟨g.ports.trans h.ports, ?_⟩
  rw [g.power, h.power]

theorem HostSide.keepsPins {s t : State} (h : HostSide s t) : KeepsPins s t := .of_eq h.ports h.power

theorem setMgmt_keepsPins (m : Mgmt) (s : State) : KeepsPins s { s with mgmt := m } := .of_eq rfl rfl

theorem errorLog_keepsPins (s : State) : KeepsPins s (errorLog s) := (setMgmt_keepsPins _ s).trans (errorLog_host s).keepsPins

theorem reportFailed_keepsPins (n cause : Nat) (s : State) : KeepsPins s (reportFailed n cause s) :=
  have halert : KeepsPins s (setAlert 2 s) := ⟨rfl, rfl⟩
  (halert.trans (raiseEvent_host _ _ _ _).keepsPins).trans (raiseEvent_host _ _ _ _).keepsPins

theorem selfTestFailed_keepsPins (n : Nat) (s : State) : KeepsPins s (selfTestFailed n s) := by
  unfold selfTestFailed
  extract_lets again cause failed
  have hfailed : KeepsPins s failed := .of_eq rfl rfl
  refine KeepsPins.trans ?_ (errorLog_keepsPins _)
  split
  · exact hfailed
  · exact hfailed.trans (reportFailed_keepsPins _ _ _)

theorem runImage_keepsPins (s : State) : KeepsPins s (runImage s) := by
  unfold runImage
  split <;> exact .of_eq rfl rfl

theorem bootFirmware_keepsPins (b : BootInput) (s : State) : KeepsPins s (bootFirmware b s) := by
  unfold bootFirmware
  extract_lets r e
  split
  · refine KeepsPins.trans ?_ (runImage_keepsPins _)
    exact .of_eq rfl rfl
  · exact .of_eq rfl rfl

theorem bootChan_keepsPins (ok : BitVec 8) (ports : BitVec 9) (s : State) (n : Nat) : KeepsPins s (bootChan ok ports s n) := by
  unfold bootChan
  extract_lets trained
  have htrained : KeepsPins s trained := .of_eq rfl rfl
  split
  · exact htrained
  · exact htrained.trans (selfTestFailed_keepsPins n trained)

/-! ### The channels at the end of R511 -/

theorem selfTestFailed_chan_same (n : Nat) (s : State) : ∃ cause, (selfTestFailed n s).chan n =
    { s.chan n with state := .failed, cause := cause, resetting := false, switch := none, failedOnce := true } := by
  refine ⟨Config.openNat s.freeIx % 256, ?_⟩
  unfold selfTestFailed
  dsimp only
  split <;> simp [State.chan, State.modChan, State.setChan, State.advanceFree]

theorem selfTestFailed_chan_other {n k : Nat} (h : k ≠ n) (s : State) : (selfTestFailed n s).chan k = s.chan k := by
  unfold selfTestFailed
  dsimp only
  split <;> simp [State.chan, State.modChan, State.setChan, State.advanceFree, tget_tset_other _ _ _ _ h]

theorem bootChan_chan_other (ok : BitVec 8) (ports : BitVec 9) (s : State) (n k : Nat) (h : k ≠ n) :
    (bootChan ok ports s n).chan k = s.chan k := by
  have htrained := State.modChan_chan_other s n k (fun c => { c with hbmTrained := true }) h
  unfold bootChan
  dsimp only
  split
  · exact htrained
  · exact (selfTestFailed_chan_other h _).trans htrained

/-- A channel whose test and port pass keeps its state, another is FAILED (R511). -/
theorem bootChan_state (ok : BitVec 8) (ports : BitVec 9) (s : State) (n : Nat) :
    ((bootChan ok ports s n).chan n).state = if ok.getLsbD n && ports.getLsbD n then (s.chan n).state else .failed := by
  unfold bootChan
  dsimp only
  split
  · simp
  · obtain ⟨cause, hfailed⟩ := selfTestFailed_chan_same n (s.modChan n (fun c => { c with hbmTrained := true }))
    rw [hfailed]

theorem bootFirmware_chans (b : BootInput) (s : State) : (bootFirmware b s).chans = s.chans := by
  unfold bootFirmware runImage
  dsimp only
  (repeat' split) <;> rfl

/-! ### PORST_N rises (R511) -/

theorem exec_porstNRise (b : BootInput) {s : State} (h : s.power.porstN = false) : exec (.porstNRise b) s = .next (boot b s) := by
  show Host.Outcome.next (if s.power.porstN = true then s else boot b s) = _
  rw [if_neg (by simp [h])]

theorem boot_failed {b : BootInput} (h : b.enclaveTestCause ≠ 0) (s : State) : boot b s = enclaveError b.enclaveTestCause (powerUp b s) := if_pos h

theorem boot_passed {b : BootInput} (h : b.enclaveTestCause = 0) (s : State) :
    boot b s = (List.range 8).foldl (bootChan b.channelOk b.portOk) (bootFirmware b (portsUp b (powerUp b s))) := if_neg (not_not.mpr h)

theorem foldl_keepsPins {f : State → Nat → State} (h : ∀ s n, KeepsPins s (f s n)) (l : List Nat) (s : State) : KeepsPins s (l.foldl f s) :=
  List.foldlRecOn l f (.refl s) fun u hu n _ => hu.trans (h u n)

theorem boot_keepsPins {b : BootInput} (h : b.enclaveTestCause = 0) (s : State) : KeepsPins (portsUp b (powerUp b s)) (boot b s) := by
  rw [boot_passed h]
  exact (bootFirmware_keepsPins b _).trans (foldl_keepsPins (bootChan_keepsPins b.channelOk b.portOk) _ _)

/-- The straps are taken and the clocks run, whether the enclave's tests pass or not. -/
theorem boot_power (b : BootInput) (s : State) :
    (boot b s).power.clocks = true ∧ (boot b s).power.strapFid = b.fid % 64 ∧ (boot b s).power.strapAdp = b.adp % 16 := by
  by_cases h : b.enclaveTestCause = 0
  · rw [(boot_keepsPins h s).power]
    exact ⟨rfl, rfl, rfl⟩
  · rw [boot_failed h]
    exact ⟨rfl, rfl, rfl⟩

theorem boot_up {b : BootInput} (h : b.enclaveTestCause = 0) (s : State) : (boot b s).up = true := by
  rw [State.up, (boot_keepsPins h s).power]
  rfl

/-- A table that gives each number of a list its value. -/
theorem tget_map_of_mem {α : Type} (f : Nat → α) {l : List Nat} {n : Nat} (h : n ∈ l) : tget n (l.map (fun k => (k, f k))) = some (f n) := by
  induction l with
  | nil => cases h
  | cons k l ih =>
    by_cases hk : k = n
    · subst hk
      simp [tget]
    · have hmem : n ∈ l := (List.mem_cons.mp h).resolve_left (Ne.symm hk)
      simp [tget, hk, ih hmem]

theorem boot_port {b : BootInput} (h : b.enclaveTestCause = 0) (s : State) {n : Nat} (hn : n < 9) :
    ((boot b s).port n).state = if b.portOk.getLsbD n then .detect else .disabled := by
  rw [State.port, (boot_keepsPins h s).ports, portsUp]
  rw [tget_map_of_mem (fun n => if b.portOk.getLsbD n then ({ state := .detect } : Port) else {}) (List.mem_range.mpr hn), Option.getD_some, apply_ite Port.state]

theorem boot_chan {b : BootInput} (h : b.enclaveTestCause = 0) (s : State) {n : Nat} (hn : n < 8) :
    ((boot b s).chan n).state = if b.channelOk.getLsbD n && b.portOk.getLsbD n then .unassigned else .failed := by
  obtain ⟨t, ht, hturn⟩ := foldl_chan_mem (bootChan_chan_other b.channelOk b.portOk) List.nodup_range (List.mem_range.mpr hn)
    (bootFirmware b (portsUp b (powerUp b s)))
  have hblank : (t.chan n).state = .unassigned := by
    rw [ht, State.chan, bootFirmware_chans]
    rfl
  rw [boot_passed h, hturn, bootChan_state, hblank]

/-- Settles O7: PORST_N low by what `powerOff` keeps; PORST_N rising by the enclave's tests, the ports and the channels one after another. -/
theorem porstResetsAndBoots : Obligations.PorstResetsAndBoots := by
  refine ⟨fun s => ⟨powerOff s, rfl, rfl, rfl, rfl, rfl, rfl, rfl, rfl, fun _ => rfl, fun _ => rfl, fun _ => rfl⟩, fun b s => ⟨fun hhigh => ?high, fun hlow => ?low⟩⟩
  case high => exact congrArg Host.Outcome.next (if_pos hhigh)
  case low =>
    obtain ⟨hqueue, hfuses, hporst⟩ := boot_leaves b s
    obtain ⟨hclocks, hfid, hadp⟩ := boot_power b s
    refine ⟨boot b s, exec_porstNRise b hlow, hporst, hqueue, hfuses, hclocks, hfid, hadp, fun hfailed => ?_, fun hpassed =>
      ⟨boot_up hpassed s, fun n hn => boot_port hpassed s hn, fun n hn => boot_chan hpassed s hn⟩⟩
    rw [boot_failed hfailed]
    exact ⟨rfl, rfl, rfl⟩

/-! ### The other pins (R512, R515, R518) -/

/-- Settles O8: each pin command is its level change, by the definition of its arm. -/
theorem pinCommands : Obligations.PinCommands := by
  intro s
  refine ⟨?warm, fun level => ?cap, fun sensor hsensor hporst => ?trip⟩
  case warm =>
    show Host.Outcome.next (warmRise s) = _
    unfold warmRise
    split <;> rfl
  case cap =>
    show Host.Outcome.next (if level && s.up then _ else _) = _
    cases level <;> rfl
  case trip => exact congrArg Host.Outcome.next (if_pos ⟨hporst, hsensor⟩)

end Sys2Proof.Machine
end

section
/-! Power, clocks and temperature (R501, R502, R505, R509, R514 to R518, R521). The settlement of O60. -/

namespace Sys2Proof.Machine

open Sys2Proof

theorem goOffline_up (s : State) : (goOffline s).up = false := by simp [goOffline, State.up]

/-! ### The poll of the regulators (R502, R505) -/

theorem pollRail_unaddressed {k : Nat} {s : State} (h : railAddr k s = 0) (x : RailReading) : pollRail s (k, x) = s := if_pos h

theorem foldl_pollRail_unaddressed {s : State} {l : List (Nat × RailReading)} (h : ∀ e ∈ l, railAddr e.1 s = 0) : l.foldl pollRail s = s := by
  induction l with
  | nil => rfl
  | cons e l ih =>
    obtain ⟨he, hl⟩ := List.forall_mem_cons.mp h
    rw [List.foldl_cons, pollRail_unaddressed he, ih hl]

theorem pmbusPoll_unaddressed {s : State} (h : ∀ k < 9, railAddr k s = 0) (rs : List RailReading) : pmbusPoll rs s = s :=
  foldl_pollRail_unaddressed fun e he => h e.1 (List.mem_range.mp (List.of_mem_zip (a := e.1) (b := e.2) he).1)

/-- The reading of the core rail is the first at least 1 ms after a setpoint was commanded (R501). -/
def avsDue (k : Nat) (s : State) : Bool :=
  k == 0 && s.power.avsPending && (match s.power.avsAt with | some t => decide (t + 1000000 ≤ s.now) | none => false)

/-- A reading differs by more than 3% from the setpoint commanded (R499). -/
def avsOff (x : RailReading) (s : State) : Bool :=
  decide (3 * s.power.avsMv < 100 * ((x.millivolts - s.power.avsMv) + (s.power.avsMv - x.millivolts)))

/-- What a reading leaves before its warning is measured (R502). -/
def railRead (k : Nat) (x : RailReading) (s : State) : State :=
  let p := s.power
  let t := { s with power := { p with
    railMw := (List.range 9).map (fun j => if j = k then x.milliwatts else p.railMw.getD j 0)
    regWarning := if x.warning then k :: p.regWarning.erase k else p.regWarning.erase k
    avsPending := p.avsPending && !avsDue k s } }
  if x.warning then setAlert 3 t else t

theorem pollRail_addressed {k : Nat} {s : State} (h : railAddr k s ≠ 0) (x : RailReading) :
    pollRail s (k, x) =
      let v := warnMeasure 4 k (if x.warning then 1 else 0) (railRead k x s)
      if x.fault ∨ (avsDue k s && avsOff x s) then goOffline v else v := if_neg h

theorem avsDue_of_waited {s : State} (hpending : s.power.avsPending = true) (h : ∃ t0, s.power.avsAt = some t0 ∧ t0 + 1000000 ≤ s.now) :
    avsDue 0 s = true := by
  obtain ⟨t0, hat, hlate⟩ := h
  simp [avsDue, hpending, hat, hlate]

theorem avsDue_eq_false {k : Nat} {s : State}
    (h : k ≠ 0 ∨ s.power.avsPending = false ∨ ∃ t0, s.power.avsAt = some t0 ∧ s.now < t0 + 1000000) : avsDue k s = false := by
  obtain hk | hidle | ⟨t0, hat, hsoon⟩ := h
  · simp [avsDue, hk]
  · simp [avsDue, hidle]
  · simp [avsDue, hat, Nat.not_le.mpr hsoon]

theorem railRead_leaves {k : Nat} (hk : k < 9) (x : RailReading) (s : State) :
    (railRead k x s).power.railMw.getD k 0 = x.milliwatts ∧
      (railRead k x s).power.regWarning = (if x.warning then k :: s.power.regWarning.erase k else s.power.regWarning.erase k) ∧
      (x.warning = true → (railRead k x s).power.alert.getLsbD 3 = true) ∧ (railRead k x s).chans = s.chans ∧ (railRead k x s).regs = s.regs := by
  have hget : ((List.range 9).map (fun j => if j = k then x.milliwatts else s.power.railMw.getD j 0)).getD k 0 = x.milliwatts := by
    simp [List.getD_eq_getElem?_getD, hk]
  unfold railRead
  dsimp only
  split
  · rename_i hwarning
    refine ⟨hget, rfl, fun _ => ?_, rfl, rfl⟩
    simp [setAlert]
  · rename_i hquiet
    exact ⟨hget, rfl, fun hwarning => absurd hwarning hquiet, rfl, rfl⟩

/-! ### The setpoint (R501) -/

theorem avsAdjust_soon {pass : Bool} {s : State} {t0 : Nat} (hat : s.power.avsAt = some t0) (hsoon : s.now < t0 + 50000) : avsAdjust pass s = s := by
  unfold avsAdjust
  extract_lets mv soon
  have : soon = true := by simp [soon, hat, hsoon]
  rw [if_pos (.inr (.inl this))]

theorem avsAdjust_commands {pass : Bool} {s : State} (haddr : railAddr 0 s ≠ 0) (hlate : ∀ t0, s.power.avsAt = some t0 → t0 + 50000 ≤ s.now)
    (hmoves : avsNext pass s.power.avsMv ≠ s.power.avsMv) :
    avsAdjust pass s = ({ s with power := { s.power with
      avsMv := avsNext pass s.power.avsMv, avsAt := some s.now, avsPending := true } }).emit (.pmbus 0 (avsNext pass s.power.avsMv)) := by
  unfold avsAdjust
  extract_lets mv soon
  have hsoon : soon = false := by
    cases hat : s.power.avsAt with
    | none => simp [soon, hat]
    | some t0 => simp [soon, hat, hlate t0 hat]
  rw [if_neg (by simp [hsoon, haddr, mv, hmoves])]

theorem avsNext_within (pass : Bool) {mv : Nat} (hlo : 600 ≤ mv) (hhi : mv ≤ 800) : 600 ≤ avsNext pass mv ∧ avsNext pass mv ≤ 800 := by
  cases pass <;> simp only [avsNext, if_true, if_false, Bool.false_eq_true] <;> omega

/-! ### The thermal controller (R514, R516, R517) -/

/-- Two states differ at most in the alert causes. -/
def AlertSide (s t : State) : Prop := t = { s with power := { s.power with alert := t.power.alert } }

theorem AlertSide.trans {s t u : State} (h : AlertSide s t) (g : AlertSide t u) : AlertSide s u := by
  unfold AlertSide at *
  rw [g, h]

theorem AlertSide.ofCause {s t : State} {k : Nat} (h : AlertSide s t) : AlertSide s (if causePresent k t then setAlert k t else t) := by
  split
  · exact h.trans rfl
  · exact h

theorem refreshAlerts_side (s : State) : AlertSide s (refreshAlerts s) :=
  List.foldlRecOn (motive := AlertSide s) _ _ rfl fun _ h _ _ => h.ofCause

theorem setAlert_getLsbD_zero {k : Nat} {s : State} (h : s.power.alert.getLsbD 0 = true) : (setAlert k s).power.alert.getLsbD 0 = true := by
  simp only [setAlert, BitVec.getLsbD_or, h, Bool.true_or]

/-- The first cause looked at is the thermal alert, and the others add to it. -/
theorem refreshAlerts_thermal {s : State} (h : causePresent 0 s = true) : (refreshAlerts s).power.alert.getLsbD 0 = true := by
  have hfirst : refreshAlerts s = [1, 2, 3, 4, 5].foldl (fun s k => if causePresent k s then setAlert k s else s) (setAlert 0 s) := by
    rw [← if_pos (c := causePresent 0 s = true) (e := s) (t := setAlert 0 s) h]
    rfl
  rw [hfirst]
  refine List.foldlRecOn (motive := fun t : State => t.power.alert.getLsbD 0 = true) _ _ ?_ fun t ht k _ => ?_
  · simp [setAlert]
  · split
    · exact setAlert_getLsbD_zero ht
    · exact ht

/-- A sample before its causes and its margin are looked at (R516, R517). -/
def sampled (temps : List Int) (s : State) : State :=
  { s with power := { s.power with temps := temps, dutyTherm := thermalDuty (hottest temps).2 (thermThrottle s) s.power.dutyTherm } }

theorem thermalDuty_eq (h throttle : Int) (duty : Nat) :
    (throttle ≤ h → thermalDuty h throttle duty = duty - 1) ∧
      (h < throttle - 2000 → thermalDuty h throttle duty = min 64 (duty + 1)) ∧
      (throttle - 2000 ≤ h → h < throttle → thermalDuty h throttle duty = duty) := by
  refine ⟨fun hot => if_pos hot, fun cool => ?_, fun hlo hhi => ?_⟩
  · rw [thermalDuty, if_neg (by omega), if_pos cool]
  · rw [thermalDuty, if_neg (by omega), if_neg (by omega)]

theorem causePresent_thermal {temps : List Int} {s : State} (hsome : temps ≠ []) (hot : thermAlert s ≤ (hottest temps).2) :
    causePresent 0 (sampled temps s) = true := by
  have halert : thermAlert (sampled temps s) = thermAlert s := rfl
  rw [causePresent, if_pos rfl, halert]
  simp [sampled, hot, hsome]

/-! ### The commands -/

theorem exec_pllLockLoss {s : State} (hup : s.up = true) :
    exec .pllLockLoss s = .next (goOffline { s with power := { s.power with pllLock := false } }) := by
  show execPllLockLoss s = _
  exact whenUp_next hup

theorem exec_bmcBlockRead {s : State} (hup : s.up = true) : exec .bmcBlockRead s =
    .next (s.emit (.bmc (if readPermitted .bmc s.power.bmcAddr s then (readReg .bmc s.power.bmcAddr 4 s).2 else 0))) := by
  show execBmcBlockRead s = _
  exact whenUp_next hup

/-- Settles O60: each command by the rule of its controller; a poll by what a reading leaves, a sample by its causes. -/
theorem powerIsWatchedAndLimited : Obligations.PowerIsWatchedAndLimited := by
  intro s hup
  refine ⟨exec_pllLockLoss hup, fun rail => whenUp_next hup, fun rs => ⟨whenUp_next hup, rfl, fun h => ?idle⟩, fun x haddr hpending hlate hoff => ?missed,
    fun k x hk haddr hquiet => ?poll, fun pass => ⟨fun haddr hlate hmoves => ?commands, fun t0 hat hsoon => ?soon, avsNext_within pass⟩,
    fun temps => ?sample, fun mw => ?control, fun a => whenUp_next hup, fun v => ⟨_, whenUp_next hup, rfl, rfl, rfl, rfl⟩, exec_bmcBlockRead hup,
    fun hout => ?outside⟩
  case idle => exact (whenUp_next hup).trans (congrArg _ (pmbusPoll_unaddressed h rs))
  case missed =>
    have hdue := avsDue_of_waited hpending hlate
    have hbad : avsOff x s = true := decide_eq_true hoff
    rw [pollRail_addressed haddr x]
    dsimp only
    rw [hdue, hbad, if_pos (.inr rfl)]
    exact goOffline_up _
  case poll =>
    refine ⟨railRead k x s, ?_, goOffline_up _, railRead_leaves hk x s⟩
    rw [pollRail_addressed haddr x, avsDue_eq_false hquiet]
    simp only [Bool.false_and, Bool.false_eq_true, or_false]
  case commands => exact (whenUp_next hup).trans (congrArg _ (avsAdjust_commands haddr hlate hmoves))
  case soon => exact (whenUp_next hup).trans (congrArg _ (avsAdjust_soon hat hsoon))
  case sample =>
    intro h
    obtain ⟨hhot, hcool, hbetween⟩ := thermalDuty_eq h.2 (thermThrottle s) s.power.dutyTherm
    have hside := refreshAlerts_side (sampled temps s)
    refine ⟨refreshAlerts (sampled temps s), whenUp_next hup, ?_⟩
    rw [hside]
    refine ⟨rfl, hhot, hcool, hbetween, fun hsome hot => refreshAlerts_thermal (causePresent_thermal hsome hot), rfl, rfl⟩
  case control =>
    refine ⟨powerControl mw s, whenUp_next hup, ?_, ?_, rfl, rfl, rfl⟩
    · exact Nat.le_add_right 8 _
    · have := Nat.mod_lt (Config.openNat s.freeIx) (show 0 < 57 by decide)
      show 8 + Config.openNat s.freeIx % 57 ≤ 64
      omega
  case outside =>
    have hno : readPermitted .bmc s.power.bmcAddr s = false := by
      simp only [readPermitted, Bool.and_eq_false_iff, decide_eq_false_iff_not]
      omega
    rw [exec_bmcBlockRead hup, hno]
    rfl

end Sys2Proof.Machine
end

section
/-! Completions, registered buffers and timed operations (R380, R382, R385 to R387, R400, R438). The settlement of O9, O10, O11 and O15. -/

namespace Sys2Proof.Machine

open Sys2Proof

/-! ### A completion that raises no interrupt (R385 to R387) -/

/-- A ring pair after a completion entry of one descriptor with no continuation. -/
def Ring.posted (r : Ring) (tag opcode : Nat) : Ring :=
  { r with cqPosted := wrap64 (r.cqPosted + 1), counter := wrap64 (r.counter + 1), accepted := removeFetched tag opcode r.accepted }

section
variable {d : Hdr} {op : Nat} {st : Status} {res : List Nat} {s : State}

theorem postCompletion_quiet (hop : op ≠ 0x41) (hring : (s.ring d.ring).usable = true) (hirq : d.irq = false) :
    postCompletion d op st res [] s =
      (s.emit (.completion d.ring ((s.ring d.ring).cqPosted % 2 ^ (s.ring d.ring).cqExp) (phaseOf (s.ring d.ring).cqPosted (s.ring d.ring).cqExp)
        d.tag st op ((s.ring d.ring).sqHead % 4294967296) 0 res)).setRing d.ring ((s.ring d.ring).posted d.tag op) := by
  have husable : ({ s.ring d.ring with accepted := removeFetched d.tag op (s.ring d.ring).accepted } : Ring).usable = true := hring
  have hext : ¬(op = 0x41 ∧ st = .ok) := fun h => hop h.1
  simp only [postCompletion, List.foldl_nil, husable, hext, hirq, Bool.false_eq_true, if_true, if_false]
  rfl

/-- With no operation outstanding a completion is its entry. -/
theorem complete_quiet (hop : op ≠ 0x41) (hring : (s.ring d.ring).usable = true) (hirq : d.irq = false) (hops : s.ops = []) :
    complete d op st res [] s =
      (s.emit (.completion d.ring ((s.ring d.ring).cqPosted % 2 ^ (s.ring d.ring).cqExp) (phaseOf (s.ring d.ring).cqPosted (s.ring d.ring).cqExp)
        d.tag st op ((s.ring d.ring).sqHead % 4294967296) 0 res)).setRing d.ring ((s.ring d.ring).posted d.tag op) := by
  have hpost := postCompletion_quiet (st := st) (res := res) hop hring hirq
  rw [complete_alone d op st res [] s (by rw [hpost]; exact hops) (fun _ => rfl), hpost]

end

theorem phaseOf_eq (count exp : Nat) : phaseOf count exp = (1 - count / 2 ^ exp % 2 == 1) := by
  have := Nat.mod_two_eq_zero_or_one (count / 2 ^ exp)
  obtain h | h := this <;> rw [phaseOf, h] <;> rfl

/-- Settles O9: an accepted NOP completes, and its completion is its entry where nothing waits. -/
theorem nopPostsOneCompletion : Obligations.NopPostsOneCompletion := by
  have hexec {d : Hdr} {s : State} {fn target : Nat} (hacc : Accepts 0x00 d fn target s) :
      exec (.opNop d) s = .next (complete d 0x00 .ok [] [] s) := by
    change execOpNop d s = _
    rw [execOpNop, accept_next hacc]
  refine ⟨fun d s fn target hacc hring hirq hops => ?_, fun d s fn target hacc => hexec hacc⟩
  rw [hexec hacc, complete_quiet (by decide) hring hirq hops, phaseOf_eq]
  rfl

/-! ### A common check that fails (R380) -/

theorem onSession_refused {op : Nat} {d : Hdr} {g : Handle} {f : Nat → Nat → State → State} {s : State} {st : Status} (hup : s.up = true)
    (hlive : ringLive d.ring s = true) (hboot : s.encl.bootFailed = false) (h : commonCheck op d s = some st) :
    onSession op d g f s = .next (complete d op st [] [] s) := accept_refused hup hlive hboot h

/-- Settles O10: every opcode comes to acceptance through `accept`, and a completion changes the host side alone. -/
theorem failedCommonCheckOnlyCompletes : Obligations.FailedCommonCheckOnlyCompletes := by
  intro d s st hup hlive hboot
  refine ⟨fun g h => (onSession_refused hup hlive hboot h : execOpSessionClose d g s = _),
    fun a h => (accept_refused hup hlive hboot h : execOpStep d a s = _),
    fun a h => (accept_refused hup hlive hboot h : execOpModelLoad d a s = _),
    fun p k h => (accept_refused hup hlive hboot h : execOpExtentRevoke d p k s = _),
    fun x h => (accept_refused hup hlive hboot h : execOpLensCreate d x s = _),
    fun a m h => (accept_refused hup hlive hboot h : execOpCompositionSet d a m true s = _),
    fun h => (accept_refused hup hlive hboot h : execFwActivate d s = _), fun w => ?_⟩
  obtain ⟨-, -, hpower, hencl, hmgmt, hregs, hchans, hparts, hpeers, hports, -⟩ := (complete_host d w st [] [] s).parts
  exact ⟨hchans, hregs, hencl, hpower, hports, hpeers, hparts, hmgmt⟩

/-! ### Buffers (R382) -/

theorem exec_opBufRegister {d : Hdr} {index base length fn target : Nat} {s : State} (hacc : Accepts 0x01 d fn target s)
    (hcheck : bufCheck fn index base length s = none) : exec (.opBufRegister d index base length) s =
      .next (complete d 0x01 .ok [] [] (s.modFn fn (fun f => { f with bufs := tset index ⟨base, length, false⟩ f.bufs }))) := by
  change execOpBufRegister d index base length s = _
  rw [execOpBufRegister, accept_next hacc, hcheck]

/-- The buffer is unusable at once, and its operation stays outstanding until its earlier users have ended. -/
def leaveBuf (d : Hdr) (index fn target : Nat) (b : Buf) (s : State) : State :=
  addOp 0x02 d fn target [] false (.unregister index) (s.modFn fn (fun f => { f with bufs := tset index { b with leaving := true } f.bufs }))

theorem exec_opBufUnregister {d : Hdr} {index fn target : Nat} {b : Buf} {s : State} (hacc : Accepts 0x02 d fn target s)
    (hbuf : tget index (s.fn fn).bufs = some b) (hb : b.leaving = false) : exec (.opBufUnregister d index) s =
      .next (settle (leaveBuf d index fn target b s).ops.length (leaveBuf d index fn target b s)) := by
  change execOpBufUnregister d index s = _
  rw [execOpBufUnregister, accept_next hacc]
  simp only [hbuf, hb, Bool.false_eq_true, if_false]
  rfl

/-- The one outstanding operation, an unregister, has no earlier user to wait for. -/
theorem settle_unregister {op : RunOp} {index : Nat} {s : State} (hops : s.ops = [op]) (hkind : op.kind = .unregister index) :
    settle s.ops.length s = finishOp op .ok [] [] (s.modFn op.fn (fun f => { f with bufs := tdel index f.bufs })) := by
  have hreached : reached op s = some (.ok, [], s.modFn op.fn (fun f => { f with bufs := tdel index f.bufs })) := by
    simp [reached, hkind, hops]
  simp [settle, firstReached, hops, hreached]

theorem finishOp_attached {op : RunOp} (hdet : op.detached = false) (st : Status) (res : List Nat) (s : State) :
    finishOp op st res [] s = postCompletion op.hdr op.opcode st res [] (dropOp op s) := by simp [finishOp, hdet]

/-- The buffer's index is free (R382). -/
def bufGone (index fn : Nat) (b : Buf) (s : State) : State :=
  (s.modFn fn (fun f => { f with bufs := tset index { b with leaving := true } f.bufs })).modFn fn (fun f => { f with bufs := tdel index f.bufs })

theorem withOps_self {s : State} {l : List RunOp} (h : s.ops = l) : { s with ops := l } = s := by
  subst h
  rfl

theorem dropOp_single {op : RunOp} {s : State} (h : s.ops = [op]) : dropOp op s = { s with ops := [] } := by simp [dropOp, h]

theorem dropOp_leaveBuf {d : Hdr} {index fn target : Nat} {b : Buf} {s : State} (hops : s.ops = []) :
    dropOp ⟨d, fn, 0x02, target, false, false, s.now, [], .unregister index⟩
      ((leaveBuf d index fn target b s).modFn fn (fun f => { f with bufs := tdel index f.bufs })) = bufGone index fn b s := by
  rw [dropOp_single (by simp [leaveBuf, addOp, hops])]
  exact withOps_self (s := bufGone index fn b s) hops

/-- Settles O11: a register sets its index; an unregister alone reaches its end with it. -/
theorem buffersComeAndGo : Obligations.BuffersComeAndGo := by
  refine ⟨fun d index base length fn target s => exec_opBufRegister, fun d index fn target b s hacc hbuf hb hops hirq hring => ?_⟩
  have hleft : (leaveBuf d index fn target b s).ops = [⟨d, fn, 0x02, target, false, false, s.now, [], .unregister index⟩] := by
    simp [leaveBuf, addOp, hops]
  have hring' : ((bufGone index fn b s).ring d.ring).usable = true := hring
  have hend := postCompletion_quiet (op := 0x02) (st := .ok) (res := []) (by decide) hring' hirq
  refine ⟨_, exec_opBufUnregister hacc hbuf hb, ?_⟩
  rw [settle_unregister hleft rfl, finishOp_attached rfl, dropOp_leaveBuf hops, hend]
  refine ⟨?_, hops, ⟨_, _, rfl⟩, rfl⟩
  simp [bufGone]

/-! ### Timed operations (R387, R438) -/

theorem descComplete_ready {op : RunOp} {s : State} {st : Status} {res : List Nat} {w : List (Nat × Payload)} (hops : s.ops = [op])
    (hkind : op.kind = .ready st res w) : descComplete op.hdr.ring op.hdr.tag s = endOp op st res w s := by
  simp [descComplete, hops, hkind]

theorem exec_descComplete {ring tag : Nat} {s : State} (hup : s.up = true) : exec (.descComplete ring tag) s = .next (descComplete ring tag s) :=
  whenUp_next hup

/-- An operation of the port complex, or one with nothing to write, ends as its descriptor completes. -/
theorem endOp_here {op : RunOp} {s : State} {st : Status} {res : List Nat} {w : List (Nat × Payload)} (hdet : op.detached = false)
    (hhere : 8 ≤ op.target ∧ 8 ≤ (s.ring op.hdr.ring).target ∨ w = []) :
    endOp op st res w s = complete op.hdr op.opcode st res w (dropOp op s) := by
  obtain ⟨ht, hr⟩ | rfl := hhere
  · have hend : endOp op st res w s = closeOp op st res w s := if_neg fun h => absurd h.1 (Nat.not_lt.mpr ht)
    have hcomplete : complete op.hdr op.opcode st res w (dropOp op s) =
        settle (postCompletion op.hdr op.opcode st res w (dropOp op s)).ops.length (postCompletion op.hdr op.opcode st res w (dropOp op s)) :=
      if_neg fun h => absurd h.1 (Nat.not_lt.mpr hr)
    rw [hend, hcomplete, closeOp, finishOp, hdet]
    rfl
  · exact endOp_eq_complete hdet st res s

/-- A request before it has its tags (R435). -/
def newReq (unit fid dst fn : Nat) (k : ReqKind) : Request :=
  { unit := unit, req := 0, dstFid := fid, dstUnit := dst, port := unit, fn := fn, gen := 0, kind := k }

/-- A request that need not wait goes out. -/
theorem sendReq_launches {unit fid dst fn a : Nat} {k : ReqKind} {op : PktOp} {p : Payload} {s : State} (hmarked : unitMarked fid dst s = false)
    (hfid : fid ≠ s.fid) (hgo : mustWait unit fn (tagCount op p) s = false) :
    sendReq unit fid dst fn k op a p s =
      .ok (launch (newReq unit fid dst fn k) op a p s) := by
  simp [sendReq, newReq, hmarked, hfid, hgo]

theorem dataDone_waits {id : Nat} {s : State} (h : s.reqs.any (fun r => r.kind == .dataWrite id) = true) : dataDone id s = s := by
  rw [dataDone, h]
  rfl

/-- The operation whose data write, numbered by a fresh value, is sent first (R438). -/
def awaitsData (op : RunOp) (st : Status) (res : List Nat) (s : State) : State :=
  { s with freeIx := s.freeIx + 1
           ops := s.ops.map (fun o => if o = op then { o with kind := .writing s.freeIx st res, begun := true } else o) }

theorem endOp_sends {op : RunOp} {s : State} {st : Status} {res : List Nat} {a : Nat} {p : Payload} (ht : op.target < 8)
    (hmarked : unitMarked (s.fn op.fn).adapter 0 s = false) (hfid : (s.fn op.fn).adapter ≠ s.fid)
    (hgo : mustWait op.target op.fn (tagCount .write p) s = false) :
    endOp op st res [(a, p)] s =
      launch (newReq op.target (s.fn op.fn).adapter 0 op.fn (.dataWrite s.freeIx)) .write a p (awaitsData op st res s) := by
  have hsend : sendReq op.target (s.fn op.fn).adapter 0 op.fn (.dataWrite s.freeIx) .write a p (awaitsData op st res s) = .ok _ :=
    sendReq_launches hmarked hfid hgo
  have hend : endOp op st res [(a, p)] s = dataDone s.freeIx
      (match sendReq op.target (s.fn op.fn).adapter 0 op.fn (.dataWrite s.freeIx) .write a p (awaitsData op st res s) with
        | .ok t => t
        | .error _ => awaitsData op st res s) := if_pos ⟨ht, rfl⟩
  rw [hend, hsend]
  refine dataDone_waits ?_
  simp [launch, newReq, State.emit]

/-! ### Interrupts (R400) -/

theorem trySend_idle {fn vec : Nat} {s : State} (h : ((s.fn fn).vec vec).mask = true ∨ ((s.fn fn).vec vec).pending = 0) :
    trySend fn vec s = s := if_pos (by simpa using h)

theorem trySend_late {fn vec : Nat} {s : State} (hmask : ((s.fn fn).vec vec).mask = false) (hpending : ((s.fn fn).vec vec).pending ≠ 0)
    (hlate : ((s.fn fn).vec vec).time ≤ s.now - ((s.fn fn).vec vec).first) :
    trySend fn vec s = ({ s with out := .interrupt fn vec ((s.fn fn).vec vec).pending (s.fn fn).adapter :: s.out }.setFn fn
      { s.fn fn with vecs := tset vec { (s.fn fn).vec vec with pending := 0 } (s.fn fn).vecs }) := by
  unfold trySend
  extract_lets f v
  rw [if_neg (by simp [v, f, hmask, hpending]), if_pos (by simp [v, f, hlate])]
  rfl

theorem exec_coalescePeriod {s : State} (hup : s.up = true) : exec .coalescePeriod s = .next ((s.fns.map (·.1)).foldl flushEvents s) := by
  show execCoalescePeriod s = _
  exact whenUp_next hup

theorem exec_vecUnmask {r : Requester} {s : State} (hup : s.up = true) (h : fnOrF0 r (selOf r 0x060 s) = true) :
    exec (.vecUnmask r) s = .next (answerReg r .ok .empty (unmask (selOf r 0x060 s) (selOf r 0x0A0 s) s)) := by
  change execVecUnmask r s = _
  rw [execVecUnmask, whenUp_next hup]
  dsimp only
  rw [if_pos h]

/-- Settles O15: the timed operation by where its data goes, and an interrupt by its vector. -/
theorem timedHostWork : Obligations.TimedHostWork := by
  intro s hup
  refine ⟨fun ring tag d fn t ranges st res w hops hring htag => ?timed, fun fn vec hmask hpending hlate => ?sent, fun fn vec hidle => ?idle,
    exec_coalescePeriod hup, fun r => exec_vecUnmask hup⟩
  case sent => exact (whenUp_next hup).trans (congrArg _ (trySend_late hmask hpending hlate))
  case idle => exact (whenUp_next hup).trans (congrArg _ (trySend_idle hidle))
  case timed =>
    subst hring htag
    have hexec := (exec_descComplete (ring := d.ring) (tag := d.tag) hup).trans (congrArg _ (descComplete_ready hops rfl))
    refine ⟨fun hhere => ?_, fun a p ht hw hmarked hfid hgo => ?_⟩
    · rw [hexec, endOp_here rfl hhere]
      rw [dropOp_single hops]
    · subst hw
      rw [hexec, endOp_sends ht hmarked hfid hgo]
      refine ⟨_, _, rfl, ?_, rfl, rfl⟩
      simp [launch, newReq, awaitsData, State.emit, hops]

end Sys2Proof.Machine
end

section
/-! Rings: doorbells and polls, descriptors read and admitted, ring pairs enabled and reset (R370, R371, R373 to R381, R388, R398, R402, R406, R409,
R532). The settlement of O12, O13, O14, O16 and O17. -/

namespace Sys2Proof.Machine

open Sys2Proof

/-! ### The words of a ring (R375) -/

section
variable {ring v : Nat} {s : State}

theorem takeSqTail_eventRing (h : (s.ring ring).sqExp = 0) : takeSqTail ring v s = s := if_pos (.inl h)

theorem takeSqTail_within (hexp : (s.ring ring).sqExp ≠ 0) (hnew : (s.ring ring).sqTail < v)
    (hfits : v ≤ (s.ring ring).sqHead + 2 ^ (s.ring ring).sqExp) :
    takeSqTail ring v s = ringRead ring (s.setRing ring { s.ring ring with sqTail := v }) := by
  unfold takeSqTail
  dsimp only
  rw [if_neg (not_or.mpr ⟨hexp, Nat.not_le.mpr hnew⟩), if_neg (Nat.not_lt.mpr (Nat.sub_le_iff_le_add'.mpr hfits))]

theorem takeSqTail_past (hexp : (s.ring ring).sqExp ≠ 0) (hnew : (s.ring ring).sqTail < v)
    (hpast : (s.ring ring).sqHead + 2 ^ (s.ring ring).sqExp < v) : takeSqTail ring v s = ringFault ring 3 s := by
  unfold takeSqTail
  dsimp only
  rw [if_neg (not_or.mpr ⟨hexp, Nat.not_le.mpr hnew⟩), if_pos (by omega)]

theorem takeCqHead_within (hnew : (s.ring ring).cqHead < v) (hfits : v ≤ (s.ring ring).cqPosted) :
    takeCqHead ring v s = ringRoom ring (s.setRing ring { s.ring ring with cqHead := v }) := by
  unfold takeCqHead
  dsimp only
  rw [if_neg (Nat.not_le.mpr hnew), if_neg (Nat.not_lt.mpr hfits)]

theorem takeCqHead_past (hnew : (s.ring ring).cqHead < v) (hpast : (s.ring ring).cqPosted < v) :
    takeCqHead ring v s = ringFault ring 4 s := by
  unfold takeCqHead
  dsimp only
  rw [if_neg (Nat.not_le.mpr hnew), if_pos hpast]

/-! ### Doorbell messages and polls (R373 to R376, R398) -/

theorem exec_notifyDb {p : Pkt} {fn line word value : Nat} (h : Arrives p s) (hunit : p.dstUnit = 8) :
    exec (.notifyDb p fn line word value) s = .next (notifyDb p.srcFid fn line word value s) := by
  change execNotifyDb p fn line word value s = _
  rw [execNotifyDb, whenUp_next h.1, arrive_next h, doorbell, if_neg (not_not.mpr hunit)]

theorem notifyDb_misrouted {src fn line word : Nat} (h : fromFunction fn src s = false) :
    notifyDb src fn line word v s = s.modFn fn (fun f => { f with misroute := wrap64 (f.misroute + 1) }) := by
  rw [notifyDb, h]
  rfl

/-- One more doorbell message is taken at this instant (R376). -/
def notified (s : State) : State := { s with mgmt := { s.mgmt with notifies := s.mgmt.notifies + 1 } }

theorem notifyDb_taken {src fn line word : Nat} (hfrom : fromFunction fn src s = true) (hrun : (s.fn fn).resetRun = none)
    (hroom : s.mgmt.notifies < 1024) (hline : ringOfLine fn line s = some ring) :
    notifyDb src fn line word v s =
      if word = 0 then takeSqTail ring v (notified s) else if word = 1 then takeCqHead ring v (notified s) else notified s := by
  have hline' : ringOfLine fn line (notified s) = some ring := hline
  unfold notifyDb
  rw [hfrom, hrun, if_neg (Nat.not_le.mpr hroom)]
  simp only [Bool.not_true, Option.isSome_none, Bool.false_eq_true, if_false]
  change (match ringOfLine fn line (notified s) with | none => _ | some ring => _) = _
  rw [hline']
  rfl

theorem exec_dbPoll {words : List (Nat × Nat × Nat)} (hup : s.up = true) :
    exec (.dbPoll words) s = .next (words.foldl pollOne { s with mgmt := { s.mgmt with pollSoon := false } }) := by
  change execDbPoll words s = _
  rw [execDbPoll, whenUp_next hup]

theorem pollOne_inactive {w : Nat × Nat × Nat} (h : (s.ring w.1).state ≠ .active) : pollOne s w = s := by
  simp [pollOne, h]

theorem pollOne_eventRing {w : Nat × Nat × Nat} (h : (s.ring w.1).state = .active) (hexp : (s.ring w.1).sqExp = 0) :
    pollOne s w = takeCqHead w.1 w.2.2 s := by
  simp [pollOne, h, takeSqTail_eventRing hexp]

end

/-- Settles O12: a message by its adapter, and the words of its ring by R375; a poll acts on each ACTIVE ring as the messages do. -/
theorem doorbellsMoveTheirRing : Obligations.DoorbellsMoveTheirRing := by
  refine ⟨fun p fn line value ring s harrives hunit => ⟨fun hother word => ?other, fun hfrom hrun hroom hline => ?taken⟩, fun s hup =>
    ⟨exec_dbPoll hup, fun ring tail head hstate => ?inactive, fun ring tail head hstate hexp hnew hfits => ?active⟩⟩
  case other => rw [exec_notifyDb harrives hunit, notifyDb_misrouted hother]
  case taken =>
    intro s1
    have hexec (word : Nat) := (exec_notifyDb (word := word) (value := value) harrives hunit).trans
      (congrArg Host.Outcome.next (notifyDb_taken hfrom hrun hroom hline))
    refine ⟨fun hexp hnew hfits => (hexec 0).trans (congrArg _ (takeSqTail_within hexp hnew hfits)),
      fun hexp hnew hpast => (hexec 0).trans (congrArg _ (takeSqTail_past hexp hnew hpast)),
      fun hnew hfits => (hexec 1).trans (congrArg _ (takeCqHead_within hnew hfits)),
      fun hnew hpast => (hexec 1).trans (congrArg _ (takeCqHead_past hnew hpast))⟩
  case inactive => rw [exec_dbPoll hup, List.foldl_cons, List.foldl_nil, pollOne_inactive hstate]
  case active =>
    rw [exec_dbPoll hup, List.foldl_cons, List.foldl_nil, pollOne_eventRing hstate hexp]
    exact congrArg _ (takeCqHead_within hnew hfits)

/-! ### Descriptors read (R377, R381, R388) -/

section
variable {ring : Nat} {d : Fetched} {s : State}

theorem fetchOne_misframed (hstate : (s.ring ring).state = .active) (hrun : (s.fn (s.ring ring).owner).resetRun = none)
    (htail : (s.ring ring).sqHead < (s.ring ring).sqTail) (hbad : 3 ≤ d.size ∨ (s.ring ring).sqHead % sizeEntries d.size ≠ 0) :
    fetchOne ring d s = some (ringFault ring 5 s) := by
  unfold fetchOne
  dsimp only
  rw [if_neg (by simp [hstate, hrun]), if_neg (Nat.not_le.mpr htail), if_pos hbad]

/-- A ring pair whose device has read one more descriptor, held in entry order (R377). -/
def Ring.fetched (r : Ring) (d : Fetched) : Ring := { r with sqHead := wrap64 (r.sqHead + sizeEntries d.size), held := r.held ++ [d] }

theorem sizeEntries_pos (size : Nat) : 0 < sizeEntries size := by
  unfold sizeEntries
  split
  · decide
  · split <;> decide

theorem sizeEntries_le (size : Nat) : sizeEntries size ≤ 4 := by
  unfold sizeEntries
  split
  · decide
  · split <;> decide

theorem fetchOne_takes (hstate : (s.ring ring).state = .active) (hrun : (s.fn (s.ring ring).owner).resetRun = none) (hsize : d.size < 3)
    (haligned : (s.ring ring).sqHead % sizeEntries d.size = 0) (hwhole : (s.ring ring).sqHead + sizeEntries d.size ≤ (s.ring ring).sqTail)
    (hcredit : (s.ring ring).cqPosted - (s.ring ring).cqHead + (s.ring ring).reserved + needOf d.opcode ≤ 2 ^ (s.ring ring).cqExp) :
    fetchOne ring d s = some (s.setRing ring ((s.ring ring).fetched d)) := by
  have hpos := sizeEntries_pos d.size
  unfold fetchOne
  dsimp only
  rw [if_neg (by simp [hstate, hrun]), if_neg (by omega), if_neg (by omega), if_neg (Nat.not_lt.mpr hwhole), if_neg (Nat.not_lt.mpr hcredit)]
  rfl

theorem fetchAll_one {t : State} (h : fetchOne ring d s = some t) : fetchAll ring 16 [d] s = t := by
  have hfits : ¬16 < sizeEntries d.size := Nat.not_lt.mpr ((sizeEntries_le d.size).trans (by decide))
  rw [fetchAll, if_neg hfits, h]
  rfl

theorem exec_descFetch {ds : List Fetched} (hup : s.up = true) : exec (.descFetch ring ds) s =
    .next (ringRead ring (pump ring (fetchAll ring 16 ds (answerReqs (fun k => k == .ringMem ring) s)))) := by
  change execDescFetch ring ds s = _
  rw [execDescFetch, whenUp_next hup]

end

/-- Settles O13: the outcomes of one descriptor read. -/
theorem descriptorsAreFetched : Obligations.DescriptorsAreFetched := by
  refine ⟨fun ring d s => fetchOne_misframed, fun ring d s hup hstate hrun hsize haligned hwhole hcredit => ?_⟩
  have hone : fetchOne ring d (answerReqs (fun k => k == .ringMem ring) s) = some _ :=
    fetchOne_takes (s := answerReqs (fun k => k == .ringMem ring) s) hstate hrun hsize haligned hwhole hcredit
  rw [exec_descFetch hup, fetchAll_one hone]
  rfl

/-! ### The head of a ring (R379, R409) -/

section
variable {ring : Nat} {d : Fetched} {s : State}

theorem meterOf_mapped {r : Ring} (howner : (s.flow d.flow).owner = r.owner) (hmapped : (s.flow d.flow).mapped = true) :
    meterOf r d s = (.pair (s.flow d.flow).pair, false) := by
  simp [meterOf, howner, hmapped]

/-- The pair of a descriptor that both levels can pay for (R409). -/
def Pair.paid (p : Pair) (cost : Nat) : Pair :=
  { p with c := p.c - (cost : Int) * 1000, p := p.p - (cost : Int) * 1000, rel := wrap64 (p.rel + cost) }

theorem admitMeter_pays {r : Ring} {n : Nat} (hmeter : meterOf r d s = (.pair n, false))
    (hc : ((min (costOf (s.pair n).params.descriptors d) (s.pair n).params.cbs : Nat) : Int) * 1000 ≤ (s.pair n).c)
    (hp : ((min (costOf (s.pair n).params.descriptors d) (s.pair n).params.pbs : Nat) : Int) * 1000 ≤ (s.pair n).p) :
    admitMeter r d s = .release (s.setPair n ((s.pair n).paid (costOf (s.pair n).params.descriptors d))) := by
  unfold admitMeter
  rw [hmeter]
  dsimp only
  rw [if_pos ⟨hc, hp⟩]
  rfl

theorem countForeign_own {r : Ring} {n : Meter} (hmeter : meterOf r d s = (n, false)) : countForeign r d s = s := by
  rw [countForeign, hmeter]
  rfl

theorem admitHead_empty (h : (s.ring ring).held = []) : admitHead ring s = none := by simp [admitHead, h]

theorem admitHead_releases {t : State} {rest : List Fetched} (hheld : (s.ring ring).held = d :: rest) (hwaits : headWaits ring d s = false)
    (hcheck : headCheck ring d s = none) (hadmit : admitMeter (s.ring ring) d (countForeign (s.ring ring) d s) = .release t) :
    admitHead ring s = some (leaveHead ring d t) := by
  simp [admitHead, hheld, hwaits, hcheck, hadmit]

theorem markHeld_empty (h : (s.ring ring).held = []) : markHeld ring s = s := by simp [markHeld, h]

/-- The one head of a ring leaves, and there is no other to look at. -/
theorem pump_single {t : State} (hheld : (s.ring ring).held = [d]) (hhead : admitHead ring s = some t) (hgone : (t.ring ring).held = []) :
    pump ring s = t := by
  simp [pump, pumpRing, hheld, hhead, admitHead_empty hgone, markHeld_empty hgone]

end

/-- Settles O14: the head pays its pair and leaves, and with it the ring is looked at in full. -/
theorem headsAreAdmittedByTheirMeter : Obligations.HeadsAreAdmittedByTheirMeter := by
  intro ring d s hup hheld hwaits hcheck howner hmapped n p cost hc hp
  have hmeter := meterOf_mapped howner hmapped
  have hadmit : admitMeter (s.ring ring) d (countForeign (s.ring ring) d s) = .release (s.setPair n (p.paid cost)) := by
    rw [countForeign_own hmeter]
    exact admitMeter_pays hmeter hc hp
  have hhead := admitHead_releases hheld hwaits hcheck hadmit
  have hleft : leaveHead ring d (s.setPair n (p.paid cost)) = (s.setPair n (p.paid cost)).setRing ring
      { s.ring ring with held := [], metered := false, accepted := (s.ring ring).accepted ++ [d] } := by
    simp [leaveHead, State.modRing, hheld]
  rw [hleft] at hhead
  change execDescAdmit ring s = _
  rw [execDescAdmit, whenUp_next hup, pump_single hheld hhead (by simp)]
  rfl

/-! ### A ring pair enabled (R370, R371) -/

theorem exec_ringEnable {r : Requester} {ring : Nat} {s : State} (hup : s.up = true) (hmay : fnOrF0 r (s.ring ring).owner = true) :
    exec (.ringEnable r ring) s = .next (answerReg r .ok .empty (enableRing ring s)) := by
  change execRingEnable r ring s = _
  rw [execRingEnable, whenUp_next hup, if_pos hmay]

/-- Settles O16: an enable that nothing holds back is refused by R370's checks or makes the ring ACTIVE. -/
theorem ringsEnable : Obligations.RingsEnable := by
  intro r ring s hup hmay hstate hen hrun hbusy
  have hgoes : ¬((s.ring ring).state ≠ .disabled ∨ (!(s.fn (s.ring ring).owner).enable) = true ∨
      (s.fn (s.ring ring).owner).resetRun.isSome = true ∨ s.mgmt.resetBusy = true) := by simp [hstate, hen, hrun, hbusy]
  refine ⟨fun hok => ?_, fun e herr => ?_, fun hexp => ?_⟩
  · rw [exec_ringEnable hup hmay, enableRing, if_neg hgoes, hok]
  · rw [exec_ringEnable hup hmay, enableRing, if_neg hgoes, herr]
  · simp [enableErr, hexp]

/-! ### A ring reset (R402, R406, R532) -/

section
variable {ring : Nat} {s : State}

/-- A ring pair after its reset: its context stays (R406). -/
def Ring.cleared (r : Ring) : Ring :=
  { r with state := .disabled, sqTail := 0, sqHead := 0, cqPosted := 0, cqHead := 0, counter := 0, held := [], metered := false, accepted := [] }

theorem disableRing_ring (ring : Nat) (s : State) : (disableRing ring s).ring ring = (s.ring ring).cleared := State.modRing_ring_same _ _ _

theorem abortRead_empty (hacc : (s.ring ring).accepted = []) (hheld : (s.ring ring).held = []) : abortRead ring s = s := by
  simp [abortRead, hacc, hheld]

/-- With no operation outstanding and nothing read, nothing of the ring ends. -/
theorem endDescriptors_idle (hops : s.ops = []) (hacc : (s.ring ring).accepted = []) (hheld : (s.ring ring).held = []) :
    (endDescriptors [ring] s).1 = s := by
  simp [endDescriptors, hops, abortRead_empty hacc hheld]

theorem resetRing_idle (hops : s.ops = []) (hacc : (s.ring ring).accepted = []) (hheld : (s.ring ring).held = []) :
    (resetRing ring s).1 = disableRing ring (spendSecrets s) :=
  congrArg (disableRing ring) (endDescriptors_idle (s := spendSecrets s) hops hacc hheld)

theorem resetRing_ring (ring : Nat) (s : State) : ∃ r : Ring, (resetRing ring s).1.ring ring = r.cleared := ⟨_, disableRing_ring _ _⟩

theorem exec_ringReset_desc {d : Hdr} {fn target : Nat} (hacc : Accepts 0x60 d fn target s) (hring : ring < 4096)
    (hmay : fn = 0 ∨ (s.ring ring).owner = fn) (hother : d.ring ≠ ring) :
    exec (.ringReset (.desc d) ring) s = .next (complete d 0x60 .ok [] [] (resetRing ring s).1) := by
  have hperm : ¬(fn ≠ 0 ∧ (4096 ≤ ring ∨ (s.ring ring).owner ≠ fn)) := by omega
  change accept 0x60 d (fun fn _ s => opRingReset d ring fn s) s = _
  rw [accept_next hacc, opRingReset, if_neg hperm, if_neg (Nat.not_le.mpr hring), if_neg hother]

theorem exec_ringReset_reg {r : Requester} (hup : s.up = true) : exec (.ringReset (.reg r) ring) s = .next (regRingReset r ring s) := by
  change whenUp (regRingReset r ring) s = _
  rw [whenUp_next hup]

end

/-- Settles O17: a reset by descriptor of an idle ring, and one by register by what its requester may write. -/
theorem ringResets : Obligations.RingResets := by
  refine ⟨fun d ring fn target s hacc hring hmay hother hops hnone hheld => ⟨_, exec_ringReset_desc hacc hring hmay hother, ?desc⟩, fun r ring s hup =>
    ⟨fun hmay => ?denied, fun hmay hstate => ?kept, fun hmay hstate => ?reset⟩⟩
  case desc =>
    rw [resetRing_idle hops hnone hheld]
    refine ⟨?_, rfl, rfl, rfl, fun k hk => State.modRing_ring_other _ _ _ _ hk⟩
    rw [disableRing_ring]
    change (s.ring ring).cleared = _
    simp [Ring.cleared, hnone, hheld]
  case denied => rw [exec_ringReset_reg hup, regRingReset, hmay]; rfl
  case kept =>
    rw [exec_ringReset_reg hup, regRingReset, hmay, if_pos hstate]
    rfl
  case reset =>
    obtain ⟨x, hx⟩ := resetRing_ring ring s
    rw [exec_ringReset_reg hup, regRingReset, hmay, if_neg hstate, hx]
    exact ⟨rfl, rfl, rfl, rfl, rfl⟩

end Sys2Proof.Machine
end

section
/-! Function and channel resets (R402, R404, R407). The settlement of O18 and O19. -/

namespace Sys2Proof.Machine

open Sys2Proof

/-! ### What an event leaves of its function (R389, R400) -/

/-- A function's reset state stays, and, where it has no event ring, its vectors. -/
structure KeepsReset (f g : Fn) : Prop where
  resetGen : g.resetGen = f.resetGen
  fence : g.fence = f.fence
  resetRun : g.resetRun = f.resetRun
  evValid : g.evValid = f.evValid
  vecs : f.evValid = false → g.vecs = f.vecs

theorem KeepsReset.refl (f : Fn) : KeepsReset f f := ⟨rfl, rfl, rfl, rfl, fun _ => rfl⟩

theorem KeepsReset.trans {f g h : Fn} (a : KeepsReset f g) (b : KeepsReset g h) : KeepsReset f h :=
  ⟨b.resetGen.trans a.resetGen, b.fence.trans a.fence, b.resetRun.trans a.resetRun, b.evValid.trans a.evValid,
    fun hf => (b.vecs (a.evValid.trans hf)).trans (a.vecs hf)⟩

theorem setFn_keepsReset {fn : Nat} {f : Fn} {s : State} (h : KeepsReset (s.fn fn) f) : KeepsReset (s.fn fn) ((s.setFn fn f).fn fn) := by
  rw [State.setFn_fn_same]
  exact h

/-- Vectors change only in a function that has an event ring. -/
theorem KeepsReset.withVecs {f : Fn} (h : f.evValid = true) (v : Tbl Vec) : KeepsReset f { f with vecs := v } :=
  ⟨rfl, rfl, rfl, rfl, fun hf => absurd (h.symm.trans hf) (by decide)⟩

theorem trySend_keepsReset {fn vec : Nat} {s : State} (h : (s.fn fn).evValid = true) : KeepsReset (s.fn fn) ((trySend fn vec s).fn fn) := by
  unfold trySend
  extract_lets f v
  split
  · exact .refl _
  · split
    · exact setFn_keepsReset (.withVecs h _)
    · exact .refl _

theorem onCause_keepsReset {fn vec : Nat} {s : State} (h : (s.fn fn).evValid = true) : KeepsReset (s.fn fn) ((onCause fn vec s).fn fn) := by
  unfold onCause
  extract_lets f v v'
  have hset : KeepsReset (s.fn fn) ((s.setFn fn { f with vecs := tset vec v' f.vecs }).fn fn) := setFn_keepsReset (.withVecs h _)
  exact hset.trans (trySend_keepsReset (hset.evValid.trans h))

theorem postEvent_keepsReset (fn : Nat) (h : HeldEvent) (s : State) : KeepsReset (s.fn fn) ((postEvent fn h s).fn fn) := by
  unfold postEvent
  extract_lets f l
  by_cases hvalid : f.evValid = true
  · rw [if_neg (by simp [hvalid])]
    split
    · exact onCause_keepsReset (s := (s.emit _).setRing _ _) hvalid
    · split
      · exact setFn_keepsReset ⟨rfl, rfl, rfl, rfl, fun _ => rfl⟩
      · exact setFn_keepsReset ⟨rfl, rfl, rfl, rfl, fun _ => rfl⟩
  · rw [if_pos (by simpa using hvalid)]
    exact setFn_keepsReset ⟨rfl, rfl, rfl, rfl, fun _ => rfl⟩

theorem raiseEvent_keepsReset (fn : Nat) (ev : Event) (src : Nat) (s : State) : KeepsReset (s.fn fn) ((raiseEvent fn ev src s).fn fn) := by
  unfold raiseEvent raiseEventN
  extract_lets h f
  split
  · split
    · refine KeepsReset.trans (setFn_keepsReset ?_) (postEvent_keepsReset _ _ _)
      exact ⟨rfl, rfl, rfl, rfl, fun _ => rfl⟩
    · exact setFn_keepsReset ⟨rfl, rfl, rfl, rfl, fun _ => rfl⟩
  · exact postEvent_keepsReset _ _ _

theorem raiseEvent_keepsPosting (fn : Nat) (ev : Event) (src : Nat) (s : State) : KeepsPosting s (raiseEvent fn ev src s) :=
  raiseEventN_keepsPosting fn ev src 1 s

/-! ### A function reset (R404) -/

/-- A vector with no interrupt pending. -/
def Vec.quieted (v : Vec) : Vec := { v with pending := 0 }

/-- A function at item 3 of R404: its generation is the next, its fence runs, and no interrupt of it pends. -/
def Fn.fenced (f : Fn) : Fn :=
  { f with resetGen := (f.resetGen + 1) % 256, fence := true, resetRun := none
           vecs := f.vecs.map (fun e => (e.1, e.2.quieted)) }

theorem Fn.fenced_pending (f : Fn) (n : Nat) : (f.fenced.vec n).pending = 0 := by
  have hvec : tget n f.fenced.vecs = (tget n f.vecs).map Vec.quieted := tget_map (fun _ => Vec.quieted) n f.vecs
  rw [Fn.vec, hvec]
  cases tget n f.vecs <;> rfl

theorem endOps_idle {p : RunOp → Bool} {st : Status} {s : State} (h : s.ops = []) : endOps p st s = s := by simp [endOps, h]

/-- What items 3 to 6 of R404 leave, where no reset of the function is outstanding by descriptor. -/
structure FnReset.Done (fn : Nat) (s t : State) : Prop where
  fn : KeepsReset (s.fn fn).fenced (t.fn fn)
  ops : t.ops = []
  chans : t.chans = s.chans
  ring : ∀ n, ∃ k, t.ring n = { s.ring n with cqPosted := k }

theorem finishFnReset_done (fn : Nat) (run : FnReset) {s : State} (hops : s.ops = []) : FnReset.Done fn s (finishFnReset fn run s) := by
  unfold finishFnReset
  extract_lets f gen fenced full refilled raised
  have hfenced : refilled.fn fn = (s.fn fn).fenced := State.setFn_fn_same s fn _
  have hposting : KeepsPosting refilled raised := raiseEvent_keepsPosting _ _ _ _
  have hraised : raised.ops = [] := hposting.ops.trans hops
  rw [endOps_idle hraised]
  exact ⟨hfenced ▸ raiseEvent_keepsReset fn _ 8 refilled, hraised, (raiseEvent_host _ _ _ _).chans, hposting.ring⟩

theorem exec_functionReset {d : Hdr} {fn target : Nat} {s : State} (hacc : Accepts 0x60 d fn target s) (hfn : fn < 256) :
    exec (.functionReset (.desc d) fn) s = .next (fnReset fn (some d.tag) (dropOwn d s)) := by
  change accept 0x60 d (fun f _ s => opFnReset d fn f s) s = _
  rw [accept_next hacc, opFnReset, if_neg (fun h => h.2 rfl), if_neg (Nat.not_le.mpr hfn), if_pos rfl]

/-- The ring pair of a function at item 2 of R404: DISABLED, unless the function posts its events there. -/
def ringEnded (fn ring : Nat) (s : State) : State :=
  if (s.fn fn).evValid && (s.fn fn).evRing == ring then spendSecrets s else disableRing ring (spendSecrets s)

theorem ringEnded_leaves (fn ring : Nat) (s : State) :
    (ringEnded fn ring s).ops = s.ops ∧ (ringEnded fn ring s).fn fn = s.fn fn ∧ (ringEnded fn ring s).chans = s.chans := by
  unfold ringEnded
  split <;> exact ⟨rfl, rfl, rfl⟩

theorem ringEnded_ring {fn : Nat} {s : State} (h : (s.fn fn).evValid = false) (ring : Nat) :
    (ringEnded fn ring s).ring ring = (s.ring ring).cleared := by
  rw [ringEnded, h, Bool.false_and, if_neg Bool.false_ne_true, disableRing_ring]
  rfl

/-- A function with one ring pair, where nothing is read or outstanding, has its ring DISABLED, unless it posts its events there. -/
theorem fnReset_lone {fn : Nat} {tag : Option Nat} {s : State} {ring : Nat} {r : Ring} (hrun : (s.fn fn).resetRun = none)
    (hfence : (s.fn fn).fence = false) (hrings : s.rings = [(ring, r)]) (howner : r.owner = fn) (hops : s.ops = []) (hacc : r.accepted = [])
    (hheld : r.held = []) :
    ∃ run, fnReset fn tag s = finishFnReset fn run (ringEnded fn ring s) := by
  have hring : s.ring ring = r := by simp [State.ring, hrings, tget]
  have hidle : (endDescriptors [ring] (spendSecrets s)).1 = spendSecrets s :=
    endDescriptors_idle (s := spendSecrets s) hops ((congrArg Ring.accepted hring).trans hacc) ((congrArg Ring.held hring).trans hheld)
  have hmine : ((spendSecrets s).rings.filter (fun e => e.2.owner == fn)).map (·.1) = [ring] := by
    change (s.rings.filter _).map _ = _
    simp [hrings, howner]
  unfold fnReset
  rw [hrun]
  dsimp only
  rw [hmine]
  have hfence' : ((spendSecrets s).fn fn).fence = false := hfence
  rw [if_neg (by rw [hfence']; exact Bool.false_ne_true), hidle]
  refine ⟨_, congrArg (finishFnReset fn _) ?_⟩
  have hev : (((spendSecrets s).fn fn).evValid && ((spendSecrets s).fn fn).evRing == ring) = ((s.fn fn).evValid && (s.fn fn).evRing == ring) := rfl
  rw [List.filter_cons, hev, ringEnded]
  cases (s.fn fn).evValid && (s.fn fn).evRing == ring <;> rfl

theorem exec_functionFenceEnd {fn : Nat} {s : State} (hup : s.up = true) (hfence : (s.fn fn).fence = true) (hrun : (s.fn fn).resetRun = none) :
    exec (.functionFenceEnd fn) s = .next (releaseReqs s.reqWait.length (s.setFn fn { s.fn fn with fence := false })) := by
  change execFunctionFenceEnd fn s = _
  rw [execFunctionFenceEnd, whenUp_next hup, if_pos hfence, fenceEnd]
  dsimp only
  rw [hrun]
  rfl

/-- Settles O18: the reset of a function with one ring pair, idle but for the OP_RESET itself; and the end of its fence. -/
theorem functionResets : Obligations.FunctionResets := by
  refine ⟨fun d fn target s hacc hfn hops hrun hfence hrings hheld hread => ?reset, fun fn s hup hfence hrun =>
    ⟨exec_functionFenceEnd hup hfence hrun, fun hnone => ?ended⟩⟩
  case ended =>
    rw [exec_functionFenceEnd hup hfence hrun, hnone]
    rfl
  case reset =>
    obtain ⟨-, -, -, -, howner, -⟩ := id hacc
    let r : Ring := { s.ring d.ring with accepted := [] }
    have hown : (dropOwn d s).rings = [(d.ring, r)] := by
      simp [dropOwn, State.modRing, State.setRing, hrings, tset, hread, removeFetched, r]
    obtain ⟨run, hreset⟩ := fnReset_lone (s := dropOwn d s) (tag := some d.tag) hrun hfence hown howner hops rfl hheld
    obtain ⟨hops', hsame, hchans'⟩ := ringEnded_leaves fn d.ring (dropOwn d s)
    obtain ⟨hfn', hnoOps, hchans, hring⟩ := finishFnReset_done fn run (hops'.trans hops)
    rw [hsame] at hfn'
    refine ⟨_, (exec_functionReset hacc hfn).trans (congrArg _ hreset), hfn'.resetGen, hfn'.fence, hfn'.resetRun, hnoOps, hchans.trans hchans',
      fun n => ?_, fun hdeaf => ?_⟩
    · cases hvalid : (s.fn fn).evValid with
      | true => exact .inr rfl
      | false =>
        refine .inl ?_
        rw [Fn.vec, hfn'.vecs hvalid]
        exact (s.fn fn).fenced_pending n
    · obtain ⟨k, hk⟩ := hring d.ring
      rw [ringEnded_ring (s := dropOwn d s) hdeaf] at hk
      rw [hk]
      exact ⟨rfl, rfl⟩

/-! ### A channel reset begins (R407) -/

/-- A state has the time of another, and a reset of any channel would leave the same of it. -/
structure KeepsStanding (s t : State) : Prop where
  now : t.now = s.now
  blank : ∀ k, blankChan (t.chan k) = blankChan (s.chan k)

section
variable {s t u : State}

theorem KeepsStanding.of_eq (hnow : t.now = s.now) (hchans : t.chans = s.chans) : KeepsStanding s t :=
  ⟨hnow, fun k => by rw [State.chan, hchans]; rfl⟩

theorem KeepsStanding.refl (s : State) : KeepsStanding s s := .of_eq rfl rfl

theorem KeepsStanding.trans (h : KeepsStanding s t) (g : KeepsStanding t u) : KeepsStanding s u :=
  ⟨g.now.trans h.now, fun k => (g.blank k).trans (h.blank k)⟩

theorem foldl_keepsStanding {α : Type} {f : State → α → State} (h : ∀ s a, KeepsStanding s (f s a)) (l : List α) (s : State) :
    KeepsStanding s (l.foldl f s) :=
  List.foldlRecOn l f (.refl s) fun u hu a _ => hu.trans (h u a)

theorem HostSide.keepsStanding (h : HostSide s t) : KeepsStanding s t := by
  obtain ⟨-, hnow, -, -, -, -, hchans, -⟩ := h.parts
  exact .of_eq hnow hchans

theorem dropReqs_keepsStanding (f : ReqKind → Bool) (s : State) : KeepsStanding s (dropReqs f s) := .of_eq rfl rfl

theorem setMirrorDev_keepsStanding (m : MirrorDev) (s : State) : KeepsStanding s { s with mirrorDev := m } := .of_eq rfl rfl

theorem setChan_keepsStanding {n : Nat} {c : Chan} (h : blankChan c = blankChan (s.chan n)) : KeepsStanding s (s.setChan n c) := by
  refine ⟨rfl, fun k => ?_⟩
  by_cases hk : k = n
  · subst hk
    rw [State.setChan_chan_same, h]
  · rw [State.setChan_chan_other _ _ _ _ hk]

end

theorem Chan.freeLoc_blank (c : Chan) (l : Loc) : blankChan (c.freeLoc l) = blankChan c := by
  unfold Chan.freeLoc Chan.setTier
  dsimp only
  (repeat' split) <;> rfl

theorem Chan.abandonGen_blank (c : Chan) : blankChan c.abandonGen = blankChan c :=
  List.foldlRecOn (motive := fun d : Chan => blankChan d = blankChan c) c.mirror.heldRuns (fun c r => c.freeLoc r.2) rfl
    fun d hd r _ => (d.freeLoc_blank r.2).trans hd

theorem abandonGen_keepsStanding (s : State) : KeepsStanding s (abandonGen s) := by
  cases hopen : s.mirrorDev.openGen with
  | none =>
    unfold abandonGen
    rw [hopen]
    exact .refl s
  | some g =>
    have hleaves (u : State) (n : Nat) : KeepsStanding u (leavesGen g u n) := by
      unfold leavesGen
      split
      · exact setChan_keepsStanding (Chan.abandonGen_blank _)
      · exact .refl u
    have hleft : KeepsStanding s (genLeft g s) := by
      unfold genLeft
      exact (foldl_keepsStanding hleaves (List.range 8) s).trans (setMirrorDev_keepsStanding _ _)
    exact hleft.trans (abandonGen_host hopen).keepsStanding

theorem setSlotState_blank (kind slot st : Nat) (c : Chan) : blankChan (setSlotState kind slot st c) = blankChan c := by
  unfold setSlotState
  (repeat' split) <;> rfl

theorem undoLoad_keepsStanding (l : Load) (n : Nat) (s : State) : KeepsStanding s (undoLoad l n s) := by
  unfold undoLoad
  dsimp only
  refine setChan_keepsStanding ((setSlotState_blank _ _ _ _).trans ?_)
  split <;> rfl

theorem loadEnd_keepsStanding (l : Load) (chs : List Nat) {st : Status} (hst : st ≠ .ok) (s : State) :
    KeepsStanding s (loadEnd l chs st s) := by
  have hundo (u : State) (hu : KeepsStanding s u) : KeepsStanding s (chs.foldl (fun s n => undoLoad l n s) u) :=
    hu.trans (foldl_keepsStanding (fun s n => undoLoad_keepsStanding l n s) chs u)
  simp only [loadEnd, hst, if_false]
  split
  · refine KeepsStanding.trans ?_ (endOp_host _ _ _ _ _).keepsStanding
    exact hundo _ (.of_eq rfl rfl)
  · exact hundo _ (.of_eq rfl rfl)

theorem dropChannelWork_keepsStanding (n : Nat) {st : Status} (hst : st ≠ .ok) (s : State) : KeepsStanding s (dropChannelWork n st s) := by
  have hgen : KeepsStanding s (if (s.chan n).mirror.gen ≠ 0 then abandonGen s else s) := by
    split
    · exact abandonGen_keepsStanding s
    · exact .refl s
  have hloads (u : State) : KeepsStanding u (abortLoads n st u) := foldl_keepsStanding (fun s _ => loadEnd_keepsStanding _ _ hst s) _ u
  rw [dropChannelWork_eq]
  exact ((hgen.trans (hloads _)).trans (endChannelOps_host n st _).keepsStanding).trans (dropReqs_keepsStanding _ _)

theorem clearParts_now (n : Nat) (s : State) : (clearParts n s).now = s.now := rfl

/-- Items 1 to 5 of R407 leave the channel blank. -/
theorem wipeChan_chan_same (n : Nat) {st : Status} (hst : st ≠ .ok) (s : State) : (wipeChan n st s).chan n = blankChan (s.chan n) := by
  have hblank := (dropChannelWork_keepsStanding n hst s).blank n
  rw [wipeChan, clearParts_chan, State.modChan_chan_same, hblank]

theorem wipeChan_chan_other {n k : Nat} {st : Status} {s : State} (hk : k ≠ n) (hloads : s.loads = []) (hgen : (s.chan n).mirror.gen = 0) :
    (wipeChan n st s).chan k = s.chan k := by
  rw [wipeChan, clearParts_chan, State.modChan_chan_other _ _ _ _ hk, State.chan, dropChannelWork_chans hloads hgen, State.chan]

theorem wipeChan_now (n : Nat) {st : Status} (hst : st ≠ .ok) (s : State) : (wipeChan n st s).now = s.now := by
  have hnow := (dropChannelWork_keepsStanding n hst s).now
  rw [wipeChan, clearParts_now, State.modChan_now, hnow]

/-- A channel whose reset has begun, before its storage is gone: an ACTIVE one is in DRAINING. -/
def Chan.underReset (c : Chan) : Chan :=
  { c with switch := none, resetting := true, state := if c.state = .active then .draining else c.state }

/-- The switch of a channel ends with its reset. -/
def switchEnded (n : Nat) (s : State) : State := endOps (fun o => o.kind == .roleSet n) .abortedReset (spendSecrets s)

theorem switchEnded_host (n : Nat) (s : State) : HostSide (spendSecrets s) (switchEnded n s) := endOps_host _ _ _

theorem beginChanReset_eq (n : Nat) (s : State) :
    beginChanReset n s = wipeChan n .abortedReset ((switchEnded n s).modChan n Chan.underReset) := rfl

theorem beginChanReset_chan_same (n : Nat) (s : State) : (beginChanReset n s).chan n = blankChan (s.chan n).underReset := by
  rw [beginChanReset_eq, wipeChan_chan_same n (by decide), State.modChan_chan_same, (switchEnded_host n s).chan]
  rfl

theorem beginChanReset_chan_other {n k : Nat} {s : State} (hk : k ≠ n) (hloads : s.loads = []) (hgen : (s.chan n).mirror.gen = 0) :
    (beginChanReset n s).chan k = s.chan k := by
  have hhost := switchEnded_host n s
  have hgen' : (((switchEnded n s).modChan n Chan.underReset).chan n).mirror.gen = 0 := by
    rw [State.modChan_chan_same, hhost.chan]
    exact hgen
  have hloads' : ((switchEnded n s).modChan n Chan.underReset).loads = [] := by
    rw [State.modChan_loads, hhost.loads]
    exact hloads
  rw [beginChanReset_eq, wipeChan_chan_other hk hloads' hgen', State.modChan_chan_other _ _ _ _ hk, hhost.chan]
  rfl

theorem beginChanReset_now (n : Nat) (s : State) : (beginChanReset n s).now = s.now := by
  obtain ⟨-, hnow, -⟩ := (switchEnded_host n s).parts
  rw [beginChanReset_eq, wipeChan_now n (by decide)]
  exact hnow

theorem exec_channelReset {d : Hdr} {n fn target : Nat} {s : State} (hacc : Accepts 0x60 d fn target s) :
    exec (.channelReset (.desc d) n) s = .next (opChanReset d n fn s) := by
  change accept 0x60 d (fun fn _ s => opChanReset d n fn s) s = _
  rw [accept_next hacc]

theorem opChanReset_begins {d : Hdr} {n : Nat} {s : State} (hn : n < 8) (hidle : (s.chan n).resetting = false) :
    opChanReset d n 0 s = addOp 0x60 d 0 8 [] true (.reset 3 n) (beginChanReset n s) := by
  unfold opChanReset
  rw [if_neg (by simp), if_neg (Nat.not_le.mpr hn), hidle]
  rfl

theorem opChanReset_joins {d : Hdr} {n : Nat} {s : State} (hn : n < 8) (hrun : (s.chan n).resetting = true) :
    opChanReset d n 0 s = addOp 0x60 d 0 8 [] true (.reset 3 n) s := by
  unfold opChanReset
  rw [if_neg (by simp), if_neg (Nat.not_le.mpr hn), hrun]
  rfl

/-! ### A channel reset ends (R407) -/

theorem enterUnassigned_chan_same (n : Nat) (s : State) : (enterUnassigned n s).chan n =
    { s.chan n with state := .unassigned, role := .none, cause := 0, failedOnce := false, resetting := false } := by
  simp [enterUnassigned, clearLocks, State.chan, State.modChan, State.setChan]

theorem exec_channelResetDone {n : Nat} {ok : Bool} {s : State} (hup : s.up = true) :
    exec (.channelResetDone n ok) s = .next (resetsEnded (channelResetDone n ok s)) := by
  change execChannelResetDone n ok s = _
  rw [execChannelResetDone, whenUp_next hup]

section
variable {n : Nat} {s : State} (hswitch : (s.chan n).switch = none)
include hswitch

theorem channelResetDone_idle (h : (s.chan n).resetting = false) (ok : Bool) : channelResetDone n ok s = s := by
  simp [channelResetDone, hswitch, h]

theorem channelResetDone_passed (h : (s.chan n).resetting = true) :
    (channelResetDone n true s).chan n = (enterUnassigned n s).chan n := by
  have hends : channelResetDone n true s = endOps (fun o => o.kind == .reset 3 n) .ok (enterUnassigned n s) := by
    simp [channelResetDone, hswitch, h]
  rw [hends, (endOps_host _ _ _).chan]

theorem channelResetDone_failed (h : (s.chan n).resetting = true) :
    (channelResetDone n false s).chan n = (selfTestFailed n s).chan n := by
  have hends : channelResetDone n false s = endOps (fun o => o.kind == .reset 3 n) .channelFailed (selfTestFailed n s) := by
    simp [channelResetDone, hswitch, h]
  rw [hends, (endOps_host _ _ _).chan]

end

/-- Settles O19: the begin by who asks and what runs; the end by the self-test's outcome. -/
theorem channelResets : Obligations.ChannelResets := by
  refine ⟨fun d n target s hacc hn hidle => ?begins, fun d n fn target s hacc => ⟨fun hfn => ?other, fun hfn hn => ?absent, fun hfn hn hrun => ?joins⟩,
    fun n s hup hswitch => ⟨fun hrun => ⟨?passed, ?failed⟩, fun hidle ok => ⟨?idle, ?chans⟩⟩⟩
  case begins =>
    have hsame := beginChanReset_chan_same n s
    have hnow := beginChanReset_now n s
    have hother (hloads : s.loads = []) (hgen : (s.chan n).mirror.gen = 0) (k : Nat) (hk : k ≠ n) := beginChanReset_chan_other hk hloads hgen
    refine ⟨_, (exec_channelReset hacc).trans (congrArg _ (opChanReset_begins hn hidle)), ?_⟩
    generalize beginChanReset n s = u at *
    have hchan (k : Nat) : (addOp 0x60 d 0 8 [] true (.reset 3 n) u).chan k = u.chan k := rfl
    have hlast : (addOp 0x60 d 0 8 [] true (.reset 3 n) u).ops.getLast? = some ⟨d, 0, 0x60, 8, true, false, s.now, [], .reset 3 n⟩ := by
      rw [addOp, hnow, List.getLast?_concat]
    rw [hlast, hchan n, hsame]
    exact ⟨rfl, rfl, rfl, rfl, rfl, rfl, rfl, rfl, rfl, rfl, rfl, rfl, rfl, hother⟩
  case other => rw [exec_channelReset hacc, opChanReset, if_pos hfn]
  case absent => rw [exec_channelReset hacc, opChanReset, if_neg (not_not.mpr hfn), if_pos hn]
  case joins =>
    subst hfn
    rw [exec_channelReset hacc, opChanReset_joins hn hrun]
  case passed =>
    refine ⟨_, exec_channelResetDone hup, ?_⟩
    rw [resetsEnded_chan, channelResetDone_passed hswitch hrun, enterUnassigned_chan_same]
    exact ⟨rfl, rfl, rfl, rfl, rfl⟩
  case failed =>
    obtain ⟨cause, hfailed⟩ := selfTestFailed_chan_same n s
    refine ⟨_, exec_channelResetDone hup, ?_⟩
    rw [resetsEnded_chan, channelResetDone_failed hswitch hrun, hfailed]
    exact ⟨rfl, rfl, rfl⟩
  case idle => rw [exec_channelResetDone hup, channelResetDone_idle hswitch hidle]
  case chans => rw [resetsEnded, warmDone_chans, debugDone_chans]

end Sys2Proof.Machine
end


section
/-! Iris settings and refills, gate lists and compositions (R410, R411, R415 to R420). The settlement of O21 and O22. -/

namespace Sys2Proof.Machine

open Sys2Proof

/-! ### Iris (R410, R411) -/

theorem exec_opIrisSet_ok {d : Hdr} {index fn target : Nat} {img : IrisImage} {s : State} (hacc : Accepts 0x61 d fn target s)
    (h : irisOk index img = true) : exec (.opIrisSet d index img) s = .next (addOp 0x61 d fn target [] true .iris (stageIris index img s)) := by
  change execOpIrisSet d index img s = _
  rw [execOpIrisSet, accept_next hacc, if_pos h]

theorem exec_opIrisSet_bad {d : Hdr} {index fn target : Nat} {img : IrisImage} {s : State} (hacc : Accepts 0x61 d fn target s)
    (h : irisOk index img = false) : exec (.opIrisSet d index img) s = .next (complete d 0x61 .paramInvalid [] [] s) := by
  change execOpIrisSet d index img s = _
  rw [execOpIrisSet, accept_next hacc, if_neg (by simp [h])]

theorem applyFlows_none {s : State} (h : s.stagedFlows = []) : applyFlows s = s := by
  rw [applyFlows, h]
  exact congrArg (fun l => { s with stagedFlows := l }) h.symm

section
variable {s : State} (hheld : ∀ e ∈ s.rings, e.2.held = [])
include hheld

/-- Where no descriptor is held no class has a head to try again. -/
theorem retryClass_idle {k : Nat} (hk : k < 9) : retryClass k s = s := by
  have hnone : s.rings.filter (fun e => headClass e.2 s == k) = [] := by
    refine List.filter_eq_nil_iff.mpr fun e he => ?_
    simp only [headClass, hheld e he, beq_iff_eq]
    omega
  rw [retryClass, hnone]
  rfl

theorem shaperHeld_idle (ix : Nat) : shaperHeld ix s = false := by
  refine List.any_eq_false.mpr fun e he => ?_
  simp [hheld e he]

theorem irisRefill_idle (hflows : s.stagedFlows = []) (hops : s.ops = []) :
    irisRefill s = { s with pairs := s.pairs.map (fun e => (e.1, refillPair (refillNs s) e.2))
                            shapers := s.shapers.map (fun e => (e.1, refillShaper (refillNs s) e.1 s e.2)) } := by
  have hshapers (pairs : Tbl Pair) (e : Nat × Shaper) :
      refillShaper (refillNs s) e.1 { s with pairs := pairs } e.2 = refillShaper (refillNs s) e.1 s e.2 := by
    simp only [refillShaper, shaperHeld_idle hheld, shaperHeld_idle (s := { s with pairs := pairs }) hheld]
  unfold irisRefill
  rw [applyFlows_none hflows]
  dsimp only
  rw [endOps_idle (by exact hops)]
  simp only [hshapers]
  generalize hfilled : ({ s with pairs := _, shapers := _ } : State) = u
  have hu : ∀ e ∈ u.rings, e.2.held = [] := by
    subst hfilled
    exact hheld
  refine List.foldlRecOn (motive := fun t : State => t = u) _ _ rfl fun t ht k hk => ?_
  have hk9 : k < 9 := by revert k; decide
  rw [ht, retryClass_idle hu hk9]

end

/-- Settles O21: settings by their kind, and a refill of a device that holds no descriptor. -/
theorem irisSettingsAndRefills : Obligations.IrisSettingsAndRefills := by
  refine ⟨fun d index fn target s hacc => ⟨fun r hok => exec_opIrisSet_ok hacc hok, fun r hok => exec_opIrisSet_ok hacc hok,
    fun idle hindex hidle => exec_opIrisSet_ok hacc (by simp [irisOk, hindex, hidle]), fun img hbad => exec_opIrisSet_bad hacc hbad⟩,
    fun s hup hflows hops hheld => ⟨?refill, fun p dt hstaged => ?levels⟩⟩
  case refill =>
    change execIrisRefill s = _
    rw [execIrisRefill, whenUp_next hup, irisRefill_idle hheld hflows hops]
  case levels =>
    simp [refillPair, hstaged]

/-! ### Gate lists (R415 to R417) -/

theorem exec_opApertureSet {d : Hdr} {port count base listAddr fn target : Nat} {enable : Bool} {entries : List GateEntry} {s : State}
    (hacc : Accepts 0x62 d fn target s) :
    exec (.opApertureSet d port enable count base listAddr entries) s =
      .next (match apertureCheck fn port enable count listAddr entries s with
        | some st => complete d 0x62 st [] [] s
        | none => (addOp 0x62 d fn target [(listAddr, 8 * count)] true (.aperture port) s).setGate port
            { s.gate port with staged := some ⟨enable, base, entries.take count⟩ }) := by
  change execOpApertureSet d port enable count base listAddr entries s = _
  rw [execOpApertureSet, accept_next hacc]
  rfl

theorem exec_gateBoundary {port : Nat} {s : State} (hup : s.up = true) : exec (.gateBoundary port) s = .next (gateBoundary port s) := by
  change execGateBoundary port s = _
  rw [execGateBoundary, whenUp_next hup]

theorem gateBoundary_stays {port : Nat} {s : State} (h : gateSwitches (s.gate port) s.now = false) :
    gateBoundary port s = s.setGate port (gateStep s.now (s.gate port)) := by simp [gateBoundary, h]

theorem gateBoundary_switches {port : Nat} {s : State} (h : gateSwitches (s.gate port) s.now = true) :
    gateBoundary port s = endOps (fun o => o.kind == .aperture port) .ok (s.setGate port (gateStep s.now (s.gate port))) := by
  simp [gateBoundary, h]

/-- A list that is not enabled leaves every gate open. -/
theorem gatesNow_disabled {g : GateList} (h : g.enable = false) (now : Nat) : (gatesNow g now).2 = 0xFF := by simp [gatesNow, h]

theorem gateStep_stays {now : Nat} {g : Gate} (h : gateSwitches g now = false) :
    (gateStep now g).running = g.running ∧ (gateStep now g).staged = g.staged ∧ (gateStep now g).opens = (gatesNow g.running now).2 := by
  simp [gateStep, h]

theorem gateStep_switches {now : Nat} {g : Gate} {x : GateList} (h : gateSwitches g now = true) (hx : g.staged = some x) :
    (gateStep now g).running = x ∧ (gateStep now g).staged = none ∧ (gateStep now g).opens = (gatesNow x now).2 := by
  simp [gateStep, h, hx]

theorem gateSwitches_unstaged {g : Gate} (h : g.staged = none) (now : Nat) : gateSwitches g now = false := by simp [gateSwitches, h]

theorem gateSwitches_fromBase {g : Gate} {x : GateList} (hrun : g.running.enable = false) (hx : g.staged = some x) (now : Nat) :
    gateSwitches g now = decide (x.base ≤ now) := by simp [gateSwitches, hrun, hx]

/-- Nothing of a class begins while its gate is closed, unless its list never closes it (R416). -/
theorem mayBegin_closed {g : Gate} {c now : Nat} (hgate : g.opens.getLsbD c = false) (hleft : openLeft g.running c now ≠ none) (dur : Nat) :
    mayBegin g c now dur = none := by
  unfold mayBegin
  obtain ⟨left, hleft⟩ := Option.ne_none_iff_exists'.mp hleft
  rw [hleft]
  simp [hgate]

theorem sendNext_closed {port vc src i : Nat} {o : Out} {s : State} (hvc : vc ≠ 2)
    (hturn : (turnOrder ((s.port port).txTurn.getD vc 0)).findSome? (fun q => (sourceNext port vc q s).map (fun x => (q, x))) = some (src, i, o))
    (hgate : (s.gate port).opens.getLsbD (outClass o s) = false) (hleft : openLeft (s.gate port).running (outClass o s) s.now ≠ none) :
    (sendNext port s vc).out = s.out := by
  unfold sendNext
  simp only [hturn, if_neg hvc, mayBegin_closed hgate hleft]
  split
  · rename_i h
    exact absurd h (by simp)
  · rfl

/-! ### Compositions (R418 to R420) -/

theorem setComposition_channels (id : Nat) (channels : BitVec 8) (clear : Bool) (s : State) :
    ((setComposition id channels clear s).comp id).channels = channels := by
  unfold setComposition
  rw [State.setComp_comp_same]

/-- The members of a composition leave every other. -/
def Composition.without (channels : BitVec 8) (c : Composition) : Composition := { c with channels := c.channels &&& ~~~channels }

theorem setComposition_others {id k : Nat} (hk : k ≠ id) (channels : BitVec 8) (clear : Bool) (s : State) :
    ((setComposition id channels clear s).comp k).channels = (s.comp k).channels &&& ~~~channels := by
  have hleft : tget k (s.comps.map fun e => (e.1, e.2.without channels)) = (tget k s.comps).map (·.without channels) :=
    tget_map (fun _ => Composition.without channels) k s.comps
  have hcomp : (setComposition id channels clear s).comp k = ((tget k s.comps).map (·.without channels)).getD {} := by
    unfold setComposition
    rw [State.setComp_comp_other _ _ _ _ hk]
    exact congrArg (Option.getD · {}) hleft
  rw [hcomp, State.comp]
  cases tget k s.comps with
  | none => exact (BitVec.zero_and (x := ~~~channels)).symm
  | some c => rfl

/-- Settles O22: the gate lists' checks, boundaries and closed gates, and the compositions. -/
theorem gateListsAndCompositions : Obligations.GateListsAndCompositions := by
  refine ⟨fun d port enable count base listAddr entries fn target s hacc => ⟨fun hcheck => ?staged, fun st hcheck => ?refused⟩,
    fun port s hup hoff => ⟨fun hnone => ?unstaged, fun x hx => ⟨fun hbefore => ?before, fun hfrom => ?fromBase⟩⟩,
    fun port vc src i o s hvc hturn hgate hleft => sendNext_closed hvc hturn hgate hleft,
    fun d fn target s => ⟨fun id channels clear hacc hfree hid => ⟨?set, setComposition_channels id channels clear s,
      fun k hk => setComposition_others hk channels clear s⟩, fun id channels clear hacc hid => ?idRange, fun outAddr hacc hrange => ?read⟩⟩
  case staged => rw [exec_opApertureSet hacc, hcheck]
  case refused => rw [exec_opApertureSet hacc, hcheck]
  case unstaged =>
    have hstays := gateSwitches_unstaged hnone s.now
    obtain ⟨hrunning, -, hopens⟩ := gateStep_stays hstays
    exact ⟨by rw [exec_gateBoundary hup, gateBoundary_stays hstays], hrunning, hopens.trans (gatesNow_disabled hoff _)⟩
  case before =>
    have hstays : gateSwitches (s.gate port) s.now = false := by
      rw [gateSwitches_fromBase hoff hx, decide_eq_false (Nat.not_le.mpr hbefore)]
    obtain ⟨hrunning, hstaged, hopens⟩ := gateStep_stays hstays
    exact ⟨by rw [exec_gateBoundary hup, gateBoundary_stays hstays], hrunning, hstaged.trans hx, hopens.trans (gatesNow_disabled hoff _)⟩
  case fromBase =>
    have hswitches : gateSwitches (s.gate port) s.now = true := by rw [gateSwitches_fromBase hoff hx, decide_eq_true hfrom]
    obtain ⟨hrunning, hstaged, hopens⟩ := gateStep_switches hswitches hx
    exact ⟨by rw [exec_gateBoundary hup, gateBoundary_switches hswitches], hrunning, hstaged,
      fun hxoff => hopens.trans (gatesNow_disabled hxoff _)⟩
  case set =>
    change execOpCompositionSet d id channels clear s = _
    rw [execOpCompositionSet, accept_next hacc, if_neg (Nat.not_le.mpr hid), withEntry_next hfree]
  case idRange =>
    change execOpCompositionSet d id channels clear s = _
    rw [execOpCompositionSet, accept_next hacc, if_pos hid]
  case read =>
    change execOpCompositionRead d outAddr s = _
    rw [execOpCompositionRead, accept_next hacc, hrange]

end Sys2Proof.Machine
end

section
/-! Role switches (R407, R484, R485). The settlement of O51. -/

namespace Sys2Proof.Machine

open Sys2Proof

/-! ### What the state of registers and commits survives (R479, R480) -/

/-- The registers, their staged values and locks, and the commit engine stay. -/
structure KeepsConfig (s t : State) : Prop where
  regs : t.regs = s.regs
  staged : t.staged = s.staged
  locks : t.locks = s.locks
  cfgBusy : t.mgmt.cfgBusy = s.mgmt.cfgBusy
  heldWrites : t.mgmt.heldWrites = s.mgmt.heldWrites
  heldCommits : t.mgmt.heldCommits = s.mgmt.heldCommits
  cfgStatus : t.mgmt.cfgStatus = s.mgmt.cfgStatus
  cfgResource : t.mgmt.cfgResource = s.mgmt.cfgResource
  commits : t.mgmt.commits = s.mgmt.commits

section
variable {s t u : State}

theorem KeepsConfig.refl (s : State) : KeepsConfig s s := ⟨rfl, rfl, rfl, rfl, rfl, rfl, rfl, rfl, rfl⟩

theorem KeepsConfig.trans (h : KeepsConfig s t) (g : KeepsConfig t u) : KeepsConfig s u :=
  ⟨g.regs.trans h.regs, g.staged.trans h.staged, g.locks.trans h.locks, g.cfgBusy.trans h.cfgBusy, g.heldWrites.trans h.heldWrites,
    g.heldCommits.trans h.heldCommits, g.cfgStatus.trans h.cfgStatus, g.cfgResource.trans h.cfgResource, g.commits.trans h.commits⟩

theorem HostSide.keepsConfig (h : HostSide s t) : KeepsConfig s t := by
  rw [h]
  exact ⟨rfl, rfl, rfl, rfl, rfl, rfl, rfl, rfl, rfl⟩

theorem foldl_keepsConfig {α : Type} {f : State → α → State} (h : ∀ s a, KeepsConfig s (f s a)) (l : List α) (s : State) :
    KeepsConfig s (l.foldl f s) :=
  List.foldlRecOn l f (.refl s) fun u hu a _ => hu.trans (h u a)

end

theorem setCongested_keepsConfig (b : Bool) (s : State) : KeepsConfig s { s with mgmt := { s.mgmt with congested := b } } :=
  ⟨rfl, rfl, rfl, rfl, rfl, rfl, rfl, rfl, rfl⟩

theorem setExq_keepsConfig (q : List Nat) (n : Nat) (s : State) : KeepsConfig s { s with mgmt := { s.mgmt with exq := q, nextEx := n } } :=
  ⟨rfl, rfl, rfl, rfl, rfl, rfl, rfl, rfl, rfl⟩

theorem enterCongested_keepsConfig (s : State) : KeepsConfig s (enterCongested s) := by
  unfold enterCongested
  split
  · exact .refl s
  · exact (setCongested_keepsConfig true s).trans (raiseEvent_host _ _ _ _).keepsConfig

theorem takeEntry_keepsConfig (s : State) : KeepsConfig s (takeEntry s) := by
  unfold takeEntry
  dsimp only
  split
  · exact (setExq_keepsConfig _ _ s).trans (enterCongested_keepsConfig _)
  · exact setExq_keepsConfig _ _ s

theorem preempted_keepsConfig (holder claimant : Nat) (start : Bool) (s : State) : KeepsConfig s (preempted holder claimant start s) :=
  (raiseEvent_host _ _ _ s).keepsConfig

theorem traceEvents_keepsConfig (before s : State) : KeepsConfig s (traceEvents before s) := by
  unfold traceEvents
  extract_lets dbg raw t
  have ht : KeepsConfig s t := by
    unfold t
    split
    · exact preempted_keepsConfig _ _ _ _
    · exact .refl s
  split
  · exact ht.trans (preempted_keepsConfig _ _ _ _)
  · exact ht

theorem setEncl_keepsConfig (e : Enclave) (s : State) : KeepsConfig s { s with encl := e } := ⟨rfl, rfl, rfl, rfl, rfl, rfl, rfl, rfl, rfl⟩

theorem debugDone_keepsConfig (s : State) : KeepsConfig s (debugDone s) := by
  unfold debugDone
  split
  · exact .refl s
  · refine foldl_keepsConfig (fun u o => ?_) _ s
    split
    · refine KeepsConfig.trans ?_ ((traceEvents_keepsConfig _ _).trans (endOp_host _ _ _ _ _).keepsConfig)
      split
      · exact setEncl_keepsConfig _ u
      · exact setEncl_keepsConfig _ u
    · exact .refl u

theorem warmDone_keepsConfig (s : State) : KeepsConfig s (warmDone s) := by
  unfold warmDone
  (repeat' split) <;> exact ⟨rfl, rfl, rfl, rfl, rfl, rfl, rfl, rfl, rfl⟩

theorem resetsEnded_keepsConfig (s : State) : KeepsConfig s (resetsEnded s) := (debugDone_keepsConfig s).trans (warmDone_keepsConfig _)

/-! ### A commit and the channels (R480, R485) -/

theorem KeepsStanding.switch {s t : State} (h : KeepsStanding s t) (n : Nat) : (t.chan n).switch = (s.chan n).switch := by
  change (blankChan (t.chan n)).switch = (blankChan (s.chan n)).switch
  rw [h.blank n]

theorem modChan_keepsStanding {n : Nat} {f : Chan → Chan} {s : State} (h : blankChan (f (s.chan n)) = blankChan (s.chan n)) :
    KeepsStanding s (s.modChan n f) := setChan_keepsStanding h

theorem renewSlot1_keepsStanding (n : Nat) (s : State) : KeepsStanding s (renewSlot1 n s) := by
  have hreload : KeepsStanding s (reloadSlot1 n s) := by
    unfold reloadSlot1
    split
    · exact modChan_keepsStanding rfl
    · exact .refl s
  unfold renewSlot1
  dsimp only
  split
  · exact .refl s
  · exact hreload.trans (modChan_keepsStanding rfl)

theorem newBuddy_keepsStanding (n : Nat) (before s : State) : KeepsStanding s (newBuddy n before s) := by
  unfold newBuddy
  dsimp only
  split
  · exact .refl s
  · split
    · exact KeepsStanding.trans (modChan_keepsStanding rfl) (renewSlot1_keepsStanding n _)
    · exact modChan_keepsStanding rfl

theorem addLock_chans (k : Nat) (s : State) : (addLock k s).chans = s.chans := by
  unfold addLock
  split <;> rfl

theorem addLock_now (k : Nat) (s : State) : (addLock k s).now = s.now := by
  unfold addLock
  split <;> rfl

theorem lockScope_keepsStanding (r : Requester) (scope : Nat) (role : Bool) (s : State) : KeepsStanding s (lockScope r scope role s) := by
  unfold lockScope
  refine .of_eq ?_ ?_ <;> dsimp only <;> (repeat' split) <;> simp [addLock_now, addLock_chans]

theorem applied_keepsStanding (r : Requester) (scope : Nat) (role : Bool) (s : State) : KeepsStanding s (applied r scope role s) := .of_eq rfl rfl

theorem commitNow_passed {r : Requester} {scope : Nat} {role : Option Role} {s : State} (h : commitCheck r scope role s = none) :
    commitNow r scope role s = (.ok, 0, committed scope s (lockScope r scope role.isSome (applied r scope role.isSome s))) := by
  simp [commitNow, h]

theorem commitNow_failed {r : Requester} {scope k : Nat} {role : Option Role} {st : Status} {s : State}
    (h : commitCheck r scope role s = some (st, k)) : commitNow r scope role s = (st, k, s) := by
  simp [commitNow, h]

/-- What the commit of a channel's scope applies leaves the channels standing. -/
theorem committed_keepsStanding (r : Requester) (n : Nat) (role : Bool) (s : State) :
    KeepsStanding s (committed (n + 1) s (lockScope r (n + 1) role (applied r (n + 1) role s))) := by
  unfold committed
  rw [if_neg (Nat.succ_ne_zero n)]
  exact ((applied_keepsStanding r _ role s).trans (lockScope_keepsStanding r _ role _)).trans (newBuddy_keepsStanding _ s _)

theorem commitCheck_ne_ok {r : Requester} {scope k : Nat} {role : Option Role} {st : Status} {s : State}
    (h : commitCheck r scope role s = some (st, k)) : st ≠ .ok := by
  rintro rfl
  unfold commitCheck at h
  dsimp only at h
  (repeat' split at h) <;> simp at h

/-! ### A role is taken (R485) -/

theorem wmDefault_chans (key lo w d : Nat) (s : State) : (wmDefault key lo w d s).chans = s.chans := by
  unfold wmDefault
  dsimp only
  split <;> rfl

theorem wmDefaults_chans (n : Nat) (role : Role) (s : State) : (wmDefaults n role s).chans = s.chans := by
  unfold wmDefaults
  simp only [wmDefault_chans]

theorem wmDefault_regs (key lo w d : Nat) (s : State) : (wmDefault key lo w d s).regs = s.regs := by
  unfold wmDefault
  dsimp only
  split <;> rfl

theorem wmDefaults_regs (n : Nat) (role : Role) (s : State) : (wmDefaults n role s).regs = s.regs := by
  unfold wmDefaults
  simp only [wmDefault_regs]

theorem loadStorage_switch (n : Nat) (s : State) : ((loadStorage n s).chan n).switch = (s.chan n).switch := by
  unfold loadStorage
  dsimp only
  rw [State.modChan_chan_same]
  unfold drbgDraw
  dsimp only
  split <;> rfl

theorem takeRole_chan_same (n : Nat) (role : Role) (s : State) :
    ((takeRole n role s).chan n).state = .active ∧ ((takeRole n role s).chan n).role = role ∧
      ((takeRole n role s).chan n).switch = (s.chan n).switch := by
  unfold takeRole
  dsimp only
  rw [State.modChan_chan_same]
  refine ⟨rfl, rfl, ?_⟩
  dsimp only
  split
  · rw [State.modChan_chan_same]
    rfl
  · rw [loadStorage_switch, State.modChan_chan_same]
    rfl

/-- A channel with its switch over, at item 4 of R485. -/
def switchOver (n : Nat) (s : State) : State := s.modChan n (fun c => { c with switch := none })

section
variable {n : Nat} {sw : RoleSwitch} {s : State}

theorem assignRole_none (h : sw.role = .none) : HostSide (switchOver n s) (assignRole n sw s) := by
  unfold assignRole
  dsimp only
  rw [if_pos h]
  exact endOps_host _ _ _

theorem assignRole_congested (h : sw.role ≠ .none) (hcong : s.mgmt.congested = true) :
    HostSide (noteCommit .mgmtBusy 0 (switchOver n s)) (assignRole n sw s) := by
  unfold assignRole
  dsimp only
  rw [if_neg h, if_pos (by exact hcong)]
  exact endOps_host _ _ _

theorem assignRole_failed {st : Status} {k : Nat} (h : sw.role ≠ .none) (hcong : s.mgmt.congested = false)
    (hcheck : commitCheck (.fn 0) (n + 1) (some sw.role) (wmDefaults n sw.role (switchOver n s)) = some (st, k)) :
    HostSide (noteCommit st k (switchOver n s)) (assignRole n sw s) := by
  unfold assignRole
  dsimp only
  rw [if_neg h, if_neg (by simp [hcong])]
  generalize hcommit : commitNow (.fn 0) (n + 1) (some sw.role) _ = r
  have hr := hcommit.symm.trans (commitNow_failed hcheck)
  subst hr
  rw [if_neg (commitCheck_ne_ok hcheck)]
  dsimp only
  exact endOps_host _ _ _

theorem assignRole_passed (h : sw.role ≠ .none) (hcong : s.mgmt.congested = false)
    (hcheck : commitCheck (.fn 0) (n + 1) (some sw.role) (wmDefaults n sw.role (switchOver n s)) = none) :
    ((assignRole n sw s).chan n).state = .active ∧ ((assignRole n sw s).chan n).role = sw.role ∧ ((assignRole n sw s).chan n).switch = none := by
  unfold assignRole
  dsimp only
  rw [if_neg h, if_neg (by simp [hcong])]
  generalize hcommit : commitNow (.fn 0) (n + 1) (some sw.role) _ = r
  have hr := hcommit.symm.trans (commitNow_passed hcheck)
  subst hr
  rw [if_pos rfl, (endOps_host _ _ _).chan]
  obtain ⟨hstate, hrole, hswitch⟩ := takeRole_chan_same n sw.role (noteCommit .ok 0 (committed (n + 1) _ _))
  have hkeeps := committed_keepsStanding (.fn 0) n true (wmDefaults n sw.role (switchOver n s))
  refine ⟨hstate, hrole, hswitch.trans ((hkeeps.switch n).trans ?_)⟩
  rw [State.chan, wmDefaults_chans]
  exact congrArg Chan.switch (State.modChan_chan_same _ _ _)

end

/-! ### A switch begins (R484, R485) -/

theorem exec_opRoleSet {d : Hdr} {n role tmo fn target : Nat} {s : State} (hacc : Accepts 0x70 d fn target s) :
    exec (.opRoleSet d n role tmo) s = .next (roleSet d n role tmo fn s) := by
  change execOpRoleSet d n role tmo s = _
  rw [execOpRoleSet, accept_next hacc]

theorem roleSet_waits {d : Hdr} {n role tmo fn : Nat} {s : State} (hn : n < 8)
    (h : (s.chan n).resetting = true ∨ (s.chan n).switch.isSome = true) : roleSet d n role tmo fn s = s := by
  unfold roleSet
  rw [if_pos ⟨hn, h⟩]

section
variable {d : Hdr} {n role tmo fn : Nat} {s : State} (hidle : n < 8 → (s.chan n).resetting = false ∧ (s.chan n).switch = none)
include hidle

theorem roleSet_refused {st : Status} (h : roleCheck n role s = some st) : roleSet d n role tmo fn s = complete d 0x70 st [] [] s := by
  unfold roleSet
  rw [if_neg (fun hb => by obtain ⟨hreset, hswitch⟩ := hidle hb.1; simpa [hreset, hswitch] using hb.2), h]

theorem roleSet_checked {r : Role} (h : roleCheck n role s = none) (hr : roleOfCode role = some r) :
    roleSet d n role tmo fn s =
      if (s.chan n).state = .active ∧ (s.chan n).role = r then complete d 0x70 .ok [] [] s else withEntry 0x70 d (beginSwitch d n r tmo fn) s := by
  unfold roleSet
  rw [if_neg (fun hb => by obtain ⟨hreset, hswitch⟩ := hidle hb.1; simpa [hreset, hswitch] using hb.2), h, hr]
  rfl

end

theorem drainNext_undrained {n : Nat} {s : State} (h : drained n s = false) : drainNext n s = s := by
  unfold drainNext
  split
  · rw [h, Bool.and_false, if_neg Bool.false_ne_true]
  · rfl

theorem drained_running {n : Nat} {s : State} (h : (s.chan n).runs ≠ []) : drained n s = false := by
  have hruns : (s.chan n).runs.isEmpty = false := by simpa using h
  simp [drained, hruns]

/-- An ACTIVE channel that takes up a switch drains. -/
def Chan.switching (sw : RoleSwitch) (c : Chan) : Chan :=
  { c with switch := some sw, state := if c.state = .active then .draining else c.state }

/-- The switch of a channel that runs work begins: it drains, and nothing else does. -/
theorem beginSwitch_running {d : Hdr} {n tmo fn : Nat} {r : Role} {s : State} (h : (s.chan n).runs ≠ []) :
    HostSide ((addOp 0x70 d fn 8 [] true (.roleSet n) s).modChan n (Chan.switching ⟨d, r, tmo, false⟩)) (beginSwitch d n r tmo fn s) := by
  unfold beginSwitch
  dsimp only
  generalize hended : endOps (fun o => match o.kind with | .stepWait c _ => c == n | _ => false) _ _ = u
  have hhost : HostSide ((addOp 0x70 d fn 8 [] true (.roleSet n) s).modChan n (Chan.switching ⟨d, r, tmo, false⟩)) u := hended ▸ endOps_host _ _ _
  have hrunning : (u.chan n).runs ≠ [] := by
    rw [hhost.chan, State.modChan_chan_same]
    exact h
  rw [drainNext_undrained (drained_running hrunning)]
  exact hhost

theorem roleCheck_range {n role : Nat} {s : State} (h : roleOfCode role = none ∨ 8 ≤ n) : roleCheck n role s = some .paramInvalid := by
  unfold roleCheck
  cases hcode : roleOfCode role with
  | none => rfl
  | some r => simp [h.resolve_left (by simp [hcode])]

theorem roleCheck_reached {n role : Nat} {r : Role} {s : State} (hn : n < 8) (hcode : roleOfCode role = some r)
    (hlife : s.encl.fuses.lifecycle ≠ 3) (hcong : s.mgmt.congested = false) :
    roleCheck n role s = if (s.chan n).state = .failed then some .channelOffline
      else if (s.chan n).role = .pool ∧ (s.chan n).pool.extents.any (fun e => e.2.state != 0) then some .extentState else none := by
  simp [roleCheck, hcode, Nat.not_le.mpr hn, hlife, hcong]

/-! ### The drain ends (R485) -/

theorem exec_drainTmoExpiry {n : Nat} {s : State} (hup : s.up = true) :
    exec (.drainTmoExpiry n) s = .next (match (s.chan n).switch with
      | some sw => if sw.drainTmo ≠ 0 ∧ !sw.zeroing then beginZero n s else s
      | none => s) := by
  change execDrainTmoExpiry n s = _
  rw [execDrainTmoExpiry, whenUp_next hup] <;> rfl

theorem beginZero_chan_same (n : Nat) (s : State) : (beginZero n s).chan n =
    blankChan { s.chan n with switch := (s.chan n).switch.map (fun w => { w with zeroing := true }) } := by
  unfold beginZero
  dsimp only
  rw [wipeChan_chan_same n (by decide), State.modChan_chan_same]

section
variable {n : Nat} {sw : RoleSwitch} {s : State} (hsw : (s.chan n).switch = some sw) (hzero : sw.zeroing = true)
include hsw hzero

theorem channelResetDone_zeroed : channelResetDone n true s = assignRole n sw (enterUnassigned n s) := by
  simp [channelResetDone, hsw, hzero]

theorem channelResetDone_zeroFailed : HostSide (selfTestFailed n s) (channelResetDone n false s) := by
  have h : channelResetDone n false s = endOps (fun o => o.kind == .roleSet n) .channelFailed (selfTestFailed n s) := by
    simp [channelResetDone, hsw, hzero]
  exact h ▸ endOps_host _ _ _

end

/-- A channel that entered UNASSIGNED, with its switch over. -/
theorem switchOver_enterUnassigned (n : Nat) (s : State) : (switchOver n (enterUnassigned n s)).chan n =
    { s.chan n with state := .unassigned, role := .none, cause := 0, failedOnce := false, resetting := false, switch := none } := by
  rw [switchOver, State.modChan_chan_same, enterUnassigned_chan_same]

/-- Settles O51: the descriptor by its checks, the drain by its limit, and the end of the zeroing by the self-test and the commit. -/
theorem rolesAreSwitched : Obligations.RolesAreSwitched := by
  refine fun d n role tmo s => ⟨fun fn target hacc => ⟨fun hn hbusy => ?waits, fun hidle => ⟨fun st hst => ?refused, fun r hcheck hcode =>
    ⟨fun hactive hrole => ?held, fun hother hfree => ⟨?begins, fun hactive hruns => ?drains⟩⟩⟩⟩, roleCheck_range,
    fun r hn hcode hlife hcong => ⟨fun hfailed => ?offline, fun hlive hpool hext => ?extents⟩,
    fun hn hup => ⟨fun hnone => ?noSwitch, fun sw hsw => ⟨fun hkeeps => ?keeps, fun htmo hrun => ?zeroes, fun hzero => ?zeroed⟩⟩⟩
  case waits => rw [exec_opRoleSet hacc, roleSet_waits hn hbusy]
  case refused => rw [exec_opRoleSet hacc, roleSet_refused hidle hst]
  case held => rw [exec_opRoleSet hacc, roleSet_checked hidle hcheck hcode, if_pos ⟨hactive, hrole⟩]
  case begins => rw [exec_opRoleSet hacc, roleSet_checked hidle hcheck hcode, if_neg (by tauto), withEntry_next hfree]
  case drains =>
    have hhost := beginSwitch_running (d := d) (n := n) (tmo := tmo) (fn := fn) (r := r) (s := takeEntry s) (by rw [takeEntry_chan]; exact hruns)
    have hchan : (beginSwitch d n r tmo fn (takeEntry s)).chan n = Chan.switching ⟨d, r, tmo, false⟩ (s.chan n) := by
      rw [hhost.chan, State.modChan_chan_same]
      exact congrArg _ (takeEntry_chan n s)
    refine ⟨?_, ?_, ?_, ?_, fun k hk => ?_, hhost.regs.trans (takeEntry_keepsConfig s).regs⟩
    · rw [hchan, Chan.switching, hactive, if_pos rfl]
    · rw [hchan, Chan.switching]
    · rw [hchan, Chan.switching]
    · rw [hchan, Chan.switching]
    · rw [hhost.chan, State.modChan_chan_other _ _ _ _ hk]
      exact takeEntry_chan k s
  case offline => rw [roleCheck_reached hn hcode hlife hcong, if_pos hfailed]
  case extents =>
    have hany : (s.chan n).pool.extents.any (fun e => e.2.state != 0) = true := by simpa using hext
    rw [roleCheck_reached hn hcode hlife hcong, if_neg hlive, if_pos ⟨hpool, hany⟩]
  case noSwitch => rw [exec_drainTmoExpiry hup, hnone]
  case keeps =>
    rw [exec_drainTmoExpiry hup, hsw]
    exact congrArg _ (if_neg (by rintro ⟨h1, h2⟩; rcases hkeeps with h | h <;> simp_all))
  case zeroes =>
    refine ⟨?_, ?_⟩
    · rw [exec_drainTmoExpiry hup, hsw]
      exact congrArg _ (if_pos ⟨htmo, by simp [hrun]⟩)
    · dsimp only
      rw [beginZero_chan_same, hsw]
      exact ⟨rfl, rfl, rfl, rfl, rfl⟩
  case zeroed =>
    have hdone := channelResetDone_zeroed hsw hzero
    have hover := switchOver_enterUnassigned n s
    refine ⟨⟨_, exec_channelResetDone hup, ?_⟩, fun hrole => ⟨_, exec_channelResetDone hup, ?_⟩, fun hrole hcong => ⟨_, exec_channelResetDone hup, ?_⟩,
      fun hrole hcong => ⟨fun hcheck => ⟨_, exec_channelResetDone hup, ?_⟩, fun st k hcheck => ⟨_, exec_channelResetDone hup, ?_⟩⟩⟩
    · obtain ⟨cause, hfailed⟩ := selfTestFailed_chan_same n s
      rw [resetsEnded_chan, (channelResetDone_zeroFailed hsw hzero).chan, hfailed]
      exact ⟨rfl, rfl⟩
    · rw [resetsEnded_chan, hdone, (assignRole_none hrole).chan, hover]
      exact ⟨rfl, rfl, rfl⟩
    · have hhost := assignRole_congested (n := n) (s := enterUnassigned n s) hrole hcong
      have hchan : (noteCommit .mgmtBusy 0 (switchOver n (enterUnassigned n s))).chan n = (switchOver n (enterUnassigned n s)).chan n := rfl
      rw [resetsEnded_chan, (resetsEnded_keepsConfig _).cfgStatus, hdone, hhost.chan, hchan, hover, hhost.keepsConfig.cfgStatus]
      exact ⟨rfl, rfl, rfl, rfl⟩
    · rw [resetsEnded_chan, hdone]
      exact assignRole_passed hrole hcong hcheck
    · have hhost := assignRole_failed (n := n) (s := enterUnassigned n s) hrole hcong hcheck
      have hchan : (noteCommit st k (switchOver n (enterUnassigned n s))).chan n = (switchOver n (enterUnassigned n s)).chan n := rfl
      rw [resetsEnded_chan, (resetsEnded_keepsConfig _).cfgStatus, (resetsEnded_keepsConfig _).regs, hdone, hhost.chan, hchan, hover,
        hhost.keepsConfig.cfgStatus, hhost.regs, wmDefaults_regs]
      exact ⟨rfl, rfl, rfl, rfl, rfl⟩

end Sys2Proof.Machine
end

section
/-! The device count, the monitors and the commits (R479, R480, R494 to R496, R535, R537). The settlement of O58, O53 and O52. -/

namespace Sys2Proof.Machine

open Sys2Proof

/-! ### The device count in TABLE mode (R537) -/

/-- PRT_FABRIC_DEVICES is F0's and F1's, and takes effect at once (R538). -/
theorem mayWrite_devices {r : Requester} {size : Nat} (hr : r = .fn 0 ∨ r = .fn 1) (hsize : size = 4 ∨ size = 8) (s : State) :
    MayWrite r 0x010 size ⟨.rw, .f0f1, [⟨0, 7, 1, 64, 1⟩]⟩ s := by
  refine ⟨⟨by decide, hsize, ?_⟩, by decide, by decide, ?_⟩
  · obtain rfl | rfl := hsize <;> rfl
  · obtain rfl | rfl := hr <;> rfl

/-- The low 32 bits are written by an access of either size. -/
theorem mergeWrite_low {size : Nat} (hsize : size = 4 ∨ size = 8) (old v : Nat) : mergeWrite old 0x010 size v % 128 = v % 128 := by
  obtain rfl | rfl := hsize
  · have hmerge : mergeWrite old 0x010 4 v = old / 4294967296 * 4294967296 + v % 4294967296 := rfl
    omega
  · rw [mergeWrite_eight]

theorem devicesBad_table {n w : Nat} {s : State} (hn : n < 8) (hactive : (s.chan n).state = .active) (hrole : (s.chan n).role = .attn)
    (htable : fixedMode n s = false) (hw : 16 < w % 128) : devicesBad 0x010 w s = true := by
  have hany : (List.range 8).any (fun n => (s.chan n).state == .active && (s.chan n).role == .attn && !fixedMode n s) = true :=
    List.any_eq_true.mpr ⟨n, List.mem_range.mpr hn, by simp [hactive, hrole, htable]⟩
  simp [devicesBad, hany, fieldOf, hw]

/-- Settles O58: the write is one of a setting whose value R537 excludes. -/
theorem tableModeHoldsTheDeviceCount : Obligations.TableModeHoldsTheDeviceCount := by
  refine fun r n size value s hup hr hsize hn hactive hrole htable hv =>
    ⟨exec_regWrite_rw_bad hup (mayWrite_devices hr hsize s) rfl (.inr (devicesBad_table hn hactive hrole htable ?_)), by simp, by simp⟩
  have hlow := mergeWrite_low hsize (eff 0x010 s) value.toNat
  simp [written, rowMask, fieldOf, hlow, hv]

/-! ### Monitors (R494 to R496) -/

theorem exec_spectrumSample {n : Nat} {v : Int} {s : State} (hup : s.up = true) :
    exec (.spectrumSample n v) s = .next (countSample n (sampleOf n v s) s) := by
  change execSpectrumSample n v s = _
  rw [execSpectrumSample, whenUp_next hup, spectrumSample]

theorem countSample_none {n : Nat} {v : Int} {s : State} (h : monProbe n s = 0 ∨ 128 ≤ n) : countSample n v s = s := if_pos h

/-- The trace buffer with one more sample, where the monitor captures (R483, R495). -/
def captured (n : Nat) (v : Int) (s : State) : State :=
  if monRaw n s && !monSuspended n s then { s with mgmt := { s.mgmt with trace := ((s.now, v) :: s.mgmt.trace).take 1048576 } } else s

theorem countSample_taken {n : Nat} {v : Int} {s : State} (hprobe : monProbe n s ≠ 0) (hn : n < 128) :
    countSample n v s = (captured n v s).setMonitor n (addSample (monCtl n s) v (s.monitor n)) := by
  unfold countSample captured
  rw [if_neg (by omega)]
  dsimp only
  split <;> rfl

theorem captured_other (n : Nat) (v : Int) (s : State) :
    captured n v s = { s with mgmt := (captured n v s).mgmt } := by
  unfold captured
  split <;> rfl

theorem captured_quiet {n : Nat} {v : Int} {s : State} (h : monRaw n s = false ∨ monSuspended n s = true) : captured n v s = s := by
  unfold captured
  obtain h | h := h <;> simp [h]

theorem captured_trace {n : Nat} {v : Int} {s : State} (hraw : monRaw n s = true) (hsusp : monSuspended n s = false) :
    (captured n v s).mgmt.trace = ((s.now, v) :: s.mgmt.trace).take 1048576 := by
  simp [captured, hraw, hsusp]

/-- The monitors that a mask names. -/
def maskedMonitors (mask : BitVec 128) : List Nat := (List.range 128).filter (fun n => mask.getLsbD n)

theorem maskedMonitors_eq_nil {mask : BitVec 128} : maskedMonitors mask = [] ↔ mask = 0 := by
  refine ⟨fun h => BitVec.eq_of_getLsbD_eq fun n hn => ?_, fun h => ?_⟩
  · simpa using List.filter_eq_nil_iff.mp h n (List.mem_range.mpr hn)
  · subst h
    exact List.filter_eq_nil_iff.mpr fun n _ => by simp

theorem monitorRecord_length (n : Nat) (s : State) : (monitorRecord n s).length = 40 := by simp [monitorRecord]

theorem monitorRecords_length (ms : List Nat) (s : State) : (ms.flatMap (fun n => monitorRecord n s)).length = 40 * ms.length := by
  induction ms with
  | nil => rfl
  | cons n ms ih =>
    rw [List.flatMap_cons, List.length_append, ih, monitorRecord_length, List.length_cons]
    omega

section
variable {d : Hdr} {mask : BitVec 128} {oa fn target : Nat} {s : State} (hacc : Accepts 0x71 d fn target s)
include hacc

theorem exec_opSpectrumSnapshot (clear : Bool) :
    exec (.opSpectrumSnapshot d mask oa clear) s = .next (spectrumSnapshot d mask oa clear fn s) := by
  change execOpSpectrumSnapshot d mask oa clear s = _
  rw [execOpSpectrumSnapshot, accept_next hacc]

end

theorem spectrumSnapshot_empty {d : Hdr} {oa fn : Nat} {s : State} (clear : Bool) :
    spectrumSnapshot d 0 oa clear fn s = complete d 0x71 .lenZero [] [] s := by
  unfold spectrumSnapshot
  exact if_pos (by simp)

theorem spectrumSnapshot_masked {d : Hdr} {mask : BitVec 128} {oa fn : Nat} {s : State} (hmask : mask ≠ 0) (clear : Bool) :
    spectrumSnapshot d mask oa clear fn s =
      match rangeCheck fn oa (320 * (maskedMonitors mask).length) s with
      | some st => complete d 0x71 st [] [] s
      | none => addOp 0x71 d fn 8 [(oa, 320 * (maskedMonitors mask).length)] true
          (.ready .ok [] [(oa, .words ((maskedMonitors mask).flatMap (fun n => monitorRecord n s)))])
          (if clear then { s with monitors := s.monitors.filter (fun e => !mask.getLsbD e.1) } else s) := by
  have hsome : ¬(maskedMonitors mask).isEmpty = true := by
    rw [List.isEmpty_iff, maskedMonitors_eq_nil]
    exact hmask
  unfold spectrumSnapshot
  exact (if_neg hsome).trans rfl

/-- A probe that State holds nothing of is sampled by the command. -/
theorem sampleOf_brought {n : Nat} {v : Int} {s : State} (h : monProbe n s < 3 ∨ monProbe n s = 8 ∨ 9 < monProbe n s) : sampleOf n v s = v := by
  unfold sampleOf
  dsimp only
  split
  case h_7 => rfl
  all_goals omega

/-- Settles O53: a sample by the monitor's probe, and a snapshot by its checks. -/
theorem monitorsSampleAndReport : Obligations.MonitorsSampleAndReport := by
  refine fun s hup => ⟨fun n v hnone => ?none, fun n v hprobe hn => ?taken, fun n v => ?sources, fun d mask oa fn target hacc =>
    ⟨fun clear hmask => ?noMask, fun clear st hmask hrange => ?range, fun hmask hrange => ⟨?kept, ?cleared, monitorRecords_length _ s⟩⟩⟩
  case none => rw [exec_spectrumSample hup, countSample_none hnone]
  case taken =>
    refine ⟨_, exec_spectrumSample hup, ?_⟩
    dsimp only
    generalize sampleOf n v s = w
    rw [countSample_taken hprobe hn, State.setMonitor_monitor_same]
    have hother := captured_other n w s
    refine ⟨Nat.min_comm _ _, rfl, rfl, fun h => ⟨if_pos h, if_pos h⟩, fun h => ⟨if_neg h, if_neg h⟩, ?_, fun k hk => ?_, fun hquiet => ?_,
      fun hraw hsusp => captured_trace hraw hsusp, ?_, ?_⟩
    · exact (tget_tset_same _ _ _).trans (congrArg some (Nat.min_comm _ _))
    · rw [State.setMonitor_monitor_other _ _ _ _ hk, hother]
      rfl
    · rw [captured_quiet hquiet]
      rfl
    · rw [hother]
      rfl
    · rw [hother]
      rfl
  case sources =>
    refine ⟨fun h => ?_, fun h => ?_, fun h => ?_, fun h => sampleOf_brought (by omega)⟩
    · rw [sampleOf, h]
      rfl
    · rw [sampleOf, h]
      rfl
    · rw [sampleOf, h]
      rfl
  case noMask =>
    subst hmask
    rw [exec_opSpectrumSnapshot hacc, spectrumSnapshot_empty]
  case range => rw [exec_opSpectrumSnapshot hacc, spectrumSnapshot_masked hmask, maskedMonitors, hrange]
  case kept => rw [exec_opSpectrumSnapshot hacc, spectrumSnapshot_masked hmask, maskedMonitors, hrange]; rfl
  case cleared => rw [exec_opSpectrumSnapshot hacc, spectrumSnapshot_masked hmask, maskedMonitors, hrange]; rfl

/-! ### The commands of a commit (R479, R480) -/

theorem exec_cfgAction {i : Instr} {r : Requester} {scope : Nat} {f : State → State} {s : State} (hi : exec i s = cfgAction r scope f s)
    (hup : s.up = true) :
    exec i s = .next (if r = .fn 0 ∨ r = .fn 1 then answerReg r .ok .empty (if scope ≤ 8 then f s else s) else denyReg r s) := by
  rw [hi, cfgAction, whenUp_next hup]

/-- The three actions on PRT_CFG_COMMIT, each with what it does in a scope that exists. -/
theorem exec_cfgActions (r : Requester) (scope : Nat) (s : State) :
    exec (.cfgCommit r scope) s = cfgAction r scope (requestCommit r scope) s ∧
      exec (.cfgUnlock r scope) s = cfgAction r scope (unlockScope r scope) s ∧
      exec (.cfgDiscard r scope) s = cfgAction r scope (discardScope r scope) s := ⟨rfl, rfl, rfl⟩

section
variable {r : Requester} {scope : Nat} {f : State → State} {s : State}

theorem cfgAction_denied (hup : s.up = true) (h0 : r ≠ .fn 0) (h1 : r ≠ .fn 1) : cfgAction r scope f s = .next (denyReg r s) := by
  rw [cfgAction, whenUp_next hup, if_neg (by tauto)]

theorem cfgAction_noScope (hup : s.up = true) (hr : r = .fn 0 ∨ r = .fn 1) (h : 8 < scope) :
    cfgAction r scope f s = .next (answerReg r .ok .empty s) := by
  rw [cfgAction, whenUp_next hup, if_pos hr, if_neg (Nat.not_le.mpr h)]

theorem cfgAction_scope (hup : s.up = true) (hr : r = .fn 0 ∨ r = .fn 1) (h : scope ≤ 8) :
    cfgAction r scope f s = .next (answerReg r .ok .empty (f s)) := by
  rw [cfgAction, whenUp_next hup, if_pos hr, if_pos h]

theorem answerReg_keepsConfig (st : Status) (p : Payload) (s : State) : KeepsConfig s (answerReg r st p s) :=
  (answerReg_host r st p s).keepsConfig

theorem unlockScope_locks (r : Requester) (scope k : Nat) (s : State) :
    k ∈ (unlockScope r scope s).locks ↔ k ∈ s.locks ∧ k ≠ scope + 16 ∧ (k = scope → r = .fn 1) := by
  simp [unlockScope]
  tauto

theorem discardScope_staged (r : Requester) (scope k v : Nat) (s : State) :
    (k, v) ∈ (discardScope r scope s).staged ↔ (k, v) ∈ s.staged ∧ commits r scope true k = false := by
  simp [discardScope]

/-! ### Staged values take effect (R480) -/

theorem setPorts_keepsConfig (p : Tbl Port) (s : State) : KeepsConfig s { s with ports := p } := ⟨rfl, rfl, rfl, rfl, rfl, rfl, rfl, rfl, rfl⟩

theorem setMonitors_keepsConfig (m : Tbl Monitor) (s : State) : KeepsConfig s { s with monitors := m } :=
  ⟨rfl, rfl, rfl, rfl, rfl, rfl, rfl, rfl, rfl⟩

theorem clearMonitors_keepsConfig (before s : State) : KeepsConfig s (clearMonitors before s) := setMonitors_keepsConfig _ s

theorem modChan_keepsConfig (n : Nat) (f : Chan → Chan) (s : State) : KeepsConfig s (s.modChan n f) :=
  ⟨rfl, rfl, rfl, rfl, rfl, rfl, rfl, rfl, rfl⟩

theorem renewSlot1_keepsConfig (n : Nat) (s : State) : KeepsConfig s (renewSlot1 n s) := by
  have hreload : KeepsConfig s (reloadSlot1 n s) := by
    unfold reloadSlot1
    split
    · exact modChan_keepsConfig _ _ s
    · exact .refl s
  unfold renewSlot1
  dsimp only
  split
  · exact .refl s
  · exact hreload.trans (modChan_keepsConfig _ _ _)

theorem newBuddy_keepsConfig (n : Nat) (before s : State) : KeepsConfig s (newBuddy n before s) := by
  unfold newBuddy
  dsimp only
  split
  · exact .refl s
  · split
    · exact (modChan_keepsConfig _ _ _).trans (renewSlot1_keepsConfig n _)
    · exact modChan_keepsConfig _ _ _

/-- Of several values for one key the last stays. -/
theorem tget_foldl_tset (k : Nat) (l : List (Nat × Nat)) (t : Tbl Nat) :
    tget k (l.foldl (fun t e => tset e.1 e.2 t) t) = (((l.filter (fun e => e.1 == k)).getLast?.map (·.2)) <|> tget k t) := by
  induction l generalizing t with
  | nil => rfl
  | cons e l ih =>
    rw [List.foldl_cons, ih, List.filter_cons]
    by_cases he : e.1 = k
    · subst he
      rw [if_pos (beq_self_eq_true _), tget_tset_same, List.getLast?_cons]
      cases (l.filter fun x => x.1 == e.1).getLast? <;> rfl
    · rw [if_neg (by simpa using he), tget_tset_other _ _ _ _ (Ne.symm he)]

theorem applied_staged (r : Requester) (scope k v : Nat) (s : State) :
    (k, v) ∈ (applied r scope false s).staged ↔ (k, v) ∈ s.staged ∧ commits r scope false k = false := by
  simp [applied]

theorem applied_regs_kept {k : Nat} (h : ∀ e ∈ s.staged, e.1 = k → commits r scope false k = false) :
    tget k (applied r scope false s).regs = tget k s.regs := by
  have hnone : (s.staged.filter (fun e => commits r scope false e.1)).filter (fun e => e.1 == k) = [] := by
    refine List.filter_eq_nil_iff.mpr fun e he => ?_
    obtain ⟨hmem, hcommits⟩ := List.mem_filter.mp he
    rintro hk
    have hk' : e.1 = k := by simpa using hk
    rw [hk', h e hmem hk'] at hcommits
    cases hcommits
  unfold applied
  dsimp only
  rw [tget_foldl_tset, hnone]
  rfl

theorem applied_regs_set {k v : Nat} (h : commits r scope false k = true) (hone : s.staged.filter (fun e => e.1 == k) = [(k, v)]) :
    tget k (applied r scope false s).regs = some v := by
  have hlast : (s.staged.filter (fun e => commits r scope false e.1)).filter (fun e => e.1 == k) = [(k, v)] := by
    rw [List.filter_comm, hone]
    simp [h]
  unfold applied
  dsimp only
  rw [tget_foldl_tset, hlast]
  rfl

theorem mem_addLock {j k : Nat} : j ∈ (addLock k s).locks ↔ j = k ∨ j ∈ s.locks := by
  unfold addLock
  split
  · rename_i hk
    have hk' : k ∈ s.locks := by simpa using hk
    constructor
    · exact .inr
    · rintro (rfl | h)
      · exact hk'
      · exact h
  · exact List.mem_cons

theorem mem_lockScope {j : Nat} : j ∈ (lockScope r scope false s).locks ↔ j = scope + 16 ∨ (r ≠ .fn 1 ∧ j = scope) ∨ j ∈ s.locks := by
  unfold lockScope
  by_cases hr : r = .fn 1
  · simp [hr, mem_addLock]
  · simp [hr, mem_addLock]
    tauto

theorem addLock_other (k : Nat) (s : State) : addLock k s = { s with locks := (addLock k s).locks } := by
  unfold addLock
  split <;> rfl

theorem lockScope_other (r : Requester) (scope : Nat) (s : State) :
    lockScope r scope false s = { s with locks := (lockScope r scope false s).locks } := by
  unfold lockScope
  dsimp only
  rw [if_neg Bool.false_ne_true]
  split
  · exact addLock_other _ s
  · rw [addLock_other scope, addLock_other (scope + 16)]

theorem committed_keepsConfig (scope : Nat) (before s : State) : KeepsConfig s (committed scope before s) := by
  unfold committed
  split
  case isFalse => exact newBuddy_keepsConfig _ before s
  case isTrue =>
    extract_lets ported e keyed
    have hported : KeepsConfig s ported := by
      unfold ported
      split
      · exact .refl s
      · exact setPorts_keepsConfig _ s
    have hkeyed : KeepsConfig ported keyed := by
      unfold keyed
      split
      · exact .refl ported
      · exact setEncl_keepsConfig _ ported
    exact ((hported.trans hkeyed).trans (clearMonitors_keepsConfig before keyed)).trans (traceEvents_keepsConfig _ _)

/-! ### A commit starts and ends (R480, R535) -/

theorem requestCommit_busy {run : CfgRun} (h : s.mgmt.cfgBusy = some run) :
    requestCommit r scope s = { s with mgmt := { s.mgmt with heldCommits := s.mgmt.heldCommits ++ [(r, scope)] } } := by
  rw [requestCommit, h]
  exact if_pos rfl

section
variable (hidle : s.mgmt.cfgBusy = none)
include hidle

theorem requestCommit_refused (h : s.mgmt.congested = true ∨ s.encl.state = .noFirmware) : requestCommit r scope s = cfgEnded .mgmtBusy 0 s := by
  rw [requestCommit, hidle, startCommit, if_pos h]
  exact if_neg (by simp)

/-- A commit that starts: busy with the outcome of its checks. -/
theorem requestCommit_starts (hcong : s.mgmt.congested = false) (hfirm : s.encl.state ≠ .noFirmware) {x : Status × Nat × State}
    (hx : (if idleScope scope s then (Status.ok, 0, takeEntry s) else commitNow r scope none (takeEntry s)) = x) :
    requestCommit r scope s = { x.2.2 with mgmt := { x.2.2.mgmt with cfgBusy := some ⟨scope, s.mgmt.nextEx, x.1, x.2.1⟩ } } := by
  have hscope : idleScope scope (takeEntry s) = idleScope scope s := by rw [idleScope, takeEntry_chan, idleScope]
  rw [requestCommit, hidle, if_neg (by simp), startCommit, if_neg (by simp [hcong, hfirm])]
  dsimp only
  rw [hscope, hx]

end

/-- What a commit leaves of registers and locks while it is busy. -/
structure CommitBusy (s t : State) (run : CfgRun) : Prop where
  regs : t.regs = s.regs
  staged : t.staged = s.staged
  locks : t.locks = s.locks
  busy : t.mgmt.cfgBusy = some run

theorem commitBusy_answered (st : Status) (p : Payload) {v : State} {run : CfgRun} (h : KeepsConfig s v) :
    CommitBusy s (answerReg r st p { v with mgmt := { v.mgmt with cfgBusy := some run } }) run := by
  have ha := answerReg_keepsConfig (r := r) st p { v with mgmt := { v.mgmt with cfgBusy := some run } }
  exact ⟨ha.regs.trans h.regs, ha.staged.trans h.staged, ha.locks.trans h.locks, ha.cfgBusy⟩

/-- What a commit that passed leaves of registers and locks while it is busy. -/
theorem commitNow_applies {u : State} (h : commitCheck r scope none u = none) :
    (commitNow r scope none u).2.2.regs = (applied r scope false u).regs ∧ (commitNow r scope none u).2.2.staged = (applied r scope false u).staged ∧
      ∀ j, j ∈ (commitNow r scope none u).2.2.locks ↔ j = scope + 16 ∨ (r ≠ .fn 1 ∧ j = scope) ∨ j ∈ u.locks := by
  have hcommitted := committed_keepsConfig scope u (lockScope r scope false (applied r scope false u))
  have hother := lockScope_other r scope (applied r scope false u)
  rw [commitNow_passed h]
  refine ⟨hcommitted.regs.trans ?_, hcommitted.staged.trans ?_, fun j => ?_⟩
  · rw [hother]
  · rw [hother]
  · change j ∈ (committed scope u (lockScope r scope false (applied r scope false u))).locks ↔ _
    rw [hcommitted.locks, mem_lockScope]
    rfl

theorem leaveCongested_keepsConfig (s : State) : KeepsConfig s (leaveCongested s) := by
  unfold leaveCongested
  split
  · exact (setCongested_keepsConfig false s).trans (raiseEvent_host _ _ _ _).keepsConfig
  · exact .refl s

theorem relieve_keepsConfig (s : State) : KeepsConfig s (relieve s) := by
  unfold relieve
  split
  · exact leaveCongested_keepsConfig s
  · exact .refl s

theorem relieve_leaves (s : State) : (relieve s).mgmt.exq = s.mgmt.exq ∧ (relieve s).chans = s.chans := by
  unfold relieve leaveCongested
  split
  · split
    · have hhost := raiseEvent_host 0 (.mgmtCongested false (exqUsed s)) 8 { s with mgmt := { s.mgmt with congested := false } }
      rw [hhost]
      exact ⟨rfl, rfl⟩
    · exact ⟨rfl, rfl⟩
  · exact ⟨rfl, rfl⟩

/-- A write is staged by what registers, locks, channels and selectors hold. -/
theorem stageWrite_staged {w : Requester × Nat × Nat × Word} {m : Mgmt} (u : State) :
    (stageWrite w.1 w.2.1 w.2.2.1 w.2.2.2 { u with mgmt := m }).staged = (stageWrite w.1 w.2.1 w.2.2.1 w.2.2.2 u).staged := by
  unfold stageWrite
  dsimp only
  split
  · rfl
  · change (if isLocked _ u = true then _ else _ : State).staged = _
    split <;> rfl

theorem stageWrite_other (w : Requester × Nat × Nat × Word) (u : State) :
    stageWrite w.1 w.2.1 w.2.2.1 w.2.2.2 u = { u with staged := (stageWrite w.1 w.2.1 w.2.2.1 w.2.2.2 u).staged } := by
  unfold stageWrite
  dsimp only
  (repeat' split) <;> rfl

/-- The writes that waited for a commit, staged. -/
def stageHeld (l : List (Requester × Nat × Nat × Word)) (s : State) : State :=
  l.foldl (fun s w => stageWrite w.1 w.2.1 w.2.2.1 w.2.2.2 s) s

theorem stageHeld_other (l : List (Requester × Nat × Nat × Word)) (s : State) : stageHeld l s = { s with staged := (stageHeld l s).staged } :=
  List.foldlRecOn (motive := fun u : State => u = { s with staged := u.staged }) l _ rfl fun u hu w _ => by
    rw [stageWrite_other, hu]

/-- The end of a commit, with no other waiting: its status stands, and the writes that waited are staged. -/
theorem endCommit_alone {run : CfgRun} {v : State} (h : v.mgmt.heldCommits = []) :
    endCommit run v = stageHeld v.mgmt.heldWrites (cfgEnded run.st run.resource { v with mgmt := { v.mgmt with heldWrites := [] } }) := by
  have hheld : (stageHeld v.mgmt.heldWrites (cfgEnded run.st run.resource { v with mgmt := { v.mgmt with heldWrites := [] } })).mgmt.heldCommits = [] := by
    rw [stageHeld_other]
    exact h
  unfold endCommit
  dsimp only
  change nextCommits (stageHeld _ _).mgmt.heldCommits.length (stageHeld _ _) = _
  rw [hheld]
  rfl

theorem exec_exceptionComplete {id : Nat} (hup : s.up = true) :
    exec (.exceptionComplete id) s =
      .next (if s.mgmt.restarting = true ∨ s.encl.state = .noFirmware then s else exceptionComplete id s) := by
  change execExceptionComplete id s = _
  rw [execExceptionComplete, whenUp_next hup]

/-- Settles O52: the three actions by requester, scope and what runs, and the end of a commit's exception. -/
theorem registersAreCommitted : Obligations.RegistersAreCommitted := by
  intro r scope s hup
  obtain ⟨hcommit, hunlock, hdiscard⟩ := exec_cfgActions r scope s
  refine ⟨fun h0 h1 => ?denied, fun hr => ⟨fun hscope => ?noScope, fun hscope => ⟨?unlock, ?locks16, ?locks, ?discard, fun k v => discardScope_staged r scope k v s,
    fun run hrun => ?busy, fun hidle => ⟨fun hfirm => ?refused, fun hcong hfirm => ⟨fun hunused => ?unused, fun st k hused hcheck => ?failed,
    fun hused hcheck => ?passed⟩⟩⟩⟩, fun id => ⟨fun hnone => ?noEntry, fun hrest hfirm hentry => ?entry⟩⟩
  case denied =>
    rw [hcommit, hunlock, hdiscard]
    exact ⟨cfgAction_denied hup h0 h1, cfgAction_denied hup h0 h1, cfgAction_denied hup h0 h1⟩
  case noScope =>
    rw [hcommit, hunlock, hdiscard]
    exact ⟨cfgAction_noScope hup hr hscope, cfgAction_noScope hup hr hscope, cfgAction_noScope hup hr hscope⟩
  case unlock => rw [hunlock, cfgAction_scope hup hr hscope]
  case discard => rw [hdiscard, cfgAction_scope hup hr hscope]
  case locks16 =>
    rw [unlockScope_locks]
    exact fun h => h.2.1 rfl
  case locks =>
    rintro rfl
    rw [unlockScope_locks]
    exact fun h => absurd (h.2.2 rfl) (by decide)
  case busy => rw [hcommit, cfgAction_scope hup hr hscope, requestCommit_busy hrun]
  case refused =>
    have hanswer := answerReg_keepsConfig (r := r) .ok .empty (cfgEnded .mgmtBusy 0 s)
    refine ⟨_, hcommit.trans (cfgAction_scope hup hr hscope), ?_⟩
    rw [requestCommit_refused hidle hfirm]
    exact ⟨hanswer.cfgStatus, hanswer.cfgBusy, hanswer.commits, hanswer.regs, hanswer.staged, hanswer.locks⟩
  case unused =>
    refine ⟨_, hcommit.trans (cfgAction_scope hup hr hscope), ?_⟩
    rw [requestCommit_starts hidle hcong hfirm (if_pos hunused)]
    obtain ⟨hregs, hstaged, hlocks, hbusy⟩ := commitBusy_answered (r := r) (run := ⟨scope, s.mgmt.nextEx, .ok, 0⟩) .ok .empty (takeEntry_keepsConfig s)
    exact ⟨hregs, hstaged, hlocks, hbusy⟩
  case failed =>
    refine ⟨_, hcommit.trans (cfgAction_scope hup hr hscope), ?_⟩
    rw [requestCommit_starts hidle hcong hfirm ((if_neg (by simp [hused])).trans (commitNow_failed hcheck))]
    obtain ⟨hregs, hstaged, hlocks, hbusy⟩ := commitBusy_answered (r := r) (run := ⟨scope, s.mgmt.nextEx, st, k⟩) .ok .empty (takeEntry_keepsConfig s)
    exact ⟨hregs, hstaged, hlocks, hbusy⟩
  case passed =>
    have htaken := takeEntry_keepsConfig s
    obtain ⟨hregs, hstaged, hlocks⟩ := commitNow_applies hcheck
    have hstatus : (commitNow r scope none (takeEntry s)).1 = .ok ∧ (commitNow r scope none (takeEntry s)).2.1 = 0 := by
      rw [commitNow_passed hcheck]
      exact ⟨rfl, rfl⟩
    obtain ⟨hregs', hstaged', hlocks', hbusy'⟩ := commitBusy_answered (r := r)
      (run := ⟨scope, s.mgmt.nextEx, (commitNow r scope none (takeEntry s)).1, (commitNow r scope none (takeEntry s)).2.1⟩) .ok .empty
      (.refl (commitNow r scope none (takeEntry s)).2.2)
    refine ⟨_, hcommit.trans (cfgAction_scope hup hr hscope), ?_⟩
    rw [requestCommit_starts hidle hcong hfirm (if_neg (by simp [hused])), hregs', hstaged', hlocks', hbusy', hregs, hstaged, hstatus.1, hstatus.2]
    rw [← htaken.regs, ← htaken.staged, ← htaken.locks]
    exact ⟨fun k v => applied_staged r scope k v _, fun k hk => applied_regs_kept hk, fun k v hk hone => applied_regs_set hk hone,
      (hlocks _).mpr (.inl rfl), fun h0 => (hlocks _).mpr (.inr (.inl ⟨by rw [h0]; decide, rfl⟩)), fun k hk => (hlocks k).mpr (.inr (.inr hk)), rfl⟩
  case noEntry =>
    rw [exec_exceptionComplete hup]
    refine congrArg _ ?_
    split
    · rfl
    · rename_i hrun
      obtain h | h | h := hnone
      · exact absurd (.inl h) hrun
      · exact absurd (.inr h) hrun
      · rw [exceptionComplete, if_neg (by simp only [h, Bool.false_eq_true, not_false_eq_true])]
  case entry =>
    dsimp only
    have hkeeps : KeepsConfig s (relieve { s with mgmt := { s.mgmt with exq := s.mgmt.exq.erase id } }) :=
      (setExq_keepsConfig _ s.mgmt.nextEx s).trans (relieve_keepsConfig _)
    have hexec : exec (.exceptionComplete id) s = .next (exceptionComplete id s) := by
      rw [exec_exceptionComplete hup, if_neg (by simp [hrest, hfirm])]
    rw [exceptionComplete, if_pos hentry] at hexec
    dsimp only at hexec
    obtain ⟨hexq, hchans⟩ := relieve_leaves { s with mgmt := { s.mgmt with exq := s.mgmt.exq.erase id } }
    generalize relieve { s with mgmt := { s.mgmt with exq := s.mgmt.exq.erase id } } = v at *
    refine ⟨hexq, hkeeps.regs, hkeeps.staged, hchans, fun hother => ?_, fun run hrun hid => ⟨?_, fun hnone => ?_⟩⟩
    · rw [hexec, hkeeps.cfgBusy]
      cases hrun : s.mgmt.cfgBusy with
      | none => rfl
      | some run => exact congrArg _ (if_neg (hother run hrun))
    · rw [hexec, hkeeps.cfgBusy, hrun]
      exact congrArg _ (if_pos hid)
    · have halone := endCommit_alone (run := run) (hkeeps.heldCommits.trans hnone)
      have hother := stageHeld_other v.mgmt.heldWrites (cfgEnded run.st run.resource { v with mgmt := { v.mgmt with heldWrites := [] } })
      rw [halone]
      refine ⟨?_, ?_, ?_, ?_, ?_, fun hw => ?_, fun w hw => ?_⟩
      · rw [hother]; rfl
      · rw [hother]; rfl
      · rw [hother]; rfl
      · rw [hother, ← hkeeps.commits]; rfl
      · rw [hother, ← hkeeps.regs]; rfl
      · rw [hkeeps.heldWrites, hw]
        exact hkeeps.staged
      · rw [hkeeps.heldWrites, hw]
        exact stageWrite_staged v

end

end Sys2Proof.Machine
end

section
/-! Requests, their answers and the peer table (R404, R405, R435, R437, R491, R492). The settlement of O55. -/

namespace Sys2Proof.Machine

open Sys2Proof

/-! ### A response and its request (R404, R437) -/

/-- A request with one of its packets answered. -/
def Request.answered (q : Request) (p : Pkt) : Request := { q with left := q.left.erase p.req, poison := q.poison || p.poison }

/-- A state with one of its requests replaced. -/
def replaceReq (q r : Request) (s : State) : State := { s with reqs := s.reqs.map (fun y => if y = q then r else y) }

section
variable {p : Pkt} {q : Request} {f : Request → State → State} {s : State}

theorem takeResponse_unmatched (h : matchReq p s = none) :
    takeResponse p f s = if p.fn ≠ 0 ∧ p.gen ≠ (s.fn p.fn).resetGen % 256 then s.modFn p.fn (fun f => { f with lateRsp := wrap64 (f.lateRsp + 1) })
      else badPacket p.port s := by
  unfold takeResponse takeRsp
  rw [h]
  dsimp only
  by_cases hlate : p.fn ≠ 0 ∧ p.gen ≠ (s.fn p.fn).resetGen % 256
  · rw [if_pos hlate, if_pos hlate]
  · rw [if_neg hlate, if_neg hlate]

theorem takeResponse_old (h : matchReq p s = some q) (hgen : q.gen ≠ (s.fn q.fn).resetGen % 256) :
    takeResponse p f s = (dropReq q s).modFn q.fn (fun f => { f with lateRsp := wrap64 (f.lateRsp + 1) }) := by
  unfold takeResponse takeRsp
  rw [h]
  dsimp only
  rw [if_pos hgen]

theorem takeResponse_matched (h : matchReq p s = some q) (hgen : q.gen = (s.fn q.fn).resetGen % 256) :
    takeResponse p f s = match answerTag q p s with | (some r, s) => f r s | (none, s) => s := by
  unfold takeResponse takeRsp
  rw [h]
  dsimp only
  rw [if_neg (not_not.mpr hgen)] <;> rfl

theorem takeResponse_last (h : matchReq p s = some q) (hgen : q.gen = (s.fn q.fn).resetGen % 256) (hlast : q.left.erase p.req = []) :
    takeResponse p f s = f (q.answered p) (dropReq q s) := by
  rw [takeResponse_matched h hgen, answerTag, hlast, Request.answered, hlast]
  rfl

theorem takeResponse_part (h : matchReq p s = some q) (hgen : q.gen = (s.fn q.fn).resetGen % 256) (hmore : q.left.erase p.req ≠ [])
    (hok : p.status = 0) : takeResponse p f s = replaceReq q (q.answered p) s := by
  rw [takeResponse_matched h hgen, answerTag]
  dsimp only
  rw [if_neg (by simpa using hmore), if_neg (not_not.mpr hok)]
  rfl

theorem takeResponse_failed (h : matchReq p s = some q) (hgen : q.gen = (s.fn q.fn).resetGen % 256) (hmore : q.left.erase p.req ≠ [])
    (hbad : p.status ≠ 0) : takeResponse p f s = f (q.answered p) (replaceReq q { q.answered p with kind := .stale } s) := by
  rw [takeResponse_matched h hgen, answerTag]
  dsimp only
  rw [if_neg (by simpa using hmore), if_pos hbad]
  rfl

/-! ### The commands that bring a response -/

theorem writeAck_matched {a : Nat} (h : matchReq p s = some q) :
    writeAck p a s = takeResponse p (fun r => writeDone r (statusOfCode p.status)) s := by
  unfold writeAck
  rw [h]

theorem writeAck_noEntry {a : Nat} (h : p.status = 0 ∨ p.dstUnit ≠ 8 ∨ ringOfCq p.srcFid a s = none) :
    writeAck p a s = takeResponse p (fun r => writeDone r (statusOfCode p.status)) s := by
  have hnone : (if p.status ≠ 0 ∧ p.dstUnit = 8 then ringOfCq p.srcFid a s else none) = none := by
    split
    · rename_i hentry
      obtain h | h | h := h
      · exact absurd h hentry.1
      · exact absurd hentry.2 h
      · exact h
    · rfl
  unfold writeAck
  rw [hnone]
  cases matchReq p s <;> rfl

theorem writeAck_entry {a ring : Nat} (hnone : matchReq p s = none) (hbad : p.status ≠ 0) (hport : p.dstUnit = 8)
    (hring : ringOfCq p.srcFid a s = some ring) :
    writeAck p a s = ringFault ring 6 (s.modRing ring (fun r => { r with lost := min (r.lost + 1) 4294967295 })) := by
  unfold writeAck
  rw [hnone, if_pos ⟨hbad, hport⟩, hring]
  rfl

section
variable (h : Arrives p s)
include h

theorem exec_readRsp (x : ReadData) : exec (.readRsp p x) s = .next (takeResponse p (fun r => readDone r p x) s) := by
  change execReadRsp p x s = _
  rw [execReadRsp, whenUp_next h.1, arrive_next h]

theorem exec_writeAck (a : Word) : exec (.writeAck p a) s = .next (writeAck p a.toNat s) := by
  change execWriteAck p a s = _
  rw [execWriteAck, whenUp_next h.1, arrive_next h]

theorem exec_poolRsp (d : Nat) (y : BitVec 128) : exec (.poolRsp p d y) s = .next (takeResponse p (poolDone p d y.toNat) s) := by
  change execPoolRsp p d y s = _
  rw [execPoolRsp, whenUp_next h.1, arrive_next h]

theorem exec_regRsp (v : Word) : exec (.regRsp p v) s = .next (takeResponse p (fun _ s => s) s) := by
  change execRegRsp p v s = _
  rw [execRegRsp, whenUp_next h.1, arrive_next h]

theorem exec_ctrRsp (ring v : Nat) : exec (.ctrRsp p ring v) s = .next (takeResponse p (ctrDone ring v) s) := by
  change execCtrRsp p ring v s = _
  rw [execCtrRsp, whenUp_next h.1, arrive_next h]

theorem exec_ctrRead (ring : Nat) : exec (.ctrRead p ring) s = .next (ctrAnswer p ring s) := by
  change execCtrRead p ring s = _
  rw [execCtrRead, whenUp_next h.1, arrive_next h]

end

/-! ### The answer to a counter read (R337) -/

theorem dropReq_waitOf (q : Request) (k : Nat) (s : State) : waitOf k (dropReq q s) = waitOf k s := by
  rw [dropReq_req q s]
  rfl

theorem counterRead_reached {k v m f rg tm : Nat} {op : RunOp} (h : waitOf k s = some (op, f, rg, m, tm)) (hv : m ≤ v) :
    counterRead k v s = endWait op .ok [v] s := by
  rw [counterRead, h]
  exact if_pos hv

theorem counterRead_below {k v m f rg tm : Nat} {op : RunOp} (h : waitOf k s = some (op, f, rg, m, tm)) (hv : v < m) : counterRead k v s = s := by
  rw [counterRead, h]
  exact if_neg (Nat.not_le.mpr hv)

theorem ctrDone_counter {k ring v : Nat} {r : Request} (hkind : r.kind = .counter k) (hring : ring < 4096) :
    ctrDone ring v r s = counterRead k v s := by
  rw [ctrDone, hkind]
  exact if_neg (Nat.not_le.mpr hring)

theorem readDone_stale {r : Request} (h : r.kind = .stale) (x : ReadData) : readDone r p x s = s := by
  rw [readDone, h]

theorem dropReq_reqs (h : s.reqWait = []) (q : Request) : (dropReq q s).reqs = s.reqs.erase q := by
  rw [dropReq, releaseOne, h]
  rfl

theorem ctrAnswer_bad {ring : Nat} (h : p.dstUnit ≠ 8 ∨ 4096 ≤ ring) : ctrAnswer p ring s = badPacket p.port s := if_pos h

theorem ctrAnswer_ok {ring : Nat} (hport : p.dstUnit = 8) (hring : ring < 4096) :
    ctrAnswer p ring s =
      s.emit (.packet .ctrRsp 8 p.srcFid p.srcUnit p.req p.fn p.gen .ok 0 (.bytes (natLE 8 (s.ring ring).counter))) := by
  rw [ctrAnswer, if_neg (by omega), respond, hport]

end

/-! ### Requests that fail (R435) -/

section
variable {s : State} (hup : s.up = true)
include hup

theorem exec_reqTimeout (unit req : Nat) :
    exec (.reqTimeout unit req) s = .next (match s.reqs.find? (fun r => r.unit == unit && r.left.contains req) with
      | some r => failRequest r 1 s
      | none => s) := by
  change execReqTimeout unit req s = _
  rw [execReqTimeout, whenUp_next hup] <;> rfl

theorem exec_unreach (port : Nat) (lost : Pkt) : exec (.unreach port lost) s = .next (unreach port lost s) := by
  change execUnreach port lost s = _
  rw [execUnreach, whenUp_next hup]

theorem exec_prtPeerClear (r : Requester) :
    exec (.prtPeerClear r) s = .next (if r = .fn 1 then answerReg r .ok .empty (peerClear (selOf r 0x118 s) s) else denyReg r s) := by
  change execPrtPeerClear r s = _
  rw [execPrtPeerClear, whenUp_next hup]

end

theorem unreach_foreign {lost : Pkt} {s : State} (h : lost.srcFid ≠ s.fid) (port : Nat) : unreach port lost s = s := by
  have hnone : s.reqs.find? (fun r => lost.srcFid == s.fid && r.unit == lost.srcUnit && r.left.contains lost.req && r.dstFid == lost.dstFid
      && r.dstUnit == lost.dstUnit) = none := List.find?_eq_none.mpr fun r _ => by simp [h]
  rw [unreach, hnone]

theorem unreach_own {lost : Pkt} {s : State} (h : lost.srcFid = s.fid) (port : Nat) :
    unreach port lost s =
      match s.reqs.find? (fun r => r.unit == lost.srcUnit && r.left.contains lost.req && r.dstFid == lost.dstFid && r.dstUnit == lost.dstUnit) with
      | some r => failRequest { r with port := port } 2 (dropReq r s)
      | none => s := by
  have hown : (lost.srcFid == s.fid) = true := by simp [h]
  simp only [unreach, hown, Bool.true_and] <;> rfl

/-! ### The peer table (R491, R492) -/

/-- A peer with one more report: the first one takes it to PEER_DOWN. -/
def Peer.reported (port cause now : Nat) (p : Peer) : Peer :=
  if p.down then { p with reports := satTo 4294967295 (p.reports + 1) }
  else { p with reports := 1, down := true, generation := (p.generation + 1) % 65536, firstPort := port, cause := cause, since := now, units := 0 }

/-- A peer with a unit marked. -/
def Peer.marked (unit : Nat) (p : Peer) : Peer :=
  if p.units.getLsbD unit then p else { p with units := p.units ||| BitVec.ofNat 9 (2 ^ unit) }

theorem Peer.marked_units {unit : Nat} (h : unit < 9) (p : Peer) : (p.marked unit).units.getLsbD unit = true := by
  unfold Peer.marked
  split
  · assumption
  · change (p.units ||| BitVec.ofNat 9 (2 ^ unit)).getLsbD unit = true
    rw [BitVec.getLsbD_or, BitVec.getLsbD_ofNat, Nat.testBit_two_pow_self, decide_eq_true h, Bool.true_and, Bool.or_true]

theorem Peer.marked_other (unit : Nat) (p : Peer) : p.marked unit = { p with units := (p.marked unit).units } := by
  unfold Peer.marked
  split <;> rfl

theorem HostSide.peers {s t : State} (h : HostSide s t) : t.peers = s.peers := by rw [h]

theorem report_peer {fid unit port cause : Nat} {s : State} (hfid : fid < 80) :
    (report fid unit port cause s).1.peer fid = ((s.peer fid).reported port cause s.now).marked unit ∧
      ∀ k, k ≠ fid → (report fid unit port cause s).1.peer k = s.peer k := by
  unfold report
  rw [if_neg (Nat.not_le.mpr hfid)]
  extract_lets e0 fresh e1 e s1 s2 s3
  have he : e = (s.peer fid).reported port cause s.now := by
    unfold e e1 fresh e0 Peer.reported
    cases (s.peer fid).down <;> rfl
  have hhost : HostSide (s.setPeer fid e) s2 := by
    unfold s2
    split
    · exact (raiseEvent_host _ _ _ _).trans (raiseEvent_host _ _ _ _)
    · exact .refl _
  have hpeer (k : Nat) : s2.peer k = (s.setPeer fid e).peer k := by rw [State.peer, State.peer, hhost.peers]
  rw [← he]
  unfold Peer.marked
  split
  · exact ⟨(hpeer fid).trans (State.setPeer_peer_same s fid e), fun k hk => (hpeer k).trans (State.setPeer_peer_other s fid k e hk)⟩
  · exact ⟨State.setPeer_peer_same s2 fid _, fun k hk =>
      (State.setPeer_peer_other s2 fid k _ hk).trans ((hpeer k).trans (State.setPeer_peer_other s fid k e hk))⟩

theorem peerClear_up {entry : Nat} {s : State} (h : (s.peer entry).down = false) : peerClear entry s = s := if_neg (by simp [h])

theorem peerClear_down {entry : Nat} {s : State} (h : (s.peer entry).down = true) :
    HostSide (s.setPeer entry { s.peer entry with down := false }) (peerClear entry s) := by
  unfold peerClear
  dsimp only
  rw [if_pos h]
  exact (raiseEvent_host _ _ _ _).trans (raiseEvent_host _ _ _ _)

/-- Settles O55: the responses by what they match, the counter, the requests that fail, and the peer table. -/
theorem requestsAreAnsweredOrFail : Obligations.RequestsAreAnsweredOrFail := by
  intro p s h
  refine ⟨fun hnone => ?unmatched, fun q hq => ⟨fun hgen => ⟨fun hlast => ?last, fun hmore hok => ?part, fun hmore hbad => ?failed⟩, fun hgen => ?old⟩,
    fun ring => ⟨fun hport hring => ?counter, fun hbad => ?noCounter⟩, fun unit req => ⟨fun hnone => ?noRequest, fun r hr => ?timeout⟩,
    fun lost port hforeign => ?foreign, fun lost port hown => ⟨fun hnone => ?noneSent, fun r hr => ?undelivered⟩,
    fun fid unit port cause hfid hunit => ?reported, fun r => ⟨fun hr => ?clearDenied, fun hr => ⟨fun hdown => ?upAlready, fun hdown => ?cleared⟩⟩⟩
  case unmatched =>
    refine ⟨fun x => ?_, fun v => ?_, fun r v => ?_, fun d r => ?_, fun a hentry => ?_, fun a ring hbad hport hring => ?_⟩
    · rw [exec_readRsp h, takeResponse_unmatched hnone]
    · rw [exec_regRsp h, takeResponse_unmatched hnone]
    · rw [exec_ctrRsp h, takeResponse_unmatched hnone]
    · rw [exec_poolRsp h, takeResponse_unmatched hnone]
    · rw [exec_writeAck h, writeAck_noEntry hentry, takeResponse_unmatched hnone]
    · rw [exec_writeAck h, writeAck_entry hnone hbad hport hring]
  case last =>
    refine ⟨fun x => ?_, fun v => ?_, fun d y => ?_, fun a => ?_, fun hkind x => ?_, fun k op f rg m tm ring v hkind hring hwait => ⟨fun hv => ?_,
      fun hv => ?_⟩, fun hnone => dropReq_reqs hnone q⟩
    · rw [exec_readRsp h, takeResponse_last hq hgen hlast]; rfl
    · rw [exec_regRsp h, takeResponse_last hq hgen hlast]
    · rw [exec_poolRsp h, takeResponse_last hq hgen hlast]; rfl
    · rw [exec_writeAck h, writeAck_matched hq, takeResponse_last hq hgen hlast]; rfl
    · rw [exec_readRsp h, takeResponse_last hq hgen hlast, readDone_stale (by exact hkind)]
    · rw [exec_ctrRsp h, takeResponse_last hq hgen hlast, ctrDone_counter (by exact hkind) hring,
        counterRead_reached ((dropReq_waitOf q k s).trans hwait) hv]
    · rw [exec_ctrRsp h, takeResponse_last hq hgen hlast, ctrDone_counter (by exact hkind) hring,
        counterRead_below ((dropReq_waitOf q k s).trans hwait) hv]
  case part =>
    refine ⟨fun x => ?_, fun v => ?_, fun k v => ?_, fun d y => ?_, fun a => ?_⟩
    · rw [exec_readRsp h, takeResponse_part hq hgen hmore hok]; rfl
    · rw [exec_regRsp h, takeResponse_part hq hgen hmore hok]; rfl
    · rw [exec_ctrRsp h, takeResponse_part hq hgen hmore hok]; rfl
    · rw [exec_poolRsp h, takeResponse_part hq hgen hmore hok]; rfl
    · rw [exec_writeAck h, writeAck_matched hq, takeResponse_part hq hgen hmore hok]; rfl
  case failed =>
    refine ⟨fun x => ?_, fun d y => ?_, fun a => ?_⟩
    · rw [exec_readRsp h, takeResponse_failed hq hgen hmore hbad]; rfl
    · rw [exec_poolRsp h, takeResponse_failed hq hgen hmore hbad]; rfl
    · rw [exec_writeAck h, writeAck_matched hq, takeResponse_failed hq hgen hmore hbad]; rfl
  case old =>
    refine ⟨fun x => ?_, fun v => ?_, fun k v => ?_, fun d y => ?_, fun a => ?_⟩
    · rw [exec_readRsp h, takeResponse_old hq hgen]
    · rw [exec_regRsp h, takeResponse_old hq hgen]
    · rw [exec_ctrRsp h, takeResponse_old hq hgen]
    · rw [exec_poolRsp h, takeResponse_old hq hgen]
    · rw [exec_writeAck h, writeAck_matched hq, takeResponse_old hq hgen]
  case counter => rw [exec_ctrRead h, ctrAnswer_ok hport hring]
  case noCounter => rw [exec_ctrRead h, ctrAnswer_bad hbad]
  case noRequest => rw [exec_reqTimeout h.1, hnone]
  case timeout => rw [exec_reqTimeout h.1, hr]
  case foreign => rw [exec_unreach h.1, unreach_foreign hforeign]
  case noneSent => rw [exec_unreach h.1, unreach_own hown, hnone]
  case undelivered => rw [exec_unreach h.1, unreach_own hown, hr]
  case reported =>
    obtain ⟨hpeer, hother⟩ := report_peer (unit := unit) (port := port) (cause := cause) (s := s) hfid
    have hmarked := ((s.peer fid).reported port cause s.now).marked_other unit
    refine ⟨?_, ?_, hother, fun hup => ?_, fun hdown => ?_⟩
    · rw [hpeer, hmarked, Peer.reported]
      split
      · assumption
      · rfl
    · rw [hpeer]
      exact Peer.marked_units hunit _
    · rw [hpeer, hmarked, Peer.reported, if_neg (by simp [hup])]
      exact ⟨rfl, rfl, rfl, rfl, rfl⟩
    · rw [hpeer, hmarked, Peer.reported, if_pos hdown]
      exact ⟨rfl, rfl, Nat.min_comm _ _⟩
  case clearDenied => rw [exec_prtPeerClear h.1, if_neg hr]
  case upAlready => rw [exec_prtPeerClear h.1, if_pos hr, peerClear_up hdown]
  case cleared =>
    have hhost := (peerClear_down hdown).trans (answerReg_host r .ok .empty _)
    refine ⟨_, (exec_prtPeerClear h.1 r).trans (congrArg _ (if_pos hr)), ?_, fun k hk => ?_, hhost.chans, hhost.regs⟩
    · rw [State.peer, hhost.peers]
      exact State.setPeer_peer_same s _ _
    · rw [State.peer, hhost.peers]
      exact State.setPeer_peer_other s _ k _ hk

end Sys2Proof.Machine
end

section
/-! The flits of a port (R428 to R431). The settlement of O57. -/

namespace Sys2Proof.Machine

open Sys2Proof

/-! ### What a flit leaves of the state -/

/-- From one state to another, a port becomes `q`, and the flits `l` leave the block; the channels stay. -/
structure PortMoves (n : Nat) (s : State) (q : Port) (l : List Out) (t : State) : Prop where
  port : t.port n = q
  chans : t.chans = s.chans
  out : t.out = l ++ s.out

section
variable {n : Nat} {s t u : State} {q r : Port} {l m : List Out}

theorem PortMoves.refl (n : Nat) (s : State) : PortMoves n s (s.port n) [] s := ⟨rfl, rfl, rfl⟩

theorem PortMoves.trans (h : PortMoves n s q l t) (g : PortMoves n t r m u) : PortMoves n s r (m ++ l) u :=
  ⟨g.port, g.chans.trans h.chans, by rw [g.out, h.out, List.append_assoc]⟩

theorem setPort_moves (n : Nat) (q : Port) (s : State) : PortMoves n s q [] (s.setPort n q) := ⟨State.setPort_port_same s n q, rfl, rfl⟩

theorem modPort_moves (n : Nat) (f : Port → Port) (s : State) : PortMoves n s (f (s.port n)) [] (s.modPort n f) := setPort_moves n _ s

/-- A port that has sent an acknowledgement. -/
def Port.acked (p : Port) : Port :=
  { p with unacked := 0, owed := bumpVc (nextOwed p).1 (fun k => k - (nextOwed p).2) p.owed, creditVc := ((nextOwed p).1 + 1) % 4 }

/-- The flit that carries an acknowledgement. -/
def ackFlit (n : Nat) (nak : Bool) (p : Port) : Out := .flit n false 0 0 (lastSeq p) nak false (nextOwed p).1 (nextOwed p).2 false false []

theorem sendAck_moves (n : Nat) (nak : Bool) (s : State) : PortMoves n s (s.port n).acked [ackFlit n nak (s.port n)] (sendAck n nak s) :=
  ⟨State.setPort_port_same s n _, rfl, rfl⟩

/-- The kept flits as they go out again. -/
def replayed (n : Nat) (p : Port) (l : List SentFlit) : List Out :=
  (l.map (fun f => Out.flit n true f.vc f.seq (lastSeq p) false true 0 0 f.sop f.eop f.body)).reverse

theorem resend_moves (n : Nat) (l : List SentFlit) (s : State) : PortMoves n s (s.port n) (replayed n (s.port n) l) (resend n l s) := by
  induction l generalizing s with
  | nil => exact .refl n s
  | cons f l ih =>
    have hnext := ih (s.emit (.flit n true f.vc f.seq (lastSeq (s.port n)) false true 0 0 f.sop f.eop f.body))
    refine ⟨hnext.port, hnext.chans, hnext.out.trans ?_⟩
    unfold replayed
    rw [List.map_cons, List.reverse_cons, List.append_assoc]
    rfl

/-! ### Replays (R427, R430) -/

/-- A port that begins a replay. -/
def Port.replaying (p : Port) : Port := { p with replay := wrap64 (p.replay + 1), replays := p.replays + 1 }

theorem replayFrom_empty (h : (s.port n).replayBuf = []) : replayFrom n s = s := by
  rw [replayFrom, h]
  rfl

theorem replayFrom_again (h : (s.port n).replayBuf ≠ []) (hfew : (s.port n).replays + 1 < fieldOf (eff 0x40010 s) 0 7) :
    PortMoves n s (s.port n).replaying (replayed n (s.port n) (s.port n).replayBuf) (replayFrom n s) := by
  unfold replayFrom
  dsimp only
  rw [if_neg (by simpa using h), if_neg (Nat.not_le.mpr hfew)]
  have hset := setPort_moves n (s.port n).replaying s
  have hsent := resend_moves n (s.port n).replayBuf (s.setPort n (s.port n).replaying)
  rw [hset.port] at hsent
  exact ⟨hsent.port, hsent.chans, hsent.out⟩

theorem replayFrom_retrains (h : (s.port n).replayBuf ≠ []) (hmany : fieldOf (eff 0x40010 s) 0 7 ≤ (s.port n).replays + 1) :
    PortMoves n s { toRetrain (s.port n).replaying with replays := 0 } [] (replayFrom n s) := by
  unfold replayFrom
  dsimp only
  rw [if_neg (by simpa using h), if_pos hmany]
  exact setPort_moves n _ s

/-! ### What a flit carries (R428, R431) -/

/-- The kept flits after an acknowledgement. -/
def Port.keptAfter (ack cr : Nat) (p : Port) : List SentFlit := if cr / 16384 % 2 = 1 then dropThrough ack p.replayBuf else p.replayBuf

/-- A port that has taken an acknowledgement. -/
def Port.acknowledged (ack cr : Nat) (p : Port) : Port :=
  { p with replayBuf := p.keptAfter ack cr, replays := if (p.keptAfter ack cr).length < p.replayBuf.length then 0 else p.replays }

/-- A port that has taken credits. -/
def Port.credited (cr : Nat) (p : Port) : Port := { p with credits := bumpVc (cr / 4096 % 4) (fun k => k + cr % 4096) p.credits }

theorem takeAck_eq (n ack cr : Nat) (nak : Bool) (s : State) :
    takeAck n ack (cr / 16384 % 2 == 1) nak s =
      if nak then replayFrom n (s.setPort n ((s.port n).acknowledged ack cr)) else s.setPort n ((s.port n).acknowledged ack cr) := by
  unfold takeAck Port.acknowledged Port.keptAfter
  simp only [beq_iff_eq]

theorem takeAck_plain {ack cr : Nat} (h : cr < 32768) :
    PortMoves n s ((s.port n).acknowledged ack cr) [] (takeAck n ack (cr / 16384 % 2 == 1) (cr / 32768 == 1) s) := by
  have hnak : (cr / 32768 == 1) = false := by
    rw [Nat.div_eq_of_lt h]
    rfl
  rw [takeAck_eq, hnak, if_neg Bool.false_ne_true]
  exact setPort_moves n _ s

theorem leNat_lt (l : List Byte) : leNat l < 256 ^ l.length := by
  induction l with
  | nil => exact Nat.one_pos
  | cons b l ih =>
    have hb := b.isLt
    rw [leNat, List.length_cons, Nat.pow_succ]
    omega

/-- The credit word of a flit has 16 bits. -/
theorem leNat_word (l : List Byte) : leNat (l.take 2) < 65536 :=
  lt_of_lt_of_le (leNat_lt _) (Nat.pow_le_pow_right (by decide) (List.length_take_le 2 l))

theorem takeAck_nak {ack cr : Nat} (h : 32768 ≤ cr) (hcr : cr < 65536) :
    takeAck n ack (cr / 16384 % 2 == 1) (cr / 32768 == 1) s = replayFrom n (s.setPort n ((s.port n).acknowledged ack cr)) := by
  have hnak : (cr / 32768 == 1) = true := by
    rw [beq_iff_eq]
    omega
  rw [takeAck_eq, hnak, if_pos rfl]

/-! ### A flit is discarded (R430) -/

/-- A port that has discarded a flit. -/
def Port.discarding (nak : Bool) (p : Port) : Port := { p with crcErr := wrap64 (p.crcErr + 1), nakSent := p.nakSent || nak }

theorem discardFlit_silent {nak : Bool} (h : nak = false ∨ (s.port n).nakSent = true) :
    discardFlit n nak s = s.setPort n ((s.port n).discarding nak) := by
  unfold discardFlit
  obtain h | h := h <;> simp [h, Port.discarding]

theorem discardFlit_naks (h : (s.port n).nakSent = false) :
    PortMoves n s ((s.port n).discarding true).acked [ackFlit n true ((s.port n).discarding true)] (discardFlit n true s) := by
  have hset := setPort_moves n ((s.port n).discarding true) s
  have hack := sendAck_moves n true (s.setPort n ((s.port n).discarding true))
  rw [hset.port] at hack
  have hsend : discardFlit n true s = sendAck n true (s.setPort n ((s.port n).discarding true)) := by
    unfold discardFlit
    simp [h, Port.discarding]
  rw [hsend]
  exact hset.trans hack

end

/-! ### A flit arrives (R428 to R431) -/

/-- The first byte of a flit, its number, the number it acknowledges, and its credit word. -/
def flitHead (f : List Byte) : Nat := leNat (f.take 1)
def flitSeq (f : List Byte) : Nat := leNat ((f.drop 2).take 2)
def flitAck (f : List Byte) : Nat := leNat ((f.drop 4).take 2)
def flitCredit (f : List Byte) : Nat := leNat ((f.drop 6).take 2)

/-- The state after what a flit carries beside its data. -/
def flitAcked (n : Nat) (f : List Byte) (s : State) : State :=
  takeAck n (flitAck f) (flitCredit f / 16384 % 2 == 1) (flitCredit f / 32768 == 1) s

section
variable {n : Nat} {f : List Byte} {s : State}

theorem flitReceive_inactive (h : (s.port n).state ≠ .active) : flitReceive n f s = (none, s) := if_pos h

section
variable (hactive : (s.port n).state = .active)
include hactive

theorem flitReceive_bad (hbad : flitGood f = false) : flitReceive n f s = (none, discardFlit n true s) := by
  unfold flitReceive
  dsimp only
  rw [if_neg (not_not.mpr hactive), if_pos (by simp [hbad])]

variable (hgood : flitGood f = true)
include hgood

theorem flitReceive_other (h : flitHead f % 4 = 2 ∨ flitHead f % 4 = 3) : flitReceive n f s = (none, s) := by
  change leNat (f.take 1) % 4 = 2 ∨ leNat (f.take 1) % 4 = 3 at h
  have h0 : leNat (f.take 1) % 4 ≠ 0 := by omega
  have h1 : leNat (f.take 1) % 4 ≠ 1 := by omega
  unfold flitReceive
  dsimp only
  rw [if_neg (not_not.mpr hactive), if_neg (by simp [hgood]), if_neg h0, if_neg h1]
  exact congrArg (Prod.mk none) (if_pos h)

theorem flitReceive_idle (h : flitHead f % 4 = 0) :
    flitReceive n f s = (none, (flitAcked n f s).modPort n (Port.credited (flitCredit f))) := by
  change leNat (f.take 1) % 4 = 0 at h
  have hkind : ¬(leNat (f.take 1) % 4 = 2 ∨ leNat (f.take 1) % 4 = 3) := by omega
  unfold flitReceive
  dsimp only
  rw [if_neg (not_not.mpr hactive), if_neg (by simp [hgood]), if_pos h]
  exact congrArg (fun t : State => (none, t.modPort n (Port.credited (flitCredit f)))) (if_neg hkind)

/-- The virtual channel of a DATA flit, and whether it starts and ends its packet. -/
def flitVc (f : List Byte) : Nat := flitHead f / 4 % 4
def flitSop (f : List Byte) : Bool := flitHead f / 16 % 2 == 1
def flitEop (f : List Byte) : Bool := flitHead f / 32 % 2 == 1

/-- A port that has joined a flit in order to its packet. -/
def Port.joined (f : List Byte) (p : Port) : Option (List Byte) × Port := joinFlit (flitVc f) (flitSop f) (flitEop f) (f.drop 16) p

/-- The state with the flit joined and its credits taken. -/
def flitJoined (n : Nat) (f : List Byte) (s : State) : State :=
  (s.setPort n ((s.port n).joined f).2).modPort n (Port.credited (flitCredit f))

theorem flitReceive_data (h : flitHead f % 4 = 1) :
    flitReceive n f s =
      if ((flitAcked n f s).port n).state ≠ .active then (none, flitAcked n f s)
      else if flitSeq f = ((flitAcked n f s).port n).rxSeq then
        ((((flitAcked n f s).port n).joined f).1.map (fun w => (flitVc f, w)),
          if 64 ≤ ((flitJoined n f (flitAcked n f s)).port n).unacked then sendAck n false (flitJoined n f (flitAcked n f s))
          else flitJoined n f (flitAcked n f s))
      else (none, discardFlit n (decide ((flitSeq f + 65536 - ((flitAcked n f s).port n).rxSeq) % 65536 < 32768)) (flitAcked n f s)) := by
  change leNat (f.take 1) % 4 = 1 at h
  have h0 : ¬leNat (f.take 1) % 4 = 0 := by omega
  have hkind : ¬(leNat (f.take 1) % 4 = 2 ∨ leNat (f.take 1) % 4 = 3) := by omega
  unfold flitReceive
  dsimp only
  rw [if_neg (not_not.mpr hactive), if_neg (by simp [hgood]), if_neg h0, if_pos h, if_neg hkind]
  rfl

end

/-! ### What the flit of each kind leaves -/

section
variable (hcr : flitCredit f < 32768)
include hcr

theorem flitAcked_plain : PortMoves n s ((s.port n).acknowledged (flitAck f) (flitCredit f)) [] (flitAcked n f s) := takeAck_plain hcr

/-- A port that has taken a flit in order. -/
def Port.took (f : List Byte) (p : Port) : Port := (((p.acknowledged (flitAck f) (flitCredit f)).joined f).2).credited (flitCredit f)

theorem flitJoined_moves : PortMoves n s ((s.port n).took f) [] (flitJoined n f (flitAcked n f s)) := by
  have hacked := flitAcked_plain (n := n) (s := s) hcr
  have hjoined := setPort_moves n (((flitAcked n f s).port n).joined f).2 (flitAcked n f s)
  have hcredited := modPort_moves n (Port.credited (flitCredit f)) ((flitAcked n f s).setPort n (((flitAcked n f s).port n).joined f).2)
  rw [hjoined.port, hacked.port] at hcredited
  rw [hacked.port] at hjoined
  unfold flitJoined
  rw [hacked.port]
  exact ((hacked.trans hjoined).trans hcredited)

end

/-- The state after a flit in order: its acknowledgement leaves once 64 flits have none. -/
def flitTaken (n : Nat) (f : List Byte) (s : State) : State :=
  if 64 ≤ ((flitJoined n f (flitAcked n f s)).port n).unacked then sendAck n false (flitJoined n f (flitAcked n f s))
  else flitJoined n f (flitAcked n f s)

theorem Port.took_fields (f : List Byte) (p : Port) :
    (p.took f).rxSeq = (p.rxSeq + 1) % 65536 ∧ (p.took f).nakSent = false ∧ (p.took f).unacked = p.unacked + 1 ∧
      (p.took f).replayBuf = p.keptAfter (flitAck f) (flitCredit f) ∧ (p.took f).credits = (p.credited (flitCredit f)).credits := by
  unfold Port.took Port.joined joinFlit
  dsimp only
  split <;> exact ⟨rfl, rfl, rfl, rfl, rfl⟩

/-- The data of a packet with that of a flit joined. -/
def Port.packetWith (f : List Byte) (p : Port) : List Byte := (if flitHead f / 16 % 2 = 1 then [] else (tget (flitVc f) p.partialPkt).getD []) ++ f.drop 16

theorem Port.joined_open (h : flitEop f = false) (p : Port) :
    (p.joined f).1 = none ∧ (p.joined f).2.partialPkt = tset (flitVc f) (p.packetWith f) p.partialPkt := by
  simp [Port.joined, joinFlit, Port.packetWith, flitSop, h]

theorem Port.joined_whole (h : flitEop f = true) (p : Port) :
    (p.joined f).1 = some (p.packetWith f) ∧ (p.joined f).2.partialPkt = tdel (flitVc f) p.partialPkt := by
  simp [Port.joined, joinFlit, Port.packetWith, flitSop, h]

section
variable (hcr : flitCredit f < 32768)
include hcr

theorem flitTaken_quiet (h : (s.port n).unacked < 63) : PortMoves n s ((s.port n).took f) [] (flitTaken n f s) := by
  have hjoined := flitJoined_moves (n := n) (s := s) hcr
  obtain ⟨-, -, hunacked, -⟩ := (s.port n).took_fields f
  rw [flitTaken, hjoined.port, if_neg (by omega)]
  exact hjoined

theorem flitTaken_acks (h : 63 ≤ (s.port n).unacked) :
    PortMoves n s ((s.port n).took f).acked [ackFlit n false ((s.port n).took f)] (flitTaken n f s) := by
  have hjoined := flitJoined_moves (n := n) (s := s) hcr
  obtain ⟨-, -, hunacked, -⟩ := (s.port n).took_fields f
  have hack := sendAck_moves n false (flitJoined n f (flitAcked n f s))
  rw [hjoined.port] at hack
  rw [flitTaken, hjoined.port, if_pos (by omega)]
  exact hjoined.trans hack

/-- A flit in order, whether or not its acknowledgement leaves, leaves the port with it. -/
theorem flitTaken_port : ∃ q : Port, ((flitTaken n f s).port n) = q ∧ q.rxSeq = ((s.port n).took f).rxSeq ∧ q.nakSent = ((s.port n).took f).nakSent ∧
    q.partialPkt = ((s.port n).took f).partialPkt ∧ q.replayBuf = ((s.port n).took f).replayBuf ∧ q.credits = ((s.port n).took f).credits ∧
      (flitTaken n f s).chans = s.chans := by
  by_cases h : (s.port n).unacked < 63
  · have hmoves := flitTaken_quiet (n := n) (s := s) hcr h
    exact ⟨_, hmoves.port, rfl, rfl, rfl, rfl, rfl, hmoves.chans⟩
  · have hmoves := flitTaken_acks (n := n) (s := s) hcr (Nat.le_of_not_lt h)
    exact ⟨_, hmoves.port, rfl, rfl, rfl, rfl, rfl, hmoves.chans⟩

end

/-! ### The commands -/

theorem exec_flitReceive (hup : s.up = true) : exec (.flitReceive n f) s = .next (flitArrives n f s) := by
  change execFlitReceive n f s = _
  rw [execFlitReceive, whenUp_next hup]

theorem flitArrives_none {t : State} (h : flitReceive n f s = (none, t)) : flitArrives n f s = t := by rw [flitArrives, h]

theorem flitArrives_packet {t : State} {vc : Nat} {w : List Byte} (h : flitReceive n f s = (some (vc, w), t)) :
    flitArrives n f s = takePacket n vc w t := by rw [flitArrives, h]

section
variable (hactive : (s.port n).state = .active) (hgood : flitGood f = true) (hdata : flitHead f % 4 = 1) (hcr : flitCredit f < 32768)
include hactive hgood hdata hcr

theorem flitReceive_inOrder (hseq : flitSeq f = (s.port n).rxSeq) :
    flitReceive n f s = ((((s.port n).acknowledged (flitAck f) (flitCredit f)).joined f).1.map (fun w => (flitVc f, w)), flitTaken n f s) := by
  have hacked := flitAcked_plain (n := n) (s := s) hcr
  have hstill : ((flitAcked n f s).port n).state = .active := by rw [hacked.port]; exact hactive
  have hnext : ((flitAcked n f s).port n).rxSeq = (s.port n).rxSeq := by rw [hacked.port]; rfl
  rw [flitReceive_data hactive hgood hdata, if_neg (not_not.mpr hstill), hnext, if_pos hseq, hacked.port]
  rfl

theorem flitReceive_outOfOrder (hseq : flitSeq f ≠ (s.port n).rxSeq) :
    flitReceive n f s =
      (none, discardFlit n (decide ((flitSeq f + 65536 - (s.port n).rxSeq) % 65536 < 32768)) (flitAcked n f s)) := by
  have hacked := flitAcked_plain (n := n) (s := s) hcr
  have hstill : ((flitAcked n f s).port n).state = .active := by rw [hacked.port]; exact hactive
  have hnext : ((flitAcked n f s).port n).rxSeq = (s.port n).rxSeq := by rw [hacked.port]; rfl
  rw [flitReceive_data hactive hgood hdata, if_neg (not_not.mpr hstill), hnext, if_neg hseq]

end

theorem exec_replayTimeout (hup : s.up = true) :
    exec (.replayTimeout n) s = .next (if (s.port n).state = .active then replayFrom n s else s) := by
  change execReplayTimeout n s = _
  rw [execReplayTimeout, whenUp_next hup]

theorem exec_ackTimer (hup : s.up = true) :
    exec (.ackTimer n) s = .next (if (s.port n).state = .active ∧ ((s.port n).unacked ≠ 0 ∨ (s.port n).owed.any (fun n => n != 0)) then
      sendAck n false s else s) := by
  change execAckTimer n s = _
  rw [execAckTimer, whenUp_next hup]

end

/-- Settles O57: a flit by the port's state, its CRC, its kind and its number; the replay and the acknowledgement by what the port holds. -/
theorem flitsAreTakenAndReplayed : Obligations.FlitsAreTakenAndReplayed := by
  refine fun n s hup => ⟨fun f => ⟨fun hactive => ?inactive, fun hactive hbad hnak => ?badSilent, fun hactive hbad hnak => ?badNaks,
    fun hactive hgood => ⟨fun hkind => ?otherKind, fun hidle hcr => ?idle, fun hidle hcr hkept hsame hfew => ?idleNak, fun hdata hcr =>
      ⟨fun hseq heop => ?opens, fun hseq heop => ?ends, fun hold => ?older, fun hseq hlater => ?later⟩⟩⟩, fun hnone => ?noReplay,
    fun hactive hbuf => ?replays, fun hnone => ?noAck, fun hactive hdue => ?acks⟩
  case inactive => rw [exec_flitReceive hup, flitArrives_none (flitReceive_inactive hactive)]
  case badSilent =>
    rw [exec_flitReceive hup, flitArrives_none (flitReceive_bad hactive hbad), discardFlit_silent (.inr hnak), Port.discarding, hnak]
    rfl
  case badNaks =>
    have hmoves := discardFlit_naks (n := n) (s := s) hnak
    refine ⟨_, (exec_flitReceive hup).trans (congrArg _ (flitArrives_none (flitReceive_bad hactive hbad))), ?_, ?_, ?_, hmoves.chans, _, _, hmoves.out⟩
    · rw [hmoves.port]
      rfl
    · rw [hmoves.port]
      exact Bool.or_true _
    · rw [hmoves.port]
      rfl
  case otherKind => rw [exec_flitReceive hup, flitArrives_none (flitReceive_other hactive hgood hkind)]
  case idle =>
    have hacked := flitAcked_plain (n := n) (s := s) (f := f) hcr
    have hmoves := modPort_moves n (Port.credited (flitCredit f)) (flitAcked n f s)
    rw [hacked.port] at hmoves
    have hall := hacked.trans hmoves
    refine ⟨_, (exec_flitReceive hup).trans (congrArg _ (flitArrives_none (flitReceive_idle hactive hgood hidle))), ?_, ?_, ?_, hall.chans, hall.out⟩
    · rw [hall.port]
      rfl
    · rw [hall.port]
      rfl
    · rw [hall.port]
      rfl
  case idleNak =>
    have hset := setPort_moves n ((s.port n).acknowledged (flitAck f) (flitCredit f)) s
    have hreplays : ((s.port n).acknowledged (flitAck f) (flitCredit f)).replays = (s.port n).replays := if_neg (by exact Nat.not_lt.mpr hsame.ge)
    have hagain := replayFrom_again (n := n) (s := s.setPort n ((s.port n).acknowledged (flitAck f) (flitCredit f)))
      (by rw [hset.port]; exact hkept) (by rw [hset.port, hreplays]; exact hfew)
    have hacked : flitAcked n f s = replayFrom n (s.setPort n ((s.port n).acknowledged (flitAck f) (flitCredit f))) :=
      takeAck_nak hcr (leNat_word _)
    rw [← hacked, hset.port] at hagain
    have hmoves := modPort_moves n (Port.credited (flitCredit f)) (flitAcked n f s)
    rw [hagain.port] at hmoves
    have hall := (hset.trans hagain).trans hmoves
    refine ⟨_, (exec_flitReceive hup).trans (congrArg _ (flitArrives_none (flitReceive_idle hactive hgood hidle))), ?_, ?_, ?_, hall.chans, ?_⟩
    · rw [hall.port]
      rfl
    · rw [hall.port]
      rfl
    · rw [hall.port]
      rfl
    · rw [hall.out, List.nil_append, List.append_nil]
      rfl
  case opens =>
    have hopen : flitEop f = false := beq_eq_false_iff_ne.mpr (by change flitHead f / 32 % 2 = 0 at heop; omega)
    obtain ⟨hnone, hpart⟩ := ((s.port n).acknowledged (flitAck f) (flitCredit f)).joined_open hopen
    obtain ⟨hrx, hnak, hunacked, hbuf, hcredits⟩ := (s.port n).took_fields f
    obtain ⟨q, hq, hrx', hnak', hpart', hbuf', hcredits', hchans⟩ := flitTaken_port (n := n) (s := s) (f := f) hcr
    have harrives : flitArrives n f s = flitTaken n f s :=
      flitArrives_none (by rw [flitReceive_inOrder hactive hgood hdata hcr hseq, hnone]; rfl)
    refine ⟨_, (exec_flitReceive hup).trans (congrArg _ harrives), ?_, ?_, ?_, ?_, ?_, hchans, fun hfew => ?_, fun hmany => ?_⟩
    · rw [hq, hrx', hrx]
    · rw [hq, hnak', hnak]
    · rw [hq, hbuf', hbuf]
      rfl
    · rw [hq, hcredits', hcredits]
      rfl
    · rw [hq, hpart']
      exact (congrArg (tget (flitVc f)) hpart).trans (tget_tset_same _ _ _)
    · have hmoves := flitTaken_quiet (n := n) (s := s) (f := f) hcr hfew
      rw [hmoves.port]
      exact ⟨hunacked, hmoves.out⟩
    · have hmoves := flitTaken_acks (n := n) (s := s) (f := f) hcr hmany
      rw [hmoves.port]
      exact ⟨rfl, _, _, hmoves.out⟩
  case ends =>
    have hwhole : flitEop f = true := beq_iff_eq.mpr heop
    obtain ⟨hsome, hpart⟩ := ((s.port n).acknowledged (flitAck f) (flitCredit f)).joined_whole hwhole
    obtain ⟨hrx, hnak, -, -, hcredits⟩ := (s.port n).took_fields f
    obtain ⟨q, hq, hrx', hnak', hpart', -, hcredits', hchans⟩ := flitTaken_port (n := n) (s := s) (f := f) hcr
    have harrives : flitArrives n f s = takePacket n (flitVc f) ((s.port n).packetWith f) (flitTaken n f s) :=
      flitArrives_packet (by rw [flitReceive_inOrder hactive hgood hdata hcr hseq, hsome]; rfl)
    refine ⟨_, (exec_flitReceive hup).trans (congrArg _ harrives), ?_, ?_, ?_, ?_, hchans⟩
    · rw [hq, hrx', hrx]
    · rw [hq, hnak', hnak]
    · rw [hq, hpart']
      exact congrArg (tget (flitVc f)) hpart
    · rw [hq, hcredits', hcredits]
      rfl
  case older =>
    have hfar : ¬(flitSeq f + 65536 - (s.port n).rxSeq) % 65536 < 32768 := Nat.not_lt.mpr hold
    have hseq : flitSeq f ≠ (s.port n).rxSeq := by
      intro h
      omega
    have hacked := flitAcked_plain (n := n) (s := s) (f := f) hcr
    have harrives : flitArrives n f s = (flitAcked n f s).setPort n (((flitAcked n f s).port n).discarding false) := by
      rw [flitArrives_none (flitReceive_outOfOrder hactive hgood hdata hcr hseq), decide_eq_false hfar,
        discardFlit_silent (.inl rfl)]
    have hmoves := setPort_moves n (((flitAcked n f s).port n).discarding false) (flitAcked n f s)
    rw [hacked.port] at hmoves harrives
    have hall := hacked.trans hmoves
    refine ⟨_, (exec_flitReceive hup).trans (congrArg _ harrives), ?_, ?_, ?_, hall.chans, hall.out⟩
    · rw [hall.port]
      rfl
    · rw [hall.port]
      rfl
    · rw [hall.port]
      rfl
  case later =>
    have hacked := flitAcked_plain (n := n) (s := s) (f := f) hcr
    have harrives : flitArrives n f s = discardFlit n true (flitAcked n f s) := by
      rw [flitArrives_none (flitReceive_outOfOrder hactive hgood hdata hcr hseq)]
      exact congrArg (discardFlit n · _) (decide_eq_true hlater)
    refine ⟨_, (exec_flitReceive hup).trans (congrArg _ harrives), ?_⟩
    cases hnak : (s.port n).nakSent with
    | true =>
      have hmoves := setPort_moves n (((flitAcked n f s).port n).discarding true) (flitAcked n f s)
      rw [← discardFlit_silent (.inr (by rw [hacked.port]; exact hnak)), hacked.port] at hmoves
      have hall := hacked.trans hmoves
      rw [hall.port]
      exact ⟨rfl, rfl, Bool.or_true _, hall.chans, fun _ => hall.out, fun h => absurd h (by decide)⟩
    | false =>
      have hmoves := discardFlit_naks (n := n) (s := flitAcked n f s) (by rw [hacked.port]; exact hnak)
      rw [hacked.port] at hmoves
      have hall := hacked.trans hmoves
      rw [hall.port]
      exact ⟨rfl, rfl, Bool.or_true _, hall.chans, fun h => absurd h (by decide), fun _ => ⟨_, _, hall.out⟩⟩
  case noReplay =>
    rw [exec_replayTimeout hup]
    refine congrArg _ ?_
    split
    · rename_i hactive
      exact replayFrom_empty (hnone.resolve_left (not_not.mpr hactive))
    · rfl
  case replays =>
    have hexec : exec (.replayTimeout n) s = .next (replayFrom n s) := by rw [exec_replayTimeout hup, if_pos hactive]
    refine ⟨_, hexec, ?_⟩
    by_cases hfew : (s.port n).replays + 1 < fieldOf (eff 0x40010 s) 0 7
    · have hmoves := replayFrom_again hbuf hfew
      rw [hmoves.port]
      exact ⟨rfl, rfl, hmoves.chans, fun _ => ⟨hactive, hmoves.out⟩, fun hmany => absurd hfew (Nat.not_lt.mpr hmany)⟩
    · have hmoves := replayFrom_retrains hbuf (Nat.le_of_not_lt hfew)
      rw [hmoves.port]
      exact ⟨rfl, rfl, hmoves.chans, fun h => absurd h hfew, fun _ => ⟨rfl, hmoves.out⟩⟩
  case noAck =>
    rw [exec_ackTimer hup]
    refine congrArg _ (if_neg ?_)
    rintro ⟨hactive, hdue⟩
    obtain ⟨hunacked, howed⟩ := hnone.resolve_left (not_not.mpr hactive)
    obtain h | h := hdue
    · exact h hunacked
    · obtain ⟨v, hv, hne⟩ := List.any_eq_true.mp h
      simp [howed v hv] at hne
  case acks =>
    have hany : (s.port n).unacked ≠ 0 ∨ (s.port n).owed.any (fun n => n != 0) = true := by simpa using hdue
    have hmoves := sendAck_moves n false s
    refine ⟨_, _, _, (exec_ackTimer hup).trans (congrArg _ (if_pos ⟨hactive, hany⟩)), ?_, hmoves.out, hmoves.chans⟩
    rw [hmoves.port]
    rfl

end Sys2Proof.Machine
end

section
/-! Keys, debug unlock, provisioning and firmware (R447 to R472, R478). The settlement of O48, O49 and O50. -/

namespace Sys2Proof.Machine

open Sys2Proof

/-! ### The DRBG (R445) -/

/-- A draw changes the generator's counts and nothing else of the device. -/
theorem drbgDraw_other (n : Nat) (s : State) : (drbgDraw n s).2 =
    { s with freeIx := (drbgDraw n s).2.freeIx
             encl := { s.encl with drbgCount := (drbgDraw n s).2.encl.drbgCount, reseeds := (drbgDraw n s).2.encl.reseeds } } := by
  unfold drbgDraw
  dsimp only
  split <;> rfl

theorem drbgDraw_length (n : Nat) (s : State) : (drbgDraw n s).1.length = n := by simp [drbgDraw]

/-! ### Key release (R466, R467) -/

/-- The state with the key pair of a slot spent. -/
def kemSpent (slot : Nat) (s : State) : State :=
  { s with encl := { s.encl with kem := tset slot { kemSlot slot s with full := false } s.encl.kem } }

theorem kemSpent_empty (slot : Nat) (s : State) : (kemSlot slot (kemSpent slot s)).full = false := by
  simp [kemSlot, kemSpent]

theorem storeKey_kem (b : Blob) (key : List Byte) (s : State) : (storeKey b key s).encl.kem = s.encl.kem := by
  unfold storeKey
  dsimp only
  split <;> rfl

section
variable {b : Blob} {s : State}

theorem releaseKey_stale (h : ¬((kemSlot b.kemSlot s).full = true ∧ (kemSlot b.kemSlot s).useCount = b.kemCount)) :
    releaseKey b s = (.nonceStale, s) := by
  unfold releaseKey
  dsimp only
  rw [if_pos]
  cases hfull : (kemSlot b.kemSlot s).full
  · rfl
  · simpa [hfull] using h

section
variable (h : (kemSlot b.kemSlot s).full = true ∧ (kemSlot b.kemSlot s).useCount = b.kemCount)
include h

theorem releaseKey_digest (hdigest : (kemSlot b.kemSlot s).digest ≠ b.evDigest) : releaseKey b s = (.authFailed, kemSpent b.kemSlot s) := by
  unfold releaseKey
  dsimp only
  rw [if_neg (by simp [h.1, h.2]), if_pos hdigest]
  rfl

theorem releaseKey_opened (hdigest : (kemSlot b.kemSlot s).digest = b.evDigest) :
    releaseKey b s = match unwrapKey b (kemSlot b.kemSlot s) s with
      | none => (.authFailed, kemSpent b.kemSlot s)
      | some key => if s.encl.runningSvn < b.minSvn then (.versionRevoked, kemSpent b.kemSlot s) else (.ok, storeKey b key (kemSpent b.kemSlot s)) := by
  unfold releaseKey
  dsimp only
  rw [if_neg (by simp [h.1, h.2]), if_neg (not_not.mpr hdigest)]
  rfl

end

theorem releaseCheck_kind {kind fn addr len : Nat} (h : releaseCheck kind fn addr len b s = none) : b.kind = kind := by
  by_contra hkind
  unfold releaseCheck at h
  simp only [hkind, ne_eq, not_false_eq_true, true_or, if_true] at h
  (repeat' split at h) <;> simp at h

theorem keyRelease_refused {opcode kind fn addr len : Nat} {d : Hdr} {st : Status} (h : releaseCheck kind fn addr len b s = some st) :
    keyRelease opcode kind d addr len b fn s = complete d opcode st [] [] s := by
  rw [keyRelease, h]

theorem keyRelease_tried {opcode kind fn addr len : Nat} {d : Hdr} (h : releaseCheck kind fn addr len b s = none) :
    keyRelease opcode kind d addr len b fn s = complete d opcode (releaseKey b s).1 [] [] (releaseKey b s).2 := by
  rw [keyRelease, h]

end

theorem storeKey_weight {b : Blob} (h : b.kind = 1) (key : List Byte) (s : State) :
    storeKey b key s = { s with encl := { s.encl with weightKeys := tset (b.target % 64) key s.encl.weightKeys } } := if_pos h

/-- What the previous group key is once a key of a generation is the current one. -/
def groupPrevAfter (gen : Nat) (e : Enclave) : Option (Nat × List Byte) :=
  match e.groupCur with
  | some g => if g.1 = gen then e.groupPrev else some g
  | none => e.groupPrev

theorem storeKey_group {b : Blob} (h : b.kind = 2) (key : List Byte) (s : State) :
    storeKey b key s = { s with encl := { s.encl with groupCur := some (b.gen, key), groupPrev := groupPrevAfter b.gen s.encl } } :=
  if_neg (by rw [h]; decide)

/-- The state with a weight key erased. -/
def weightErased (slot : Nat) (s : State) : State := { s with encl := { s.encl with weightKeys := tdel slot s.encl.weightKeys } }

section
variable {d : Hdr} {fn target : Nat} {s : State}

theorem exec_opKeyRelease {addr len : Nat} {b : Blob} (hacc : Accepts 0x69 d fn target s) :
    exec (.opKeyRelease d addr len b) s = .next (keyRelease 0x69 1 d addr len b fn s) := by
  change execOpKeyRelease d addr len b s = _
  rw [execOpKeyRelease, accept_next hacc]

theorem exec_opGroupKey {addr len : Nat} {b : Blob} (hacc : Accepts 0x6A d fn target s) :
    exec (.opGroupKey d addr len b) s = .next (keyRelease 0x6A 2 d addr len b fn s) := by
  change execOpGroupKey d addr len b s = _
  rw [execOpGroupKey, accept_next hacc]

theorem exec_keyErase {slot : Nat} (hacc : Accepts 0x69 d fn target s) :
    exec (.keyErase d slot) s = .next (if 64 ≤ slot then complete d 0x69 .paramInvalid [] [] s
      else if !keysAllowed s then complete d 0x69 .lifecycle [] [] s
      else complete d 0x69 .ok [] [] (weightErased slot s)) := by
  change execKeyErase d slot s = _
  rw [execKeyErase, accept_next hacc]
  rfl

theorem exec_groupKeyErase {i : Nat} (hacc : Accepts 0x6A d fn target s) :
    exec (.groupKeyErase d i) s = .next (if 2 ≤ i then complete d 0x6A .paramInvalid [] [] s
      else if !keysAllowed s then complete d 0x6A .lifecycle [] [] s
      else complete d 0x6A .ok [] [] { s with encl := if i = 0 then { s.encl with groupCur := none } else { s.encl with groupPrev := none } }) := by
  change execGroupKeyErase d i s = _
  rw [execGroupKeyErase, accept_next hacc]

/-! ### Evidence (R460, R461) -/

theorem exec_opEvidenceGet {nonce : List Byte} {oa cap : Nat} {kem : Bool} (hacc : Accepts 0x68 d fn target s) :
    exec (.opEvidenceGet d nonce oa cap kem) s = .next (evidenceGet d nonce oa cap kem fn s) := by
  change execOpEvidenceGet d nonce oa cap kem s = _
  rw [execOpEvidenceGet, accept_next hacc]

/-- The number of the key pair that evidence brings. -/
def kemId (kem : Bool) (s : State) : Nat := if kem then kemPick s + 16 * kemUse (kemPick s) s else 4294967295

/-- The record of evidence. -/
def evidenceOf (nonce : List Byte) (kem : Bool) (s : State) : List Byte :=
  evidenceRecord nonce (if kem then some (s.freeIx, kemId kem s) else none) s

/-- The state with the key pair of evidence made. -/
def evidenceMade (nonce : List Byte) (kem : Bool) (s : State) : State :=
  if kem then
    { (drbgDraw 64 s).2 with encl := { (drbgDraw 64 s).2.encl with
      kem := tset (kemPick s) ⟨true, kemUse (kemPick s) s, s.now, s.freeIx, Config.sha3 (evidenceOf nonce kem s)⟩ (drbgDraw 64 s).2.encl.kem } }
  else s.advanceFree

theorem evidenceGet_checked {nonce : List Byte} {oa cap : Nat} {kem : Bool} (hmin : 1 ≤ cap) (hmax : cap ≤ 4096) :
    evidenceGet d nonce oa cap kem fn s =
      match rangeCheck fn oa cap s with
      | some st => complete d 0x68 st [] [] s
      | none =>
        if cap < (evidenceOf nonce kem s).length then complete d 0x68 .lenExceedsBuffer [(evidenceOf nonce kem s).length, 4294967295] [] s
        else if kem ∧ s.encl.fuses.lifecycle = 0 then complete d 0x68 .lifecycle [] [] s
        else addOp 0x68 d fn 8 [(oa, cap)] true
          (.ready .ok [(evidenceOf nonce kem s).length, kemId kem s] [(oa, .bytes (evidenceOf nonce kem s))]) (evidenceMade nonce kem s) := by
  unfold evidenceGet
  rw [if_neg (by omega), if_neg (by omega)]
  cases kem <;> rfl

theorem evidenceMade_leaves (nonce : List Byte) (kem : Bool) (s : State) :
    (evidenceMade nonce kem s).ops = s.ops ∧ (evidenceMade nonce kem s).encl.weightKeys = s.encl.weightKeys ∧
      (evidenceMade nonce kem s).chans = s.chans := by
  unfold evidenceMade
  split
  · rw [drbgDraw_other]
    exact ⟨rfl, rfl, rfl⟩
  · exact ⟨rfl, rfl, rfl⟩

theorem evidenceMade_other {nonce : List Byte} {kem : Bool} {j : Nat} (h : kem = false ∨ j ≠ kemPick s) :
    kemSlot j (evidenceMade nonce kem s) = kemSlot j s := by
  unfold evidenceMade
  split
  · rename_i hkem
    rw [drbgDraw_other]
    simp [kemSlot, tget_tset_other _ _ _ _ (h.resolve_left (by simp [hkem]))]
  · rfl

theorem evidenceMade_slot (nonce : List Byte) (s : State) :
    kemSlot (kemPick s) (evidenceMade nonce true s) =
      ⟨true, kemUse (kemPick s) s, s.now, s.freeIx, Config.sha3 (evidenceOf nonce true s)⟩ := by
  simp [evidenceMade, kemSlot]

end

/-- Settles O48: releases by the key pair, the digest and the wrapping; erases by what they name; evidence by its room. -/
theorem keysAreReleasedAndErased : Obligations.KeysAreReleasedAndErased := by
  refine fun d fn target s => ⟨fun addr len b => ⟨fun hacc => ⟨fun st hst => ?weightRefused, fun hnone => ⟨releaseCheck_kind hnone, fun hstale => ?weightStale,
    fun hlive => ?weight⟩⟩, fun hacc => ⟨fun st hst => ?groupRefused, fun hnone => ⟨fun hstale => ?groupStale, fun hlive => ?group⟩⟩⟩,
    fun slot hacc => ⟨fun hslot => ?eraseRange, fun hslot hkeys => ?erased, fun hslot hkeys => ?eraseLocked⟩,
    fun i hacc => ⟨fun hi => ?groupRange, fun hi hkeys => ?groupLocked⟩, fun hacc hkeys => ⟨?eraseCurrent, ?erasePrevious⟩,
    fun nonce oa cap kem hacc => ⟨fun hcap => ?capZero, fun hcap => ?capMax, fun hmin hmax => ⟨fun st hrange => ?range, fun hrange =>
      ⟨fun hshort => ?short, fun hfits => ⟨fun hkem hlife => ?lifecycle, fun hmay => ?evidence⟩⟩⟩⟩⟩
  case weightRefused => rw [exec_opKeyRelease hacc, keyRelease_refused hst]
  case weightStale => rw [exec_opKeyRelease hacc, keyRelease_tried hnone, releaseKey_stale hstale]
  case weight =>
    have hkind := releaseCheck_kind hnone
    have hexec := (exec_opKeyRelease hacc).trans (congrArg _ (keyRelease_tried (opcode := 0x69) (d := d) hnone))
    refine ⟨_, _, hexec, ?_⟩
    by_cases hdigest : (kemSlot b.kemSlot s).digest = b.evDigest
    · rw [releaseKey_opened hlive hdigest]
      cases hkey : unwrapKey b (kemSlot b.kemSlot s) s with
      | none => exact ⟨kemSpent_empty _ s, rfl, rfl, rfl, fun h => absurd hdigest h, fun _ => ⟨rfl, rfl⟩⟩
      | some key =>
        dsimp only
        by_cases hsvn : s.encl.runningSvn < b.minSvn
        · rw [if_pos hsvn, if_pos hsvn]
          exact ⟨kemSpent_empty _ s, rfl, rfl, rfl, fun h => absurd hdigest h, fun _ => ⟨rfl, rfl⟩⟩
        · rw [if_neg hsvn, if_neg hsvn, storeKey_weight hkind]
          exact ⟨kemSpent_empty _ s, rfl, rfl, rfl, fun h => absurd hdigest h, fun _ => ⟨rfl, rfl⟩⟩
    · rw [releaseKey_digest hlive hdigest]
      exact ⟨kemSpent_empty _ s, rfl, rfl, rfl, fun _ => ⟨rfl, rfl⟩, fun h => absurd h hdigest⟩
  case groupRefused => rw [exec_opGroupKey hacc, keyRelease_refused hst]
  case groupStale => rw [exec_opGroupKey hacc, keyRelease_tried hnone, releaseKey_stale hstale]
  case group =>
    have hkind := releaseCheck_kind hnone
    have hexec := (exec_opGroupKey hacc).trans (congrArg _ (keyRelease_tried (opcode := 0x6A) (d := d) hnone))
    refine ⟨_, _, hexec, ?_⟩
    by_cases hdigest : (kemSlot b.kemSlot s).digest = b.evDigest
    · rw [releaseKey_opened hlive hdigest]
      cases hkey : unwrapKey b (kemSlot b.kemSlot s) s with
      | none => exact ⟨kemSpent_empty _ s, rfl, rfl, fun h => absurd hdigest h, fun _ => ⟨rfl, rfl, rfl⟩⟩
      | some key =>
        dsimp only
        by_cases hsvn : s.encl.runningSvn < b.minSvn
        · rw [if_pos hsvn, if_pos hsvn]
          exact ⟨kemSpent_empty _ s, rfl, rfl, fun h => absurd hdigest h, fun _ => ⟨rfl, rfl⟩⟩
        · rw [if_neg hsvn, if_neg hsvn, storeKey_group hkind]
          refine ⟨kemSpent_empty _ s, rfl, rfl, fun h => absurd hdigest h, fun _ => ⟨rfl, rfl, fun g hg => ?_⟩⟩
          change groupPrevAfter b.gen s.encl = _
          rw [groupPrevAfter, hg]
    · rw [releaseKey_digest hlive hdigest]
      exact ⟨kemSpent_empty _ s, rfl, rfl, fun _ => ⟨rfl, rfl, rfl⟩, fun h => absurd h hdigest⟩
  case eraseRange => rw [exec_keyErase hacc, if_pos hslot]
  case eraseLocked => rw [exec_keyErase hacc, if_neg (Nat.not_le.mpr hslot), if_pos (by simp [hkeys])]
  case erased =>
    refine ⟨weightErased slot s, ?_, ?_, fun j hj => ?_⟩
    · rw [exec_keyErase hacc, if_neg (Nat.not_le.mpr hslot), if_neg (by simp [hkeys])]
    · exact tget_tdel_same _ _
    · exact tget_tdel_other _ hj
  case groupRange => rw [exec_groupKeyErase hacc, if_pos hi]
  case groupLocked => rw [exec_groupKeyErase hacc, if_neg (Nat.not_le.mpr hi), if_pos (by simp [hkeys])]
  case eraseCurrent => rw [exec_groupKeyErase hacc, if_neg (by decide), if_neg (by simp [hkeys]), if_pos rfl]
  case erasePrevious => rw [exec_groupKeyErase hacc, if_neg (by decide), if_neg (by simp [hkeys]), if_neg (by decide)]
  case capZero => rw [exec_opEvidenceGet hacc, evidenceGet, if_pos hcap]
  case capMax => rw [exec_opEvidenceGet hacc, evidenceGet, if_neg (by omega), if_pos hcap]
  case range => rw [exec_opEvidenceGet hacc, evidenceGet_checked hmin hmax, hrange]
  case short =>
    rw [exec_opEvidenceGet hacc, evidenceGet_checked hmin hmax, hrange]
    exact congrArg _ (if_pos hshort)
  case lifecycle =>
    rw [exec_opEvidenceGet hacc, evidenceGet_checked hmin hmax, hrange]
    exact congrArg _ ((if_neg (Nat.not_lt.mpr hfits)).trans (if_pos ⟨hkem, hlife⟩))
  case evidence =>
    obtain ⟨hops, hkeys, hchans⟩ := evidenceMade_leaves nonce kem s
    refine ⟨evidenceMade nonce kem s, ?_, hops, hkeys, hchans, fun j hj => evidenceMade_other hj, ?_⟩
    · rw [exec_opEvidenceGet hacc, evidenceGet_checked hmin hmax, hrange]
      exact congrArg _ ((if_neg (Nat.not_lt.mpr hfits)).trans (if_neg (by rintro ⟨hkem, hlife⟩; simp [hkem, hlife] at hmay)))
    · rintro rfl
      rw [evidenceMade_slot]
      exact ⟨rfl, rfl, rfl⟩

/-! ### Debug unlock (R470 to R472) -/

section
variable {d : Hdr} {fn target addr : Nat} {s : State} (hacc : Accepts 0x6B d fn target s)
include hacc

theorem exec_debugChallenge : exec (.debugChallenge d addr) s = .next (match rangeCheck fn addr 32 s with
    | some st => complete d 0x6B st [] [] s
    | none => complete d 0x6B .ok [] [(addr, .bytes (drbgDraw 32 s).1)]
        { (drbgDraw 32 s).2 with encl := { (drbgDraw 32 s).2.encl with nonce := some (drbgDraw 32 s).1 } }) := by
  change execDebugChallenge d addr s = _
  rw [execDebugChallenge, accept_next hacc] <;> rfl

theorem exec_debugSubmit {len : Nat} {t : Token} : exec (.debugSubmit d addr len t) s = .next (debugSubmit d addr len t fn s) := by
  change execDebugSubmit d addr len t s = _
  rw [execDebugSubmit, accept_next hacc]

end

/-- The state with the debug nonce spent. -/
def nonceSpent (s : State) : State := { s with encl := { s.encl with nonce := none } }

section
variable {d : Hdr} {fn addr : Nat} {t : Token} {s : State} (hrange : rangeCheck fn addr 235 s = none)
include hrange

theorem debugSubmit_stale (h : s.encl.nonce ≠ some t.nonce ∨ t.serial ≠ s.encl.fuses.serial) :
    debugSubmit d addr 235 t fn s = complete d 0x6B .nonceStale [] [] (nonceSpent s) := by
  rw [debugSubmit, if_neg (by decide), hrange]
  exact if_pos h

theorem debugSubmit_fresh (hnonce : s.encl.nonce = some t.nonce) (hserial : t.serial = s.encl.fuses.serial) :
    debugSubmit d addr 235 t fn s =
      if !tokenSigned t s.encl.fuses then complete d 0x6B .signatureInvalid [] [] (nonceSpent s)
      else if !tokenPermitted t s.encl.fuses then complete d 0x6B .lifecycle [] [] (nonceSpent s)
      else if t.kind = 2 then
        complete d 0x6B .ok [] [] { s with encl := { s.encl with nonce := none, fuses := { s.encl.fuses with lifecycle := 2 } } }
      else openDebug d t fn (nonceSpent s) := by
  rw [debugSubmit, if_neg (by decide), hrange]
  exact if_neg (not_or.mpr ⟨not_not.mpr hnonce, not_not.mpr hserial⟩)

end

/-- Every channel reset begins (R472). -/
def resetChannels (s : State) : State := (List.range 8).foldl (fun s n => beginChanReset n s) s

theorem resetChannels_leaves (s : State) : (resetChannels s).now = s.now ∧ (resetChannels s).encl.fuses = s.encl.fuses :=
  List.foldlRecOn (motive := fun u : State => u.now = s.now ∧ u.encl.fuses = s.encl.fuses) (List.range 8) _ ⟨rfl, rfl⟩ fun u hu n _ =>
    ⟨(beginChanReset_now n u).trans hu.1, (beginChanReset_kept n u).2.1.trans hu.2⟩

/-- Every released key erased, and no more released (R472). -/
def keysBarred (s : State) : State := { zeroise s with encl := { (zeroise s).encl with barred := true } }

theorem openDebug_eq (d : Hdr) (t : Token) (fn : Nat) (s : State) :
    openDebug d t fn s = addOp 0x6B d fn 8 [] true (.debugOpen (t.kind == 3) t.jtag t.trace) (resetChannels (keysBarred s)) := rfl

theorem openDebug_leaves (d : Hdr) (t : Token) (fn : Nat) (s : State) :
    (openDebug d t fn s).ops.getLast? = some ⟨d, fn, 0x6B, 8, true, false, s.now, [], .debugOpen (t.kind == 3) t.jtag t.trace⟩ ∧
      (openDebug d t fn s).encl.fuses = s.encl.fuses := by
  obtain ⟨hnow, hfuses⟩ := resetChannels_leaves (keysBarred s)
  rw [openDebug_eq]
  generalize resetChannels (keysBarred s) = u at *
  have hnow' : u.now = s.now := hnow
  rw [addOp, hnow', List.getLast?_concat]
  exact ⟨rfl, hfuses⟩

/-! ### Provisioning and the enclave's error (R447, R448, R451) -/

theorem exec_provisioningSequence {sn fw dbg own : List Byte} {s : State} (hup : s.up = true) :
    exec (.provisioningSequence sn fw dbg own) s = .next (provision sn fw dbg own s) := by
  change execProvisioningSequence sn fw dbg own s = _
  rw [execProvisioningSequence, whenUp_next hup]

theorem exec_enclaveError {cause : Nat} {s : State} (hup : s.up = true) : exec (.enclaveError cause) s = .next (enclaveError cause s) := by
  change execEnclaveError cause s = _
  rw [execEnclaveError, whenUp_next hup]

/-- A channel with its keys erased. -/
def Chan.zeroised (c : Chan) : Chan := { c with keys := [], pool := { c.pool with xts := [] } }

theorem zeroise_keys (n : Nat) (s : State) : ((zeroise s).chan n).keys = [] := by
  have hchan : tget n (zeroise s).chans = (tget n s.chans).map Chan.zeroised := tget_map (fun _ => Chan.zeroised) n s.chans
  rw [State.chan, hchan]
  cases tget n s.chans <;> rfl

/-- Settles O49: the challenge, the token by its checks, provisioning by the lifecycle, and the error. -/
theorem debugProvisioningAndErrors : Obligations.DebugProvisioningAndErrors := by
  refine fun d fn target addr s hup => ⟨fun st hacc hrange => ?challengeRange, fun hacc hrange => ?challenge, fun t len hacc => ⟨fun hlen => ?length,
    fun st hlen hrange => ?submitRange⟩, fun t hacc hrange => ⟨fun hstale => ?stale, fun hnonce hserial => ?token⟩,
    fun sn fw dbg own => ⟨fun hburnt => ?provisioned, fun hblank => ?provisions⟩, fun cause => ?error⟩
  case challengeRange => rw [exec_debugChallenge hacc, hrange]
  case challenge =>
    have hother := drbgDraw_other 32 s
    refine ⟨_, (drbgDraw 32 s).1, (exec_debugChallenge hacc).trans (by rw [hrange]), drbgDraw_length 32 s, rfl, ?_, ?_⟩
    · rw [hother]
    · rw [hother]
  case length => rw [exec_debugSubmit hacc, debugSubmit, if_pos hlen]
  case submitRange => rw [exec_debugSubmit hacc, debugSubmit, if_neg (not_not.mpr hlen), hrange]
  case stale =>
    rw [exec_debugSubmit hacc, debugSubmit_stale hrange hstale]
    rfl
  case token =>
    have hfresh := debugSubmit_fresh (d := d) hrange hnonce hserial
    rw [exec_debugSubmit hacc, hfresh]
    by_cases hsigned : tokenSigned t s.encl.fuses = false
    · rw [if_pos hsigned]
      exact congrArg _ (if_pos (by simp [hsigned]))
    · have hsigned' : ¬(!tokenSigned t s.encl.fuses) = true := by simpa using hsigned
      rw [if_neg hsigned]
      by_cases hpermitted : tokenPermitted t s.encl.fuses = false
      · rw [if_pos hpermitted]
        exact congrArg _ ((if_neg hsigned').trans (if_pos (by simp [hpermitted])))
      · have hpermitted' : ¬(!tokenPermitted t s.encl.fuses) = true := by simpa using hpermitted
        rw [if_neg hpermitted]
        by_cases hkind : t.kind = 2
        · rw [if_pos hkind]
          exact congrArg _ ((if_neg hsigned').trans ((if_neg hpermitted').trans (if_pos hkind)))
        · rw [if_neg hkind]
          obtain ⟨hlast, hfuses⟩ := openDebug_leaves d t fn (nonceSpent s)
          exact ⟨rfl, rfl, _, congrArg _ ((if_neg hsigned').trans ((if_neg hpermitted').trans (if_neg hkind))), hlast, hfuses, rfl⟩
  case provisioned => rw [exec_provisioningSequence hup, provision, if_pos hburnt]
  case provisions =>
    have hsvn : (drbgDraw 64 s).2.encl.fuses.svn = s.encl.fuses.svn := by rw [drbgDraw_other]
    have hchans : (drbgDraw 64 s).2.chans = s.chans := by rw [drbgDraw_other]
    refine ⟨_, (exec_provisioningSequence hup).trans (congrArg _ (if_neg (not_not.mpr hblank))), rfl, rfl, rfl, rfl, rfl, drbgDraw_length 64 s, hsvn, hchans⟩
  case error =>
    exact ⟨_, exec_enclaveError hup, rfl, rfl, rfl, rfl, rfl, fun n => zeroise_keys n s, rfl, rfl, rfl, goOffline_up _⟩

/-! ### What an event leaves of the outstanding operations -/

/-- Only the host side changes, and no operation of it. -/
structure EventSide (s t : State) : Prop where
  host : HostSide s t
  ops : t.ops = s.ops

theorem EventSide.refl (s : State) : EventSide s s := ⟨.refl s, rfl⟩

theorem EventSide.trans {s t u : State} (h : EventSide s t) (g : EventSide t u) : EventSide s u := ⟨h.host.trans g.host, g.ops.trans h.ops⟩

theorem raiseEvent_side (fn : Nat) (ev : Event) (src : Nat) (s : State) : EventSide s (raiseEvent fn ev src s) :=
  ⟨raiseEvent_host fn ev src s, (raiseEvent_keepsPosting fn ev src s).ops⟩

theorem traceEvents_side (before s : State) : EventSide s (traceEvents before s) := by
  unfold traceEvents
  extract_lets dbg raw t
  have ht : EventSide s t := by
    unfold t
    split
    · exact raiseEvent_side _ _ _ _
    · exact .refl s
  split
  · exact ht.trans (raiseEvent_side _ _ _ _)
  · exact ht

/-- The state in MGMT_CONGESTED or out of it. -/
def withCongested (b : Bool) (s : State) : State := { s with mgmt := { s.mgmt with congested := b } }

theorem withCongested_self (s : State) : withCongested s.mgmt.congested s = s := rfl

theorem EventSide.congested {s t : State} (h : EventSide s t) (b : Bool) : EventSide (withCongested b s) (withCongested b t) := by
  refine ⟨?_, h.ops⟩
  rw [h.host]
  rfl

theorem enterCongested_side (s : State) : EventSide (withCongested true s) (enterCongested s) := by
  unfold enterCongested
  split
  · rename_i h
    rw [← h, withCongested_self]
    exact .refl s
  · exact raiseEvent_side _ _ _ _

theorem relieve_side (s : State) : ∃ b, EventSide (withCongested b s) (relieve s) := by
  unfold relieve leaveCongested
  split
  · split
    · exact ⟨false, raiseEvent_side _ _ _ _⟩
    · exact ⟨s.mgmt.congested, .refl s⟩
  · exact ⟨s.mgmt.congested, .refl s⟩

theorem EventSide.mgmt {s t : State} (h : EventSide s t) : t.mgmt = s.mgmt := by rw [h.host]

theorem EventSide.encl {s t : State} (h : EventSide s t) : t.encl = s.encl := by rw [h.host]

theorem EventSide.now {s t : State} (h : EventSide s t) : t.now = s.now := by rw [h.host]

/-! ### Firmware (R458, R459, R478) -/

/-- The state in which a restart of service firmware has begun. -/
def restarting (cause : Nat) (s : State) : State := { s with mgmt := { s.mgmt with restarting := true, restartCause := cause, crashDump := true } }

theorem startRestart_side (cause : Nat) (s : State) : EventSide (withCongested true (restarting cause s)) (startRestart cause s) := by
  exact ((traceEvents_side s (restarting cause s)).congested true).trans (enterCongested_side _)

/-- An OP_FW_UPDATE is accepted also where no service image verified (R458). -/
abbrev AcceptsUpdate (d : Hdr) (fn : Nat) (s : State) : Prop :=
  s.up = true ∧ ringLive d.ring s = true ∧ commonCheck 0x6C d s = none ∧ (s.ring d.ring).owner = fn

theorem accept_update {d : Hdr} {fn : Nat} {f : Nat → Nat → State → State} {s : State} (h : AcceptsUpdate d fn s) :
    accept 0x6C d f s = .next (f fn (s.ring d.ring).target s) := by
  obtain ⟨hup, hlive, hcheck, rfl⟩ := h
  simp [accept, whenUp, hup, hlive, hcheck]

section
variable {d : Hdr} {fn : Nat} {s : State} (hacc : AcceptsUpdate d fn s)
include hacc

theorem exec_fwStage {addr len : Nat} {i : FwImage} : exec (.fwStage d addr len i) s = .next (fwStage d addr len i fn s) := by
  change execFwStage d addr len i s = _
  rw [execFwStage, accept_update hacc]

theorem exec_fwActivate : exec (.fwActivate d) s = .next (fwActivate d fn s) := by
  change execFwActivate d s = _
  rw [execFwActivate, accept_update hacc]

theorem exec_fwCommitSvn : exec (.fwCommitSvn d) s = .next (if fwRuns s then complete d 0x6C .mgmtBusy [] [] s
    else if !s.encl.bootConfirmed then complete d 0x6C .notPermitted [] [] s
    else fwReady d fn [] { s with encl := { s.encl with fuses := { s.encl.fuses with svn := max s.encl.fuses.svn s.encl.runningSvn } } }) := by
  change execFwCommitSvn d s = _
  rw [execFwCommitSvn, accept_update hacc]

end

section
variable {d : Hdr} {fn : Nat} {i : FwImage} {s : State}

/-- The state with an image in the slot that is not active. -/
def imageStaged (i : FwImage) (s : State) : State :=
  { s with encl := if s.encl.bootActive then { s.encl with slotA := some i } else { s.encl with slotB := some i } }

theorem fwStage_checked {addr len : Nat} (hidle : fwRuns s = false) (hmin : 256 ≤ len) (hmax : len ≤ 33554432)
    (hrange : rangeCheck fn addr len s = none) :
    fwStage d addr len i fn s = match imageCheck i s with
      | some st => complete d 0x6C st [] [] s
      | none => fwReady d fn [(addr, len)] (imageStaged i s) := by
  rw [fwStage, if_neg (by simp [hidle]), if_neg (by omega), hrange]
  rfl

theorem imageStaged_leaves (i : FwImage) (s : State) :
    slotImage (!s.encl.bootActive) (imageStaged i s) = some i ∧ slotImage s.encl.bootActive (imageStaged i s) = slotImage s.encl.bootActive s ∧
      (imageStaged i s).encl.bootActive = s.encl.bootActive ∧ (imageStaged i s).encl.fuses = s.encl.fuses ∧
      (imageStaged i s).encl.runningSvn = s.encl.runningSvn := by
  unfold imageStaged slotImage
  cases h : s.encl.bootActive <;> simp [h]

/-- The state with the other slot's image to be tried. -/
def slotSwitched (s : State) : State :=
  { s with encl := { s.encl with bootActive := !s.encl.bootActive, bootTrying := true, bootConfirmed := false, bootTries := 0 } }

theorem fwActivate_held (hidle : fwRuns s = false) (hslot : slotImage (!s.encl.bootActive) s = some i) :
    fwActivate d fn s = match imageCheck i s with
      | some st => complete d 0x6C st [] [] s
      | none => fwReady d fn [] (startRestart 2 (slotSwitched s)) := by
  rw [fwActivate, if_neg (by simp [hidle]), hslot]
  rfl

end

/-! ### The watchdog and the end of a restart (R458, R478) -/

section
variable {s : State} (hup : s.up = true)
include hup

theorem exec_fwConfirm : exec .fwConfirm s =
    .next (if s.encl.state = .ready ∧ !s.mgmt.restarting ∧ s.now ≤ s.encl.startedAt + 2000000000 then
      { s with encl := { s.encl with bootConfirmed := true } } else s) := by
  change execFwConfirm s = _
  rw [execFwConfirm, whenUp_next hup]

theorem exec_watchdogExpiry : exec .watchdogExpiry s = .next (watchdogExpiry s) := by
  change execWatchdogExpiry s = _
  rw [execWatchdogExpiry, whenUp_next hup]

theorem exec_fwRestartDone (n : Nat) : exec (.fwRestartDone n) s = .next (restartDone n s) := by
  change execFwRestartDone n s = _
  rw [execFwRestartDone, whenUp_next hup]

end

/-- The restarts of the last 10 s, with the one at hand. -/
def recentRestarts (s : State) : List Nat := s.now :: s.mgmt.restarts.filter (fun t => decide (s.now ≤ t + 10000000000))

/-- The state with a restart counted. -/
def restartCounted (s : State) : State := { s with mgmt := { s.mgmt with restarts := recentRestarts s } }

theorem watchdogExpiry_runs {s : State} (hrun : s.mgmt.restarting = false) (hfirm : s.encl.state ≠ .noFirmware) :
    watchdogExpiry s = if 4 ≤ (recentRestarts s).length then { restartCounted s with encl := { s.encl with state := .noFirmware } }
      else startRestart 1 (restartCounted s) := by
  rw [watchdogExpiry, if_neg (by simp [hrun, hfirm])]
  rfl

/-- The state at items 4 and 5 of R478, before its events. -/
def restartEnded (s : State) : State :=
  { s with mgmt := { s.mgmt with restarting := false, crashDump := false, kickedAt := s.now }, encl := { s.encl with startedAt := s.now } }

theorem restartDone_idle {s : State} (h : s.mgmt.restarting = false) (n : Nat) : restartDone n s = s := by
  rw [restartDone, if_pos (by simp [h])]

/-- The state with the image that runs, after an activation. -/
def imageRun (s : State) : State := if s.mgmt.restartCause = 2 then runImage (restartEnded s) else restartEnded s

theorem restartDone_side {s : State} (h : s.mgmt.restarting = true) (n : Nat) : ∃ b, EventSide (withCongested b (imageRun s)) (restartDone n s) := by
  rw [restartDone, if_neg (by simp [h])]
  dsimp only
  have hevents := (traceEvents_side s (imageRun s)).trans (raiseEvent_side 0 (.mgmtRestart s.mgmt.restartCause n) 8 (traceEvents s (imageRun s)))
  change ∃ b, EventSide _ (relieve (raiseEvent 0 (.mgmtRestart s.mgmt.restartCause n) 8 (traceEvents s (imageRun s))))
  generalize raiseEvent 0 (.mgmtRestart s.mgmt.restartCause n) 8 (traceEvents s (imageRun s)) = u at *
  obtain ⟨b, hb⟩ := relieve_side u
  exact ⟨b, (hevents.congested b).trans hb⟩

theorem imageRun_leaves (s : State) :
    (imageRun s).mgmt = (restartEnded s).mgmt ∧ (imageRun s).encl.startedAt = s.now ∧ (imageRun s).chans = s.chans ∧ (imageRun s).ops = s.ops := by
  unfold imageRun runImage
  (repeat' split) <;> exact ⟨rfl, rfl, rfl, rfl⟩

theorem imageRun_activated {s : State} {j : FwImage} (hcause : s.mgmt.restartCause = 2) (hslot : slotImage s.encl.bootActive s = some j) :
    (imageRun s).encl.runningSvn = j.svn := by
  have hslot' : slotImage (restartEnded s).encl.bootActive (restartEnded s) = some j := hslot
  rw [imageRun, if_pos hcause, runImage, hslot']

/-- Settles O50: the three updates by what runs and what checks; confirmation, the watchdog and the restart's end by their times. -/
theorem firmwareIsUpdatedAndRestarted : Obligations.FirmwareIsUpdatedAndRestarted := by
  refine fun d fn addr len i s => ⟨fun hup hlive hcheck howner => have hacc : AcceptsUpdate d fn s := ⟨hup, hlive, hcheck, howner⟩; ⟨fun hruns => ?busy, fun hidle => ⟨fun hlen => ?length, fun st hmin hmax hrange => ?range,
    fun hmin hmax hrange => ?stage, fun hnone => ?noImage, fun hslot => ?activate, fun hconfirmed => ?commit, fun hunconfirmed => ?notConfirmed⟩⟩,
    fun hup => ⟨fun hready hrun hsoon => ?confirm, fun hlate => ?late, fun hheld => ?watchdogHeld, fun hrun hfirm => ⟨fun hfew => ?restarts,
    fun hmany => ?halts⟩, fun hrun n => ?noRestart, fun n hrun => ?restarted⟩⟩
  case busy =>
    rw [exec_fwStage hacc, exec_fwActivate hacc, exec_fwCommitSvn hacc, fwStage, fwActivate, if_pos hruns, if_pos hruns, if_pos hruns]
    exact ⟨rfl, rfl, rfl⟩
  case length => rw [exec_fwStage hacc, fwStage, if_neg (by simp [hidle]), if_pos hlen]
  case range => rw [exec_fwStage hacc, fwStage, if_neg (by simp [hidle]), if_neg (by omega), hrange]
  case stage =>
    have hchecked := fwStage_checked (d := d) (i := i) hidle hmin hmax hrange
    rw [exec_fwStage hacc, hchecked]
    cases himage : imageCheck i s with
    | some st => rfl
    | none =>
      obtain ⟨hstaged, hother, hactive, hfuses, hsvn⟩ := imageStaged_leaves i s
      exact ⟨_, rfl, hstaged, hother, hactive, hfuses, hsvn⟩
  case noImage => rw [exec_fwActivate hacc, fwActivate, if_neg (by simp [hidle]), hnone]
  case activate =>
    rw [exec_fwActivate hacc, fwActivate_held hidle hslot]
    cases himage : imageCheck i s with
    | some st => rfl
    | none =>
      have hside := startRestart_side 2 (slotSwitched s)
      refine ⟨_, rfl, ?_⟩
      dsimp only
      generalize startRestart 2 (slotSwitched s) = u at *
      have hencl : (fwReady d fn [] u).encl = u.encl := rfl
      have hmgmt : (fwReady d fn [] u).mgmt = u.mgmt := rfl
      have hops : (fwReady d fn [] u).ops = u.ops ++ [⟨d, fn, 0x6C, 8, true, false, u.now, [], .ready .ok [] []⟩] := rfl
      rw [hencl, hmgmt, hops, hside.encl, hside.mgmt, hside.ops, hside.now]
      exact ⟨rfl, rfl, rfl, rfl, rfl, rfl, rfl, hside.host.chans, rfl⟩
  case commit => rw [exec_fwCommitSvn hacc, if_neg (by simp [hidle]), if_neg (by simp [hconfirmed]), fwReady]
  case notConfirmed => rw [exec_fwCommitSvn hacc, if_neg (by simp [hidle]), if_pos (by simp [hunconfirmed])]
  case confirm => rw [exec_fwConfirm hup, if_pos ⟨hready, by simp [hrun], hsoon⟩]
  case late => rw [exec_fwConfirm hup, if_neg (by rintro ⟨-, -, hsoon⟩; omega)]
  case watchdogHeld => rw [exec_watchdogExpiry hup, watchdogExpiry, if_pos hheld]
  case restarts =>
    have hshort : ¬4 ≤ (recentRestarts s).length := by
      rw [recentRestarts, List.length_cons]
      omega
    have hside := startRestart_side 1 (restartCounted s)
    refine ⟨_, (exec_watchdogExpiry hup).trans (congrArg _ ((watchdogExpiry_runs hrun hfirm).trans (if_neg hshort))), ?_⟩
    rw [hside.mgmt, hside.ops, hside.encl]
    exact ⟨rfl, rfl, rfl, rfl, rfl, rfl, hside.host.chans, rfl⟩
  case halts =>
    have hlong : 4 ≤ (recentRestarts s).length := by
      rw [recentRestarts, List.length_cons]
      omega
    exact ⟨_, (exec_watchdogExpiry hup).trans (congrArg _ ((watchdogExpiry_runs hrun hfirm).trans (if_pos hlong))), rfl, rfl, rfl⟩
  case noRestart => rw [exec_fwRestartDone hup, restartDone_idle hrun]
  case restarted =>
    obtain ⟨b, hside⟩ := restartDone_side hrun n
    obtain ⟨hmgmt, hstarted, hchans, hops⟩ := imageRun_leaves s
    refine ⟨_, exec_fwRestartDone hup n, ?_⟩
    rw [hside.mgmt, hside.encl, hside.ops, hside.host.chans]
    have hmgmt' : (withCongested b (imageRun s)).mgmt = { (restartEnded s).mgmt with congested := b } := by rw [withCongested, hmgmt]
    rw [hmgmt']
    refine ⟨rfl, rfl, rfl, hstarted, hchans, hops, fun hcause => ?_, fun j hcause hslot => imageRun_activated hcause hslot⟩
    have hnone : imageRun s = restartEnded s := if_neg (by rw [hcause]; decide)
    rw [withCongested, hnone]
    exact ⟨rfl, rfl⟩

end Sys2Proof.Machine
end

section
/-! Lens: what the marks of Mirror leave of an index, the descriptors that wait, and the queries (R346 to R360). The settlement of O46. -/

namespace Sys2Proof.Machine

open Sys2Proof

/-! ### The marks of a unit written (R366) -/

/-- Of a channel, at most Mirror's stall count and the marks of the units written differ. -/
def TouchSide (c d : Chan) : Prop := d = { c with mirror := d.mirror, lens := { c.lens with dirty := d.lens.dirty, copied := d.lens.copied } }

theorem TouchSide.refl (c : Chan) : TouchSide c c := rfl

theorem TouchSide.trans {c d e : Chan} (h : TouchSide c d) (g : TouchSide d e) : TouchSide c e := by
  unfold TouchSide at *
  rw [g, h]

theorem TouchSide.lens {c d : Chan} (h : TouchSide c d) : d.lens = { c.lens with dirty := d.lens.dirty, copied := d.lens.copied } :=
  congrArg Chan.lens h

theorem Chan.touchUnit_side (c : Chan) (k : Nat) : TouchSide c (c.touchUnit k) := by
  unfold Chan.touchUnit Chan.modLens
  dsimp only
  (repeat' split) <;> rfl

/-! ### Create and destroy (R346) -/

section
variable {d : Hdr} {fn ch : Nat} {s : State} (hacc : Accepts 0x58 d fn ch s)
include hacc

/-- A channel with a new index. -/
def Chan.indexed (h : LensHdr) (c : Chan) : Chan := (c.modLens (fun _ => { hdr := some h })).touchUnit (unitKey 9 0)

theorem exec_opLensCreate (h : LensHdr) :
    exec (.opLensCreate d h) s = .next (if (s.chan ch).lens.hdr.isSome then complete d 0x58 .indexState [] [] s
      else if !hdrOk h then complete d 0x58 .paramInvalid [] [] s
      else complete d 0x58 .ok [] [] (s.modChan ch (Chan.indexed h))) := by
  change execOpLensCreate d h s = _
  rw [execOpLensCreate, accept_next hacc] <;> rfl

theorem exec_lensDestroy :
    exec (.lensDestroy d) s = .next (if (s.chan ch).lens.hdr.isNone then complete d 0x58 .indexState [] [] s
      else if lensBusy ch s then complete d 0x58 .indexBusy [] [] s
      else complete d 0x58 .ok [] [] (s.modChan ch dropIndex)) := by
  change execLensDestroy d s = _
  rw [execLensDestroy, accept_next hacc]

end

theorem Chan.indexed_side (h : LensHdr) (c : Chan) : TouchSide (c.modLens (fun _ => { hdr := some h })) (c.indexed h) := Chan.touchUnit_side _ _

theorem dropIndex_lens {c : Chan} (h : c.lens.hdr ≠ none) : (dropIndex c).lens.hdr = none ∧ (dropIndex c).lens.states = [] := by
  obtain ⟨hdr, hhdr⟩ := Option.ne_none_iff_exists'.mp h
  unfold dropIndex
  rw [hhdr]
  exact ⟨rfl, rfl⟩

/-! ### Descriptors that wait (R354, R366) -/

/-- A descriptor accepted, before it goes on: outstanding, and last of those that wait. -/
def lensAsked (opcode : Nat) (d : Hdr) (fn ch : Nat) (ranges : List (Nat × Nat)) (k : RunKind) (cmd : Instr) (s : State) : State :=
  (addOp opcode d fn ch ranges false k s).modChan ch (fun c => c.modLens (fun x => { x with waiting := x.waiting ++ [⟨cmd, deadlineOf d s⟩] }))

theorem lensTake_eq (opcode : Nat) (d : Hdr) (fn ch : Nat) (ranges : List (Nat × Nat)) (k : RunKind) (cmd : Instr) (s : State) :
    lensTake opcode d fn ch ranges k cmd s = lensPump ch (lensAsked opcode d fn ch ranges k cmd s) := rfl

section
variable {opcode : Nat} {d : Hdr} {fn ch : Nat} {ranges : List (Nat × Nat)} {k : RunKind} {cmd : Instr} {s : State}

theorem lensAsked_lens : ((lensAsked opcode d fn ch ranges k cmd s).chan ch).lens =
    { (s.chan ch).lens with waiting := (s.chan ch).lens.waiting ++ [⟨cmd, deadlineOf d s⟩] } := by
  unfold lensAsked
  rw [State.modChan_chan_same]
  rfl

/-- The operation of a descriptor just accepted is found by its ring and tag. -/
theorem opOf_lensAsked (h : opOf d.ring d.tag s = none) :
    opOf d.ring d.tag (lensAsked opcode d fn ch ranges k cmd s) = some ⟨d, fn, opcode, ch, false, false, s.now, ranges, k⟩ := by
  change (s.ops ++ [_]).find? _ = _
  rw [List.find?_append, show s.ops.find? _ = none from h]
  simp

end

/-- A descriptor no longer waits. -/
def unheld (ch : Nat) (e : LensHeld) (s : State) : State :=
  s.modChan ch (fun c => c.modLens (fun x => { x with waiting := x.waiting.erase e }))

section
variable {ch : Nat} {s : State}

theorem pumpWrites_none (h : ∀ w ∈ (s.chan ch).lens.writes, w.stage ≠ 0 ∨ w.consolidate = true) (n : Nat) : pumpWrites ch n s = s := by
  cases n with
  | zero => rfl
  | succ n =>
    have hnone : ((s.chan ch).lens.writes.take 64).find? (fun w => w.stage == 0 && !w.consolidate) = none := by
      refine List.find?_eq_none.mpr fun w hw => ?_
      obtain h | h := h w (List.mem_of_mem_take hw) <;> simp [h]
    rw [pumpWrites, hnone]

theorem lensResume_none (h : lensNext (s.chan ch) = none) (n : Nat) : lensResume ch n s = s := by
  cases n with
  | zero => rfl
  | succ n => rw [lensResume, h]

/-- Where no descriptor may go on and no write is to be taken up, nothing happens. -/
theorem lensPump_none (hnext : lensNext (s.chan ch) = none) (hwrites : ∀ w ∈ (s.chan ch).lens.writes, w.stage ≠ 0 ∨ w.consolidate = true) :
    lensPump ch s = s := by
  unfold lensPump
  rw [lensResume_none hnext]
  exact pumpWrites_none hwrites _

/-- The one descriptor that waits goes on, and the writes with it. -/
theorem lensPump_one {e : LensHeld} (hnext : lensNext (s.chan ch) = some e) (hwaiting : (s.chan ch).lens.waiting = [e]) :
    lensPump ch s =
      pumpWrites ch (((lensStart ch e (unheld ch e s)).chan ch).lens.writes.length + 1) (lensStart ch e (unheld ch e s)) := by
  have hresume : lensResume ch 1 s = lensStart ch e (unheld ch e s) := by
    rw [lensResume, hnext]
    rfl
  unfold lensPump
  rw [hwaiting]
  exact congrArg (fun t : State => pumpWrites ch ((t.chan ch).lens.writes.length + 1) t) hresume

end

theorem lensNext_idle {c : Chan} (h : c.lens.waiting = []) : lensNext c = none := by
  unfold lensNext
  rw [h]
  rfl

section
variable {c : Chan} {e : LensHeld}

theorem lensNext_query (hfind : c.lens.waiting.find? LensHeld.isQuery = some e) (hgo : e.mayGo c = true) : lensNext c = some e := by
  simp [lensNext, hfind, Option.filter, hgo]

/-- While the first query has to wait only a write descriptor goes on. -/
theorem lensNext_notQuery (hfind : c.lens.waiting.find? LensHeld.isQuery = some e) (hgo : e.mayGo c = false) {f : LensHeld}
    (hf : lensNext c = some f) : f.isQuery = false := by
  unfold lensNext at hf
  rw [hfind, Option.filter, if_neg (by simp [hgo]), Option.none_or] at hf
  have hmem := List.find?_some (Option.eq_some_of_filter_eq_some hf)
  simpa using hmem

end

/-! ### The search (R356 to R358) -/

/-- The blocks that set sticky in a query are counted (R119). -/
def stickyCounted (ch : Nat) (q : LensQuery) (s : State) : State :=
  s.modChan ch (fun c => { c with arithSticky := wrap64 (c.arithSticky + q.sticky) })

/-- A query has left its slot. -/
def queryEnded (ch id : Nat) (s : State) : State :=
  s.modChan ch (fun c => c.modLens (fun x => { x with queries := x.queries.filter (fun y => y.id != id) }))

section
variable {ch : Nat} {q : LensQuery} {s : State}

theorem advance_goes {v : Nat} {r : LensQuery} (h : nextExpand { q with sticky := 0 } = some (v, r)) :
    advance ch q s = (stickyCounted ch q s).modChan ch (fun c => c.modLens (fun x =>
      { x with queries := x.queries.map (fun y => if y.id = r.id then r else y), table := postTable v r.id x.table })) := by
  unfold advance
  dsimp only
  rw [h]
  rfl

theorem advance_ends (h : nextExpand { q with sticky := 0 } = none) (hof : q.insertOf = none) :
    advance ch q s = batchEnd ch { q with sticky := 0 } (queryEnded ch q.id (stickyCounted ch q s)) := by
  unfold advance
  dsimp only
  rw [h]
  dsimp only
  rw [hof]
  rfl

theorem advance_found {id : Nat} (h : nextExpand { q with sticky := 0 } = none) (hof : q.insertOf = some id) :
    advance ch q s = insertFound ch id { q with sticky := 0 } (queryEnded ch q.id (stickyCounted ch q s)) := by
  unfold advance
  dsimp only
  rw [h]
  dsimp only
  rw [hof]
  rfl

/-- The batch of a descriptor is gone. -/
def batchClosed (ch : Nat) (b : LensBatch) (s : State) : State := s.modChan ch (fun c => c.modLens (fun x => { x with batches := x.batches.erase b }))

theorem batchClosed_lens (ch : Nat) (b : LensBatch) (s : State) :
    ((batchClosed ch b s).chan ch).lens = { (s.chan ch).lens with batches := (s.chan ch).lens.batches.erase b } := by
  rw [batchClosed, State.modChan_chan_same]
  rfl

theorem opOf_queryEnded (ring tag id : Nat) : opOf ring tag (queryEnded ch id (stickyCounted ch q s)) = opOf ring tag s := rfl

theorem queryEnded_lens (id : Nat) : ((queryEnded ch id (stickyCounted ch q s)).chan ch).lens =
    { (s.chan ch).lens with queries := (s.chan ch).lens.queries.filter (fun y => y.id != id) } := by
  rw [queryEnded, State.modChan_chan_same, stickyCounted, State.modChan_chan_same]
  rfl

/-- The last query of a descriptor ends it with its counts and its results (R354). -/
theorem batchEnd_last {b : LensBatch} {op : RunOp} (hb : (s.chan ch).lens.batches.find? (fun b => b.ring == q.ring && b.tag == q.tag) = some b)
    (hleft : b.left = 1) (hop : opOf q.ring q.tag s = some op) :
    batchEnd ch q s = endOp op .ok [b.truncated + (if q.truncated then 1 else 0), b.expansions + q.expansions]
      [(b.outAddr, .words ((tset q.num (queryResults s.fid ch (s.chan ch).lens q) b.results).flatMap (·.2)))]
      (batchClosed ch b s) := by
  unfold batchEnd
  dsimp only
  rw [hb]
  dsimp only
  rw [hleft, if_pos rfl, opOf_modChan, hop]
  rfl

theorem nextExpand_none (hcand : q.cand = []) : nextExpand q = none := by
  unfold nextExpand
  rw [hcand]
  split <;> rfl

/-- A query of an index without entry points has nothing to visit. -/
theorem beginQuery_noEntry {h : LensHdr} (hentry : (s.chan ch).lens.entry = []) :
    beginQuery ch h q s = advance ch { q with id := (s.chan ch).lens.nextId, sticky := auxSticky h q.vec }
      (s.modChan ch (fun c => c.modLens (fun x =>
        { x with queries := x.queries ++ [{ q with id := (s.chan ch).lens.nextId, sticky := auxSticky h q.vec }], nextId := x.nextId + 1 }))) := by
  unfold beginQuery
  dsimp only
  rw [hentry]
  rfl

theorem queryResults_empty (fid : Nat) (x : Lens) (hres : q.res = []) (htrunc : q.truncated = false) :
    queryResults fid ch x q = List.replicate (2 * q.k) 0 := by
  simp [queryResults, hres, htrunc]

end

theorem lensStart_query {ch count k beam va oa : Nat} {d : Hdr} {vecs : List (List F32)} {dl : Option Nat} {op : RunOp} {s : State}
    (hop : opOf d.ring d.tag s = some op) :
    lensStart ch ⟨.opLensQuery d count k beam va oa vecs, dl⟩ s = queryStart ch op d dl count k beam oa vecs s := by
  simp only [lensStart, lensCmdHdr, hop]

theorem queryStart_bad {ch count k beam oa : Nat} {d : Hdr} {vecs : List (List F32)} {dl : Option Nat} {op : RunOp} {h : LensHdr} {s : State}
    (hhdr : (s.chan ch).lens.hdr = some h) (hbad : vecs.any badVector = true) :
    queryStart ch op d dl count k beam oa vecs s = endOp op .paramInvalid [0, 0] [] s := by
  rw [queryStart, hhdr]
  exact if_pos hbad

/-! ### One query of an index without entry points (R354, R358) -/

/-- The query of a descriptor of one vector. -/
def loneQuery (d : Hdr) (h : LensHdr) (k beam : Nat) (dl : Option Nat) (v : List F32) : LensQuery :=
  { (default : LensQuery) with ring := d.ring, tag := d.tag, k := k, beam := beam, deadline := dl, num := 0, vec := v, qaux := lensAux h v }

/-- The batch of a descriptor of one vector. -/
def loneBatch (d : Hdr) (k oa : Nat) : LensBatch := { ring := d.ring, tag := d.tag, k := k, left := 1, outAddr := oa }

section
variable {ch k beam oa : Nat} {d : Hdr} {h : LensHdr} {v : List F32} {dl : Option Nat} {op : RunOp} {s : State}

theorem queryStart_lone (hhdr : (s.chan ch).lens.hdr = some h) (hgood : badVector v = false) :
    queryStart ch op d dl 1 k beam oa [v] s =
      beginQuery ch h (loneQuery d h k beam dl v)
        (s.modChan ch (fun c => c.modLens (fun x => { x with batches := x.batches ++ [loneBatch d k oa] }))) := by
  rw [queryStart, hhdr]
  exact if_neg (by simp [hgood])

/-- It ends at once with k empty entries. -/
theorem queryStart_empty (hhdr : (s.chan ch).lens.hdr = some h) (hgood : badVector v = false) (hentry : (s.chan ch).lens.entry = [])
    (hqueries : (s.chan ch).lens.queries = []) (hbatches : (s.chan ch).lens.batches = []) (hop : opOf d.ring d.tag s = some op) :
    ∃ w, queryStart ch op d dl 1 k beam oa [v] s = endOp op .ok [0, 0] [(oa, .words (List.replicate (2 * k) 0))] w ∧
      (w.chan ch).lens.states = (s.chan ch).lens.states ∧ (w.chan ch).lens.queries = [] ∧ (w.chan ch).lens.batches = [] ∧
        (w.chan ch).lens.writes = (s.chan ch).lens.writes := by
  rw [queryStart_lone hhdr hgood]
  generalize hu : s.modChan ch (fun c => c.modLens (fun x => { x with batches := x.batches ++ [loneBatch d k oa] })) = u
  have hlens : (u.chan ch).lens = { (s.chan ch).lens with batches := [loneBatch d k oa] } := by
    rw [← hu, State.modChan_chan_same, Chan.modLens, hbatches]
    rfl
  have hopu : opOf d.ring d.tag u = some op := by rw [← hu, opOf_modChan, hop]
  rw [beginQuery_noEntry (by rw [hlens]; exact hentry)]
  generalize hq : ({ loneQuery d h k beam dl v with id := (u.chan ch).lens.nextId, sticky := auxSticky h (loneQuery d h k beam dl v).vec } : LensQuery) = q
  generalize hb : u.modChan ch (fun c => c.modLens (fun x => { x with queries := x.queries ++ [q], nextId := x.nextId + 1 })) = b
  have hlensb : (b.chan ch).lens =
      { (s.chan ch).lens with batches := [loneBatch d k oa], queries := [q], nextId := (s.chan ch).lens.nextId + 1 } := by
    rw [← hb, State.modChan_chan_same, Chan.modLens, hlens]
    dsimp only
    rw [hqueries]
    rfl
  have hcand : q.cand = [] ∧ q.res = [] ∧ q.truncated = false ∧ q.insertOf = none ∧ q.ring = d.ring ∧ q.tag = d.tag ∧ q.k = k ∧ q.expansions = 0 ∧
      q.num = 0 := by
    subst hq
    exact ⟨rfl, rfl, rfl, rfl, rfl, rfl, rfl, rfl, rfl⟩
  obtain ⟨hcand, hres, htrunc, hof, hring, htag, hk, hexp, hnum⟩ := hcand
  have hopb : opOf d.ring d.tag b = some op := by rw [← hb, opOf_modChan, hopu]
  rw [advance_ends (nextExpand_none hcand) hof]
  have hlense := queryEnded_lens (ch := ch) (q := q) (s := b) q.id
  have hope := (opOf_queryEnded (ch := ch) (q := q) (s := b) d.ring d.tag q.id).trans hopb
  generalize queryEnded ch q.id (stickyCounted ch q b) = e at *
  rw [hlensb] at hlense
  have hresults := queryResults_empty (ch := ch) (q := { q with sticky := 0 }) e.fid (e.chan ch).lens hres htrunc
  have hbatch : (e.chan ch).lens.batches = [loneBatch d k oa] := by rw [hlense]
  have hend := batchEnd_last (ch := ch) (q := { q with sticky := 0 }) (s := e) (b := loneBatch d k oa) (op := op)
    (by rw [hbatch]; simp [loneBatch, hring, htag]) rfl (by rw [hring, htag]; exact hope)
  rw [hresults] at hend
  refine ⟨batchClosed ch (loneBatch d k oa) e, hend.trans ?_, ?_⟩
  · simp [htrunc, hexp, hk, loneBatch, tset]
  · rw [batchClosed_lens, hlense]
    simp

end

/-! ### The expansions (R357) -/

/-- An entry of the expansion table has been served. -/
def entryServed (ch u : Nat) (s : State) : State :=
  s.modChan ch (fun c => c.modLens (fun y => { y with table := y.table.filter (fun f => f.1 != u) }))

section
variable {ch : Nat} {s : State}

theorem exec_expansionServe (hup : s.up = true) : exec (.expansionServe ch) s = .next (lensPump ch (expansionServe ch s)) := by
  change execExpansionServe ch s = _
  rw [execExpansionServe, whenUp_next hup]

theorem expansionServe_none (h : (s.chan ch).lens.hdr = none ∨ (s.chan ch).lens.table = []) : expansionServe ch s = s := by
  unfold expansionServe
  dsimp only
  obtain h | h := h
  · rw [h]
  · have hnone : serveNext (s.chan ch).lens = none := by
      rw [serveNext, h]
      rfl
    rw [hnone]
    split
    · rename_i heq
      cases heq
    · rfl

theorem expansionServe_one {h : LensHdr} {u : Nat} {q : LensQuery} (hhdr : (s.chan ch).lens.hdr = some h)
    (hserve : serveNext (s.chan ch).lens = some (u, [q.id])) (hfind : (s.chan ch).lens.queries.find? (fun y => y.id == q.id) = some q) :
    expansionServe ch s = advance ch (expandQuery (s.chan ch).lens h u q) (entryServed ch u s) := by
  have hfind' : ((entryServed ch u s).chan ch).lens.queries.find? (fun y => y.id == q.id) = some q := by
    rw [entryServed, State.modChan_chan_same]
    exact hfind
  unfold expansionServe
  dsimp only
  rw [hhdr, hserve]
  dsimp only [List.foldl_cons, List.foldl_nil]
  change (match ((entryServed ch u s).chan ch).lens.queries.find? (fun y => y.id == q.id) with | some q => _ | none => _) = _
  rw [hfind']
  rfl

end

/-! ### Merges (R360) -/

section
variable {d : Hdr} {fn ch : Nat} {s : State} (hacc : Accepts 0x5D d fn ch s)
include hacc

theorem exec_opMergeTopk (lists kIn kOut ia oa : Nat) (data : List (List TopkEntry)) :
    exec (.opMergeTopk d lists kIn kOut ia oa data) s = .next (
      if lists = 0 ∨ kIn = 0 then complete d 0x5D .lenZero [] [] s
      else if lists < 2 ∨ 64 < lists ∨ 1024 < kIn ∨ kOut = 0 ∨ 1024 < kOut then complete d 0x5D .paramInvalid [] [] s
      else match rangesCheck fn [(ia, lists * kIn * 16), (oa, kOut * 16)] s with
        | some st => complete d 0x5D st [] [] s
        | none => addOp 0x5D d fn ch [(ia, lists * kIn * 16), (oa, kOut * 16)] true
            (.ready .ok [] [(oa, .words (mergeTopk lists kIn kOut data))]) s) := by
  change execOpMergeTopk d lists kIn kOut ia oa data s = _
  rw [execOpMergeTopk, accept_next hacc] <;> rfl

end

theorem mergeTopk_length (lists kIn kOut : Nat) (data : List (List TopkEntry)) : (mergeTopk lists kIn kOut data).length = 2 * kOut := by
  have hpairs (f : Nat → List Nat) (hf : ∀ j, (f j).length = 2) (n : Nat) : ((List.range n).flatMap f).length = 2 * n := by
    rw [List.length_flatMap, List.map_congr_left (fun j _ => hf j), List.map_const', List.sum_replicate, List.length_range]
    exact Nat.mul_comm _ _
  refine hpairs _ (fun j => ?_) kOut
  split <;> rfl

/-! ### Queries accepted (R354) -/

section
variable {d : Hdr} {fn ch : Nat} {s : State} (hacc : Accepts 0x59 d fn ch s)
include hacc

theorem exec_opLensQuery (count k beam va oa : Nat) (vecs : List (List F32)) :
    exec (.opLensQuery d count k beam va oa vecs) s = .next (match queryCheck fn ch count k beam va oa s with
      | some st => complete d 0x59 st [0, 0] [] s
      | none => lensPump ch (lensAsked 0x59 d fn ch [(va, 0), (oa, 0)] (.lensQuery ch) (.opLensQuery d count k beam va oa vecs) s)) := by
  change execOpLensQuery d count k beam va oa vecs s = _
  rw [execOpLensQuery, accept_next hacc] <;> rfl

end

/-- A query of one vector of an empty index goes on and ends. -/
theorem lensAsked_lone {d : Hdr} {fn ch k beam va oa : Nat} {h : LensHdr} {v : List F32} {s : State} (hhdr : (s.chan ch).lens.hdr = some h)
    (hgood : badVector v = false) (hentry : (s.chan ch).lens.entry = []) (hqueries : (s.chan ch).lens.queries = [])
    (hbatches : (s.chan ch).lens.batches = []) (hwaiting : (s.chan ch).lens.waiting = []) (hop : opOf d.ring d.tag s = none) :
    ∃ w, lensPump ch (lensAsked 0x59 d fn ch [(va, 0), (oa, 0)] (.lensQuery ch) (.opLensQuery d 1 k beam va oa [v]) s) =
        (pumpWrites ch ((w.chan ch).lens.writes.length + 1) (endOp ⟨d, fn, 0x59, ch, false, false, s.now, [(va, 0), (oa, 0)], .lensQuery ch⟩ .ok [0, 0]
          [(oa, .words (List.replicate (2 * k) 0))] w)) ∧
      (w.chan ch).lens.states = (s.chan ch).lens.states ∧ (w.chan ch).lens.queries = [] ∧ (w.chan ch).lens.batches = [] ∧
        (w.chan ch).lens.writes = (s.chan ch).lens.writes := by
  have hasked : ((lensAsked 0x59 d fn ch [(va, 0), (oa, 0)] (.lensQuery ch) (.opLensQuery d 1 k beam va oa [v]) s).chan ch).lens =
      { (s.chan ch).lens with waiting := [⟨.opLensQuery d 1 k beam va oa [v], deadlineOf d s⟩] } := by
    rw [lensAsked_lens, hwaiting]
    rfl
  have hopAsked := opOf_lensAsked (fn := fn) (ch := ch) (opcode := 0x59) (ranges := [(va, 0), (oa, 0)]) (k := .lensQuery ch)
    (cmd := .opLensQuery d 1 k beam va oa [v]) hop
  generalize lensAsked 0x59 d fn ch [(va, 0), (oa, 0)] (.lensQuery ch) (.opLensQuery d 1 k beam va oa [v]) s = u at *
  generalize he : (⟨.opLensQuery d 1 k beam va oa [v], deadlineOf d s⟩ : LensHeld) = e at *
  have hwait : (u.chan ch).lens.waiting = [e] := by rw [hasked]
  have hnext : lensNext (u.chan ch) = some e := by
    refine lensNext_query ?_ ?_
    · rw [hwait, ← he]
      rfl
    · rw [← he]
      simp [LensHeld.mayGo, slotsFree, hasked, hqueries]
  have hlens : ((unheld ch e u).chan ch).lens = { (s.chan ch).lens with waiting := [] } := by
    rw [unheld, State.modChan_chan_same, Chan.modLens]
    dsimp only
    rw [hasked]
    simp
  obtain ⟨w, hw, hstates, hq, hb, hwr⟩ := queryStart_empty (ch := ch) (k := k) (beam := beam) (oa := oa) (dl := deadlineOf d s) (s := unheld ch e u)
    (by rw [hlens]; exact hhdr) hgood (by rw [hlens]; exact hentry) (by rw [hlens]; exact hqueries) (by rw [hlens]; exact hbatches)
    (by rw [unheld, opOf_modChan]; exact hopAsked)
  refine ⟨w, ?_, hstates.trans (by rw [hlens]), hq, hb, hwr.trans (by rw [hlens])⟩
  have hstart : lensStart ch e (unheld ch e u) =
      queryStart ch ⟨d, fn, 0x59, ch, false, false, s.now, [(va, 0), (oa, 0)], .lensQuery ch⟩ d (deadlineOf d s) 1 k beam oa [v] (unheld ch e u) := by
    rw [← he]
    exact lensStart_query hopAsked
  rw [lensPump_one hnext hwait, hstart, hw, (endOp_host _ _ _ _ _).chan]

/-- Settles O46: create and destroy by what is there; queries by their checks, their turn and the expansions; merges by their ranges. -/
theorem indexesAreCreatedSearchedAndMerged : Obligations.IndexesAreCreatedSearchedAndMerged := by
  refine fun d fn ch s => ⟨fun h hacc => ⟨fun hnone hok => ?create, fun hsome => ?createTwice, fun hnone hbad => ?createBad, fun hsome hidle => ?destroy,
    fun hsome hbusy => ?destroyBusy, fun hnone => ?destroyNone⟩, fun count k beam va oa vecs hacc => ⟨fun st hst => ?queryRefused, fun hcheck =>
    ⟨?queryTaken, fun hnext hwrites => ?queryWaits, fun h v hhdr hcount hvecs hgood hentry hqueries hbatches hwaiting hwrites hop => ?queryEmpty,
    fun h op' dl hhdr hop hbad => ?queryBad⟩⟩, fun c count k beam va oa vecs e dl hfind => ⟨fun hcmd hdl hroom => ?inTurn, fun hcmd hfull f hf => ?held⟩,
    fun hup => ⟨exec_expansionServe hup, fun hwaiting hwrites => ?pumpIdle, fun hnone => expansionServe_none hnone, fun h u q hhdr hserve hfind =>
    ⟨fun v q'' hnext => ?expands, fun b op hnext hof hb hleft hop => ?ends⟩⟩, fun lists kIn kOut ia oa data hacc => ⟨fun hzero => ?mergeZero,
    fun hlists hkIn hrange => ?mergeRange, fun hmin hmax hkIn hkInMax hkOut hkOutMax => ⟨fun st hst => ?mergeRefused, fun hnone =>
    ⟨?merged, mergeTopk_length lists kIn kOut data⟩⟩⟩⟩
  case create =>
    have hside := Chan.indexed_side h (s.chan ch)
    refine ⟨s.modChan ch (Chan.indexed h), ?_, ?_, ?_, ?_, ?_, ?_, ?_, fun n hn => State.modChan_chan_other _ _ _ _ hn, rfl⟩
    · rw [exec_opLensCreate hacc, if_neg (by simp [hnone]), if_neg (by simp [hok])]
    all_goals
      rw [State.modChan_chan_same, hside]
      rfl
  case createTwice => rw [exec_opLensCreate hacc, if_pos (Option.isSome_iff_ne_none.mpr hsome)]
  case createBad => rw [exec_opLensCreate hacc, if_neg (by simp [hnone]), if_pos (by simp [hbad])]
  case destroy =>
    obtain ⟨hhdr, hstates⟩ := dropIndex_lens hsome
    refine ⟨s.modChan ch dropIndex, ?_, ?_, ?_, fun n hn => State.modChan_chan_other _ _ _ _ hn, rfl⟩
    · rw [exec_lensDestroy hacc, if_neg (by simpa using hsome), if_neg (by simp [hidle])]
    · rw [State.modChan_chan_same, hhdr]
    · rw [State.modChan_chan_same, hstates]
  case destroyBusy => rw [exec_lensDestroy hacc, if_neg (by simpa using hsome), if_pos hbusy]
  case destroyNone => rw [exec_lensDestroy hacc, if_pos (by simp [hnone])]
  case queryRefused => rw [exec_opLensQuery hacc, hst]
  case queryTaken =>
    rw [exec_opLensQuery hacc, hcheck]
    rfl
  case queryWaits =>
    rw [exec_opLensQuery hacc, hcheck]
    exact congrArg _ (lensPump_none hnext (by rw [lensAsked_lens]; exact hwrites))
  case queryEmpty =>
    subst hcount hvecs
    obtain ⟨w, hw, hstates, hq, hb, hwr⟩ := lensAsked_lone (k := k) (beam := beam) (va := va) (oa := oa) (fn := fn) hhdr hgood hentry hqueries hbatches
      hwaiting hop
    refine ⟨w, ?_, hstates, hq, hb⟩
    rw [exec_opLensQuery hacc, hcheck]
    refine congrArg _ (hw.trans (pumpWrites_none ?_ _))
    rw [(endOp_host _ _ _ _ _).chan, hwr, hwrites]
    simp
  case queryBad => rw [lensStart_query hop, queryStart_bad hhdr hbad]
  case inTurn =>
    refine lensNext_query hfind ?_
    rw [LensHeld.mayGo, hcmd]
    exact decide_eq_true hroom
  case held =>
    refine lensNext_notQuery hfind ?_ hf
    rw [LensHeld.mayGo, hcmd]
    exact decide_eq_false (Nat.not_le.mpr hfull)
  case pumpIdle => exact lensPump_none (lensNext_idle hwaiting) (by rw [hwrites]; simp)
  case expands =>
    rw [expansionServe_one hhdr hserve hfind, advance_goes hnext]
    refine ⟨?_, ?_, rfl⟩
    · rw [State.modChan_chan_same, stickyCounted, State.modChan_chan_same, entryServed, State.modChan_chan_same]
      rfl
    · rw [State.modChan_chan_same, stickyCounted, State.modChan_chan_same, entryServed, State.modChan_chan_same]
      rfl
  case ends =>
    rw [expansionServe_one hhdr hserve hfind]
    have hserved : ((entryServed ch u s).chan ch).lens = { (s.chan ch).lens with table := (s.chan ch).lens.table.filter (fun f => f.1 != u) } := by
      rw [entryServed, State.modChan_chan_same]
      rfl
    have hop' : opOf (expandQuery (s.chan ch).lens h u q).ring (expandQuery (s.chan ch).lens h u q).tag (entryServed ch u s) = some op := hop
    have hfid : (entryServed ch u s).fid = s.fid := rfl
    generalize expandQuery (s.chan ch).lens h u q = r at *
    generalize entryServed ch u s = v at *
    rw [advance_ends hnext hof]
    have hlens := queryEnded_lens (ch := ch) (q := r) (s := v) r.id
    have hopEnded := (opOf_queryEnded (ch := ch) (q := r) (s := v) r.ring r.tag r.id).trans hop'
    have hfid' : (queryEnded ch r.id (stickyCounted ch r v)).fid = s.fid := hfid
    generalize queryEnded ch r.id (stickyCounted ch r v) = e at *
    rw [hserved] at hlens
    have hend := batchEnd_last (ch := ch) (q := { r with sticky := 0 }) (s := e) (b := b) (op := op) (by rw [hlens]; exact hb) hleft hopEnded
    rw [hfid', hlens] at hend
    refine ⟨batchClosed ch b e, hend, ?_⟩
    rw [batchClosed_lens, hlens]
    exact ⟨rfl, rfl, rfl, rfl⟩
  case mergeZero => rw [exec_opMergeTopk hacc, if_pos hzero]
  case mergeRange => rw [exec_opMergeTopk hacc, if_neg (by omega), if_pos hrange]
  case mergeRefused => rw [exec_opMergeTopk hacc, if_neg (by omega), if_neg (by omega), hst]
  case merged => rw [exec_opMergeTopk hacc, if_neg (by omega), if_neg (by omega), hnone]

end Sys2Proof.Machine
end

section
/-! Writes of a Lens index (R361 to R366). The settlement of O47. -/

namespace Sys2Proof.Machine

open Sys2Proof

/-! ### What a write of a record leaves of the index (R351 to R353) -/

/-- Of an index, its states, counts, descriptors and queries stay; vectors, nodes, entry points and marks may differ. -/
structure KeepsStates (x y : Lens) : Prop where
  hdr : y.hdr = x.hdr
  states : y.states = x.states
  live : y.live = x.live
  tombs : y.tombs = x.tombs
  epoch : y.epoch = x.epoch
  queries : y.queries = x.queries
  writes : y.writes = x.writes
  waiting : y.waiting = x.waiting
  nextId : y.nextId = x.nextId

section
variable {x y z : Lens} {c d : Chan}

theorem KeepsStates.refl (x : Lens) : KeepsStates x x := ⟨rfl, rfl, rfl, rfl, rfl, rfl, rfl, rfl, rfl⟩

theorem KeepsStates.trans (h : KeepsStates x y) (g : KeepsStates y z) : KeepsStates x z :=
  ⟨g.hdr.trans h.hdr, g.states.trans h.states, g.live.trans h.live, g.tombs.trans h.tombs, g.epoch.trans h.epoch, g.queries.trans h.queries,
    g.writes.trans h.writes, g.waiting.trans h.waiting, g.nextId.trans h.nextId⟩

theorem KeepsStates.stateOf (h : KeepsStates x y) (i : Nat) : y.stateOf i = x.stateOf i := by rw [Lens.stateOf, h.states, Lens.stateOf]

theorem TouchSide.keepsStates (h : TouchSide c d) : KeepsStates c.lens d.lens := by
  rw [h.lens]
  exact ⟨rfl, rfl, rfl, rfl, rfl, rfl, rfl, rfl, rfl⟩

end

theorem Chan.touchUnits_side (c : Chan) (kind seg off n : Nat) : TouchSide c (c.touchUnits kind seg off n) :=
  List.foldlRecOn (motive := fun d : Chan => TouchSide c d) (fileUnits off n) _ (.refl c) fun d hd _ _ => hd.trans (d.touchUnit_side _)

theorem Chan.putNode_keeps (c : Chan) (h : LensHdr) (i : Nat) (n : LensNode) : KeepsStates c.lens (c.putNode h i n).lens :=
  (c.touchUnits_side 11 (i / 65536) (i % 65536 * nbytes h) (nbytes h)).keepsStates.trans ⟨rfl, rfl, rfl, rfl, rfl, rfl, rfl, rfl, rfl⟩

theorem Chan.putVector_keeps (c : Chan) (h : LensHdr) (i : Nat) (v : List F32) : KeepsStates c.lens (c.putVector h i v).lens :=
  (c.touchUnits_side 10 (i / 65536) (i % 65536 * vbytes h) (vbytes h)).keepsStates.trans ⟨rfl, rfl, rfl, rfl, rfl, rfl, rfl, rfl, rfl⟩

theorem Chan.putEntry_keeps (c : Chan) (k : Nat) (i : Option Nat) : KeepsStates c.lens (c.putEntry k i).lens :=
  (c.touchUnit_side (unitKey 9 0)).keepsStates.trans ⟨rfl, rfl, rfl, rfl, rfl, rfl, rfl, rfl, rfl⟩

/-- The marks that a change of state leaves. -/
def Chan.stateTouched (c : Chan) (i : Nat) : Chan := (c.touchUnits 12 0 (i / 4) 1).touchUnit (unitKey 9 0)

theorem Chan.stateTouched_side (c : Chan) (i : Nat) : TouchSide c (c.stateTouched i) := (c.touchUnits_side _ _ _ _).trans (Chan.touchUnit_side _ _)

theorem Chan.putState_lens (c : Chan) (i v : Nat) : (c.putState i v).lens = { (c.stateTouched i).lens.setState i v with
    live := (c.stateTouched i).lens.live + (if v = 1 then 1 else 0) - (if c.lens.stateOf i = 1 then 1 else 0)
    tombs := (c.stateTouched i).lens.tombs + (if v = 2 then 1 else 0) - (if c.lens.stateOf i = 2 then 1 else 0) } := rfl

theorem Lens.setState_same (x : Lens) (i v : Nat) : (x.setState i v).stateOf i = v := by
  unfold Lens.setState Lens.stateOf
  dsimp only
  split
  · rename_i h
    rw [tget_tdel_same, h]
    rfl
  · rw [tget_tset_same]
    rfl

theorem Lens.setState_other (x : Lens) {i j : Nat} (h : j ≠ i) (v : Nat) : (x.setState i v).stateOf j = x.stateOf j := by
  unfold Lens.setState Lens.stateOf
  dsimp only
  split
  · rw [tget_tdel_other _ h]
  · rw [tget_tset_other _ _ _ _ h]

section
variable (c : Chan) (i v : Nat)

theorem Chan.putState_same : (c.putState i v).lens.stateOf i = v := by
  rw [c.putState_lens]
  exact Lens.setState_same _ i v

theorem Chan.putState_other {j : Nat} (h : j ≠ i) : (c.putState i v).lens.stateOf j = c.lens.stateOf j := by
  rw [c.putState_lens]
  exact (Lens.setState_other _ h v).trans ((c.stateTouched_side i).keepsStates.stateOf j)

theorem Chan.putState_leaves : (c.putState i v).lens.hdr = c.lens.hdr ∧ (c.putState i v).lens.epoch = c.lens.epoch ∧
    (c.putState i v).lens.queries = c.lens.queries ∧ (c.putState i v).lens.writes = c.lens.writes ∧
      (c.putState i v).lens.waiting = c.lens.waiting ∧ (c.putState i v).lens.nextId = c.lens.nextId ∧
        (c.putState i v).lens.vectors = c.lens.vectors ∧ (c.putState i v).lens.entry = c.lens.entry := by
  rw [c.putState_lens, (c.stateTouched_side i).lens]
  exact ⟨rfl, rfl, rfl, rfl, rfl, rfl, rfl, rfl⟩

theorem Chan.putState_counts : (c.putState i v).lens.live = c.lens.live + (if v = 1 then 1 else 0) - (if c.lens.stateOf i = 1 then 1 else 0) ∧
    (c.putState i v).lens.tombs = c.lens.tombs + (if v = 2 then 1 else 0) - (if c.lens.stateOf i = 2 then 1 else 0) := by
  have hkeeps := (c.stateTouched_side i).keepsStates
  rw [c.putState_lens, hkeeps.live, hkeeps.tombs]
  exact ⟨rfl, rfl⟩

end

/-! ### The links of an insert (R363) -/

/-- The links back to a node from its neighbours. -/
def linkBack (h : LensHdr) (i : Nat) (c : Chan) (n : Nat) : Chan :=
  let l := (c.lens.node n).nbrs.map (·.1)
  c.putNode h n (nodeWith c.lens (c.lens.node n).aux (if l.length < h.degree then l ++ [i] else prune c.lens h n (l ++ [i]) h.degree))

theorem linkBack_keeps (h : LensHdr) (i : Nat) (l : List Nat) (c : Chan) : KeepsStates c.lens (l.foldl (linkBack h i) c).lens :=
  List.foldlRecOn (motive := fun d : Chan => KeepsStates c.lens d.lens) l _ (.refl _) fun d hd _ _ => hd.trans (d.putNode_keeps _ _ _)

/-- A node linked is LIVE, and no other changes its state. -/
theorem linkNode_states (h : LensHdr) (i : Nat) (found : List (F32 × Nat)) (c : Chan) :
    (linkNode h i found c).lens.stateOf i = 1 ∧ ∀ j, j ≠ i → (linkNode h i found c).lens.stateOf j = c.lens.stateOf j := by
  unfold linkNode
  extract_lets x ns made entered
  have hentered : KeepsStates made.lens entered.lens := by
    unfold entered
    split
    · exact Chan.putEntry_keeps _ _ _
    · exact .refl _
  have hall : KeepsStates made.lens (ns.foldl (linkBack h i) entered).lens := hentered.trans (linkBack_keeps h i ns entered)
  refine ⟨(hall.stateOf i).trans (Chan.putState_same _ i 1), fun j hj => (hall.stateOf j).trans ?_⟩
  exact (Chan.putState_other _ i 1 hj).trans ((c.putNode_keeps _ _ _).stateOf j)

/-! ### A delete (R364) -/

/-- A delete leaves the vectors, the epoch and the descriptors. -/
structure KeepsWork (x y : Lens) : Prop where
  vectors : y.vectors = x.vectors
  epoch : y.epoch = x.epoch
  writes : y.writes = x.writes
  waiting : y.waiting = x.waiting

theorem KeepsWork.refl (x : Lens) : KeepsWork x x := ⟨rfl, rfl, rfl, rfl⟩

theorem KeepsWork.trans {x y z : Lens} (h : KeepsWork x y) (g : KeepsWork y z) : KeepsWork x z :=
  ⟨g.vectors.trans h.vectors, g.epoch.trans h.epoch, g.writes.trans h.writes, g.waiting.trans h.waiting⟩

theorem Chan.putEntry_vectors (c : Chan) (k : Nat) (i : Option Nat) : (c.putEntry k i).lens.vectors = c.lens.vectors := by
  change (c.touchUnit (unitKey 9 0)).lens.vectors = _
  rw [(c.touchUnit_side _).lens]

theorem deleteId_keeps (i : Nat) (c : Chan) : KeepsWork c.lens (deleteId i c).lens := by
  obtain ⟨-, hepoch, -, hwrites, hwaiting, -, hvectors, -⟩ := c.putState_leaves i 2
  have hput : KeepsWork c.lens (c.putState i 2).lens := ⟨hvectors, hepoch, hwrites, hwaiting⟩
  unfold deleteId
  dsimp only
  split
  · have hentry := (c.putState i 2).putEntry_keeps
    exact hput.trans ⟨Chan.putEntry_vectors _ _ _, (hentry _ _).epoch, (hentry _ _).writes, (hentry _ _).waiting⟩
  · exact hput

theorem deleteId_states (i : Nat) (c : Chan) :
    (deleteId i c).lens.stateOf i = 2 ∧ (∀ j, j ≠ i → (deleteId i c).lens.stateOf j = c.lens.stateOf j) ∧
      (deleteId i c).lens.live = (c.putState i 2).lens.live ∧ (deleteId i c).lens.tombs = (c.putState i 2).lens.tombs := by
  have hput : KeepsStates (c.putState i 2).lens (deleteId i c).lens := by
    unfold deleteId
    dsimp only
    split
    · exact Chan.putEntry_keeps _ _ _
    · exact .refl _
  exact ⟨(hput.stateOf i).trans (c.putState_same i 2), fun j hj => (hput.stateOf j).trans (c.putState_other i 2 hj), hput.live, hput.tombs⟩

/-- The step of a delete over its ids. -/
def deleteStep (a : Chan × Nat) (i : Nat) : Chan × Nat := if a.1.lens.stateOf i = 1 then (deleteId i a.1, a.2 + 1) else a

theorem deleteIds_eq (ids : List Nat) (c : Chan) : deleteIds ids c = ids.foldl deleteStep (c, 0) := rfl

theorem deleteSteps_keep (ids : List Nat) (a : Chan × Nat) : KeepsWork a.1.lens (ids.foldl deleteStep a).1.lens :=
  List.foldlRecOn (motive := fun b : Chan × Nat => KeepsWork a.1.lens b.1.lens) ids _ (.refl _) fun b hb i _ => by
    unfold deleteStep
    split
    · exact hb.trans (deleteId_keeps i b.1)
    · exact hb

/-- Each LIVE id of a delete is TOMBSTONE after it, and every other id as it was. -/
theorem deleteSteps_states (ids : List Nat) (a : Chan × Nat) (j : Nat) :
    (ids.foldl deleteStep a).1.lens.stateOf j = if j ∈ ids ∧ a.1.lens.stateOf j = 1 then 2 else a.1.lens.stateOf j := by
  induction ids generalizing a with
  | nil => simp
  | cons i ids ih =>
    rw [List.foldl_cons, ih]
    by_cases hlive : a.1.lens.stateOf i = 1
    · obtain ⟨hsame, hother, -⟩ := deleteId_states i a.1
      have hstep : deleteStep a i = (deleteId i a.1, a.2 + 1) := if_pos hlive
      rw [hstep]
      by_cases hj : j = i
      · subst hj
        simp [hsame, hlive]
      · simp [hother j hj, hj]
    · have hstep : deleteStep a i = a := if_neg hlive
      rw [hstep]
      by_cases hj : j = i
      · subst hj
        simp [hlive]
      · simp [hj]

/-! ### The commands, and the descriptor that goes on at once (R361, R366) -/

section
variable {d : Hdr} {fn ch : Nat} {s : State}

theorem exec_opLensInsert (hacc : Accepts 0x5A d fn ch s) (n ia va : Nat) (ids : List Nat) (vecs : List (List F32)) :
    exec (.opLensInsert d n ia va ids vecs) s = .next (match insertCheck fn ch n ia va s with
      | some st => complete d 0x5A st [0] [] s
      | none => if (s.chan ch).bulkFull then complete d 0x5A .bulkQueueFull [0] [] s
        else lensPump ch (lensAsked 0x5A d fn ch [(ia, 0), (va, 0)] (.lensWrite ch) (.opLensInsert d n ia va ids vecs) s)) := by
  change execOpLensInsert d n ia va ids vecs s = _
  rw [execOpLensInsert, accept_next hacc] <;> rfl

theorem exec_opLensDelete (hacc : Accepts 0x5B d fn ch s) (n ia : Nat) (ids : List Nat) :
    exec (.opLensDelete d n ia ids) s = .next (if n = 0 then complete d 0x5B .lenZero [] [] s
      else if (s.chan ch).lens.hdr.isNone then complete d 0x5B .indexState [] [] s
      else if 65536 < n then complete d 0x5B .paramInvalid [] [] s
      else match rangeCheck fn ia (4 * n) s with
        | some st => complete d 0x5B st [] [] s
        | none => lensPump ch (lensAsked 0x5B d fn ch [(ia, 0)] (.lensWrite ch) (.opLensDelete d n ia ids) s)) := by
  change execOpLensDelete d n ia ids s = _
  rw [execOpLensDelete, accept_next hacc] <;> rfl

/-- A consolidation of the channel is in progress or waits. -/
def consolidating (x : Lens) : Bool :=
  x.writes.any (fun w => w.consolidate) || x.waiting.any (fun e => match e.cmd with | .opLensConsolidate _ => true | _ => false)

theorem exec_opLensConsolidate (hacc : Accepts 0x5C d fn ch s) :
    exec (.opLensConsolidate d) s = .next (if (s.chan ch).lens.hdr.isNone then complete d 0x5C .indexState [] [] s
      else if consolidating (s.chan ch).lens then complete d 0x5C .indexBusy [] [] s
      else if (s.chan ch).bulkFull then complete d 0x5C .bulkQueueFull [] [] s
      else lensPump ch (lensAsked 0x5C d fn ch [] (.lensWrite ch) (.opLensConsolidate d) s)) := by
  change execOpLensConsolidate d s = _
  rw [execOpLensConsolidate, accept_next hacc] <;> rfl

/-- A write descriptor just accepted waits no longer. -/
def lensBegun (opcode : Nat) (d : Hdr) (fn ch : Nat) (ranges : List (Nat × Nat)) (cmd : Instr) (s : State) : State :=
  unheld ch ⟨cmd, deadlineOf d s⟩ (lensAsked opcode d fn ch ranges (.lensWrite ch) cmd s)

section
variable {opcode : Nat} {ranges : List (Nat × Nat)} {cmd : Instr}

/-- Where no other waits, its acceptance leaves the channels as they were. -/
theorem lensBegun_chan (hwaiting : (s.chan ch).lens.waiting = []) (n : Nat) : (lensBegun opcode d fn ch ranges cmd s).chan n = s.chan n := by
  unfold lensBegun unheld lensAsked
  by_cases hn : n = ch
  · subst hn
    have hadd : (addOp opcode d fn n ranges false (.lensWrite n) s).chan n = s.chan n := rfl
    rw [State.modChan_chan_same, State.modChan_chan_same, hadd]
    generalize s.chan n = c at *
    simp only [Chan.modLens, hwaiting, List.nil_append, List.erase_cons_head]
    rw [← hwaiting]
  · rw [State.modChan_chan_other _ _ _ _ hn, State.modChan_chan_other _ _ _ _ hn]
    rfl

theorem lensBegun_ops : (lensBegun opcode d fn ch ranges cmd s).ops = s.ops ++ [⟨d, fn, opcode, ch, false, false, s.now, ranges, .lensWrite ch⟩] := rfl

theorem opOf_lensBegun (h : opOf d.ring d.tag s = none) :
    opOf d.ring d.tag (lensBegun opcode d fn ch ranges cmd s) = some ⟨d, fn, opcode, ch, false, false, s.now, ranges, .lensWrite ch⟩ :=
  (opOf_modChan _ _ _ _ _).trans (opOf_lensAsked h)

/-- A write descriptor goes on at once where no other waits and no generation is to be declared. -/
theorem lensPump_begun (hwrite : (⟨cmd, deadlineOf d s⟩ : LensHeld).isQuery = false)
    (hgo : ∀ c : Chan, declaring c = false → (⟨cmd, deadlineOf d s⟩ : LensHeld).mayGo c = true)
    (hdecl : declaring (s.chan ch) = false) (hwaiting : (s.chan ch).lens.waiting = []) :
    lensPump ch (lensAsked opcode d fn ch ranges (.lensWrite ch) cmd s) =
      pumpWrites ch (((lensStart ch ⟨cmd, deadlineOf d s⟩ (lensBegun opcode d fn ch ranges cmd s)).chan ch).lens.writes.length + 1)
        (lensStart ch ⟨cmd, deadlineOf d s⟩ (lensBegun opcode d fn ch ranges cmd s)) := by
  have hwait : ((lensAsked opcode d fn ch ranges (.lensWrite ch) cmd s).chan ch).lens.waiting = [⟨cmd, deadlineOf d s⟩] := by
    rw [lensAsked_lens, hwaiting]
    rfl
  have hdeclared : declaring ((lensAsked opcode d fn ch ranges (.lensWrite ch) cmd s).chan ch) = false := by
    rw [lensAsked, State.modChan_chan_same]
    exact hdecl
  refine lensPump_one ?_ hwait
  simp [lensNext, hwait, hwrite, Option.filter, hgo _ hdeclared]

end

end

/-! ### A write descriptor joins those in progress (R361) -/

/-- The write of a channel that is begun next, as its number names it. -/
def LensWrite.numbered (w : LensWrite) (x : Lens) : LensWrite := { w with id := x.nextId }

/-- A write descriptor is in progress. -/
def writeJoined (ch : Nat) (w : LensWrite) (s : State) : State :=
  s.modChan ch (fun c => c.modLens (fun x => { x with writes := x.writes ++ [w.numbered (s.chan ch).lens], nextId := x.nextId + 1 }))

/-- The write that an insert begins. -/
def insertWrite (d : Hdr) (dl : Option Nat) (todo : List (Nat × List F32)) : LensWrite :=
  { (default : LensWrite) with ring := d.ring, tag := d.tag, deadline := dl, todo := todo }

/-- The write that a consolidation begins, with the tombstones of that moment. -/
def consolidateWrite (d : Hdr) (dl : Option Nat) (x : Lens) : LensWrite :=
  { (default : LensWrite) with ring := d.ring, tag := d.tag, deadline := dl, stage := 2, consolidate := true
                               tset := (x.states.filter (fun e => e.2 == 2)).map (·.1) }

section
variable {ch : Nat} {w : LensWrite} {s : State}

theorem writeJoined_lens (hwrites : (s.chan ch).lens.writes = []) : ((writeJoined ch w s).chan ch).lens =
    { (s.chan ch).lens with writes := [w.numbered (s.chan ch).lens], nextId := (s.chan ch).lens.nextId + 1 } := by
  rw [writeJoined, State.modChan_chan_same, Chan.modLens, hwrites]
  rfl

theorem writeJoined_other {n : Nat} (hn : n ≠ ch) : (writeJoined ch w s).chan n = s.chan n := State.modChan_chan_other _ _ _ _ hn

theorem writeStart_insert (h : w.consolidate = false) : writeStart ch w s = writeJoined ch w s := if_neg (by simp [h])

theorem writeStart_consolidate (h : w.consolidate = true) :
    writeStart ch w s = pushWrite ch (w.numbered (s.chan ch).lens) (writeJoined ch w s) := if_pos h

/-- A kernel that joins the BULK queue leaves the index, the operations and the other channels. -/
theorem pushWrite_leaves : ((pushWrite ch w s).chan ch).lens = (s.chan ch).lens ∧ (pushWrite ch w s).ops = s.ops ∧
    ∀ n, n ≠ ch → (pushWrite ch w s).chan n = s.chan n := by
  refine ⟨?_, rfl, fun n hn => State.modChan_chan_other _ _ _ _ hn⟩
  rw [pushWrite, State.modChan_chan_same, Chan.pushUnit_tileSide (s.chan ch)]

variable {d : Hdr} {dl : Option Nat} {op : RunOp} (hop : opOf d.ring d.tag s = some op)
include hop

theorem lensStart_insert (n ia va : Nat) (ids : List Nat) (vecs : List (List F32)) :
    lensStart ch ⟨.opLensInsert d n ia va ids vecs, dl⟩ s = writeStart ch (insertWrite d dl ((List.zip ids vecs).take n)) s := by
  simp only [lensStart, lensCmdHdr, hop, insertWrite]

theorem lensStart_delete (n ia : Nat) (ids : List Nat) :
    lensStart ch ⟨.opLensDelete d n ia ids, dl⟩ s = deleteStart ch op n ids s := by
  simp only [lensStart, lensCmdHdr, hop]

theorem lensStart_consolidate :
    lensStart ch ⟨.opLensConsolidate d, dl⟩ s = writeStart ch (consolidateWrite d dl (s.chan ch).lens) s := by
  simp only [lensStart, lensCmdHdr, hop, consolidateWrite]

end

/-- The one write in progress takes up its vector, and no other may. -/
theorem pumpWrites_one {ch : Nat} {w : LensWrite} {s : State} (hwrites : (s.chan ch).lens.writes = [w]) (hstage : w.stage = 0)
    (hcons : w.consolidate = false) (hslots : slotsFree (s.chan ch) ≠ 0)
    (hafter : ∀ y ∈ ((startWrite ch w.id s).chan ch).lens.writes, y.stage ≠ 0 ∨ y.consolidate = true) :
    pumpWrites ch 2 s = startWrite ch w.id s := by
  have hfind : ((s.chan ch).lens.writes.take 64).find? (fun w => w.stage == 0 && !w.consolidate) = some w := by
    simp [hwrites, hstage, hcons]
  rw [pumpWrites, hfind]
  exact (if_neg hslots).trans (pumpWrites_none hafter 1)

/-! ### A write descriptor ends (R361) -/

/-- A write descriptor is no longer in progress, and the epoch has risen. -/
def writeGone (ch : Nat) (w : LensWrite) (s : State) : State :=
  s.modChan ch (fun c => (c.touchUnit (unitKey 9 0)).modLens (fun x =>
    { x with writes := x.writes.filter (fun y => y.id != w.id), epoch := wrap64 (x.epoch + 1) }))

section
variable {ch : Nat} {w : LensWrite} {s : State}

theorem writeEnd_op {op : RunOp} (hop : opOf w.ring w.tag s = some op) (st : Status) (res : List Nat) :
    writeEnd ch w st res s = endOp op st res [] (writeGone ch w s) := by
  unfold writeEnd
  dsimp only
  rw [opOf_modChan, hop]
  rfl

theorem writeGone_lens : ((writeGone ch w s).chan ch).lens.states = (s.chan ch).lens.states ∧
    ((writeGone ch w s).chan ch).lens.writes = (s.chan ch).lens.writes.filter (fun y => y.id != w.id) ∧
      ((writeGone ch w s).chan ch).lens.epoch = wrap64 ((s.chan ch).lens.epoch + 1) := by
  rw [writeGone, State.modChan_chan_same]
  simp only [Chan.modLens]
  rw [((s.chan ch).touchUnit_side _).lens]
  exact ⟨rfl, rfl, rfl⟩

end

/-! ### An insert of one vector (R362, R363) -/

/-- A channel with an id INSERTING, its vector stored and its node empty. -/
def inserting (h : LensHdr) (i : Nat) (v : List F32) (c : Chan) : Chan :=
  ((c.putState i 3).putVector h i (v.map (storeElem h.elem))).putNode h i ⟨lensAux h (v.map (storeElem h.elem)), []⟩

section
variable (h : LensHdr) (i : Nat) (c : Chan)

theorem Chan.putNode_rest (n : LensNode) : (c.putNode h i n).lens.vectors = c.lens.vectors ∧ (c.putNode h i n).lens.entry = c.lens.entry := by
  change (c.touchUnits _ _ _ _).lens.vectors = _ ∧ (c.touchUnits _ _ _ _).lens.entry = _
  rw [(c.touchUnits_side _ _ _ _).lens]
  exact ⟨rfl, rfl⟩

theorem Chan.putVector_rest (v : List F32) :
    (c.putVector h i v).lens.vector i = v ∧ (c.putVector h i v).lens.entry = c.lens.entry := by
  constructor
  · simp [Chan.putVector, Chan.modLens, Lens.vector, tget_tset_same]
  · change (c.touchUnits _ _ _ _).lens.entry = _
    rw [(c.touchUnits_side _ _ _ _).lens]

theorem inserting_keeps (v : List F32) : KeepsStates (c.putState i 3).lens (inserting h i v c).lens :=
  (Chan.putVector_keeps _ _ _ _).trans (Chan.putNode_keeps _ _ _ _)

theorem inserting_vector (v : List F32) : (inserting h i v c).lens.vector i = v.map (storeElem h.elem) := by
  rw [Lens.vector, inserting, (Chan.putNode_rest h i _ _).1]
  exact (Chan.putVector_rest h i _ _).1

theorem inserting_entry (v : List F32) : (inserting h i v c).lens.entry = c.lens.entry := by
  obtain ⟨-, -, -, -, -, -, -, hentry⟩ := c.putState_leaves i 3
  rw [inserting, (Chan.putNode_rest h i _ _).2, (Chan.putVector_rest h i _ _).2, hentry]

end

/-- The search that an insert begins. -/
def insertQuery (h : LensHdr) (w : LensWrite) (v : List F32) : LensQuery :=
  { (default : LensQuery) with vec := v.map (storeElem h.elem), qaux := lensAux h (v.map (storeElem h.elem)), k := h.buildBeam, beam := h.buildBeam
                               deadline := w.deadline, insertOf := some w.id }

/-- The state of an insert whose search begins. -/
def insertBegun (ch : Nat) (h : LensHdr) (w : LensWrite) (i : Nat) (v : List F32) (s : State) : State :=
  s.setChan ch ((inserting h i v (s.chan ch)).modLens (fun y => y.modWrite w.id (fun w => { w with stage := 1 })))

section
variable {ch : Nat} {h : LensHdr} {w : LensWrite} {i : Nat} {v : List F32} {r : List (Nat × List F32)} {s : State}
  (hhdr : (s.chan ch).lens.hdr = some h) (hfind : (s.chan ch).lens.writes.find? (fun y => y.id == w.id) = some w) (hstage : w.stage = 0)
  (hcons : w.consolidate = false) (hslots : slotsFree (s.chan ch) ≠ 0) (htodo : w.todo = (i, v) :: r)
include hhdr hfind hstage hcons hslots htodo

theorem startWrite_bad (hbad : h.capacity ≤ i ∨ badVector v = true) : startWrite ch w.id s = writeEnd ch w .paramInvalid [w.inserted] s := by
  unfold startWrite
  dsimp only
  rw [hhdr, hfind]
  dsimp only
  rw [if_neg (by simp [hstage, hcons, hslots]), htodo]
  exact if_pos hbad

variable (hcap : i < h.capacity) (hgood : badVector v = false)
include hcap hgood

theorem startWrite_exists (hid : (s.chan ch).lens.stateOf i ≠ 0) : startWrite ch w.id s = writeEnd ch w .idExists [w.inserted] s := by
  unfold startWrite
  dsimp only
  rw [hhdr, hfind]
  dsimp only
  rw [if_neg (by simp [hstage, hcons, hslots]), htodo]
  dsimp only
  rw [if_neg (by simp [hgood, Nat.not_le.mpr hcap])]
  exact if_pos hid

theorem startWrite_begins (hid : (s.chan ch).lens.stateOf i = 0) (hseg : (tget (i / 65536) (s.chan ch).lens.segments).isSome = true) :
    startWrite ch w.id s = beginQuery ch h (insertQuery h w v) (insertBegun ch h w i v s) := by
  have hneed : (s.chan ch).needSegment h i = (true, s.chan ch) := if_pos hseg
  unfold startWrite
  dsimp only
  rw [hhdr, hfind]
  dsimp only
  rw [if_neg (by simp [hstage, hcons, hslots]), htodo]
  dsimp only
  rw [if_neg (by simp [hgood, Nat.not_le.mpr hcap]), if_neg (not_not.mpr hid), hneed]
  rfl

end

/-- The search of an insert into an index without entry points ends at once, and its links become work for the tiles. -/
theorem beginQuery_insert {ch id : Nat} {h : LensHdr} {q : LensQuery} {w : LensWrite} {s : State} (hentry : (s.chan ch).lens.entry = [])
    (hcand : q.cand = []) (hof : q.insertOf = some id) (hwrites : (s.chan ch).lens.writes = [w]) (hid : w.id = id) :
    (beginQuery ch h q s).ops = s.ops ∧ (∀ n, n ≠ ch → (beginQuery ch h q s).chan n = s.chan n) ∧
      ((beginQuery ch h q s).chan ch).lens.states = (s.chan ch).lens.states ∧
        ((beginQuery ch h q s).chan ch).lens.vectors = (s.chan ch).lens.vectors ∧
          ((beginQuery ch h q s).chan ch).lens.writes = [{ w with stage := 2, found := q.res }] := by
  rw [beginQuery_noEntry hentry]
  generalize hp : ({ q with id := (s.chan ch).lens.nextId, sticky := auxSticky h q.vec } : LensQuery) = p
  have hsame : p.cand = [] ∧ p.insertOf = some id ∧ p.res = q.res := by
    subst hp
    exact ⟨hcand, hof, rfl⟩
  obtain ⟨hcandp, hofp, hres⟩ := hsame
  rw [advance_found (nextExpand_none hcandp) hofp]
  generalize hb : s.modChan ch (fun c => c.modLens (fun x => { x with queries := x.queries ++ [p], nextId := x.nextId + 1 })) = b
  have hlensb : (b.chan ch).lens =
      { (s.chan ch).lens with queries := (s.chan ch).lens.queries ++ [p], nextId := (s.chan ch).lens.nextId + 1 } := by
    rw [← hb, State.modChan_chan_same]
    rfl
  have hotherb : ∀ n, n ≠ ch → b.chan n = s.chan n := fun n hn => by rw [← hb, State.modChan_chan_other _ _ _ _ hn]
  have hopsb : b.ops = s.ops := by rw [← hb, State.modChan_ops]
  have hlense := queryEnded_lens (ch := ch) (q := p) (s := b) p.id
  have hothere : ∀ n, n ≠ ch → (queryEnded ch p.id (stickyCounted ch p b)).chan n = b.chan n := fun n hn => by
    rw [queryEnded, State.modChan_chan_other _ _ _ _ hn, stickyCounted, State.modChan_chan_other _ _ _ _ hn]
  have hopse : (queryEnded ch p.id (stickyCounted ch p b)).ops = b.ops := rfl
  generalize queryEnded ch p.id (stickyCounted ch p b) = e at *
  have hwe : (e.chan ch).lens.writes = [w] := by rw [hlense, hlensb, hwrites]
  have hfind : (e.chan ch).lens.writes.find? (fun w => w.id == id) = some w := by simp [hwe, hid]
  unfold insertFound
  rw [hfind]
  dsimp only
  generalize hm : e.modChan ch (fun c => c.modLens (fun x => x.modWrite id (fun w => { w with stage := 2, found := p.res }))) = m
  have hlensm : (m.chan ch).lens = { (e.chan ch).lens with writes := [{ w with stage := 2, found := q.res }] } := by
    rw [← hm, State.modChan_chan_same]
    simp [Chan.modLens, Lens.modWrite, hwe, hid, hres]
  obtain ⟨hlens, hops, hother⟩ := pushWrite_leaves (ch := ch) (w := w) (s := m)
  refine ⟨?ops, fun n hn => ?other, ?_⟩
  case ops => rw [hops, ← hm, State.modChan_ops, hopse, hopsb]
  case other => rw [hother n hn, ← hm, State.modChan_chan_other _ _ _ _ hn, hothere n hn, hotherb n hn]
  rw [hlens, hlensm, hlense, hlensb]
  exact ⟨rfl, rfl, rfl⟩

/-! ### Consolidation (R365) -/

section
variable (h : LensHdr)

/-- A tombstone freed. -/
def freeId (c : Chan) (t : Nat) : Chan := (c.putNode h t ⟨0, []⟩).putState t 0

theorem fillEntries_keeps (n : Nat) (c : Chan) : KeepsStates c.lens (fillEntries h n c).lens := by
  induction n generalizing c with
  | zero => exact .refl _
  | succ n ih =>
    unfold fillEntries
    split
    · exact (c.putEntry_keeps _ _).trans (ih _)
    · exact .refl _

theorem freeId_same (c : Chan) (t : Nat) : (freeId h c t).lens.stateOf t = 0 := Chan.putState_same _ _ _

theorem freeId_other (c : Chan) {t j : Nat} (hj : j ≠ t) : (freeId h c t).lens.stateOf j = c.lens.stateOf j :=
  (Chan.putState_other _ t 0 hj).trans ((c.putNode_keeps h t _).stateOf j)

theorem freeId_leaves (c : Chan) (t : Nat) : (freeId h c t).lens.writes = c.lens.writes ∧ (freeId h c t).lens.epoch = c.lens.epoch := by
  obtain ⟨-, hepoch, -, hwrites, -⟩ := Chan.putState_leaves (c.putNode h t ⟨0, []⟩) t 0
  exact ⟨hwrites.trans (c.putNode_keeps h t _).writes, hepoch.trans (c.putNode_keeps h t _).epoch⟩

theorem freeIds_leaves (l : List Nat) (c : Chan) :
    (l.foldl (freeId h) c).lens.writes = c.lens.writes ∧ (l.foldl (freeId h) c).lens.epoch = c.lens.epoch :=
  List.foldlRecOn (motive := fun b : Chan => b.lens.writes = c.lens.writes ∧ b.lens.epoch = c.lens.epoch) l _ ⟨rfl, rfl⟩ fun b hb t _ =>
    ⟨(freeId_leaves h b t).1.trans hb.1, (freeId_leaves h b t).2.trans hb.2⟩

/-- Every tombstone of a consolidation is ABSENT once they are freed. -/
theorem freeIds_absent (l : List Nat) (c : Chan) (j : Nat) (hj : j ∈ l ∨ c.lens.stateOf j = 0) : (l.foldl (freeId h) c).lens.stateOf j = 0 := by
  induction l generalizing c with
  | nil => simpa using hj
  | cons t l ih =>
    rw [List.foldl_cons]
    refine ih _ ?_
    by_cases ht : j = t
    · subst ht
      exact .inr (freeId_same h c j)
    · rw [freeId_other h c ht]
      simpa [ht] using hj

end

/-- The tombstones of a consolidation freed, and the entry points filled. -/
def consolidated (ch : Nat) (h : LensHdr) (w : LensWrite) (s : State) : State :=
  s.modChan ch (fun c => fillEntries h 16 (w.tset.foldl (freeId h) c))

section
variable {ch : Nat} {h : LensHdr} {w : LensWrite} {s : State}

theorem consolidated_lens : (∀ t ∈ w.tset, ((consolidated ch h w s).chan ch).lens.stateOf t = 0) ∧
    ((consolidated ch h w s).chan ch).lens.writes = (s.chan ch).lens.writes ∧
      ((consolidated ch h w s).chan ch).lens.epoch = (s.chan ch).lens.epoch := by
  rw [consolidated, State.modChan_chan_same]
  have hfill := fillEntries_keeps h 16 (w.tset.foldl (freeId h) (s.chan ch))
  obtain ⟨hwrites, hepoch⟩ := freeIds_leaves h w.tset (s.chan ch)
  exact ⟨fun t ht => (hfill.stateOf t).trans (freeIds_absent h _ _ t (.inl ht)), hfill.writes.trans hwrites, hfill.epoch.trans hepoch⟩

theorem exec_consolidateFree (hup : s.up = true) : exec (.consolidateFree ch) s = .next (consolidateFree ch s) := by
  change execConsolidateFree ch s = _
  rw [execConsolidateFree, whenUp_next hup]

theorem consolidateFree_idle (hnone : (s.chan ch).lens.hdr = none ∨ (s.chan ch).lens.writes.find? (fun w => w.consolidate && w.stage == 3) = none) :
    consolidateFree ch s = s := by
  unfold consolidateFree
  dsimp only
  obtain hnone | hnone := hnone
  · rw [hnone]
  · rw [hnone]
    split <;> simp_all

variable (hhdr : (s.chan ch).lens.hdr = some h) (hfind : (s.chan ch).lens.writes.find? (fun w => w.consolidate && w.stage == 3) = some w)
include hhdr hfind

theorem consolidateFree_waits (hrun : (w.waitFor.getD []).any (fun q => (s.chan ch).lens.queries.any (fun y => y.id == q)) = true) :
    consolidateFree ch s = s := by
  unfold consolidateFree
  dsimp only
  rw [hhdr, hfind]
  exact if_pos hrun

theorem consolidateFree_ends (hrun : (w.waitFor.getD []).any (fun q => (s.chan ch).lens.queries.any (fun y => y.id == q)) = false) :
    consolidateFree ch s = lensPump ch (writeEnd ch w .ok [w.tset.length] (consolidated ch h w s)) := by
  unfold consolidateFree
  dsimp only
  rw [hhdr, hfind]
  exact if_neg (by simp [hrun])

end

/-! ### An insert of one vector into an idle index (R362, R363) -/

/-- An insert of one vector just accepted is the write in progress. -/
def insertJoined (d : Hdr) (fn ch ia va i : Nat) (v : List F32) (s : State) : State :=
  writeJoined ch (insertWrite d (deadlineOf d s) [(i, v)]) (lensBegun 0x5A d fn ch [(ia, 0), (va, 0)] (.opLensInsert d 1 ia va [i] [v]) s)

/-- The write of such an insert. -/
def insertOne (d : Hdr) (ch i : Nat) (v : List F32) (s : State) : LensWrite := (insertWrite d (deadlineOf d s) [(i, v)]).numbered (s.chan ch).lens

section
variable {d : Hdr} {fn ch ia va i : Nat} {v : List F32} {s : State}

section
variable (hwaiting : (s.chan ch).lens.waiting = [])
include hwaiting

theorem insertJoined_lens (hwrites : (s.chan ch).lens.writes = []) : ((insertJoined d fn ch ia va i v s).chan ch).lens =
    { (s.chan ch).lens with writes := [insertOne d ch i v s], nextId := (s.chan ch).lens.nextId + 1 } := by
  have hbegun := lensBegun_chan (opcode := 0x5A) (d := d) (fn := fn) (ranges := [(ia, 0), (va, 0)]) (cmd := .opLensInsert d 1 ia va [i] [v]) hwaiting ch
  rw [insertJoined, writeJoined_lens (by rw [hbegun, hwrites]), hbegun]
  rfl

theorem insertJoined_other {n : Nat} (hn : n ≠ ch) : (insertJoined d fn ch ia va i v s).chan n = s.chan n :=
  (writeJoined_other hn).trans (lensBegun_chan hwaiting n)

end

theorem insertJoined_ops :
    (insertJoined d fn ch ia va i v s).ops = s.ops ++ [⟨d, fn, 0x5A, ch, false, false, s.now, [(ia, 0), (va, 0)], .lensWrite ch⟩] := rfl

theorem opOf_insertJoined (h : opOf d.ring d.tag s = none) : opOf (insertOne d ch i v s).ring (insertOne d ch i v s).tag (insertJoined d fn ch ia va i v s) =
    some ⟨d, fn, 0x5A, ch, false, false, s.now, [(ia, 0), (va, 0)], .lensWrite ch⟩ :=
  (opOf_modChan _ _ _ _ _).trans (opOf_lensBegun h)

variable (hdecl : declaring (s.chan ch) = false) (hwaiting : (s.chan ch).lens.waiting = []) (hwrites : (s.chan ch).lens.writes = [])
  (hop : opOf d.ring d.tag s = none)
include hdecl hwaiting hwrites hop

theorem lensPump_insert : lensPump ch (lensAsked 0x5A d fn ch [(ia, 0), (va, 0)] (.lensWrite ch) (.opLensInsert d 1 ia va [i] [v]) s) =
    pumpWrites ch 2 (insertJoined d fn ch ia va i v s) := by
  have hstart : lensStart ch ⟨.opLensInsert d 1 ia va [i] [v], deadlineOf d s⟩
      (lensBegun 0x5A d fn ch [(ia, 0), (va, 0)] (.opLensInsert d 1 ia va [i] [v]) s) = insertJoined d fn ch ia va i v s :=
    (lensStart_insert (opOf_lensBegun hop) _ _ _ _ _).trans (writeStart_insert rfl)
  rw [lensPump_begun rfl (fun c hc => by simp [LensHeld.mayGo, hc]) hdecl hwaiting, hstart, insertJoined_lens hwaiting hwrites]
  rfl

variable (hslots : slotsFree (s.chan ch) ≠ 0)
include hslots

/-- What takes up the vector of the insert is `startWrite`, where it leaves no write to be taken up. -/
theorem lensPump_insert_starts (hafter : ∀ y ∈ ((startWrite ch (insertOne d ch i v s).id (insertJoined d fn ch ia va i v s)).chan ch).lens.writes,
      y.stage ≠ 0 ∨ y.consolidate = true) :
    lensPump ch (lensAsked 0x5A d fn ch [(ia, 0), (va, 0)] (.lensWrite ch) (.opLensInsert d 1 ia va [i] [v]) s) =
      startWrite ch (insertOne d ch i v s).id (insertJoined d fn ch ia va i v s) := by
  have hlens := insertJoined_lens (d := d) (fn := fn) (ia := ia) (va := va) (i := i) (v := v) hwaiting hwrites
  rw [lensPump_insert hdecl hwaiting hwrites hop]
  refine pumpWrites_one (by rw [hlens]) rfl rfl ?_ hafter
  rw [slotsFree, hlens]
  exact hslots

/-- An insert that fails at its vector completes with the failure's status, and the epoch rises. -/
theorem lensPump_insert_fails {st : Status} (hstart : startWrite ch (insertOne d ch i v s).id (insertJoined d fn ch ia va i v s) =
      writeEnd ch (insertOne d ch i v s) st [(insertOne d ch i v s).inserted] (insertJoined d fn ch ia va i v s)) :
    ∃ u, lensPump ch (lensAsked 0x5A d fn ch [(ia, 0), (va, 0)] (.lensWrite ch) (.opLensInsert d 1 ia va [i] [v]) s) =
        endOp ⟨d, fn, 0x5A, ch, false, false, s.now, [(ia, 0), (va, 0)], .lensWrite ch⟩ st [0] [] u ∧
      (u.chan ch).lens.states = (s.chan ch).lens.states ∧ (u.chan ch).lens.epoch = wrap64 ((s.chan ch).lens.epoch + 1) := by
  have hlens := insertJoined_lens (d := d) (fn := fn) (ia := ia) (va := va) (i := i) (v := v) hwaiting hwrites
  rw [writeEnd_op (opOf_insertJoined hop)] at hstart
  obtain ⟨hstates, hgone, hepoch⟩ := writeGone_lens (ch := ch) (w := insertOne d ch i v s) (s := insertJoined d fn ch ia va i v s)
  rw [hlens] at hstates hgone hepoch
  refine ⟨writeGone ch (insertOne d ch i v s) (insertJoined d fn ch ia va i v s), ?_, hstates, hepoch⟩
  rw [lensPump_insert_starts hdecl hwaiting hwrites hop hslots, hstart]
  · rfl
  · rw [hstart, (endOp_host _ _ _ _ _).chan, hgone]
    simp

variable {h : LensHdr} (hhdr : (s.chan ch).lens.hdr = some h)
include hhdr

theorem lensPump_insert_bad (hbad : h.capacity ≤ i ∨ badVector v = true) :
    ∃ u, lensPump ch (lensAsked 0x5A d fn ch [(ia, 0), (va, 0)] (.lensWrite ch) (.opLensInsert d 1 ia va [i] [v]) s) =
        endOp ⟨d, fn, 0x5A, ch, false, false, s.now, [(ia, 0), (va, 0)], .lensWrite ch⟩ .paramInvalid [0] [] u ∧
      (u.chan ch).lens.states = (s.chan ch).lens.states ∧ (u.chan ch).lens.epoch = wrap64 ((s.chan ch).lens.epoch + 1) := by
  have hlens := insertJoined_lens (d := d) (fn := fn) (ia := ia) (va := va) (i := i) (v := v) hwaiting hwrites
  refine lensPump_insert_fails hdecl hwaiting hwrites hop hslots (startWrite_bad (h := h) (i := i) (v := v) (r := []) ?_ ?_ rfl rfl ?_ rfl hbad)
  · rw [hlens, hhdr]
  · simp [hlens]
  · rw [slotsFree, hlens]
    exact hslots

variable (hcap : i < h.capacity) (hgood : badVector v = false)
include hcap hgood

theorem lensPump_insert_exists (hid : (s.chan ch).lens.stateOf i ≠ 0) :
    ∃ u, lensPump ch (lensAsked 0x5A d fn ch [(ia, 0), (va, 0)] (.lensWrite ch) (.opLensInsert d 1 ia va [i] [v]) s) =
        endOp ⟨d, fn, 0x5A, ch, false, false, s.now, [(ia, 0), (va, 0)], .lensWrite ch⟩ .idExists [0] [] u ∧
      (u.chan ch).lens.states = (s.chan ch).lens.states ∧ (u.chan ch).lens.epoch = wrap64 ((s.chan ch).lens.epoch + 1) := by
  have hlens := insertJoined_lens (d := d) (fn := fn) (ia := ia) (va := va) (i := i) (v := v) hwaiting hwrites
  refine lensPump_insert_fails hdecl hwaiting hwrites hop hslots (startWrite_exists (h := h) (i := i) (v := v) (r := []) ?_ ?_ rfl rfl ?_ rfl hcap hgood ?_)
  · rw [hlens, hhdr]
  · simp [hlens]
  · rw [slotsFree, hlens]
    exact hslots
  · rw [hlens]
    exact hid

theorem lensPump_insert_taken (hid : (s.chan ch).lens.stateOf i = 0) (hentry : (s.chan ch).lens.entry = [])
    (hseg : (tget (i / 65536) (s.chan ch).lens.segments).isSome = true) :
    ∃ t, lensPump ch (lensAsked 0x5A d fn ch [(ia, 0), (va, 0)] (.lensWrite ch) (.opLensInsert d 1 ia va [i] [v]) s) = t ∧
      t.ops = s.ops ++ [⟨d, fn, 0x5A, ch, false, false, s.now, [(ia, 0), (va, 0)], .lensWrite ch⟩] ∧ (t.chan ch).lens.stateOf i = 3 ∧
        (t.chan ch).lens.vector i = v.map (storeElem h.elem) ∧ (∀ j, j ≠ i → (t.chan ch).lens.stateOf j = (s.chan ch).lens.stateOf j) ∧
          ∀ n, n ≠ ch → t.chan n = s.chan n := by
  have hlens := insertJoined_lens (d := d) (fn := fn) (ia := ia) (va := va) (i := i) (v := v) hwaiting hwrites
  have hstart := startWrite_begins (ch := ch) (w := insertOne d ch i v s) (s := insertJoined d fn ch ia va i v s) (h := h) (i := i) (v := v) (r := [])
    (by rw [hlens, hhdr]) (by simp [hlens]) rfl rfl (by rw [slotsFree, hlens]; exact hslots) rfl hcap hgood (by rw [hlens]; exact hid)
    (by rw [hlens]; exact hseg)
  have hkeeps := inserting_keeps h i ((insertJoined d fn ch ia va i v s).chan ch) v
  have hstored := inserting_vector h i ((insertJoined d fn ch ia va i v s).chan ch) v
  obtain ⟨-, -, -, hputWrites, -, -, -, hputEntry⟩ := Chan.putState_leaves ((insertJoined d fn ch ia va i v s).chan ch) i 3
  have hkept := inserting_entry h i ((insertJoined d fn ch ia va i v s).chan ch) v
  generalize hb : insertBegun ch h (insertOne d ch i v s) i v (insertJoined d fn ch ia va i v s) = b at *
  generalize hc : inserting h i v ((insertJoined d fn ch ia va i v s).chan ch) = c at *
  have hbegun : (b.chan ch).lens = c.lens.modWrite (insertOne d ch i v s).id (fun w => { w with stage := 1 }) := by
    rw [← hb, insertBegun, State.setChan_chan_same, hc]
    rfl
  have hwritesb : (b.chan ch).lens.writes = [{ insertOne d ch i v s with stage := 1 }] := by
    rw [hbegun, Lens.modWrite, hkeeps.writes, hputWrites, hlens]
    simp
  have hentryb : (b.chan ch).lens.entry = [] := by
    rw [hbegun]
    exact hkept.trans (by rw [hlens, hentry])
  obtain ⟨hops, hother, hstates, hvectors, hafter⟩ := beginQuery_insert (q := insertQuery h (insertOne d ch i v s) v) (h := h) hentryb rfl rfl hwritesb rfl
  have hstatesb : ∀ j, ((beginQuery ch h (insertQuery h (insertOne d ch i v s) v) b).chan ch).lens.stateOf j = c.lens.stateOf j := fun j => by
    rw [Lens.stateOf, hstates, hbegun]
    rfl
  refine ⟨_, lensPump_insert_starts hdecl hwaiting hwrites hop hslots ?_, ?_⟩
  · rw [hstart, hafter]
    simp
  · rw [hstart]
    refine ⟨?ops, ?state, ?vector, fun j hj => ?same, fun n hn => ?_⟩
    case ops =>
      rw [hops, ← hb]
      rfl
    case state => rw [hstatesb, hkeeps.stateOf, Chan.putState_same]
    case vector =>
      rw [Lens.vector, hvectors, hbegun]
      exact hstored
    case same =>
      rw [hstatesb, hkeeps.stateOf, Chan.putState_other _ _ _ hj, hlens]
      rfl
    · rw [hother n hn, ← hb, insertBegun, State.setChan_chan_other _ _ _ _ hn, insertJoined_other hwaiting hn]

end

/-! ### A delete and a consolidation of an idle index (R364, R365) -/

/-- The channel after a delete. -/
def deleted (ids : List Nat) (c : Chan) : Chan :=
  ((ids.foldl deleteStep (c, 0)).1.touchUnit (unitKey 9 0)).modLens (fun x => { x with epoch := wrap64 (x.epoch + 1) })

theorem deleted_keeps (ids : List Nat) (c : Chan) : (deleted ids c).lens.epoch = wrap64 (c.lens.epoch + 1) ∧ (deleted ids c).lens.vectors = c.lens.vectors ∧
    (deleted ids c).lens.writes = c.lens.writes ∧ ∀ j, (deleted ids c).lens.stateOf j = if j ∈ ids ∧ c.lens.stateOf j = 1 then 2 else c.lens.stateOf j := by
  have hsteps := deleteSteps_keep ids (c, 0)
  have hstates := deleteSteps_states ids (c, 0)
  unfold deleted
  generalize (ids.foldl deleteStep (c, 0)).1 = e at *
  have htouch := e.touchUnit_side (unitKey 9 0)
  simp only [Chan.modLens]
  refine ⟨?_, ?_, ?_, fun j => (htouch.keepsStates.stateOf j).trans (hstates j)⟩
  · rw [htouch.keepsStates.epoch, hsteps.epoch]
  · rw [htouch.lens, ← hsteps.vectors]
  · rw [htouch.lens, ← hsteps.writes]

/-- A delete of one LIVE id counts it. -/
theorem deleted_live {c : Chan} {i : Nat} (h : c.lens.stateOf i = 1) :
    ([i].foldl deleteStep (c, 0)).2 = 1 ∧ (deleted [i] c).lens.live = c.lens.live - 1 ∧ (deleted [i] c).lens.tombs = c.lens.tombs + 1 := by
  have hstep : [i].foldl deleteStep (c, 0) = (deleteId i c, 1) := if_pos h
  obtain ⟨-, -, hlive, htombs⟩ := deleteId_states i c
  obtain ⟨hputLive, hputTombs⟩ := c.putState_counts i 2
  have htouch := ((deleteId i c).touchUnit_side (unitKey 9 0)).keepsStates
  refine ⟨by rw [hstep], ?_, ?_⟩
  · rw [deleted, hstep]
    simp only [Chan.modLens]
    rw [htouch.live, hlive, hputLive]
    simp [h]
  · rw [deleted, hstep]
    simp only [Chan.modLens]
    rw [htouch.tombs, htombs, hputTombs]
    simp [h]

/-- A delete of one id that is not LIVE counts none and leaves the entry points. -/
theorem deleted_idle {c : Chan} {i : Nat} (h : c.lens.stateOf i ≠ 1) :
    ([i].foldl deleteStep (c, 0)).2 = 0 ∧ (deleted [i] c).lens.entry = c.lens.entry := by
  have hstep : [i].foldl deleteStep (c, 0) = (c, 0) := if_neg h
  refine ⟨by rw [hstep], ?_⟩
  rw [deleted, hstep]
  simp only [Chan.modLens]
  rw [(c.touchUnit_side _).lens]

theorem deleteStart_eq (ch : Nat) (op : RunOp) (n : Nat) (ids : List Nat) (s : State) : deleteStart ch op n ids s =
    endOp op .ok [((ids.take n).foldl deleteStep (s.chan ch, 0)).2, min n ids.length - ((ids.take n).foldl deleteStep (s.chan ch, 0)).2] []
      (s.setChan ch (deleted (ids.take n) (s.chan ch))) := rfl

section
variable {d : Hdr} {fn ch : Nat} {s : State} (hdecl : declaring (s.chan ch) = false) (hwaiting : (s.chan ch).lens.waiting = [])
  (hwrites : (s.chan ch).lens.writes = []) (hop : opOf d.ring d.tag s = none)
include hdecl hwaiting hwrites hop

theorem lensPump_delete (n ia : Nat) (ids : List Nat) :
    ∃ u, lensPump ch (lensAsked 0x5B d fn ch [(ia, 0)] (.lensWrite ch) (.opLensDelete d n ia ids) s) =
        endOp ⟨d, fn, 0x5B, ch, false, false, s.now, [(ia, 0)], .lensWrite ch⟩ .ok
          [((ids.take n).foldl deleteStep (s.chan ch, 0)).2, min n ids.length - ((ids.take n).foldl deleteStep (s.chan ch, 0)).2] [] u ∧
      u.chan ch = deleted (ids.take n) (s.chan ch) := by
  have hbegun := lensBegun_chan (opcode := 0x5B) (d := d) (fn := fn) (ranges := [(ia, 0)]) (cmd := .opLensDelete d n ia ids) hwaiting ch
  have hstart := lensStart_delete (ch := ch) (dl := deadlineOf d s)
    (opOf_lensBegun (fn := fn) (opcode := 0x5B) (ch := ch) (ranges := [(ia, 0)]) (cmd := .opLensDelete d n ia ids) hop) n ia ids
  rw [deleteStart_eq, hbegun] at hstart
  obtain ⟨-, -, hkept, -⟩ := deleted_keeps (ids.take n) (s.chan ch)
  refine ⟨_, ?_, State.setChan_chan_same (lensBegun 0x5B d fn ch [(ia, 0)] (.opLensDelete d n ia ids) s) ch _⟩
  rw [lensPump_begun rfl (fun c hc => by simp [LensHeld.mayGo, hc]) hdecl hwaiting, hstart]
  refine pumpWrites_none ?_ _
  rw [(endOp_host _ _ _ _ _).chan, State.setChan_chan_same, hkept, hwrites]
  simp

theorem lensPump_consolidate :
    ∃ t w, lensPump ch (lensAsked 0x5C d fn ch [] (.lensWrite ch) (.opLensConsolidate d) s) = t ∧
      t.ops = s.ops ++ [⟨d, fn, 0x5C, ch, false, false, s.now, [], .lensWrite ch⟩] ∧ (t.chan ch).lens.writes = [w] ∧ w.consolidate = true ∧ w.stage = 2 ∧
        w.tset = ((s.chan ch).lens.states.filter (fun e => e.2 == 2)).map (fun e => e.1) ∧ (t.chan ch).lens.states = (s.chan ch).lens.states := by
  have hbegun := lensBegun_chan (opcode := 0x5C) (d := d) (fn := fn) (ranges := []) (cmd := .opLensConsolidate d) hwaiting ch
  have hstart := (lensStart_consolidate (ch := ch) (dl := deadlineOf d s)
    (opOf_lensBegun (fn := fn) (opcode := 0x5C) (ch := ch) (ranges := []) (cmd := .opLensConsolidate d) hop)).trans (writeStart_consolidate rfl)
  rw [hbegun] at hstart
  have hlens := writeJoined_lens (ch := ch) (w := consolidateWrite d (deadlineOf d s) (s.chan ch).lens)
    (s := lensBegun 0x5C d fn ch [] (.opLensConsolidate d) s) (by rw [hbegun, hwrites])
  rw [hbegun] at hlens
  have hops : (writeJoined ch (consolidateWrite d (deadlineOf d s) (s.chan ch).lens) (lensBegun 0x5C d fn ch [] (.opLensConsolidate d) s)).ops =
      s.ops ++ [⟨d, fn, 0x5C, ch, false, false, s.now, [], .lensWrite ch⟩] := rfl
  generalize writeJoined ch (consolidateWrite d (deadlineOf d s) (s.chan ch).lens) (lensBegun 0x5C d fn ch [] (.opLensConsolidate d) s) = j at *
  generalize hw : (consolidateWrite d (deadlineOf d s) (s.chan ch).lens).numbered (s.chan ch).lens = w at *
  have hmade : w.consolidate = true ∧ w.stage = 2 ∧ w.tset = ((s.chan ch).lens.states.filter (fun e => e.2 == 2)).map (fun e => e.1) := by
    subst hw
    exact ⟨rfl, rfl, rfl⟩
  obtain ⟨hcons, hstage, htset⟩ := hmade
  obtain ⟨hpush, hpushOps, -⟩ := pushWrite_leaves (ch := ch) (w := w) (s := j)
  have hpushed : ((pushWrite ch w j).chan ch).lens.writes = [w] := by rw [hpush, hlens]
  refine ⟨pushWrite ch w j, w, ?_, hpushOps.trans hops, hpushed, hcons, hstage, htset, by rw [hpush, hlens]⟩
  rw [lensPump_begun rfl (fun c hc => by simp [LensHeld.mayGo, hc]) hdecl hwaiting, hstart]
  exact pumpWrites_none (by simp [hpushed, hcons]) _

end

/-! ### The settlement -/

/-- What `took` of the statement says: a descriptor accepted is asked, and waits where none may go on. -/
theorem lensAsked_waits {opcode : Nat} {d : Hdr} {fn ch : Nat} {ranges : List (Nat × Nat)} {k : RunKind} {cmd : Instr} {s : State}
    (hnext : lensNext ((lensAsked opcode d fn ch ranges k cmd s).chan ch) = none)
    (hwrites : ∀ w ∈ (s.chan ch).lens.writes, w.stage ≠ 0 ∨ w.consolidate = true) :
    lensPump ch (lensAsked opcode d fn ch ranges k cmd s) = lensAsked opcode d fn ch ranges k cmd s :=
  lensPump_none hnext (by rw [lensAsked_lens]; exact hwrites)

/-- Settles O47: each write by its checks and its turn; inserts, deletes and consolidations of an idle index to their end. -/
theorem indexesAreWritten : Obligations.IndexesAreWritten := by
  refine fun d fn ch s => ⟨fun n ia va ids vecs hacc => ⟨fun st hst => ?insertRefused, fun hcheck => ⟨fun hfull => ?insertFull, fun hroom =>
    ⟨⟨?insertTaken, fun hnext hwrites => ?insertWaits⟩, fun h i v hhdr hdecl hn hids hvecs hwrites hwaiting hslots hop =>
    ⟨fun hbad => ?insertBad, fun hcap hgood hid => ?insertExists, fun hcap hgood hid hentry hseg => ?inserted⟩⟩⟩⟩,
    fun h i found q => linkNode_states h i found q, fun n ia ids hacc => ⟨fun hzero => ?deleteZero, fun hn hnone => ?deleteNone, fun hn hsome =>
    ⟨fun hmany => ?deleteMany, fun hmax => ⟨fun st hst => ?deleteRange, fun hrange => ⟨⟨?deleteTaken, fun hnext hwrites => ?deleteWaits⟩,
    fun hdecl hwaiting hwrites hop => ?deleted⟩⟩⟩⟩, fun hacc => ⟨fun hnone => ?consolidateNone,
    fun hsome (hbusy : consolidating (s.chan ch).lens = true) => ?consolidateBusy, fun hsome (hidle : consolidating (s.chan ch).lens = false) =>
    ⟨fun hfull => ?consolidateFull, fun hroom => ⟨⟨?consolidateTaken, fun hnext hwrites => ?consolidateWaits⟩, fun hdecl hwaiting hwrites hop =>
    ?consolidated⟩⟩⟩, fun hup => ⟨fun hnone => ?freeIdle, fun w h hhdr hfind => ⟨fun hrun => ?freeWaits, fun o hrun hop => ?freed⟩⟩⟩
  case insertRefused => rw [exec_opLensInsert hacc, hst]
  case insertFull => rw [exec_opLensInsert hacc, hcheck, if_pos hfull]
  case insertTaken =>
    rw [exec_opLensInsert hacc, hcheck, if_neg (by simp [hroom])]
    rfl
  case insertWaits =>
    rw [exec_opLensInsert hacc, hcheck, if_neg (by simp [hroom])]
    exact congrArg _ (lensAsked_waits hnext hwrites)
  case insertBad =>
    subst hn hids hvecs
    rw [exec_opLensInsert hacc, hcheck, if_neg (by simp [hroom])]
    obtain ⟨u, hu, hleaves⟩ := lensPump_insert_bad (fn := fn) (ia := ia) (va := va) hdecl hwaiting hwrites hop hslots hhdr hbad
    exact ⟨u, congrArg _ hu, hleaves⟩
  case insertExists =>
    subst hn hids hvecs
    rw [exec_opLensInsert hacc, hcheck, if_neg (by simp [hroom])]
    obtain ⟨u, hu, hleaves⟩ := lensPump_insert_exists (fn := fn) (ia := ia) (va := va) hdecl hwaiting hwrites hop hslots hhdr hcap hgood hid
    exact ⟨u, congrArg _ hu, hleaves⟩
  case inserted =>
    subst hn hids hvecs
    rw [exec_opLensInsert hacc, hcheck, if_neg (by simp [hroom])]
    obtain ⟨t, ht, hleaves⟩ := lensPump_insert_taken (fn := fn) (ia := ia) (va := va) hdecl hwaiting hwrites hop hslots hhdr hcap hgood hid hentry hseg
    exact ⟨t, congrArg _ ht, hleaves⟩
  case deleteZero => rw [exec_opLensDelete hacc, if_pos hzero]
  case deleteNone => rw [exec_opLensDelete hacc, if_neg hn, if_pos (by simp [hnone])]
  case deleteMany => rw [exec_opLensDelete hacc, if_neg hn, if_neg (by simpa using hsome), if_pos hmany]
  case deleteRange => rw [exec_opLensDelete hacc, if_neg hn, if_neg (by simpa using hsome), if_neg (Nat.not_lt.mpr hmax), hst]
  case deleteTaken =>
    rw [exec_opLensDelete hacc, if_neg hn, if_neg (by simpa using hsome), if_neg (Nat.not_lt.mpr hmax), hrange]
    rfl
  case deleteWaits =>
    rw [exec_opLensDelete hacc, if_neg hn, if_neg (by simpa using hsome), if_neg (Nat.not_lt.mpr hmax), hrange]
    exact congrArg _ (lensAsked_waits hnext hwrites)
  case deleted =>
    rw [exec_opLensDelete hacc, if_neg hn, if_neg (by simpa using hsome), if_neg (Nat.not_lt.mpr hmax), hrange]
    obtain ⟨u, hu, hchan⟩ := lensPump_delete (fn := fn) hdecl hwaiting hwrites hop n ia ids
    obtain ⟨hepoch, hvectors, -, hstates⟩ := deleted_keeps (ids.take n) (s.chan ch)
    refine ⟨u, _, congrArg _ hu, by rw [hchan, hepoch], by rw [hchan, hvectors], fun j => by rw [hchan, hstates], fun i hone hids hlive => ?_,
      fun i hone hids hidle => ?_⟩
    · subst hone hids
      rw [hchan]
      exact deleted_live hlive
    · subst hone hids
      rw [hchan]
      exact deleted_idle hidle
  case consolidateNone => rw [exec_opLensConsolidate hacc, if_pos (by simp [hnone])]
  case consolidateBusy => rw [exec_opLensConsolidate hacc, if_neg (by simpa using hsome), if_pos hbusy]
  case consolidateFull => rw [exec_opLensConsolidate hacc, if_neg (by simpa using hsome), if_neg (ne_true_of_eq_false hidle), if_pos hfull]
  case consolidateTaken =>
    rw [exec_opLensConsolidate hacc, if_neg (by simpa using hsome), if_neg (ne_true_of_eq_false hidle), if_neg (by simp [hroom])]
    rfl
  case consolidateWaits =>
    rw [exec_opLensConsolidate hacc, if_neg (by simpa using hsome), if_neg (ne_true_of_eq_false hidle), if_neg (by simp [hroom])]
    exact congrArg _ (lensAsked_waits hnext hwrites)
  case consolidated =>
    rw [exec_opLensConsolidate hacc, if_neg (by simpa using hsome), if_neg (ne_true_of_eq_false hidle), if_neg (by simp [hroom])]
    obtain ⟨t, w, ht, hleaves⟩ := lensPump_consolidate (fn := fn) hdecl hwaiting hwrites hop
    exact ⟨t, w, congrArg _ ht, hleaves⟩
  case freeIdle => rw [exec_consolidateFree hup, consolidateFree_idle hnone]
  case freeWaits => rw [exec_consolidateFree hup, consolidateFree_waits hhdr hfind hrun]
  case freed =>
    obtain ⟨habsent, hwritesc, hepochc⟩ := consolidated_lens (ch := ch) (h := h) (w := w) (s := s)
    obtain ⟨hstates, hgone, hepoch⟩ := writeGone_lens (ch := ch) (w := w) (s := consolidated ch h w s)
    refine ⟨writeGone ch w (consolidated ch h w s), ?_, fun t ht => ?_, by rw [hgone, hwritesc], by rw [hepoch, hepochc]⟩
    · rw [exec_consolidateFree hup, consolidateFree_ends hhdr hfind hrun, writeEnd_op (by exact hop)]
    · rw [Lens.stateOf, hstates]
      exact habsent t ht

end Sys2Proof.Machine
end

section
/-! The peer table under the shared operations: what a request that fails, an adapter that is lost and their effects leave of it (R491). -/

namespace Sys2Proof.Machine

open Sys2Proof

@[simp] theorem ite_peers (c : Prop) [Decidable c] (s t : State) : (if c then s else t).peers = if c then s.peers else t.peers := apply_ite _ _ _ _

theorem foldl_peers {α : Type} (f : State → α → State) (h : ∀ s a, (f s a).peers = s.peers) (l : List α) (s : State) :
    (l.foldl f s).peers = s.peers :=
  List.foldlRecOn (motive := fun t : State => t.peers = s.peers) l f rfl fun t ht a _ => (h t a).trans ht

/-! ### Shared operations: events, descriptors and requests -/

section
variable (fn source count ch tier addr n opcode target id : Nat) (ev : Event) (s : State) (op : RunOp) (d : Hdr) (ranges : List (Nat × Nat))
   (begun : Bool) (k : RunKind) (r : Request) (p : Payload) (f : ReqKind → Bool) (st : Status) (result : List Nat)
   (writes : List (Nat × Payload))

@[simp] theorem raiseEventN_peers : (raiseEventN fn ev source count s).peers = s.peers := (raiseEventN_host _ _ _ _ _).peers

@[simp] theorem raiseEvent_peers : (raiseEvent fn ev source s).peers = s.peers := (raiseEvent_host _ _ _ _).peers

@[simp] theorem memPoison_peers : (memPoison ch tier addr n s).peers = s.peers := by
  unfold memPoison
  dsimp only
  (repeat' split) <;> simp

@[simp] theorem dropOp_peers : (dropOp op s).peers = s.peers := by simp [dropOp]

@[simp] theorem addOp_peers : (addOp opcode d fn target ranges begun k s).peers = s.peers := (addOp_host _ _ _ _ _ _ _ _).peers

@[simp] theorem launch_peers (op : PktOp) : (launch r op addr p s).peers = s.peers := by simp [launch]

theorem sendReq_peers {unit fid dst fn addr : Nat} {k : ReqKind} {op : PktOp} {p : Payload} {s t : State}
    (h : sendReq unit fid dst fn k op addr p s = .ok t) : t.peers = s.peers := (sendReq_req h).host.peers

@[simp] theorem dropReqs_peers : (dropReqs f s).peers = s.peers := by simp [dropReqs]

@[simp] theorem dataDone_peers : (dataDone id s).peers = s.peers := (dataDone_host _ _).peers

@[simp] theorem endOp_peers : (endOp op st result writes s).peers = s.peers := (endOp_host _ _ _ _ _).peers

@[simp] theorem complete_peers : (complete d opcode st result writes s).peers = s.peers := (complete_host _ _ _ _ _ _).peers

@[simp] theorem endOps_peers (p : RunOp → Bool) : (endOps p st s).peers = s.peers := (endOps_host _ _ _).peers

end

/-! ### Sessions (R43 to R50) -/

section
variable (d : Hdr) (opcode ch i fn toolTag genLimit grammarSlot steps seqs units fid unit step slot at_ part rank addr : Nat) (st : Status)
   (result area : List Nat) (writes : List (Nat × Payload)) (s : State) (cmd : Instr) (v : Verdict) (f : State → State) (h : Handle)
   (feed useDefault rebind grammarEn prefill sample : Bool) (g : ParamImage) (a : TextArgs) (bs : List Byte) (p : Pkt) (op : PktOp)

@[simp] theorem done_peers : (done d opcode st result writes s).peers = s.peers := (done_host _ _ _ _ _ _).peers

@[simp] theorem holdPending_peers : (holdPending cmd d opcode ch i fn area s).peers = s.peers := by
  unfold holdPending
  dsimp only
  (repeat' split) <;> simp

@[simp] theorem onVerdictWith_peers (hf : ∀ s, (f s).peers = s.peers) :
    (onVerdictWith area v cmd d opcode ch i fn f s).peers = s.peers := by
  unfold onVerdictWith
  (repeat' split) <;> simp_all

@[simp] theorem onVerdict_peers (hf : ∀ s, (f s).peers = s.peers) :
    (onVerdict v cmd d opcode ch i fn f s).peers = s.peers := by simp_all [onVerdict]

@[simp] theorem endPending_peers : (endPending ch i st s).peers = s.peers := by
  unfold endPending
  dsimp only
  refine (foldl_peers _ (fun s a => ?_) _ _).trans ?_
  · (repeat' split) <;> simp_all
  · simp_all

@[simp] theorem closeNow_peers : (closeNow d ch i s).peers = s.peers := by
  unfold closeNow
  (repeat' split) <;> simp

@[simp] theorem sessClose_peers : (sessClose cmd d h ch fn s).peers = s.peers := by simp [sessClose]

@[simp] theorem forkNow_peers : (forkNow d ch i fn s).peers = s.peers := by
  unfold forkNow
  dsimp only
  (repeat' split) <;> simp

@[simp] theorem sessFork_peers : (sessFork cmd d h ch fn s).peers = s.peers := by simp [sessFork]

theorem resumeRun_peers {ch i limit deadline : Nat} {feed : Bool} {s t : State} (h : resumeRun ch i limit deadline feed s = some t) :
    t.peers = s.peers := by
  unfold resumeRun at h
  dsimp only at h
  split at h
  · cases h
  · obtain ⟨c, -, rfl⟩ := Option.map_eq_some_iff.mp h
    simp

@[simp] theorem resumeNow_peers : (resumeNow d ch i toolTag genLimit feed useDefault s).peers = s.peers := by
  unfold resumeNow
  extract_lets c e limit
  iterate 5
    split
    · simp
  split
  · exact (done_peers ..).trans (resumeRun_peers (by assumption))
  · simp

@[simp] theorem sessResume_peers : (sessResume cmd d h toolTag genLimit feed useDefault ch fn s).peers = s.peers := by simp [sessResume]

@[simp] theorem setNow_peers : (setNow d ch i g rebind grammarSlot grammarEn s).peers = s.peers := by simp [setNow]

@[simp] theorem sessSet_peers : (sessSet cmd d h g rebind grammarSlot grammarEn ch fn s).peers = s.peers := by simp [sessSet]

@[simp] theorem textNow_peers : (textNow d a ch i s).peers = s.peers := by
  unfold textNow
  dsimp only
  (repeat' split) <;> simp

@[simp] theorem sessText_peers : (sessText cmd d a ch fn s).peers = s.peers := by simp [sessText]

@[simp] theorem countMiss_peers : (countMiss ch steps seqs units s).peers = s.peers := by simp [countMiss]

@[simp] theorem appendNow_peers (a : AppendArgs) : (appendNow d a prefill opcode ch fn s).peers = s.peers := by
  unfold appendNow
  dsimp only
  (repeat' split) <;> simp

@[simp] theorem sessAppend_peers (a : AppendArgs) : (sessAppend cmd d a prefill opcode ch fn s).peers = s.peers := by simp [sessAppend]

@[simp] theorem emitPart_peers : (emitPart sample ch fid unit step slot at_ part rank st bs s).peers = s.peers := by
  unfold emitPart
  exact foldl_peers _ (fun s g => s.emit_peers ..) _ _

@[simp] theorem respond_peers (d : Payload) : (respond p op st addr d s).peers = s.peers := by simp [respond]

end

/-! ### Parks and revives (R64 to R67) -/

section
variable (ch i entry mode len e opcode fn stage n : Nat) (s : State) (pend : Nat → Nat → State → State) (l : Loc) (f : Nat × Nat)
   (q : Loc × Nat × Nat) (st : Status) (poison : Bool) (x? e? : Option Envelope) (d : Hdr) (cmd : Instr) (h : Handle) (k : Hooks) (p : Page)
   (plain : List Byte)

@[simp] theorem noPend_peers : (noPend ch i s).peers = s.peers := rfl

@[simp] theorem parkFail_peers (hp : ∀ a b s, (pend a b s).peers = s.peers) : (parkFail pend ch i s).peers = s.peers := by
  unfold parkFail
  dsimp only
  (repeat' split) <;> simp_all

@[simp] theorem parkSend_peers (hp : ∀ a b s, (pend a b s).peers = s.peers) : (parkSend pend ch i entry l mode f s).peers = s.peers := by
  unfold parkSend
  dsimp only
  split
  · exact parkFail_peers (hp := hp) ..
  · split
    · rename_i hsent
      exact (sendReq_peers hsent).trans rfl
    · exact parkFail_peers (hp := hp) ..

@[simp] theorem parkFetch_peers (hp : ∀ a b s, (pend a b s).peers = s.peers) : (parkFetch pend ch i entry len l s).peers = s.peers := by
  unfold parkFetch
  dsimp only
  split
  · exact sendReq_peers (by assumption)
  · exact parkFail_peers (hp := hp) ..

@[simp] theorem parkPage_peers (hp : ∀ a b s, (pend a b s).peers = s.peers) :
    (parkPage pend ch i e q s).peers = s.peers := by simp_all [parkPage]

@[simp] theorem parkGo_peers (hp : ∀ a b s, (pend a b s).peers = s.peers) : (parkGo pend ch i s).peers = s.peers := by
  unfold parkGo
  dsimp only
  (repeat' split) <;> simp_all

@[simp] theorem parkAck_peers (hp : ∀ a b s, (pend a b s).peers = s.peers) : (parkAck pend ch i st s).peers = s.peers := by
  unfold parkAck
  (repeat' split) <;> simp_all

@[simp] theorem parkReadRsp_peers (hp : ∀ a b s, (pend a b s).peers = s.peers) :
    (parkReadRsp pend ch i e st poison x? s).peers = s.peers := by
  unfold parkReadRsp
  dsimp only
  (repeat' split) <;> simp_all

@[simp] theorem hold_peers (k : RunKind) : (hold opcode d fn ch k s).peers = s.peers := by
  unfold hold
  (repeat' split) <;> simp

@[simp] theorem parkNow_peers : (parkNow d ch i fn s).peers = s.peers := by
  unfold parkNow
  split
  · simp
  · split
    · simp
    · dsimp only
      split
      · simp
      · exact (parkGo_peers (hp := noPend_peers) ..).trans (hold_peers ..)

@[simp] theorem sessPark_peers : (sessPark cmd d h ch fn s).peers = s.peers := by simp [sessPark]

@[simp] theorem reviveStop_peers (hp : ∀ a b s, (k.pend a b s).peers = s.peers) (hf : ∀ a b st s, (k.failWaiting a b st s).peers = s.peers) :
    (reviveStop k ch i e st s).peers = s.peers := by
  unfold reviveStop
  dsimp only
  (repeat' split) <;> simp_all

@[simp] theorem layer0Resident_peers : (layer0Resident ch i s).peers = s.peers := by simp [layer0Resident]

@[simp] theorem reviveEnd_peers : (reviveEnd ch i s).peers = s.peers := by
  unfold reviveEnd
  dsimp only
  (repeat' split) <;> simp

@[simp] theorem reviveRead_peers (hp : ∀ a b s, (k.pend a b s).peers = s.peers) (hf : ∀ a b st s, (k.failWaiting a b st s).peers = s.peers) :
    (reviveRead k ch i e stage len l s).peers = s.peers := by
  unfold reviveRead
  dsimp only
  split
  · exact sendReq_peers (by assumption)
  · exact reviveStop_peers (hp := hp) (hf := hf) ..

@[simp] theorem revivePages_peers (hp : ∀ a b s, (k.pend a b s).peers = s.peers) (hf : ∀ a b st s, (k.failWaiting a b st s).peers = s.peers) :
    (revivePages k ch i n s).peers = s.peers := by
  induction n generalizing s with
  | zero => rfl
  | succ n ih =>
    unfold revivePages
    dsimp only
    (repeat' split) <;> simp_all

@[simp] theorem reviveMapped_peers (hp : ∀ a b s, (k.pend a b s).peers = s.peers) (hf : ∀ a b st s, (k.failWaiting a b st s).peers = s.peers) :
    (reviveMapped k ch i s).peers = s.peers := by
  unfold reviveMapped
  dsimp only
  (repeat' split) <;> simp_all

@[simp] theorem reviveNow_peers (hp : ∀ a b s, (k.pend a b s).peers = s.peers) (hf : ∀ a b st s, (k.failWaiting a b st s).peers = s.peers) :
    (reviveNow k d ch i fn s).peers = s.peers := by
  unfold reviveNow
  dsimp only
  (repeat' split) <;> simp_all

@[simp] theorem sessRevive_peers (hp : ∀ a b s, (k.pend a b s).peers = s.peers) (hf : ∀ a b st s, (k.failWaiting a b st s).peers = s.peers) :
    (sessRevive k cmd d h ch fn s).peers = s.peers := by simp_all [sessRevive]

@[simp] theorem revivePage_peers (hp : ∀ a b s, (k.pend a b s).peers = s.peers) (hf : ∀ a b st s, (k.failWaiting a b st s).peers = s.peers) :
    (revivePage k ch i e p plain s).peers = s.peers := by
  unfold revivePage
  dsimp only
  (repeat' split) <;> simp_all

@[simp] theorem reviveRsp_peers (hp : ∀ a b s, (k.pend a b s).peers = s.peers) (hf : ∀ a b st s, (k.failWaiting a b st s).peers = s.peers) :
    (reviveRsp k ch i stage st poison e? s).peers = s.peers := by
  unfold reviveRsp
  dsimp only
  (repeat' split) <;> simp_all

@[simp] theorem fetchLost_peers (d : Nat) : (fetchLost ch d s).peers = s.peers := by simp [fetchLost]

@[simp] theorem spillFail_peers (d : Nat) : (spillFail ch d s).peers = s.peers := by simp [spillFail]

end

/-! ### Records and steps (R96, R140, R302) -/

section
variable (s : State) (n i hi stepNo ch fn num sl : Nat) (st : Status) (cur err : Bool) (r : Record) (fields toks : List Nat)
   (text : List Byte) (x : Slot) (o : Option SampleOut) (pend : Nat → Nat → State → State) (cmd : Instr)

@[simp] theorem abandonGen_peers : (abandonGen s).peers = s.peers := by
  unfold abandonGen
  (repeat' split) <;> simp [foldl_peers]

@[simp] theorem unprotected_peers : (unprotected n st s).peers = s.peers := by simp [unprotected]

@[simp] theorem sendRecord_peers : (sendRecord n cur r s).peers = s.peers := by
  unfold sendRecord
  dsimp only
  split
  · rfl
  · split
    · exact unprotected_peers ..
    · split
      · exact (sendReq_peers (by assumption)).trans (by simp)
      · exact unprotected_peers ..

@[simp] theorem sendTails_peers : (sendTails n i hi cur s).peers = s.peers := by simp [sendTails, foldl_peers]

@[simp] theorem stepTails_peers : (stepTails n stepNo i s).peers = s.peers := by simp [stepTails]

@[simp] theorem outRecord_peers : (outRecord ch i fn fields toks text s).peers = s.peers := by
  unfold outRecord
  (repeat' split) <;> simp

@[simp] theorem endSegment_peers : (endSegment ch num sl x st o err s).peers = s.peers := by
  unfold endSegment
  (repeat' split) <;> simp

@[simp] theorem endRecord_peers : (endRecord ch num x st o s).peers = s.peers := by
  unfold endRecord
  dsimp only
  (repeat' split) <;> simp

@[simp] theorem endSteps_peers : (endSteps ch n s).peers = s.peers := by
  induction n generalizing s with
  | zero => rfl
  | succ n ih =>
    unfold endSteps
    dsimp only
    (repeat' split) <;> simp_all [foldl_peers]

@[simp] theorem checkStep_peers : (checkStep ch num s).peers = s.peers := by
  unfold checkStep
  dsimp only
  (repeat' split) <;> simp

@[simp] theorem finishSeq_peers (hp : ∀ a b s, (pend a b s).peers = s.peers) : (finishSeq pend ch num sl st o err s).peers = s.peers := by
  unfold finishSeq
  (repeat' split) <;> simp_all

@[simp] theorem failHeld_peers (hp : ∀ a b s, (pend a b s).peers = s.peers) :
    (failHeld pend ch i st s).peers = s.peers := by simp_all [failHeld, foldl_peers]

@[simp] theorem runOne_peers (hp : ∀ a b s, (pend a b s).peers = s.peers) : (runOne pend ch cmd s).peers = s.peers := by
  unfold runOne
  (repeat' split) <;> simp_all

@[simp] theorem runPending_peers : (runPending n i ch s).peers = s.peers := by
  induction n generalizing i ch s with
  | zero => rfl
  | succ n ih =>
    unfold runPending
    dsimp only
    (repeat' split) <;> simp_all [foldl_peers]

@[simp] theorem pendNow_peers : (pendNow i ch s).peers = s.peers := by simp [pendNow]

end

/-! ### Loads and generations (R182, R300) -/

section
variable (l : Load) (n id word g index fid unit : Nat) (s : State) (chs : List Nat) (st : Status)
   (img : Option TokImage × Option GramImage × Option ModelImage) (at_ : Option (Nat × Nat)) (priority : Bool) (body sig : List Byte)

@[simp] theorem undoLoad_peers : (undoLoad l n s).peers = s.peers := by simp [undoLoad]

@[simp] theorem installLoad_peers : (installLoad l n s).peers = s.peers := by
  unfold installLoad
  (repeat' split) <;> simp

@[simp] theorem loadEnd_peers : (loadEnd l chs st s).peers = s.peers := by
  unfold loadEnd
  dsimp only
  (repeat' split) <;> simp_all [foldl_peers]

@[simp] theorem loadPart_peers : (loadPart id n st word img at_ s).peers = s.peers := by
  unfold loadPart
  (repeat' split) <;> simp

@[simp] theorem completeGen_peers : (completeGen g s).peers = s.peers := by
  unfold completeGen
  refine (foldl_peers _ (fun s o => by simp) _ _).trans ?_
  exact foldl_peers _ (fun s n => by simp) _ _

@[simp] theorem reloadSlot1_peers : (reloadSlot1 n s).peers = s.peers := by
  unfold reloadSlot1
  (repeat' split) <;> simp

@[simp] theorem renewSlot1_peers : (renewSlot1 n s).peers = s.peers := by simp [renewSlot1]

@[simp] theorem startGen_peers : (startGen priority s).peers = s.peers := by simp [startGen, foldl_peers]

@[simp] theorem sendManifest_peers : (sendManifest g n body sig s).peers = s.peers := by
  unfold sendManifest
  dsimp only
  split
  · rfl
  · split
    · exact (sendReq_peers (by assumption)).trans (by simp)
    · exact unprotected_peers ..

@[simp] theorem checkGen_peers : (checkGen s).peers = s.peers := by
  unfold checkGen
  (repeat' split) <;> simp [foldl_peers]

@[simp] theorem recordAck_peers : (recordAck n g index st s).peers = s.peers := by
  unfold recordAck
  dsimp only
  (repeat' split) <;> simp

@[simp] theorem manifestAck_peers : (manifestAck n st s).peers = s.peers := by simp [manifestAck]

@[simp] theorem buddyLost_peers : (buddyLost fid unit s).peers = s.peers := by simp [buddyLost, foldl_peers]

end

/-! ### POOL (R325 to R341) -/

section
variable (ev : Event) (ch owner done result key id cause n fid unit ring tag : Nat) (s : State) (r : PoolReq) (st : Status)
   (data : List Byte) (keys ids : List Nat) (cmd : Instr) (d : Done) (x : Extent) (l : Lease) (more : Nat → List Nat → State → State)

@[simp] theorem poolEvent_peers : (poolEvent ev ch owner s).peers = s.peers := by simp [poolEvent]

@[simp] theorem answer_peers : (answer r st done result data s).peers = s.peers := by simp [answer]

theorem forward_peers {ch key off n : Nat} {x : Extent} {poison : Bool} {s t : State} (h : forward ch key x off n poison s = some t) :
    t.peers = s.peers := by
  unfold forward at h
  dsimp only at h
  split at h
  · cases h
    exact sendReq_peers (by assumption)
  · cases h

@[simp] theorem dropInflight_peers : (dropInflight ch keys s).peers = s.peers := by
  unfold dropInflight
  exact foldl_peers _ (fun s k => by simp) _ _

@[simp] theorem finishReq_peers : (finishReq r keys st done result data s).peers = s.peers := by simp [finishReq]

@[simp] theorem degrade_peers : (degrade ch key s).peers = s.peers := by
  unfold degrade
  dsimp only
  refine (foldl_peers _ (fun s a => ?_) _ _).trans ?_
  · (repeat' split) <;> simp_all
  · simp_all

@[simp] theorem forwardAck_peers : (forwardAck ch key st s).peers = s.peers := by
  unfold forwardAck
  (repeat' split) <;> simp

@[simp] theorem settleReq_peers : (settleReq cmd r keys d s).peers = s.peers := by
  unfold settleReq
  extract_lets ch stored poisoned
  have hpoisoned : poisoned.peers = s.peers := by
    unfold poisoned
    (repeat' split) <;> simp [stored]
  split
  · simp [hpoisoned]
  · split
    · simp [hpoisoned]
    · dsimp only
      split
      · simp [hpoisoned]
      · split
        · rename_i hsent
          exact (forward_peers hsent).trans hpoisoned
        · simp [hpoisoned]

@[simp] theorem sendRecall_peers : (sendRecall ch id s).peers = s.peers := by
  unfold sendRecall
  (repeat' split) <;> simp

@[simp] theorem recallLease_peers : (recallLease ch id s).peers = s.peers := by
  unfold recallLease
  (repeat' split) <;> simp

@[simp] theorem acquire_peers : (acquire cmd r key x s).peers = s.peers := by
  unfold acquire
  dsimp only
  (repeat' split) <;> simp

@[simp] theorem lateLease_peers : (lateLease r key s).peers = s.peers := by simp [lateLease]

@[simp] theorem poisonLine_peers : (poisonLine ch l s).peers = s.peers := by
  unfold poisonLine
  dsimp only
  split
  · rfl
  · split
    · simp
    · cases hsent : forward _ _ _ _ _ _ _ with
      | none => simp
      | some t => exact (forward_peers hsent).trans (by simp)

@[simp] theorem endLeases_peers : (endLeases ch cause ids s).peers = s.peers := by simp [endLeases, foldl_peers]

@[simp] theorem poolTry_peers (hm : ∀ n l s, (more n l s).peers = s.peers) : (poolTry more cmd r s).peers = s.peers := by
  unfold poolTry
  dsimp only
  (repeat' split) <;> simp_all [foldl_peers]

@[simp] theorem leasesGone_peers : (leasesGone n ch ids s).peers = s.peers := by
  induction n generalizing ch ids s with
  | zero => rfl
  | succ n ih =>
    unfold leasesGone
    refine (foldl_peers _ (fun s w => ?_) _ _).trans (by simp)
    (repeat' split) <;> simp [ih]

@[simp] theorem endAndWake_peers : (endAndWake ch cause ids s).peers = s.peers := by simp [endAndWake]

@[simp] theorem adapterLost_peers : (adapterLost fid s).peers = s.peers := by simp [adapterLost, foldl_peers]

@[simp] theorem rebuildLost_peers : (rebuildLost fid unit s).peers = s.peers := by simp [rebuildLost, foldl_peers]

@[simp] theorem poolOpDone_peers : (poolOpDone ring tag st done result s).peers = s.peers := by
  unfold poolOpDone
  (repeat' split) <;> simp

end

/-! ### Waits and resets (R337, R402 to R406) -/

section
variable (ring err fn : Nat) (s : State) (op : RunOp) (st : Status) (res rings : List Nat) (d : Fetched) (run : FnReset) (tag : Option Nat)

@[simp] theorem ringFault_peers : (ringFault ring err s).peers = s.peers := (ringFault_host _ _ _).peers

@[simp] theorem endWait_peers : (endWait op st res s).peers = s.peers := by simp [endWait]

@[simp] theorem cancelOp_peers : (cancelOp op s).peers = s.peers := by
  unfold cancelOp
  (repeat' split) <;> simp

@[simp] theorem unchargeOne_peers : (unchargeOne ring d s).peers = s.peers := by
  unfold unchargeOne
  (repeat' split) <;> simp

@[simp] theorem uncharge_peers : (uncharge op s).peers = s.peers := by
  unfold uncharge
  (repeat' split) <;> simp

@[simp] theorem detachOp_peers : (detachOp op s).peers = s.peers := by simp [detachOp]

@[simp] theorem endByReset_peers : (endByReset op s).2.peers = s.peers := by
  unfold endByReset
  (repeat' split) <;> simp

@[simp] theorem abortRead_peers : (abortRead ring s).peers = s.peers := by simp [abortRead, foldl_peers]

@[simp] theorem endDescriptors_peers : (endDescriptors rings s).1.peers = s.peers := by
  unfold endDescriptors
  refine (foldl_peers _ (fun s n => abortRead_peers ..) _ _).trans ?_
  refine List.foldlRecOn (motive := fun p : State × Nat × Nat => p.1.peers = s.peers) _ _ rfl fun p hp op _ => ?_
  split
  · dsimp only
    split <;> exact (endByReset_peers ..).trans hp
  · exact hp

@[simp] theorem disableRing_peers : (disableRing ring s).peers = s.peers := by simp [disableRing]

@[simp] theorem spendSecrets_peers : (spendSecrets s).peers = s.peers := by simp [spendSecrets]

@[simp] theorem finishFnReset_peers : (finishFnReset fn run s).peers = s.peers := by simp [finishFnReset]

@[simp] theorem fnReset_peers : (fnReset fn tag s).peers = s.peers := by
  unfold fnReset
  (repeat' split) <;> simp [foldl_peers]

end

/-! ### Requests that fail (R435, R491) -/

section
variable (k : ReqKind) (st : Status) (s : State) (fid : Nat)

@[simp] theorem reqFailed_peers : (reqFailed k st s).peers = s.peers := by
  unfold reqFailed
  cases k <;> dsimp only
  all_goals (repeat' split) <;> simp [hooks]

@[simp] theorem waitsLost_peers : (waitsLost fid s).peers = s.peers := by simp [waitsLost, foldl_peers]

@[simp] theorem peerDownEffects_peers : (peerDownEffects fid s).peers = s.peers := by simp [peerDownEffects, foldl_peers]

end

/-! ### A report (R491) -/

/-- What follows a report leaves the peer table as the report made it. -/
theorem reportPeer_peers (fid unit port cause : Nat) (s : State) : (reportPeer fid unit port cause s).peers = (report fid unit port cause s).1.peers := by
  unfold reportPeer
  extract_lets fresh newUnit r failed lost
  have hfailed : failed.peers = r.1.peers := foldl_peers _ (fun s q => reqFailed_peers ..) _ _
  have hlost : lost.peers = failed.peers := by
    unfold lost
    split <;> simp
  split
  · exact (peerDownEffects_peers ..).trans (hlost.trans hfailed)
  · exact hlost.trans hfailed

theorem Peer.reported_down (port cause now : Nat) (p : Peer) : (p.reported port cause now).down = true := by
  unfold Peer.reported
  split
  · assumption
  · rfl

/-- A peer reported is PEER_DOWN, and one that was stays it. -/
theorem reportPeer_down {fid k : Nat} (unit port cause : Nat) {s : State} (hk : k < 80) (h : k = fid ∨ (s.peer k).down = true) :
    ((reportPeer fid unit port cause s).peer k).down = true := by
  rw [State.peer, reportPeer_peers]
  change ((report fid unit port cause s).1.peer k).down = true
  by_cases hfid : fid < 80
  · obtain ⟨hsame, hother⟩ := report_peer (unit := unit) (port := port) (cause := cause) (s := s) hfid
    by_cases hkf : k = fid
    · rw [hkf, hsame, Peer.marked_other]
      exact Peer.reported_down ..
    · rw [hother k hkf]
      exact h.resolve_left hkf
  · rw [report, if_pos (Nat.not_lt.mp hfid)]
    exact h.resolve_left (by omega)

/-- Every peer of a list that is reported is PEER_DOWN at the end. -/
theorem reportPeers_down {k : Nat} (port cause : Nat) (hk : k < 80) (l : List (Nat × Nat)) (s : State)
    (h : k ∈ l.map (·.1) ∨ (s.peer k).down = true) : ((l.foldl (fun s p => reportPeer p.1 p.2 port cause s) s).peer k).down = true := by
  induction l generalizing s with
  | nil => simpa using h
  | cons p l ih =>
    rw [List.map_cons, List.mem_cons, or_assoc] at h
    refine ih _ ?_
    obtain h | h | h := h
    · exact .inr (reportPeer_down _ _ _ hk (.inl h))
    · exact .inl h
    · exact .inr (reportPeer_down _ _ _ hk (.inr h))

end Sys2Proof.Machine
end

section
/-! The training of a port (R424 to R427). The settlement of O56. -/

namespace Sys2Proof.Machine

open Sys2Proof

/-! ### The commands -/

section
variable {s : State} (hup : s.up = true)
include hup

theorem exec_partnerDetect (n : Nat) (l : BitVec 4) : exec (.partnerDetect n l) s = .next (s.modPort n (partnerDetect l)) := by
  change execPartnerDetect n l s = _
  rw [execPartnerDetect, whenUp_next hup]

theorem exec_signalDone (n : Nat) (l : BitVec 4) : exec (.signalDone n l) s = .next (if (s.port n).state = .signal ∨ (s.port n).state = .retrain then
    lockLanes n ((s.port n).good &&& l) (s.setPort n (signalDone l (s.port n))) else s) := by
  change execSignalDone n l s = _
  rw [execSignalDone, whenUp_next hup]

theorem exec_equalizeDone (n : Nat) (l : BitVec 4) : exec (.equalizeDone n l) s = .next (s.modPort n (equalizeDone l)) := by
  change execEqualizeDone n l s = _
  rw [execEqualizeDone, whenUp_next hup]

theorem exec_alignDone (n : Nat) (l : BitVec 4) : exec (.alignDone n l) s = .next (alignDone n l s) := by
  change execAlignDone n l s = _
  rw [execAlignDone, whenUp_next hup]

theorem exec_linkMessage (n : Nat) (m : LinkMsg) : exec (.linkMessage n m) s = .next (linkMessage n m s) := by
  change execLinkMessage n m s = _
  rw [execLinkMessage, whenUp_next hup]

theorem exec_trainingLimitExpiry (n : Nat) : exec (.trainingLimitExpiry n) s = .next (s.modPort n limitExpiry) := by
  change execTrainingLimitExpiry n s = _
  rw [execTrainingLimitExpiry, whenUp_next hup]

theorem exec_laneLockLoss (lane : Nat) : exec (.laneLockLoss lane) s = .next (laneLockLoss lane s) := by
  change execLaneLockLoss lane s = _
  rw [execLaneLockLoss, whenUp_next hup]

theorem exec_fecUncorrLimit (lane : Nat) : exec (.fecUncorrLimit lane) s = .next (fecLimit lane s) := by
  change execFecUncorrLimit lane s = _
  rw [execFecUncorrLimit, whenUp_next hup]

theorem exec_linkDownTimeout (n : Nat) : exec (.linkDownTimeout n) s = .next (linkDownTimeout n s) := by
  change execLinkDownTimeout n s = _
  rw [execLinkDownTimeout, whenUp_next hup]

theorem exec_downRetry (n : Nat) :
    exec (.downRetry n) s = .next (s.modPort n (fun p => if p.state = .down then { p with state := .detect } else p)) := by
  change execDownRetry n s = _
  rw [execDownRetry, whenUp_next hup]

theorem exec_portEnable (r : Requester) (n : Nat) :
    exec (.portEnable r n) s = .next (if r = .fn 0 then answerReg r .ok .empty (enablePort n s) else denyReg r s) := by
  change execPortEnable r n s = _
  rw [execPortEnable, whenUp_next hup]
  simp only [beq_iff_eq]

theorem exec_portDisable (r : Requester) (n : Nat) :
    exec (.portDisable r n) s = .next (if r = .fn 0 then answerReg r .ok .empty (disablePort n s) else denyReg r s) := by
  change execPortDisable r n s = _
  rw [execPortDisable, whenUp_next hup]
  simp only [beq_iff_eq]

theorem exec_rewiden (r : Requester) (n : Nat) :
    exec (.rewiden r n) s = .next (if r = .fn 0 then answerReg r .ok .empty (s.modPort n rewidenPort) else denyReg r s) := by
  change execRewiden r n s = _
  rw [execRewiden, whenUp_next hup]
  simp only [beq_iff_eq]

end

/-! ### Lanes (R424, R427) -/

/-- A lane of a port gains lock when its bit is set. -/
def lockLane (n : Nat) (l : BitVec 4) (s : State) (k : Nat) : State :=
  if l.getLsbD k then s.setLane (4 * n + k) { s.lane (4 * n + k) with lock := true } else s

theorem lockLanes_eq (n : Nat) (l : BitVec 4) (s : State) : lockLanes n l s = (List.range 4).foldl (lockLane n l) s := rfl

theorem lockLane_leaves (n : Nat) (l : BitVec 4) (s : State) (k : Nat) :
    (lockLane n l s k).ports = s.ports ∧ (lockLane n l s k).chans = s.chans := by
  unfold lockLane
  split <;> exact ⟨rfl, rfl⟩

theorem lockLanes_leaves (n : Nat) (l : BitVec 4) (s : State) : (lockLanes n l s).ports = s.ports ∧ (lockLanes n l s).chans = s.chans :=
  List.foldlRecOn (motive := fun t : State => t.ports = s.ports ∧ t.chans = s.chans) _ _ ⟨rfl, rfl⟩ fun t ht k _ =>
    ⟨(lockLane_leaves n l t k).1.trans ht.1, (lockLane_leaves n l t k).2.trans ht.2⟩

theorem lockLane_lock (n : Nat) (l : BitVec 4) (s : State) (j k : Nat) (h : (j = k ∧ l.getLsbD k = true) ∨ (s.lane (4 * n + k)).lock = true) :
    ((lockLane n l s j).lane (4 * n + k)).lock = true := by
  unfold lockLane
  by_cases hjk : j = k
  · subst hjk
    split
    · rw [State.setLane_lane_same]
    · exact h.resolve_left (by simp_all)
  · have hlock := h.resolve_left (by simp [hjk])
    split
    · rw [State.setLane_lane_other _ _ _ _ (by omega)]
      exact hlock
    · exact hlock

theorem lockLanes_lock {n k : Nat} {l : BitVec 4} (hk : k < 4) (h : l.getLsbD k = true) (s : State) :
    ((lockLanes n l s).lane (4 * n + k)).lock = true := by
  have hfold (js : List Nat) (t : State) (hj : k ∈ js ∨ (t.lane (4 * n + k)).lock = true) :
      ((js.foldl (lockLane n l) t).lane (4 * n + k)).lock = true := by
    induction js generalizing t with
    | nil => exact hj.resolve_left List.not_mem_nil
    | cons j js ih =>
      refine ih _ ?_
      rw [List.mem_cons, or_assoc] at hj
      obtain hj | hj | hj := hj
      · exact .inr (lockLane_lock n l t j k (.inl ⟨hj.symm, h⟩))
      · exact .inl hj
      · exact .inr (lockLane_lock n l t j k (.inr hj))
  exact hfold _ s (.inl (List.mem_range.mpr hk))

theorem dropLane_good {k : Nat} (hk : k < 4) (p : Port) : (dropLane k p).good.getLsbD k = false := by
  change (p.good &&& ~~~BitVec.ofNat 4 (2 ^ k)).getLsbD k = false
  rw [BitVec.getLsbD_and, BitVec.getLsbD_not, BitVec.getLsbD_ofNat, Nat.testBit_two_pow_self]
  simp [hk]

theorem lanePort_of (n : Nat) {k : Nat} (hk : k < 4) : lanePort (4 * n + k) = (n, k) := by
  unfold lanePort
  rw [Prod.mk.injEq]
  omega

/-- A port without a lane: one that is ACTIVE retrains. -/
def Port.without (k : Nat) (p : Port) : Port := if p.state = .active then toRetrain (dropLane k p) else dropLane k p

theorem Port.without_good {k : Nat} (hk : k < 4) (p : Port) : (p.without k).good.getLsbD k = false := by
  unfold Port.without
  split
  · exact dropLane_good hk p
  · exact dropLane_good hk p

theorem Port.without_state (k : Nat) (p : Port) : (p.without k).state = if p.state = .active then .retrain else p.state := by
  unfold Port.without
  split <;> rfl

theorem laneLockLoss_eq (n : Nat) {k : Nat} (hk : k < 4) (s : State) : laneLockLoss (4 * n + k) s =
    (s.setLane (4 * n + k) { s.lane (4 * n + k) with lock := false }).setPort n ((s.port n).without k) := by
  unfold laneLockLoss
  rw [lanePort_of n hk]
  rfl

/-- A lane with its uncorrectable codewords counted. -/
def fecCounted (lane : Nat) (s : State) : State :=
  s.setLane lane { s.lane lane with fecUncorr := wrap64 ((s.lane lane).fecUncorr + fieldOf (eff 0x40018 s) 0 16 + 1) }

theorem fecLimit_eq (n : Nat) {k : Nat} (hk : k < 4) (s : State) : fecLimit (4 * n + k) s =
    if (s.port n).state = .active then (fecCounted (4 * n + k) s).setPort n (toRetrain (dropLane k (s.port n))) else fecCounted (4 * n + k) s := by
  unfold fecLimit
  rw [lanePort_of n hk]
  rfl

/-! ### The end of CONFIG (R425, R426) -/

/-- The partner of a port is another than before. -/
def Port.changes (fid unit : Nat) (p : Port) : Bool := p.partnerKnown && (p.partnerFid != fid || p.partnerUnit != unit)

/-- A port as it meets its partner: afresh with another one. -/
def Port.meets (fid unit : Nat) (p : Port) : Port :=
  if p.changes fid unit then { freshLink p with partnerChange := wrap64 (p.partnerChange + 1) } else p

/-- A port that trained before and meets the same partner keeps its credits and what is not acknowledged. -/
def Port.resumed (fid unit : Nat) (credits : List Nat) (expect : Nat) (p : Port) : Port :=
  if p.changes fid unit || !p.wasActive then { p.meets fid unit with credits := credits }
  else { p.meets fid unit with replayBuf := dropThrough ((expect + 65535) % 65536) (p.meets fid unit).replayBuf }

/-- A port whose CONFIG has ended at a width. -/
def Port.configured (fid unit : Nat) (lanes : BitVec 4) (w : Nat) (credits : List Nat) (expect : Nat) (p : Port) : Port :=
  { p.resumed fid unit credits expect with
    state := .active, wasActive := true, wasDown := false, width := w, lanes := laneSet (p.good &&& lanes) w,
    partnerFid := fid, partnerUnit := unit, partnerKnown := true, replays := 0 }

theorem linkEvent_host (ev : Event) (s : State) : HostSide s (linkEvent ev s) := (raiseEvent_host _ _ _ _).trans (raiseEvent_host _ _ _ _)

theorem resend_ports (n : Nat) (l : List SentFlit) (s : State) : (resend n l s).ports = s.ports :=
  List.foldlRecOn (motive := fun t : State => t.ports = s.ports) l _ rfl fun _ ht _ _ => ht

section
variable {n fid unit expect width : Nat} {lanes : BitVec 4} {credits : List Nat} {s : State}

theorem configDone_none (h : widthOf ((s.port n).good &&& lanes) (min (widestOf n s) width) = 0) :
    configDone n fid unit lanes width credits expect s = s := if_pos h

theorem configDone_ports (h : widthOf ((s.port n).good &&& lanes) (min (widestOf n s) width) ≠ 0) :
    (configDone n fid unit lanes width credits expect s).ports =
      (s.setPort n ((s.port n).configured fid unit lanes (widthOf ((s.port n).good &&& lanes) (min (widestOf n s) width)) credits expect)).ports := by
  unfold configDone
  extract_lets p w changed afresh met fresh resumed placed sent up
  rw [if_neg h]
  have hsent : sent.ports = placed.ports := by
    unfold sent
    split
    · rfl
    · exact resend_ports _ _ _
  have hup : up.ports = sent.ports := by
    unfold up
    split
    · exact (linkEvent_host _ _).ports
    · rfl
  have hplaced : placed = s.setPort n (p.configured fid unit lanes w credits expect) := rfl
  rw [← hplaced]
  split
  · exact ((linkEvent_host _ _).ports.trans hup).trans hsent
  · exact hup.trans hsent

end

/-! ### A port that stays away (R427) -/

section
variable (fn : Nat) (s : State)

theorem trySend_reqs (vec : Nat) : (trySend fn vec s).reqs = s.reqs := by
  unfold trySend
  extract_lets f v
  (repeat' split) <;> rfl

theorem writeEvent_reqs (h : HeldEvent) : (writeEvent fn h s).reqs = s.reqs := by
  unfold writeEvent onCause
  exact trySend_reqs _ _ _

theorem postEvent_reqs (h : HeldEvent) : (postEvent fn h s).reqs = s.reqs := by
  unfold postEvent
  extract_lets f l
  split
  · rfl
  · split
    · exact writeEvent_reqs _ _ _
    · split <;> rfl

theorem raiseEvent_reqs (ev : Event) (source : Nat) : (raiseEvent fn ev source s).reqs = s.reqs := by
  unfold raiseEvent raiseEventN
  extract_lets h f
  split
  · split
    · exact postEvent_reqs _ _ _
    · rfl
  · exact postEvent_reqs _ _ _

end

theorem linkEvent_reqs (ev : Event) (s : State) : (linkEvent ev s).reqs = s.reqs := (raiseEvent_reqs _ _ _ _).trans (raiseEvent_reqs _ _ _ _)

/-- A port in DOWN. -/
def Port.downed (p : Port) : Port := { freshLink p with state := .down, wasActive := false, wasDown := true, width := 0, lanes := 0 }

/-- A port that serves no peer has no request. -/
theorem reqs_of_peersOf {n : Nat} {s : State} (h : peersOf n s = []) : s.reqs.filter (fun r => r.port == n) = [] := by
  unfold peersOf at h
  rw [List.dedup_eq_nil, List.append_eq_nil_iff] at h
  exact List.map_eq_nil_iff.mp h.1

/-- A port that serves no peer goes down and says so. -/
theorem toDown_alone {n : Nat} {s : State} (h : peersOf n s = []) : toDown n s = linkEvent (.linkDown n) (s.setPort n (s.port n).downed) := by
  have hreqs : (linkEvent (.linkDown n) (s.setPort n (s.port n).downed)).reqs.filter (fun r => r.port == n) = [] := by
    rw [linkEvent_reqs]
    exact reqs_of_peersOf h
  unfold toDown
  rw [h]
  change (List.filter _ (linkEvent (.linkDown n) (s.setPort n (s.port n).downed)).reqs).foldl _ _ = _
  rw [hreqs]
  rfl

/-- The peers that a port serves are PEER_DOWN once it is down. -/
theorem toDown_peers {n : Nat} {s : State} {q : Nat × Nat} (hq : q ∈ peersOf n s) (hfid : q.1 < 80) : ((toDown n s).peer q.1).down = true :=
  reportPeers_down n 3 hfid (peersOf n s) _ (.inl (List.mem_map_of_mem hq))

theorem linkDownTimeout_stays {n : Nat} {s : State} (h : (s.port n).state ∈ [PortState.active, .disabled, .down]) : linkDownTimeout n s = s := by
  unfold linkDownTimeout
  split <;> simp_all

theorem linkDownTimeout_down {n : Nat} {s : State} (h : (s.port n).state ∉ [PortState.active, .disabled, .down]) :
    linkDownTimeout n s = toDown n s := by
  unfold linkDownTimeout
  split <;> simp_all

/-! ### A limit, and F0's controls (R424, R426) -/

theorem limitExpiry_stays {p : Port} (h : p.state ∈ [PortState.disabled, .detect, .active, .down]) : limitExpiry p = p := by
  unfold limitExpiry
  split <;> simp_all

theorem limitExpiry_again {p : Port} (h : p.state ∈ [PortState.signal, .equalize, .align, .config]) :
    limitExpiry p = if p.wasActive then toRetrain p else { p with state := .detect } := by
  unfold limitExpiry
  split <;> simp_all

theorem limitExpiry_retrain {p : Port} (h : p.state = .retrain) : limitExpiry p = toRetrain p := by
  unfold limitExpiry
  rw [h]

theorem setPortCtl_ports (n b : Nat) (s : State) : (setPortCtl n b s).ports = s.ports := rfl

theorem enablePort_port (n : Nat) (s : State) :
    ((enablePort n s).port n = if (s.port n).state = .disabled then { s.port n with state := .detect } else s.port n) ∧
      ∀ k, k ≠ n → (enablePort n s).port k = s.port k :=
  ⟨State.modPort_port_same _ _ _, fun _ hk => State.modPort_port_other _ _ _ _ hk⟩

theorem disablePort_port (n : Nat) (s : State) :
    ((disablePort n s).port n).state = .disabled ∧ ∀ k, k ≠ n → (disablePort n s).port k = s.port k := by
  refine ⟨?_, fun k hk => State.modPort_port_other _ _ _ _ hk⟩
  unfold disablePort
  rw [State.modPort_port_same]
  split
  · assumption
  · rfl

theorem port_of_ports {s t : State} (h : t.ports = s.ports) (k : Nat) : t.port k = s.port k := by rw [State.port, h, State.port]

/-- The end of CONFIG at a width, of the ports. -/
theorem configDone_port {n fid unit expect width : Nat} {lanes : BitVec 4} {credits : List Nat} {s : State}
    (h : widthOf ((s.port n).good &&& lanes) (min (widestOf n s) width) ≠ 0) :
    (configDone n fid unit lanes width credits expect s).port n =
        (s.port n).configured fid unit lanes (widthOf ((s.port n).good &&& lanes) (min (widestOf n s) width)) credits expect ∧
      ∀ k, k ≠ n → (configDone n fid unit lanes width credits expect s).port k = s.port k :=
  ⟨(port_of_ports (configDone_ports h) n).trans (State.setPort_port_same _ _ _),
    fun k hk => (port_of_ports (configDone_ports h) k).trans (State.setPort_port_other _ _ _ _ hk)⟩

section
variable {fid unit expect : Nat} {credits : List Nat} {p : Port}

theorem Port.resumed_first (h : p.wasActive = false) : (p.resumed fid unit credits expect).credits = credits := by
  simp [Port.resumed, h]

theorem Port.resumed_again (h : p.wasActive = true) (hfid : p.partnerFid = fid) (hunit : p.partnerUnit = unit) :
    p.resumed fid unit credits expect = { p with replayBuf := dropThrough ((expect + 65535) % 65536) p.replayBuf } := by
  have hsame : p.changes fid unit = false := by simp [Port.changes, hfid, hunit]
  simp [Port.resumed, Port.meets, hsame, h]

theorem Port.resumed_changed (hknown : p.partnerKnown = true) (hfid : p.partnerFid ≠ fid) :
    p.resumed fid unit credits expect = { freshLink p with partnerChange := wrap64 (p.partnerChange + 1), credits := credits } := by
  have hother : p.changes fid unit = true := by simp [Port.changes, hknown, hfid]
  simp [Port.resumed, Port.meets, hother]

end

/-- Settles O56: each stage by the port's state; the end of CONFIG by the partner; the loss of a lane; the way down; F0's controls. -/
theorem portsTrain : Obligations.PortsTrain := by
  refine fun n s hup => ⟨fun l => ?detect, fun l => ?signal, fun l => ?equalize, fun l => ⟨fun hstate => ?align, fun hstate => ?alignIdle⟩,
    fun f u l w cr e => ⟨fun hstate => ?configIdle, fun hstate => ⟨fun hnone => ?configNone, fun hwidth => ?config⟩⟩, ?retrain, ?limit,
    fun k hk => ⟨?lockLoss, ?fec⟩, fun hstate => ?downIdle, fun hstate hpeers => ?downAlone, fun hstate => ⟨?down, fun q hq hfid => toDown_peers hq hfid⟩,
    ?retry, fun r => ⟨fun hr => ⟨?enableDenied, ?disableDenied, ?rewidenDenied⟩, fun hr => ?controls⟩⟩
  case detect =>
    exact ⟨_, exec_partnerDetect hup n l, fun k hk => State.modPort_port_other _ _ _ _ hk, rfl, rfl, State.modPort_port_same _ _ _⟩
  case signal =>
    refine ⟨_, exec_signalDone hup n l, ?_⟩
    obtain ⟨hports, hchans⟩ := lockLanes_leaves n ((s.port n).good &&& l) (s.setPort n (signalDone l (s.port n)))
    have hport := (port_of_ports hports n).trans (State.setPort_port_same _ _ _)
    split
    · refine ⟨fun k hk => (port_of_ports hports k).trans (State.setPort_port_other _ _ _ _ hk), hchans, fun hsignal => ⟨?_, fun k hk hgood hlane => ?_⟩,
        fun hretrain => ?_, fun hns hnr => ?_⟩
      · rw [hport, signalDone, if_pos hsignal]
      · exact lockLanes_lock hk (by rw [BitVec.getLsbD_and, hgood, hlane]; rfl) _
      · rw [hport, signalDone, if_neg (by simp [hretrain]), if_pos hretrain]
      · simp_all
    · rename_i hidle
      exact ⟨fun _ _ => rfl, rfl, fun h => absurd (.inl h) hidle, fun h => absurd (.inr h) hidle, fun _ _ => rfl⟩
  case equalize =>
    exact ⟨_, exec_equalizeDone hup n l, fun k hk => State.modPort_port_other _ _ _ _ hk, rfl, State.modPort_port_same _ _ _⟩
  case align =>
    rw [exec_alignDone hup, alignDone]
    exact congrArg _ (if_pos hstate)
  case alignIdle =>
    rw [exec_alignDone hup, alignDone]
    exact congrArg _ (if_neg hstate)
  case configIdle =>
    rw [exec_linkMessage hup]
    exact congrArg _ (if_neg hstate)
  case configNone =>
    rw [exec_linkMessage hup]
    exact congrArg _ ((if_pos hstate).trans (configDone_none hnone))
  case config =>
    obtain ⟨hport, hother⟩ := configDone_port (fid := f) (unit := u) (credits := cr) (expect := e) hwidth
    refine ⟨configDone n f u l w cr e s, ?_, ?_⟩
    · rw [exec_linkMessage hup]
      exact congrArg _ (if_pos hstate)
    · rw [hport]
      refine ⟨rfl, rfl, rfl, rfl, rfl, fun hfirst => Port.resumed_first hfirst, fun hagain hfid hunit => ?_, fun hknown hfid => ?_, hother⟩
      · rw [Port.configured, Port.resumed_again hagain hfid hunit]
        exact ⟨rfl, rfl, rfl⟩
      · rw [Port.configured, Port.resumed_changed hknown hfid]
        exact ⟨rfl, rfl⟩
  case retrain => exact exec_linkMessage hup n .retrain
  case limit =>
    refine ⟨_, exec_trainingLimitExpiry hup n, fun k hk => State.modPort_port_other _ _ _ _ hk, fun h => ?_, fun h => ?_, fun h => ?_⟩
    · rw [State.modPort_port_same, limitExpiry_stays h]
    · rw [State.modPort_port_same, limitExpiry_again h]
    · rw [State.modPort_port_same, limitExpiry_retrain h]
  case lockLoss =>
    refine ⟨_, exec_laneLockLoss hup _, ?_⟩
    rw [laneLockLoss_eq n hk]
    refine ⟨?_, ?_, ?_, fun j hj => State.setPort_port_other _ _ _ _ hj⟩
    · rw [State.setPort_lane, State.setLane_lane_same]
    · rw [State.setPort_port_same]
      exact Port.without_good hk _
    · rw [State.setPort_port_same]
      exact Port.without_state k _
  case fec =>
    refine ⟨_, exec_fecUncorrLimit hup _, ?_⟩
    rw [fecLimit_eq n hk]
    have hlane : ((fecCounted (4 * n + k) s).lane (4 * n + k)).fecUncorr = wrap64 ((s.lane (4 * n + k)).fecUncorr + fieldOf (eff 0x40018 s) 0 16 + 1) := by
      rw [fecCounted, State.setLane_lane_same]
    split
    · rename_i hactive
      refine ⟨hlane, fun _ => ?_, fun hidle => absurd hactive hidle⟩
      rw [State.setPort_port_same]
      exact ⟨rfl, dropLane_good hk _⟩
    · rename_i hidle
      exact ⟨hlane, fun hactive => absurd hactive hidle, fun _ => rfl⟩
  case downIdle => rw [exec_linkDownTimeout hup, linkDownTimeout_stays hstate]
  case downAlone =>
    refine ⟨_, exec_linkDownTimeout hup n, ?_⟩
    rw [linkDownTimeout_down hstate, toDown_alone hpeers]
    have hhost := linkEvent_host (.linkDown n) (s.setPort n (s.port n).downed)
    have hport := (port_of_ports hhost.ports n).trans (State.setPort_port_same _ _ _)
    rw [hport]
    exact ⟨rfl, rfl, rfl, fun k hk => (port_of_ports hhost.ports k).trans (State.setPort_port_other _ _ _ _ hk), hhost.chans⟩
  case down => rw [exec_linkDownTimeout hup, linkDownTimeout_down hstate]
  case retry => exact ⟨_, exec_downRetry hup n, fun k hk => State.modPort_port_other _ _ _ _ hk, State.modPort_port_same _ _ _⟩
  case enableDenied => rw [exec_portEnable hup, if_neg hr]
  case disableDenied => rw [exec_portDisable hup, if_neg hr]
  case rewidenDenied => rw [exec_rewiden hup, if_neg hr]
  case controls =>
    obtain ⟨henabled, henabledOther⟩ := enablePort_port n s
    obtain ⟨hdisabled, hdisabledOther⟩ := disablePort_port n s
    refine ⟨?_, henabled, ?_, hdisabled, fun k hk => ⟨hdisabledOther k hk, henabledOther k hk⟩, ?_⟩
    · rw [exec_portEnable hup, if_pos hr]
    · rw [exec_portDisable hup, if_pos hr]
    · rw [exec_rewiden hup, if_pos hr]
      rfl

end Sys2Proof.Machine
end
